-- ==== Sys2Proof/Word.lean ====
section
/-! DEFINITION. The word types of the model (R6, R352). -/

namespace Sys2Proof

/-- One byte. -/
abbrev Byte := BitVec 8

/-- One Control Space register (all registers are 32 bits wide). -/
abbrev Word := BitVec 32

end Sys2Proof
end

