-- ==== Sys2Proof/Syntax.lean ====
section
/-! DEFINITION. The commands and events of the block: one constructor of `Instr` for each row of
spec/opcode_table.json, with the operands that its environment fixes (what arrives on a port, a pin or a bus, and what
only the physics decides). -/

namespace Sys2Proof

/-- A mailbox frame as a point receives it (Table 12.2): the point it arrived at, the header fields and the payload.
LENGTH is the payload's length (R334); `rsv` is the number the 26 reserved bytes at 0x16 spell. -/
structure Frame where
  point : Nat
  opcode : Nat
  flags : Nat
  version : Nat
  tag : Nat
  session : Nat
  status : Nat
  ctr : Nat
  dstate : Nat
  trole : Nat
  rsv : Nat
  mac : BitVec 128
  payload : List Byte
deriving DecidableEq, Repr

/-- A key-slot engine request (Table 15.2). -/
structure KseReq where
  op : Nat
  slot : Nat
  slotGen : Nat
  flags : Nat
  src : Nat
  dst : Nat
  dstTile : Nat
  dstAttr : Nat
  data : BitVec 128
  tag : Nat
  rsv : Nat
deriving DecidableEq, Repr

/-- What an SMBus controller does in one transaction that addresses the device (R450 to R455). -/
inductive SmbusXfer
  | blockWrite (cmd : Nat) (bytes : List Byte)   -- the bytes after the command byte, the PEC last
  | blockRead (done : Bool)                      -- done: PEC clocked and NACKed, then STOP
  | readByte
deriving DecidableEq, Repr

/-- How a Host Notify ends on the wires (R456, R457). -/
inductive NotifyEnd
  | sent | nacked | arbLost
deriving DecidableEq, Repr

/-- A transport packet that a port has received with a good ICRC (R208, R209): where it arrived, whether it came to the logical
port's service address, whether it is marked ECN Congestion Experienced, its BTH opcode and PSN, the RETH or AtomicETH fields that
its opcode carries, the immediate data, the payload. -/
structure Packet where
  tile : Nat
  port : Nat
  lport : Nat
  service : Bool
  ecn : Bool
  qpn : Nat
  opcode : Nat
  psn : Nat
  va : Nat
  key : Nat
  len : Nat
  swap : Nat
  cmp : Nat
  imm : Nat
  data : List Byte
deriving DecidableEq, Repr

/-- A connection REQ (R213): where it arrived, the requester's QPN, starting PSN, GID, path MTU (0 1,024, 1 2,048, 2 4,096, else
another), retry counts, local ACK timeout, responder resources it asks for, whether the service type and every feature it asks for are
supported, and the first 32 bytes of its private data. -/
structure ConnectReq where
  tile : Nat
  port : Nat
  lport : Nat
  service : Bool
  rqpn : Nat
  psn : Nat
  gid : Nat
  mtu : Nat
  retry : Nat
  rnrRetry : Nat
  ackTimeout : Nat
  respRes : Nat
  supported : Bool
  priv : List Byte
deriving DecidableEq, Repr

/-- What an Ethernet frame is, as the port classifies it (R203, R208): its size, a good FCS, an IP form without options or extension
headers, whether its destination is a service address, whether it is a RoCEv2 packet, and whether its ICRC is good. -/
structure FrameInfo where
  size : Nat
  fcs : Bool
  ipForm : Bool
  service : Bool
  roce : Bool
  icrc : Bool
  asks : Option Nat
deriving DecidableEq, Repr

/-- A capsule of a QP by its PSN, or a descriptor of a chain queue by its ring index. -/
inductive ExecId
  | capsule (qpn psn : Nat)
  | desc (cqn idx : Nat)
deriving DecidableEq, Repr

/-- An error in a near-tier word (R59): its number (AMS address over 8), and whether SECDED cannot correct it. -/
structure NearErr where
  word : Nat
  uncorr : Bool
deriving DecidableEq, Repr


/-- A command or an event: one constructor for each row of the table, said by its row there. -/
inductive Instr
  /-- VAON_APPLIED (R342): `TW_PREF` and `TWB_ADR` as sampled. -/
  | vaonApplied (pref : Bool) (adr : Nat)
  /-- VAON_LOST (R342). -/
  | vaonLost
  /-- VAON_LOW (R383). -/
  | vaonLow
  /-- MAINS_OK_HIGH (R342). -/
  | mainsOkHigh
  /-- MAINS_OK_LOW (R382): the tile whose comparator acts. -/
  | mainsOkLow (tile : Nat)
  /-- HU_TRIP (R382). -/
  | huTrip (tile : Nat)
  /-- HU_EMERG (R189). -/
  | huEmerg (tile : Nat)
  /-- TRIP_ARM (R382). -/
  | tripArm (tile : Nat)
  /-- TCRIT (R383). -/
  | tcrit (tile : Nat)
  /-- FREEZE_NET (R14). -/
  | freezeNet (tile : Nat)
  /-- RAIL_FAULT (R380). -/
  | railFault (rail : Nat)
  /-- PHASE_FAULT (R380): short: the rest cannot carry the rail at TDP. -/
  | phaseFault (stage : Nat) (short : Bool)
  /-- PHASE_SHED_LOAD (R380). -/
  | phaseShedLoad (stage : Nat) (on : Bool)
  /-- XTAL_FAIL (R384). -/
  | xtalFail
  /-- WAKE_N (R388). -/
  | wakeN (low : Bool)
  /-- WAKE_TIMER (R388). -/
  | wakeTimer
  /-- THERMAL_CHECK (R392): each tile's hottest sensor, 0.1 °C, signed 16-bit. -/
  | thermalCheck (temps : List Nat)
  /-- WDOG_KICK (R376). -/
  | wdogKick
  /-- WDOG_EXPIRY (R376). -/
  | wdogExpiry
  /-- LEASE_KICK (R283). -/
  | leaseKick
  /-- LEASE_EXPIRED (R283). -/
  | leaseExpired
  /-- FREEZE_TRIGGER (R188). -/
  | freezeTrigger (tile : Nat) (source : Nat)
  /-- SECOND_TRIGGER (R188). -/
  | secondTrigger (tile : Nat)
  /-- DRAIN_WINDOW_END (R189). -/
  | drainWindowEnd (tile : Nat)
  /-- DUMP_COMPLETE (R189). -/
  | dumpComplete (tile : Nat)
  /-- SEAL_VERIFIED (R189). -/
  | sealVerified (tile : Nat)
  /-- RAILS_REMOVED (R189). -/
  | railsRemoved
  /-- MAINS_RETURN (R192). -/
  | mainsReturn
  /-- COLD_BOOT (R192). -/
  | coldBoot
  /-- BOOT (R361): the temperature of each tile's die in step 1, signed, 0.1 °C (R383, R485). -/
  | boot (temps : List Nat)
  /-- BOOTROM_KEY_INIT (R366): the known-answer and entropy tests pass. -/
  | bootromKeyInit (ok : Bool)
  /-- SELFTEST_SLICE (R369). -/
  | selftestSlice (tile : Nat) (slice : Nat)
  /-- SLICE_RESULT (R369): outcome 0 PASS, 1 DEGRADED, 2 FAIL; detail: what the slice measured or spared. -/
  | sliceResult (tile : Nat) (slice : Nat) (outcome : Nat) (detail : Nat)
  /-- SLICE_BUDGET_EXPIRY (R369). -/
  | sliceBudgetExpiry (tile : Nat)
  /-- DRAM_TRAIN (R101). -/
  | dramTrain (found : List (Nat × Nat)) (compareBad : List Nat) (bad : List Nat)
  /-- BANK_MEASURE_START (R371): HU_SENSE and V1, mV. -/
  | bankMeasureStart (hu : Nat) (v1 : Nat)
  /-- BANK_WAIT_EXPIRY (R371). -/
  | bankWaitExpiry
  /-- BANK_MEASURE_END (R371): t, µs; whether HU_SENSE stayed above TRIP + 0.3 V. -/
  | bankMeasureEnd (t : Nat) (stayed : Bool)
  /-- RESTORE (R196). -/
  | restore (tile : Nat) (rootOk : Bool) (metaOk : Bool) (lost : List Nat)
  /-- RELEASE_TO_SERVICE (R374). -/
  | releaseToService
  /-- BG_RESTORE_PAGE (R197). -/
  | bgRestorePage (tile : Nat) (hard : Bool) (iters : Nat) (retry : Nat) (soft : Bool) (parity : Bool)
  /-- ROLE_SETTLE (R294). -/
  | roleSettle
  /-- HELLO_SEND (R271). -/
  | helloSend (tile : Nat)
  /-- HELLO (R272). -/
  | hello (tile : Nat) (frame : List Byte)
  /-- HEARTBEAT_SEND (R282). -/
  | heartbeatSend (tile : Nat)
  /-- HEARTBEAT (R297). -/
  | heartbeat (tile : Nat) (frame : List Byte)
  /-- HEARTBEAT_WORD (R282, R499): the length and the high time of each period received on `TW_HBRX`, in ns, start mark first. -/
  | heartbeatWord (periods : List (Nat × Nat)) (pad : Bool)
  /-- PARTNER_LOST (R284). -/
  | partnerLost
  /-- PATH_LOST (R284). -/
  | pathLost
  /-- INTERLOCK_FAULT (R286). -/
  | interlockFault
  /-- TW_ACTI_CHANGE (R285). -/
  | twActiChange (level : Bool)
  /-- GUARD_EXPIRY (R285). -/
  | guardExpiry
  /-- CONTENTION_BACKOFF (R285). -/
  | contentionBackoff
  /-- TAKEOVER (R287). -/
  | takeover
  /-- TWIN_GATE_CHANGE (R24). -/
  | twinGateChange
  /-- MIRROR (R277). -/
  | mirror (tile : Nat) (frame : List Byte)
  /-- MIRROR_RETRANSMIT (R277). -/
  | mirrorRetransmit (tile : Nat)
  /-- MIRROR_ACK (R276). -/
  | mirrorAck (tile : Nat) (frame : List Byte)
  /-- CREDIT (R278). -/
  | credit (tile : Nat) (frame : List Byte)
  /-- CREDIT_BOOKS_RESET (R278). -/
  | creditBooksReset (tile : Nat)
  /-- FETCH_REQ (R281). -/
  | fetchReq (tile : Nat) (frame : List Byte)
  /-- FETCH_RESP (R297). -/
  | fetchResp (tile : Nat) (frame : List Byte)
  /-- FETCH_TIMEOUT (R297). -/
  | fetchTimeout (tile : Nat) (id : Nat)
  /-- PORTION_RECORD (R298). -/
  | portionRecord (tile : Nat)
  /-- ATOMIC_RECORD (R231). -/
  | atomicRecord (tile : Nat)
  /-- QP_CTX_RECORD (R298). -/
  | qpCtxRecord (tile : Nat)
  /-- CAPSULE_RECORD (R298). -/
  | capsuleRecord (tile : Nat)
  /-- COMPLETION_RECORD (R298). -/
  | completionRecord (tile : Nat)
  /-- START_RECORD (R265). -/
  | startRecord (tile : Nat)
  /-- CHAIN_RECORD (R298). -/
  | chainRecord (tile : Nat)
  /-- COMMAND_RECORD (R333). -/
  | commandRecord
  /-- REVOKE_RECORD (R298). -/
  | revokeRecord
  /-- ORDER_RECORD (R298). -/
  | orderRecord
  /-- MOVE_RECORD (R51). -/
  | moveRecord (tile : Nat)
  /-- READY_RECORD (R51). -/
  | readyRecord (tile : Nat)
  /-- INDEX_MARK (R322). -/
  | indexMark (tile : Nat)
  /-- EPOCH_RECORD (R274). -/
  | epochRecord
  /-- SWAP_RECORD (R293). -/
  | swapRecord
  /-- SNAPSHOT_RECORD (R291). -/
  | snapshotRecord (tile : Nat)
  /-- STATE_RECORD (R298). -/
  | stateRecord (tile : Nat)
  /-- RESYNC_SNAPSHOT (R291). -/
  | resyncSnapshot (tile : Nat)
  /-- RESYNC_COMPLETE (R291). -/
  | resyncComplete
  /-- COMEBACK_HOLDOFF (R292). -/
  | comebackHoldoff
  /-- SWAP_TIMEOUT (R293). -/
  | swapTimeout
  /-- TWIN_LINK_DOWN (R290). -/
  | twinLinkDown (tile : Nat)
  /-- TWIN_LINK_UP (R410). -/
  | twinLinkUp (tile : Nat)
  /-- PN_NEAR (R410). -/
  | pnNear (tile : Nat)
  /-- RX_NEW_KN (R411). -/
  | rxNewKn (tile : Nat) (mac : Nat) (kn : Nat)
  /-- MACSEC_VERIFY_FAIL (R269). -/
  | macsecVerifyFail (tile : Nat) (replay : Bool)
  /-- PAIR_KEY_TIMEOUT (R411). -/
  | pairKeyTimeout (tile : Nat)
  /-- ETH_LINK_UP (R201). -/
  | ethLinkUp (tile : Nat) (port : Nat) (lport : Nat)
  /-- ETH_LINK_DOWN (R215). -/
  | ethLinkDown (tile : Nat) (port : Nat) (lport : Nat)
  /-- LINK_DOWN_HOLD_EXPIRY (R215). -/
  | linkDownHoldExpiry (tile : Nat) (port : Nat) (lport : Nat)
  /-- ETH_FRAME (R203). -/
  | ethFrame (tile : Nat) (port : Nat) (pcp : Option Nat) (dscp : Nat) (info : FrameInfo)
  /-- PFC_PAUSE (R205). -/
  | pfcPause (tile : Nat) (port : Nat) (prio : Nat) (on : Bool)
  /-- PFC_WATCHDOG (R205). -/
  | pfcWatchdog (tile : Nat) (port : Nat) (prio : Nat)
  /-- REQ (R213). -/
  | req (r : ConnectReq)
  /-- RTU (R215). -/
  | rtu (qpn : Nat)
  /-- CONNECT_TIMEOUT (R215). -/
  | connectTimeout (qpn : Nat) (rej : Bool)
  /-- DREQ (R215). -/
  | dreq (qpn : Nat)
  /-- QP_SETTLED (R257). -/
  | qpSettled (qpn : Nat)
  /-- ERR_HOLD_EXPIRY (R215). -/
  | errHoldExpiry (qpn : Nat)
  /-- SEND (R225). -/
  | send (p : Packet)
  /-- RDMA_WRITE (R209). -/
  | rdmaWrite (p : Packet)
  /-- RDMA_WRITE_IMM (R210). -/
  | rdmaWriteImm (p : Packet)
  /-- RDMA_READ_REQUEST (R26). -/
  | rdmaReadRequest (p : Packet) (near : List NearErr)
  /-- CMP_SWAP (R231). -/
  | cmpSwap (p : Packet)
  /-- FETCH_ADD (R231). -/
  | fetchAdd (p : Packet)
  /-- ACK_RECEIVED (R224). -/
  | ackReceived (p : Packet)
  /-- READ_RESPONSE (R226). -/
  | readResponse (p : Packet)
  /-- CNP (R207). -/
  | cnp (p : Packet)
  /-- CNP_RATE_RESTORE (R207). -/
  | cnpRateRestore (qpn : Nat)
  /-- ACK_TIMEOUT (R224). -/
  | ackTimeout (qpn : Nat)
  /-- RNR_TIMER (R224). -/
  | rnrTimer (qpn : Nat)
  /-- ACK_SEND (R221). -/
  | ackSend (qpn : Nat)
  /-- CONTEXT_FETCH (R217). -/
  | contextFetch (qpn : Nat)
  /-- WINDOW_RECOMPUTE (R228). -/
  | windowRecompute (tile : Nat)
  /-- BUF_BOOKS_CHECK (R230). -/
  | bufBooksCheck (tile : Nat)
  /-- ADMIT_PORTION (R174): the portion (identifiers in order of their creation). -/
  | admitPortion (id : Nat)
  /-- TOKEN_GRANT (R174). -/
  | tokenGrant (tile : Nat)
  /-- APPLY_PORTION (R168). -/
  | applyPortion (id : Nat)
  /-- DISCARD_PORTION (R176). -/
  | discardPortion (id : Nat)
  /-- CAPSULE_PULL (R226). -/
  | capsulePull (id : Nat)
  /-- CAPSULE_START (R245). -/
  | capsuleStart (qpn : Nat)
  /-- CAPSULE_WRITE (R247). -/
  | capsuleWrite (id : ExecId)
  /-- CAPSULE_READ (R247). -/
  | capsuleRead (id : ExecId)
  /-- COMMIT (R248). -/
  | commit (id : ExecId)
  /-- COPY (R249). -/
  | copy (id : ExecId)
  /-- NOTIFY (R250). -/
  | notify (id : ExecId)
  /-- WAIT (R262). -/
  | wait (id : ExecId)
  /-- WAIT_SATISFIED (R262). -/
  | waitSatisfied (id : ExecId)
  /-- MOVE_TRIGGER (R263). -/
  | moveTrigger (id : ExecId)
  /-- CAPSULE_COMPLETE (R251). -/
  | capsuleComplete (id : ExecId)
  /-- DESCRIPTOR_START (R260). -/
  | descriptorStart (cqn : Nat)
  /-- REVOKE_PHASE1_END (R242). -/
  | revokePhase1End
  /-- REVOKE_PHASE2_END (R242). -/
  | revokePhase2End
  /-- FIRN_CAPTURE (R178): Firn chooses the unit (R181). -/
  | firnCapture (tile : Nat) (near : List NearErr)
  /-- PROGRAM_VERIFIED (R145): unit: AMS atomic unit number. -/
  | programVerified (tile : Nat) (unit : Nat) (us : Nat)
  /-- FIRN_BOOKS_CHECK (R177). -/
  | firnBooksCheck (tile : Nat)
  /-- FIRN_DEEP_MERGE (R180): page: AMS page number. -/
  | firnDeepMerge (tile : Nat) (page : Nat)
  /-- MOVE_REQUEST (R47). -/
  | moveRequest
  /-- MOVE_FRAME_FREE (R47). -/
  | moveFrameFree (ext : Nat)
  /-- MOVE_CLEANED (R53). -/
  | moveCleaned (ext : Nat)
  /-- MOVE_PASS_DONE (R48). -/
  | movePassDone (ext : Nat) (near : List NearErr)
  /-- MOVE_COMMIT (R49). -/
  | moveCommit (ext : Nat)
  /-- HOME_MAP_APPLY (R34). -/
  | homeMapApply (tile : Nat) (ext : Nat)
  /-- FORWARD_TO_HOME (R20). -/
  | forwardToHome (id : Nat)
  /-- LOCAL_IMAGE_WRITE (R52). -/
  | localImageWrite (page : Nat)
  /-- ORDER_RASTER_LINE (R44). -/
  | orderRasterLine (stream : Nat)
  /-- ORDER_CHAIN_COUNT (R44). -/
  | orderChainCount (cqn : Nat)
  /-- CACHE_LOOKUP (R62). -/
  | cacheLookup (tile : Nat) (n : Nat) (stream : Bool) (panic : Bool) (data : Nat) (tag : Nat)
  /-- CACHE_FILL (R70). -/
  | cacheFill (tile : Nat) (n : Nat)
  /-- EVB_WRITEBACK (R73). -/
  | evbWriteback (tile : Nat)
  /-- CACHE_DRAIN_DONE (R76). -/
  | cacheDrainDone (tile : Nat)
  /-- REPARTITION_DONE (R66). -/
  | repartitionDone (tile : Nat)
  /-- TCH_EN_WRITE (R76). -/
  | tchEnWrite (tile : Nat) (en : Bool)
  /-- TCH_WAYPWR_WRITE (R77). -/
  | tchWaypwrWrite (tile : Nat) (value : Nat)
  /-- TCH_WAYCLASS_WRITE (R79). -/
  | tchWayclassWrite (tile : Nat) (value : Nat)
  /-- WAY_CLEAN_DONE (R77). -/
  | wayCleanDone (tile : Nat) (way : Nat)
  /-- CLEAN (R74). -/
  | clean (tile : Nat)
  /-- INVALIDATE (R74). -/
  | invalidate (tile : Nat)
  /-- DRAM_REQUEST (R95). -/
  | dramRequest (tile : Nat) (ch : Nat) (sub : Nat)
  /-- REFRESH_DUE (R96). -/
  | refreshDue (tile : Nat) (ch : Nat) (rank : Nat)
  /-- REFRESH_DEBT_MAX (R97). -/
  | refreshDebtMax (tile : Nat) (ch : Nat) (rank : Nat)
  /-- TEMP_POLL (R96). -/
  | tempPoll (tile : Nat) (ch : Nat) (temps : List Nat) (mode : Bool)
  /-- ROW_IDLE_CLOSE (R93). -/
  | rowIdleClose (tile : Nat) (ch : Nat) (bank : Nat)
  /-- PANIC_LONG (R98). -/
  | panicLong (tile : Nat) (ch : Nat)
  /-- RETRAIN_PAUSE (R103). -/
  | retrainPause (tile : Nat) (ch : Nat)
  /-- RETRAIN_FORCED (R103). -/
  | retrainForced (tile : Nat) (ch : Nat)
  /-- SPEED_GO (R105). -/
  | speedGo (tile : Nat) (ch : Nat) (target : Nat)
  /-- FREQ_CHANGE_DONE (R105). -/
  | freqChangeDone (tile : Nat) (ch : Nat)
  /-- TRN_WRITE_READ_COMPARE (R102). -/
  | trnWriteReadCompare (tile : Nat) (ch : Nat) (w : Nat) (lanes : Nat) (errs : Nat)
  /-- TRN_READ_COMPARE (R102). -/
  | trnReadCompare (tile : Nat) (ch : Nat) (w : Nat) (lanes : Nat) (errs : Nat)
  /-- TRN_CA_LOOPBACK (R102). -/
  | trnCaLoopback (tile : Nat) (ch : Nat) (w : Nat) (lanes : Nat) (errs : Nat)
  /-- TRN_WL_SAMPLE (R102). -/
  | trnWlSample (tile : Nat) (ch : Nat) (w : Nat) (lanes : Nat) (errs : Nat)
  /-- SPPR (R111). -/
  | sppr (tile : Nat) (ch : Nat) (w : Nat) (result : Nat)
  /-- HPPR (R112). -/
  | hppr (tile : Nat) (ch : Nat) (w : Nat) (result : Nat)
  /-- DRAM_RELOCATE (R108). -/
  | dramRelocate (tile : Nat)
  /-- S2_RANK_RETURN (R110). -/
  | s2RankReturn (tile : Nat) (compareBad : List Nat) (bad : List Nat)
  /-- DEC_READ (R122). -/
  | decRead (tile : Nat) (addr : Nat) (err : List (Nat × Nat)) (bad0 : Bool) (bad1 : Bool) (parity : Bool)
  /-- FIRST_WRITE (R123). -/
  | firstWrite (tile : Nat) (page : Nat)
  /-- FRAME_FREE (R124). -/
  | frameFree (tile : Nat) (frame : Nat)
  /-- UE_RECOVERY (R131). -/
  | ueRecovery (tile : Nat) (addr : Nat)
  /-- PAGE_RETIRE (R135). -/
  | pageRetire (tile : Nat) (page : Nat)
  /-- SCRUB_READ (R133). -/
  | scrubRead (tile : Nat) (ch : Nat) (err : List (Nat × Nat))
  /-- ERROR_LOG_POLL (R130). -/
  | errorLogPoll (tile : Nat) (ppr : List Nat)
  /-- DEC_LOG_CLEAR_WRITE (R130). -/
  | decLogClearWrite (tile : Nat) (mask : Nat)
  /-- DEC_INJ_ARM (R137). -/
  | decInjArm (tile : Nat) (v : Nat)
  /-- DEEP_READ (R152). -/
  | deepRead (tile : Nat) (page : Nat) (hard : Bool) (iters : Nat) (retry : Nat) (soft : Bool) (parity : Bool)
  /-- SUSPEND_READ (R154). -/
  | suspendRead (tile : Nat) (page : Nat) (us : Nat) (busy : List Nat)
  /-- DEEP_PROGRAM_FAIL (R162). -/
  | deepProgramFail (tile : Nat) (stripe : Nat) (ch : Nat)
  /-- ERASE_FAIL (R162). -/
  | eraseFail (tile : Nat) (stripe : Nat) (ch : Nat)
  /-- GC_START (R149). -/
  | gcStart (tile : Nat)
  /-- GC_STOP (R149). -/
  | gcStop (tile : Nat)
  /-- TABLE_FLUSH (R148). -/
  | tableFlush (tile : Nat) (mismatch : Bool)
  /-- DUMP_ARM (R158). -/
  | dumpArm (tile : Nat)
  /-- PREVIOUS_RELEASE (R158). -/
  | previousRelease (tile : Nat)
  /-- WEAR_STAGE (R163). -/
  | wearStage (tile : Nat) (stage : Nat) (stripe : Nat) (ch : Nat) (tprog : Nat)
  /-- DEEP_FIRST_FORMAT (R161). -/
  | deepFirstFormat
  /-- STROBE_EDGE (R309). -/
  | strobeEdge (tile : Nat) (stb : Nat)
  /-- STROBE_EARLY (R312). -/
  | strobeEarly (tile : Nat) (stb : Nat)
  /-- INDEX_PULSE (R309). -/
  | indexPulse (tile : Nat)
  /-- PREFETCH_DONE (R306). -/
  | prefetchDone (stream : Nat) (bad : List Nat) (near : List NearErr)
  /-- FIFO_FULL (R301). -/
  | fifoFull (stream : Nat)
  /-- FRAME_END (R301). -/
  | frameEnd (stream : Nat)
  /-- FIFO_BOOKS_CHECK (R308). -/
  | fifoBooksCheck (tile : Nat)
  /-- LID_SEND (R316). -/
  | lidSend (tile : Nat)
  /-- STATUS_FRAME (R317). -/
  | statusFrame (tile : Nat) (lane : Nat) (data : List Byte) (crc : Nat)
  /-- LANE_FAILING (R318). -/
  | laneFailing (tile : Nat) (lane : Nat) (lost : Bool)
  /-- SPARE_STATUS_OK (R318). -/
  | spareStatusOk (tile : Nat)
  /-- SPARE_TIMEOUT (R318). -/
  | spareTimeout (tile : Nat)
  /-- SYS_IDENTIFY (R358). -/
  | sysIdentify (f : Frame)
  /-- SYS_STATE (R358). -/
  | sysState (f : Frame)
  /-- SYS_RESET (R342). -/
  | sysReset (f : Frame)
  /-- NOTIFY_SUBSCRIBE (R340). -/
  | notifySubscribe (f : Frame)
  /-- NOTIFY_FETCH (R340). -/
  | notifyFetch (f : Frame)
  /-- SESSION_CHALLENGE (R344). -/
  | sessionChallenge (f : Frame)
  /-- SESSION_OPEN (R344). -/
  | sessionOpen (f : Frame)
  /-- SESSION_CLOSE (R347). -/
  | sessionClose (f : Frame)
  /-- SESSION_LIST (R358). -/
  | sessionList (f : Frame)
  /-- REG_READ (R353). -/
  | regRead (f : Frame)
  /-- REG_WRITE (R354). -/
  | regWrite (f : Frame)
  /-- REGISTER_WRITE (R354): a write by the firmware. -/
  | registerWrite (tile : Nat) (blk : Nat) (off : Nat) (value : Word)
  /-- CHALLENGE_EXPIRY (R344). -/
  | challengeExpiry (id : Nat)
  /-- SESSION_IDLE_EXPIRY (R347). -/
  | sessionIdleExpiry (point : Nat)
  /-- LOCKOUT_EXPIRY (R348). -/
  | lockoutExpiry (role : Nat)
  /-- SET_ENDPOINT_ID (R331). -/
  | setEndpointId (op : Nat) (eid : Nat)
  /-- GET_ENDPOINT_ID (R331). -/
  | getEndpointId
  /-- GET_MCTP_VERSION_SUPPORT (R331). -/
  | getMctpVersionSupport (msgType : Nat)
  /-- GET_MESSAGE_TYPE_SUPPORT (R331). -/
  | getMessageTypeSupport
  /-- GET_VENDOR_MESSAGE_SUPPORT (R331). -/
  | getVendorMessageSupport (sel : Nat)
  /-- NET_STATUS (R234). -/
  | netStatus (f : Frame)
  /-- NET_PORT_SET (R234). -/
  | netPortSet (f : Frame)
  /-- NET_ADDR_SET (R234). -/
  | netAddrSet (f : Frame)
  /-- NET_DCB_SET (R234). -/
  | netDcbSet (f : Frame)
  /-- RMA_CONFIG (R234). -/
  | rmaConfig (f : Frame)
  /-- QP_LIST (R234). -/
  | qpList (f : Frame)
  /-- QP_INFO (R234). -/
  | qpInfo (f : Frame)
  /-- QP_KILL (R234). -/
  | qpKill (f : Frame)
  /-- POWER_STATUS (R394). -/
  | powerStatus (f : Frame)
  /-- POWER_SLEEP (R387). -/
  | powerSleep (f : Frame)
  /-- POWER_CONFIG (R394). -/
  | powerConfig (f : Frame)
  /-- WAKE_TIMER_SET (R394). -/
  | wakeTimerSet (f : Frame)
  /-- SLEEP_ABORTED (R390). -/
  | sleepAborted
  /-- WAKE (R389). -/
  | wake
  /-- TWB_STATUS (R462). -/
  | twbStatus (f : Frame)
  /-- TWB_CONFIG (R462). -/
  | twbConfig (f : Frame)
  /-- REGION_CREATE (R236). -/
  | regionCreate (f : Frame)
  /-- REGION_DELETE (R244). -/
  | regionDelete (f : Frame)
  /-- REGION_REKEY (R241). -/
  | regionRekey (f : Frame)
  /-- REGION_SET_FLAGS (R240). -/
  | regionSetFlags (f : Frame)
  /-- REGION_QUERY (R268). -/
  | regionQuery (f : Frame)
  /-- REGION_LIST (R268). -/
  | regionList (f : Frame)
  /-- CHAIN_CREATE (R258). -/
  | chainCreate (f : Frame)
  /-- CHAIN_DELETE (R264). -/
  | chainDelete (f : Frame)
  /-- CHAIN_RESET (R264). -/
  | chainReset (f : Frame)
  /-- CHAIN_POST (R268). -/
  | chainPost (f : Frame)
  /-- CHAIN_STATUS (R268). -/
  | chainStatus (f : Frame)
  /-- TIER_QUERY (R61). -/
  | tierQuery (f : Frame)
  /-- HOME_QUERY (R61). -/
  | homeQuery (f : Frame)
  /-- PLAN_LOAD_BEGIN (R61). -/
  | planLoadBegin (f : Frame)
  /-- PLAN_LOAD_DATA (R61). -/
  | planLoadData (f : Frame)
  /-- PLAN_LOAD_END (R41). -/
  | planLoadEnd (f : Frame)
  /-- PLAN_ACTIVATE (R43). -/
  | planActivate (f : Frame)
  /-- PLAN_DEACTIVATE (R45). -/
  | planDeactivate (f : Frame)
  /-- PLAN_UNLOAD (R45). -/
  | planUnload (f : Frame)
  /-- PLAN_STATUS (R61). -/
  | planStatus (f : Frame)
  /-- MOVE_EXTENTS (R61). -/
  | moveExtents (f : Frame)
  /-- MOVE_CANCEL (R47). -/
  | moveCancel (f : Frame)
  /-- MOVE_STATUS (R61). -/
  | moveStatus (f : Frame)
  /-- NEAR_SIZE_SET (R57). -/
  | nearSizeSet (f : Frame)
  /-- CACHE_STATUS (R85). -/
  | cacheStatus (f : Frame)
  /-- CACHE_CONFIG (R85). -/
  | cacheConfig (f : Frame)
  /-- CACHE_MAINT (R85). -/
  | cacheMaint (f : Frame)
  /-- DRAM_STATUS (R115). -/
  | dramStatus (f : Frame)
  /-- DRAM_SPEED_SET (R115). -/
  | dramSpeedSet (f : Frame)
  /-- DRAM_TSET_WRITE (R115). -/
  | dramTsetWrite (f : Frame)
  /-- DRAM_MAP_SET (R92). -/
  | dramMapSet (f : Frame)
  /-- DRAM_RETRAIN (R115). -/
  | dramRetrain (f : Frame)
  /-- DRAM_TRAIN_RESULTS (R115). -/
  | dramTrainResults (f : Frame)
  /-- DRAM_TRAIN_CLEAR (R115). -/
  | dramTrainClear (f : Frame)
  /-- DRAM_PPR (R113). -/
  | dramPpr (f : Frame)
  /-- DEC_STATUS (R139). -/
  | decStatus (f : Frame)
  /-- DEC_LOG_READ (R139). -/
  | decLogRead (f : Frame)
  /-- DEC_LOG_CLEAR (R139). -/
  | decLogClear (f : Frame)
  /-- DEC_RETIRE (R139). -/
  | decRetire (f : Frame)
  /-- DEC_POLICY_SET (R139). -/
  | decPolicySet (f : Frame)
  /-- DEC_SCRUB_SET (R139). -/
  | decScrubSet (f : Frame)
  /-- DEC_INJECT (R139). -/
  | decInject (f : Frame)
  /-- DEEP_STATUS (R165). -/
  | deepStatus (f : Frame)
  /-- DEEP_BLOCK_INFO (R165). -/
  | deepBlockInfo (f : Frame)
  /-- DEEP_CONFIG (R165). -/
  | deepConfig (f : Frame)
  /-- DEEP_RETIRE_BLOCK (R165). -/
  | deepRetireBlock (f : Frame)
  /-- DEEP_FORMAT (R408). -/
  | deepFormat (f : Frame)
  /-- DEEP_REBUILD (R148). -/
  | deepRebuild (f : Frame)
  /-- PERSIST_STATUS (R200). -/
  | persistStatus (f : Frame)
  /-- CEILING_SET (R183). -/
  | ceilingSet (f : Frame)
  /-- FREEZE_POWER_SET (R200). -/
  | freezePowerSet (f : Frame)
  /-- FIRN_CONFIG (R200). -/
  | firnConfig (f : Frame)
  /-- FREEZE_REPORT_READ (R503). -/
  | freezeReportRead (f : Frame)
  /-- FREEZE_TEST (R200). -/
  | freezeTest (f : Frame)
  /-- TWIN_STATUS (R296). -/
  | twinStatus (f : Frame)
  /-- TWIN_CONFIG (R296). -/
  | twinConfig (f : Frame)
  /-- TWIN_SWAP (R293). -/
  | twinSwap (f : Frame)
  /-- TWIN_LEAVE (R296). -/
  | twinLeave (f : Frame)
  /-- TWIN_RESYNC (R291). -/
  | twinResync (f : Frame)
  /-- TWIN_FAULT_CLEAR (R286). -/
  | twinFaultClear (f : Frame)
  /-- TWIN_FORCE_SOLO (R296). -/
  | twinForceSolo (f : Frame)
  /-- FEED_STATUS (R329). -/
  | feedStatus (f : Frame)
  /-- FEED_STREAM_SET (R300). -/
  | feedStreamSet (f : Frame)
  /-- FEED_STREAM_CLEAR (R301). -/
  | feedStreamClear (f : Frame)
  /-- FEED_START (R302). -/
  | feedStart (f : Frame)
  /-- FEED_STOP (R301). -/
  | feedStop (f : Frame)
  /-- FEED_ADMIT_CHECK (R302). -/
  | feedAdmitCheck (f : Frame)
  /-- FEED_MAP_LOAD (R320). -/
  | feedMapLoad (f : Frame)
  /-- FEED_MAP_SWITCH (R320). -/
  | feedMapSwitch (f : Frame)
  /-- FEED_LANE_CONFIG (R329). -/
  | feedLaneConfig (f : Frame)
  /-- FEED_LANE_SPARE (R318). -/
  | feedLaneSpare (f : Frame)
  /-- FEED_LANE_RESTORE (R318). -/
  | feedLaneRestore (f : Frame)
  /-- EVENT_READ (R444). -/
  | eventRead (f : Frame)
  /-- EVENT_STATUS (R449). -/
  | eventStatus (f : Frame)
  /-- EVENT_CONFIG (R449). -/
  | eventConfig (f : Frame)
  /-- TIME_SET (R434). -/
  | timeSet (f : Frame)
  /-- TIME_GET (R449). -/
  | timeGet (f : Frame)
  /-- FW_STATUS (R377). -/
  | fwStatus (f : Frame)
  /-- FW_UPDATE_BEGIN (R367). -/
  | fwUpdateBegin (f : Frame)
  /-- FW_UPDATE_DATA (R367). -/
  | fwUpdateData (f : Frame)
  /-- FW_UPDATE_END (R367). -/
  | fwUpdateEnd (f : Frame)
  /-- FW_ACTIVATE (R368). -/
  | fwActivate (f : Frame)
  /-- FW_COMMIT (R368). -/
  | fwCommit (f : Frame)
  /-- FW_UPDATE_ABORT (R367). -/
  | fwUpdateAbort (f : Frame)
  /-- FW_MANIFEST_READ (R377). -/
  | fwManifestRead (f : Frame)
  /-- SELFTEST_REPORT (R377). -/
  | selftestReport (f : Frame)
  /-- MONITOR_READ (R377). -/
  | monitorRead (f : Frame)
  /-- BANK_CONFIG (R377). -/
  | bankConfig (f : Frame)
  /-- NV_STATUS (R432). -/
  | nvStatus (f : Frame)
  /-- NV_FACTORY_READ (R432). -/
  | nvFactoryRead (f : Frame)
  /-- NV_FACTORY_WRITE (R432). -/
  | nvFactoryWrite (f : Frame)
  /-- NV_FACTORY_ERASE (R432). -/
  | nvFactoryErase (f : Frame)
  /-- NV_SCAN (R425): sectors in which a word differs at the margin level. -/
  | nvScan (f : Frame) (differ : List Nat)
  /-- OTP_READ (R432). -/
  | otpRead (f : Frame)
  /-- OTP_PROGRAM (R430): ok: both copies read back as fused. -/
  | otpProgram (f : Frame) (ok : Bool)
  /-- KEY_STATUS (R414). -/
  | keyStatus (f : Frame)
  /-- KEY_ROLE_SET (R407). -/
  | keyRoleSet (f : Frame)
  /-- KEY_PAIR_SET (R412). -/
  | keyPairSet (f : Frame)
  /-- KEY_MACSEC_REKEY (R410). -/
  | keyMacsecRekey (f : Frame)
  /-- KEY_SELFTEST (R414): ok: every known answer matches. -/
  | keySelftest (f : Frame) (ok : Bool)
  /-- MARGIN_SCHEDULE (R425): sectors in which a word differs at the margin level. -/
  | marginSchedule (tile : Nat) (differ : List Nat)
  /-- NVS_KEY_WRITE (R419): late: more than 64 fabric clocks after step 1. -/
  | nvsKeyWrite (tile : Nat) (master : Nat) (value : Nat) (late : Bool)
  /-- NVS_UNLOCK_TIMEOUT (R419). -/
  | nvsUnlockTimeout (tile : Nat)
  /-- PROGRAM (R420): pulses the word needs; above 16 it does not verify. -/
  | program (tile : Nat) (master : Nat) (addr : Nat) (data : Nat) (pulses : Nat)
  /-- ERASE (R415): ok: the sector then blank-checks. -/
  | erase (tile : Nat) (master : Nat) (addr : Nat) (ok : Bool)
  /-- BLANK_CHECK (R419). -/
  | blankCheck (tile : Nat) (master : Nat) (addr : Nat)
  /-- MARGIN_READ (R425): differs: a word reads differently at the margin level. -/
  | marginRead (tile : Nat) (master : Nat) (addr : Nat) (differs : Bool)
  /-- SWAP (R424). -/
  | swap (tile : Nat) (master : Nat) (addr : Nat)
  /-- NVS_OPERATION_END (R421). -/
  | nvsOperationEnd (tile : Nat)
  /-- ENC (R396). -/
  | enc (submitter : Nat) (q : KseReq)
  /-- DEC (R396). -/
  | dec (submitter : Nat) (q : KseReq)
  /-- CTR (R400). -/
  | ctr (submitter : Nat) (q : KseReq)
  /-- GENERATE (R404). -/
  | generate (submitter : Nat) (q : KseReq)
  /-- DRBG_RESEED (R404). -/
  | drbgReseed
  /-- HEALTH_FAIL (R405). -/
  | healthFail
  /-- ENTROPY_RESTART (R405): the start-up tests pass. -/
  | entropyRestart (ok : Bool)
  /-- KSE_QUEUE_CHECK (R398): the firmware's own count of free entries. -/
  | kseQueueCheck (submitter : Nat) (free : Nat)
  /-- EVENT_ARRIVAL (R438). -/
  | eventArrival (tile : Nat)
  /-- OPEN_WINDOW_END (R442). -/
  | openWindowEnd
  /-- RECORD_COMMIT (R441). -/
  | recordCommit
  /-- BLOCK_WRITE (R452): the bytes after the command byte, the PEC last. -/
  | blockWrite (cmd : Nat) (bytes : List Byte) (kHz : Nat)
  /-- BLOCK_READ (R453): done: PEC clocked and NACKed, then STOP. -/
  | blockRead (done : Bool) (kHz : Nat)
  /-- READ_BYTE (R451). -/
  | readByte (kHz : Nat)
  /-- ADDRESS_MATCH_SLEEP (R454). -/
  | addressMatchSleep (x : SmbusXfer) (kHz : Nat)
  /-- HOST_NOTIFY (R456). -/
  | hostNotify (e : NotifyEnd)
  /-- HOST_NOTIFY_REPEAT (R456). -/
  | hostNotifyRepeat (e : NotifyEnd)
  /-- ARB_BACKOFF_EXPIRY (R457). -/
  | arbBackoffExpiry (e : NotifyEnd)
  /-- BUS_ERROR (R458). -/
  | busError
  /-- SCL_TIMEOUT (R458). -/
  | sclTimeout
  /-- BUS_RECOVERY (R459): SCL pulses after which SDA reads high; above 9: still low. -/
  | busRecovery (pulses : Nat)
  /-- LINK_RETIRED (R18). -/
  | linkRetired (tile : Nat) (peer : Nat)
  /-- FAULT_ENTRY (R22). -/
  | faultEntry (tile : Nat) (cause : Nat)
  /-- WAY_POWER_UP_DONE (R77). -/
  | wayPowerUpDone (tile : Nat) (way : Nat)
  /-- BLOCK_ERASE_DONE (R160). -/
  | blockEraseDone (tile : Nat) (stripe : Nat) (us : Nat)
  /-- DEEP_REBUILD_DONE (R148). -/
  | deepRebuildDone (tile : Nat)
  /-- SLEEP_CLEAN_TIMEOUT (R387). -/
  | sleepCleanTimeout
  /-- HBTX_WORD_SEND (R282). -/
  | hbtxWordSend
  /-- BLOCK_LOCK (R313). -/
  | blockLock (tile : Nat) (lane : Nat)
  /-- FEED_COVER_TIMEOUT (R329). -/
  | feedCoverTimeout (stream : Nat)
  /-- XTAL_OK (R384). -/
  | xtalOk
  /-- SERVICE_ANNOUNCE_REPEAT (R287). -/
  | serviceAnnounceRepeat
deriving DecidableEq, Repr

end Sys2Proof
end

