-- ==== Sys2Proof/Decode.lean ====
section
/-! DEFINITION. Reading a command from the bits that spec/opcode_table.json gives its row. -/

namespace Sys2Proof

/-- The command that a word spells. Every row of the table has an empty list of fields and no bits, so no word spells one. -/
def decodeTableWord (_nbits _w : Nat) : Option Instr := none

end Sys2Proof
end

