-- ==== Sys2Proof/Machine/Bytes.lean ====
section
/-! DEFINITION. Byte order (R6: little-endian, bit 0 least significant), bit fields of a word, and sparse maps in one
canonical form: keys strictly rising, no entry equal to what an unlisted key reads as. -/

namespace Sys2Proof.Machine

/-- The n bytes of v, least significant first. -/
def leBytes : Nat → Nat → List Byte
  | 0, _ => []
  | n + 1, v => BitVec.ofNat 8 v :: leBytes n (v / 256)

/-- The number that a list of bytes spells, least significant first. -/
def leNat : List Byte → Nat
  | [] => 0
  | b :: bs => b.toNat + 256 * leNat bs

/-- n bytes, most significant first. -/
def beBytes (n v : Nat) : List Byte := (leBytes n v).reverse

/-- The number that a list of bytes spells, most significant first. -/
def beNat (bs : List Byte) : Nat := leNat bs.reverse

/-- n bytes of bs from offset o, zeros past the end. -/
def bytesAt (bs : List Byte) (o n : Nat) : List Byte :=
  let x := (bs.drop o).take n
  x ++ List.replicate (n - x.length) 0

/-- The little-endian number in n bytes at offset o. -/
def natAt (bs : List Byte) (o n : Nat) : Nat := leNat (bytesAt bs o n)

/-- The chunks of n bytes of a message; the first argument bounds them. -/
def chunks (n : Nat) : Nat → List Byte → List (List Byte)
  | 0, _ => []
  | k + 1, bs => if bs.length ≤ n then [bs] else bs.take n :: chunks n k (bs.drop n)

/-- Bit n of v. -/
def bitOf (v n : Nat) : Bool := v.testBit n

/-- v with bit n set to b. -/
def setBit (v n : Nat) (b : Bool) : Nat :=
  if v.testBit n == b then v else if b then v + 2 ^ n else v - 2 ^ n

/-- Bits [lo + w − 1 : lo] of v. -/
def bitsOf (v lo w : Nat) : Nat := v / 2 ^ lo % 2 ^ w

/-- 1 for true, 0 for false. -/
def b2n (b : Bool) : Nat := if b then 1 else 0

/-- n / d rounded up. -/
def ceilDiv (n d : Nat) : Nat := (n + d - 1) / d

/-- One bit of a reflected CRC-32 with the IEEE 802.3 polynomial. -/
def crc32Bit (c : Nat) : Nat := if c % 2 = 1 then (c / 2) ^^^ 0xEDB88320 else c / 2

/-- CRC-32 with the IEEE 802.3 polynomial (R417, R426), continued from register c. -/
def crc32From (c : Nat) : List Byte → Nat
  | [] => c
  | b :: bs => crc32From (Nat.iterate crc32Bit 8 (c ^^^ b.toNat)) bs

/-- CRC-32 with the IEEE 802.3 polynomial. -/
def crc32 (bs : List Byte) : Nat := crc32From 0xFFFFFFFF bs ^^^ 0xFFFFFFFF

/-- One bit of a CRC-8 with polynomial x^8 + x^2 + x + 1, most significant bit first. -/
def crc8Bit (c : Nat) : Nat := if 128 ≤ c then (c * 2 % 256) ^^^ 0x07 else c * 2

/-- The SMBus CRC-8 (R451, Table 10.6), continued from register c. -/
def crc8From (c : Nat) : List Byte → Nat
  | [] => c
  | b :: bs => crc8From (Nat.iterate crc8Bit 8 (c ^^^ b.toNat)) bs

/-- The SMBus CRC-8. -/
def crc8 (bs : List Byte) : Nat := crc8From 0 bs

/-- The field of a word. -/
def wordField (x : Word) (lo w : Nat) : Nat := x.toNat / 2 ^ lo % 2 ^ w

/-- A word with one field replaced by v, modulo the field's range. -/
def wordSet (x : Word) (lo w v : Nat) : Word :=
  BitVec.ofNat 32 (x.toNat - wordField x lo w * 2 ^ lo + v % 2 ^ w * 2 ^ lo)

/-- The first entry of key k. -/
def amapFind {α : Type} (k : Nat) : List (Nat × α) → Option α
  | [] => none
  | (k', v) :: l => if k' = k then some v else amapFind k l

/-- What key k reads as: its entry, or d. -/
def amapGet {α : Type} (d : α) (l : List (Nat × α)) (k : Nat) : α := (amapFind k l).getD d

/-- Without key k. -/
def amapErase {α : Type} (k : Nat) (l : List (Nat × α)) : List (Nat × α) := l.filter (fun e => e.1 != k)

/-- With key k, which the list does not hold, in its place. -/
def amapInsert {α : Type} (k : Nat) (v : α) : List (Nat × α) → List (Nat × α)
  | [] => [(k, v)]
  | (k', v') :: l => if k < k' then (k, v) :: (k', v') :: l else (k', v') :: amapInsert k v l

/-- Key k now reads as v, where an unlisted key k reads as d. -/
def amapSet {α : Type} [DecidableEq α] (d : α) (l : List (Nat × α)) (k : Nat) (v : α) : List (Nat × α) :=
  if v = d then amapErase k l else amapInsert k v (amapErase k l)

/-- Keys strictly rising from above lo, no entry equal to what its key reads as unlisted. -/
def amapWf {α : Type} [DecidableEq α] (d : Nat → α) : List (Nat × α) → Bool
  | [] => true
  | [(k, v)] => v != d k
  | (k, v) :: (k', v') :: l => v != d k && decide (k < k') && amapWf d ((k', v') :: l)

/-- A temperature of 0.1 °C units as a signed number. -/
def signed16 (n : Nat) : Int := if n % 65536 < 32768 then (n % 65536 : Nat) else (n % 65536 : Nat) - 65536

end Sys2Proof.Machine
end

