-- ==== Sys2Proof/Machine/Operands.lean ====
section
/-! DEFINITION. Payload layouts (R339): each field at a multiple of its size, gaps and padding zero, the whole padded to a
multiple of 8 bytes. Field sizes are 1, 2, 4, 8, or 16 for a nonce or a proof (placed at a multiple of 8). -/

namespace Sys2Proof.Machine

/-- The alignment of a field of n bytes. -/
def fieldAlign (n : Nat) : Nat := if n ≥ 8 then 8 else n

/-- o rounded up to a multiple of a. -/
def alignUp (o a : Nat) : Nat := (o + a - 1) / a * a

/-- The fields of bs from offset o, or none where bs is too short or a gap is not zero. -/
def parseFrom (bs : List Byte) : Nat → List Nat → Option (List Nat × Nat)
  | o, [] => some ([], o)
  | o, n :: ns =>
    let p := alignUp o (fieldAlign n)
    if bs.length < p + n || leNat (bytesAt bs o (p - o)) != 0 then none
    else (parseFrom bs (p + n) ns).map (fun r => (leNat (bytesAt bs p n) :: r.1, r.2))

/-- The fields of a payload that holds exactly them (R339, R336 step 6). -/
def parse339 (sizes : List Nat) (bs : List Byte) : Option (List Nat) :=
  match parseFrom bs 0 sizes with
  | some (vs, o) => if bs.length = alignUp o 8 && leNat (bs.drop o) == 0 then some vs else none
  | none => none

/-- The fields before a tail of free length, and the tail. -/
def parseTail (sizes : List Nat) (at' : Nat) (bs : List Byte) : Option (List Nat × List Byte) :=
  match parseFrom bs 0 sizes with
  | some (vs, o) =>
    if bs.length < at' || leNat (bytesAt bs o (at' - o)) != 0 then none else some (vs, bs.drop at')
  | none => none

/-- The bytes of fields (size, value), each aligned, from offset o. -/
def buildFrom : Nat → List (Nat × Nat) → List Byte
  | _, [] => []
  | o, (n, v) :: fs =>
    let p := alignUp o (fieldAlign n)
    List.replicate (p - o) 0 ++ leBytes n v ++ buildFrom (p + n) fs

/-- bs padded with zeros to a multiple of 8. -/
def pad8 (bs : List Byte) : List Byte := bs ++ List.replicate (alignUp bs.length 8 - bs.length) 0

/-- A payload that holds the fields (R339). -/
def build339 (fs : List (Nat × Nat)) : List Byte := pad8 (buildFrom 0 fs)

/-- A list after o bytes of fields: its 2-byte count, padding to the next multiple of the entry size, then the
entries, each of that size (R339). -/
def buildList (o entry : Nat) (es : List (List Byte)) : List Byte :=
  let p := alignUp o 2
  List.replicate (p - o) 0 ++ leBytes 2 es.length ++ List.replicate (alignUp (p + 2) entry - (p + 2)) 0 ++
    es.flatMap (fun e => e ++ List.replicate (entry - e.length) 0)

/-- A payload of fields followed by a list. -/
def buildWithList (fs : List (Nat × Nat)) (entry : Nat) (es : List (List Byte)) : List Byte :=
  let h := buildFrom 0 fs
  pad8 (h ++ buildList h.length entry es)

end Sys2Proof.Machine
end

