-- ==== Sys2Proof/Machine/Burst.lean ====
section
/-! DEFINITION. The main tier's code: the codeword of a burst, its symbols on the pins, the decoder and the poison vector
(R116 to R120). -/

namespace Sys2Proof.Machine

/-! ### GF(2^8) and the generator (R116) -/

/-- Multiplication by α = 0x02 modulo 0x11D. -/
def gfDbl (a : Nat) : Nat := if a < 128 then 2 * a else (2 * a) ^^^ 0x11D

/-- The product of two field elements; the first argument is the number of bits of b still to take. -/
def gfMulGo : Nat → Nat → Nat → Nat
  | 0, _, _ => 0
  | n + 1, a, b => (if b % 2 = 1 then a else 0) ^^^ gfMulGo n (gfDbl a) (b / 2)

/-- The product in GF(2^8). -/
def gfMul (a b : Nat) : Nat := gfMulGo 8 a b

/-- A polynomial (low coefficient first) times x − r. -/
def polyStep (g : List Nat) (r : Nat) : List Nat := (0 :: g).zipWith (· ^^^ ·) (g.map (gfMul r) ++ [0])

/-- g(x) = (x − α^0) … (x − α^15), its 17 coefficients from that of x^0. -/
def rsGen : List Nat := (List.range 16).foldl (fun g i => polyStep g (Nat.iterate gfDbl i 1)) [1]

/-- The coefficients of g(x) from that of x^0 to that of x^15 (`rsGen`, without the leading 1). -/
def rsTaps : List Nat := [59, 36, 50, 98, 229, 41, 65, 163, 8, 30, 209, 68, 189, 104, 13, 59]

/-- One step of the division by g(x): the remainder after a further coefficient m. -/
def rsStep (r : List Nat) (m : Nat) : List Nat :=
  let f := m ^^^ r.getLastD 0
  (0 :: r.dropLast).zipWith (fun a g => a ^^^ gfMul f g) rsTaps

/-- The 16 check symbols of 64 data bytes, symbol 64 first. -/
def rsCheck (data : List Byte) : List Byte :=
  ((data.reverse.map BitVec.toNat).foldl rsStep (List.replicate 16 0)).map (BitVec.ofNat 8)

/-- The 80 symbols of a burst as the DRAM holds them. -/
def storedBurst (data : List Byte) : List Byte := data ++ rsCheck data

/-- The 80 symbols of a poisoned burst (R120). -/
def poisonBurst (id : Nat) : List Byte :=
  let d := leBytes 4 id ++ List.replicate 60 0
  d ++ (rsCheck d).map (fun b => b ^^^ 0xA5#8)

/-! ### Symbols on the pins (R117) -/

/-- The device of a symbol. -/
def symDevice (s : Nat) : Nat := if s < 64 then s / 8 else 8 + (s - 64) / 8

/-- The first of the two beats of a symbol, and the first of its four DQ lanes. -/
def symBeat (s : Nat) : Nat := 2 * (s % 8)

def symLane (s : Nat) : Nat := 4 * symDevice s

/-! ### The decoder (R118 to R120; DEDUCED, log entry 23) -/

/-- a to the power n; a^254 is the inverse of a ≠ 0. -/
def gfPow (a : Nat) : Nat → Nat
  | 0 => 1
  | n + 1 => gfMul a (gfPow a n)

/-- The inverse of a ≠ 0, by squaring: a^(2 + 4 + … + 128). -/
def gfInv (a : Nat) : Nat :=
  let sq := fun (x : Nat) => gfMul x x
  let p1 := sq a
  let p2 := sq p1
  let p3 := sq p2
  let p4 := sq p3
  let p5 := sq p4
  let p6 := sq p5
  [p2, p3, p4, p5, p6, sq p6].foldl gfMul p1

/-- The value of a polynomial, low coefficient first, at x. -/
def polyEval (p : List Nat) (x : Nat) : Nat := p.foldr (fun c v => c ^^^ gfMul v x) 0

/-- The sum of two polynomials. -/
def polyAdd : List Nat → List Nat → List Nat
  | [], q => q
  | p, [] => p
  | a :: p, b :: q => (a ^^^ b) :: polyAdd p q

/-- The product of two polynomials. -/
def polyMul (p q : List Nat) : List Nat := p.foldr (fun c r => polyAdd (q.map (gfMul c)) (0 :: r)) []

/-- The degree of a symbol's coefficient in the codeword polynomial: check symbols first. -/
def symDeg (s : Nat) : Nat := if s < 64 then s + 16 else s - 64

/-- The locator of a symbol, α to its degree. -/
def symLoc (s : Nat) : Nat := Nat.iterate gfDbl (symDeg s) 1

/-- The coefficients of an 80-symbol word from that of x^0. -/
def wordPoly (w : List Byte) : List Nat := ((w.drop 64) ++ (w.take 64)).map BitVec.toNat

/-- The 16 syndromes of a word: its values at α^0 to α^15. -/
def syndromes (w : List Byte) : List Nat := (List.range 16).map (fun j => polyEval (wordPoly w) (Nat.iterate gfDbl j 1))

/-- Berlekamp and Massey: the connection polynomial of syndromes `ss`, from step n. State: the polynomial, its predecessor, its length, the last
nonzero discrepancy, the steps since. -/
def masseyGo (ss : List Nat) : Nat → Nat → List Nat → List Nat → Nat → Nat → Nat → List Nat × Nat
  | 0, _, c, _, l, _, _ => (c, l)
  | k + 1, n, c, b, l, d0, m =>
    let d := (List.range (l + 1)).foldl (fun a i => a ^^^ gfMul (c.getD i 0) (ss.getD (n - i) 0)) 0
    if d = 0 then masseyGo ss k (n + 1) c b l d0 (m + 1)
    else
      let c1 := polyAdd c (List.replicate m 0 ++ b.map (gfMul (gfMul d (gfInv d0))))
      if 2 * l ≤ n then masseyGo ss k (n + 1) c1 c (n + 1 - l) d 1 else masseyGo ss k (n + 1) c1 b l d0 (m + 1)

/-- The error locator of a list of syndromes and its degree. -/
def massey (ss : List Nat) : List Nat × Nat := masseyGo ss ss.length 0 [1] [1] 0 1 1

/-- The symbols of a device. -/
def devSyms (d : Nat) : List Nat := (List.range 80).filter (fun s => symDevice s == d)

/-- The pattern that the code decodes from syndromes, with the symbols of a device marked as erasures (R118, R119): each wrong symbol with what
is XORed into it; none where no word of the code lies within reach. -/
def rsPattern (erased : Option Nat) (ss : List Nat) : Option (List (Nat × Nat)) :=
  let er := match erased with
    | some d => devSyms d
    | none => []
  let gam := er.foldl (fun g s => polyMul [1, symLoc s] g) [1]
  let mods := (polyMul gam ss).take 16
  let (lam, l) := massey (mods.drop er.length)
  let psi := polyMul lam gam
  let found := (List.range 80).filter (fun s => polyEval lam (gfInv (symLoc s)) == 0)
  let omega := (polyMul ss psi).take 16
  let dpsi := psi.zipIdx.map (fun e => if e.2 % 2 = 1 then e.1 else 0) |>.drop 1
  let val := fun (s : Nat) =>
    let x := gfInv (symLoc s)
    gfMul (symLoc s) (gfMul (polyEval omega x) (gfInv (polyEval dpsi x)))
  let pat := ((er ++ found.filter (fun s => !er.contains s)).map (fun s => (s, val s))).filter (fun e => e.2 != 0)
  let back := (List.range 16).map (fun j => pat.foldl (fun a e => a ^^^ gfMul e.2 (Nat.iterate gfDbl (j * symDeg e.1) 1)) 0)
  if found.length = l && back == ss then some pat else none

/-- The poison vector: 0xA5 in each check symbol. -/
def poisonVec : List (Nat × Nat) := (List.range 16).map (fun i => (64 + i, 0xA5))

/-- A word with errors XORed into its symbols. -/
def flipSyms (w : List Byte) (err : List (Nat × Nat)) : List Byte :=
  err.foldl (fun l e => l.set e.1 (l.getD e.1 0 ^^^ BitVec.ofNat 8 e.2)) w

/-- Whether the decoder corrects a pattern that it decodes: in normal mode at most 4 symbols, or all in one device; with a device under erasure
at most 4 outside it. -/
def correctable (erased : Option Nat) (p : List (Nat × Nat)) : Bool :=
  match erased with
  | none => decide (p.length ≤ 4) || decide ((p.map (fun e => symDevice e.1)).dedup.length ≤ 1)
  | some d => decide ((p.filter (fun e => symDevice e.1 != d)).length ≤ 4)

/-- The pattern that the decoder corrects in a word. -/
def trusted (erased : Option Nat) (w : List Byte) : Option (List (Nat × Nat)) :=
  let ss := syndromes w
  if ss.all (· == 0) then some [] else (rsPattern erased ss).filter (correctable erased)

/-- What a decode gives: the word's data with the pattern corrected, poison with its identifier, or nothing. -/
inductive Decoded
  | data (bs : List Byte) (pat : List (Nat × Nat))
  | poison (id : Nat) (pat : List (Nat × Nat))
  | bad
deriving DecidableEq, Repr

/-- The decode of a burst's word: as received and with the poison vector removed; of two decodes the one with fewer corrected symbols, a tie
uncorrectable. -/
def decodeWord (erased : Option Nat) (w : List Byte) : Decoded :=
  let v := flipSyms w poisonVec
  let plain := fun (p : List (Nat × Nat)) => Decoded.data ((flipSyms w p).take 64) p
  let pois := fun (p : List (Nat × Nat)) => Decoded.poison (natAt (flipSyms v p) 0 4) p
  match trusted erased w, trusted erased v with
  | some p, none => plain p
  | none, some p => pois p
  | some p, some q => if p.length < q.length then plain p else if q.length < p.length then pois q else .bad
  | none, none => .bad

/-- The symbols of a pattern in device d. -/
def symsOf (p : List (Nat × Nat)) (d : Nat) : Nat := (p.filter (fun e => symDevice e.1 == d)).length

/-- The device with the most corrected symbols; 15 where no one device has. -/
def mostDevice (p : List (Nat × Nat)) : Nat :=
  let top := ((List.range 10).map (symsOf p)).foldl max 0
  match (List.range 10).filter (fun d => symsOf p d == top) with
  | [d] => d
  | _ => 15

end Sys2Proof.Machine
end

