-- ==== Sys2Proof/Config.lean ====
section
/-! DEFINITION. The free values: what the spec leaves open, as constants without a body. A statement about the model
holds for every one of them. `State.freeCtr` gives each use of `free` an argument of its own. -/

namespace Sys2Proof.Config

/-- The n-th open value of a run: entropy (R404), a frame or a slot the firmware picks, the contents of a store word
after an interrupted operation, and every other value the spec leaves to the device (DESIGN CHOICE, log entry 6). -/
opaque free : Nat → Nat

/-- Raw AES encryption of one block under a key (R399 names NIST FIPS 197 and does not write it out; PRESUMED, log entry 7):
256-bit key or not, key, block. -/
opaque aesEnc : Bool → BitVec 256 → BitVec 128 → BitVec 128

/-- Raw AES decryption of one block under a key. -/
opaque aesDec : Bool → BitVec 256 → BitVec 128 → BitVec 128

/-- SHA-384 of a byte string (R362; PRESUMED, log entry 7). -/
opaque sha384 : List Byte → List Byte

/-- ECDSA P-384 verification (R362): public key, digest, signature (PRESUMED, log entry 7). -/
opaque ecdsaOk : List Byte → List Byte → List Byte → Bool

/-- The hash of a destination page that chooses among parallel Snowbridge links (R15 gives none; DESIGN CHOICE, log entry 6): page. -/
opaque linkHash : Nat → Nat

/-- The test vectors that the firmware image holds for the integrity self-test (R137 gives none; DESIGN CHOICE, log entry 6): pattern, byte. -/
opaque testVector : Nat → Nat → Byte

/-- Severity of an event record with a bit code (R439 gives none; DESIGN CHOICE, log entry 9): block ID, bit number. -/
opaque bitSeverity : Nat → Nat → Nat

/-- The UDP source port of a connection (R203 names a hash and gives none; DESIGN CHOICE, log entry 6): QPN. -/
opaque udpPort : Nat → BitVec 16

/-- The priority that an IP DSCP maps to in a port's table where none is configured (R203 gives no default; DESIGN CHOICE, log
entry 67): DSCP. -/
opaque dscpPriority : Nat → Nat

end Sys2Proof.Config
end

