-- ==== Sys2Proof/Machine/RegTable.lean ====
section
/-! DEFINITION. The register table of Control Space (R9, R13, R352 to R356): one named field per row of the
register tables of spec/02 to spec/18, the reset words that are not zero, which fields a write or a read acts on, and
the values that the "L" fields take where the configuration names none. -/
namespace Sys2Proof.Machine

/-- A register field: block ID, byte offset in the block, lowest bit, width (R352). For a block that a tile has
several of (DMC, FCH, ETH) the block ID is that of number 0. -/
structure Fld where
  blk : Nat
  off : Nat
  lo : Nat
  w : Nat
deriving DecidableEq, Repr

/-- The same field of the n-th block of its kind (DMC n, FCH n, ETH n). -/
def Fld.inst (f : Fld) (n : Nat) : Fld := { f with blk := f.blk + n }

/-- The same field of the register n bytes further on. -/
def Fld.up (f : Fld) (n : Nat) : Fld := { f with off := f.off + n }

/-- Field access types (Table 0.3); a field with none is read-only. -/
inductive Acc
  | rw | w1c | rc | wo
deriving DecidableEq, Repr

/-- A field that a write or a read acts on, within its register. -/
structure FieldRow where
  lo : Nat
  w : Nat
  acc : Acc
deriving DecidableEq, Repr

/-- A register, or n registers `stride` bytes apart, with the fields that are not read-only. -/
structure RegRow where
  off : Nat
  n : Nat
  stride : Nat
  fields : List FieldRow
deriving DecidableEq, Repr

/-! ### MGT -/

/-! MGT.STATE: Table 12.14, spec/12_management_mailboxes_roles.md -/
def MGT.STATE.CAUSE : Fld := ⟨0x2, 0x0, 16, 16⟩
def MGT.STATE.DSTATE : Fld := ⟨0x2, 0x0, 0, 4⟩
/-! MGT.CORES: Table 12.14, spec/12_management_mailboxes_roles.md -/
def MGT.CORES.FAILED : Fld := ⟨0x2, 0x4, 4, 4⟩
def MGT.CORES.IN_SERVICE : Fld := ⟨0x2, 0x4, 0, 4⟩
/-! MGT.MBOX: Table 12.14, spec/12_management_mailboxes_roles.md -/
def MGT.MBOX.SESSION : Fld := ⟨0x2, 0x8, 16, 16⟩
def MGT.MBOX.CONNECTED : Fld := ⟨0x2, 0x8, 0, 16⟩
/-! MGT.LAST_REFUSE: Table 12.14, spec/12_management_mailboxes_roles.md -/
def MGT.LAST_REFUSE.STATUS : Fld := ⟨0x2, 0x10, 16, 16⟩
def MGT.LAST_REFUSE.POINT : Fld := ⟨0x2, 0x10, 4, 4⟩
def MGT.LAST_REFUSE.STEP : Fld := ⟨0x2, 0x10, 0, 4⟩
/-! MGT.COMMANDS: Table 12.14, spec/12_management_mailboxes_roles.md -/
def MGT.COMMANDS.COUNT : Fld := ⟨0x2, 0x40, 0, 32⟩
/-! MGT.DROPPED: Table 12.14, spec/12_management_mailboxes_roles.md -/
def MGT.DROPPED.COUNT : Fld := ⟨0x2, 0x44, 0, 32⟩
/-! MGT.NOTIFY_DROP: Table 12.14, spec/12_management_mailboxes_roles.md -/
def MGT.NOTIFY_DROP.COUNT : Fld := ⟨0x2, 0x48, 0, 32⟩
/-! MGT.EVENTS: Table 12.15, spec/12_management_mailboxes_roles.md -/
def MGT.EVENTS.CORE_SPARED : Fld := ⟨0x2, 0xc, 5, 1⟩
def MGT.EVENTS.MB0_BUSY : Fld := ⟨0x2, 0xc, 4, 1⟩
def MGT.EVENTS.NOTIFY_DROP : Fld := ⟨0x2, 0xc, 3, 1⟩
def MGT.EVENTS.REPLAY : Fld := ⟨0x2, 0xc, 2, 1⟩
def MGT.EVENTS.MAC_FAIL : Fld := ⟨0x2, 0xc, 1, 1⟩
def MGT.EVENTS.STATE_CHANGE : Fld := ⟨0x2, 0xc, 0, 1⟩

/-! ### AON -/

/-! AON.STATUS: Table 14.9, spec/14_power_clocks_sleep.md -/
def AON.STATUS.XTAL_OK : Fld := ⟨0x3, 0x0, 31, 1⟩
def AON.STATUS.MAINS : Fld := ⟨0x3, 0x0, 30, 1⟩
def AON.STATUS.ABOVE_TRIP : Fld := ⟨0x3, 0x0, 29, 1⟩
def AON.STATUS.ABOVE_EMERG : Fld := ⟨0x3, 0x0, 28, 1⟩
def AON.STATUS.ARMED : Fld := ⟨0x3, 0x0, 27, 1⟩
def AON.STATUS.WAKE_PIN : Fld := ⟨0x3, 0x0, 26, 1⟩
/-! AON.HU_THRESH: Table 14.9, spec/14_power_clocks_sleep.md -/
def AON.HU_THRESH.TRIP : Fld := ⟨0x3, 0x4, 16, 16⟩
def AON.HU_THRESH.EMERG : Fld := ⟨0x3, 0x4, 0, 16⟩
/-! AON.FILTER: Table 14.9, spec/14_power_clocks_sleep.md -/
def AON.FILTER.MAINS_US : Fld := ⟨0x3, 0x8, 0, 8⟩
/-! AON.TCRIT: Table 14.9, spec/14_power_clocks_sleep.md -/
def AON.TCRIT.C : Fld := ⟨0x3, 0xc, 0, 8⟩
/-! AON.ETC_LO: Table 14.9, spec/14_power_clocks_sleep.md -/
def AON.ETC_LO.TICKS : Fld := ⟨0x3, 0x10, 0, 32⟩
/-! AON.ETC_HI: Table 14.9, spec/14_power_clocks_sleep.md -/
def AON.ETC_HI.TICKS : Fld := ⟨0x3, 0x14, 0, 16⟩
/-! AON.WAKE_AT_LO: Table 14.9, spec/14_power_clocks_sleep.md -/
def AON.WAKE_AT_LO.TICKS : Fld := ⟨0x3, 0x18, 0, 32⟩
/-! AON.WAKE_AT_HI: Table 14.9, spec/14_power_clocks_sleep.md -/
def AON.WAKE_AT_HI.EN : Fld := ⟨0x3, 0x1c, 31, 1⟩
def AON.WAKE_AT_HI.TICKS : Fld := ⟨0x3, 0x1c, 0, 16⟩
/-! AON.WAKE_SRC: Table 14.9, spec/14_power_clocks_sleep.md -/
def AON.WAKE_SRC.SRC : Fld := ⟨0x3, 0x20, 0, 4⟩
/-! AON.EVENTS: Table 14.9, spec/14_power_clocks_sleep.md -/
def AON.EVENTS.XTAL_FAIL : Fld := ⟨0x3, 0x24, 5, 1⟩
def AON.EVENTS.VAON_LOW : Fld := ⟨0x3, 0x24, 4, 1⟩
def AON.EVENTS.TCRIT : Fld := ⟨0x3, 0x24, 3, 1⟩
def AON.EVENTS.HU_EMERG : Fld := ⟨0x3, 0x24, 2, 1⟩
def AON.EVENTS.HU_TRIP : Fld := ⟨0x3, 0x24, 1, 1⟩
def AON.EVENTS.MAINS_LOW : Fld := ⟨0x3, 0x24, 0, 1⟩

/-! ### PWC -/

/-! PWC.STATUS: Table 14.10, spec/14_power_clocks_sleep.md -/
def PWC.STATUS.CLK_REQ : Fld := ⟨0x4, 0x0, 9, 1⟩
def PWC.STATUS.HU_EN : Fld := ⟨0x4, 0x0, 8, 1⟩
def PWC.STATUS.PG : Fld := ⟨0x4, 0x0, 0, 4⟩
/-! PWC.PHASES: Table 14.10, spec/14_power_clocks_sleep.md -/
def PWC.PHASES.ON : Fld := ⟨0x4, 0x4, 0, 24⟩
/-! PWC.RAIL_V: Table 14.10, spec/14_power_clocks_sleep.md -/
def PWC.RAIL_V.SET_MV : Fld := ⟨0x4, 0x8, 16, 16⟩
def PWC.RAIL_V.MEAS_MV : Fld := ⟨0x4, 0x8, 0, 16⟩
/-! PWC.RAIL_I: Table 14.10, spec/14_power_clocks_sleep.md -/
def PWC.RAIL_I.DECIAMP : Fld := ⟨0x4, 0x18, 0, 16⟩
/-! PWC.TILE_P: Table 14.10, spec/14_power_clocks_sleep.md -/
def PWC.TILE_P.DECIWATT : Fld := ⟨0x4, 0x28, 0, 16⟩
/-! PWC.SLEEP: Table 14.10, spec/14_power_clocks_sleep.md -/
def PWC.SLEEP.STATE : Fld := ⟨0x4, 0x30, 28, 4⟩
def PWC.SLEEP.CLEAN_MS : Fld := ⟨0x4, 0x30, 0, 16⟩
/-! PWC.THERM: Table 14.10, spec/14_power_clocks_sleep.md -/
def PWC.THERM.WARN : Fld := ⟨0x4, 0x34, 24, 8⟩
def PWC.THERM.THROTTLE : Fld := ⟨0x4, 0x34, 16, 8⟩
def PWC.THERM.LEVEL : Fld := ⟨0x4, 0x34, 0, 2⟩
/-! PWC.EVENTS: Table 14.10, spec/14_power_clocks_sleep.md -/
def PWC.EVENTS.SLEEP_ABORTED : Fld := ⟨0x4, 0x38, 5, 1⟩
def PWC.EVENTS.THROTTLE : Fld := ⟨0x4, 0x38, 4, 1⟩
def PWC.EVENTS.WARN : Fld := ⟨0x4, 0x38, 3, 1⟩
def PWC.EVENTS.PHASE_FAULT : Fld := ⟨0x4, 0x38, 2, 1⟩
def PWC.EVENTS.RAIL_FAULT : Fld := ⟨0x4, 0x38, 1, 1⟩
/-! PWC.THROTTLE_MS: Table 14.10, spec/14_power_clocks_sleep.md -/
def PWC.THROTTLE_MS.COUNT : Fld := ⟨0x4, 0x40, 0, 32⟩
/-! PWC.WAKES: Table 14.10, spec/14_power_clocks_sleep.md -/
def PWC.WAKES.COUNT : Fld := ⟨0x4, 0x44, 0, 32⟩

/-! ### DMC -/

/-! DMC.CFG: Table 4.6, spec/04_main_tier_dram.md -/
def DMC.CFG.DPC : Fld := ⟨0x8, 0x0, 14, 2⟩
def DMC.CFG.PRANKS : Fld := ⟨0x8, 0x0, 12, 2⟩
def DMC.CFG.STACK : Fld := ⟨0x8, 0x0, 10, 2⟩
def DMC.CFG.DENSITY : Fld := ⟨0x8, 0x0, 9, 1⟩
def DMC.CFG.LRANKS : Fld := ⟨0x8, 0x0, 4, 5⟩
def DMC.CFG.POPULATED : Fld := ⟨0x8, 0x0, 0, 1⟩
/-! DMC.AMAP: Table 4.7, spec/04_main_tier_dram.md -/
def DMC.AMAP.CH_GRAN : Fld := ⟨0x8, 0x4, 2, 1⟩
def DMC.AMAP.ORDER : Fld := ⟨0x8, 0x4, 0, 2⟩
/-! DMC.SPEED: Table 4.7, spec/04_main_tier_dram.md -/
def DMC.SPEED.BUSY : Fld := ⟨0x8, 0x8, 31, 1⟩
def DMC.SPEED.CUR_RATE : Fld := ⟨0x8, 0x8, 16, 8⟩
def DMC.SPEED.TARGET : Fld := ⟨0x8, 0x8, 4, 2⟩
def DMC.SPEED.CUR_SET : Fld := ⟨0x8, 0x8, 2, 2⟩
def DMC.SPEED.GO : Fld := ⟨0x8, 0x8, 0, 1⟩
/-! DMC.PAGE: Table 4.8, spec/04_main_tier_dram.md -/
def DMC.PAGE.OPEN_MAX : Fld := ⟨0x8, 0xc, 8, 10⟩
def DMC.PAGE.POLICY : Fld := ⟨0x8, 0xc, 0, 2⟩
/-! DMC.SCHED: Table 4.8, spec/04_main_tier_dram.md -/
def DMC.SCHED.AGE_MAX : Fld := ⟨0x8, 0x10, 24, 8⟩
def DMC.SCHED.WQ_HI : Fld := ⟨0x8, 0x10, 16, 8⟩
def DMC.SCHED.WQ_LO : Fld := ⟨0x8, 0x10, 8, 8⟩
/-! DMC.REF: Table 4.8, spec/04_main_tier_dram.md -/
def DMC.REF.DEBT : Fld := ⟨0x8, 0x14, 24, 4⟩
def DMC.REF.TEMP : Fld := ⟨0x8, 0x14, 16, 8⟩
def DMC.REF.HIGH_TEMP : Fld := ⟨0x8, 0x14, 8, 1⟩
def DMC.REF.POST_MAX : Fld := ⟨0x8, 0x14, 4, 4⟩
/-! DMC.PANIC: Table 4.9, spec/04_main_tier_dram.md -/
def DMC.PANIC.ACTIVE : Fld := ⟨0x8, 0x18, 31, 1⟩
def DMC.PANIC.FEED_PCT : Fld := ⟨0x8, 0x18, 16, 8⟩
def DMC.PANIC.MAX_US : Fld := ⟨0x8, 0x18, 0, 16⟩
/-! DMC.RETRAIN: Table 4.9, spec/04_main_tier_dram.md -/
def DMC.RETRAIN.EN : Fld := ⟨0x8, 0x1c, 31, 1⟩
def DMC.RETRAIN.MAX_DEFER : Fld := ⟨0x8, 0x1c, 10, 10⟩
def DMC.RETRAIN.PERIOD : Fld := ⟨0x8, 0x1c, 0, 10⟩
/-! DMC.TRN_CTL: Table 4.10, spec/04_main_tier_dram.md -/
def DMC.TRN_CTL.BUSY : Fld := ⟨0x8, 0x20, 31, 1⟩
def DMC.TRN_CTL.RANK : Fld := ⟨0x8, 0x20, 24, 4⟩
def DMC.TRN_CTL.SUBCH : Fld := ⟨0x8, 0x20, 23, 1⟩
def DMC.TRN_CTL.PATTERN : Fld := ⟨0x8, 0x20, 12, 4⟩
def DMC.TRN_CTL.OP : Fld := ⟨0x8, 0x20, 8, 4⟩
def DMC.TRN_CTL.BURSTS : Fld := ⟨0x8, 0x20, 0, 8⟩
/-! DMC.TRN_CMP0: Table 4.10, spec/04_main_tier_dram.md -/
def DMC.TRN_CMP0.LANE_FAIL : Fld := ⟨0x8, 0x24, 0, 32⟩
/-! DMC.TRN_CMP1: Table 4.10, spec/04_main_tier_dram.md -/
def DMC.TRN_CMP1.ERR_COUNT : Fld := ⟨0x8, 0x28, 16, 16⟩
def DMC.TRN_CMP1.LANE_FAIL : Fld := ⟨0x8, 0x28, 0, 8⟩
/-! DMC.PPR: Table 4.10, spec/04_main_tier_dram.md -/
def DMC.PPR.BUSY : Fld := ⟨0x8, 0x2c, 31, 1⟩
def DMC.PPR.KIND : Fld := ⟨0x8, 0x2c, 30, 1⟩
def DMC.PPR.RANK : Fld := ⟨0x8, 0x2c, 26, 4⟩
def DMC.PPR.SUBCH : Fld := ⟨0x8, 0x2c, 25, 1⟩
def DMC.PPR.BG : Fld := ⟨0x8, 0x2c, 22, 3⟩
def DMC.PPR.BANK : Fld := ⟨0x8, 0x2c, 20, 2⟩
def DMC.PPR.ROW : Fld := ⟨0x8, 0x2c, 3, 17⟩
def DMC.PPR.GO : Fld := ⟨0x8, 0x2c, 0, 1⟩
/-! DMC.RETAIN: Table 4.10, spec/04_main_tier_dram.md -/
def DMC.RETAIN.ALLOWED : Fld := ⟨0x8, 0x30, 8, 1⟩
def DMC.RETAIN.RETAINED : Fld := ⟨0x8, 0x30, 0, 5⟩
/-! DMC.STATUS: Table 4.11, spec/04_main_tier_dram.md -/
def DMC.STATUS.STATE : Fld := ⟨0x8, 0x34, 28, 4⟩
def DMC.STATUS.PPR_RESULT : Fld := ⟨0x8, 0x34, 24, 4⟩
def DMC.STATUS.RQ_USED : Fld := ⟨0x8, 0x34, 16, 8⟩
def DMC.STATUS.WQ_USED : Fld := ⟨0x8, 0x34, 8, 8⟩
/-! DMC.EVENTS: Table 4.12, spec/04_main_tier_dram.md -/
def DMC.EVENTS.PPR_REFUSED : Fld := ⟨0x8, 0x38, 7, 1⟩
def DMC.EVENTS.FEED_PCT_REFUSED : Fld := ⟨0x8, 0x38, 6, 1⟩
def DMC.EVENTS.FREQ_REFUSED : Fld := ⟨0x8, 0x38, 5, 1⟩
def DMC.EVENTS.RETRAIN_FORCED : Fld := ⟨0x8, 0x38, 4, 1⟩
def DMC.EVENTS.PANIC_LONG : Fld := ⟨0x8, 0x38, 3, 1⟩
def DMC.EVENTS.REF_DEBT_MAX : Fld := ⟨0x8, 0x38, 2, 1⟩
def DMC.EVENTS.TRAIN_FAIL : Fld := ⟨0x8, 0x38, 1, 1⟩
def DMC.EVENTS.TEMP_HIGH : Fld := ⟨0x8, 0x38, 0, 1⟩
/-! DMC.ROW_HIT: Table 4.13, spec/04_main_tier_dram.md -/
def DMC.ROW_HIT.COUNT : Fld := ⟨0x8, 0x100, 0, 32⟩
/-! DMC.ROW_CONFLICT: Table 4.13, spec/04_main_tier_dram.md -/
def DMC.ROW_CONFLICT.COUNT : Fld := ⟨0x8, 0x104, 0, 32⟩
/-! DMC.PANIC_READS: Table 4.13, spec/04_main_tier_dram.md -/
def DMC.PANIC_READS.COUNT : Fld := ⟨0x8, 0x108, 0, 32⟩
/-! DMC.RETRAIN_CNT: Table 4.13, spec/04_main_tier_dram.md -/
def DMC.RETRAIN_CNT.COUNT : Fld := ⟨0x8, 0x10c, 0, 32⟩
/-! DMC.TSET_A: Table 4.13 note, spec/04_main_tier_dram.md -/
def DMC.TSET_A.VALUE : Fld := ⟨0x8, 0x40, 0, 32⟩
/-! DMC.TSET_B: Table 4.13 note, spec/04_main_tier_dram.md -/
def DMC.TSET_B.VALUE : Fld := ⟨0x8, 0x80, 0, 32⟩
/-! DMC.TSET_C: Table 4.13 note, spec/04_main_tier_dram.md -/
def DMC.TSET_C.VALUE : Fld := ⟨0x8, 0xc0, 0, 32⟩

/-! ### DEC -/

/-! DEC.CTRL: Table 5.8, spec/05_main_tier_integrity.md -/
def DEC.CTRL.HOLD : Fld := ⟨0xb, 0x0, 4, 1⟩
def DEC.CTRL.SCRUB_EN : Fld := ⟨0xb, 0x0, 0, 1⟩
/-! DEC.STATUS: Table 5.8, spec/05_main_tier_integrity.md -/
def DEC.STATUS.CE_MODE : Fld := ⟨0xb, 0x4, 30, 2⟩
def DEC.STATUS.SPARE_FREE : Fld := ⟨0xb, 0x4, 17, 13⟩
def DEC.STATUS.BANK_RET : Fld := ⟨0xb, 0x4, 12, 5⟩
def DEC.STATUS.DEV_ERASED : Fld := ⟨0xb, 0x4, 0, 7⟩
/-! DEC.SCRUB: Table 5.8, spec/05_main_tier_integrity.md -/
def DEC.SCRUB.PERIOD : Fld := ⟨0xb, 0xc, 16, 8⟩
/-! DEC.SCRUB_POS: Table 5.8, spec/05_main_tier_integrity.md -/
def DEC.SCRUB_POS.PAGE : Fld := ⟨0xb, 0x10, 0, 27⟩
/-! DEC.SCRUB_PASSES: Table 5.8, spec/05_main_tier_integrity.md -/
def DEC.SCRUB_PASSES.COUNT : Fld := ⟨0xb, 0x1c, 0, 32⟩
/-! DEC.RESV: Table 5.8, spec/05_main_tier_integrity.md -/
def DEC.RESV.FRAME : Fld := ⟨0xb, 0x3c, 0, 24⟩
/-! DEC.EVENTS: Table 5.9, spec/05_main_tier_integrity.md -/
def DEC.EVENTS.SCRUB_PASS : Fld := ⟨0xb, 0x8, 9, 1⟩
def DEC.EVENTS.SELFTEST_FAIL : Fld := ⟨0xb, 0x8, 8, 1⟩
def DEC.EVENTS.RETIRE_REFUSED : Fld := ⟨0xb, 0x8, 7, 1⟩
def DEC.EVENTS.SPARE_LOW : Fld := ⟨0xb, 0x8, 6, 1⟩
def DEC.EVENTS.BORN_LOST : Fld := ⟨0xb, 0x8, 5, 1⟩
def DEC.EVENTS.BORN_COPY : Fld := ⟨0xb, 0x8, 4, 1⟩
def DEC.EVENTS.LOG_FULL : Fld := ⟨0xb, 0x8, 3, 1⟩
def DEC.EVENTS.POISON_READ : Fld := ⟨0xb, 0x8, 2, 1⟩
def DEC.EVENTS.UE : Fld := ⟨0xb, 0x8, 1, 1⟩
def DEC.EVENTS.CE : Fld := ⟨0xb, 0x8, 0, 1⟩
/-! DEC.LOG_SEL: Table 5.10, spec/05_main_tier_integrity.md -/
def DEC.LOG_SEL.CH : Fld := ⟨0xb, 0x20, 5, 2⟩
def DEC.LOG_SEL.ENTRY : Fld := ⟨0xb, 0x20, 0, 5⟩
/-! DEC.LOG_W: Table 5.10, spec/05_main_tier_integrity.md -/
def DEC.LOG_W.DATA : Fld := ⟨0xb, 0x24, 0, 32⟩
/-! DEC.LOG_CLEAR: Table 5.10, spec/05_main_tier_integrity.md -/
def DEC.LOG_CLEAR.CH_MASK : Fld := ⟨0xb, 0x34, 0, 3⟩
/-! DEC.LOG_LOST: Table 5.10, spec/05_main_tier_integrity.md -/
def DEC.LOG_LOST.COUNT : Fld := ⟨0xb, 0x38, 0, 32⟩
/-! DEC.RET_SEL: Table 5.10, spec/05_main_tier_integrity.md -/
def DEC.RET_SEL.TABLE : Fld := ⟨0xb, 0x40, 16, 2⟩
def DEC.RET_SEL.CH : Fld := ⟨0xb, 0x40, 12, 2⟩
def DEC.RET_SEL.INDEX : Fld := ⟨0xb, 0x40, 0, 12⟩
/-! DEC.RET_DATA0: Table 5.10, spec/05_main_tier_integrity.md -/
def DEC.RET_DATA0.VALID : Fld := ⟨0xb, 0x44, 31, 1⟩
def DEC.RET_DATA0.ENTRY : Fld := ⟨0xb, 0x44, 0, 31⟩
/-! DEC.RET_DATA1: Table 5.10, spec/05_main_tier_integrity.md -/
def DEC.RET_DATA1.SPARE : Fld := ⟨0xb, 0x48, 0, 12⟩
/-! DEC.INJ_CTRL: Table 5.11, spec/05_main_tier_integrity.md -/
def DEC.INJ_CTRL.POISON : Fld := ⟨0xb, 0x60, 7, 1⟩
def DEC.INJ_CTRL.CH : Fld := ⟨0xb, 0x60, 5, 2⟩
def DEC.INJ_CTRL.SUBCH : Fld := ⟨0xb, 0x60, 4, 1⟩
def DEC.INJ_CTRL.PATH : Fld := ⟨0xb, 0x60, 3, 1⟩
def DEC.INJ_CTRL.ARM : Fld := ⟨0xb, 0x60, 0, 1⟩
/-! DEC.INJ_MASK0: Table 5.11, spec/05_main_tier_integrity.md -/
def DEC.INJ_MASK0.SYM : Fld := ⟨0xb, 0x64, 0, 32⟩
/-! DEC.INJ_MASK1: Table 5.11, spec/05_main_tier_integrity.md -/
def DEC.INJ_MASK1.SYM : Fld := ⟨0xb, 0x68, 0, 32⟩
/-! DEC.INJ_MASK2: Table 5.11, spec/05_main_tier_integrity.md -/
def DEC.INJ_MASK2.SYM : Fld := ⟨0xb, 0x6c, 0, 16⟩
/-! DEC.INJ_XOR: Table 5.11, spec/05_main_tier_integrity.md -/
def DEC.INJ_XOR.VALUE : Fld := ⟨0xb, 0x70, 0, 8⟩
/-! DEC.CE_CNT: Table 5.12, spec/05_main_tier_integrity.md -/
def DEC.CE_CNT.COUNT : Fld := ⟨0xb, 0x100, 0, 32⟩
/-! DEC.UE_CNT: Table 5.12, spec/05_main_tier_integrity.md -/
def DEC.UE_CNT.COUNT : Fld := ⟨0xb, 0x104, 0, 32⟩
/-! DEC.POISON_CNT: Table 5.12, spec/05_main_tier_integrity.md -/
def DEC.POISON_CNT.COUNT : Fld := ⟨0xb, 0x108, 0, 32⟩
/-! DEC.SCRUB_CE: Table 5.12, spec/05_main_tier_integrity.md -/
def DEC.SCRUB_CE.COUNT : Fld := ⟨0xb, 0x10c, 0, 32⟩

/-! ### TCH -/

/-! TCH.CTRL: Table 3.5, spec/03_tier_cache.md -/
def TCH.CTRL.DEEP_NOALLOC : Fld := ⟨0xc, 0x0, 8, 1⟩
def TCH.CTRL.EN : Fld := ⟨0xc, 0x0, 0, 1⟩
/-! TCH.STATUS: Table 3.6, spec/03_tier_cache.md -/
def TCH.STATUS.EVB_USED : Fld := ⟨0xc, 0x4, 16, 7⟩
def TCH.STATUS.MISSQ_USED : Fld := ⟨0xc, 0x4, 8, 8⟩
def TCH.STATUS.STATE : Fld := ⟨0xc, 0x4, 0, 3⟩
/-! TCH.WAYCLASS: Table 3.7, spec/03_tier_cache.md -/
def TCH.WAYCLASS.STREAM : Fld := ⟨0xc, 0x8, 0, 16⟩
/-! TCH.WAYPWR: Table 3.7, spec/03_tier_cache.md -/
def TCH.WAYPWR.ON : Fld := ⟨0xc, 0xc, 0, 16⟩
/-! TCH.WAYSTAT: Table 3.7, spec/03_tier_cache.md -/
def TCH.WAYSTAT.CLEANING : Fld := ⟨0xc, 0x10, 16, 16⟩
def TCH.WAYSTAT.POWERED : Fld := ⟨0xc, 0x10, 0, 16⟩
/-! TCH.GEOM: Table 3.7, spec/03_tier_cache.md -/
def TCH.GEOM.HOST_SETS : Fld := ⟨0xc, 0x14, 16, 16⟩
def TCH.GEOM.STREAM_SETS : Fld := ⟨0xc, 0x14, 0, 12⟩
/-! TCH.MAINT_LO: Table 3.8, spec/03_tier_cache.md -/
def TCH.MAINT_LO.ADDR_LO : Fld := ⟨0xc, 0x20, 7, 25⟩
/-! TCH.MAINT_HI: Table 3.8, spec/03_tier_cache.md -/
def TCH.MAINT_HI.ADDR_HI : Fld := ⟨0xc, 0x24, 0, 18⟩
/-! TCH.MAINT_CMD: Table 3.8, spec/03_tier_cache.md -/
def TCH.MAINT_CMD.BUSY : Fld := ⟨0xc, 0x28, 31, 1⟩
def TCH.MAINT_CMD.SCOPE : Fld := ⟨0xc, 0x28, 4, 2⟩
def TCH.MAINT_CMD.OP : Fld := ⟨0xc, 0x28, 0, 2⟩
/-! TCH.EVENTS: Table 3.9, spec/03_tier_cache.md -/
def TCH.EVENTS.MAINT_REJECTED : Fld := ⟨0xc, 0x2c, 6, 1⟩
def TCH.EVENTS.DATA_UNCORR : Fld := ⟨0xc, 0x2c, 5, 1⟩
def TCH.EVENTS.TAG_REPAIR : Fld := ⟨0xc, 0x2c, 4, 1⟩
def TCH.EVENTS.EVB_FULL : Fld := ⟨0xc, 0x2c, 3, 1⟩
def TCH.EVENTS.WAY_REFUSED : Fld := ⟨0xc, 0x2c, 2, 1⟩
def TCH.EVENTS.WAY_DONE : Fld := ⟨0xc, 0x2c, 1, 1⟩
def TCH.EVENTS.DISABLED : Fld := ⟨0xc, 0x2c, 0, 1⟩
/-! TCH.HOST_HIT: Table 3.10, spec/03_tier_cache.md -/
def TCH.HOST_HIT.COUNT : Fld := ⟨0xc, 0x40, 0, 32⟩
/-! TCH.HOST_MISS: Table 3.10, spec/03_tier_cache.md -/
def TCH.HOST_MISS.COUNT : Fld := ⟨0xc, 0x44, 0, 32⟩
/-! TCH.STREAM_HIT: Table 3.10, spec/03_tier_cache.md -/
def TCH.STREAM_HIT.COUNT : Fld := ⟨0xc, 0x48, 0, 32⟩
/-! TCH.STREAM_MISS: Table 3.10, spec/03_tier_cache.md -/
def TCH.STREAM_MISS.COUNT : Fld := ⟨0xc, 0x4c, 0, 32⟩
/-! TCH.WRITEBACK: Table 3.10, spec/03_tier_cache.md -/
def TCH.WRITEBACK.COUNT : Fld := ⟨0xc, 0x50, 0, 32⟩
/-! TCH.EVB_STALL: Table 3.10, spec/03_tier_cache.md -/
def TCH.EVB_STALL.COUNT : Fld := ⟨0xc, 0x54, 0, 32⟩
/-! TCH.ECC: Table 3.10, spec/03_tier_cache.md -/
def TCH.ECC.UNCORR : Fld := ⟨0xc, 0x58, 16, 16⟩
def TCH.ECC.CORR : Fld := ⟨0xc, 0x58, 0, 16⟩

/-! ### NTR -/

/-! NTR.SIZE: Table 2.20, spec/02_memory_space_and_tiers.md -/
def NTR.SIZE.STEPS : Fld := ⟨0xd, 0x0, 0, 4⟩
/-! NTR.FRAMES: Table 2.20, spec/02_memory_space_and_tiers.md -/
def NTR.FRAMES.FIFO : Fld := ⟨0xd, 0x4, 16, 8⟩
def NTR.FRAMES.HOME : Fld := ⟨0xd, 0x4, 8, 8⟩
def NTR.FRAMES.FREE : Fld := ⟨0xd, 0x4, 0, 8⟩
/-! NTR.ECC: Table 2.20, spec/02_memory_space_and_tiers.md -/
def NTR.ECC.UNCORR : Fld := ⟨0xd, 0x8, 16, 16⟩
def NTR.ECC.CORR : Fld := ⟨0xd, 0x8, 0, 16⟩

/-! ### MOV -/

/-! MOV.CTRL: Table 2.15, spec/02_memory_space_and_tiers.md -/
def MOV.CTRL.RATE_CAP : Fld := ⟨0xe, 0x0, 8, 8⟩
def MOV.CTRL.MAX_PAR : Fld := ⟨0xe, 0x0, 4, 4⟩
def MOV.CTRL.PAUSE : Fld := ⟨0xe, 0x0, 0, 1⟩
/-! MOV.RECOPY: Table 2.16, spec/02_memory_space_and_tiers.md -/
def MOV.RECOPY.MAX_PASS : Fld := ⟨0xe, 0x4, 8, 4⟩
def MOV.RECOPY.THRESH : Fld := ⟨0xe, 0x4, 0, 8⟩
/-! MOV.STATUS: Table 2.17, spec/02_memory_space_and_tiers.md -/
def MOV.STATUS.PENDING : Fld := ⟨0xe, 0x8, 16, 8⟩
def MOV.STATUS.WAITING : Fld := ⟨0xe, 0x8, 8, 8⟩
def MOV.STATUS.ACTIVE : Fld := ⟨0xe, 0x8, 0, 4⟩
/-! MOV.EVENTS: Table 2.18, spec/02_memory_space_and_tiers.md -/
def MOV.EVENTS.ABANDONED : Fld := ⟨0xe, 0xc, 4, 1⟩
def MOV.EVENTS.CANCELLED : Fld := ⟨0xe, 0xc, 3, 1⟩
def MOV.EVENTS.SUPERSEDED : Fld := ⟨0xe, 0xc, 2, 1⟩
def MOV.EVENTS.POISON : Fld := ⟨0xe, 0xc, 1, 1⟩
def MOV.EVENTS.WAIT_SPACE : Fld := ⟨0xe, 0xc, 0, 1⟩
/-! MOV.DONE_CNT: Table 2.19, spec/02_memory_space_and_tiers.md -/
def MOV.DONE_CNT.COUNT : Fld := ⟨0xe, 0x10, 0, 32⟩
/-! MOV.HMC_MISS: Table 2.19, spec/02_memory_space_and_tiers.md -/
def MOV.HMC_MISS.COUNT : Fld := ⟨0xe, 0x14, 0, 32⟩
/-! MOV.TRIG_ARMED: Table 2.19, spec/02_memory_space_and_tiers.md -/
def MOV.TRIG_ARMED.ARMED : Fld := ⟨0xe, 0x20, 0, 15⟩

/-! ### FCH -/

/-! FCH.CFG: Table 6.9, spec/06_deep_tier_flash.md -/
def FCH.CFG.RATE : Fld := ⟨0x10, 0x0, 16, 8⟩
def FCH.CFG.LUNS : Fld := ⟨0x10, 0x0, 8, 5⟩
def FCH.CFG.POPULATED : Fld := ⟨0x10, 0x0, 0, 1⟩
/-! FCH.STATUS: Table 6.9, spec/06_deep_tier_flash.md -/
def FCH.STATUS.BUSY : Fld := ⟨0x10, 0x4, 16, 16⟩
def FCH.STATUS.STATE : Fld := ⟨0x10, 0x4, 12, 4⟩
/-! FCH.READS: Table 6.9, spec/06_deep_tier_flash.md -/
def FCH.READS.COUNT : Fld := ⟨0x10, 0x40, 0, 32⟩
/-! FCH.PROGRAMS: Table 6.9, spec/06_deep_tier_flash.md -/
def FCH.PROGRAMS.COUNT : Fld := ⟨0x10, 0x44, 0, 32⟩
/-! FCH.ERASES: Table 6.9, spec/06_deep_tier_flash.md -/
def FCH.ERASES.COUNT : Fld := ⟨0x10, 0x48, 0, 32⟩
/-! FCH.SUSPENDS: Table 6.9, spec/06_deep_tier_flash.md -/
def FCH.SUSPENDS.COUNT : Fld := ⟨0x10, 0x4c, 0, 32⟩
/-! FCH.EVENTS: Table 6.10, spec/06_deep_tier_flash.md -/
def FCH.EVENTS.PROFILE_MISS : Fld := ⟨0x10, 0x8, 5, 1⟩
def FCH.EVENTS.TRAIN_FAIL : Fld := ⟨0x10, 0x8, 4, 1⟩
def FCH.EVENTS.ERASE_FAIL : Fld := ⟨0x10, 0x8, 3, 1⟩
def FCH.EVENTS.PROG_FAIL : Fld := ⟨0x10, 0x8, 2, 1⟩
def FCH.EVENTS.SUSPEND_LIMIT : Fld := ⟨0x10, 0x8, 1, 1⟩
def FCH.EVENTS.TPROG_SLOW : Fld := ⟨0x10, 0x8, 0, 1⟩

/-! ### DTM -/

/-! DTM.CTRL: Table 6.11, spec/06_deep_tier_flash.md -/
def DTM.CTRL.OP_PCT : Fld := ⟨0x18, 0x0, 24, 8⟩
def DTM.CTRL.RETRY_MAX : Fld := ⟨0x18, 0x0, 20, 4⟩
def DTM.CTRL.RA_HOST : Fld := ⟨0x18, 0x0, 1, 1⟩
def DTM.CTRL.SOFT_EN : Fld := ⟨0x18, 0x0, 0, 1⟩
/-! DTM.STATUS: Table 6.11, spec/06_deep_tier_flash.md -/
def DTM.STATUS.MODE : Fld := ⟨0x18, 0x4, 30, 2⟩
def DTM.STATUS.DUMP : Fld := ⟨0x18, 0x4, 27, 3⟩
def DTM.STATUS.OP_NOW : Fld := ⟨0x18, 0x4, 16, 8⟩
/-! DTM.FREE: Table 6.11, spec/06_deep_tier_flash.md -/
def DTM.FREE.STRIPES : Fld := ⟨0x18, 0x8, 0, 24⟩
/-! DTM.SPARE: Table 6.11, spec/06_deep_tier_flash.md -/
def DTM.SPARE.BLOCKS : Fld := ⟨0x18, 0xc, 0, 24⟩
/-! DTM.SPARE_FLOOR: Table 6.11, spec/06_deep_tier_flash.md -/
def DTM.SPARE_FLOOR.BLOCKS : Fld := ⟨0x18, 0x10, 0, 24⟩
/-! DTM.GC: Table 6.11, spec/06_deep_tier_flash.md -/
def DTM.GC.HI : Fld := ⟨0x18, 0x14, 16, 16⟩
def DTM.GC.LO : Fld := ⟨0x18, 0x14, 0, 16⟩
/-! DTM.RA: Table 6.11, spec/06_deep_tier_flash.md -/
def DTM.RA.LIMIT_US : Fld := ⟨0x18, 0x1c, 0, 8⟩
/-! DTM.TABLE: Table 6.11, spec/06_deep_tier_flash.md -/
def DTM.TABLE.FRAMES : Fld := ⟨0x18, 0x20, 16, 16⟩
def DTM.TABLE.FLUSH_MS : Fld := ⟨0x18, 0x20, 0, 16⟩
/-! DTM.WEAR_TH: Table 6.11, spec/06_deep_tier_flash.md -/
def DTM.WEAR_TH.ITER : Fld := ⟨0x18, 0x24, 8, 8⟩
def DTM.WEAR_TH.RETRY : Fld := ⟨0x18, 0x24, 0, 8⟩
/-! DTM.WEAR: Table 6.11, spec/06_deep_tier_flash.md -/
def DTM.WEAR.PE_MAX : Fld := ⟨0x18, 0x28, 16, 16⟩
def DTM.WEAR.PE_AVG : Fld := ⟨0x18, 0x28, 0, 16⟩
/-! DTM.DUMP_RATE: Table 6.11, spec/06_deep_tier_flash.md -/
def DTM.DUMP_RATE.MBPS : Fld := ⟨0x18, 0x2c, 0, 16⟩
/-! DTM.EVENTS: Table 6.12, spec/06_deep_tier_flash.md -/
def DTM.EVENTS.BOOKS : Fld := ⟨0x18, 0x18, 5, 1⟩
def DTM.EVENTS.NO_NEW_HOMES : Fld := ⟨0x18, 0x18, 4, 1⟩
def DTM.EVENTS.WEAK : Fld := ⟨0x18, 0x18, 3, 1⟩
def DTM.EVENTS.RETIRED : Fld := ⟨0x18, 0x18, 2, 1⟩
def DTM.EVENTS.POISON : Fld := ⟨0x18, 0x18, 1, 1⟩
def DTM.EVENTS.RECOVERED : Fld := ⟨0x18, 0x18, 0, 1⟩
/-! DTM.HARD_FAIL: Table 6.13, spec/06_deep_tier_flash.md -/
def DTM.HARD_FAIL.COUNT : Fld := ⟨0x18, 0x40, 0, 32⟩
/-! DTM.RETRY_OK: Table 6.13, spec/06_deep_tier_flash.md -/
def DTM.RETRY_OK.COUNT : Fld := ⟨0x18, 0x44, 0, 32⟩
/-! DTM.SOFT_OK: Table 6.13, spec/06_deep_tier_flash.md -/
def DTM.SOFT_OK.COUNT : Fld := ⟨0x18, 0x48, 0, 32⟩
/-! DTM.PARITY_OK: Table 6.13, spec/06_deep_tier_flash.md -/
def DTM.PARITY_OK.COUNT : Fld := ⟨0x18, 0x4c, 0, 32⟩
/-! DTM.TWIN_OK: Table 6.13, spec/06_deep_tier_flash.md -/
def DTM.TWIN_OK.COUNT : Fld := ⟨0x18, 0x50, 0, 32⟩
/-! DTM.POISONED: Table 6.13, spec/06_deep_tier_flash.md -/
def DTM.POISONED.COUNT : Fld := ⟨0x18, 0x54, 0, 32⟩
/-! DTM.READ_AROUND: Table 6.13, spec/06_deep_tier_flash.md -/
def DTM.READ_AROUND.COUNT : Fld := ⟨0x18, 0x58, 0, 32⟩

/-! ### FRN -/

/-! FRN.CTRL: Table 7.9, spec/07_persistence_and_freeze.md -/
def FRN.CTRL.URGENT_PCT : Fld := ⟨0x19, 0x0, 24, 8⟩
def FRN.CTRL.AGE_MIN_US : Fld := ⟨0x19, 0x0, 8, 16⟩
def FRN.CTRL.PAUSE : Fld := ⟨0x19, 0x0, 0, 1⟩
/-! FRN.CEIL: Table 7.10, spec/07_persistence_and_freeze.md -/
def FRN.CEIL.EFFECTIVE : Fld := ⟨0x19, 0x4, 16, 8⟩
def FRN.CEIL.ENERGY : Fld := ⟨0x19, 0x4, 8, 8⟩
def FRN.CEIL.CONFIGURED : Fld := ⟨0x19, 0x4, 0, 8⟩
/-! FRN.HELD: Table 7.10, spec/07_persistence_and_freeze.md -/
def FRN.HELD.PAGES : Fld := ⟨0x19, 0x8, 0, 23⟩
/-! FRN.FREE: Table 7.10, spec/07_persistence_and_freeze.md -/
def FRN.FREE.EXCESS : Fld := ⟨0x19, 0xc, 31, 1⟩
def FRN.FREE.PAGES : Fld := ⟨0x19, 0xc, 0, 23⟩
/-! FRN.STATUS: Table 7.10, spec/07_persistence_and_freeze.md -/
def FRN.STATUS.MODE : Fld := ⟨0x19, 0x10, 30, 2⟩
def FRN.STATUS.BUF_PAGES : Fld := ⟨0x19, 0x10, 0, 24⟩
/-! FRN.WAITING: Table 7.10, spec/07_persistence_and_freeze.md -/
def FRN.WAITING.REQUESTS : Fld := ⟨0x19, 0x14, 0, 16⟩
/-! FRN.EVENTS: Table 7.11, spec/07_persistence_and_freeze.md -/
def FRN.EVENTS.REPROGRAM : Fld := ⟨0x19, 0x18, 4, 1⟩
def FRN.EVENTS.ADMIT_WAIT : Fld := ⟨0x19, 0x18, 3, 1⟩
def FRN.EVENTS.URGENT : Fld := ⟨0x19, 0x18, 2, 1⟩
def FRN.EVENTS.OVER_CEILING : Fld := ⟨0x19, 0x18, 1, 1⟩
def FRN.EVENTS.BOOKS : Fld := ⟨0x19, 0x18, 0, 1⟩
/-! FRN.PROGRAMMED: Table 7.12, spec/07_persistence_and_freeze.md -/
def FRN.PROGRAMMED.COUNT : Fld := ⟨0x19, 0x40, 0, 32⟩
/-! FRN.RETURNED: Table 7.12, spec/07_persistence_and_freeze.md -/
def FRN.RETURNED.COUNT : Fld := ⟨0x19, 0x44, 0, 32⟩
/-! FRN.RECAPTURE: Table 7.12, spec/07_persistence_and_freeze.md -/
def FRN.RECAPTURE.COUNT : Fld := ⟨0x19, 0x48, 0, 32⟩
/-! FRN.WAIT_US: Table 7.12, spec/07_persistence_and_freeze.md -/
def FRN.WAIT_US.COUNT : Fld := ⟨0x19, 0x4c, 0, 32⟩

/-! ### FRZ -/

/-! FRZ.STATUS: Table 7.13, spec/07_persistence_and_freeze.md -/
def FRZ.STATUS.STATE : Fld := ⟨0x1a, 0x0, 28, 4⟩
def FRZ.STATUS.SOURCE : Fld := ⟨0x1a, 0x0, 25, 3⟩
def FRZ.STATUS.BG_RESTORE : Fld := ⟨0x1a, 0x0, 24, 1⟩
def FRZ.STATUS.LAST : Fld := ⟨0x1a, 0x0, 20, 4⟩
/-! FRZ.SEQ: Table 7.13, spec/07_persistence_and_freeze.md -/
def FRZ.SEQ.COUNT : Fld := ⟨0x1a, 0x4, 0, 32⟩
/-! FRZ.BANK: Table 7.13, spec/07_persistence_and_freeze.md -/
def FRZ.BANK.CAP : Fld := ⟨0x1a, 0x8, 16, 16⟩
/-! FRZ.POWER: Table 7.13, spec/07_persistence_and_freeze.md -/
def FRZ.POWER.P_W : Fld := ⟨0x1a, 0xc, 16, 16⟩
def FRZ.POWER.ETA_PCT : Fld := ⟨0x1a, 0xc, 8, 8⟩
def FRZ.POWER.MARGIN : Fld := ⟨0x1a, 0xc, 0, 8⟩
/-! FRZ.TAVAIL: Table 7.13, spec/07_persistence_and_freeze.md -/
def FRZ.TAVAIL.MS : Fld := ⟨0x1a, 0x10, 0, 16⟩
/-! FRZ.META: Table 7.13, spec/07_persistence_and_freeze.md -/
def FRZ.META.MB : Fld := ⟨0x1a, 0x14, 0, 12⟩
/-! FRZ.LAST: Table 7.13, spec/07_persistence_and_freeze.md -/
def FRZ.LAST.DUR_MS : Fld := ⟨0x1a, 0x18, 16, 16⟩
def FRZ.LAST.DIRTY_MB : Fld := ⟨0x1a, 0x18, 0, 16⟩
/-! FRZ.EVENTS: Table 7.14, spec/07_persistence_and_freeze.md -/
def FRZ.EVENTS.TEST : Fld := ⟨0x1a, 0x1c, 4, 1⟩
def FRZ.EVENTS.NO_ARMED : Fld := ⟨0x1a, 0x1c, 3, 1⟩
def FRZ.EVENTS.SECOND_TRIGGER : Fld := ⟨0x1a, 0x1c, 2, 1⟩
def FRZ.EVENTS.MAINS_RETURN : Fld := ⟨0x1a, 0x1c, 1, 1⟩
def FRZ.EVENTS.COLLAPSE : Fld := ⟨0x1a, 0x1c, 0, 1⟩

/-! ### ETH -/

/-! ETH.CFG: Table 8.9, spec/08_host_network_transport.md -/
def ETH.CFG.LPORT_EN : Fld := ⟨0x20, 0x0, 16, 4⟩
def ETH.CFG.MTU : Fld := ⟨0x20, 0x0, 10, 2⟩
def ETH.CFG.MODE : Fld := ⟨0x20, 0x0, 0, 2⟩
/-! ETH.STATUS: Table 8.9, spec/08_host_network_transport.md -/
def ETH.STATUS.LINK_UP : Fld := ⟨0x20, 0x4, 28, 4⟩
def ETH.STATUS.RX_XOFF : Fld := ⟨0x20, 0x4, 8, 8⟩
def ETH.STATUS.TX_PAUSED : Fld := ⟨0x20, 0x4, 0, 8⟩
/-! ETH.PFC: Table 8.9, spec/08_host_network_transport.md -/
def ETH.PFC.HEADROOM : Fld := ⟨0x20, 0x8, 16, 8⟩
def ETH.PFC.WATCHDOG_MS : Fld := ⟨0x20, 0x8, 8, 8⟩
def ETH.PFC.LOSSLESS : Fld := ⟨0x20, 0x8, 0, 8⟩
/-! ETH.ETS0: Table 8.9, spec/08_host_network_transport.md -/
def ETH.ETS0.BW0 : Fld := ⟨0x20, 0xc, 0, 8⟩
def ETH.ETS0.BW1 : Fld := ⟨0x20, 0xc, 8, 8⟩
def ETH.ETS0.BW2 : Fld := ⟨0x20, 0xc, 16, 8⟩
def ETH.ETS0.BW3 : Fld := ⟨0x20, 0xc, 24, 8⟩
/-! ETH.ETS1: Table 8.9, spec/08_host_network_transport.md -/
def ETH.ETS1.BW4 : Fld := ⟨0x20, 0x10, 0, 8⟩
def ETH.ETS1.BW5 : Fld := ⟨0x20, 0x10, 8, 8⟩
def ETH.ETS1.BW6 : Fld := ⟨0x20, 0x10, 16, 8⟩
def ETH.ETS1.BW7 : Fld := ⟨0x20, 0x10, 24, 8⟩
/-! ETH.ETS_STRICT: Table 8.9, spec/08_host_network_transport.md -/
def ETH.ETS_STRICT.STRICT : Fld := ⟨0x20, 0x14, 0, 8⟩
/-! ETH.PRIO: Table 8.9, spec/08_host_network_transport.md -/
def ETH.PRIO.CNP_DSCP : Fld := ⟨0x20, 0x18, 16, 6⟩
def ETH.PRIO.ROCE_DSCP : Fld := ⟨0x20, 0x18, 8, 6⟩
def ETH.PRIO.CNP_PCP : Fld := ⟨0x20, 0x18, 4, 3⟩
def ETH.PRIO.ROCE_PCP : Fld := ⟨0x20, 0x18, 0, 3⟩
/-! ETH.EVENTS: Table 8.10, spec/08_host_network_transport.md -/
def ETH.EVENTS.MODE_CHANGE : Fld := ⟨0x20, 0x1c, 4, 1⟩
def ETH.EVENTS.ETS_REFUSED : Fld := ⟨0x20, 0x1c, 3, 1⟩
def ETH.EVENTS.ICRC_ERR : Fld := ⟨0x20, 0x1c, 2, 1⟩
def ETH.EVENTS.PFC_WATCHDOG : Fld := ⟨0x20, 0x1c, 1, 1⟩
def ETH.EVENTS.LINK_DOWN : Fld := ⟨0x20, 0x1c, 0, 1⟩
/-! ETH.RX_FRAMES: Table 8.11, spec/08_host_network_transport.md -/
def ETH.RX_FRAMES.COUNT : Fld := ⟨0x20, 0x40, 0, 32⟩
/-! ETH.TX_FRAMES: Table 8.11, spec/08_host_network_transport.md -/
def ETH.TX_FRAMES.COUNT : Fld := ⟨0x20, 0x44, 0, 32⟩
/-! ETH.RX_FCS_ERR: Table 8.11, spec/08_host_network_transport.md -/
def ETH.RX_FCS_ERR.COUNT : Fld := ⟨0x20, 0x48, 0, 32⟩
/-! ETH.RX_ICRC_ERR: Table 8.11, spec/08_host_network_transport.md -/
def ETH.RX_ICRC_ERR.COUNT : Fld := ⟨0x20, 0x4c, 0, 32⟩
/-! ETH.PFC_RX: Table 8.11, spec/08_host_network_transport.md -/
def ETH.PFC_RX.COUNT : Fld := ⟨0x20, 0x50, 0, 32⟩
/-! ETH.PFC_TX: Table 8.11, spec/08_host_network_transport.md -/
def ETH.PFC_TX.COUNT : Fld := ⟨0x20, 0x54, 0, 32⟩
/-! ETH.RX_DROP: Table 8.11, spec/08_host_network_transport.md -/
def ETH.RX_DROP.COUNT : Fld := ⟨0x20, 0x58, 0, 32⟩

/-! ### TWL -/

/-! TWL.STATUS: Table 10.11, spec/10_twin_operation.md -/
def TWL.STATUS.LINK_UP : Fld := ⟨0x22, 0x0, 31, 1⟩
def TWL.STATUS.SECURED : Fld := ⟨0x22, 0x0, 30, 1⟩
def TWL.STATUS.PAIRED : Fld := ⟨0x22, 0x0, 29, 1⟩
/-! TWL.TX_PN_HI: Table 10.11, spec/10_twin_operation.md -/
def TWL.TX_PN_HI.PN : Fld := ⟨0x22, 0x4, 0, 32⟩
/-! TWL.EVENTS: Table 10.11, spec/10_twin_operation.md -/
def TWL.EVENTS.FRAME_BAD : Fld := ⟨0x22, 0x8, 5, 1⟩
def TWL.EVENTS.PN_EXHAUSTED : Fld := ⟨0x22, 0x8, 4, 1⟩
def TWL.EVENTS.PN_NEAR : Fld := ⟨0x22, 0x8, 3, 1⟩
def TWL.EVENTS.REPLAY : Fld := ⟨0x22, 0x8, 2, 1⟩
def TWL.EVENTS.ICV_FAIL : Fld := ⟨0x22, 0x8, 1, 1⟩
def TWL.EVENTS.LINK_DOWN : Fld := ⟨0x22, 0x8, 0, 1⟩
/-! TWL.RX_ICV_FAIL: Table 10.11, spec/10_twin_operation.md -/
def TWL.RX_ICV_FAIL.COUNT : Fld := ⟨0x22, 0x40, 0, 32⟩
/-! TWL.RX_REPLAY: Table 10.11, spec/10_twin_operation.md -/
def TWL.RX_REPLAY.COUNT : Fld := ⟨0x22, 0x44, 0, 32⟩
/-! TWL.RETRANSMIT: Table 10.11, spec/10_twin_operation.md -/
def TWL.RETRANSMIT.COUNT : Fld := ⟨0x22, 0x48, 0, 32⟩

/-! ### RMA -/

/-! RMA.CTRL: Table 8.12, spec/08_host_network_transport.md -/
def RMA.CTRL.RNR_TIMER : Fld := ⟨0x23, 0x0, 24, 5⟩
def RMA.CTRL.CNP_GAP_US : Fld := ⟨0x23, 0x0, 16, 8⟩
def RMA.CTRL.ERR_HOLD_S : Fld := ⟨0x23, 0x0, 8, 8⟩
def RMA.CTRL.CNP_EN : Fld := ⟨0x23, 0x0, 0, 1⟩
/-! RMA.QP_LIMIT: Table 8.12, spec/08_host_network_transport.md -/
def RMA.QP_LIMIT.LIMIT : Fld := ⟨0x23, 0x4, 0, 21⟩
/-! RMA.QP_COUNT: Table 8.12, spec/08_host_network_transport.md -/
def RMA.QP_COUNT.CONNECTED : Fld := ⟨0x23, 0x8, 0, 21⟩
/-! RMA.ACTIVE: Table 8.12, spec/08_host_network_transport.md -/
def RMA.ACTIVE.QPS : Fld := ⟨0x23, 0xc, 0, 21⟩
/-! RMA.BUF_POOL: Table 8.12, spec/08_host_network_transport.md -/
def RMA.BUF_POOL.PULL_KB : Fld := ⟨0x23, 0x10, 16, 16⟩
def RMA.BUF_POOL.WIN_KB : Fld := ⟨0x23, 0x10, 0, 16⟩
/-! RMA.BUF_USE: Table 8.12, spec/08_host_network_transport.md -/
def RMA.BUF_USE.HELD_KB : Fld := ⟨0x23, 0x14, 16, 16⟩
def RMA.BUF_USE.COMMITTED_KB : Fld := ⟨0x23, 0x14, 0, 16⟩
/-! RMA.WIN: Table 8.12, spec/08_host_network_transport.md -/
def RMA.WIN.MAX_KB : Fld := ⟨0x23, 0x18, 16, 16⟩
def RMA.WIN.ACTIVE_US : Fld := ⟨0x23, 0x18, 0, 16⟩
/-! RMA.EVENTS: Table 8.13, spec/08_host_network_transport.md -/
def RMA.EVENTS.BAD_PORT : Fld := ⟨0x23, 0x1c, 6, 1⟩
def RMA.EVENTS.RNR_SENT : Fld := ⟨0x23, 0x1c, 5, 1⟩
def RMA.EVENTS.LIMIT : Fld := ⟨0x23, 0x1c, 4, 1⟩
def RMA.EVENTS.RETRY_EXCEEDED : Fld := ⟨0x23, 0x1c, 3, 1⟩
def RMA.EVENTS.WIN_VIOL : Fld := ⟨0x23, 0x1c, 2, 1⟩
def RMA.EVENTS.OVERCOMMIT : Fld := ⟨0x23, 0x1c, 1, 1⟩
def RMA.EVENTS.BOOKS : Fld := ⟨0x23, 0x1c, 0, 1⟩
/-! RMA.DUP_ACKED: Table 8.14, spec/08_host_network_transport.md -/
def RMA.DUP_ACKED.COUNT : Fld := ⟨0x23, 0x40, 0, 32⟩
/-! RMA.SEQ_NAK_TX: Table 8.14, spec/08_host_network_transport.md -/
def RMA.SEQ_NAK_TX.COUNT : Fld := ⟨0x23, 0x44, 0, 32⟩
/-! RMA.RETRANSMIT: Table 8.14, spec/08_host_network_transport.md -/
def RMA.RETRANSMIT.COUNT : Fld := ⟨0x23, 0x48, 0, 32⟩
/-! RMA.WIN_VIOL_KB: Table 8.14, spec/08_host_network_transport.md -/
def RMA.WIN_VIOL_KB.COUNT : Fld := ⟨0x23, 0x4c, 0, 32⟩
/-! RMA.RNR_NAK_TX: Table 8.14, spec/08_host_network_transport.md -/
def RMA.RNR_NAK_TX.COUNT : Fld := ⟨0x23, 0x50, 0, 32⟩
/-! RMA.CNP_TX: Table 8.14, spec/08_host_network_transport.md -/
def RMA.CNP_TX.COUNT : Fld := ⟨0x23, 0x54, 0, 32⟩
/-! RMA.CNP_RX: Table 8.14, spec/08_host_network_transport.md -/
def RMA.CNP_RX.COUNT : Fld := ⟨0x23, 0x58, 0, 32⟩
/-! RMA.CTX_MISS: Table 8.14, spec/08_host_network_transport.md -/
def RMA.CTX_MISS.COUNT : Fld := ⟨0x23, 0x5c, 0, 32⟩

/-! ### RGN -/

/-! RGN.STATUS: Table 9.9, spec/09_regions_capsules_ordering.md -/
def RGN.STATUS.USED : Fld := ⟨0x24, 0x0, 0, 17⟩
/-! RGN.REVOKE: Table 9.9, spec/09_regions_capsules_ordering.md -/
def RGN.REVOKE.PHASE1 : Fld := ⟨0x24, 0x4, 31, 1⟩
def RGN.REVOKE.PHASE2 : Fld := ⟨0x24, 0x4, 30, 1⟩
def RGN.REVOKE.REGION : Fld := ⟨0x24, 0x4, 0, 16⟩
/-! RGN.KEY_FAIL: Table 9.9, spec/09_regions_capsules_ordering.md -/
def RGN.KEY_FAIL.COUNT : Fld := ⟨0x24, 0x40, 0, 32⟩
/-! RGN.BOUNDS_FAIL: Table 9.9, spec/09_regions_capsules_ordering.md -/
def RGN.BOUNDS_FAIL.COUNT : Fld := ⟨0x24, 0x44, 0, 32⟩
/-! RGN.RIGHT_FAIL: Table 9.9, spec/09_regions_capsules_ordering.md -/
def RGN.RIGHT_FAIL.COUNT : Fld := ⟨0x24, 0x48, 0, 32⟩
/-! RGN.EVENTS: Table 9.10, spec/09_regions_capsules_ordering.md -/
def RGN.EVENTS.TABLE_PARITY : Fld := ⟨0x24, 0x8, 3, 1⟩
def RGN.EVENTS.REVOKE_DONE : Fld := ⟨0x24, 0x8, 2, 1⟩
def RGN.EVENTS.REVOKED_HIT : Fld := ⟨0x24, 0x8, 1, 1⟩
def RGN.EVENTS.CHECK_FAIL : Fld := ⟨0x24, 0x8, 0, 1⟩

/-! ### HCQ -/

/-! HCQ.GATE: Table 9.11, spec/09_regions_capsules_ordering.md -/
def HCQ.GATE.OPEN : Fld := ⟨0x25, 0x0, 2, 1⟩
def HCQ.GATE.ACTI : Fld := ⟨0x25, 0x0, 1, 1⟩
def HCQ.GATE.ACTO : Fld := ⟨0x25, 0x0, 0, 1⟩
/-! HCQ.STATUS: Table 9.11, spec/09_regions_capsules_ordering.md -/
def HCQ.STATUS.EXECUTING : Fld := ⟨0x25, 0x4, 16, 16⟩
def HCQ.STATUS.WAITING : Fld := ⟨0x25, 0x4, 0, 16⟩
/-! HCQ.CHQ: Table 9.11, spec/09_regions_capsules_ordering.md -/
def HCQ.CHQ.HALTED : Fld := ⟨0x25, 0x8, 16, 13⟩
def HCQ.CHQ.RUNNING : Fld := ⟨0x25, 0x8, 0, 13⟩
/-! HCQ.CAPSULES: Table 9.11, spec/09_regions_capsules_ordering.md -/
def HCQ.CAPSULES.COUNT : Fld := ⟨0x25, 0x40, 0, 32⟩
/-! HCQ.MALFORMED: Table 9.11, spec/09_regions_capsules_ordering.md -/
def HCQ.MALFORMED.COUNT : Fld := ⟨0x25, 0x44, 0, 32⟩
/-! HCQ.CPL_DROPPED: Table 9.11, spec/09_regions_capsules_ordering.md -/
def HCQ.CPL_DROPPED.COUNT : Fld := ⟨0x25, 0x48, 0, 32⟩
/-! HCQ.GATE_WAIT_US: Table 9.11, spec/09_regions_capsules_ordering.md -/
def HCQ.GATE_WAIT_US.COUNT : Fld := ⟨0x25, 0x4c, 0, 32⟩
/-! HCQ.EVENTS: Table 9.12, spec/09_regions_capsules_ordering.md -/
def HCQ.EVENTS.HOST_ACCESS : Fld := ⟨0x25, 0xc, 4, 1⟩
def HCQ.EVENTS.HALTED : Fld := ⟨0x25, 0xc, 3, 1⟩
def HCQ.EVENTS.CHQ_FULL : Fld := ⟨0x25, 0xc, 2, 1⟩
def HCQ.EVENTS.GATE_CLOSED : Fld := ⟨0x25, 0xc, 1, 1⟩
def HCQ.EVENTS.MALFORMED : Fld := ⟨0x25, 0xc, 0, 1⟩

/-! ### MIR -/

/-! MIR.CREDIT: Table 10.12, spec/10_twin_operation.md -/
def MIR.CREDIT.GRANTED : Fld := ⟨0x28, 0x0, 0, 17⟩
/-! MIR.STATUS: Table 10.12, spec/10_twin_operation.md -/
def MIR.STATUS.MODE : Fld := ⟨0x28, 0x4, 30, 2⟩
def MIR.STATUS.DIVERGENT : Fld := ⟨0x28, 0x4, 0, 24⟩
/-! MIR.BUF: Table 10.12, spec/10_twin_operation.md -/
def MIR.BUF.KB : Fld := ⟨0x28, 0x8, 0, 16⟩
/-! MIR.CREDIT_AVAIL: Table 10.12, spec/10_twin_operation.md -/
def MIR.CREDIT_AVAIL.AVAILABLE : Fld := ⟨0x28, 0x10, 0, 17⟩
/-! MIR.PORTIONS_TX: Table 10.12, spec/10_twin_operation.md -/
def MIR.PORTIONS_TX.COUNT : Fld := ⟨0x28, 0x40, 0, 32⟩
/-! MIR.PORTIONS_RX: Table 10.12, spec/10_twin_operation.md -/
def MIR.PORTIONS_RX.COUNT : Fld := ⟨0x28, 0x44, 0, 32⟩
/-! MIR.SNAPSHOTS: Table 10.12, spec/10_twin_operation.md -/
def MIR.SNAPSHOTS.COUNT : Fld := ⟨0x28, 0x48, 0, 32⟩
/-! MIR.CREDIT_WAIT_US: Table 10.12, spec/10_twin_operation.md -/
def MIR.CREDIT_WAIT_US.COUNT : Fld := ⟨0x28, 0x4c, 0, 32⟩
/-! MIR.EVENTS: Table 10.13, spec/10_twin_operation.md -/
def MIR.EVENTS.RESYNC_DONE : Fld := ⟨0x28, 0xc, 3, 1⟩
def MIR.EVENTS.FETCH_FAIL : Fld := ⟨0x28, 0xc, 2, 1⟩
def MIR.EVENTS.CREDIT_WAIT : Fld := ⟨0x28, 0xc, 1, 1⟩
def MIR.EVENTS.BOOKS : Fld := ⟨0x28, 0xc, 0, 1⟩

/-! ### TWA -/

/-! TWA.CTRL: Table 10.9, spec/10_twin_operation.md -/
def TWA.CTRL.PAIR_EN : Fld := ⟨0x29, 0x0, 31, 1⟩
def TWA.CTRL.COMEBACK_EN : Fld := ⟨0x29, 0x0, 30, 1⟩
def TWA.CTRL.DETECT : Fld := ⟨0x29, 0x0, 16, 8⟩
def TWA.CTRL.LEASE : Fld := ⟨0x29, 0x0, 8, 8⟩
def TWA.CTRL.HOLDOFF : Fld := ⟨0x29, 0x0, 0, 8⟩
/-! TWA.STATUS: Table 10.9, spec/10_twin_operation.md -/
def TWA.STATUS.ROLE : Fld := ⟨0x29, 0x4, 28, 4⟩
def TWA.STATUS.PARTNER_ROLE : Fld := ⟨0x29, 0x4, 24, 4⟩
def TWA.STATUS.ACTO : Fld := ⟨0x29, 0x4, 23, 1⟩
def TWA.STATUS.ACTO_PAD : Fld := ⟨0x29, 0x4, 22, 1⟩
def TWA.STATUS.ACTI : Fld := ⟨0x29, 0x4, 21, 1⟩
def TWA.STATUS.PREF : Fld := ⟨0x29, 0x4, 20, 1⟩
def TWA.STATUS.HB_LVDS : Fld := ⟨0x29, 0x4, 19, 1⟩
def TWA.STATUS.HB_LINK : Fld := ⟨0x29, 0x4, 18, 1⟩
def TWA.STATUS.IFAULT : Fld := ⟨0x29, 0x4, 17, 1⟩
def TWA.STATUS.IN_STEP : Fld := ⟨0x29, 0x4, 16, 1⟩
def TWA.STATUS.REFUSE : Fld := ⟨0x29, 0x4, 0, 4⟩
/-! TWA.EPOCH_LO: Table 10.9, spec/10_twin_operation.md -/
def TWA.EPOCH_LO.EPOCH : Fld := ⟨0x29, 0x8, 0, 32⟩
/-! TWA.EPOCH_HI: Table 10.9, spec/10_twin_operation.md -/
def TWA.EPOCH_HI.EPOCH : Fld := ⟨0x29, 0xc, 0, 32⟩
/-! TWA.LEASE_KICK: Table 10.9, spec/10_twin_operation.md -/
def TWA.LEASE_KICK.KICK : Fld := ⟨0x29, 0x10, 0, 1⟩
/-! TWA.HELLO_WAIT: Table 10.9, spec/10_twin_operation.md -/
def TWA.HELLO_WAIT.MS : Fld := ⟨0x29, 0x18, 0, 16⟩
/-! TWA.TAKEOVERS: Table 10.9, spec/10_twin_operation.md -/
def TWA.TAKEOVERS.COUNT : Fld := ⟨0x29, 0x40, 0, 32⟩
/-! TWA.HB_CRC_ERR: Table 10.9, spec/10_twin_operation.md -/
def TWA.HB_CRC_ERR.COUNT : Fld := ⟨0x29, 0x44, 0, 32⟩
/-! TWA.EVENTS: Table 10.10, spec/10_twin_operation.md -/
def TWA.EVENTS.ROLE_CHANGE : Fld := ⟨0x29, 0x14, 8, 1⟩
def TWA.EVENTS.LEASE_EXPIRED : Fld := ⟨0x29, 0x14, 7, 1⟩
def TWA.EVENTS.REFUSED : Fld := ⟨0x29, 0x14, 6, 1⟩
def TWA.EVENTS.PARTNER_SILENT_ACTIVE : Fld := ⟨0x29, 0x14, 5, 1⟩
def TWA.EVENTS.PATH_LOST : Fld := ⟨0x29, 0x14, 4, 1⟩
def TWA.EVENTS.PARTNER_LOST : Fld := ⟨0x29, 0x14, 3, 1⟩
def TWA.EVENTS.DEPART_RX : Fld := ⟨0x29, 0x14, 2, 1⟩
def TWA.EVENTS.IFAULT : Fld := ⟨0x29, 0x14, 1, 1⟩
def TWA.EVENTS.CONTENTION : Fld := ⟨0x29, 0x14, 0, 1⟩

/-! ### FED -/

/-! FED.CTRL: Table 11.11, spec/11_engine_feed.md -/
def FED.CTRL.SPARE_EN : Fld := ⟨0x30, 0x0, 24, 1⟩
def FED.CTRL.SPARE_MAP : Fld := ⟨0x30, 0x0, 20, 4⟩
def FED.CTRL.ERR_TH : Fld := ⟨0x30, 0x0, 8, 8⟩
def FED.CTRL.IDX_POL : Fld := ⟨0x30, 0x0, 3, 1⟩
def FED.CTRL.STB1_POL : Fld := ⟨0x30, 0x0, 2, 1⟩
def FED.CTRL.STB0_POL : Fld := ⟨0x30, 0x0, 1, 1⟩
def FED.CTRL.EN : Fld := ⟨0x30, 0x0, 0, 1⟩
/-! FED.LANES: Table 11.12, spec/11_engine_feed.md -/
def FED.LANES.SPARE_FOR : Fld := ⟨0x30, 0x4, 29, 3⟩
def FED.LANES.LOCK : Fld := ⟨0x30, 0x4, 20, 5⟩
def FED.LANES.STATUS_OK : Fld := ⟨0x30, 0x4, 15, 5⟩
def FED.LANES.POWERED : Fld := ⟨0x30, 0x4, 10, 5⟩
/-! FED.SSEL: Table 11.12, spec/11_engine_feed.md -/
def FED.SSEL.SLOT : Fld := ⟨0x30, 0xc, 0, 5⟩
/-! FED.FEED_BW: Table 11.12, spec/11_engine_feed.md -/
def FED.FEED_BW.MBPS : Fld := ⟨0x30, 0x24, 0, 32⟩
/-! FED.ALIGN: Table 11.12, spec/11_engine_feed.md -/
def FED.ALIGN.WIN_US : Fld := ⟨0x30, 0x28, 0, 11⟩
/-! FED.S_STATE: Table 11.13, spec/11_engine_feed.md -/
def FED.S_STATE.STATE : Fld := ⟨0x30, 0x10, 28, 4⟩
def FED.S_STATE.PANIC : Fld := ⟨0x30, 0x10, 27, 1⟩
def FED.S_STATE.AUTH : Fld := ⟨0x30, 0x10, 26, 1⟩
def FED.S_STATE.ON_SPARE : Fld := ⟨0x30, 0x10, 25, 1⟩
def FED.S_STATE.MAP_BANK : Fld := ⟨0x30, 0x10, 24, 1⟩
def FED.S_STATE.MAP_PENDING : Fld := ⟨0x30, 0x10, 23, 1⟩
def FED.S_STATE.STAGED : Fld := ⟨0x30, 0x10, 0, 10⟩
/-! FED.S_SEQ_LO: Table 11.13, spec/11_engine_feed.md -/
def FED.S_SEQ_LO.SEQ : Fld := ⟨0x30, 0x14, 0, 32⟩
/-! FED.S_SEQ_HI: Table 11.13, spec/11_engine_feed.md -/
def FED.S_SEQ_HI.SEQ : Fld := ⟨0x30, 0x18, 0, 16⟩
/-! FED.S_FIFO: Table 11.13, spec/11_engine_feed.md -/
def FED.S_FIFO.LOW : Fld := ⟨0x30, 0x1c, 16, 10⟩
def FED.S_FIFO.DEPTH : Fld := ⟨0x30, 0x1c, 0, 10⟩
/-! FED.S_SENT: Table 11.13, spec/11_engine_feed.md -/
def FED.S_SENT.COUNT : Fld := ⟨0x30, 0x20, 0, 32⟩
/-! FED.EVENTS: Table 11.14, spec/11_engine_feed.md -/
def FED.EVENTS.BOOKS : Fld := ⟨0x30, 0x8, 11, 1⟩
def FED.EVENTS.PATH_DEGRADED : Fld := ⟨0x30, 0x8, 10, 1⟩
def FED.EVENTS.SEQ_MARK_LATE : Fld := ⟨0x30, 0x8, 9, 1⟩
def FED.EVENTS.SEQ_DISAGREE : Fld := ⟨0x30, 0x8, 8, 1⟩
def FED.EVENTS.SEQ_REALIGN : Fld := ⟨0x30, 0x8, 7, 1⟩
def FED.EVENTS.SPARE_FAIL : Fld := ⟨0x30, 0x8, 6, 1⟩
def FED.EVENTS.LANE_SPARED : Fld := ⟨0x30, 0x8, 5, 1⟩
def FED.EVENTS.LANE_FAILING : Fld := ⟨0x30, 0x8, 4, 1⟩
def FED.EVENTS.IDX_FAST : Fld := ⟨0x30, 0x8, 3, 1⟩
def FED.EVENTS.STROBE_EARLY : Fld := ⟨0x30, 0x8, 2, 1⟩
def FED.EVENTS.UNDERRUN : Fld := ⟨0x30, 0x8, 1, 1⟩
def FED.EVENTS.ADMIT_REFUSED : Fld := ⟨0x30, 0x8, 0, 1⟩
/-! FED.LINES_TX: Table 11.15, spec/11_engine_feed.md -/
def FED.LINES_TX.COUNT : Fld := ⟨0x30, 0x40, 0, 32⟩
/-! FED.UNDERRUNS: Table 11.15, spec/11_engine_feed.md -/
def FED.UNDERRUNS.COUNT : Fld := ⟨0x30, 0x44, 0, 32⟩
/-! FED.STROBE_EARLY: Table 11.15, spec/11_engine_feed.md -/
def FED.STROBE_EARLY.COUNT : Fld := ⟨0x30, 0x48, 0, 32⟩
/-! FED.RX_CRC_ERR: Table 11.15, spec/11_engine_feed.md -/
def FED.RX_CRC_ERR.COUNT : Fld := ⟨0x30, 0x4c, 0, 32⟩
/-! FED.REALIGN: Table 11.15, spec/11_engine_feed.md -/
def FED.REALIGN.COUNT : Fld := ⟨0x30, 0x50, 0, 32⟩

/-! ### NZM -/

/-! NZM.BANK: Table 11.16, spec/11_engine_feed.md -/
def NZM.BANK.ACTIVE : Fld := ⟨0x31, 0x0, 0, 32⟩
/-! NZM.PENDING: Table 11.16, spec/11_engine_feed.md -/
def NZM.PENDING.SWITCH : Fld := ⟨0x31, 0x4, 0, 32⟩
/-! NZM.EVENTS: Table 11.16, spec/11_engine_feed.md -/
def NZM.EVENTS.PARITY : Fld := ⟨0x31, 0x8, 2, 1⟩
def NZM.EVENTS.SWITCHED : Fld := ⟨0x31, 0x8, 1, 1⟩
def NZM.EVENTS.LOADED : Fld := ⟨0x31, 0x8, 0, 1⟩
/-! NZM.PARITY_ERR: Table 11.16, spec/11_engine_feed.md -/
def NZM.PARITY_ERR.COUNT : Fld := ⟨0x31, 0x40, 0, 32⟩

/-! ### BCX -/

/-! BCX.STATUS: Table 15.9, spec/15_ciphers_keys.md -/
def BCX.STATUS.XTS_KEY : Fld := ⟨0x38, 0x0, 31, 1⟩
def BCX.STATUS.TX_SA : Fld := ⟨0x38, 0x0, 30, 1⟩
def BCX.STATUS.RX_SA : Fld := ⟨0x38, 0x0, 29, 1⟩
def BCX.STATUS.TX_KN : Fld := ⟨0x38, 0x0, 0, 16⟩
/-! BCX.RX_KN: Table 15.9, spec/15_ciphers_keys.md -/
def BCX.RX_KN.KN : Fld := ⟨0x38, 0x4, 0, 16⟩
/-! BCX.DEEP_EPOCH: Table 15.9, spec/15_ciphers_keys.md -/
def BCX.DEEP_EPOCH.EPOCH : Fld := ⟨0x38, 0x8, 0, 32⟩
/-! BCX.EVENTS: Table 15.9, spec/15_ciphers_keys.md -/
def BCX.EVENTS.RX_NEW_KN : Fld := ⟨0x38, 0xc, 3, 1⟩
def BCX.EVENTS.KN_SWITCH : Fld := ⟨0x38, 0xc, 2, 1⟩
def BCX.EVENTS.KN_EXHAUSTED : Fld := ⟨0x38, 0xc, 1, 1⟩
def BCX.EVENTS.KEY_MISSING : Fld := ⟨0x38, 0xc, 0, 1⟩
/-! BCX.XTS_UNITS: Table 15.9, spec/15_ciphers_keys.md -/
def BCX.XTS_UNITS.COUNT : Fld := ⟨0x38, 0x40, 0, 32⟩
/-! BCX.GCM_TX: Table 15.9, spec/15_ciphers_keys.md -/
def BCX.GCM_TX.COUNT : Fld := ⟨0x38, 0x44, 0, 32⟩
/-! BCX.GCM_RX: Table 15.9, spec/15_ciphers_keys.md -/
def BCX.GCM_RX.COUNT : Fld := ⟨0x38, 0x48, 0, 32⟩
/-! BCX.RX_EARLY: Table 15.9, spec/15_ciphers_keys.md -/
def BCX.RX_EARLY.COUNT : Fld := ⟨0x38, 0x4c, 0, 32⟩

/-! ### KSE -/

/-! KSE.STATUS: Table 15.6, spec/15_ciphers_keys.md -/
def KSE.STATUS.ENTROPY_OK : Fld := ⟨0x39, 0x0, 31, 1⟩
def KSE.STATUS.ENTROPY_DEAD : Fld := ⟨0x39, 0x0, 30, 1⟩
def KSE.STATUS.INIT_KEYS : Fld := ⟨0x39, 0x0, 28, 2⟩
def KSE.STATUS.VALID : Fld := ⟨0x39, 0x0, 0, 7⟩
/-! KSE.Q: Table 15.6, spec/15_ciphers_keys.md -/
def KSE.Q.FREE0 : Fld := ⟨0x39, 0x4, 0, 8⟩
def KSE.Q.FREE1 : Fld := ⟨0x39, 0x4, 8, 8⟩
def KSE.Q.FREE2 : Fld := ⟨0x39, 0x4, 16, 8⟩
def KSE.Q.FREE3 : Fld := ⟨0x39, 0x4, 24, 8⟩
/-! KSE.SLOT_SEL: Table 15.6, spec/15_ciphers_keys.md -/
def KSE.SLOT_SEL.SLOT : Fld := ⟨0x39, 0x8, 0, 6⟩
/-! KSE.SLOT_INFO: Table 15.6, spec/15_ciphers_keys.md -/
def KSE.SLOT_INFO.VALID : Fld := ⟨0x39, 0xc, 31, 1⟩
def KSE.SLOT_INFO.EXHAUSTED : Fld := ⟨0x39, 0xc, 30, 1⟩
def KSE.SLOT_INFO.SIZE : Fld := ⟨0x39, 0xc, 29, 1⟩
def KSE.SLOT_INFO.USAGE : Fld := ⟨0x39, 0xc, 22, 7⟩
def KSE.SLOT_INFO.GEN : Fld := ⟨0x39, 0xc, 8, 8⟩
/-! KSE.SLOT_CTR_LO: Table 15.6, spec/15_ciphers_keys.md -/
def KSE.SLOT_CTR_LO.CTR : Fld := ⟨0x39, 0x10, 0, 32⟩
/-! KSE.SLOT_CTR_HI: Table 15.6, spec/15_ciphers_keys.md -/
def KSE.SLOT_CTR_HI.CTR : Fld := ⟨0x39, 0x14, 0, 32⟩
/-! KSE.EVENTS: Table 15.6, spec/15_ciphers_keys.md -/
def KSE.EVENTS.QUEUE_FULL : Fld := ⟨0x39, 0x18, 5, 1⟩
def KSE.EVENTS.KAT_FAIL : Fld := ⟨0x39, 0x18, 4, 1⟩
def KSE.EVENTS.POLICY : Fld := ⟨0x39, 0x18, 3, 1⟩
def KSE.EVENTS.STALE : Fld := ⟨0x39, 0x18, 2, 1⟩
def KSE.EVENTS.EXHAUSTED : Fld := ⟨0x39, 0x18, 1, 1⟩
def KSE.EVENTS.HEALTH_FAIL : Fld := ⟨0x39, 0x18, 0, 1⟩
/-! KSE.BLOCKS: Table 15.6, spec/15_ciphers_keys.md -/
def KSE.BLOCKS.COUNT : Fld := ⟨0x39, 0x40, 0, 32⟩
/-! KSE.GENERATED: Table 15.6, spec/15_ciphers_keys.md -/
def KSE.GENERATED.COUNT : Fld := ⟨0x39, 0x44, 0, 32⟩
/-! KSE.HEALTH_FAILS: Table 15.6, spec/15_ciphers_keys.md -/
def KSE.HEALTH_FAILS.COUNT : Fld := ⟨0x39, 0x48, 0, 32⟩

/-! ### NVS -/

/-! NVS.KEY: Table 16.5, spec/16_nvstore_otp.md -/
def NVS.KEY.KEY : Fld := ⟨0x3a, 0x0, 0, 16⟩
/-! NVS.CMD: Table 16.5, spec/16_nvstore_otp.md -/
def NVS.CMD.BUSY : Fld := ⟨0x3a, 0x4, 31, 1⟩
def NVS.CMD.RESULT : Fld := ⟨0x3a, 0x4, 27, 4⟩
def NVS.CMD.OP : Fld := ⟨0x3a, 0x4, 0, 3⟩
/-! NVS.ADDR: Table 16.5, spec/16_nvstore_otp.md -/
def NVS.ADDR.WORD : Fld := ⟨0x3a, 0x8, 3, 20⟩
/-! NVS.DATA_LO: Table 16.5, spec/16_nvstore_otp.md -/
def NVS.DATA_LO.DATA : Fld := ⟨0x3a, 0xc, 0, 32⟩
/-! NVS.DATA_HI: Table 16.5, spec/16_nvstore_otp.md -/
def NVS.DATA_HI.DATA : Fld := ⟨0x3a, 0x10, 0, 32⟩
/-! NVS.STATUS: Table 16.5, spec/16_nvstore_otp.md -/
def NVS.STATUS.PULSES : Fld := ⟨0x3a, 0x14, 24, 8⟩
def NVS.STATUS.SPARE_FREE : Fld := ⟨0x3a, 0x14, 16, 8⟩
def NVS.STATUS.UNLOCKED : Fld := ⟨0x3a, 0x14, 0, 1⟩
/-! NVS.WEAR_TH: Table 16.5, spec/16_nvstore_otp.md -/
def NVS.WEAR_TH.PULSE_WARN : Fld := ⟨0x3a, 0x18, 0, 8⟩
/-! NVS.EVENTS: Table 16.5, spec/16_nvstore_otp.md -/
def NVS.EVENTS.SPARE_LOW : Fld := ⟨0x3a, 0x1c, 6, 1⟩
def NVS.EVENTS.SWAPPED : Fld := ⟨0x3a, 0x1c, 5, 1⟩
def NVS.EVENTS.ECC_UNCORR : Fld := ⟨0x3a, 0x1c, 4, 1⟩
def NVS.EVENTS.WEAR_WARN : Fld := ⟨0x3a, 0x1c, 3, 1⟩
def NVS.EVENTS.VERIFY_FAIL : Fld := ⟨0x3a, 0x1c, 2, 1⟩
def NVS.EVENTS.NOT_ERASED : Fld := ⟨0x3a, 0x1c, 1, 1⟩
def NVS.EVENTS.KEY_FAIL : Fld := ⟨0x3a, 0x1c, 0, 1⟩
/-! NVS.WIN_SEL: Table 16.5, spec/16_nvstore_otp.md -/
def NVS.WIN_SEL.SECTOR : Fld := ⟨0x3a, 0x20, 0, 12⟩
/-! NVS.PROGRAMS: Table 16.5, spec/16_nvstore_otp.md -/
def NVS.PROGRAMS.COUNT : Fld := ⟨0x3a, 0x40, 0, 32⟩
/-! NVS.ERASES: Table 16.5, spec/16_nvstore_otp.md -/
def NVS.ERASES.COUNT : Fld := ⟨0x3a, 0x44, 0, 32⟩
/-! NVS.ECC: Table 16.5, spec/16_nvstore_otp.md -/
def NVS.ECC.UNCORR : Fld := ⟨0x3a, 0x48, 16, 16⟩
def NVS.ECC.CORR : Fld := ⟨0x3a, 0x48, 0, 16⟩
/-! NVS.WIN: Table 16.5, spec/16_nvstore_otp.md -/
def NVS.WIN.DATA : Fld := ⟨0x3a, 0x2000, 0, 32⟩

/-! ### OTP -/

/-! OTP.STATUS_LO: Table 16.6, spec/16_nvstore_otp.md -/
def OTP.STATUS_LO.FROM_COPY : Fld := ⟨0x3b, 0x0, 0, 32⟩
/-! OTP.STATUS_HI: Table 16.6, spec/16_nvstore_otp.md -/
def OTP.STATUS_HI.FROM_COPY : Fld := ⟨0x3b, 0x4, 0, 32⟩
/-! OTP.EVENTS: Table 16.6, spec/16_nvstore_otp.md -/
def OTP.EVENTS.COMPLETED : Fld := ⟨0x3b, 0x8, 2, 1⟩
def OTP.EVENTS.PROG_FAIL : Fld := ⟨0x3b, 0x8, 1, 1⟩
def OTP.EVENTS.CRC_FAIL : Fld := ⟨0x3b, 0x8, 0, 1⟩
/-! OTP.WIN: Table 16.6, spec/16_nvstore_otp.md -/
def OTP.WIN.DATA : Fld := ⟨0x3b, 0x1000, 0, 32⟩

/-! ### EVR -/

/-! EVR.CTRL: Table 17.6, spec/17_event_record_time.md -/
def EVR.CTRL.NOTIFY_SEV : Fld := ⟨0x3c, 0x0, 16, 3⟩
def EVR.CTRL.WINDOW_MS : Fld := ⟨0x3c, 0x0, 0, 16⟩
/-! EVR.WSEQ: Table 17.6, spec/17_event_record_time.md -/
def EVR.WSEQ.SEQ : Fld := ⟨0x3c, 0x4, 0, 32⟩
/-! EVR.OPEN: Table 17.6, spec/17_event_record_time.md -/
def EVR.OPEN.SEQ : Fld := ⟨0x3c, 0x8, 0, 32⟩
/-! EVR.QUEUE: Table 17.6, spec/17_event_record_time.md -/
def EVR.QUEUE.TILE0_USED : Fld := ⟨0x3c, 0xc, 16, 13⟩
def EVR.QUEUE.USED : Fld := ⟨0x3c, 0xc, 0, 7⟩
/-! EVR.PTIME_LO: Table 17.6, spec/17_event_record_time.md -/
def EVR.PTIME_LO.US : Fld := ⟨0x3c, 0x10, 0, 32⟩
/-! EVR.PTIME_HI: Table 17.6, spec/17_event_record_time.md -/
def EVR.PTIME_HI.US : Fld := ⟨0x3c, 0x14, 0, 16⟩
/-! EVR.CAL_LO: Table 17.6, spec/17_event_record_time.md -/
def EVR.CAL_LO.MS : Fld := ⟨0x3c, 0x18, 0, 32⟩
/-! EVR.CAL_HI: Table 17.6, spec/17_event_record_time.md -/
def EVR.CAL_HI.SET : Fld := ⟨0x3c, 0x1c, 31, 1⟩
def EVR.CAL_HI.COARSE : Fld := ⟨0x3c, 0x1c, 30, 1⟩
def EVR.CAL_HI.MS : Fld := ⟨0x3c, 0x1c, 0, 16⟩
/-! EVR.EVENTS: Table 17.6, spec/17_event_record_time.md -/
def EVR.EVENTS.SCAN_GAP : Fld := ⟨0x3c, 0x20, 1, 1⟩
def EVR.EVENTS.LOST : Fld := ⟨0x3c, 0x20, 0, 1⟩
/-! EVR.RECORDS: Table 17.6, spec/17_event_record_time.md -/
def EVR.RECORDS.COUNT : Fld := ⟨0x3c, 0x40, 0, 32⟩
/-! EVR.COALESCED: Table 17.6, spec/17_event_record_time.md -/
def EVR.COALESCED.COUNT : Fld := ⟨0x3c, 0x44, 0, 32⟩
/-! EVR.LOST: Table 17.6, spec/17_event_record_time.md -/
def EVR.LOST.COUNT : Fld := ⟨0x3c, 0x48, 0, 32⟩

/-! ### TWB -/

/-! TWB.CFG: Table 18.6, spec/18_two_wire_bus.md -/
def TWB.CFG.NOTIFY_MS : Fld := ⟨0x3d, 0x0, 16, 8⟩
def TWB.CFG.HOST_ADDR : Fld := ⟨0x3d, 0x0, 8, 7⟩
def TWB.CFG.NOTIFY_EN : Fld := ⟨0x3d, 0x0, 0, 1⟩
/-! TWB.STATUS: Table 18.6, spec/18_two_wire_bus.md -/
def TWB.STATUS.OUT_PKTS : Fld := ⟨0x3d, 0x4, 24, 8⟩
def TWB.STATUS.FLAGS : Fld := ⟨0x3d, 0x4, 16, 5⟩
def TWB.STATUS.CONTROLLER : Fld := ⟨0x3d, 0x4, 8, 1⟩
def TWB.STATUS.ADDR : Fld := ⟨0x3d, 0x4, 0, 7⟩
/-! TWB.EVENTS: Table 18.6, spec/18_two_wire_bus.md -/
def TWB.EVENTS.WAKE_MATCH : Fld := ⟨0x3d, 0x8, 8, 1⟩
def TWB.EVENTS.SEQ_BREAK : Fld := ⟨0x3d, 0x8, 7, 1⟩
def TWB.EVENTS.RECOVERED : Fld := ⟨0x3d, 0x8, 6, 1⟩
def TWB.EVENTS.BUS_STUCK : Fld := ⟨0x3d, 0x8, 5, 1⟩
def TWB.EVENTS.NOTIFY_NACK : Fld := ⟨0x3d, 0x8, 4, 1⟩
def TWB.EVENTS.ARB_LOST : Fld := ⟨0x3d, 0x8, 3, 1⟩
def TWB.EVENTS.TIMEOUT : Fld := ⟨0x3d, 0x8, 2, 1⟩
def TWB.EVENTS.PEC_FAIL : Fld := ⟨0x3d, 0x8, 1, 1⟩
def TWB.EVENTS.BUS_ERROR : Fld := ⟨0x3d, 0x8, 0, 1⟩
/-! TWB.RX_PKTS: Table 18.6, spec/18_two_wire_bus.md -/
def TWB.RX_PKTS.COUNT : Fld := ⟨0x3d, 0x40, 0, 32⟩
/-! TWB.TX_PKTS: Table 18.6, spec/18_two_wire_bus.md -/
def TWB.TX_PKTS.COUNT : Fld := ⟨0x3d, 0x44, 0, 32⟩
/-! TWB.BUS_ERR: Table 18.6, spec/18_two_wire_bus.md -/
def TWB.BUS_ERR.COUNT : Fld := ⟨0x3d, 0x48, 0, 32⟩
/-! TWB.PEC_ERR: Table 18.6, spec/18_two_wire_bus.md -/
def TWB.PEC_ERR.COUNT : Fld := ⟨0x3d, 0x4c, 0, 32⟩
/-! TWB.ARB_LOST: Table 18.6, spec/18_two_wire_bus.md -/
def TWB.ARB_LOST.COUNT : Fld := ⟨0x3d, 0x50, 0, 32⟩
/-! TWB.NOTIFY_TX: Table 18.6, spec/18_two_wire_bus.md -/
def TWB.NOTIFY_TX.COUNT : Fld := ⟨0x3d, 0x54, 0, 32⟩

/-! ### BST -/

/-! BST.STATUS: Table 13.8, spec/13_startup_selftest_firmware.md -/
def BST.STATUS.PHASE : Fld := ⟨0x3e, 0x0, 28, 4⟩
def BST.STATUS.SLICE : Fld := ⟨0x3e, 0x0, 22, 6⟩
/-! BST.PASS_LO: Table 13.8, spec/13_startup_selftest_firmware.md -/
def BST.PASS_LO.SLICE : Fld := ⟨0x3e, 0x4, 0, 32⟩
/-! BST.PASS_HI: Table 13.8, spec/13_startup_selftest_firmware.md -/
def BST.PASS_HI.SLICE : Fld := ⟨0x3e, 0x8, 0, 16⟩
/-! BST.DEGR_LO: Table 13.8, spec/13_startup_selftest_firmware.md -/
def BST.DEGR_LO.SLICE : Fld := ⟨0x3e, 0xc, 0, 32⟩
/-! BST.DEGR_HI: Table 13.8, spec/13_startup_selftest_firmware.md -/
def BST.DEGR_HI.SLICE : Fld := ⟨0x3e, 0x10, 0, 16⟩
/-! BST.RST_CAUSE: Table 13.8, spec/13_startup_selftest_firmware.md -/
def BST.RST_CAUSE.CAUSE : Fld := ⟨0x3e, 0x14, 0, 4⟩
/-! BST.BOOT: Table 13.8, spec/13_startup_selftest_firmware.md -/
def BST.BOOT.ATTEMPTS : Fld := ⟨0x3e, 0x18, 6, 2⟩
def BST.BOOT.TRIAL : Fld := ⟨0x3e, 0x18, 5, 1⟩
def BST.BOOT.FALLBACK : Fld := ⟨0x3e, 0x18, 4, 1⟩
def BST.BOOT.SLOT : Fld := ⟨0x3e, 0x18, 0, 1⟩
/-! BST.BANK_CFG: Table 13.8, spec/13_startup_selftest_firmware.md -/
def BST.BANK_CFG.RTEST_MOHM : Fld := ⟨0x3e, 0x1c, 16, 16⟩
def BST.BANK_CFG.DELTA : Fld := ⟨0x3e, 0x1c, 8, 8⟩
def BST.BANK_CFG.WAIT_S : Fld := ⟨0x3e, 0x1c, 0, 8⟩
/-! BST.BANK_T: Table 13.8, spec/13_startup_selftest_firmware.md -/
def BST.BANK_T.US : Fld := ⟨0x3e, 0x20, 0, 32⟩
/-! BST.BANK_V: Table 13.8, spec/13_startup_selftest_firmware.md -/
def BST.BANK_V.V1_MV : Fld := ⟨0x3e, 0x24, 16, 16⟩
def BST.BANK_V.V2_MV : Fld := ⟨0x3e, 0x24, 0, 16⟩
/-! BST.WDOG: Table 13.8, spec/13_startup_selftest_firmware.md -/
def BST.WDOG.KICK : Fld := ⟨0x3e, 0x28, 0, 1⟩
/-! BST.MON: Table 13.8, spec/13_startup_selftest_firmware.md -/
def BST.MON.TEMP : Fld := ⟨0x3e, 0x30, 16, 16⟩
def BST.MON.VAON_MV : Fld := ⟨0x3e, 0x30, 0, 16⟩
/-! BST.HU: Table 13.8, spec/13_startup_selftest_firmware.md -/
def BST.HU.MV : Fld := ⟨0x3e, 0x34, 0, 16⟩
/-! BST.SLICE_MS: Table 13.8, spec/13_startup_selftest_firmware.md -/
def BST.SLICE_MS.TOTAL : Fld := ⟨0x3e, 0x40, 0, 32⟩
/-! BST.EVENTS: Table 13.9, spec/13_startup_selftest_firmware.md -/
def BST.EVENTS.TRIAL_FAILED : Fld := ⟨0x3e, 0x2c, 4, 1⟩
def BST.EVENTS.BANK_WAIT : Fld := ⟨0x3e, 0x2c, 3, 1⟩
def BST.EVENTS.BANK_INVALID : Fld := ⟨0x3e, 0x2c, 2, 1⟩
def BST.EVENTS.SLICE_FAIL : Fld := ⟨0x3e, 0x2c, 1, 1⟩
def BST.EVENTS.SPARE_USED : Fld := ⟨0x3e, 0x2c, 0, 1⟩

/-! ### RLE -/

/-! RLE.LOCKOUT: Table 12.16, spec/12_management_mailboxes_roles.md -/
def RLE.LOCKOUT.LOCKED : Fld := ⟨0x3f, 0x0, 16, 3⟩
def RLE.LOCKOUT.REMAIN_S : Fld := ⟨0x3f, 0x0, 0, 8⟩
/-! RLE.SERIAL: Table 12.16, spec/12_management_mailboxes_roles.md -/
def RLE.SERIAL.NEXT : Fld := ⟨0x3f, 0x4, 0, 28⟩
/-! RLE.EVENTS: Table 12.16, spec/12_management_mailboxes_roles.md -/
def RLE.EVENTS.LOCKOUT : Fld := ⟨0x3f, 0x8, 2, 1⟩
def RLE.EVENTS.DENIED : Fld := ⟨0x3f, 0x8, 1, 1⟩
def RLE.EVENTS.OPEN_FAIL : Fld := ⟨0x3f, 0x8, 0, 1⟩
/-! RLE.AUDIT: Table 12.16, spec/12_management_mailboxes_roles.md -/
def RLE.AUDIT.COUNT : Fld := ⟨0x3f, 0x40, 0, 32⟩
/-! RLE.OPEN_FAIL: Table 12.16, spec/12_management_mailboxes_roles.md -/
def RLE.OPEN_FAIL.COUNT : Fld := ⟨0x3f, 0x44, 0, 32⟩

/-- The fields of block `blk` that a write or a read acts on (Table 0.3). -/
def regRows (blk : Nat) : List RegRow :=
  match blk with
  | 0x2 =>
    [⟨0x40, 1, 0, [⟨0, 32, .rc⟩]⟩,
     ⟨0x44, 1, 0, [⟨0, 32, .rc⟩]⟩,
     ⟨0x48, 1, 0, [⟨0, 32, .rc⟩]⟩,
     ⟨0xc, 1, 0, [⟨5, 1, .w1c⟩, ⟨4, 1, .w1c⟩, ⟨3, 1, .w1c⟩, ⟨2, 1, .w1c⟩, ⟨1, 1, .w1c⟩, ⟨0, 1, .w1c⟩]⟩]
  | 0x3 =>
    [⟨0x4, 1, 0, [⟨16, 16, .rw⟩, ⟨0, 16, .rw⟩]⟩,
     ⟨0x8, 1, 0, [⟨0, 8, .rw⟩]⟩,
     ⟨0xc, 1, 0, [⟨0, 8, .rw⟩]⟩,
     ⟨0x18, 1, 0, [⟨0, 32, .rw⟩]⟩,
     ⟨0x1c, 1, 0, [⟨31, 1, .rw⟩, ⟨0, 16, .rw⟩]⟩,
     ⟨0x24, 1, 0, [⟨5, 1, .w1c⟩, ⟨4, 1, .w1c⟩, ⟨3, 1, .w1c⟩, ⟨2, 1, .w1c⟩, ⟨1, 1, .w1c⟩, ⟨0, 1, .w1c⟩]⟩]
  | 0x4 =>
    [⟨0x30, 1, 0, [⟨0, 16, .rw⟩]⟩,
     ⟨0x34, 1, 0, [⟨24, 8, .rw⟩, ⟨16, 8, .rw⟩]⟩,
     ⟨0x38, 1, 0, [⟨5, 1, .w1c⟩, ⟨4, 1, .w1c⟩, ⟨3, 1, .w1c⟩, ⟨2, 1, .w1c⟩, ⟨1, 1, .w1c⟩]⟩,
     ⟨0x40, 1, 0, [⟨0, 32, .rc⟩]⟩,
     ⟨0x44, 1, 0, [⟨0, 32, .rc⟩]⟩]
  | 0x8 | 0x9 | 0xa =>
    [⟨0x8, 1, 0, [⟨4, 2, .rw⟩, ⟨0, 1, .wo⟩]⟩,
     ⟨0xc, 1, 0, [⟨8, 10, .rw⟩, ⟨0, 2, .rw⟩]⟩,
     ⟨0x10, 1, 0, [⟨24, 8, .rw⟩, ⟨16, 8, .rw⟩, ⟨8, 8, .rw⟩]⟩,
     ⟨0x14, 1, 0, [⟨4, 4, .rw⟩]⟩,
     ⟨0x18, 1, 0, [⟨16, 8, .rw⟩, ⟨0, 16, .rw⟩]⟩,
     ⟨0x1c, 1, 0, [⟨31, 1, .rw⟩, ⟨10, 10, .rw⟩, ⟨0, 10, .rw⟩]⟩,
     ⟨0x20, 1, 0, [⟨24, 4, .rw⟩, ⟨23, 1, .rw⟩, ⟨12, 4, .rw⟩, ⟨8, 4, .wo⟩, ⟨0, 8, .rw⟩]⟩,
     ⟨0x2c, 1, 0, [⟨30, 1, .rw⟩, ⟨26, 4, .rw⟩, ⟨25, 1, .rw⟩, ⟨22, 3, .rw⟩, ⟨20, 2, .rw⟩, ⟨3, 17, .rw⟩, ⟨0, 1, .wo⟩]⟩,
     ⟨0x30, 1, 0, [⟨0, 5, .rw⟩]⟩,
     ⟨0x38, 1, 0, [⟨7, 1, .w1c⟩, ⟨6, 1, .w1c⟩, ⟨5, 1, .w1c⟩, ⟨4, 1, .w1c⟩, ⟨3, 1, .w1c⟩, ⟨2, 1, .w1c⟩, ⟨1, 1, .w1c⟩, ⟨0, 1, .w1c⟩]⟩,
     ⟨0x100, 1, 0, [⟨0, 32, .rc⟩]⟩,
     ⟨0x104, 1, 0, [⟨0, 32, .rc⟩]⟩,
     ⟨0x108, 1, 0, [⟨0, 32, .rc⟩]⟩,
     ⟨0x10c, 1, 0, [⟨0, 32, .rc⟩]⟩,
     ⟨0x40, 13, 4, [⟨0, 32, .rw⟩]⟩,
     ⟨0x80, 13, 4, [⟨0, 32, .rw⟩]⟩,
     ⟨0xc0, 13, 4, [⟨0, 32, .rw⟩]⟩,
     ⟨0x400, 80, 4, [⟨0, 32, .rw⟩]⟩, ⟨0x600, 80, 4, [⟨0, 32, .rw⟩]⟩, ⟨0x800, 80, 4, [⟨0, 32, .rw⟩]⟩]
  | 0xb =>
    [⟨0x0, 1, 0, [⟨4, 1, .rw⟩, ⟨0, 1, .rw⟩]⟩,
     ⟨0xc, 1, 0, [⟨16, 8, .rw⟩]⟩,
     ⟨0x1c, 1, 0, [⟨0, 32, .rc⟩]⟩,
     ⟨0x8, 1, 0, [⟨9, 1, .w1c⟩, ⟨8, 1, .w1c⟩, ⟨7, 1, .w1c⟩, ⟨6, 1, .w1c⟩, ⟨5, 1, .w1c⟩, ⟨4, 1, .w1c⟩, ⟨3, 1, .w1c⟩, ⟨2, 1, .w1c⟩, ⟨1, 1, .w1c⟩, ⟨0, 1, .w1c⟩]⟩,
     ⟨0x20, 1, 0, [⟨5, 2, .rw⟩, ⟨0, 5, .rw⟩]⟩,
     ⟨0x34, 1, 0, [⟨0, 3, .wo⟩]⟩,
     ⟨0x38, 1, 0, [⟨0, 32, .rc⟩]⟩,
     ⟨0x40, 1, 0, [⟨16, 2, .rw⟩, ⟨12, 2, .rw⟩, ⟨0, 12, .rw⟩]⟩,
     ⟨0x44, 1, 0, [⟨31, 1, .rw⟩, ⟨0, 31, .rw⟩]⟩,
     ⟨0x48, 1, 0, [⟨0, 12, .rw⟩]⟩,
     ⟨0x60, 1, 0, [⟨7, 1, .rw⟩, ⟨5, 2, .rw⟩, ⟨4, 1, .rw⟩, ⟨3, 1, .rw⟩, ⟨0, 1, .rw⟩]⟩,
     ⟨0x64, 1, 0, [⟨0, 32, .rw⟩]⟩,
     ⟨0x68, 1, 0, [⟨0, 32, .rw⟩]⟩,
     ⟨0x6c, 1, 0, [⟨0, 16, .rw⟩]⟩,
     ⟨0x70, 1, 0, [⟨0, 8, .rw⟩]⟩,
     ⟨0x100, 3, 16, [⟨0, 32, .rc⟩]⟩,
     ⟨0x104, 3, 16, [⟨0, 32, .rc⟩]⟩,
     ⟨0x108, 3, 16, [⟨0, 32, .rc⟩]⟩,
     ⟨0x10c, 3, 16, [⟨0, 32, .rc⟩]⟩]
  | 0xc =>
    [⟨0x0, 1, 0, [⟨8, 1, .rw⟩, ⟨0, 1, .rw⟩]⟩,
     ⟨0x8, 1, 0, [⟨0, 16, .rw⟩]⟩,
     ⟨0xc, 1, 0, [⟨0, 16, .rw⟩]⟩,
     ⟨0x20, 1, 0, [⟨7, 25, .rw⟩]⟩,
     ⟨0x24, 1, 0, [⟨0, 18, .rw⟩]⟩,
     ⟨0x28, 1, 0, [⟨4, 2, .rw⟩, ⟨0, 2, .wo⟩]⟩,
     ⟨0x2c, 1, 0, [⟨6, 1, .w1c⟩, ⟨5, 1, .w1c⟩, ⟨4, 1, .w1c⟩, ⟨3, 1, .w1c⟩, ⟨2, 1, .w1c⟩, ⟨1, 1, .w1c⟩, ⟨0, 1, .w1c⟩]⟩,
     ⟨0x40, 1, 0, [⟨0, 32, .rc⟩]⟩,
     ⟨0x44, 1, 0, [⟨0, 32, .rc⟩]⟩,
     ⟨0x48, 1, 0, [⟨0, 32, .rc⟩]⟩,
     ⟨0x4c, 1, 0, [⟨0, 32, .rc⟩]⟩,
     ⟨0x50, 1, 0, [⟨0, 32, .rc⟩]⟩,
     ⟨0x54, 1, 0, [⟨0, 32, .rc⟩]⟩,
     ⟨0x58, 1, 0, [⟨16, 16, .rc⟩, ⟨0, 16, .rc⟩]⟩]
  | 0xd =>
    [⟨0x8, 1, 0, [⟨16, 16, .rc⟩, ⟨0, 16, .rc⟩]⟩]
  | 0xe =>
    [⟨0x0, 1, 0, [⟨8, 8, .rw⟩, ⟨4, 4, .rw⟩, ⟨0, 1, .rw⟩]⟩,
     ⟨0x4, 1, 0, [⟨8, 4, .rw⟩, ⟨0, 8, .rw⟩]⟩,
     ⟨0xc, 1, 0, [⟨4, 1, .w1c⟩, ⟨3, 1, .w1c⟩, ⟨2, 1, .w1c⟩, ⟨1, 1, .w1c⟩, ⟨0, 1, .w1c⟩]⟩,
     ⟨0x10, 1, 0, [⟨0, 32, .rc⟩]⟩,
     ⟨0x14, 1, 0, [⟨0, 32, .rc⟩]⟩]
  | 0x10 | 0x11 | 0x12 | 0x13 | 0x14 | 0x15 | 0x16 | 0x17 =>
    [⟨0x40, 1, 0, [⟨0, 32, .rc⟩]⟩,
     ⟨0x44, 1, 0, [⟨0, 32, .rc⟩]⟩,
     ⟨0x48, 1, 0, [⟨0, 32, .rc⟩]⟩,
     ⟨0x4c, 1, 0, [⟨0, 32, .rc⟩]⟩,
     ⟨0x8, 1, 0, [⟨5, 1, .w1c⟩, ⟨4, 1, .w1c⟩, ⟨3, 1, .w1c⟩, ⟨2, 1, .w1c⟩, ⟨1, 1, .w1c⟩, ⟨0, 1, .w1c⟩]⟩]
  | 0x18 =>
    [⟨0x0, 1, 0, [⟨24, 8, .rw⟩, ⟨20, 4, .rw⟩, ⟨1, 1, .rw⟩, ⟨0, 1, .rw⟩]⟩,
     ⟨0x10, 1, 0, [⟨0, 24, .rw⟩]⟩,
     ⟨0x14, 1, 0, [⟨16, 16, .rw⟩, ⟨0, 16, .rw⟩]⟩,
     ⟨0x1c, 1, 0, [⟨0, 8, .rw⟩]⟩,
     ⟨0x20, 1, 0, [⟨0, 16, .rw⟩]⟩,
     ⟨0x24, 1, 0, [⟨8, 8, .rw⟩, ⟨0, 8, .rw⟩]⟩,
     ⟨0x18, 1, 0, [⟨5, 1, .w1c⟩, ⟨4, 1, .w1c⟩, ⟨3, 1, .w1c⟩, ⟨2, 1, .w1c⟩, ⟨1, 1, .w1c⟩, ⟨0, 1, .w1c⟩]⟩,
     ⟨0x40, 1, 0, [⟨0, 32, .rc⟩]⟩,
     ⟨0x44, 1, 0, [⟨0, 32, .rc⟩]⟩,
     ⟨0x48, 1, 0, [⟨0, 32, .rc⟩]⟩,
     ⟨0x4c, 1, 0, [⟨0, 32, .rc⟩]⟩,
     ⟨0x50, 1, 0, [⟨0, 32, .rc⟩]⟩,
     ⟨0x54, 1, 0, [⟨0, 32, .rc⟩]⟩,
     ⟨0x58, 1, 0, [⟨0, 32, .rc⟩]⟩]
  | 0x19 =>
    [⟨0x0, 1, 0, [⟨24, 8, .rw⟩, ⟨8, 16, .rw⟩, ⟨0, 1, .rw⟩]⟩,
     ⟨0x18, 1, 0, [⟨4, 1, .w1c⟩, ⟨3, 1, .w1c⟩, ⟨2, 1, .w1c⟩, ⟨1, 1, .w1c⟩, ⟨0, 1, .w1c⟩]⟩,
     ⟨0x40, 1, 0, [⟨0, 32, .rc⟩]⟩,
     ⟨0x44, 1, 0, [⟨0, 32, .rc⟩]⟩,
     ⟨0x48, 1, 0, [⟨0, 32, .rc⟩]⟩,
     ⟨0x4c, 1, 0, [⟨0, 32, .rc⟩]⟩]
  | 0x1a =>
    [⟨0x1c, 1, 0, [⟨4, 1, .w1c⟩, ⟨3, 1, .w1c⟩, ⟨2, 1, .w1c⟩, ⟨1, 1, .w1c⟩, ⟨0, 1, .w1c⟩]⟩]
  | 0x20 | 0x21 =>
    [⟨0x0, 1, 0, [⟨16, 4, .rw⟩, ⟨10, 2, .rw⟩, ⟨0, 2, .rw⟩]⟩,
     ⟨0x8, 1, 0, [⟨16, 8, .rw⟩, ⟨8, 8, .rw⟩, ⟨0, 8, .rw⟩]⟩,
     ⟨0xc, 1, 0, [⟨0, 8, .rw⟩, ⟨8, 8, .rw⟩, ⟨16, 8, .rw⟩, ⟨24, 8, .rw⟩]⟩,
     ⟨0x10, 1, 0, [⟨0, 8, .rw⟩, ⟨8, 8, .rw⟩, ⟨16, 8, .rw⟩, ⟨24, 8, .rw⟩]⟩,
     ⟨0x14, 1, 0, [⟨0, 8, .rw⟩]⟩,
     ⟨0x18, 1, 0, [⟨16, 6, .rw⟩, ⟨8, 6, .rw⟩, ⟨4, 3, .rw⟩, ⟨0, 3, .rw⟩]⟩,
     ⟨0x1c, 1, 0, [⟨4, 1, .w1c⟩, ⟨3, 1, .w1c⟩, ⟨2, 1, .w1c⟩, ⟨1, 1, .w1c⟩, ⟨0, 1, .w1c⟩]⟩,
     ⟨0x40, 1, 0, [⟨0, 32, .rc⟩]⟩,
     ⟨0x44, 1, 0, [⟨0, 32, .rc⟩]⟩,
     ⟨0x48, 1, 0, [⟨0, 32, .rc⟩]⟩,
     ⟨0x4c, 1, 0, [⟨0, 32, .rc⟩]⟩,
     ⟨0x50, 1, 0, [⟨0, 32, .rc⟩]⟩,
     ⟨0x54, 1, 0, [⟨0, 32, .rc⟩]⟩,
     ⟨0x58, 1, 0, [⟨0, 32, .rc⟩]⟩]
  | 0x22 =>
    [⟨0x8, 1, 0, [⟨5, 1, .w1c⟩, ⟨4, 1, .w1c⟩, ⟨3, 1, .w1c⟩, ⟨2, 1, .w1c⟩, ⟨1, 1, .w1c⟩, ⟨0, 1, .w1c⟩]⟩,
     ⟨0x40, 1, 0, [⟨0, 32, .rc⟩]⟩,
     ⟨0x44, 1, 0, [⟨0, 32, .rc⟩]⟩,
     ⟨0x48, 1, 0, [⟨0, 32, .rc⟩]⟩]
  | 0x23 =>
    [⟨0x0, 1, 0, [⟨24, 5, .rw⟩, ⟨16, 8, .rw⟩, ⟨8, 8, .rw⟩, ⟨0, 1, .rw⟩]⟩,
     ⟨0x18, 1, 0, [⟨16, 16, .rw⟩, ⟨0, 16, .rw⟩]⟩,
     ⟨0x1c, 1, 0, [⟨6, 1, .w1c⟩, ⟨5, 1, .w1c⟩, ⟨4, 1, .w1c⟩, ⟨3, 1, .w1c⟩, ⟨2, 1, .w1c⟩, ⟨1, 1, .w1c⟩, ⟨0, 1, .w1c⟩]⟩,
     ⟨0x40, 1, 0, [⟨0, 32, .rc⟩]⟩,
     ⟨0x44, 1, 0, [⟨0, 32, .rc⟩]⟩,
     ⟨0x48, 1, 0, [⟨0, 32, .rc⟩]⟩,
     ⟨0x4c, 1, 0, [⟨0, 32, .rc⟩]⟩,
     ⟨0x50, 1, 0, [⟨0, 32, .rc⟩]⟩,
     ⟨0x54, 1, 0, [⟨0, 32, .rc⟩]⟩,
     ⟨0x58, 1, 0, [⟨0, 32, .rc⟩]⟩,
     ⟨0x5c, 1, 0, [⟨0, 32, .rc⟩]⟩]
  | 0x24 =>
    [⟨0x40, 1, 0, [⟨0, 32, .rc⟩]⟩,
     ⟨0x44, 1, 0, [⟨0, 32, .rc⟩]⟩,
     ⟨0x48, 1, 0, [⟨0, 32, .rc⟩]⟩,
     ⟨0x8, 1, 0, [⟨3, 1, .w1c⟩, ⟨2, 1, .w1c⟩, ⟨1, 1, .w1c⟩, ⟨0, 1, .w1c⟩]⟩]
  | 0x25 =>
    [⟨0x40, 1, 0, [⟨0, 32, .rc⟩]⟩,
     ⟨0x44, 1, 0, [⟨0, 32, .rc⟩]⟩,
     ⟨0x48, 1, 0, [⟨0, 32, .rc⟩]⟩,
     ⟨0x4c, 1, 0, [⟨0, 32, .rc⟩]⟩,
     ⟨0xc, 1, 0, [⟨4, 1, .w1c⟩, ⟨3, 1, .w1c⟩, ⟨2, 1, .w1c⟩, ⟨1, 1, .w1c⟩, ⟨0, 1, .w1c⟩]⟩]
  | 0x28 =>
    [⟨0x8, 1, 0, [⟨0, 16, .rw⟩]⟩,
     ⟨0x40, 1, 0, [⟨0, 32, .rc⟩]⟩,
     ⟨0x44, 1, 0, [⟨0, 32, .rc⟩]⟩,
     ⟨0x48, 1, 0, [⟨0, 32, .rc⟩]⟩,
     ⟨0x4c, 1, 0, [⟨0, 32, .rc⟩]⟩,
     ⟨0xc, 1, 0, [⟨3, 1, .w1c⟩, ⟨2, 1, .w1c⟩, ⟨1, 1, .w1c⟩, ⟨0, 1, .w1c⟩]⟩]
  | 0x29 =>
    [⟨0x0, 1, 0, [⟨31, 1, .rw⟩, ⟨30, 1, .rw⟩, ⟨16, 8, .rw⟩, ⟨8, 8, .rw⟩, ⟨0, 8, .rw⟩]⟩,
     ⟨0x10, 1, 0, [⟨0, 1, .wo⟩]⟩,
     ⟨0x18, 1, 0, [⟨0, 16, .rw⟩]⟩,
     ⟨0x40, 1, 0, [⟨0, 32, .rc⟩]⟩,
     ⟨0x44, 1, 0, [⟨0, 32, .rc⟩]⟩,
     ⟨0x14, 1, 0, [⟨8, 1, .w1c⟩, ⟨7, 1, .w1c⟩, ⟨6, 1, .w1c⟩, ⟨5, 1, .w1c⟩, ⟨4, 1, .w1c⟩, ⟨3, 1, .w1c⟩, ⟨2, 1, .w1c⟩, ⟨1, 1, .w1c⟩, ⟨0, 1, .w1c⟩]⟩]
  | 0x30 =>
    [⟨0x0, 1, 0, [⟨24, 1, .rw⟩, ⟨20, 4, .rw⟩, ⟨8, 8, .rw⟩, ⟨3, 1, .rw⟩, ⟨2, 1, .rw⟩, ⟨1, 1, .rw⟩, ⟨0, 1, .rw⟩]⟩,
     ⟨0xc, 1, 0, [⟨0, 5, .rw⟩]⟩,
     ⟨0x28, 1, 0, [⟨0, 11, .rw⟩]⟩,
     ⟨0x8, 1, 0, [⟨11, 1, .w1c⟩, ⟨10, 1, .w1c⟩, ⟨9, 1, .w1c⟩, ⟨8, 1, .w1c⟩, ⟨7, 1, .w1c⟩, ⟨6, 1, .w1c⟩, ⟨5, 1, .w1c⟩, ⟨4, 1, .w1c⟩, ⟨3, 1, .w1c⟩, ⟨2, 1, .w1c⟩, ⟨1, 1, .w1c⟩, ⟨0, 1, .w1c⟩]⟩,
     ⟨0x40, 1, 0, [⟨0, 32, .rc⟩]⟩,
     ⟨0x44, 1, 0, [⟨0, 32, .rc⟩]⟩,
     ⟨0x48, 1, 0, [⟨0, 32, .rc⟩]⟩,
     ⟨0x4c, 1, 0, [⟨0, 32, .rc⟩]⟩,
     ⟨0x50, 1, 0, [⟨0, 32, .rc⟩]⟩]
  | 0x31 =>
    [⟨0x8, 1, 0, [⟨2, 1, .w1c⟩, ⟨1, 1, .w1c⟩, ⟨0, 1, .w1c⟩]⟩,
     ⟨0x40, 1, 0, [⟨0, 32, .rc⟩]⟩]
  | 0x38 =>
    [⟨0xc, 1, 0, [⟨3, 1, .w1c⟩, ⟨2, 1, .w1c⟩, ⟨1, 1, .w1c⟩, ⟨0, 1, .w1c⟩]⟩,
     ⟨0x40, 1, 0, [⟨0, 32, .rc⟩]⟩,
     ⟨0x44, 1, 0, [⟨0, 32, .rc⟩]⟩,
     ⟨0x48, 1, 0, [⟨0, 32, .rc⟩]⟩,
     ⟨0x4c, 1, 0, [⟨0, 32, .rc⟩]⟩]
  | 0x39 =>
    [⟨0x8, 1, 0, [⟨0, 6, .rw⟩]⟩,
     ⟨0x18, 1, 0, [⟨5, 1, .w1c⟩, ⟨4, 1, .w1c⟩, ⟨3, 1, .w1c⟩, ⟨2, 1, .w1c⟩, ⟨1, 1, .w1c⟩, ⟨0, 1, .w1c⟩]⟩,
     ⟨0x40, 1, 0, [⟨0, 32, .rc⟩]⟩,
     ⟨0x44, 1, 0, [⟨0, 32, .rc⟩]⟩,
     ⟨0x48, 1, 0, [⟨0, 32, .rc⟩]⟩]
  | 0x3a =>
    [⟨0x0, 1, 0, [⟨0, 16, .wo⟩]⟩,
     ⟨0x4, 1, 0, [⟨0, 3, .wo⟩]⟩,
     ⟨0x8, 1, 0, [⟨3, 20, .rw⟩]⟩,
     ⟨0xc, 1, 0, [⟨0, 32, .rw⟩]⟩,
     ⟨0x10, 1, 0, [⟨0, 32, .rw⟩]⟩,
     ⟨0x18, 1, 0, [⟨0, 8, .rw⟩]⟩,
     ⟨0x1c, 1, 0, [⟨6, 1, .w1c⟩, ⟨5, 1, .w1c⟩, ⟨4, 1, .w1c⟩, ⟨3, 1, .w1c⟩, ⟨2, 1, .w1c⟩, ⟨1, 1, .w1c⟩, ⟨0, 1, .w1c⟩]⟩,
     ⟨0x20, 1, 0, [⟨0, 12, .rw⟩]⟩,
     ⟨0x40, 1, 0, [⟨0, 32, .rc⟩]⟩,
     ⟨0x44, 1, 0, [⟨0, 32, .rc⟩]⟩,
     ⟨0x48, 1, 0, [⟨16, 16, .rc⟩, ⟨0, 16, .rc⟩]⟩]
  | 0x3b =>
    [⟨0x8, 1, 0, [⟨2, 1, .w1c⟩, ⟨1, 1, .w1c⟩, ⟨0, 1, .w1c⟩]⟩]
  | 0x3c =>
    [⟨0x0, 1, 0, [⟨16, 3, .rw⟩, ⟨0, 16, .rw⟩]⟩,
     ⟨0x20, 1, 0, [⟨1, 1, .w1c⟩, ⟨0, 1, .w1c⟩]⟩,
     ⟨0x40, 1, 0, [⟨0, 32, .rc⟩]⟩,
     ⟨0x44, 1, 0, [⟨0, 32, .rc⟩]⟩,
     ⟨0x48, 1, 0, [⟨0, 32, .rc⟩]⟩]
  | 0x3d =>
    [⟨0x0, 1, 0, [⟨16, 8, .rw⟩, ⟨8, 7, .rw⟩, ⟨0, 1, .rw⟩]⟩,
     ⟨0x8, 1, 0, [⟨8, 1, .w1c⟩, ⟨7, 1, .w1c⟩, ⟨6, 1, .w1c⟩, ⟨5, 1, .w1c⟩, ⟨4, 1, .w1c⟩, ⟨3, 1, .w1c⟩, ⟨2, 1, .w1c⟩, ⟨1, 1, .w1c⟩, ⟨0, 1, .w1c⟩]⟩,
     ⟨0x40, 1, 0, [⟨0, 32, .rc⟩]⟩,
     ⟨0x44, 1, 0, [⟨0, 32, .rc⟩]⟩,
     ⟨0x48, 1, 0, [⟨0, 32, .rc⟩]⟩,
     ⟨0x4c, 1, 0, [⟨0, 32, .rc⟩]⟩,
     ⟨0x50, 1, 0, [⟨0, 32, .rc⟩]⟩,
     ⟨0x54, 1, 0, [⟨0, 32, .rc⟩]⟩]
  | 0x3e =>
    [⟨0x1c, 1, 0, [⟨16, 16, .rw⟩, ⟨8, 8, .rw⟩, ⟨0, 8, .rw⟩]⟩,
     ⟨0x28, 1, 0, [⟨0, 1, .wo⟩]⟩,
     ⟨0x2c, 1, 0, [⟨4, 1, .w1c⟩, ⟨3, 1, .w1c⟩, ⟨2, 1, .w1c⟩, ⟨1, 1, .w1c⟩, ⟨0, 1, .w1c⟩]⟩]
  | 0x3f =>
    [⟨0x8, 1, 0, [⟨2, 1, .w1c⟩, ⟨1, 1, .w1c⟩, ⟨0, 1, .w1c⟩]⟩,
     ⟨0x40, 1, 0, [⟨0, 32, .rc⟩]⟩,
     ⟨0x44, 1, 0, [⟨0, 32, .rc⟩]⟩]
  | _ => []

/-- The reset word of the register at block `blk`, offset `off` (the Reset columns; every other word resets to 0). -/
def regResetWord (blk off : Nat) : BitVec 32 :=
  if blk == 0x2 && off == 0x0 then 0x2#32
  else if (0x8 ≤ blk && blk ≤ 0xa) && off == 0xc then 0x4000#32
  else if (0x8 ≤ blk && blk ≤ 0xa) && off == 0x10 then 0x14301000#32
  else if (0x8 ≤ blk && blk ≤ 0xa) && off == 0x14 then 0x80#32
  else if (0x8 ≤ blk && blk ≤ 0xa) && off == 0x18 then 0x64#32
  else if (0x8 ≤ blk && blk ≤ 0xa) && off == 0x1c then 0xc840#32
  else if (0x8 ≤ blk && blk ≤ 0xa) && off == 0x20 then 0x10#32
  else if blk == 0xb && off == 0x4 then 0x40000000#32
  else if blk == 0xc && off == 0x4 then 0x2#32
  else if blk == 0xe && off == 0x0 then 0x80#32
  else if blk == 0xe && off == 0x4 then 0x408#32
  else if blk == 0x18 && off == 0x1c then 0x14#32
  else if blk == 0x18 && off == 0x20 then 0x64#32
  else if blk == 0x1a && off == 0x0 then 0x10000000#32
  else if blk == 0x30 && off == 0x4 then 0xe0000000#32
  else if blk == 0x39 && off == 0x4 then 0x20202020#32
  else 0#32

/-- The "L" fields whose default a register table or its notes give, with that default (R9). A field of a block that
a tile has several of is listed once. The value loaded is the configuration's where it holds one. -/
def loadDefaults : List (Fld × Nat) :=
  [(AON.HU_THRESH.TRIP, 14000), (AON.HU_THRESH.EMERG, 6000), (AON.FILTER.MAINS_US, 5), (AON.TCRIT.C, 115), (PWC.SLEEP.CLEAN_MS, 10000), (PWC.THERM.WARN, 95), (PWC.THERM.THROTTLE, 100), (DMC.AMAP.CH_GRAN, 0), (DMC.AMAP.ORDER, 0), (DMC.PANIC.FEED_PCT, 50), (DMC.RETRAIN.EN, 1), (DEC.CTRL.SCRUB_EN, 1), (DEC.SCRUB.PERIOD, 24), (TCH.CTRL.DEEP_NOALLOC, 0), (TCH.CTRL.EN, 1), (TCH.WAYCLASS.STREAM, 61440), (TCH.WAYPWR.ON, 65535), (NTR.SIZE.STEPS, 4), (DTM.CTRL.OP_PCT, 12), (DTM.CTRL.RETRY_MAX, 12)] ++
  [(DTM.CTRL.RA_HOST, 0), (DTM.CTRL.SOFT_EN, 1), (DTM.GC.HI, 64), (DTM.GC.LO, 32), (DTM.WEAR_TH.ITER, 12), (DTM.WEAR_TH.RETRY, 6), (FRN.CTRL.URGENT_PCT, 25), (FRN.CTRL.AGE_MIN_US, 1000), (ETH.CFG.LPORT_EN, 1), (ETH.CFG.MTU, 2), (ETH.CFG.MODE, 0), (ETH.PFC.HEADROOM, 48), (ETH.PFC.WATCHDOG_MS, 100), (ETH.PFC.LOSSLESS, 8), (ETH.ETS0.BW0, 10), (ETH.ETS0.BW1, 0), (ETH.ETS0.BW2, 0), (ETH.ETS0.BW3, 90), (ETH.ETS1.BW4, 0), (ETH.ETS1.BW5, 0)] ++
  [(ETH.ETS1.BW6, 0), (ETH.ETS1.BW7, 0), (ETH.ETS_STRICT.STRICT, 64), (ETH.PRIO.CNP_DSCP, 48), (ETH.PRIO.ROCE_DSCP, 26), (ETH.PRIO.CNP_PCP, 6), (ETH.PRIO.ROCE_PCP, 3), (RMA.CTRL.RNR_TIMER, 14), (RMA.CTRL.CNP_GAP_US, 50), (RMA.CTRL.ERR_HOLD_S, 10), (RMA.CTRL.CNP_EN, 1), (RMA.BUF_POOL.PULL_KB, 4096), (RMA.WIN.MAX_KB, 1024), (RMA.WIN.ACTIVE_US, 1000), (MIR.BUF.KB, 8192), (TWA.CTRL.PAIR_EN, 1), (TWA.CTRL.COMEBACK_EN, 1), (TWA.CTRL.DETECT, 20), (TWA.CTRL.LEASE, 20), (TWA.CTRL.HOLDOFF, 60)] ++
  [(TWA.HELLO_WAIT.MS, 2000), (FED.CTRL.SPARE_EN, 1), (FED.CTRL.SPARE_MAP, 15), (FED.CTRL.ERR_TH, 16), (FED.CTRL.IDX_POL, 0), (FED.CTRL.STB1_POL, 0), (FED.CTRL.STB0_POL, 0), (FED.CTRL.EN, 1), (FED.ALIGN.WIN_US, 1000), (NVS.WEAR_TH.PULSE_WARN, 6), (EVR.CTRL.NOTIFY_SEV, 3), (EVR.CTRL.WINDOW_MS, 1000), (TWB.CFG.NOTIFY_MS, 10), (TWB.CFG.HOST_ADDR, 8), (TWB.CFG.NOTIFY_EN, 1), (BST.BANK_CFG.RTEST_MOHM, 0), (BST.BANK_CFG.DELTA, 40), (BST.BANK_CFG.WAIT_S, 60), (FRN.CEIL.CONFIGURED, 192), (FRZ.POWER.ETA_PCT, 90), (FRZ.POWER.MARGIN, 35)]

end Sys2Proof.Machine
end

