-- ==== Sys2Proof/Machine/State.lean ====
section
/-! DEFINITION. The state of the block: everything the spec gives it, as plain data, with the queue of waiting commands.
Every status, mode and counter that the spec numbers as a register lives in `regs` and nowhere else. -/

namespace Sys2Proof.Machine

/-- Why a step stops: the spec names nothing that stops the block, so there is no such reason. An event at a tile or a unit that the
variant does not have has no effect (R11), and every meaning answers a next state. -/
inductive Fault
deriving DecidableEq, Repr

/-- Why a command has no meaning. -/
inductive Refusal
  /-- Its meaning is not written. Raised by the dispatch only. Safe. -/
  | notModelled (mnemonic : String)
deriving DecidableEq, Repr

/-- What the device sends, drives or returns (DESIGN CHOICE, log entry 4: the model's own record of its outputs, newest first). The
codes are said where each is sent. -/
inductive Out
  /-- A response or notification frame on a mailbox point. -/
  | mailbox (point : Nat) (bytes : List Byte)
  /-- A key-slot engine completion (Table 15.3). -/
  | kse (submitter tag status slotGen counter : Nat) (out : BitVec 128)
  /-- Bytes returned on the two-wire bus. -/
  | twoWire (bytes : List Byte)
  /-- A Host Notify message (R456), at a bus class in kHz (R500). -/
  | hostNotify (addr lo hi kHz : Nat)
  /-- Clock pulses that recover a stuck bus (R457), at a bus class in kHz (R500). -/
  | busClocks (kHz : Nat)
  /-- An MCTP control response (R331). -/
  | mctp (bytes : List Byte)
  /-- A transport packet on a logical port: tile, port, logical port, UDP source port and DSCP (R203), QPN of the peer, opcode (Table 8.2),
  PSN, syndrome or status, data. -/
  | rdma (tile port lport sport dscp qpn opcode psn syn : Nat) (data : List Byte)
  /-- An Ethernet frame that is not a transport packet: tile, port, kind (0 XOFF, 1 XON, 2 CNP, 3 gratuitous ARP or neighbour advertisement,
  4 management datagram, 5 answer to ARP or neighbour discovery, 6 LLDP with the DCBX TLVs), argument, data. -/
  | eth (tile port kind arg : Nat) (data : List Byte)
  /-- A twin-link frame of a tile: type (Table 10.1), sequence, body. -/
  | twin (tile type seq : Nat) (body : List Byte)
  /-- A heartbeat word on `TW_HBTX` (Table 10.6). -/
  | hbWord (word : Nat)
  /-- A feed frame on a lane: kind (0 raster line, 1 underrun, 2 LID), bytes. -/
  | feed (tile lane kind : Nat) (bytes : List Byte)
  /-- A tier cache serves `waiters` requesters of AMS range n (R70): its bytes, or the identifier of its poison (0 none). -/
  | served (tile n waiters poison : Nat) (data : List Byte)
  /-- A port enters or leaves operation: tile, port number (0, 1 Ethernet, 2 twin, 3 feed), on. -/
  | port (tile num : Nat) (on : Bool)
deriving DecidableEq, Repr

/-! ### Events and time (chapter 17) -/

/-- An event record before it takes its SEQ (Table 17.2). `solo`: never matches and is committed at once (R442). -/
structure EvRec where
  ptime : Nat
  ctime : Nat
  tq : Bool
  coarse : Bool
  denied : Bool
  sev : Nat
  source : Nat
  code : Nat
  rep : Nat
  roleSession : Nat
  arg : Nat
  solo : Bool
deriving DecidableEq, Repr

/-- The recorder: what the tiles have queued (R443), tile 0's queue, the open record, the events dropped and not yet
reported (R446), the calendar base with the powered time it was set at (R434), and whether time is coarse (Table 17.1). -/
structure Recorder where
  tileQ : List (Nat × EvRec)
  queue : List EvRec
  openRec : Option EvRec
  lost : Nat
  lostTiles : List Nat
  base : Option (Nat × Nat)
  coarse : Bool
deriving DecidableEq, Repr

/-! ### Mailboxes and sessions (chapter 12) -/

/-- An open session (R344 to R347). -/
structure Session where
  point : Nat
  role : Nat
  id : Nat
  key : BitVec 128
  lastCtr : Nat
  lastReq : Option Frame
  lastResp : List Byte
  groups : Nat
  notifyCtr : Nat
  opened : Nat
  lastValid : Nat
deriving DecidableEq, Repr

/-- A challenge handed out and not yet consumed (R344). -/
structure Challenge where
  id : Nat
  point : Nat
  role : Nat
  nonce : BitVec 128
  born : Nat
deriving DecidableEq, Repr

/-- A response that waits for the partner's acknowledgement of the ordered-stream record carrying it (R338):
tile stream, SEQ, point, bytes. -/
structure HeldResp where
  seq : Nat
  point : Nat
  bytes : List Byte
deriving DecidableEq, Repr

/-- A command whose response waits for the end of a revocation (R242): what it acts on (region), the request, its session's
point and id, the caller's role, and whether it is mirrored. -/
structure Deferred where
  region : Nat
  cause : Nat
  frame : Frame
  session : Option (Nat × Nat)
  role : Nat
deriving DecidableEq, Repr

/-- The mailboxes: frames received and not yet executed, sessions, challenges, failed opens (role, time) and lockouts
(role, start) of R348, the MB0 notification queue of R340, notifications that wait for a wake
(R387), responses held for the partner, and whether FREEZE_REPORT is still to be
sent. -/
structure Mailboxes where
  input : List Frame
  sessions : List Session
  challenges : List Challenge
  nextChallenge : Nat
  openFails : List (Nat × Nat)
  lockouts : List (Nat × Nat)
  ntf0 : List (List Byte)
  sleepQ : List (Nat × List Byte)
  held : List HeldResp
  deferred : List Deferred
  frzReportDue : Bool
deriving DecidableEq, Repr

/-! ### Ciphers and keys (chapter 15) -/

/-- A key slot (R395 to R400): `halves` counts the halves written under the present generation. -/
structure KeySlot where
  valid : Bool
  size256 : Bool
  usage : Nat
  gen : Nat
  halves : Nat
  ctr : Nat
  exhausted : Bool
  key : BitVec 256
deriving DecidableEq, Repr

/-- An empty key slot. -/
def KeySlot.empty : KeySlot := ⟨false, false, 0, 0, 0, 0, false, 0⟩

/-- A key-slot engine completion (Table 15.3) and the submitter it goes to. -/
structure KseCpl where
  submitter : Nat
  tag : Nat
  status : Nat
  slotGen : Nat
  counter : Nat
  out : BitVec 128
deriving DecidableEq, Repr

/-- The key-slot engine beside its registers: slots, requests since the last reseed, its time, and the times of the
health failures of the last 60 s (R404, R405), and the key registers of every BCX by tile × 16 + index (Table 15.5). -/
structure Kse where
  slots : List (Nat × KeySlot)
  sinceSeed : Nat
  seededAt : Nat
  fails : List Nat
  bcx : List (Nat × BitVec 128)
deriving DecidableEq, Repr

/-! ### Nonvolatile store (chapter 16) -/

/-- A store operation in progress: OP, address, RESULT it will end with, and the bus master that started it. -/
structure NvsOp where
  op : Nat
  addr : Nat
  result : Nat
deriving DecidableEq, Repr

/-- The array of one tile (R415 to R425): unlock sequence (0 locked, 1 first key, 2 unlocked) with its master, the
operation in progress, sectors remapped to spares, half-erased and warned sectors, words that read uncorrectable,
erase counts, sectors whose margin differs, and those that no spare could take, which only reads reach (R424). -/
structure NvsTile where
  step : Nat
  master : Nat
  op : Nat
  busy : Option NvsOp
  map : List (Nat × Nat)
  halfErased : List Nat
  warned : List Nat
  badWords : List Nat
  erases : List (Nat × Nat)
  marginal : List Nat
  stuck : List Nat
deriving DecidableEq, Repr

/-- The array with nothing remapped and no operation in progress. -/
def NvsTile.fresh : NvsTile := ⟨0, 0, 0, none, [], [], [], [], [], [], []⟩

/-- A boot selector copy (R364). -/
structure Selector where
  active : Nat
  trial : Bool
  attempts : Nat
  autoCommit : Bool
  count : Nat
  ok : Bool
deriving DecidableEq, Repr

/-- A wrap record (R403): SLOT, ATTR, SERIAL, CT, TAG. -/
structure WrapRec where
  slot : Nat
  attr : Nat
  serial : Nat
  ct : List Byte
  tag : BitVec 128
deriving DecidableEq, Repr

/-- A freeze report (Table 7.16). -/
structure FreezeReport where
  seq : Nat
  source : Nat
  outcome : Nat
  flags : Nat
  tiles : Nat
  unitsLost : Nat
  dur : List Nat
  dirty : List Nat
  tileOutcome : List Nat
deriving DecidableEq, Repr

/-! ### Firmware and start-up (chapter 13) -/

/-- An open firmware update (R367): session, component, length, bytes written. -/
structure FwUpdate where
  session : Nat
  comp : Nat
  len : Nat
  written : List (Nat × Nat)
deriving DecidableEq, Repr

/-- Start-up: the reset source recorded first (R360), where start-up has come to, the slices run on each tile with
their outcomes and times, the slice running on each tile with its start, boot ROM service (R365), keys ready for it
(R366), the hand-over to firmware, the open update, the watchdog's last kick, the bank measurement running, the tiles that have restored, and
tiles lost to a fault of their DRAM or NAND (R22, Table 7.6). -/
structure Startup where
  cause : Nat
  slices : List (Nat × Nat × Nat × Nat × Nat)
  running : List (Nat × Nat × Nat)
  romService : Bool
  romKeys : Bool
  dramTrained : Bool
  handedOver : Bool
  update : Option FwUpdate
  wdog : Nat
  bankRunning : Option (Nat × Nat)
  restored : List Nat
  lost : List Nat
deriving DecidableEq, Repr

/-! ### Power and pins (chapters 14 and 19) -/

/-- The board's levels and the power state that no register holds: VAON present, MAINS_OK,
`WAKE_N` low, `HU_TLOAD`, straps, NF_RATE and DDR_CLASS of the board record as read at this start-up (R479), stages shed for faults, whether the freeze net is asserted, since when the hottest die
has been below the present throttle level's exit, a rail short of phases, the times VAON rose, the span began and the rails went,
the sleep target (0 none), when the present step of its entry began and which step that is, tiles whose ranks above RETAINED
have not returned since S2 (R110), whether Firn's time in step 3 has passed (R387). -/
structure Power where
  vaon : Bool
  mains : Bool
  wakeLow : Bool
  huTload : Bool
  twPref : Bool
  twbAdr : Nat
  nfRate : Nat
  ddrClass : Nat
  shed : List Nat
  shortOfPhases : Bool
  freezeNet : Bool
  coolSince : Option Nat
  vaonAt : Nat
  spanAt : Nat
  railsOffAt : Nat
  target : Nat
  stepAt : Nat
  entryStep : Nat
  ranksAway : List Nat
  heldLate : Bool
deriving DecidableEq, Repr

/-! ### Two-wire bus (chapter 18) -/

/-- The two-wire target: response packets waiting, the message in assembly with its next packet sequence, MCTP control
requests waiting, a packet held from sleep, endpoint ID, consecutive arbitration losses, whether a Host
Notify is due, repetitions on a stuck bus, whether NACKs go on until BOOT, and the bus class of the last transaction addressed to it, in kHz: 100, 400
or 1000 (R500). -/
structure TwoWire where
  outPkts : List (List Byte)
  asm : Option (Nat × List Byte)
  ctl : List (List Byte)
  held : Option (List Byte)
  eid : Nat
  hostEid : Nat
  losses : Nat
  due : Bool
  stuckReps : Nat
  nackUntilBoot : Bool
  busClass : Nat
deriving DecidableEq, Repr

/-- An emergency dump record (R191): tile, freeze sequence number, the tile's SEQ before it, first block stripe, count of block stripes. -/
structure EmergencyRec where
  tile : Nat
  frz : Nat
  seq : Nat
  first : Nat
  count : Nat
deriving DecidableEq, Repr

/-- A bad block: channel, LUN, plane, block, reason 0 program, 1 erase, 2 commanded (R162), 3 marked by the factory (R161). -/
structure BadBlock where
  tile : Nat
  ch : Nat
  lun : Nat
  plane : Nat
  block : Nat
  reason : Nat
deriving DecidableEq, Repr

/-- What the nonvolatile store keeps for the firmware (R416), as the records it holds: configuration values by key,
both boot selector copies, SVN floors by component, slots marked INCOMPLETE, wrap records, session serial with its
reservation (R418), pair epoch, freeze reports newest first and the next freeze sequence, error-identifier counters with
reservations, emergency dump records (R191), deep key epochs, transmit key numbers with their reservations and receive records by tile, repairs kept by self-test, stored training results (channel × 3 + set, with the number of
their first word) with the serial numbers they belong to by channel, rows on the hard-repair list (channel, PPR word, the module's serial number), repair
resources used by module and bank group, the factory's bad-block table (R161), and the corrected,
uncorrectable and poisoned bursts of each module as the last log poll summed them up (R130). -/
structure Nv where
  cfg : List (Nat × Nat)
  selectors : List Selector
  svnFloor : List (Nat × Nat)
  incomplete : List Nat
  wraps : List WrapRec
  serialNext : Nat
  serialResv : Nat
  epoch : Nat
  lastRole : Nat
  reports : List FreezeReport
  frzSeq : Nat
  emerg : List EmergencyRec
  errId : List (Nat × Nat)
  errResv : List (Nat × Nat)
  deepEpoch : List (Nat × Nat)
  txKn : List (Nat × Nat)
  txResv : List (Nat × Nat)
  rxMac : List (Nat × Nat)
  rxKn : List (Nat × Nat)
  repairs : List (Nat × Nat)
  phy : List (Nat × Nat)
  phySerial : List (Nat × List Nat)
  pprList : List (Nat × Nat × Nat)
  pprUsed : List (Nat × Nat)
  factory : List BadBlock
  modErrs : List (Nat × Nat × Nat × Nat)
deriving DecidableEq, Repr

/-! ### Regions and the memory space (chapters 2, 3 and 9) -/

/-- A region (Table 0.4, Table 9.1): `rights` holds RD, WR, AT, PIN and SINGLE in bits 0 to 4. -/
structure Region where
  num : Nat
  base : Nat
  len : Nat
  cls : Nat
  tier : Nat
  start : Nat
  rights : Nat
  owner : Nat
  gen : Nat
  tag : Nat
deriving DecidableEq, Repr

/-- A revocation (R242), running or waiting: cause 0 rekey, 1 delete, 2 right cleared; the rights that stay; phase 0 not
begun, 1, 2. -/
structure Revoke where
  region : Nat
  cause : Nat
  keep : Nat
  phase : Nat
  oldGen : Nat
  newTag : Nat
deriving DecidableEq, Repr

/-- A home map entry (Table 2.2) of an extent with a home. -/
structure Home where
  tile : Nat
  tier : Nat
  mv : Bool
  sh : Bool
  frame : Nat
deriving DecidableEq, Repr

/-- REGION_REF, ASSIGN and MOVE entries of a plan (Tables 2.6 to 2.8). An order's state is 0 armed, 1 fired, 2 completed, 3
disarmed; `left` lists the extents of a fired order that are not DONE. -/
structure PlanRef where
  region : Nat
  gen : Nat
  cls : Nat
  len : Nat
  base : Nat
deriving DecidableEq, Repr

structure PlanAssign where
  ridx : Nat
  tile : Nat
  tier : Nat
  first : Nat
  count : Nat
  shared : Bool
deriving DecidableEq, Repr

structure PlanOrder where
  id : Nat
  ridx : Nat
  shared : Bool
  first : Nat
  count : Nat
  tile : Nat
  tier : Nat
  trig : Nat
  obj : Nat
  value : Nat
  st : Nat
  left : List Nat
deriving DecidableEq, Repr

/-- A loaded plan (R41): its file as loaded, and what it decodes to. -/
structure Plan where
  id : Nat
  nearMin : Nat
  active : Bool
  refs : List PlanRef
  assigns : List PlanAssign
  orders : List PlanOrder
  file : List Byte
deriving DecidableEq, Repr

/-- A plan load in progress: file length and the bytes received. -/
structure PlanLoad where
  len : Nat
  cells : List Host.Cell
deriving DecidableEq, Repr

/-- A move request for one extent (R47): destination, SH, and the order it comes from (0 for none). -/
structure MoveReq where
  tile : Nat
  tier : Nat
  shared : Bool
  order : Nat
  plan : Nat
deriving DecidableEq, Repr

/-- A move in progress (Table 2.10): `flipping` false with `copying` false is PREPARING. `todo`: pages the present pass still
copies; `recopy`: the set of R48; `frame`: the reserved frame; `told`, `toldPath`: want of a frame, a held path was recorded; `partner`:
done for a partner's MOVE record; `ready`: the partner's READY has come; `commitDue`: the ACTIVE's commit has come. -/
structure Move where
  ext : Nat
  req : MoveReq
  copying : Bool
  flipping : Bool
  frame : Option Nat
  todo : List Nat
  recopy : List Nat
  passes : Nat
  poison : Bool
  told : Bool
  toldPath : Bool
  partner : Bool
  ready : Bool
  commitDue : Bool
deriving DecidableEq, Repr

/-- One 128 B range valid in a tile's cache (R64): a host-class line, or one sector of the stream-class line that the ranges
of the same way with equal `n / 16` form. `n` is AMS[49:7]. -/
structure CRange where
  tile : Nat
  n : Nat
  way : Nat
  stream : Bool
  dirty : Bool
  data : List Byte
deriving DecidableEq, Repr

/-- An eviction buffer entry (R73). -/
structure EvbEntry where
  tile : Nat
  n : Nat
  data : List Byte
deriving DecidableEq, Repr

/-- A miss (R70): the line or sector in fill, how many requests wait, whether a waiter is panic, and the way held for the fill (R69), none
where it allocates nothing. -/
structure MissEntry where
  tile : Nat
  n : Nat
  stream : Bool
  panic : Bool
  waiters : Nat
  way : Option Nat
deriving DecidableEq, Repr

/-- A cache maintenance operation: OP 1 CLEAN, 2 INVALIDATE, over the ranges from `n`; begun by `TCH.MAINT_CMD` (`asker` 0) or by the
CACHE_MAINT that waits at point `asker` − 1; the portions admitted before it and not yet applied (R74). -/
structure MaintOp where
  tile : Nat
  op : Nat
  n : Nat
  count : Nat
  asker : Nat
  after : List Nat
deriving DecidableEq, Repr

/-! ### Persistence (chapter 7) -/

/-- A token table entry (R173): page (AMS page number), GEN when taken, GEN last captured, in-flight count, and the time it
was taken. -/
structure Token where
  tile : Nat
  page : Nat
  taken : Nat
  captured : Option Nat
  inflight : Nat
  since : Nat
deriving DecidableEq, Repr

/-- A page image captured and not yet verified (R178, R179): GEN captured, contents, its poisoned ranges with their identifiers (R153). -/
structure CapPage where
  page : Nat
  gen : Nat
  data : List Byte
  mask : List (Nat × Nat)
deriving DecidableEq, Repr

/-- A capture in Firn's buffer: the pages of one atomic unit (or a page of a move's copy, KIND as programmed). -/
structure Capture where
  tile : Nat
  unit : Nat
  pages : List CapPage
deriving DecidableEq, Repr

/-- A deep-homed 128 B range held for assembly (R72, R180). -/
structure DeepRange where
  tile : Nat
  n : Nat
  data : List Byte
deriving DecidableEq, Repr

/-- A page mapped in a tile's deep tier (Table 6.5): GEN, SEQ, the block stripe that holds it and which codeword of it. -/
structure DeepPage where
  tile : Nat
  page : Nat
  gen : Nat
  seq : Nat
  stripe : Nat
  idx : Nat
deriving DecidableEq, Repr

/-- A codeword on flash until its block stripe is erased, mapped or stale (R143): where it lies, the fields of its header (Table 6.4), the page
of the memory space it was written for, that page's bytes in clear, and the XTS ciphertext (R156). -/
structure Codeword where
  tile : Nat
  stripe : Nat
  idx : Nat
  kind : Nat
  slc : Bool
  den : Nat
  page : Nat
  gen : Nat
  seq : Nat
  mask : List (Nat × Nat)
  data : List Byte
  cipher : List Byte
deriving DecidableEq, Repr

/-- A page of a dump (R189): GEN, and the SEQ of the codeword on flash that holds it. -/
structure DumpPage where
  page : Nat
  gen : Nat
  seq : Nat
deriving DecidableEq, Repr

/-- A dump of one tile: freeze sequence number, the dump area it is in, whether that is the emergency stripes (R191), whether sealed, the atomic units
it should hold, and its pages. -/
structure Dump where
  tile : Nat
  seq : Nat
  area : Nat
  emergency : Bool
  isSealed : Bool
  units : Nat
  pages : List DumpPage
deriving DecidableEq, Repr

/-- Where a write comes from: a QP's request (its first PSN), a chain queue's descriptor (ring index), a stream of the
partner (SEQ), or the mover. -/
inductive Src
  | qp (qpn psn : Nat)
  | desc (cqn idx : Nat)
  | mirror (tile seq : Nat)
deriving DecidableEq, Repr

/-- What a portion does: writes its bytes, or is an atomic (R231) with compare and swap, or add; `image`: no write but a page whose
lost backing image asks for a token (R152). -/
inductive PKind
  | write | cmpSwap (cmp swap : Nat) | fetchAdd (add : Nat) | image
deriving DecidableEq, Repr

/-- How far a portion is: not yet admitted (`waiting`: it has asked for tokens), admitted, applied and short of its class,
at its class. -/
inductive PState
  | new | waiting | admitted | applied | reached
deriving DecidableEq, Repr

/-- A portion (R168, R174): its home tile, bytes that have arrived, and the SEQ of the frame that mirrors it. `capsule`: part of
a capsule of `src`. `force`: its command asks C3. `pulled`: an RDMA READ for it is outstanding. -/
structure Portion where
  id : Nat
  tile : Nat
  addr : Nat
  len : Nat
  src : Src
  kind : PKind
  capsule : Bool
  force : Bool
  data : List Byte
  st : PState
  since : Nat
  seq : Option Nat
  pulled : Bool
  poison : List (Nat × Nat)
deriving DecidableEq, Repr

/-! ### Host network (chapter 8) -/

/-- A request on a QP in the order of PSNs (R221): kind 0 WRITE, 1 WRITE with Immediate, 2 SEND, 3 READ, 4 atomic; bytes of it
received and its length; the queue of its immediate; whether all of it has been received and it has reached its point; the SEQ of the
QP_CTX frame that carries it in the ingress tile's stream, 0 for none (R276). -/
structure Req where
  psn : Nat
  last : Nat
  kind : Nat
  key : Nat
  addr : Nat
  len : Nat
  got : Nat
  imm : Option Nat
  whole : Bool
  reached : Bool
  ctx : Nat
deriving DecidableEq, Repr

/-- A request packet of the device not yet acknowledged (R224): opcode of Table 8.2, address, key and length of its RETH,
payload; for a READ the bytes received so far and the portion it pulls. -/
structure SentPkt where
  psn : Nat
  opcode : Nat
  va : Nat
  key : Nat
  len : Nat
  data : List Byte
  por : Nat
deriving DecidableEq, Repr

/-- A capsule taken into a QP's queue and not started. -/
structure QCapsule where
  psn : Nat
  bytes : List Byte
deriving DecidableEq, Repr

/-- A QP (R216, Tables 8.7 and 10.20). st: 0 FREE, 1 CONNECTING, 2 RTS, 3 DRAINING, 4 ERROR. `shadow`: a STANDBY's shadow
context. `frame`: SEND bytes of a mailbox frame in assembly. -/
structure Qp where
  qpn : Nat
  kind : Nat
  mb : Nat
  lport : Nat
  st : Nat
  shadow : Bool
  unitAddr : Bool
  rqpn : Nat
  gid : Nat
  mtu : Nat
  epsn : Nat
  spsn : Nat
  una : Nat
  nakSent : Bool
  acked : Nat
  retry : Nat
  rnrRetry : Nat
  ackTimeout : Nat
  retriesLeft : Nat
  rnrLeft : Nat
  sentAt : Nat
  respRes : Nat
  hostCredit : Nat
  window : Nat
  winVa : Nat
  winKey : Nat
  lastWrite : Option Nat
  unacked : Nat
  committed : Nat
  reqs : List Req
  caps : List QCapsule
  capPsn : Nat
  frame : List Byte
  sent : List SentPkt
  rnrWait : Bool
  ring : List (Nat × List Byte)
  cplQ : List (List Byte)
  atomics : List (Nat × Nat)
  localFlag : Bool
  rate : Nat
  cnpAt : Option Nat
  cnpRxAt : Option Nat
  opened : Nat
  errAt : Option Nat
  dreq : Bool
  settled : Bool
  violTold : Bool
  cached : Bool
  lastUse : Nat
deriving DecidableEq, Repr

/-! ### Capsules and chain queues (chapter 9) -/

/-- A capsule or descriptor in execution: its source, 64 bytes, who takes the completion record (QPN, or 0 and the posting
session and point); whether its own step has run (`begun`); first error identifier and poisoned address; whether a revocation
met it, or a pull failed; pages with the GEN that C3 asks for, and stream SEQs the partner must commit; whether a READ's data has been acknowledged
(`done`); the role of the session that posted it. -/
structure Exec where
  src : Src
  bytes : List Byte
  enqQpn : Nat
  session : Nat
  point : Nat
  begun : Bool
  poisonId : Nat
  poisonAddr : Nat
  revoked : Bool
  failed : Bool
  commit : List (Nat × Nat)
  seqs : List (Nat × Nat)
  done : Bool
  role : Nat
deriving DecidableEq, Repr

/-- A descriptor in a chain queue's ring (R258): index, enqueuing QP (0 for CHAIN_POST), posting session and point. -/
structure Desc where
  idx : Nat
  enqQpn : Nat
  session : Nat
  point : Nat
  role : Nat
  bytes : List Byte
deriving DecidableEq, Repr

/-- A chain queue (R258). st: 1 IDLE, 2 RUNNING, 3 HALTED (a FREE queue is not listed). -/
structure Chain where
  num : Nat
  st : Nat
  owner : Nat
  hostAccess : Bool
  count : Nat
  nextIdx : Nat
  ring : List Desc
  running : Option Desc
  lastFail : Nat
deriving DecidableEq, Repr

/-! ### Twin (chapter 10) -/

/-- A MIRROR frame sent or waiting for credit: SEQ, records, when it was sent, how often. -/
structure MFrame where
  seq : Nat
  body : List Byte
  sentAt : Nat
  sends : Nat
deriving DecidableEq, Repr

/-- A FETCH_REQ outstanding: identifier, page, time. -/
structure Fetch where
  id : Nat
  page : Nat
  born : Nat
deriving DecidableEq, Repr

/-- An item received on a twin link (R298): its kind, number, the SEQs of its first and last frame, its body so far. -/
structure RxItem where
  kind : Nat
  item : Nat
  first : Nat
  last : Nat
  body : List Byte
deriving DecidableEq, Repr

/-- A tile's twin link. Sending: next SEQ and item number, frames not yet acknowledged, frames that wait for credit. Receiving: highest SEQ
received and acknowledged, next item expected, the item in assembly, whole items not yet applied, units of frames whose credit is not
yet owed. Credit: owed to the partner, granted to it, used by this tile, granted to this tile, used by the partner's frames, the partner's totals as it last
said them, a mismatch pending. Fetches asked for and to be answered, when the last HEARTBEAT came, frames bad in a row, SEQs whose pages'
commits the partner asks for (page, GEN), another tile that a HELLO named, when the link came up and whether a valid frame has come since, a new
sender (MAC, KN) whose key is installed and not yet committed. -/
structure TwinTile where
  tile : Nat
  txSeq : Nat
  txItem : Nat
  unacked : List MFrame
  queue : List MFrame
  rxSeq : Nat
  rxAcked : Nat
  rxItem : Nat
  part : Option RxItem
  items : List RxItem
  rxFrames : List (Nat × Nat)
  owed : Nat
  grantTx : Nat
  usedTx : Nat
  grantRx : Nat
  usedRx : Nat
  peerGrant : Nat
  peerUsed : Nat
  booksOff : Bool
  fetches : List Fetch
  nextFetch : Nat
  fetchIn : List (Nat × Nat)
  lastHb : Option Nat
  bad : Nat
  c3Due : List (Nat × List (Nat × Nat))
  helloTile : Option Nat
  upAt : Nat
  heard : Bool
  rxPend : Option (Nat × Nat)
  txPn : Nat
deriving DecidableEq, Repr

/-- What the partner's HELLO said (Table 10.2). -/
structure Peer where
  verMin : Nat
  verMax : Nat
  variant : Nat
  pref : Bool
  pairEn : Bool
  ifault : Bool
  lastRole : Nat
  unitId : Nat
  manifest : Nat
  epoch : Nat
  pairId : Nat
deriving DecidableEq, Repr

/-- A plan file as STATE records bring it: number, active, length, bytes so far. -/
structure PlanIn where
  id : Nat
  active : Bool
  len : Nat
  bytes : List Byte
deriving DecidableEq, Repr

/-- The twin arbiter and the pairing: links, the partner's HELLO and the version in use; the last valid heartbeat word and when; whether the partner
is lost and since when; until when DEPART is sent, whether heartbeats have stopped; last lease kick, lease current; since when
TW_ACTI has been low, when TW_ACTO rose, the end of the back-off; interlock mismatch since, check good since, last good check; own word COUNT
and the word sent last; orderly swap (0 none, 1 requested by this unit, 2 draining, 3 final record sent), since when, SEQ of the final record, whether the
partner's has come; since when STANDBY; announcements left; resynchronisation (0 off, 1 past step 1); since when the role is being settled,
whether it is; whether TWIN_LEAVE stands, whether a silent path or a silent partner was told; what a resynchronisation has named (subkind, number), the plan file it
brings; the divergence words by extent (R290; 0 unlisted). -/
structure Twin where
  tiles : List TwinTile
  peer : Option Peer
  version : Nat
  lastWord : Option Nat
  lastWordAt : Nat
  lost : Bool
  lostAt : Nat
  departUntil : Nat
  silent : Bool
  leaseAt : Nat
  leaseOk : Bool
  actiLowSince : Option Nat
  actoRoseAt : Nat
  backoffUntil : Nat
  mismatchSince : Option Nat
  goodSince : Option Nat
  lastGood : Option Nat
  count : Nat
  wordSent : Nat
  swap : Nat
  swapAt : Nat
  swapSeq : Nat
  finalSeen : Bool
  standbySince : Nat
  announceLeft : Nat
  resync : Nat
  helloSince : Nat
  settled : Bool
  left : Bool
  pathTold : Bool
  silentTold : Bool
  seen : List (Nat × Nat)
  planIn : Option PlanIn
  diverge : List (Nat × Nat)
deriving DecidableEq, Repr

/-! ### The groups of the memory side -/

/-- Regions with the generation each number reached (R241), revocations in order, homes by extent, entries that a tile has not
yet replaced (tile, extent, old entry), plans, moves with the pending slots by extent (request, and whether it is the partner's), the
requests issued and not yet taken by a mover, the entries in each tile's home map cache (tile, extent; R32), and the moves that the last Freeze
abandoned (extent, order; R55). -/
structure Ams where
  regions : List Region
  gens : List (Nat × Nat)
  revokes : List Revoke
  homes : List (Nat × Home)
  stale : List (Nat × Nat × Home)
  plans : List Plan
  planLoad : Option PlanLoad
  moves : List Move
  movePend : List (Nat × MoveReq × Bool)
  issued : List (Nat × MoveReq)
  hmc : List (Nat × Nat)
  abandoned : List (Nat × Nat)
deriving DecidableEq, Repr

/-- The tier caches: valid ranges, eviction buffers, miss queues, pseudo-LRU trees by set (tile, class, set), maintenance
operations in the order of issue, near tier steps a repartition goes to, and the misses that wait at a tile's input (R70, R73, R75). -/
structure CacheSt where
  ranges : List CRange
  evb : List EvbEntry
  missq : List MissEntry
  plru : List (Nat × Nat)
  maint : List MaintOp
  repart : List (Nat × Nat)
  waitq : List MissEntry
deriving DecidableEq, Repr

/-- The package's metadata as tile 0 saved it last (Table 7.4), with the sequence number of that Freeze, none on the way into S3: region table, generations, plans, chain queues, and the moves that the Freeze
abandoned (R55). -/
structure DumpMeta where
  seq : Option Nat
  regions : List Region
  gens : List (Nat × Nat)
  plans : List Plan
  chains : List Chain
  abandoned : List (Nat × Nat)
deriving DecidableEq, Repr

/-- A tile's metadata of its last dump (Table 7.4), with the sequence number of that Freeze, none on the way into S3: its home map copy (R34), its born pages (R126), and its token table. -/
structure TileMeta where
  tile : Nat
  seq : Option Nat
  homes : List (Nat × Home)
  born : List Nat
  tokens : List Token
deriving DecidableEq, Repr

/-- Tokens; GEN by page (R175, 0 unlisted); pages ever written (R37); poisoned 64 B bursts by AMS address / 64 with their error identifiers
(R120, R132);
captures and deep-homed ranges in Firn's buffer; pages named by COMMIT or FORCE and extents to clean, both at the head of the
queue (R181); deep pages; next SEQ by tile; dumps kept; the metadata saved last, of the package and of each tile; clean pages still to be restored
(R197); tiles in urgent mode; deep extent numbers by tile × 2^32 + extent (R146). -/
structure Firn where
  tokens : List Token
  gens : List (Nat × Nat)
  born : List Nat
  poison : List (Nat × Nat)
  caps : List Capture
  ranges : List DeepRange
  heads : List Nat
  cleanAsk : List Nat
  deep : List DeepPage
  seqs : List (Nat × Nat)
  dumps : List Dump
  saved : Option DumpMeta
  tileSaved : List TileMeta
  unrestored : List Nat
  urgent : List Nat
  dens : List (Nat × Nat)
deriving DecidableEq, Repr

/-- The latest Freeze: when it was triggered, the first trigger's source, whether it is a test, tiles that have ended with the time they took,
MiB dumped and outcome by tile, whether a tile had no armed area, whether `MAINS_OK` has returned, atomic units lost, whether its report is still to
be built at a restore, and the reset source of the BOOT that follows. -/
structure FreezeRun where
  since : Nat
  source : Nat
  isTest : Bool
  ended : List (Nat × Nat)
  dirty : List (Nat × Nat)
  outcome : List (Nat × Nat)
  noArmed : Bool
  mainsBack : Bool
  unitsLost : Nat
  pendingReport : Bool
  resetSource : Nat
deriving DecidableEq, Repr

/-- Portions in the order of their admission requests, QPs, capsules in execution, chain queues, logical ports whose link is down ((tile × 2 + port) × 4 + number) and priorities that
the peer has paused ((tile × 2 + port) × 8 + priority), each with since when; what waits for the end of a pause, by the same key; when each tile last computed its
windows, and the bytes then held in its idle allowance (R230). -/
structure Net where
  portions : List Portion
  nextPortion : Nat
  qps : List Qp
  execs : List Exec
  chains : List Chain
  linkDown : List (Nat × Nat)
  pausedAt : List (Nat × Nat)
  txq : List (Nat × Out)
  winAt : List (Nat × Nat)
  idleHeld : List (Nat × Nat)
deriving DecidableEq, Repr

/-- A module as its SPD hub describes it (R86, R87): where it sits, whether one is fitted there and is an RDIMM of x4 devices, its logical
ranks, GiB per logical rank, speed grade in MT/s, serial number. -/
structure Module where
  tile : Nat
  ch : Nat
  slot : Nat
  fitted : Bool
  rdimm : Bool
  ranks : Nat
  rankGib : Nat
  grade : Nat
  serial : Nat
deriving DecidableEq, Repr

/-- What READ ID, the parameter page and Table 6.2 say of a LUN: manufacturer and device bytes, planes, page and spare bytes, whether it is
TLC with SLC mode. -/
structure LunId where
  mfr : Nat
  dev : List Nat
  planes : Nat
  page : Nat
  spare : Nat
  tlc : Bool
deriving DecidableEq, Repr

/-- The board's population (R86, R87, R142): RDIMMs per channel, logical ranks per RDIMM, GiB per logical rank; LUNs per channel, GiB per LUN; the
speed grade of the modules, MT/s; the places that hold another module than that, or none; the channels that carry
another number of LUNs (tile, channel, LUNs); what the LUNs say of themselves, and the chip enables that differ (tile, channel, enable); the
blocks the factory marked; repair resources of each bank group of a module (R113). -/
structure Board where
  dimms : Nat
  ranks : Nat
  rankGib : Nat
  luns : Nat
  lunGib : Nat
  grade : Nat
  modules : List Module
  nand : List (Nat × Nat × Nat)
  lun : LunId
  oddLuns : List ((Nat × Nat × Nat) × LunId)
  factoryBad : List BadBlock
  pprRes : Nat
deriving DecidableEq, Repr

/-! ### Main tier (chapters 4 and 5) -/

/-- A burst queued at a DDR5 subchannel (R94): place (R89 to R91), a write or a read, the panic mark, when it was queued. -/
structure DramReq where
  sub : Nat
  rank : Nat
  bg : Nat
  bank : Nat
  row : Nat
  col : Nat
  write : Bool
  panic : Bool
  born : Nat
deriving DecidableEq, Repr

/-- A bank's row (R93): the last row it opened, whether it stands open, its 2-bit counter, and its last access. `bank` numbers
subchannel, rank, bank group and bank. -/
structure DramRow where
  bank : Nat
  row : Nat
  isOpen : Bool
  ctr : Nat
  last : Nat
deriving DecidableEq, Repr

/-- A DDR5 channel beside its registers: sets trained (R104), queued bursts, subchannels in write drain, rows, postponed refresh sets
by rank (R97), since when panic is raised, whether a module or the DRAM reports above 85 °C, the last retraining pause with
its temperature, one asked for, since when one is deferred, the end of the one in progress (R103), the set a frequency change
goes to and whether it has begun (R105), a soft repair (PPR word, the outcome that the DRAM gives it, if known) and when it began to hold its
bank (R111), ranks whose next refresh set a pause has already issued (R103), requests that wait for the end of a change (R105), a pattern run in
progress (rank, failing lanes, failing bits; R102), module temperatures (R96), the power state of each rank (0 on, 1 self-refresh, 2 maximum power
saving) and the slots whose regulators are off (R109). -/
structure DramCh where
  tile : Nat
  ch : Nat
  trained : List Nat
  queue : List DramReq
  drain : List Nat
  rows : List DramRow
  debts : List (Nat × Nat)
  panicAt : Option Nat
  lastPause : Nat
  pauseTemp : Nat
  pauseAsked : Bool
  deferAt : Option Nat
  pauseEnd : Nat
  chgSet : Option Nat
  chgBegun : Bool
  repair : Option (Nat × Option Nat)
  repairAt : Option Nat
  credit : List Nat
  held : List DramReq
  run : Option (Nat × Nat × Nat)
  temps : List Nat
  rankPower : List (Nat × Nat)
  vrOff : List Nat
deriving DecidableEq, Repr

/-- An entry of a channel's error log (R130, Table 5.3): place, device, symbols, count, tile-local address, when it was last
updated, whether its last correction was written back, and whether the same device erred again after that. -/
structure DecLog where
  tile : Nat
  ch : Nat
  slot : Nat
  kind : Nat
  rank : Nat
  sub : Nat
  bg : Nat
  bank : Nat
  row : Nat
  col : Nat
  dev : Nat
  syms : Nat
  count : Nat
  addr : Nat
  last : Nat
  wb : Bool
  again : Bool
deriving DecidableEq, Repr

/-- A bank or device under erasure (R119, R134): `bank` is bank group × 4 + bank, or none for the whole rank; the serial number of its module. -/
structure DecErase where
  tile : Nat
  ch : Nat
  sub : Nat
  rank : Nat
  bank : Option Nat
  dev : Nat
  serial : Nat
deriving DecidableEq, Repr

/-- A page remapped to a slot of the spare pool, the channel whose module it was retired for and that module's serial number (R134, R135). -/
structure DecPage where
  tile : Nat
  page : Nat
  slot : Nat
  ch : Nat
  serial : Nat
deriving DecidableEq, Repr

/-- What the retirement policy remembers (R136): a row that qualified, or a burst with 5 to 8 symbols of one device wrong (row 2^20
and up), with its time. -/
structure DecNote where
  tile : Nat
  ch : Nat
  sub : Nat
  rank : Nat
  bank : Nat
  dev : Nat
  row : Nat
  whole : Bool
  last : Nat
deriving DecidableEq, Repr

/-- The integrity block: logs, erasures, page retirements, policy notes, pages whose retirement is to be done or done again, with the channel (R135),
uncorrectable bursts not yet recovered (tile, tile-local address), what the DRAM holds wrong in a burst's codeword (tile, address, symbol, XOR),
bursts of the reserved area stored as poison with their identifiers (tile, address), the burst of its cursor's page that each channel's scrub reads next
(tile × 3 + channel), passes that each channel has completed. The born map (R121): born pages (tile, tile-local page), frames whose extent born
bit is 1, copies that do not decode (tile, frame, copy), the born-map bursts cached on chip (tile, frame), and pages that a lost map alone makes
born. Near-tier words that are wrong (AMS address / 8, uncorrectable; R59). -/
structure DecSt where
  logs : List DecLog
  erases : List DecErase
  pages : List DecPage
  notes : List DecNote
  retire : List (Nat × Nat × Nat)
  ues : List (Nat × Nat)
  faults : List (Nat × Nat × Nat × Nat)
  testPoison : List ((Nat × Nat) × Nat)
  scrub : List (Nat × Nat)
  passes : List (Nat × Nat)
  born : List (Nat × Nat)
  ext : List (Nat × Nat)
  bornBad : List (Nat × Nat × Nat)
  bornCache : List (Nat × Nat)
  wild : List (Nat × Nat)
  near : List (Nat × Bool)
deriving DecidableEq, Repr

/-! ### Deep tier (chapter 6) -/

/-- A block stripe that is not FREE or has been erased (R144, R160). st: 0 FREE, 1 OPEN, 2 FULL, 3 ERASING, 4 DUMP_ARMED, 5 DUMP_PREVIOUS, 6 taken apart for its
good blocks (R163); its log head (R149), codewords programmed, erase count, reads since, whether its data is to be refreshed first, and
reads that hold a place in it (R151). -/
structure Stripe where
  tile : Nat
  id : Nat
  st : Nat
  head : Nat
  used : Nat
  erases : Nat
  reads : Nat
  ahead : Bool
  refs : Nat
deriving DecidableEq, Repr

/-- What the manager keeps for a block, by its stripe and channel, since its last erase (R163): iterations of its hard decodes
added up and how many, highest retry level, last program and erase times in µs, whether weak. -/
structure BlockStat where
  tile : Nat
  stripe : Nat
  ch : Nat
  iters : Nat
  decodes : Nat
  retry : Nat
  tprog : Nat
  tbers : Nat
  weak : Bool
deriving DecidableEq, Repr

/-- A dump area (R157): st 1 armed, 2 previous, 3 written by the Freeze in progress; its block stripes. -/
structure DumpArea where
  tile : Nat
  num : Nat
  st : Nat
  stripes : List Nat
deriving DecidableEq, Repr

/-- The deep-tier managers beside translation: stripes, blocks, dump areas with the number of the next, grown bad blocks, tiles whose root
is valid (R148, R161), tiles whose root cannot be read, tiles that rebuild, tiles in garbage collection, table pages (DEN) changed since their last
flush and since when, by tile × 2^24 + DEN (R148), suspends of the operation on a LUN (tile, channel, LUN; R154), wear stages reported, frames of the
translation area (tile, index, frame), whether DEEP_FORMAT has run since the last start-up (R132), the codewords on flash, the pages in state 2
with their identifiers (tile, page; R147), the directory: where each table page was flushed to (tile, DEN, stripe, index), blocks that stand in
their stripe for a bad one (tile, stripe, channel, block; R162). -/
structure DeepSt where
  stripes : List Stripe
  blocks : List BlockStat
  areas : List DumpArea
  nextArea : Nat
  bad : List BadBlock
  roots : List Nat
  rootBad : List Nat
  rebuilding : List Nat
  gc : List Nat
  dirtyTables : List (Nat × Nat)
  suspends : List (Nat × Nat)
  stages : List (Nat × Nat)
  tableFrames : List (Nat × Nat × Nat)
  formatted : Bool
  flash : List Codeword
  state2 : List ((Nat × Nat) × Nat)
  tables : List (Nat × Nat × Nat × Nat)
  members : List (Nat × Nat × Nat × Nat)
deriving DecidableEq, Repr

/-! ### Engine feed (chapter 11) -/

/-- A stream's configuration (Table 11.2). -/
structure StreamCfg where
  num : Nat
  bpn : Nat
  stb : Nat
  pos : Nat
  fifo : Nat
  src : Nat
  key : Nat
  pitch : Nat
  lines : Nat
  tmin : Nat
  skip : Nat
  low : Nat
  base : Nat
deriving DecidableEq, Repr

/-- A staged raster line (R306): its index, the map bank it was staged with, its payload. -/
structure Staged where
  idx : Nat
  bank : Nat
  data : List Byte
deriving DecidableEq, Repr

/-- A stream (Table 11.3; a FREE one is not listed): st 1 IDLE, 2 FILLING, 3 ARMED, 4 RUNNING, 5 STOPPING. Next sequence, SKIP
remaining, lines sent; FIFO depth and LOW in force; staged lines; slots reserved with the line indices of the reads in flight; the next line
to read; near-tier frame of its FIFO; panic, on the spare, map bank and a switch pending from a sequence; the frame in
progress (sequence, index, underrun, on the spare); strobe edges waiting for its end; the cause it stops with; sequences sent lately with their times; the FEED_START that waits: the SEQ of the record that carries it to the STANDBY, since when,
what the STANDBY reported. -/
structure FStream where
  cfg : StreamCfg
  st : Nat
  seq : Nat
  skip : Nat
  sent : Nat
  depth : Nat
  low : Nat
  staged : List Staged
  reserved : Nat
  flight : List Nat
  nextRead : Nat
  frame : Option Nat
  panic : Bool
  spare : Bool
  bank : Nat
  switch : Option Nat
  out : Option (Nat × Nat × Bool)
  early : Nat
  cause : Nat
  recent : List (Nat × Nat)
  asked : Option Nat
  startedAt : Nat
  reported : Option Bool
deriving DecidableEq, Repr

/-- A tile's feed beside its registers: last accepted index pulse, whether it is matched, edges of each strobe since; the lane that
the spare stands for or is brought up for, since when, whether it is in service, whether its streams go back, the lane a command asked to spare; when each lane
(0 to 4) last gave a valid status frame or was powered; recent errors (lane, time, count); last status frames by lane. -/
structure FeedTile where
  tile : Nat
  idxAt : Option Nat
  matched : Bool
  edges0 : Nat
  edges1 : Nat
  spareFor : Option Nat
  spareAt : Nat
  spareUp : Bool
  back : Bool
  lastOk : List (Nat × Nat)
  errs : List (Nat × Nat × Nat)
  status : List (Nat × List Byte)
deriving DecidableEq, Repr

/-- The feed: streams, tiles, link retirements by hop (from × 8 + to, links out of service; R18), and streams that ended while no notification may leave (R327). -/
structure Feed where
  streams : List FStream
  tiles : List FeedTile
  hops : List (Nat × Nat)
  ended : List (Nat × Nat × Nat × Nat)
deriving DecidableEq, Repr


/-- The block. Its fields are said at their types; `free` values are told apart by `freeCtr` (DESIGN CHOICE, log entry 6). -/
structure State where
  /-- the commands waiting, first in, first out -/
  pending : List Instr
  /-- model time since VAON rose, in µs (DESIGN CHOICE, log entry 5) -/
  now : Nat
  /-- tiles in the package: 2, 4 or 8 (R2) -/
  tiles : Nat
  /-- how many open values have been drawn (DESIGN CHOICE, log entry 6) -/
  freeCtr : Nat
  /-- Control Space by address (R352), without the words at their reset value -/
  regs : List (Nat × Word)
  /-- tiers, store and nozzle maps by key (`memKey`), without the bytes at their erased value -/
  mem : List Host.Cell
  /-- the OTP row's fuses, primary copy at 0 and copy at 4096 (R426); an unlisted byte is 0 -/
  otp : List Host.Cell
  /-- the event recorder -/
  recd : Recorder
  /-- mailboxes and sessions -/
  mb : Mailboxes
  /-- the key-slot engine -/
  kse : Kse
  /-- the store arrays by tile -/
  nvs : List (Nat × NvsTile)
  /-- the records kept in the store -/
  nv : Nv
  /-- start-up -/
  boot : Startup
  /-- power, board levels and sleep -/
  pow : Power
  /-- the two-wire target -/
  twb : TwoWire
  /-- what the device has sent or driven, newest first (DESIGN CHOICE, log entry 4) -/
  out : List Out
  /-- regions, homes, plans and moves -/
  ams : Ams
  /-- the tier caches -/
  cache : CacheSt
  /-- tokens, generations, images and dumps -/
  firn : Firn
  /-- Freeze -/
  frzRun : FreezeRun
  /-- portions, QPs, capsules and chain queues -/
  net : Net
  /-- the twin arbiter and links -/
  twin : Twin
  /-- the board's population (DESIGN CHOICE, log entry 18) -/
  board : Board
  /-- the DDR5 channels that hold more than an idle channel -/
  dram : List DramCh
  /-- the integrity blocks -/
  dec : DecSt
  /-- the deep-tier managers -/
  deep : DeepSt
  /-- the engine feed -/
  feed : Feed
deriving DecidableEq, Repr

/-- The fuses of the model's part as the maker leaves them: the identity granule of a BX-8 at revision B in both copies, with
UNIT_ID, MAC_BASE and ENTERPRISE 0, and key hash, seeds and trims 0, each granule with its CRC (Table 16.3; DESIGN CHOICE, log entry 3). -/
def otpReset : List Host.Cell :=
  [(0, 66), (1, 79), (2, 84), (3, 80), (4, 1), (5, 8), (6, 66), (7, 8), (60, 101), (61, 20), (62, 186), (63, 38)] ++
  [(124, 8), (125, 137), (126, 18), (127, 4), (188, 8), (189, 137), (190, 18), (191, 4), (252, 8), (253, 137), (254, 18), (255, 4)] ++
  [(316, 8), (317, 137), (318, 18), (319, 4), (380, 8), (381, 137), (382, 18), (383, 4), (444, 8), (445, 137), (446, 18), (447, 4)] ++
  [(508, 8), (509, 137), (510, 18), (511, 4), (572, 8), (573, 137), (574, 18), (575, 4), (636, 8), (637, 137), (638, 18), (639, 4)] ++
  [(700, 8), (701, 137), (702, 18), (703, 4), (764, 8), (765, 137), (766, 18), (767, 4), (4096, 66), (4097, 79), (4098, 84), (4099, 80)] ++
  [(4100, 1), (4101, 8), (4102, 66), (4103, 8), (4156, 101), (4157, 20), (4158, 186), (4159, 38), (4220, 8), (4221, 137), (4222, 18), (4223, 4)] ++
  [(4284, 8), (4285, 137), (4286, 18), (4287, 4), (4348, 8), (4349, 137), (4350, 18), (4351, 4), (4412, 8), (4413, 137), (4414, 18), (4415, 4)] ++
  [(4476, 8), (4477, 137), (4478, 18), (4479, 4), (4540, 8), (4541, 137), (4542, 18), (4543, 4), (4604, 8), (4605, 137), (4606, 18), (4607, 4)] ++
  [(4668, 8), (4669, 137), (4670, 18), (4671, 4), (4732, 8), (4733, 137), (4734, 18), (4735, 4), (4796, 8), (4797, 137), (4798, 18), (4799, 4)] ++
  [(4860, 8), (4861, 137), (4862, 18), (4863, 4)]

/-- The block right after power-on reset, as the spec leaves it: every register at its Reset column (so `regs` lists
nothing and MGT.STATE.DSTATE reads BOOT), memory with nothing listed, a new store, no session, no partner heard. The
part is a BX-8 at revision B (DESIGN CHOICE, log entry 3); the log names every other value the spec does not give. -/
def State.reset : State where
  pending := []
  now := 0
  tiles := 8
  freeCtr := 0
  regs := []
  mem := []
  otp := otpReset
  recd := ⟨[], [], none, 0, [], none, false⟩
  mb := ⟨[], [], [], 0, [], [], [], [], [], [], false⟩
  kse := ⟨[], 0, 0, [], []⟩
  nvs := []
  nv := ⟨[], [⟨0, false, 0, false, 0, true⟩, ⟨0, false, 0, false, 0, true⟩], [], [], [], 1, 1, 0, 0, [], 0, [], [], [], [], [], [], [], [], [], [], [], [], [], [], []⟩
  boot := ⟨1, [], [], false, false, false, false, none, 0, none, [], []⟩
  pow := ⟨true, true, false, false, false, 0, 16, 0, [], false, false, none, 0, 0, 0, 0, 0, 0, [], false⟩
  twb := ⟨[], none, [], none, 0, 0, 0, false, 0, false, 100⟩
  out := []
  ams := ⟨[], [], [], [], [], [], none, [], [], [], [], []⟩
  cache := ⟨[], [], [], [], [], [], []⟩
  firn := ⟨[], [], [], [], [], [], [], [], [], [], [], none, [], [], [], []⟩
  frzRun := ⟨0, 0, false, [], [], [], false, false, 0, false, 0⟩
  net := ⟨[], 1, [], [], [], [], [], [], [], []⟩
  twin := ⟨[], none, 0, none, 0, true, 0, 0, false, 0, true, some 0, 0, 0, none, none, none, 0, 0, 0, 0, 0, false, 0, 0, 0, 0, false, false, false, false, [], none, []⟩
  board := ⟨2, 4, 64, 16, 256, 6400, [], [], ⟨0, [0, 0, 0, 0, 0, 0], 4, 16384, 2048, true⟩, [], [], 1⟩
  dram := []
  dec := ⟨[], [], [], [], [], [], [], [], [], [], [], [], [], [], [], []⟩
  deep := ⟨[], [], [], 1, [], [], [], [], [], [], [], [], [], false, [], [], [], []⟩
  feed := ⟨[], [], [], []⟩

end Sys2Proof.Machine
end

