-- ==== Sys2Proof/Machine/Flags.lean ====
section
/-! DEFINITION. Reading and changing the registers (R9, R10, R13, R352 to R356), event bits and event counters, and the
coded states they hold. -/

namespace Sys2Proof.Machine

/-- The address of a register (R352). -/
def regKey (t blk off : Nat) : Nat := t * 2 ^ 28 + blk * 2 ^ 20 + off

/-- The word of a register. -/
def State.word (s : State) (t blk off : Nat) : Word :=
  amapGet (regResetWord blk off) s.regs (regKey t blk off)

/-- A register with its word replaced. -/
def State.setWord (s : State) (t blk off : Nat) (v : Word) : State :=
  { s with regs := amapSet (regResetWord blk off) s.regs (regKey t blk off) v }

/-- The value of a field on tile t. -/
def State.fld (s : State) (t : Nat) (f : Fld) : Nat := wordField (s.word t f.blk f.off) f.lo f.w

/-- A field on tile t set to v, modulo its range. -/
def State.setF (s : State) (t : Nat) (f : Fld) (v : Nat) : State :=
  s.setWord t f.blk f.off (wordSet (s.word t f.blk f.off) f.lo f.w v)

/-- Whether a field is not 0. -/
def State.flag (s : State) (t : Nat) (f : Fld) : Bool := s.fld t f != 0

/-- Several fields of tile t set in order. -/
def State.setFs (s : State) (t : Nat) (l : List (Fld × Nat)) : State :=
  l.foldl (fun a e => a.setF t e.1 e.2) s

/-- A saturating counter raised by n. -/
def State.bump (s : State) (t : Nat) (f : Fld) (n : Nat) : State :=
  s.setF t f (min (s.fld t f + n) (2 ^ f.w - 1))

/-- A saturating counter lowered by n, not below 0. -/
def State.drop (s : State) (t : Nat) (f : Fld) (n : Nat) : State := s.setF t f (s.fld t f - n)

/-- The event counter of a block (Table 12.10). -/
def evtCnt (blk : Nat) : Fld := ⟨blk, 0xffc, 0, 32⟩

/-- Hardware sets an EVENTS bit; the block counts the setting (R355). -/
def State.ev (s : State) (t : Nat) (f : Fld) : State := (s.setF t f 1).bump t (evtCnt f.blk) 1

/-- f done for every tile in ascending order. -/
def State.allTiles (s : State) (f : Nat → State → State) : State :=
  (List.range s.tiles).foldl (fun a t => f t a) s

/-- A field set on every tile. -/
def State.setAll (s : State) (f : Fld) (v : Nat) : State := s.allTiles (fun t a => a.setF t f v)

/-- Whether p holds of some tile. -/
def State.anyTile (s : State) (p : Nat → Bool) : Bool := (List.range s.tiles).any p

/-- Whether p holds of every tile. -/
def State.everyTile (s : State) (p : Nat → Bool) : Bool := (List.range s.tiles).all p

/-- Device states (Table 12.4). -/
inductive DState
  | off | aonOnly | boot | selftest | restore | service | restricted | freeze | s1 | s2 | s3 | fault
deriving DecidableEq, Repr

/-- The code of a device state. -/
def DState.code : DState → Nat
  | off => 0 | aonOnly => 1 | boot => 2 | selftest => 3 | restore => 4 | service => 5
  | restricted => 6 | freeze => 7 | s1 => 8 | s2 => 9 | s3 => 10 | fault => 11

/-- The device state of a code; Table 12.4 uses 0 to 11. -/
def DState.ofCode : Nat → DState
  | 0 => off | 1 => aonOnly | 2 => boot | 3 => selftest | 4 => restore | 5 => service
  | 6 => restricted | 7 => freeze | 8 => s1 | 9 => s2 | 10 => s3 | _ => fault

/-- The device state (R341). -/
def State.dstate (s : State) : DState := DState.ofCode (s.fld 0 MGT.STATE.DSTATE)

/-- Twin roles (Table 10.4, as TWA.STATUS.ROLE codes them). -/
inductive TRole
  | none | active | standby | solo | syncing
deriving DecidableEq, Repr

/-- The code of a twin role. -/
def TRole.code : TRole → Nat
  | none => 0 | active => 1 | standby => 2 | solo => 3 | syncing => 4

/-- The twin role of a code. -/
def TRole.ofCode : Nat → TRole
  | 1 => active | 2 => standby | 3 => solo | 4 => syncing | _ => none

/-- The twin role (R341). -/
def State.role (s : State) : TRole := TRole.ofCode (s.fld 0 TWA.STATUS.ROLE)

/-- Freeze engine states (Table 7.13). -/
inductive FState
  | armed | notArmed | stopping | draining | dumping | sealing | sealed | collapsed
deriving DecidableEq, Repr

/-- The code of a freeze engine state. -/
def FState.code : FState → Nat
  | armed => 0 | notArmed => 1 | stopping => 2 | draining => 3 | dumping => 4 | sealing => 5 | sealed => 6
  | collapsed => 7

/-- The freeze engine state of a code. -/
def FState.ofCode : Nat → FState
  | 0 => armed | 1 => notArmed | 2 => stopping | 3 => draining | 4 => dumping | 5 => sealing | 6 => sealed
  | _ => collapsed

/-- The freeze engine state of tile t. -/
def State.frz (s : State) (t : Nat) : FState := FState.ofCode (s.fld t FRZ.STATUS.STATE)

/-- Whether a cause bit of Table 12.6 is set. -/
def State.cause (s : State) (n : Nat) : Bool := (s.fld 0 MGT.STATE.CAUSE).testBit n

/-- A cause bit set or cleared. -/
def State.setCause (s : State) (n : Nat) (b : Bool) : State :=
  s.setF 0 MGT.STATE.CAUSE (setBit (s.fld 0 MGT.STATE.CAUSE) n b)

/-- Whether a RESTRICTED cause is set (Table 12.6: bits 0 to 2). -/
def State.restrictedCause (s : State) : Bool := s.fld 0 MGT.STATE.CAUSE % 8 != 0

/-- Runs a meaning for a tile the package has; at an absent tile it has no effect (R11). -/
def onTile (t : Nat) (s : State) (x : State) : Host.Outcome State Fault Refusal :=
  .next (if t < s.tiles then x else s)

/-- Runs a meaning for a tile and a unit of it, of which a tile has n; an absent one has no effect (R11). -/
def onUnit (t u n : Nat) (s : State) (x : State) : Host.Outcome State Fault Refusal :=
  .next (if t < s.tiles then (if u < n then x else s) else s)

end Sys2Proof.Machine
end

