-- ==== Sys2Proof/Machine/Requester.lean ====
section
/-! DEFINITION. What the device sends on a QP: packets, and its own requests with their go-back-N record (R214, R224). -/

namespace Sys2Proof.Machine

/-- Sends or drives something (DESIGN CHOICE, log entry 4). -/
def State.send (s : State) (o : Out) : State := { s with out := o :: s.out }

/-- The network group changed. -/
def State.updNet (s : State) (f : Net → Net) : State := { s with net := f s.net }

/-- A QP. -/
def State.qp (s : State) (n : Nat) : Option Qp := s.net.qps.find? (fun q => q.qpn == n)

/-- A QP changed. -/
def State.updQp (s : State) (n : Nat) (f : Qp → Qp) : State :=
  s.updNet (fun x => { x with qps := x.qps.map (fun q => if q.qpn = n then f q else q) })

/-- The tile and port that a QPN names (R214). -/
def qpTile (n : Nat) : Nat := n / 2 ^ 21
def qpPort (n : Nat) : Nat := n / 2 ^ 20 % 2

/-- The path MTU in bytes (R211). -/
def Qp.mtuBytes (q : Qp) : Nat := 1024 * 2 ^ q.mtu

/-- How far PSN b lies after PSN a (R218). -/
def psnDist (a b : Nat) : Nat := (b + 2 ^ 24 - a % 2 ^ 24) % 2 ^ 24

/-- Whether PSN a comes before PSN b. -/
def psnBefore (a b : Nat) : Bool := decide (1 ≤ psnDist a b) && decide (psnDist a b < 2 ^ 23)

/-- The key of a priority of a port. -/
def prioKey (t port prio : Nat) : Nat := (t * 2 + port) * 8 + prio

/-- A frame leaves a port at a priority, or waits while the peer has paused it (R205). -/
def State.xmit (s : State) (t port prio : Nat) (o : Out) : State :=
  if (s.fld t (ETH.STATUS.TX_PAUSED.inst port)).testBit prio then s.updNet (fun x => { x with txq := x.txq ++ [(prioKey t port prio, o)] })
  else (s.bump t (ETH.TX_FRAMES.COUNT.inst port) 1).send o

/-- A packet leaves on a QP (DESIGN CHOICE, log entry 4): opcode of Table 8.2, PSN, AETH syndrome, extension header and payload. CNPs and other packets
take the priorities and DSCPs of `ETH.PRIO`; the UDP source port is one value per connection (R203). -/
def State.packet (s : State) (q : Qp) (opcode psn syn : Nat) (data : List Byte) : State :=
  let t := qpTile q.qpn
  let p := qpPort q.qpn
  let c := opcode == 0x81
  s.xmit t p (s.fld t ((if c then ETH.PRIO.CNP_PCP else ETH.PRIO.ROCE_PCP).inst p))
    (.rdma t p q.lport (Config.udpPort q.qpn).toNat (s.fld t ((if c then ETH.PRIO.CNP_DSCP else ETH.PRIO.ROCE_DSCP).inst p)) q.rqpn opcode
      (psn % 2 ^ 24) syn data)

/-- The RETH of a first or only WRITE packet and of a READ request, most significant byte first (R208). -/
def SentPkt.ext (p : SentPkt) : List Byte :=
  if p.opcode = 0x06 || p.opcode = 0x0A || p.opcode = 0x0C then beBytes 8 p.va ++ beBytes 4 p.key ++ beBytes 4 p.len else []

/-- A request packet leaves. -/
def State.transmit (s : State) (q : Qp) (p : SentPkt) : State :=
  s.packet q p.opcode p.psn 0 (p.ext ++ (if p.opcode = 0x0C then [] else p.data))

/-- The PSNs a request packet takes: those of its responses for a READ, else one. -/
def SentPkt.span (p : SentPkt) (mtu : Nat) : Nat := if p.opcode = 0x0C then max 1 (ceilDiv p.len mtu) else 1

/-- A message as packets from a PSN: `base` 0 SEND, 6 WRITE. -/
def segment (mtu psn base va key por : Nat) (bs : List Byte) : List SentPkt :=
  let cs := chunks mtu (bs.length / mtu + 1) bs
  cs.zipIdx.map (fun (c, i) =>
    let k := if cs.length = 1 then 4 else if i = 0 then 0 else if i + 1 = cs.length then 2 else 1
    ⟨(psn + i) % 2 ^ 24, base + k, va, key, bs.length, c, por⟩)

/-- Requests leave on a QP in order and are kept until they are acknowledged. -/
def State.request (s : State) (n : Nat) (ps : List SentPkt) : State :=
  match s.qp n with
  | none => s
  | some q =>
    let s1 := s.updQp n (fun x => { x with
      sent := x.sent ++ ps
      sentAt := if x.sent.isEmpty then s.now else x.sentAt
      spsn := (x.spsn + (ps.map (fun p => p.span q.mtuBytes)).sum) % 2 ^ 24 })
    ps.foldl (fun a p => a.transmit q p) s1

/-- The AETH credit encoding of a host: codes 0 to 16 as R225 lists them, 17 to 30 as the specification goes on. -/
def hostCredits : List Nat :=
  [0, 1, 2, 3, 4, 6, 8, 12, 16, 24, 32, 48, 64, 96, 128, 192, 256, 384, 512, 768, 1024, 1536, 2048, 3072, 4096, 6144, 8192,
   12288, 16384, 24576, 32768]

/-- SENDs outstanding. -/
def Qp.sendsOut (q : Qp) : Nat := (q.sent.filter (fun p => p.opcode == 2 || p.opcode == 4)).length

/-- Whether a SEND may leave now (R224): 31 is no credit information. -/
def Qp.maySend (q : Qp) : Bool :=
  q.st == 2 && !q.rnrWait && (decide (31 ≤ q.hostCredit) || decide (q.sendsOut < hostCredits.getD q.hostCredit 0))

/-- Messages waiting on a QP leave as SENDs; the first argument bounds them. -/
def State.sendGo (s : State) (n : Nat) : Nat → State
  | 0 => s
  | k + 1 =>
    match s.qp n with
    | none => s
    | some q =>
      match q.cplQ with
      | m :: ms =>
        if q.maySend then
          ((s.updQp n (fun x => { x with cplQ := ms })).request n (segment q.mtuBytes q.spsn 0 0 0 0 m)).sendGo n k
        else s
      | [] => s

/-- Messages that wait on a management QP leave while credit lasts. -/
def State.pumpSend (s : State) (n : Nat) : State := s.sendGo n (((s.qp n).map (fun q => q.cplQ.length)).getD 0)

/-- A frame leaves on the management QP of a mailbox point, if one stands in RTS (R332). -/
def State.pointMsg (s : State) (p : Nat) (bs : List Byte) : State :=
  match s.net.qps.find? (fun q => q.kind == 1 && q.mb == p && q.st == 2) with
  | some q => (s.updQp q.qpn (fun x => { x with cplQ := x.cplQ ++ [bs] })).pumpSend q.qpn
  | none => s

end Sys2Proof.Machine
end

