-- ==== Sys2Proof/Machine/Ops.lean ====
section
/-! DEFINITION. The shared operations: memory, free values, time, event records, notifications, frames and their MACs. -/

namespace Sys2Proof.Machine

/-! ### Memory -/

/-- The memory spaces of a tile: main tier, near tier, deep tier, store, nozzle maps. -/
inductive Space
  | main | near | nvs | nzm
deriving DecidableEq, Repr

/-- The number of a space in a memory key. -/
def Space.code : Space → Nat
  | main => 0 | near => 1 | nvs => 3 | nzm => 4

/-- The key of a byte: space, tile, address local to both. -/
def memKey (sp : Space) (t a : Nat) : Nat := sp.code * 2 ^ 68 + t * 2 ^ 60 + a

/-- What a byte that nothing has written reads as: an erased store word reads all ones (R415); every other space reads
zero (R37; DESIGN CHOICE, log entry 10). -/
def erasedByte (k : Nat) : Byte := if k / 2 ^ 68 = 3 then 0xff#8 else 0#8

/-- The memory is in its canonical form. -/
def Memory.wf (m : List Host.Cell) : Bool := amapWf erasedByte m

/-- A byte of memory. -/
def State.byte (s : State) (sp : Space) (t a : Nat) : Byte :=
  amapGet (erasedByte (memKey sp t a)) s.mem (memKey sp t a)

/-- A byte of memory written. -/
def State.setByte (s : State) (sp : Space) (t a : Nat) (b : Byte) : State :=
  { s with mem := amapSet (erasedByte (memKey sp t a)) s.mem (memKey sp t a) b }

/-- n bytes from address a. -/
def State.bytes (s : State) (sp : Space) (t a : Nat) : Nat → List Byte
  | 0 => []
  | n + 1 => s.byte sp t a :: s.bytes sp t (a + 1) n

/-- Bytes written from address a on. -/
def State.setBytes (s : State) (sp : Space) (t a : Nat) : List Byte → State
  | [] => s
  | b :: bs => (s.setByte sp t a b).setBytes sp t (a + 1) bs

/-- The range [a, a + n) of a space reads erased again: every listed byte of it is dropped. -/
def State.wipe (s : State) (sp : Space) (t a n : Nat) : State :=
  { s with mem := s.mem.filter (fun e => !(decide (memKey sp t a ≤ e.1) && decide (e.1 < memKey sp t (a + n)))) }

/-- The array of tile t. -/
def State.array (s : State) (t : Nat) : NvsTile := amapGet NvsTile.fresh s.nvs t

/-- The array of tile t changed. -/
def State.updArray (s : State) (t : Nat) (f : NvsTile → NvsTile) : State :=
  { s with nvs := amapSet NvsTile.fresh s.nvs t (f (s.array t)) }

/-- Sectors of the store, from the one of address a on, erased: counted in all and for each sector, their marks gone (R415, R423). -/
def State.eraseSectors (s : State) (t a n : Nat) : State :=
  let ns := (List.range (n / 2048)).map (fun i => a / 2048 + i)
  let out := fun (x : Nat) => !(decide (a / 2048 ≤ x) && decide (x < a / 2048 + n / 2048))
  ((s.wipe .nvs t a n).bump t NVS.ERASES.COUNT (n / 2048)).updArray t (fun x =>
    { x with erases := ns.foldl (fun l k => amapSet 0 l k (amapGet 0 l k + 1)) x.erases, halfErased := x.halfErased.filter out,
             marginal := x.marginal.filter out, badWords := x.badWords.filter (fun w => out (w / 256)) })

/-- Bytes programmed into erased words of the store, each word counted once (R420). -/
def State.programBytes (s : State) (t a : Nat) (bs : List Byte) : State :=
  (s.setBytes .nvs t a bs).bump t NVS.PROGRAMS.COUNT ((a + bs.length + 7) / 8 - a / 8)

/-- Whether a word of the store reads erased (R415, R420). -/
def State.wordErased (s : State) (t w : Nat) : Bool :=
  (s.bytes .nvs t (w * 8) 8).all (fun b => b == 0xff#8) && !(s.array t).badWords.contains w

/-- The words of the store that n bytes from a touch read erased. -/
def State.rangeErased (s : State) (t a n : Nat) : Bool :=
  (List.range ((a + n + 7) / 8 - a / 8)).all (fun i => s.wordErased t (a / 8 + i))

/-- An OTP byte of copy c (0 primary, 1 copy). -/
def State.otpByte (s : State) (c a : Nat) : Byte := amapGet 0 s.otp (c * 4096 + a)

/-- n OTP bytes of copy c from offset a. -/
def State.otpBytes (s : State) (c a : Nat) : Nat → List Byte
  | 0 => []
  | n + 1 => s.otpByte c a :: s.otpBytes c (a + 1) n

/-- Fuses an OTP byte: a programmed bit stays programmed (R426). -/
def State.fuse (s : State) (c a : Nat) (b : Byte) : State :=
  { s with otp := amapSet 0 s.otp (c * 4096 + a) (s.otpByte c a ||| b) }

/-- Fuses bytes from offset a on. -/
def State.fuseBytes (s : State) (c a : Nat) : List Byte → State
  | [] => s
  | b :: bs => (s.fuse c a b).fuseBytes c (a + 1) bs

/-- The copy a granule is served from (R427). -/
def State.fromCopy (s : State) (g : Nat) : Nat :=
  let w := if g < 32 then s.fld 0 OTP.STATUS_LO.FROM_COPY else s.fld 0 OTP.STATUS_HI.FROM_COPY
  if w.testBit (g % 32) then 1 else 0

/-- A granule as served. -/
def State.granule (s : State) (g : Nat) : List Byte := s.otpBytes (s.fromCopy g) (g * 64) 64

/-! ### Free values and time -/

/-- The next free value (DESIGN CHOICE, log entry 6) and the state that has used it. -/
def State.draw (s : State) : Nat × State := (Config.free s.freeCtr, { s with freeCtr := s.freeCtr + 1 })

/-! ### Monitors (DESIGN CHOICE, log entry 6) -/

/-- Fields that hold an analogue reading, which the spec gives no value. -/
def sensed : List Fld :=
  [PWC.RAIL_V.MEAS_MV, PWC.RAIL_V.MEAS_MV.up 4, PWC.RAIL_V.MEAS_MV.up 8, PWC.RAIL_V.MEAS_MV.up 12, PWC.RAIL_I.DECIAMP, PWC.RAIL_I.DECIAMP.up 4,
   PWC.RAIL_I.DECIAMP.up 8, PWC.RAIL_I.DECIAMP.up 12, PWC.TILE_P.DECIWATT, BST.MON.VAON_MV, BST.HU.MV]

/-- A reading taken: the field holds a free value. -/
def State.sense (s : State) (t : Nat) (f : Fld) : State :=
  let (v, s1) := s.draw
  s1.setF t f v

/-- The readings in a register are taken. -/
def State.senseReg (s : State) (t blk off : Nat) : State :=
  (sensed.filter (fun f => f.blk == blk && f.off == off)).foldl (fun a f => a.sense t f) s

/-! ### Time -/

/-- Powered time (R433), µs. -/
def State.ptime (s : State) : Nat := (s.now - s.pow.spanAt) % 2 ^ 48

/-- Calendar time (R434), ms; 0 while unset. -/
def State.ctime (s : State) : Nat :=
  match s.recd.base with
  | some (b, p) => (b + (s.ptime + 2 ^ 48 - p) % 2 ^ 48 / 1000) % 2 ^ 48
  | none => 0

/-- The elapsed-time counter (R382), ticks of 1/32,768 s since VAON rose. -/
def State.etc (s : State) : Nat := (s.now - s.pow.vaonAt) * 32768 / 1000000 % 2 ^ 48

/-- The key of a field of tile t in the stored configuration. -/
def cfgKey (t : Nat) (f : Fld) : Nat := (((t * 256 + f.blk) * 4096 + f.off) * 32) + f.lo

/-- The key of a configuration value that no register holds: item n of tile t. -/
def cfgItem (t n : Nat) : Nat := 2 ^ 40 + t * 2 ^ 20 + n

/-- A configuration value, if one is stored. -/
def State.cfg (s : State) (k : Nat) : Option Nat := amapFind k s.nv.cfg

/-- Stores a configuration value. -/
def State.setCfg (s : State) (k v : Nat) : State :=
  { s with nv := { s.nv with cfg := amapInsert k v (amapErase k s.nv.cfg) } }

/-- Sets a field and stores it in the configuration. -/
def State.config (s : State) (t : Nat) (f : Fld) (v : Nat) : State := (s.setF t f v).setCfg (cfgKey t f) v

/-- Sets a field on every tile and stores it. -/
def State.configAll (s : State) (f : Fld) (v : Nat) : State := s.allTiles (fun t a => a.config t f v)

/-! ### Event records (R438, R439, R443, R446) -/

/-- A record as tile t stamps it now. -/
def State.stamp (s : State) (t src code sev arg : Nat) : EvRec :=
  { ptime := s.ptime, ctime := s.ctime, tq := s.recd.base.isSome, coarse := s.recd.coarse, denied := false,
    sev := sev, source := src, code := code, rep := 1, roleSession := 0, arg := t * 2 ^ 60 + arg % 2 ^ 60, solo := false }

/-- An event is dropped because the queue of tile t, or tile 0's ring queue, is full (R446). -/
def State.loseEvent (s : State) (t : Nat) : State :=
  ({ s with recd := { s.recd with lost := s.recd.lost + 1 } }.ev t EVR.EVENTS.LOST).bump t EVR.LOST.COUNT 1

/-- An event record enters tile t's queue of 64, or is dropped and counted (R443, R446). -/
def State.enqueueRec (s : State) (t : Nat) (r : EvRec) : State :=
  if (s.recd.tileQ.filter (fun e => e.1 == t)).length < 64 then
    { s with recd := { s.recd with tileQ := s.recd.tileQ ++ [(t, r)] } }
  else { s with recd := { s.recd with lostTiles := s.recd.lostTiles.erase t ++ [t] } }.loseEvent t

/-- A named event of Table 17.3: source, code, severity, detail. -/
def State.named (s : State) (t src code sev arg : Nat) : State := s.enqueueRec t (s.stamp t src code sev arg)

/-- An event whose rule sets an EVENTS bit and records it: the bit, and a record with the bit's code (R439; its severity
is open, DESIGN CHOICE, log entry 9). -/
def State.evRec (s : State) (t : Nat) (f : Fld) (arg : Nat) : State :=
  (s.ev t f).enqueueRec t (s.stamp t f.blk f.lo (1 + Config.bitSeverity f.blk f.lo % 5) arg)

/-- An event that a rule records without an EVENTS bit or a named code: its CODE and severity are open (DESIGN CHOICE, log entry 9). -/
def State.recOpen (s : State) (t src arg : Nat) : State :=
  let (c, s1) := s.draw
  s1.enqueueRec t (s1.stamp t src (c % 65536) (1 + Config.bitSeverity src 32 % 5) arg)

/-! ### AES-CMAC (R346, R402) -/

/-- A block of 16 bytes as a number, byte 0 least significant. -/
def blockOf (bs : List Byte) : BitVec 128 := BitVec.ofNat 128 (leNat (bytesAt bs 0 16))

/-- The bytes of a block. -/
def blockBytes (b : BitVec 128) : List Byte := leBytes 16 b.toNat

/-- Doubling in GF(2^128), the most significant bit of byte 0 first (NIST SP 800-38B). -/
def gfDouble (b : BitVec 128) : BitVec 128 :=
  let v := BitVec.ofNat 128 (beNat (blockBytes b))
  let d := (v <<< 1) ^^^ (if v.msb then 0x87#128 else 0#128)
  blockOf (beBytes 16 d.toNat)

/-- The CMAC chain over a message, from chaining value x; the first argument bounds the blocks. -/
def cmacGo (enc : BitVec 128 → BitVec 128) (k1 k2 : BitVec 128) : Nat → BitVec 128 → List Byte → BitVec 128
  | 0, x, _ => x
  | n + 1, x, m =>
    if m.length ≤ 16 then
      if m.length = 16 then enc (x ^^^ blockOf m ^^^ k1) else enc (x ^^^ blockOf (m ++ [0x80#8]) ^^^ k2)
    else cmacGo enc k1 k2 n (enc (x ^^^ blockOf m)) (m.drop 16)

/-- AES-CMAC of a message (R402). -/
def cmac (enc : BitVec 128 → BitVec 128) (m : List Byte) : BitVec 128 :=
  let k1 := gfDouble (enc 0)
  cmacGo enc k1 (gfDouble k1) (m.length / 16 + 1) 0 m

/-- AES-128 under a session key. -/
def aes128 (k : BitVec 128) : BitVec 128 → BitVec 128 := Config.aesEnc false (k.setWidth 256)

/-! ### Frames and notifications (R334, R337, R340, R346) -/

/-- Header bytes 0x00 to 0x2F (Table 12.2). -/
def headerBytes (f : Frame) : List Byte :=
  leBytes 2 f.opcode ++ leBytes 1 f.flags ++ leBytes 1 f.version ++ leBytes 4 f.tag ++ leBytes 4 f.session ++
  leBytes 2 f.payload.length ++ leBytes 2 f.status ++ leBytes 4 f.ctr ++ leBytes 1 f.dstate ++ leBytes 1 f.trole ++
  leBytes 26 f.rsv

/-- The MAC of a frame under a session key (R346). -/
def frameMac (k : BitVec 128) (f : Frame) : BitVec 128 := cmac (aes128 k) (headerBytes f ++ f.payload)

/-- A whole frame. -/
def frameBytes (f : Frame) : List Byte := headerBytes f ++ blockBytes f.mac ++ f.payload

/-- The open session of a point. -/
def State.sessionAt (s : State) (p : Nat) : Option Session := s.mb.sessions.find? (fun x => x.point == p)

/-- Replaces the session of a point by f of it. -/
def State.updSession (s : State) (p : Nat) (f : Session → Session) : State :=
  { s with mb := { s.mb with sessions := s.mb.sessions.map (fun x => if x.point == p then f x else x) } }

/-- The notification frame of a session. -/
def State.ntfFrame (s : State) (x : Session) (opcode : Nat) (pl : List Byte) : Frame :=
  let f : Frame := { point := x.point, opcode := opcode, flags := 2, version := 1, tag := 0, session := x.id, status := 0,
                     ctr := x.notifyCtr, dstate := s.fld 0 MGT.STATE.DSTATE, trole := s.fld 0 TWA.STATUS.ROLE, rsv := 0,
                     mac := 0, payload := pl }
  { f with mac := frameMac x.key f }

/-- A notification lost: it has used its number and is counted (R340). -/
def State.ntfDrop (s : State) : State := (s.ev 0 MGT.EVENTS.NOTIFY_DROP).bump 0 MGT.NOTIFY_DROP.COUNT 1

/-- Delivers a notification to one session: MB0 by its 16-entry queue, MB1 to MB14 by a SEND of its QP (R340). -/
def State.deliver (s : State) (x : Session) (opcode : Nat) (pl : List Byte) : State :=
  let fr := frameBytes (s.ntfFrame x opcode pl)
  let s1 := s.updSession x.point (fun y => { y with notifyCtr := y.notifyCtr + 1 })
  if x.point = 0 then
    if s1.mb.ntf0.length < 16 then
      { s1 with mb := { s1.mb with ntf0 := s1.mb.ntf0 ++ [fr] }, twb := { s1.twb with due := true } }
    else s1.ntfDrop
  else if s1.flag 0 MGT.MBOX.CONNECTED && (s1.fld 0 MGT.MBOX.CONNECTED).testBit x.point then (s1.send (.mailbox x.point fr)).pointMsg x.point fr
  else s1.ntfDrop

/-- A notification reaches every session that has subscribed to the group of its opcode (R340). -/
def State.notifyNow (s : State) (opcode : Nat) (pl : List Byte) : State :=
  (s.mb.sessions.filter (fun x => x.groups.testBit (opcode / 256))).foldl (fun a x => a.deliver x opcode pl) s

/-- A notification; from step 1 of a sleep entry until the next wake it waits (R387). -/
def State.notify (s : State) (opcode : Nat) (pl : List Byte) : State :=
  if s.pow.target = 0 then s.notifyNow opcode pl
  else { s with mb := { s.mb with sleepQ := s.mb.sleepQ ++ [(opcode, pl)] } }

/-- A notification to the session of one point, whatever it has subscribed to. -/
def State.notifyPoint (s : State) (p opcode : Nat) (pl : List Byte) : State :=
  match s.sessionAt p with
  | some x => s.deliver x opcode pl
  | none => s

/-- The device state changes (R342): the event bit, the named record and the notification. -/
def State.toState (s : State) (d : DState) : State :=
  let o := s.fld 0 MGT.STATE.DSTATE
  if o = d.code then s else
  let s1 := (s.setF 0 MGT.STATE.DSTATE d.code).ev 0 MGT.EVENTS.STATE_CHANGE
  let c := s1.fld 0 MGT.STATE.CAUSE
  (s1.named 0 0x02 0x0100 2 (o + d.code * 256 + c * 65536)).notify 0x00F2
    (build339 [(1, o), (1, d.code), (1, s1.fld 0 TWA.STATUS.ROLE), (1, 0), (2, c)])

/-! ### Port addresses (R202, R428) -/

/-- The configuration items of a logical port: 0 unit address, 1 service address, 2 service MAC, 3 VLAN. -/
def addrItem (t port lp k : Nat) : Nat := cfgItem t (8192 + (port * 4 + lp) * 8 + k)

/-- The base MAC address of the unit (Table 16.3), most significant byte first. -/
def State.macBase (s : State) : Nat := beNat (bytesAt (s.granule 0) 0x10 6)

/-- The unit MAC address of a host logical port, and that of a twin port (R428). -/
def State.unitMac (s : State) (t port lp : Nat) : Nat := s.macBase + 16 * t + 4 * port + lp

def State.twlMac (s : State) (t : Nat) : Nat := s.macBase + 16 * t + 8

/-- The MAC and the IP address that a logical port answers for: its service address, or its unit address (R202). -/
def State.addrBytes (s : State) (t port lp : Nat) (service : Bool) : List Byte :=
  let item := fun (k : Nat) => (s.cfg (addrItem t port lp k)).getD 0
  if service then beBytes 6 (item 2) ++ leBytes 16 (item 1) else beBytes 6 (s.unitMac t port lp) ++ leBytes 16 (item 0)

end Sys2Proof.Machine
end

