-- ==== Sys2Proof/Machine/Stream.lean ====
section
/-! DEFINITION. The ordered streams of the twin links as their sender keeps them (R275 to R278, R298): items, records,
frames, credit; and the twin role with its announcements (R274). -/

namespace Sys2Proof.Machine

/-- The groups of the memory side changed. -/
def State.updAms (s : State) (f : Ams → Ams) : State := { s with ams := f s.ams }

def State.updCache (s : State) (f : CacheSt → CacheSt) : State := { s with cache := f s.cache }

def State.updFirn (s : State) (f : Firn → Firn) : State := { s with firn := f s.firn }

def State.updTwin (s : State) (f : Twin → Twin) : State := { s with twin := f s.twin }

/-- A twin link of which nothing has been sent or received. -/
def TwinTile.fresh (t : Nat) : TwinTile :=
  { tile := t, txSeq := 1, txItem := 1, unacked := [], queue := [], rxSeq := 0, rxAcked := 0, rxItem := 1, part := none, items := [],
    rxFrames := [], owed := 0, grantTx := 0, usedTx := 0, grantRx := 0, usedRx := 0, peerGrant := 0, peerUsed := 0, booksOff := false,
    fetches := [], nextFetch := 1, fetchIn := [], lastHb := none, bad := 0, c3Due := [], helloTile := none, upAt := 0, heard := false,
    rxPend := none, txPn := 1 }

/-- The twin link of a tile. -/
def State.twl (s : State) (t : Nat) : TwinTile :=
  (s.twin.tiles.find? (fun x => x.tile == t)).getD (TwinTile.fresh t)

/-- The twin link of a tile changed. -/
def State.updTwl (s : State) (t : Nat) (f : TwinTile → TwinTile) : State :=
  { s with twin := { s.twin with tiles := f (s.twl t) :: s.twin.tiles.filter (fun x => x.tile != t) } }

/-- Whether a tile's twin link is up, secured and paired. -/
def State.linkReady (s : State) (t : Nat) : Bool :=
  s.flag t TWL.STATUS.LINK_UP && s.flag t TWL.STATUS.SECURED && s.flag t TWL.STATUS.PAIRED

/-- The credit units of a MIRROR frame: its header and payload in 256 B units, rounded up (R278; DESIGN CHOICE, log entry 16). -/
def frameUnits (body : List Byte) : Nat := ceilDiv (16 + body.length) 256

/-- A twin frame header (Table 10.1). -/
def twinHeader (type flags tile version seq credit len : Nat) : List Byte :=
  leBytes 1 type ++ leBytes 1 flags ++ leBytes 1 tile ++ leBytes 1 version ++ leBytes 4 seq ++ leBytes 4 credit ++
  leBytes 2 len ++ leBytes 2 0

/-- The transmit packet number of a tile has reached its limit: it does not wrap, and the link carries no further frames until it is rekeyed
(R269). -/
def State.pnSpent (s : State) (t : Nat) : State :=
  if s.flag t TWL.STATUS.SECURED then
    (s.setFs t [(TWL.STATUS.SECURED, 0), (TWL.STATUS.PAIRED, 0), (BCX.STATUS.TX_SA, 0)]).ev t TWL.EVENTS.PN_EXHAUSTED
  else s

/-- A twin frame of tile t leaves under the next packet number, with the credit owed to the partner in its CREDIT field (R269, R278). -/
def State.twinSend (s : State) (t type flags seq : Nat) (body : List Byte) : State :=
  let x := s.twl t
  if 2 ^ 64 - 1 ≤ x.txPn then s.pnSpent t else
  let ver := if type = 1 then 0 else s.twin.version
  let fr := twinHeader type flags t ver seq x.owed body.length ++ body
  ((s.updTwl t (fun y => { y with owed := 0, grantTx := y.grantTx + y.owed, txPn := y.txPn + 1 })).bump t BCX.GCM_TX.COUNT 1).send (.twin t type seq fr)

/-- Sends the frames of a tile's queue for which it holds credit (R278); the first argument bounds them. -/
def State.pumpGo (s : State) (t : Nat) : Nat → State
  | 0 => s
  | n + 1 =>
    match (s.twl t).queue with
    | [] => s
    | f :: fs =>
      let u := frameUnits f.body
      if s.fld t MIR.CREDIT_AVAIL.AVAILABLE < u then s.ev t MIR.EVENTS.CREDIT_WAIT
      else
        let s1 := s.updTwl t (fun y => { y with queue := fs, unacked := y.unacked ++ [{ f with sentAt := s.now, sends := 1 }],
                                                usedTx := y.usedTx + u })
        let s2 := (s1.drop t MIR.CREDIT_AVAIL.AVAILABLE u).bump t MIR.CREDIT_WAIT_US.COUNT (s.now - f.sentAt)
        (s2.twinSend t 0x10 0 f.seq f.body).pumpGo t n

/-- Sends what credit allows. -/
def State.pump (s : State) (t : Nat) : State := s.pumpGo t (s.twl t).queue.length

/-- The records of an item (R298): at most 8,992 bytes of body each, MORE on all but the last. -/
def itemRecords (kind item : Nat) (body : List Byte) : Nat → List (List Byte)
  | 0 => []
  | n + 1 =>
    let b := body.take 8992
    let more := decide (8992 < body.length)
    (leBytes 1 kind ++ leBytes 1 (b2n more) ++ leBytes 2 (8 + b.length) ++ leBytes 4 item ++ b) ::
      (if more then itemRecords kind item (body.drop 8992) n else [])

/-- An item enters tile t's ordered stream, a record to a frame; its number is that of its last frame. -/
def State.emit (s : State) (t kind : Nat) (body : List Byte) : State × Nat :=
  let x := s.twl t
  let rs := itemRecords kind x.txItem (pad8 body) (body.length / 8992 + 1)
  let fs := rs.zipIdx.map (fun (r, i) => (⟨x.txSeq + i, r, s.now, 0⟩ : MFrame))
  let s1 := s.updTwl t (fun y => { y with txSeq := y.txSeq + rs.length, txItem := (y.txItem + 1) % 2 ^ 32,
                                          queue := y.queue ++ fs })
  (s1.pump t, x.txSeq + rs.length - 1)

/-- An item without its number. -/
def State.emit' (s : State) (t kind : Nat) (body : List Byte) : State := (s.emit t kind body).1

/-- Whether this unit feeds the ordered stream: ACTIVE, or SOLO from step 1 of a resynchronisation on (R291). -/
def State.streaming (s : State) : Bool := s.role == .active || (s.role == .solo && decide (1 ≤ s.twin.resync))

/-- An item of Table 10.5, when this unit feeds the stream. -/
def State.mirrorItem (s : State) (t kind : Nat) (body : List Byte) : State :=
  if s.streaming then s.emit' t kind body else s

/-- A command that the ACTIVE executed, as a COMMAND record in tile 0's stream (R298), and the record's number. -/
def State.mirrorCommand (s : State) (f : Frame) (role session : Nat) : Nat × State :=
  let (a, n) := s.emit 0 0x08 (build339 [(1, f.point), (1, role), (4, session)] ++ frameBytes f)
  (n, a)

/-- The pair epoch (R274). -/
def State.epoch (s : State) : Nat := s.fld 0 TWA.EPOCH_LO.EPOCH + s.fld 0 TWA.EPOCH_HI.EPOCH * 2 ^ 32

/-- Stores a pair epoch. -/
def State.setEpoch (s : State) (e : Nat) : State :=
  { s with nv := { s.nv with epoch := e % 2 ^ 64 } }.setFs 0 [(TWA.EPOCH_LO.EPOCH, e), (TWA.EPOCH_HI.EPOCH, e / 2 ^ 32)]

/-- The epoch of a unit that becomes ACTIVE or SOLO: one more than the higher of its own and its partner's last known, sent
in the ordered stream (R274). -/
def State.advanceEpoch (s : State) : State :=
  let e := max s.epoch ((s.twin.peer.map (·.epoch)).getD 0) + 1
  (s.setEpoch e).mirrorItem 0 0x0E (leBytes 8 e)

/-- Running streams of a unit whose role no longer sends go to STOPPING with cause ROLE (R321). -/
def State.stopSending (s : State) : State :=
  { s with feed := { s.feed with streams := s.feed.streams.map (fun x =>
      if x.st = 4 then { x with st := 5, cause := 5, flight := [], reserved := 0, early := 0 } else x) } }

/-- The twin role changes (Table 10.4): event bit, named record, TWIN_ROLE notification, LAST_ROLE. -/
def State.setRole (s : State) (r : TRole) (why : Nat) : State :=
  let o := s.fld 0 TWA.STATUS.ROLE
  if o = r.code then s else
  let s1 := ((if r == TRole.none || r == TRole.syncing then s.stopSending else s).setFs 0
    [(TWA.STATUS.ROLE, r.code), (TWA.STATUS.IN_STEP, b2n (r == .active || r == .standby))]).ev 0 TWA.EVENTS.ROLE_CHANGE
  let s2 := { s1 with
    twin := { s1.twin with standbySince := s1.now, resync := if r == TRole.solo || r == TRole.syncing then s1.twin.resync else 0 },
    nv := { s1.nv with lastRole := if r == TRole.none then s1.nv.lastRole else r.code } }
  (s2.named 0 0x29 0x0101 2 (o + r.code * 16 + s2.epoch % 256 * 256)).notify 0x05F0
    (build339 [(1, o), (1, r.code), (1, why), (8, s2.epoch)])

/-- Drives TW_ACTO (R273, R285): the level, and the gate broadcast to every tile when tile 0 samples it next. -/
def State.driveActo (s : State) (on : Bool) : State :=
  let s1 := s.setFs 0 [(TWA.STATUS.ACTO, b2n on), (TWA.STATUS.ACTO_PAD, b2n on)]
  if on then { s1 with twin := { s1.twin with actoRoseAt := s1.now } } else s1

/-- Begins DEPART for 200 µs (R282); `quiet`: the unit then stays silent. -/
def State.depart (s : State) (quiet : Bool) : State :=
  { s with twin := { s.twin with departUntil := s.now + 200, silent := s.twin.silent || quiet } }

/-- The extents of the mirrored regions. -/
def State.mirroredExts (s : State) : List Nat :=
  (s.ams.regions.filter (fun r => r.cls == 2)).flatMap (fun r => (List.range r.len).map (fun i => r.base / 2 ^ 21 + i))

/-- The divergence word of an extent (R290). -/
def State.divWord (s : State) (e : Nat) : Nat := amapGet 0 s.twin.diverge e

/-- A divergence word written. -/
def State.setDiv (s : State) (e w : Nat) : State := { s with twin := { s.twin with diverge := amapSet 0 s.twin.diverge e w } }

/-- Every divergence bit set (R290). -/
def State.divergeAll (s : State) : State := s.mirroredExts.foldl (fun a e => a.setDiv e (2 ^ 32 - 1)) s

/-- The divergence bit of an atomic unit (AMS atomic unit number). -/
def State.divBit (s : State) (u : Nat) : Bool := (s.divWord (u / 32)).testBit (u % 32)

/-- Sets or clears a divergence bit. -/
def State.setDivBit (s : State) (u : Nat) (b : Bool) : State := s.setDiv (u / 32) (setBit (s.divWord (u / 32)) (u % 32) b)

/-! ### Recovery from the partner (R281, R297) -/

/-- Whether a page's atomic unit is in step (R281); a unit that does not serve keeps no bits of its own. -/
def State.inStep (s : State) (page : Nat) : Bool :=
  match s.role with
  | .active => !s.divBit (page / 16)
  | .solo => !s.divBit (page / 16) && decide (1 ≤ s.twin.resync)
  | .standby => true
  | .syncing => decide (1 ≤ s.twin.resync)
  | .none => false

/-- Whether a page may be fetched from the partner: in step, the tile's link up, secured and paired; not in FREEZE (R131). -/
def State.mayFetch (s : State) (t page : Nat) : Bool := s.dstate != .freeze && s.inStep page && s.linkReady t

/-- A FETCH_REQ for a page (Table 10.16), unless one is outstanding. -/
def State.sendFetch (s : State) (t page : Nat) : State :=
  let x := s.twl t
  if x.fetches.any (fun f => f.page == page) then s else
  (s.updTwl t (fun y => { y with nextFetch := y.nextFetch % (2 ^ 32 - 1) + 1
                                 fetches := y.fetches ++ [⟨y.nextFetch, page, s.now⟩] })).twinSend t 0x20 0 0
    (leBytes 4 x.nextFetch ++ leBytes 4 0 ++ leBytes 8 (page * 4096))

/-! ### Error identifiers (R132, R418) -/

/-- The last counter value issued as a fresh identifier. -/
def lastFresh : Nat := 0x0FFFFFFE

/-- A new error identifier of a tile and the state that has issued it; the shared one, with ERROR_ID_EXHAUSTED once, after the
last. The store reserves 256 values before the first of them is issued. -/
def State.newErrId (s : State) (t : Nat) : Nat × State :=
  let n := amapGet 0 s.nv.errId t
  let r := amapGet 1 s.nv.errResv t
  if n < lastFresh then
    (t * 2 ^ 28 + n + 1, { s with nv := { s.nv with
      errId := amapSet 0 s.nv.errId t (n + 1)
      errResv := if r ≤ n + 1 then amapSet 1 s.nv.errResv t (n + 257) else s.nv.errResv } })
  else
    let s1 := if n = lastFresh then
        { s with nv := { s.nv with errId := amapSet 0 s.nv.errId t (n + 1) } }.named t 0x0B 0x0101 4 n
      else s
    (t * 2 ^ 28 + 0x0FFFFFFF, s1)

/-! ### What the partner has not acknowledged (R290) -/

/-- The atomic units that items of data name in the first of their frames (PORTION, ATOMIC, SNAPSHOT); `last`: the item before. -/
def unitsIn : Option Nat → List MFrame → List Nat
  | _, [] => []
  | last, f :: fs =>
    let item := natAt f.body 4 4
    let k := natAt f.body 0 1
    (if last != some item && (k == 0x01 || k == 0x02 || k == 0x10) then [natAt f.body 8 8 / 65536] else []) ++ unitsIn (some item) fs

/-- The atomic units whose items the partner has not acknowledged, on every tile. -/
def State.unackedUnits (s : State) : List Nat := s.twin.tiles.flatMap (fun x => unitsIn none (x.unacked ++ x.queue))

/-- Their bits are set (R290). -/
def State.divergeUnacked (s : State) : State := s.unackedUnits.foldl (fun a u => a.setDivBit u true) s

/-- A SOLO unit's resynchronisation ends before its time: what the partner may not have taken is to be sent again. -/
def State.stopResync (s : State) : State :=
  (if s.twin.resync = 0 then s else s.divergeUnacked).updTwin (fun x => { x with resync := 0 })

end Sys2Proof.Machine
end

