-- ==== Sys2Proof/Machine/Dramq.lean ====
section
/-! DEFINITION. The DDR5 channels as the memory side meets them: the address map (R88 to R91), the queues of a subchannel, rows
and their counters (R93, R94), the order of service (R95) and the refresh debt (R97). -/

namespace Sys2Proof.Machine

/-! ### Geometry and address map -/

/-- Main-tier bytes of a logical rank (R86). -/
def State.rankBytes (s : State) : Nat := s.board.rankGib * 2 ^ 30

/-- Logical ranks per channel. -/
def State.lranks (s : State) : Nat := s.board.dimms * s.board.ranks

/-- Row bits: 16 with 16 Gb dies, 17 with 32 Gb dies (Table 4.1). -/
def State.rowBits (s : State) : Nat := if s.board.rankGib ≤ 32 then 16 else 17

/-- The channel of a tile-local address and its channel-local address, at granule 2^g (R88). -/
def channelOf (g a : Nat) : Nat × Nat :=
  let q := a / 2 ^ g
  (q % 3, q / 3 * 2 ^ g + a % 2 ^ g)

/-- The tile-local address of a channel-local one (the inverse of R88). -/
def channelBack (g ch l : Nat) : Nat := (3 * (l / 2 ^ g) + ch) * 2 ^ g + l % 2 ^ g

/-- Where a burst lies in its channel (R89). -/
structure Place where
  sub : Nat
  bg : Nat
  col : Nat
  bank : Nat
  row : Nat
  rank : Nat
deriving DecidableEq, Repr

/-- The decode of a channel-local address by ORDER (Table 4.3), with the bank group as the device addresses it (R90). -/
def placeOf (order rowBits rankBits l : Nat) : Place :=
  let x := l / 128
  let wide := order == 0 || order == 2
  let bgf := if wide then x % 8 else x / 128 % 8
  let col := if wide then x / 8 % 128 else x % 128
  let y := x / 1024
  let bank := y % 4
  let z := y / 4
  let low := order == 0 || order == 1
  let row := if low then z % 2 ^ rowBits else z / 2 ^ rankBits % 2 ^ rowBits
  let rank := if low then z / 2 ^ rowBits % 2 ^ rankBits else z % 2 ^ rankBits
  ⟨l / 64 % 2, bgf ^^^ row % 8, col, bank, row, rank⟩

/-- DIMM slot, package rank and chip ID of a RANK number (R91): the slots' ranks one after another; within an RDIMM the low bits select the
chip of a stack, the bit above them the package rank. -/
def State.rankAt (s : State) (r : Nat) : Nat × Nat × Nat :=
  let chips := if s.board.ranks = 8 then 4 else if s.board.ranks = 4 then 2 else 1
  (r / s.board.ranks, r % s.board.ranks / chips, r % chips)

/-- The channel granule of a tile, as a power of two. -/
def State.chGran (s : State) (t : Nat) : Nat := if s.flag t DMC.AMAP.CH_GRAN then 12 else 8

/-- The channel and place of a tile-local address. -/
def State.locate (s : State) (t a : Nat) : Nat × Place :=
  let (c, l) := channelOf (s.chGran t) a
  (c, placeOf (s.fld t DMC.AMAP.ORDER) s.rowBits (Nat.log2 s.lranks) l)

/-! ### Channels -/

/-- A channel of which nothing is kept. -/
def DramCh.idle (t c : Nat) : DramCh :=
  { tile := t, ch := c, trained := [], queue := [], drain := [], rows := [], debts := [], panicAt := none, lastPause := 0,
    pauseTemp := 0, pauseAsked := false, deferAt := none, pauseEnd := 0, chgSet := none, chgBegun := false, repair := none, repairAt := none, credit := [], held := [],
    run := none, temps := [], rankPower := [], vrOff := [] }

/-- A DDR5 channel. -/
def State.dmc (s : State) (t c : Nat) : DramCh :=
  (s.dram.find? (fun x => x.tile == t && x.ch == c)).getD (DramCh.idle t c)

/-- A DDR5 channel changed. -/
def State.updDmc (s : State) (t c : Nat) (f : DramCh → DramCh) : State :=
  { s with dram := f (s.dmc t c) :: s.dram.filter (fun x => !(x.tile == t && x.ch == c)) }

/-- Whether panic marks count: not from the start of Freeze (R99). -/
def State.panicCounts (s : State) : Bool := s.dstate != .freeze

/-- Whether a panic read is queued on a channel (R98). -/
def State.panicOn (s : State) (t c : Nat) : Bool := s.panicCounts && (s.dmc t c).queue.any (fun q => q.panic && !q.write)

/-- The panic level of a channel follows its queue. -/
def State.notePanic (s : State) (t c : Nat) : State :=
  let on := s.panicOn t c
  let s1 := s.setF t (Fld.inst DMC.PANIC.ACTIVE c) (b2n on)
  s1.updDmc t c (fun x => { x with panicAt := if on then some (x.panicAt.getD s.now) else none })

/-- The number of a bank of a channel: subchannel, rank, bank group, bank. -/
def DramReq.bankNo (q : DramReq) : Nat := ((q.sub * 16 + q.rank) * 8 + q.bg) * 4 + q.bank

/-- The counter of a bank after an access to a row (R93). -/
def rowCtr (r : DramRow) (n : Nat) : Nat :=
  if r.row = n then min 3 (r.ctr + 1) else r.ctr - 1

/-- Whether a row stays open after an access (R93): while another queued burst wants it, else by POLICY and the counter. -/
def keepsOpen (policy ctr : Nat) (wanted : Bool) : Bool :=
  wanted || policy == 2 || (policy == 0 && decide (2 ≤ ctr))

/-- A queued burst is served: its bank's row and counter, and the counters of Table 4.13. -/
def State.serveBurst (s : State) (t c : Nat) (q : DramReq) : State :=
  let x := s.dmc t c
  let rest := x.queue.erase q
  let n := q.bankNo
  let old := x.rows.find? (fun r => r.bank == n)
  let hit := old.any (fun r => r.isOpen && r.row == q.row)
  let conflict := old.any (fun r => r.isOpen && r.row != q.row)
  let ctr := (old.map (fun r => rowCtr r q.row)).getD 2
  let wanted := rest.any (fun y => y.bankNo == n && y.row == q.row)
  let keep := keepsOpen (s.fld t (Fld.inst DMC.PAGE.POLICY c)) ctr wanted
  let s1 := s.updDmc t c (fun y => { y with queue := rest, rows := ⟨n, q.row, keep, ctr, s.now⟩ :: y.rows.filter (fun r => r.bank != n) })
  let s2 := if hit then s1.bump t (Fld.inst DMC.ROW_HIT.COUNT c) 1 else s1
  let s3 := if conflict then s2.bump t (Fld.inst DMC.ROW_CONFLICT.COUNT c) 1 else s2
  (if q.panic && s.panicCounts then s3.bump t (Fld.inst DMC.PANIC_READS.COUNT c) 1 else s3).notePanic t c

/-- The write drain of a subchannel starts at WQ_HI and ends at WQ_LO (R95). -/
def State.noteDrain (s : State) (t c sub : Nat) : State :=
  let n := ((s.dmc t c).queue.filter (fun q => q.sub == sub && q.write)).length
  let hi := s.fld t (Fld.inst DMC.SCHED.WQ_HI c)
  let lo := s.fld t (Fld.inst DMC.SCHED.WQ_LO c)
  let new := fun (l : List Nat) => if hi ≤ n then l.erase sub ++ [sub] else if n ≤ lo then l.erase sub else l
  s.updDmc t c (fun x => { x with drain := new x.drain })

/-- Whether a channel admits requests: not during a change of its frequency (R105), nor to a rank in self-refresh or maximum power saving
(R109) or one that a pattern run holds (R102). -/
def DramCh.admits (x : DramCh) (q : DramReq) : Bool :=
  !x.chgBegun && amapGet 0 x.rankPower q.rank == 0 && !x.run.any (fun r => r.1 == q.rank)

/-- Whether two requests are for the same burst. -/
def DramReq.sameBurst (a b : DramReq) : Bool := a.bankNo == b.bankNo && a.row == b.row && a.col == b.col

/-- A burst is queued at its subchannel, or waits where its channel admits none. A queue of 64 that is full serves its oldest first (R94; DESIGN
CHOICE, log entry 21). -/
def State.pushBurst (s : State) (t c : Nat) (q : DramReq) : State :=
  if !(s.dmc t c).admits q then s.updDmc t c (fun x => { x with held := x.held ++ [q] }) else
  let same := (s.dmc t c).queue.filter (fun y => y.sub == q.sub && y.write == q.write)
  let s1 := match same with
    | y :: _ => if 64 ≤ same.length then s.serveBurst t c y else s
    | [] => s
  ((s1.updDmc t c (fun x => { x with queue := x.queue ++ [q] })).noteDrain t c q.sub).notePanic t c

/-- The two bursts of a 128 B access at a tile-local address are queued. A read that matches a queued write is served from the write
queue (R94). -/
def State.askDram (s : State) (t a : Nat) (write : Bool) : State :=
  (List.range 2).foldl (fun x i =>
    let (c, p) := x.locate t (a / 128 * 128 + 64 * i)
    let q : DramReq := ⟨p.sub, p.rank, p.bg, p.bank, p.row, p.col, write, false, x.now⟩
    if !write && ((x.dmc t c).queue ++ (x.dmc t c).held).any (fun y => y.write && y.sameBurst q) then x
    else x.pushBurst t c q) s

/-- The requests that waited at a channel are queued, where it admits them now. -/
def State.admitHeld (s : State) (t c : Nat) : State :=
  (s.dmc t c).held.foldl (fun a q => a.pushBurst t c q) (s.updDmc t c (fun x => { x with held := [] }))

/-- The queued reads of the bursts in tile-local addresses [a, a + n) take or lose the panic mark (R70, R98, R307). -/
def State.markPanic (s : State) (t a n : Nat) (on : Bool) : State :=
  let bursts := (List.range (n / 64 + 1)).map (fun i => s.locate t (a + 64 * i))
  let mark := fun (c : Nat) (q : DramReq) =>
    if !q.write && bursts.any (fun r => r.1 == c && r.2.sub == q.sub && r.2.rank == q.rank && r.2.bg == q.bg && r.2.bank == q.bank &&
      r.2.row == q.row && r.2.col == q.col) then { q with panic := on } else q
  (List.range 3).foldl (fun x c => (x.updDmc t c (fun y =>
    { y with queue := y.queue.map (mark c), held := y.held.map (mark c) })).notePanic t c) s

/-! ### Refresh (R96, R97) -/

/-- A refresh of a rank closes its rows: the four same-bank refreshes of a set reach each of its banks in turn (R93, R96). -/
def State.closeRank (s : State) (t c r : Nat) : State :=
  s.updDmc t c (fun x => { x with rows := x.rows.map (fun y => if y.bank / 32 % 16 = r then { y with isOpen := false } else y) })

/-- The postponed sets of a rank. -/
def State.refDebt (s : State) (t c r : Nat) : Nat := amapGet 0 (s.dmc t c).debts r

/-- The postponed sets of a rank replaced; DMC.REF.DEBT is the largest of the channel. -/
def State.setDebt (s : State) (t c r n : Nat) : State :=
  let s1 := s.updDmc t c (fun x => { x with debts := amapSet 0 x.debts r n })
  s1.setF t (Fld.inst DMC.REF.DEBT c) (((s1.dmc t c).debts.map (·.2)).foldl max 0)

/-- The postponement limit. -/
def State.postMax (s : State) (t c : Nat) : Nat := s.fld t (Fld.inst DMC.REF.POST_MAX c)

/-- A queued burst older than AGE_MAX (class 4 of R95; 100 ns units). -/
def State.aged (s : State) (t c : Nat) (q : DramReq) : Bool :=
  decide (s.fld t (Fld.inst DMC.SCHED.AGE_MAX c) < (s.now - q.born) * 10)

/-- Whether a channel carries traffic: no pause and no frequency change in progress. -/
def State.dmcServes (s : State) (t c : Nat) : Bool := decide ((s.dmc t c).pauseEnd ≤ s.now) && !(s.dmc t c).chgBegun

/-- The bank that a soft repair in progress holds (R111), numbered as in `DramReq.bankNo`. -/
def State.repairBank (s : State) (t c : Nat) : Option Nat :=
  match (s.dmc t c).repair, (s.dmc t c).repairAt with
  | some (w, _), some _ => some (((bitsOf w 25 1 * 16 + bitsOf w 26 4) * 8 + bitsOf w 22 3) * 4 + bitsOf w 20 2)
  | _, _ => none

/-- Whether something postpones refresh on a channel (R97). -/
def State.postpones (s : State) (t c : Nat) : Bool :=
  s.panicOn t c || !(s.dmc t c).drain.isEmpty || (s.dmc t c).queue.any (s.aged t c) || !s.dmcServes t c

/-- A set goes ahead of panic reads because the debt is at the limit: the event, one set less postponed. -/
def State.refreshAhead (s : State) (t c r : Nat) : State :=
  ((s.ev t (Fld.inst DMC.EVENTS.REF_DEBT_MAX c)).closeRank t c r).setDebt t c r (s.refDebt t c r - 1)

/-- A rank owes a set: one that a pause has issued already is paid (R103); else it is postponed, or issued with one postponed set more; at the limit
it goes ahead at once (R97). -/
def State.oweRefresh (s : State) (t c r : Nat) : State :=
  let d := s.refDebt t c r
  if (s.dmc t c).credit.contains r then s.updDmc t c (fun x => { x with credit := x.credit.erase r })
  else if !s.postpones t c then (s.closeRank t c r).setDebt t c r (d - 1)
  else if d < s.postMax t c then
    (if d + 1 = s.postMax t c then (s.setDebt t c r (d + 1)).ev t (Fld.inst DMC.EVENTS.REF_DEBT_MAX c) else s.setDebt t c r (d + 1))
  else (s.ev t (Fld.inst DMC.EVENTS.REF_DEBT_MAX c)).closeRank t c r

/-- A rank whose postponed sets are at the limit. -/
def State.rankAtLimit (s : State) (t c : Nat) : Option Nat :=
  ((s.dmc t c).debts.find? (fun e => decide (0 < e.2) && decide (s.postMax t c ≤ e.2))).map (·.1)

/-! ### Service (R95) -/

/-- What a subchannel does next. -/
inductive DramPick
  | refresh (rank : Nat) | pause | burst (q : DramReq) | nothing
deriving DecidableEq, Repr

/-- Whether a deferred pause is forced (R103). -/
def State.pauseForced (s : State) (t c : Nat) : Bool :=
  match (s.dmc t c).deferAt with
  | some d => decide (d + s.fld t (Fld.inst DMC.RETRAIN.MAX_DEFER c) * 1000 ≤ s.now)
  | none => false

/-- The choice of R95 on a subchannel. A set that is due is issued when it falls due (`State.oweRefresh`), so class 5 holds nothing here. -/
def State.dramPick (s : State) (t c sub : Nat) : DramPick :=
  let x := s.dmc t c
  let mine := x.queue.filter (fun q => q.sub == sub && s.repairBank t c != some q.bankNo)
  let isHit := fun (q : DramReq) => x.rows.any (fun r => r.bank == q.bankNo && r.isOpen && r.row == q.row)
  if !s.dmcServes t c then .nothing else
  match s.rankAtLimit t c with
  | some r => .refresh r
  | none =>
    if s.pauseForced t c then .pause else
    match mine.find? (fun q => q.panic && !q.write && s.panicCounts) with
    | some q => .burst q
    | none => match (if x.drain.contains sub then mine.find? (·.write) else none) with
      | some q => .burst q
      | none => match mine.find? (s.aged t c) with
        | some q => .burst q
        | none =>
          let rd := mine.filter (fun q => !q.write)
          let pool := if rd.isEmpty then mine else rd
          match pool.find? isHit with
          | some q => .burst q
          | none => match pool with
            | q :: _ => .burst q
            | [] => .nothing

end Sys2Proof.Machine
end

