-- ==== Sys2Proof/Machine/Areas.lean ====
section
/-! DEFINITION. What a tile's tiers hold: sizes, the reserved areas of the main tier in its lowest frames, the DTM's translation
area that grows (R32, R107, R127, R147, R150; DEDUCED, log entry 19). -/

namespace Sys2Proof.Machine

/-- Main-tier bytes of a tile (three channels). -/
def State.mainBytes (s : State) : Nat := 3 * s.board.dimms * s.board.ranks * s.board.rankGib * 2 ^ 30

/-- The blocks of a tile that the factory marked, as the store's table has them (R161). -/
def State.factoryOf (s : State) (t : Nat) : List BadBlock := s.nv.factory.filter (fun b => b.tile == t)

/-- Raw blocks of a tile: good ones only (R142), of 2,048 pages of 16 KiB each, in TLC (DESIGN CHOICE, log entry 18). -/
def State.rawBlocks (s : State) (t : Nat) : Nat := 8 * s.board.luns * s.board.lunGib * 32 - (s.factoryOf t).length

/-- Raw deep bytes of a tile (eight channels). -/
def State.rawBytes (s : State) (t : Nat) : Nat := s.rawBlocks t * 2 ^ 25

/-- The user capacity of a tile's deep tier at an over-provisioning (R150). -/
def State.userCapAt (s : State) (t op : Nat) : Nat :=
  (s.rawBytes t * 98 / 100 - 96 * 2 ^ 30) * 7 * (100 - op) / 800

/-- The user capacity of a tile's deep tier. -/
def State.userCap (s : State) (t : Nat) : Nat := s.userCapAt t (s.fld t DTM.CTRL.OP_PCT)

/-- G_max: how many home map level-2 blocks the package holds (R32). -/
def State.gMax (s : State) : Nat :=
  ceilDiv (s.tiles * s.mainBytes + ((List.range s.tiles).map s.userCap).sum) (2 ^ 37) + 64

/-- The capsule store of a tile, MiB (R225). -/
def State.capStoreMb (s : State) (t : Nat) : Nat := (s.cfg (cfgItem t 1)).getD 1024

/-- The first frame of the DEC reserved area: after the home map copy (R127). -/
def State.decFrame (s : State) : Nat := ceilDiv (262144 * s.gMax + 65536) (2 ^ 21)

/-- Bytes of one born-map copy, and of the DEC reserved area: both copies, the spare pool, the test frame (R127). -/
def State.bornBytes (s : State) : Nat := s.mainBytes / 32768

def State.decBytes (s : State) : Nat := 2 * s.bornBytes + 18 * 2 ^ 20

/-- The tile-local address of the spare pool and of the test frame. -/
def State.sparePool (s : State) : Nat := s.decFrame * 2 ^ 21 + 2 * s.bornBytes

def State.testFrame (s : State) : Nat := s.sparePool + 2 ^ 24

/-- Frames of a tile's main tier that its fixed reserved areas take, lowest first (R107): home map, DEC area, context spill, capsule
store, Firn's buffer, GEN array, divergence words of a full main tier. -/
def State.reservedFrames (s : State) (t : Nat) : Nat :=
  s.decFrame + ceilDiv s.decBytes (2 ^ 21) +
  ceilDiv (s.fld t RMA.QP_LIMIT.LIMIT * 256 + s.capStoreMb t * 2 ^ 20 + 2 ^ 30 + s.mainBytes / 1024 + s.mainBytes / 2 ^ 19) (2 ^ 21)

/-- The metadata bound of a tile, MiB, with the ceiling configured at start-up (R186, Table 7.4). -/
def State.metaMb (s : State) (t : Nat) : Nat :=
  min 2048 (ceilDiv (262144 * s.gMax + 65536 + s.bornBytes) (2 ^ 20) + ceilDiv (s.fld t FRN.CEIL.CONFIGURED * 16384 * 16) (2 ^ 20) + 256 + 16 +
    (if t = 0 then 4 + 1024 + 1 else 0))

/-- The lowest number not used, given those in use; the first argument bounds the search. -/
def lowestFree (used : List Nat) : Nat → Nat → Nat
  | 0, n => n
  | k + 1, n => if used.contains n then lowestFree used k (n + 1) else n

/-- Main-tier frames of a tile in use beside the fixed areas: homes, reserved destinations, the translation area. -/
def State.mainUsed (s : State) (t : Nat) : List Nat :=
  (s.ams.homes.filter (fun e => e.2.tile == t && e.2.tier == 1)).map (fun e => e.2.frame) ++
  s.ams.moves.filterMap (fun m => if m.req.tile = t && m.req.tier = 1 then m.frame else none) ++
  (s.deep.tableFrames.filter (fun e => e.1 == t)).map (fun e => e.2.2)

/-- The translation area holds the entries of a DEN: 512 numbers to a frame, taken from the lowest free frames (R107, R147); none where no
frame is free. -/
def State.growTable (s : State) (t den : Nat) : Option State :=
  if s.deep.tableFrames.any (fun e => e.1 == t && e.2.1 == den / 512) then some s else
  let used := s.mainUsed t
  let f := lowestFree used used.length (s.reservedFrames t)
  if f < s.mainBytes / 2 ^ 21 then
    some { s with deep := { s.deep with tableFrames := s.deep.tableFrames ++ [(t, den / 512, f)] } }
  else none

end Sys2Proof.Machine
end

