-- ==== Sys2Proof/Machine/Homes.lean ====
section
/-! DEFINITION. Homes of extents, regions, poison, and where a tile-local page of the main tier lies (R30 to R39, R119, R120, R132, R134). -/

namespace Sys2Proof.Machine

/-! ### Homes -/

/-- The home map entry of an extent, V = 1 (Table 2.2). -/
def State.homeOf (s : State) (e : Nat) : Option Home := amapFind e s.ams.homes

/-- An extent's home replaced. -/
def State.setHome (s : State) (e : Nat) (h : Home) : State :=
  { s with ams := { s.ams with homes := amapInsert e h (amapErase e s.ams.homes) } }

/-- The 32-bit entry of Table 2.2. -/
def Home.word (h : Home) : Nat :=
  2 ^ 31 + h.tile * 2 ^ 28 + h.tier * 2 ^ 26 + b2n h.mv * 2 ^ 25 + b2n h.sh * 2 ^ 24 + h.frame

/-- The entries of the home map that a tile's on-chip cache keeps (R32). -/
def hmcSize : Nat := 16384

/-- A tile looks an extent up in its home map: an entry that its cache does not keep is counted in `MOV.HMC_MISS` and fetched from the copy
in its main tier, into a free place or that of a free value's choice (DESIGN CHOICE, log entry 63). -/
def State.lookMap (s : State) (t e : Nat) : State :=
  if s.ams.hmc.contains (t, e) then s else
  let s1 := s.bump t MOV.HMC_MISS.COUNT 1
  let mine := s1.ams.hmc.filter (fun x => x.1 == t)
  if mine.length < hmcSize then s1.updAms (fun a => { a with hmc := a.hmc ++ [(t, e)] }) else
  let (v, s2) := s1.draw
  s2.updAms (fun a => { a with hmc := a.hmc.erase (mine.getD (v % mine.length) (t, e)) ++ [(t, e)] })

/-- The region that holds an AMS address. -/
def State.regionAt (s : State) (a : Nat) : Option Region :=
  s.ams.regions.find? (fun r => decide (r.base ≤ a) && decide (a < r.base + r.len * 2 ^ 21))

/-- The region of a number. -/
def State.regionNum (s : State) (n : Nat) : Option Region := s.ams.regions.find? (fun r => r.num == n)

/-- The class of the region that holds an address; 0 volatile where none does. -/
def State.classAt (s : State) (a : Nat) : Nat := ((s.regionAt a).map (·.cls)).getD 0

/-- The extents of a region. -/
def Region.exts (r : Region) : List Nat := (List.range r.len).map (fun i => r.base / 2 ^ 21 + i)

/-- The pages of an extent. -/
def extPages (e : Nat) : List Nat := (List.range 512).map (fun i => e * 512 + i)

/-- The pages that [a, a + n) touches. -/
def pagesOf (a n : Nat) : List Nat :=
  if n = 0 then [] else (List.range ((a + n - 1) / 4096 - a / 4096 + 1)).map (fun i => a / 4096 + i)

/-- The tile-local address of AMS address a at home h in the main or near tier. -/
def Home.local (h : Home) (a : Nat) : Nat := h.frame * 2 ^ 21 + a % 2 ^ 21

/-- A page joins the re-copy set of a move that has already copied it (R48). -/
def State.noteRecopy (s : State) (page : Nat) : State :=
  { s with ams := { s.ams with moves := s.ams.moves.map (fun m =>
      if m.ext = page / 512 && (m.copying || m.flipping) && !m.todo.contains page && !m.recopy.contains page then
        { m with recopy := m.recopy ++ [page] } else m) } }

/-! ### Poison (R71, R120, R132, R153; DEDUCED, log entry 23) -/

/-- The identifier of a poisoned burst of the memory space, numbered by address / 64. -/
def State.burstPoison (s : State) (b : Nat) : Option Nat := amapFind b s.firn.poison

/-- Poisons or heals a burst. -/
def State.setBurstPoison (s : State) (b : Nat) (id : Option Nat) : State :=
  let l := amapErase b s.firn.poison
  s.updFirn (fun f => { f with poison := match id with
    | some i => amapInsert b i l
    | none => l })

/-- The poison of AMS range n: of either of its bursts. -/
def State.poisonAt (s : State) (n : Nat) : Option Nat := (s.burstPoison (2 * n)).or (s.burstPoison (2 * n + 1))

/-- Poisons or heals both bursts of AMS range n. -/
def State.setPoison (s : State) (n : Nat) (id : Option Nat) : State := (s.setBurstPoison (2 * n) id).setBurstPoison (2 * n + 1) id

/-- Every range of a page poisoned under an identifier. -/
def State.poisonAll (s : State) (p id : Nat) : State := (List.range 32).foldl (fun a k => a.setPoison (p * 32 + k) (some id)) s

/-- Every range of a page poisoned under a new identifier (R59, R132, R198). -/
def State.poisonPage (s : State) (t p : Nat) : State :=
  let (i, s1) := s.newErrId t
  s1.poisonAll p i

/-- The poisoned ranges of [a, a + n), each with its identifier. -/
def State.poisonIn (s : State) (a n : Nat) : List (Nat × Nat) :=
  if n = 0 then [] else
  let bs := s.firn.poison.filter (fun e => decide (a < (e.1 + 1) * 64) && decide (e.1 * 64 < a + n))
  (bs.map (fun e => e.1 / 2)).dedup.map (fun r => (r, ((bs.find? (fun e => e.1 / 2 == r)).map (·.2)).getD 0))

/-- The poisoned ranges of a page, numbered within it, with their identifiers (POISON_MASK, Table 6.4). -/
def State.maskOf (s : State) (p : Nat) : List (Nat × Nat) := (s.poisonIn (p * 4096) 4096).map (fun e => (e.1 % 32, e.2))

/-- A page's poison becomes that of a copy of it. -/
def State.setMask (s : State) (p : Nat) (mask : List (Nat × Nat)) : State :=
  mask.foldl (fun a e => a.setPoison (p * 32 + e.1) (some e.2))
    (s.updFirn (fun f => { f with poison := f.poison.filter (fun e => e.1 / 64 != p) }))

/-! ### Tile-local pages of the main tier (R121, R134) -/

/-- The group of the integrity blocks changed. -/
def State.updDec (s : State) (f : DecSt → DecSt) : State := { s with dec := f s.dec }

/-- The extent whose home is a main-tier frame of a tile. -/
def State.extOfFrame (s : State) (t f : Nat) : Option Nat :=
  (s.ams.homes.find? (fun e => e.2.tile == t && e.2.tier == 1 && e.2.frame == f)).map (·.1)

/-- The tile-local page whose contents a page of DRAM holds: itself, or for a page of the spare pool the one retired to it. -/
def State.holder (s : State) (t page : Nat) : Nat :=
  match s.dec.pages.find? (fun p => p.tile == t && s.sparePool / 4096 + p.slot == page) with
  | some p => p.page
  | none => page

/-- The AMS page that a page of DRAM holds. -/
def State.amsPage (s : State) (t page : Nat) : Option Nat :=
  let q := s.holder t page
  (s.extOfFrame t (q / 512)).map (fun e => e * 512 + q % 512)

/-- The address of DRAM that serves a tile-local address: that of its spare page where its page is retired (R134). -/
def State.physAt (s : State) (t a : Nat) : Nat :=
  match s.dec.pages.find? (fun p => p.tile == t && p.page == a / 4096) with
  | some p => s.sparePool + p.slot * 4096 + a % 4096
  | none => a

/-- n bytes of the main tier from a tile-local address, within one page. -/
def State.mainBytesAt (s : State) (t a n : Nat) : List Byte := s.bytes .main t (s.physAt t a) n

/-- Bytes stored in the main tier from a tile-local address, within one page. -/
def State.setMainBytes (s : State) (t a : Nat) (bs : List Byte) : State := s.setBytes .main t (s.physAt t a) bs

/-- A page of the main tier reads erased, wherever it lies. -/
def State.wipePage (s : State) (t page : Nat) : State := s.wipe .main t (s.physAt t (page * 4096)) 4096

/-- Whether a tile-local page of the main tier is born (R121). -/
def State.bornLocal (s : State) (t page : Nat) : Bool := s.dec.born.contains (t, page)

/-- A frame's born state is cleared in both copies, on chip and in its extent born bit (R124); what its pages hold no longer counts. -/
def State.clearFrame (s : State) (t frame : Nat) : State :=
  let here := fun (u page : Nat) => u == t && page / 512 == frame
  let s1 := s.updDec (fun d => { d with
    born := d.born.filter (fun e => !here e.1 e.2)
    wild := d.wild.filter (fun e => !here e.1 e.2)
    ext := d.ext.filter (fun e => e != (t, frame))
    bornBad := d.bornBad.filter (fun e => !(e.1 == t && e.2.1 == frame))
    bornCache := d.bornCache.filter (fun e => e != (t, frame))
    faults := d.faults.filter (fun f => !(here f.1 (s.holder t (f.2.1 / 4096))))
    ues := d.ues.filter (fun u => !here u.1 (u.2 / 4096)) })
  (s1.dec.pages.filter (fun p => here p.tile p.page)).foldl (fun a p => a.wipePage t p.page) (s1.wipe .main t (frame * 2 ^ 21) (2 ^ 21))

end Sys2Proof.Machine
end

