-- ==== Sys2Proof/Machine/Integrity.lean ====
section
/-! DEFINITION. The integrity block as the memory side meets it: erasure, the error log, the words that the DRAM holds, the born map, reads and writes
(R116 to R130, R134). -/

namespace Sys2Proof.Machine

/-- A counter of channel c (Table 5.12). -/
def decCnt (f : Fld) (c : Nat) : Fld := f.up (16 * c)

/-- A record of an event whose bit has been set (R439). -/
def State.recBit (s : State) (t : Nat) (f : Fld) (arg : Nat) : State :=
  s.enqueueRec t (s.stamp t f.blk f.lo (1 + Config.bitSeverity f.blk f.lo % 5) arg)

/-- The device under erasure for a place (R119). -/
def State.erasedAt (s : State) (t c : Nat) (p : Place) : Option Nat :=
  (s.dec.erases.find? (fun e => e.tile == t && e.ch == c && e.sub == p.sub && e.rank == p.rank &&
    (e.bank.isNone || e.bank == some (p.bg * 4 + p.bank)))).map (·.dev)

/-- Whether an address lies in the test frame. -/
def State.inTest (s : State) (a : Nat) : Bool := decide (s.testFrame ≤ a) && decide (a < s.testFrame + 2 ^ 21)

/-- The page of the test frame that stays unborn (Table 5.6 T8): its last (DESIGN CHOICE, log entry 78). -/
def State.unbornTest (s : State) : Nat := s.testFrame / 4096 + 511

/-! ### The error log (R130) -/

/-- An event on a burst enters its channel's log. -/
def State.logBurst (s : State) (t c kind : Nat) (p : Place) (a dev syms : Nat) (wb : Bool) : State :=
  let mine := s.dec.logs.filter (fun e => e.tile == t && e.ch == c)
  let put := fun (slot : Nat) (x : State) => x.updDec (fun d => { d with
    logs := d.logs.filter (fun e => !(e.tile == t && e.ch == c && e.slot == slot)) ++
      [⟨t, c, slot, kind, p.rank, p.sub, p.bg, p.bank, p.row, p.col, dev, syms, 1, a / 64 * 64, s.now, wb, false⟩] })
  match mine.find? (fun e => e.addr == a / 64 * 64) with
  | some e =>
    let again := e.again || (e.wb && kind ≤ 1 && dev == e.dev && dev != 15)
    s.updDec (fun d => { d with logs := d.logs.map (fun x => if x = e then
      { e with kind := kind, dev := dev, syms := syms, count := min (e.count + 1) 65535, last := s.now, wb := wb, again := again } else x) })
  | none =>
    let slot := lowestFree (mine.map (·.slot)) mine.length 0
    if slot < 32 then put slot s else
    let ones := mine.filter (fun e => e.count == 1)
    match ones with
    | [] => (s.ev t DEC.EVENTS.LOG_FULL).bump t DEC.LOG_LOST.COUNT 1
    | o :: os => put (os.foldl (fun m e => if e.last < m.last then e else m) o).slot s

/-- Bursts with 5 to 8 symbols of one device wrong, as the policy remembers them (Table 5.5). -/
def State.noteWhole (s : State) (t c : Nat) (p : Place) (pat : List (Nat × Nat)) (erased : Option Nat) : State :=
  match (List.range 10).find? (fun d => decide (5 ≤ symsOf pat d) && erased != some d) with
  | some d =>
    let b := p.bg * 4 + p.bank
    let rest := s.dec.notes.filter (fun n => !(n.tile == t && n.ch == c && n.sub == p.sub && n.rank == p.rank && n.bank == b &&
      n.dev == d && n.whole))
    s.updDec (fun x => { x with notes := rest ++ [⟨t, c, p.sub, p.rank, b, d, p.row, true, s.now⟩] })
  | none => s

/-! ### The word of a burst (R116, R120) -/

/-- The symbols that the DRAM holds wrong in the burst at an address of DRAM. -/
def State.faultsAt (s : State) (t a : Nat) : List (Nat × Nat) :=
  (s.dec.faults.filter (fun f => f.1 == t && f.2.1 == a / 64 * 64)).map (fun f => f.2.2)

/-- The symbols that the DRAM holds wrong replaced. -/
def State.setFaults (s : State) (t a : Nat) (l : List (Nat × Nat)) : State :=
  s.updDec (fun d => { d with faults := d.faults.filter (fun f => !(f.1 == t && f.2.1 == a / 64 * 64)) ++ l.map (fun e => (t, a / 64 * 64, e.1, e.2)) })

/-- The burst of the memory space that the burst at an address of DRAM holds. -/
def State.amsBurst (s : State) (t a : Nat) : Option Nat := (s.amsPage t (a / 4096)).map (fun q => q * 64 + a % 4096 / 64)

/-- The identifier of a burst that is stored as poison, at an address of DRAM. -/
def State.poisonedAt (s : State) (t a : Nat) : Option Nat :=
  match s.amsBurst t a with
  | some b => s.burstPoison b
  | none => (s.dec.testPoison.find? (fun e => e.1 == (t, a / 64 * 64))).map (·.2)

/-- The 80 symbols that the DRAM holds for the burst at an address of it. -/
def State.codeword (s : State) (t a : Nat) : List Byte :=
  flipSyms (match s.poisonedAt t a with
    | some i => poisonBurst i
    | none => storedBurst (s.bytes .main t (a / 64 * 64) 64)) (s.faultsAt t a)

/-- What a burst decodes to at rest: a page that a lost born map alone makes born was never written, and does not decode (R125). -/
def State.decoded (s : State) (t a : Nat) (inj : List (Nat × Nat)) : Decoded :=
  let (c, p) := s.locate t a
  if s.dec.wild.contains (t, s.holder t (a / 4096)) then .bad
  else decodeWord (s.erasedAt t c p) (flipSyms (s.codeword t a) inj)

/-- The 64 bytes of a burst as DEC delivers them. -/
def State.burstBytes (s : State) (t a : Nat) : List Byte :=
  let bs := s.bytes .main t (a / 64 * 64) 64
  if (s.faultsAt t a).isEmpty then bs else
  match s.decoded t a [] with
  | .data ds _ => ds
  | _ => bs

/-- n bytes of the main tier from a tile-local address as DEC delivers them, within one page. -/
def State.mainView (s : State) (t a n : Nat) : List Byte :=
  let pa := s.physAt t a
  if !s.dec.faults.any (fun f => f.1 == t && f.2.1 / 4096 == pa / 4096) then s.bytes .main t pa n
  else bytesAt ((List.range ((a + n + 63) / 64 - a / 64)).flatMap (fun i => s.burstBytes t (pa / 64 * 64 + 64 * i))) (pa % 64) n

/-- The five symbols in five devices that no decode corrects (Table 5.6 T4). -/
def badFive : List (Nat × Nat) := [(0, 1), (8, 1), (16, 1), (24, 1), (32, 1)]

/-- A page that a lost born map alone made born is written at some bursts: the others still do not decode. -/
def State.unwild (s : State) (t page : Nat) (written : List Nat) : State :=
  if !s.dec.wild.contains (t, page) then s else
  let pa := s.physAt t (page * 4096)
  (List.range 64).foldl (fun a i => if written.contains i then a else a.setFaults t (pa + 64 * i) badFive)
    (s.updDec (fun d => { d with wild := d.wild.filter (fun e => e != (t, page)) }))

/-- A burst's data, or its poison, written at an address of DRAM with fresh check bytes. -/
def State.storeBurst (s : State) (t a : Nat) (bs : List Byte) : State :=
  let s1 := s.setFaults t a []
  match s1.poisonedAt t a with
  | some i => s1.setBytes .main t (a / 64 * 64) (leBytes 4 i ++ List.replicate 60 0)
  | none => s1.setBytes .main t (a / 64 * 64) bs

/-! ### Injection (R137, Table 5.11) -/

/-- The symbols that the injection registers of a tile corrupt (Table 5.11). -/
def State.injPattern (s : State) (t : Nat) : List (Nat × Nat) :=
  let m := s.fld t DEC.INJ_MASK0.SYM + s.fld t DEC.INJ_MASK1.SYM * 2 ^ 32 + s.fld t DEC.INJ_MASK2.SYM * 2 ^ 64
  ((List.range 80).filter (fun i => m.testBit i)).map (fun i => (i, s.fld t DEC.INJ_XOR.VALUE))

/-- Whether an armed injection meets an access to an address, on the write path or the read path. -/
def State.injHits (s : State) (t a path : Nat) : Bool :=
  let (c, p) := s.locate t a
  s.flag t DEC.INJ_CTRL.ARM && s.inTest a && s.fld t DEC.INJ_CTRL.PATH == path && s.fld t DEC.INJ_CTRL.CH == c &&
  s.fld t DEC.INJ_CTRL.SUBCH == p.sub

/-! ### Reads of a burst (R118 to R120, R128, R129) -/

/-- Write-back mode (Table 5.2). -/
def State.writesBack (s : State) (t : Nat) : Bool :=
  (s.dstate == .service || s.dstate == .restricted) && !s.flag t DEC.CTRL.HOLD

/-- A burst whose word decodes to other contents than were stored holds those from now on, with the errors that are left in it. -/
def State.restate (s : State) (t a : Nat) (id : Option Nat) (bs : List Byte) (pat : List (Nat × Nat)) : State :=
  let s1 := match s.amsBurst t a with
    | some b => s.setBurstPoison b id
    | none => s.updDec (fun d => { d with testPoison := d.testPoison.filter (fun (e : (Nat × Nat) × Nat) => e.1 != (t, a / 64 * 64)) ++
        (id.map (fun i => ((t, a / 64 * 64), i))).toList })
  (s1.storeBurst t a bs).setFaults t a pat

/-- A burst decoded at a tile-local address: `err`: symbols found wrong in it now; events, counters, log, and the write-back of a corrected
one, which a write accepted since the read was issued supersedes (R129). -/
def State.burstRead (s : State) (t a : Nat) (err : List (Nat × Nat)) (scrub : Bool) : State :=
  let pa := s.physAt t a
  let (c, p) := s.locate t pa
  let q : DramReq := ⟨p.sub, p.rank, p.bg, p.bank, p.row, p.col, true, false, s.now⟩
  let stale := ((s.dmc t c).queue ++ (s.dmc t c).held).any (fun y => y.write && y.sameBurst q)
  let er := s.erasedAt t c p
  let hit := s.injHits t pa 1
  let inj := if hit then s.injPattern t ++ (if s.flag t DEC.INJ_CTRL.POISON then poisonVec else []) else []
  let s0 := if stale || err.isEmpty then s else s.setFaults t pa (s.faultsAt t pa ++ err)
  let s1 := if hit then s0.setF t DEC.INJ_CTRL.ARM 0 else s0
  match s.decoded t pa (err ++ inj) with
  | .data _ [] => s1
  | .data bs pat =>
    let wb := s.writesBack t && !stale
    let s2 := (s1.ev t DEC.EVENTS.CE).bump t (decCnt DEC.CE_CNT.COUNT c) 1
    let s3 := if scrub then s2.bump t (decCnt DEC.SCRUB_CE.COUNT c) 1 else s2
    let s4 := (s3.logBurst t c (b2n er.isSome) p pa (mostDevice pat) pat.length wb).noteWhole t c p pat er
    if wb then
      let s5 := (s4.restate t pa none bs []).pushBurst t c q
      match s.amsPage t (pa / 4096) with
      | some g => s5.noteRecopy g
      | none => s5
    else s4
  | .poison i pat =>
    let s2 := ((s1.ev t DEC.EVENTS.POISON_READ).bump t (decCnt DEC.POISON_CNT.COUNT c) 1).logBurst t c 3 p pa (mostDevice pat) pat.length false
    if stale || hit || s.poisonedAt t pa == some i then s2 else s2.restate t pa (some i) [] pat
  | .bad =>
    let s2 := ((s1.ev t DEC.EVENTS.UE).bump t (decCnt DEC.UE_CNT.COUNT c) 1).logBurst t c 2 p pa 15 0 false
    let la := s.holder t (pa / 4096) * 4096 + pa % 4096 / 64 * 64
    if (s.amsPage t (pa / 4096)).isNone || s.dec.ues.contains (t, la) then s2 else s2.updDec (fun d => { d with ues := d.ues ++ [(t, la)] })

/-! ### The born map (R121 to R126) -/

/-- The address of a copy of the born-map burst of a frame (R121). -/
def State.bornAt (s : State) (t frame copy : Nat) : Nat :=
  let g := 2 ^ s.chGran t
  let a := frame * 64
  s.decFrame * 2 ^ 21 + a / g * (2 * g) + copy * g + a % g

/-- A frame's born-map burst is cached on chip, with 1,024 of them; the one cached longest makes room (DESIGN CHOICE, log entry 78). -/
def State.cacheBorn (s : State) (t frame : Nat) : State :=
  let mine := s.dec.bornCache.filter (fun e => e.1 == t)
  let out := if 1024 ≤ mine.length then mine.take 1 else []
  s.updDec (fun d => { d with bornCache := d.bornCache.filter (fun e => !out.contains e && e != (t, frame)) ++ [(t, frame)] })

/-- Every page of a frame is taken as born, since both copies of its burst are lost; the pages never written do not decode (R125). -/
def State.bornLost (s : State) (t frame : Nat) : State :=
  let new := (extPages frame).filter (fun q => !s.bornLocal t q)
  (s.updDec (fun d => { d with born := d.born ++ new.map (fun q => (t, q)), wild := d.wild ++ new.map (fun q => (t, q)),
                               ext := if d.ext.contains (t, frame) then d.ext else d.ext ++ [(t, frame)] })).evRec t DEC.EVENTS.BORN_LOST frame

/-- DEC fetches a frame's born-map burst: copy 0, else copy 1 with a rewrite of copy 0, else every page born; each failing copy is logged. -/
def State.fetchBorn (s : State) (t frame : Nat) : State :=
  let a0 := s.bornAt t frame 0
  let a1 := s.bornAt t frame 1
  let log := fun (a : Nat) (x : State) => let (c, p) := x.locate t a; x.logBurst t c 4 p a 15 0 false
  let s1 := s.askDram t a0 false
  if !s.dec.bornBad.contains (t, frame, 0) then s1.cacheBorn t frame else
  let s2 := (log a0 s1).askDram t a1 false
  let mend := fun (x : State) => x.updDec (fun d => { d with bornBad := d.bornBad.filter (fun e => !(e.1 == t && e.2.1 == frame)) })
  if !s.dec.bornBad.contains (t, frame, 1) then (((mend s2).askDram t a0 true).ev t DEC.EVENTS.BORN_COPY).cacheBorn t frame
  else ((((mend (log a1 s2)).askDram t a0 true).askDram t a1 true).bornLost t frame).cacheBorn t frame

/-- The born state of a tile-local page as DEC looks it up: the extent born bit first, then the burst, cached or fetched (R122). A reserved frame is
born, but for the unborn test page. -/
def State.lookBorn (s : State) (t page : Nat) : Bool × State :=
  if page / 512 < s.reservedFrames t then (page != s.unbornTest, s)
  else if !s.dec.ext.contains (t, page / 512) then (false, s)
  else
    let s1 := if s.dec.bornCache.contains (t, page / 512) then s else s.fetchBorn t (page / 512)
    (s1.bornLocal t page, s1)

/-- An extent born bit with a parity error is set again from its frame's burst (R125). -/
def State.repairExt (s : State) (t frame : Nat) : State :=
  let s1 := s.fetchBorn t frame
  let rest := s1.dec.ext.filter (fun e => e != (t, frame))
  s1.updDec (fun d => { d with ext := if d.born.any (fun e => e.1 == t && e.2 / 512 == frame) then rest ++ [(t, frame)] else rest })

/-! ### Reads and writes of a range -/

/-- One burst of a fetched range: dealt with where it holds an error or poison, or its page never was written but reads as born (R125, R128). -/
def State.decBurst (s : State) (t a : Nat) : State :=
  let r := s.physAt t a
  if (s.faultsAt t r).isEmpty && (s.poisonedAt t r).isNone && !s.dec.wild.contains (t, a / 4096) then s else s.burstRead t a [] false

/-- A read of the 128 B range at a tile-local address reaches DEC: no DRAM access where the page is unborn; what its two bursts hold wrong, or
poison, is dealt with (R122, R128). -/
def State.decFetch (s : State) (t a : Nat) : State :=
  let p := s.lookBorn t (a / 4096)
  if p.1 then
    ((p.2.askDram t (p.2.physAt t a) false).decBurst t a).decBurst t (a + 64)
  else p.2

/-- The first write of a page: a zero codeword to every burst that the write does not cover, and the born bit in the cached burst, both copies
and the extent born bit (R123). The page's born lock is taken and released within the step. -/
def State.firstWrite (s : State) (t page : Nat) (covered : List Nat) : State :=
  let pa := s.physAt t (page * 4096)
  let s1 := (s.wipePage t page).updDec (fun d => { d with
    born := d.born ++ [(t, page)]
    ext := if d.ext.contains (t, page / 512) then d.ext else d.ext ++ [(t, page / 512)]
    faults := d.faults.filter (fun f => !(f.1 == t && f.2.1 / 4096 == pa / 4096)) })
  let s2 := (List.range 32).foldl (fun a i => if covered.contains i then a else a.askDram t (pa + 128 * i) true) s1
  ((s2.askDram t (s.bornAt t (page / 512) 0) true).askDram t (s.bornAt t (page / 512) 1) true).cacheBorn t (page / 512)

/-- Whole 128 B ranges written from a tile-local address, within one page. -/
def State.decWrite (s : State) (t a : Nat) (bs : List Byte) : State :=
  let page := a / 4096
  let ranges := (List.range (bs.length / 128)).map (fun i => a % 4096 / 128 + i)
  let s1 := if s.bornLocal t page then s.unwild t page (ranges.flatMap (fun r => [2 * r, 2 * r + 1])) else s.firstWrite t page ranges
  let pa := s1.physAt t a
  (List.range (bs.length / 64)).foldl (fun x i =>
    let y := x.storeBurst t (pa + 64 * i) (bytesAt bs (64 * i) 64)
    if i % 2 = 0 then y.askDram t (pa + 64 * i) true else y) s1

end Sys2Proof.Machine
end

