-- ==== Sys2Proof/Machine/Flash.lean ====
section
/-! DEFINITION. The flash of a tile's deep tier: block stripes and their blocks, codewords with header, ciphertext and parity, the log heads, deep extent
numbers and the mapping of pages (R143 to R148, R156). -/

namespace Sys2Proof.Machine

/-- The deep group changed. -/
def State.updDeep (s : State) (f : DeepSt → DeepSt) : State := { s with deep := f s.deep }

/-- The next SEQ of a tile's deep-tier manager. -/
def State.nextSeq (s : State) (t : Nat) : Nat × State :=
  let n := amapGet 0 s.firn.seqs t + 1
  (n, { s with firn := { s.firn with seqs := amapSet 0 s.firn.seqs t n } })

/-! ### Blocks and block stripes (R142, R144, R160, R163; DESIGN CHOICE, log entry 22) -/

/-- The most blocks that the factory marked in one plane of a LUN of a tile. -/
def State.worstPlane (s : State) (t : Nat) : Nat :=
  let l := (s.factoryOf t).map (fun b => (b.ch, b.lun, b.plane))
  (l.map (fun k => (l.filter (fun x => x == k)).length)).foldl max 0

/-- Block stripes of a LUN and plane: 2 % of the good blocks of the plane that has fewest are set aside as SPARE at format (R150). -/
def State.planeStripes (s : State) (t : Nat) : Nat := (s.board.lunGib * 8 - s.worstPlane t) * 98 / 100

/-- Block stripes of a tile, dump areas included. -/
def State.stripeTotal (s : State) (t : Nat) : Nat := s.planeStripes t * 4 * s.board.luns

/-- LUN and plane of a block stripe, and its number among the stripes of both. -/
def State.stripeLun (s : State) (b : Nat) : Nat := b % s.board.luns

def State.stripePlane (s : State) (b : Nat) : Nat := b / s.board.luns % 4

def State.stripeRow (s : State) (b : Nat) : Nat := b / (s.board.luns * 4)

/-- The block stripe of a LUN, plane and number. -/
def State.stripeOf (s : State) (lun plane k : Nat) : Nat := (k * 4 + plane) * s.board.luns + lun

/-- The k-th block of a plane that the factory did not mark. -/
def State.goodBlock (s : State) (t c lun plane k : Nat) : Nat :=
  let bad := ((s.factoryOf t).filter (fun b => b.ch == c && b.lun == lun && b.plane == plane)).map (·.block)
  (bad.mergeSort (fun a b => decide (a ≤ b))).foldl (fun n b => if b ≤ n then n + 1 else n) k

/-- The block of a stripe on a channel: the one that has replaced a bad one, or that of its number (R162). -/
def State.memberBlock (s : State) (t b c : Nat) : Nat :=
  match s.deep.members.find? (fun m => m.1 == t && m.2.1 == b && m.2.2.1 == c) with
  | some m => m.2.2.2
  | none => s.goodBlock t c (s.stripeLun b) (s.stripePlane b) (s.stripeRow b)

/-- The codewords of data that a block stripe holds, in TLC and in SLC mode (a third of the pages): 28 to a page stripe (R143, R144). -/
def stripeCap : Nat := 57344

def slcCap : Nat := 19096

/-- The listed stripe of a number. -/
def State.stripe (s : State) (t b : Nat) : Option Stripe := s.deep.stripes.find? (fun x => x.tile == t && x.id == b)

/-- A stripe never used. -/
def Stripe.fresh (t b : Nat) : Stripe := ⟨t, b, 0, 0, 0, 0, 0, false, 0⟩

/-- A stripe changed. -/
def State.updStripe (s : State) (t b : Nat) (f : Stripe → Stripe) : State :=
  let rest := s.deep.stripes.filter (fun x => !(x.tile == t && x.id == b))
  s.updDeep (fun d => { d with stripes := f ((s.stripe t b).getD (Stripe.fresh t b)) :: rest })

/-- FREE block stripes of a tile. -/
def State.freeStripes (s : State) (t : Nat) : Nat :=
  s.stripeTotal t - (s.deep.stripes.filter (fun x => x.tile == t && x.st != 0)).length

/-- The FREE block stripe of a tile with the lowest number. -/
def State.lowestStripe (s : State) (t : Nat) : Option Nat :=
  let busy := (s.deep.stripes.filter (fun x => x.tile == t && x.st != 0)).map (·.id)
  let b := lowestFree busy busy.length 0
  if b < s.stripeTotal t then some b else none

/-! ### Codewords (R143, R156) -/

/-- Doubling of an XTS tweak, a little-endian element of GF(2^128). -/
def xtsDouble (b : BitVec 128) : BitVec 128 := (b <<< 1) ^^^ (if b.msb then 0x87#128 else 0#128)

/-- XTS encryption of whole blocks from a tweak block on (IEEE 1619). -/
def xtsGo (enc : BitVec 128 → BitVec 128) : Nat → BitVec 128 → List Byte → List Byte
  | 0, _, _ => []
  | n + 1, w, bs => blockBytes (enc (blockOf bs ^^^ w) ^^^ w) ++ xtsGo enc n (xtsDouble w) (bs.drop 16)

/-- A BCX key register pair of a tile as an AES-256 key. -/
def State.xtsKey (s : State) (t i : Nat) : BitVec 256 :=
  let k := fun (j : Nat) => (amapGet (0 : BitVec 128) s.kse.bcx (t * 16 + j)).setWidth 256
  k i ||| (k (i + 1) <<< 128)

/-- The XTS-AES-256 ciphertext of a 4,096-byte data unit under a tile's deep-tier keys. -/
def State.xtsEncrypt (s : State) (t tweak : Nat) (bs : List Byte) : List Byte :=
  xtsGo (Config.aesEnc true (s.xtsKey t 0)) 256 (Config.aesEnc true (s.xtsKey t 2) (BitVec.ofNat 128 tweak)) bs

/-- The tweak of a codeword (R156): by what it holds for KIND 1 to 3 and 6, by its SEQ for KIND 4, 5 and 7. -/
def xtsTweak (kind t den page seq : Nat) : Nat :=
  if kind = 6 then den * 2 ^ 9 + t * 2 ^ 33 + 2 ^ 126
  else if kind ≤ 3 then page % 512 + den * 2 ^ 9 + t * 2 ^ 33
  else seq + 2 ^ 127

/-- The header of a codeword up to its CRC (Table 6.4). -/
def Codeword.head (c : Codeword) : List Byte :=
  leBytes 1 c.kind ++ leBytes 1 (b2n c.slc + 2 * b2n (!c.mask.isEmpty)) ++ leBytes 1 c.tile ++ leBytes 1 0 ++ leBytes 4 c.den ++
  leBytes 2 (c.page % 512) ++ leBytes 2 0 ++ leBytes 4 c.gen ++ leBytes 8 c.seq ++ leBytes 4 ((c.mask.map (fun e => 2 ^ e.1)).sum)

/-- The 32-byte header of Table 6.4, with its CRC over itself and the ciphertext. -/
def Codeword.header (c : Codeword) : List Byte := c.head ++ leBytes 4 (crc32 (c.head ++ c.cipher))

/-- The codeword at a place of a tile's flash. -/
def State.flashAt (s : State) (t b i : Nat) : Option Codeword :=
  s.deep.flash.find? (fun c => c.tile == t && c.stripe == b && c.idx == i)

/-- A codeword programmed at a place, encrypted under the tile's keys. A poisoned range holds its identifier in its first bytes (R153). -/
def State.putCodeword (s : State) (t b i kind : Nat) (slc : Bool) (den page gen seq : Nat) (mask : List (Nat × Nat)) (bs : List Byte) : State :=
  let data := mask.foldl (fun (l : List Byte) e => l.take (128 * e.1) ++ leBytes 4 e.2 ++ l.drop (128 * e.1 + 4)) bs
  let c : Codeword := ⟨t, b, i, kind, slc, den, page, gen, seq, mask, data, s.xtsEncrypt t (xtsTweak kind t den page seq) data⟩
  (s.updDeep (fun d => { d with flash := d.flash ++ [c] })).bump t BCX.XTS_UNITS.COUNT 1

/-- The flash channel of codeword i of stripe b: the parity of page stripe p lies on channel (p + b) mod 8 (R144). -/
def cwChannel (b i : Nat) : Nat :=
  let par := (i / 28 + b) % 8
  let j := i % 28 / 4
  if j < par then j else j + 1

/-- XOR of two byte strings of one length. -/
def xorBytes (a b : List Byte) : List Byte := a.zipWith (· ^^^ ·) b

/-- The parity codeword of a slot of page stripe p: the XOR of the ciphertext and headers of the seven data codewords; one not programmed counts
nothing (R144). -/
def State.parityWord (s : State) (t b p slot : Nat) : List Byte :=
  (List.range 7).foldl (fun acc j => match s.flashAt t b (p * 28 + j * 4 + slot) with
    | some c => xorBytes acc (c.cipher ++ c.header)
    | none => acc) (List.replicate 4128 0)

/-! ### The log heads (R144, R145, R149) -/

/-- The open block stripe of a log head. -/
def State.headStripe (s : State) (t head : Nat) : Option Stripe :=
  s.deep.stripes.find? (fun x => x.tile == t && x.st == 1 && x.head == head)

/-- Whether n codewords of one page stripe find room at a log head. -/
def State.headRoom (s : State) (t head : Nat) : Bool := (s.headStripe t head).isSome || (s.lowestStripe t).isSome

/-- A log head has an open block stripe: the lowest-numbered FREE one where it has none. -/
def State.openHead (s : State) (t head : Nat) : State :=
  if (s.headStripe t head).isSome then s else
  match s.lowestStripe t with
  | some b => s.updStripe t b (fun x => { x with st := 1, head := head, used := 0 })
  | none => s

/-- What ends with a program or an erase on a LUN: the suspend counts of its operation (R154), and the waits of reads for it (R151). -/
def State.endLunOp (s : State) (t lun : Nat) : State :=
  s.updDeep (fun d => { d with
    suspends := d.suspends.filter (fun e => !(e.1 / 256 == t && e.1 % 16 == lun))
    stripes := d.stripes.map (fun x => if x.tile = t && s.stripeLun x.id = lun then { x with refs := 0 } else x) })

/-- The page stripe that a head is writing ends, its parity page last: eight pages programmed (R144). What it has not taken stays unused. -/
def State.closeRow (s : State) (t head : Nat) : State :=
  match s.headStripe t head with
  | none => s
  | some x =>
    if x.used % 28 = 0 then s else
    let u := ceilDiv x.used 28 * 28
    let s1 := s.updStripe t x.id (fun y => { y with used := u, st := if u = stripeCap then 2 else 1 })
    ((List.range 8).foldl (fun a c => a.bump t (Fld.inst FCH.PROGRAMS.COUNT c) 1) s1).endLunOp t (s.stripeLun x.id)

/-- A head is ready for n codewords that belong in one page stripe. -/
def State.alignHead (s : State) (t head n : Nat) : State :=
  match s.headStripe t head with
  | some x => (if 28 < x.used % 28 + n then s.closeRow t head else s).openHead t head
  | none => s.openHead t head

/-- The place of the next codeword of a head, and the state that has taken it; a page stripe that it fills ends. -/
def State.logPlace (s : State) (t head : Nat) : Option (Nat × Nat × State) :=
  let s0 := s.openHead t head
  (s0.headStripe t head).map (fun x =>
    let s1 := s0.updStripe t x.id (fun y => { y with used := y.used + 1 })
    (x.id, x.used, if (x.used + 1) % 28 = 0 then
      ((List.range 8).foldl (fun a c => a.bump t (Fld.inst FCH.PROGRAMS.COUNT c) 1)
        (s1.updStripe t x.id (fun y => { y with st := if y.used = stripeCap then 2 else 1 }))).endLunOp t (s.stripeLun x.id) else s1))

/-! ### Deep extent numbers and mapping (R146 to R148) -/

/-- The mapping of a page's copy in a tile's deep tier. -/
def State.deepAt (s : State) (t p : Nat) : Option DeepPage := s.firn.deep.find? (fun d => d.tile == t && d.page == p)

/-- The codeword that a page of a tile's deep tier is mapped to. -/
def State.deepWord (s : State) (t p : Nat) : Option Codeword := (s.deepAt t p).bind (fun d => s.flashAt t d.stripe d.idx)

/-- n bytes of a page of a tile's deep tier, as a decoded codeword gives them. -/
def State.deepBytes (s : State) (t p o n : Nat) : List Byte :=
  match s.deepWord t p with
  | some c => bytesAt c.data o n
  | none => List.replicate n 0

/-- The key of a deep extent number. -/
def denKey (t e : Nat) : Nat := t * 2 ^ 32 + e

/-- The deep extent number of an extent on a tile (R146). -/
def State.denOf (s : State) (t e : Nat) : Option Nat := amapFind (denKey t e) s.firn.dens

/-- An extent with presence in a tile's deep tier has a DEN, the lowest free one, where the translation area can hold it (R146, R147). -/
def State.ensureDen (s : State) (t e : Nat) : State :=
  if (s.denOf t e).isSome then s else
  let used := (s.firn.dens.filter (fun x => x.1 / 2 ^ 32 == t)).map (·.2)
  let n := lowestFree used used.length 0
  ((s.updFirn (fun f => { f with dens := amapInsert (denKey t e) n f.dens })).growTable t n).getD s

/-- A DEN is freed when no page of the extent is mapped on the tile and it is no deep home there (R146). -/
def State.freeDen (s : State) (t e : Nat) : State :=
  let home := match s.homeOf e with
    | some h => h.tile == t && h.tier == 2
    | none => false
  if home || s.firn.deep.any (fun d => d.tile == t && d.page / 512 == e) || s.deep.state2.any (fun x => x.1.1 == t && x.1.2 / 512 == e) then s
  else s.updFirn (fun f => { f with dens := amapErase (denKey t e) f.dens })

/-- The translation entry of a page (Table 6.5): mapped, poisoned with no flash copy, or unmapped. -/
def State.deepEntry (s : State) (t p : Nat) : Nat :=
  match s.deepAt t p with
  | some d => 2 ^ 60 + cwChannel d.stripe d.idx * 2 ^ 37 + s.stripeLun d.stripe * 2 ^ 33 + s.stripePlane d.stripe * 2 ^ 31 +
      s.memberBlock t d.stripe (cwChannel d.stripe d.idx) * 2 ^ 17 + d.idx / 28 * 2 ^ 4 + d.idx % 4 * 4
  | none => match s.deep.state2.find? (fun x => x.1 == (t, p)) with
    | some x => 2 * 2 ^ 60 + x.2
    | none => 0

/-- The extent that a DEN of a tile stands for. -/
def State.extOfDen (s : State) (t n : Nat) : Option Nat :=
  (s.firn.dens.find? (fun x => x.1 / 2 ^ 32 == t && x.2 == n)).map (fun x => x.1 % 2 ^ 32)

/-- The 512 entries of a DEN's table page. -/
def State.tableBytes (s : State) (t n : Nat) : List Byte :=
  match s.extOfDen t n with
  | some e => (extPages e).flatMap (fun p => leBytes 8 (s.deepEntry t p))
  | none => List.replicate 4096 0

/-- The key of a table page changed since its last flush. -/
def tableKey (t n : Nat) : Nat := t * 2 ^ 24 + n

/-- The table pages of a tile changed since their last flush, with the times. -/
def State.dirtyTablesOf (s : State) (t : Nat) : List (Nat × Nat) := s.deep.dirtyTables.filter (fun e => e.1 / 2 ^ 24 == t)

/-- A table page is written through head 2 as KIND 6, and the directory locates it there; it stays changed while there is no place (R148). -/
def State.flushTable (s : State) (t n : Nat) : State :=
  match s.logPlace t 2 with
  | some (b, i, s1) =>
    let (q, s2) := s1.nextSeq t
    (s2.putCodeword t b i 6 false n 0 0 q [] (s.tableBytes t n)).updDeep (fun d => { d with
      tables := d.tables.filter (fun e => !(e.1 == t && e.2.1 == n)) ++ [(t, n, b, i)]
      dirtyTables := amapErase (tableKey t n) d.dirtyTables })
  | none => s

/-- Every changed table page of a tile is written (R148). -/
def State.flushTables (s : State) (t : Nat) : State :=
  ((s.dirtyTablesOf t).foldl (fun a e => a.flushTable t (e.1 % 2 ^ 24)) s).closeRow t 2

/-- The table pages that may stand changed at a time: 256 MiB of metadata (R186). -/
def tableMax : Nat := 65536

/-- The translation table page of an extent, that of its DEN, has changed; the changed pages are written early where they come to the space that a
dump has for them (R148, R186). -/
def State.dirtyTable (s : State) (t e : Nat) : State :=
  match s.denOf t e with
  | some n =>
    if (amapFind (tableKey t n) s.deep.dirtyTables).isSome then s else
    let s1 := s.updDeep (fun d => { d with dirtyTables := amapInsert (tableKey t n) s.now d.dirtyTables })
    if tableMax ≤ (s1.dirtyTablesOf t).length then s1.flushTables t else s1
  | none => s

/-- The KIND of a page's codeword on a tile (Table 6.4): a deep home, present or to be, a backing image, a foreign one. -/
def State.cwKind (s : State) (t p : Nat) : Nat :=
  match s.homeOf (p / 512) with
  | some h => if h.tile = t then (if h.tier = 2 then 1 else 2)
      else if s.ams.moves.any (fun m => m.ext == p / 512 && m.req.tile == t && m.req.tier == 2) then 1 else 3
  | none => 2

/-- Whether a page can be programmed on a tile through a head: a deep extent number and a place are to be had. -/
def State.deepFits (s : State) (t p head : Nat) : Bool := s.headRoom t head && ((s.ensureDen t (p / 512)).denOf t (p / 512)).isSome

/-- A page's copy programmed on a tile through a log head: its bytes, GEN, mask and a new SEQ (Table 6.4). Unchanged where it does not fit
(`State.deepFits`). -/
def State.programDeep (s : State) (t p g : Nat) (mask : List (Nat × Nat)) (bs : List Byte) (head : Nat) : State :=
  let s0 := s.ensureDen t (p / 512)
  match s0.denOf t (p / 512), s0.logPlace t head with
  | some den, some (b, i, s1) =>
    let (q, s2) := s1.nextSeq t
    let s3 := s2.putCodeword t b i (s.cwKind t p) false den p g q mask bs
    ((s3.updFirn (fun f => { f with deep := f.deep.filter (fun d => !(d.tile == t && d.page == p)) ++ [⟨t, p, g, q, b, i⟩] })).updDeep
      (fun d => { d with state2 := d.state2.filter (fun x => x.1 != (t, p)) })).dirtyTable t (p / 512)
  | _, _ => s

/-- A page's copy on a tile unmapped (Table 6.6). -/
def State.unmapDeep (s : State) (t p : Nat) : State :=
  if (s.deepAt t p).isNone then s else
  ((s.dirtyTable t (p / 512)).updFirn (fun f => { f with deep := f.deep.filter (fun d => !(d.tile == t && d.page == p)) })).freeDen t (p / 512)

/-- A table page's codeword goes as it stands to head 1 (R149). -/
def State.relocateTable (s : State) (t n : Nat) : State :=
  match (s.deep.tables.find? (fun e => e.1 == t && e.2.1 == n)).bind (fun e => s.flashAt t e.2.2.1 e.2.2.2), s.logPlace t 1 with
  | some c, some (b, i, s1) => s1.updDeep (fun d => { d with
      flash := d.flash ++ [{ c with stripe := b, idx := i }]
      tables := d.tables.map (fun e => if e.1 = t && e.2.1 = n then (t, n, b, i) else e) })
  | _, _ => s

/-- A page's codeword goes as it stands to head 1: ciphertext, header and SEQ stay (R149, R151). -/
def State.relocateDeep (s : State) (t p : Nat) : State :=
  match s.deepWord t p, s.logPlace t 1 with
  | some c, some (b, i, s1) =>
    ((s1.updDeep (fun d => { d with flash := d.flash ++ [{ c with stripe := b, idx := i }] })).updFirn (fun f => { f with deep := f.deep.map (fun d =>
      if d.tile = t && d.page = p then { d with stripe := b, idx := i } else d) })).dirtyTable t (p / 512)
  | _, _ => s

/-- The newest captured image of a page in a tile's Firn buffer (R179). -/
def State.captured (s : State) (t page : Nat) : Option CapPage :=
  ((s.firn.caps.filter (fun c => c.tile == t)).flatMap (·.pages)).reverse.find? (fun p => p.page == page)

/-- Pages in a tile's buffer (R179). -/
def State.bufPages (s : State) (t : Nat) : Nat :=
  ((s.firn.caps.filter (fun c => c.tile == t)).map (fun c => c.pages.length)).sum +
  ((s.firn.ranges.filter (fun r => r.tile == t)).map (fun r => r.n / 32)).dedup.length

/-- The pages that Firn's buffer of a tile holds at most: 1 GiB (R179). -/
def bufMax : Nat := 262144

/-- Whether Firn's buffer of a tile takes a range: it holds its page already, or has room for another. -/
def State.bufTakes (s : State) (t n : Nat) : Bool :=
  s.firn.ranges.any (fun r => r.tile == t && r.n / 32 == n / 32) || decide (s.bufPages t < bufMax)

end Sys2Proof.Machine
end

