-- ==== Sys2Proof/Machine/Nand.lean ====
section
/-! DEFINITION. What a tile's manager knows of its NAND: the profile of every LUN, the population, wear, bad blocks and what replaces them
(R140 to R142, R160 to R163, R166). -/

namespace Sys2Proof.Machine

/-! ### The running slot (R361, Table 13.2) -/

/-- The store base of a firmware slot (R361): tile and address. -/
def slotTile (slot : Nat) : Nat := slot % 2

/-- A number in a slot's store. -/
def State.slotNat (s : State) (slot a n : Nat) : Nat := leNat (s.bytes .nvs (slotTile slot) a n)

/-- The manifest's address in a slot (Table 13.2). -/
def State.manifestAt (s : State) (slot : Nat) : Nat := 256 + s.slotNat slot 0x14 4

/-- The running slot. -/
def State.runSlot (s : State) : Nat := s.fld 0 BST.BOOT.SLOT

/-- The store address, in a slot, of an entry of the manifest's NAND profile table (Table 13.3). -/
def State.profileAt (s : State) (slot i : Nat) : Nat := 256 + s.slotNat slot (s.manifestAt slot + 0x14) 4 + 256 * i

/-! ### Profiles (R141, R166) -/

/-- A field of entry i of the running slot's NAND profile table, at offset o (Table 6.15). -/
def State.profileNat (s : State) (i o n : Nat) : Nat := s.slotNat s.runSlot (s.profileAt s.runSlot i + o) n

/-- Whether an entry matches a LUN: manufacturer, the device bytes compared, planes, page and spare bytes. -/
def State.profileFits (s : State) (l : LunId) (i : Nat) : Bool :=
  let k := s.profileNat i 1 1
  s.profileNat i 0 1 == l.mfr && decide (k ≤ l.dev.length) && (List.range k).map (fun j => s.profileNat i (2 + j) 1) == l.dev.take k &&
  s.profileNat i 0x14 1 == l.planes && s.profileNat i 8 2 == l.page && s.profileNat i 0xA 2 == l.spare

/-- The first entry, in table order, that matches a LUN. -/
def State.matchProfile (s : State) (l : LunId) : Option Nat :=
  (List.range (s.slotNat s.runSlot (s.manifestAt s.runSlot + 0x12) 2)).find? (s.profileFits l)

/-- A field of the profile in use: the entry that the board's LUNs match. -/
def State.prof (s : State) (o n : Nat) : Nat := ((s.matchProfile s.board.lun).map (fun i => s.profileNat i o n)).getD 0

/-- What Table 6.2 asks of a LUN, as its IDs and parameter page tell it. -/
def LunId.meets (l : LunId) : Bool := l.tlc && l.planes == 4 && l.page == 16384 && decide (2048 ≤ l.spare)

/-- What a chip enable of a channel says of itself. -/
def State.lunAt (s : State) (t c e : Nat) : LunId :=
  ((s.board.oddLuns.find? (fun x => x.1 == (t, c, e))).map (·.2)).getD s.board.lun

/-- The chip enables of a channel with n LUNs: four LUNs to each (R140). -/
def enablesOf (n : Nat) : Nat := ceilDiv n 4

/-! ### Population (R142) -/

/-- The LUNs on a channel. -/
def State.lunsOn (s : State) (t c : Nat) : Nat :=
  ((s.board.nand.find? (fun x => x.1 == t && x.2.1 == c)).map (·.2.2)).getD s.board.luns

/-- Whether a channel carries the LUNs that R142 asks for. -/
def State.populated (s : State) (t c : Nat) : Bool :=
  s.lunsOn t c == s.board.luns && [2, 4, 8, 16].contains s.board.luns && decide (s.board.lunGib ≤ 256)

/-- The first chip enable of a channel whose LUNs match no profile, break Table 6.2, or have another profile than the board's. -/
def State.profileMiss (s : State) (t c : Nat) : Option Nat :=
  (List.range (enablesOf (s.lunsOn t c))).find? (fun e =>
    let l := s.lunAt t c e
    !l.meets || (s.matchProfile l).isNone || s.matchProfile l != s.matchProfile s.board.lun)

/-! ### Blocks (R160, R163) -/

/-- The number of a block among the good ones of its plane. -/
def State.goodIndex (s : State) (t c lun plane k : Nat) : Nat :=
  k - ((s.factoryOf t).filter (fun b => b.ch == c && b.lun == lun && b.plane == plane && decide (b.block < k))).length

/-- Whether the factory marked a block. -/
def State.factoryBad (s : State) (t c lun plane k : Nat) : Bool :=
  (s.factoryOf t).any (fun b => b.ch == c && b.lun == lun && b.plane == plane && b.block == k)

/-- Whether a block is a grown bad one. -/
def State.grownBad (s : State) (t c lun plane k : Nat) : Bool :=
  s.deep.bad.any (fun b => b.tile == t && b.ch == c && b.lun == lun && b.plane == plane && b.block == k)

/-- The block stripe that a block belongs to: the one that it entered in another's place, or that of its number. -/
def State.ownerOf (s : State) (t c lun plane k : Nat) : Option Nat :=
  match s.deep.members.find? (fun m => m.1 == t && m.2.2.1 == c && m.2.2.2 == k && s.stripeLun m.2.1 == lun && s.stripePlane m.2.1 == plane) with
  | some m => some m.2.1
  | none =>
    let i := s.goodIndex t c lun plane k
    if i < s.planeStripes t then some (s.stripeOf lun plane i) else none

/-- Whether a block was set aside as SPARE at format. -/
def State.setAside (s : State) (t c lun plane k : Nat) : Bool := decide (s.planeStripes t ≤ s.goodIndex t c lun plane k)

/-- SPARE blocks of a tile: those set aside, without the bad ones and those in a stripe. -/
def State.spareBlocks (s : State) (t : Nat) : Nat :=
  let gone := ((s.deep.bad.filter (fun b => b.tile == t)).map (fun b => (b.ch, b.lun, b.plane, b.block)) ++
    (s.deep.members.filter (fun m => m.1 == t)).map (fun m => (m.2.2.1, s.stripeLun m.2.1, s.stripePlane m.2.1, m.2.2.2))).dedup
  s.rawBlocks t - 8 * s.stripeTotal t - (gone.filter (fun x => s.setAside t x.1 x.2.1 x.2.2.1 x.2.2.2)).length

/-- Grown bad blocks of a tile. The table in the nonvolatile store names the first 65,536 of them (R162). -/
def State.badCount (s : State) (t : Nat) : Nat := (s.deep.bad.filter (fun b => b.tile == t)).length

/-- The block of a stripe on a channel has gone bad. -/
def State.memberBad (s : State) (t b c : Nat) : Bool := s.grownBad t c (s.stripeLun b) (s.stripePlane b) (s.memberBlock t b c)

/-- Whether a stripe has a bad block. -/
def State.stripeBad (s : State) (t b : Nat) : Bool := (List.range 8).any (s.memberBad t b)

/-- A SPARE block of a channel, LUN and plane. -/
def State.spareOf (s : State) (t c lun plane : Nat) : Option Nat :=
  (List.range (s.board.lunGib * 8)).find? (fun k => s.setAside t c lun plane k && !s.factoryBad t c lun plane k && !s.grownBad t c lun plane k &&
    (s.ownerOf t c lun plane k).isNone)

/-- A good block of a channel that stripe b of the same LUN and plane, taken apart, still has. -/
def State.leftOf (s : State) (t c b : Nat) : Option Nat :=
  let k := s.memberBlock t b c
  if s.memberBad t b c || s.deep.members.any (fun m => m.1 == t && m.2.1 != b && m.2.2.1 == c && m.2.2.2 == k &&
    s.stripeLun m.2.1 == s.stripeLun b && s.stripePlane m.2.1 == s.stripePlane b) then none else some k

/-- A block from the free pool for a channel, LUN and plane: of a stripe taken apart, or of a FREE one that is, while more than `DTM.GC.LO` block
stripes are FREE (R163). -/
def State.fromFree (s : State) (t c lun plane : Nat) : Option (Nat × State) :=
  let here := fun (b : Nat) => s.stripeLun b == lun && s.stripePlane b == plane
  match (s.deep.stripes.filter (fun x => x.tile == t && x.st == 6 && here x.id)).findSome? (fun x => s.leftOf t c x.id) with
  | some k => some (k, s)
  | none =>
    if s.freeStripes t ≤ s.fld t DTM.GC.LO then none else
    ((((List.range (s.planeStripes t)).map (s.stripeOf lun plane)).find? (fun b => ((s.stripe t b).map (·.st)).getD 0 == 0 && !s.stripeBad t b)).bind
      (fun b => (s.leftOf t c b).map (fun k => (k, s.updStripe t b (fun x => { x with st := 6 })))))

/-- A block that replaces the bad one of a stripe on a channel: a SPARE one, else one from the free pool (R162, R163). -/
def State.replaceBlock (s : State) (t b c : Nat) : State :=
  let put := fun (k : Nat) (x : State) => x.updDeep (fun d => { d with
    members := d.members.filter (fun m => !(m.1 == t && m.2.1 == b && m.2.2.1 == c)) ++ [(t, b, c, k)] })
  match s.spareOf t c (s.stripeLun b) (s.stripePlane b) with
  | some k => put k s
  | none => match s.fromFree t c (s.stripeLun b) (s.stripePlane b) with
    | some (k, s1) => put k s1
    | none => s

/-- A stripe that holds no data has its bad blocks replaced and is FREE; where a block finds no other it is taken apart. -/
def State.mendStripe (s : State) (t b : Nat) : State :=
  let s1 := (List.range 8).foldl (fun a c => if a.memberBad t b c then a.replaceBlock t b c else a) s
  s1.updStripe t b (fun x => { x with st := if s1.stripeBad t b then 6 else 0 })

/-- What is kept for a block. -/
def State.block (s : State) (t b c : Nat) : BlockStat :=
  (s.deep.blocks.find? (fun x => x.tile == t && x.stripe == b && x.ch == c)).getD ⟨t, b, c, 0, 0, 0, 0, 0, false⟩

/-- What is kept for a block, changed. -/
def State.updBlock (s : State) (t b c : Nat) (f : BlockStat → BlockStat) : State :=
  let rest := s.deep.blocks.filter (fun x => !(x.tile == t && x.stripe == b && x.ch == c))
  s.updDeep (fun d => { d with blocks := f (s.block t b c) :: rest })

/-- A block is marked weak; its stripe is refreshed early (R163, R149). -/
def State.markWeak (s : State) (t b c : Nat) : State :=
  if (s.block t b c).weak then s else
  ((s.updBlock t b c (fun x => { x with weak := true })).updStripe t b (fun x => { x with ahead := true })).ev t DTM.EVENTS.WEAK

/-- Whether a program time passes 1.25 × the profile's typical one (R163 stage 2). -/
def State.slowProg (s : State) (us : Nat) : Bool := decide (s.prof 0x1C 2 * 5 < us * 4)

/-- A program of a block took `us` µs. -/
def State.noteProgram (s : State) (t b c us : Nat) : State :=
  let s1 := s.updBlock t b c (fun x => { x with tprog := us })
  if s1.slowProg us then (s1.ev t (Fld.inst FCH.EVENTS.TPROG_SLOW c)).markWeak t b c else s1

/-- A block of a stripe is retired: no more programs go to an open stripe, whose data is refreshed ahead of others; a stripe without data has
another block at once, one that is erased when the erase ends (R162). -/
def State.retireBlock (s : State) (t b c reason : Nat) : State :=
  let e : BadBlock := ⟨t, c, s.stripeLun b, s.stripePlane b, s.memberBlock t b c, reason⟩
  let s1 := (s.updDeep (fun d => { d with
    bad := d.bad ++ [e]
    blocks := d.blocks.filter (fun x => !(x.tile == t && x.stripe == b && x.ch == c)) })).ev t DTM.EVENTS.RETIRED
  match ((s1.stripe t b).map (·.st)).getD 0 with
  | 0 => s1.mendStripe t b
  | 1 | 2 => s1.updStripe t b (fun x => { x with st := 2, ahead := true })
  | _ => s1

end Sys2Proof.Machine
end

