-- ==== Sys2Proof/Machine/Lines.lean ====
section
/-! DEFINITION. The tier cache of a tile, line by line: the bytes of a range at its home, sets and ways, the eviction buffer, fills and the miss
queue, maintenance, reads and writes of one 128 B range (R64 to R76, R153). -/

namespace Sys2Proof.Machine

/-! ### A range at its home -/

/-- n bytes of home h from AMS address a, within one page. -/
def State.homeBytes (s : State) (h : Home) (a n : Nat) : List Byte :=
  match h.tier with
  | 0 => s.bytes .near h.tile (h.local a) n
  | 1 => s.mainView h.tile (h.local a) n
  | _ => s.deepBytes h.tile (a / 4096) (a % 4096) n

/-- The 128 bytes of AMS range n as home h gives them, Firn's buffer first for a deep home (R153, R179). -/
def State.homeRange (s : State) (h : Home) (n : Nat) : List Byte :=
  if h.tier = 2 then
    match s.firn.ranges.reverse.find? (fun r => r.tile == h.tile && r.n == n) with
    | some r => r.data
    | none => match s.captured h.tile (n / 32) with
      | some p => bytesAt p.data (n % 32 * 128) 128
      | none => s.homeBytes h (n * 128) 128
  else s.homeBytes h (n * 128) 128

/-- The 128 bytes of AMS range n reach the home: the main tier through DEC, the near tier, or Firn's buffer for a deep home (R72). -/
def State.setHomeRange (s : State) (h : Home) (n : Nat) (bs : List Byte) : State :=
  (match h.tier with
   | 0 => s.setBytes .near h.tile (h.local (n * 128)) bs
   | 1 => s.decWrite h.tile (h.local (n * 128)) bs
   | _ => s.updFirn (fun (f : Firn) => { f with
       ranges := f.ranges.filter (fun (r : DeepRange) => !(r.tile == h.tile && r.n == n)) ++ [(⟨h.tile, n, bs⟩ : DeepRange)] })).noteRecopy (n / 32)

/-- Whether a home takes a write-back of AMS range n now: Firn's buffer may have no room for it (R73, R179). -/
def State.homeTakes (s : State) (h : Home) (n : Nat) : Bool := h.tier != 2 || s.bufTakes h.tile n

/-- Whether the pages of a range can be read now: none waits for its restore (R197) or for a recovery (R131, R59, R155). -/
def State.pagesReady (s : State) (a n : Nat) : Bool :=
  !((pagesOf a n).any (fun p => s.firn.unrestored.contains p || s.anyTile (fun t => (s.twl t).fetches.any (fun f => f.page == p)) ||
    s.dec.ues.any (fun u => s.amsPage u.1 (u.2 / 4096) == some p)))

/-- Whether all of some pages can be read now. -/
def State.readable (s : State) (ps : List Nat) : Bool := ps.all (fun p => s.pagesReady (p * 4096) 4096)

/-! ### The tier cache: sets and ways (R65, R68, R69) -/

/-- Set counts of Table 3.1: host, stream. -/
def State.hostSets (s : State) (t : Nat) : Nat := (12 - s.fld t NTR.SIZE.STEPS) * 4096

def State.streamSets (s : State) (t : Nat) : Nat := (12 - s.fld t NTR.SIZE.STEPS) * 256

/-- The set index of AMS range n in a class (R68). -/
def setIndex (stream : Bool) (sets n : Nat) : Nat :=
  let m := if stream then n / 16 else n
  let f := (m % 2 ^ 32) ^^^ (if stream then bitsOf m 32 7 * 2 ^ 17 else bitsOf m 32 11 * 2 ^ 13)
  (f * 0x9E3779B1) % 2 ^ 32 * sets / 2 ^ 32

/-- The set of AMS range n of tile t. -/
def State.setOf (s : State) (t : Nat) (stream : Bool) (n : Nat) : Nat :=
  setIndex stream (if stream then s.streamSets t else s.hostSets t) n

/-- Whether way w takes lines of a class: assigned to it, powered, not cleaning. -/
def State.wayServes (s : State) (t : Nat) (stream : Bool) (w : Nat) : Bool :=
  (s.fld t TCH.WAYCLASS.STREAM).testBit w == stream && (s.fld t TCH.WAYSTAT.POWERED).testBit w &&
  !(s.fld t TCH.WAYSTAT.CLEANING).testBit w

/-- Whether a fill in progress holds way w of a set. -/
def State.wayHeld (s : State) (t : Nat) (stream : Bool) (set w : Nat) : Bool :=
  s.cache.missq.any (fun m => m.tile == t && m.stream == stream && m.way == some w && s.setOf t stream m.n == set)

/-- Whether way w of a set may be allocated in a class (R69). -/
def State.eligible (s : State) (t : Nat) (stream : Bool) (set w : Nat) : Bool := s.wayServes t stream w && !s.wayHeld t stream set w

/-- Whether way w holds a valid line in the set of a class. -/
def State.wayValid (s : State) (t : Nat) (stream : Bool) (set w : Nat) : Bool :=
  s.cache.ranges.any (fun r => r.tile == t && r.way == w && r.stream == stream && s.setOf t stream r.n == set)

/-- The key of a pseudo-LRU tree. -/
def plruKey (t : Nat) (stream : Bool) (set : Nat) : Nat := (t * 2 + b2n stream) * 65536 + set

/-- The walk of R69 from node k over `size` ways from `lo`, taking the other subtree where none of the chosen is eligible. -/
def plruWalk (bits : Nat) (el : Nat → Bool) : Nat → Nat → Nat → Nat → Nat
  | 0, _, lo, _ => lo
  | f + 1, k, lo, size =>
    let h := size / 2
    let hi := bits.testBit k
    let hasLo := (List.range h).any (fun i => el (lo + i))
    let hasHi := (List.range h).any (fun i => el (lo + h + i))
    if (hi && hasHi) || !hasLo then plruWalk bits el f (2 * k + 1) (lo + h) h
    else plruWalk bits el f (2 * k) lo h

/-- The tree bits with the path to way w pointing away from it. -/
def plruTouch (bits w : Nat) : Nat :=
  [(1, 3), (2 + w / 8, 2), (4 + w / 4, 1), (8 + w / 2, 0)].foldl (fun b e => setBit b e.1 (!w.testBit e.2)) bits

/-- The victim way of R69, if any way is eligible. -/
def State.victim (s : State) (t : Nat) (stream : Bool) (set : Nat) : Option Nat :=
  let el := fun w => s.eligible t stream set w
  match (List.range 16).find? (fun w => el w && !s.wayValid t stream set w) with
  | some w => some w
  | none =>
    if (List.range 16).any el then
      some (plruWalk (amapGet 0 s.cache.plru (plruKey t stream set)) el 4 1 0 16)
    else none

/-- A hit or fill in a way of a set turns the tree away from it. -/
def State.touchWay (s : State) (t : Nat) (stream : Bool) (set w : Nat) : State :=
  let k := plruKey t stream set
  { s with cache := { s.cache with plru := amapSet 0 s.cache.plru k (plruTouch (amapGet 0 s.cache.plru k) w) } }

/-! ### The eviction buffer (R73) -/

/-- Eviction buffer entries of a tile, oldest first. -/
def State.evbOf (s : State) (t : Nat) : List EvbEntry := s.cache.evb.filter (fun e => e.tile == t)

/-- Whether an entry of the eviction buffer can leave now. -/
def State.evbLeaves (s : State) (e : EvbEntry) : Bool := (s.homeOf (e.n / 2 ^ 14)).all (fun h => h.tile != e.tile || s.homeTakes h e.n)

/-- An entry leaves the eviction buffer once the main tier or Firn takes it. -/
def State.writeBack (s : State) (e : EvbEntry) : State :=
  if !s.evbLeaves e then s else
  let s1 := { s with cache := { s.cache with evb := s.cache.evb.erase e } }.bump e.tile TCH.WRITEBACK.COUNT 1
  match s1.homeOf (e.n / 2 ^ 14) with
  | some h => if h.tile = e.tile then s1.setHomeRange h e.n e.data else s1
  | none => s1

/-- A dirty range enters the eviction buffer. -/
def State.pushEvb (s : State) (t n : Nat) (bs : List Byte) : State := { s with cache := { s.cache with evb := s.cache.evb ++ [⟨t, n, bs⟩] } }

/-- The ranges that p picks leave the cache; the dirty ones go to the eviction buffer. -/
def State.evict (s : State) (p : CRange → Bool) : State :=
  let out := s.cache.ranges.filter p
  (out.filter (·.dirty)).foldl (fun a r => a.pushEvb r.tile r.n r.data)
    { s with cache := { s.cache with ranges := s.cache.ranges.filter (fun r => !p r) } }

/-! ### Allocation (R69, R73) -/

/-- Whether the cache of a tile allocates (ENABLED, Table 3.3). -/
def State.allocates (s : State) (t : Nat) : Bool := s.fld t TCH.STATUS.STATE == 0

/-- The valid cached copy of AMS range n on a tile. -/
def State.cached (s : State) (t n : Nat) : Option CRange := s.cache.ranges.find? (fun r => r.tile == t && r.n == n)

/-- The eviction buffer entry of AMS range n on a tile. -/
def State.evbAt (s : State) (t n : Nat) : Option EvbEntry := s.cache.evb.find? (fun e => e.tile == t && e.n == n)

/-- The way that a range goes to: that of its stream-class line, valid or in fill, where it still takes lines, else the victim. -/
def State.wayFor (s : State) (t : Nat) (stream : Bool) (n : Nat) : Option Nat :=
  let mine := if stream then ((s.cache.ranges.find? (fun r => r.tile == t && r.stream && r.n / 16 == n / 16)).map (·.way)).or
      ((s.cache.missq.find? (fun m => m.tile == t && m.stream && m.n / 16 == n / 16)).bind (·.way)) else none
  (mine.filter (fun w => s.wayServes t stream w)).or (s.victim t stream (s.setOf t stream n))

/-- What stands in a way where a range goes to and is no part of its line. -/
def State.inWay (s : State) (t : Nat) (stream : Bool) (n w : Nat) (r : CRange) : Bool :=
  r.tile == t && r.way == w && r.stream == stream && s.setOf t stream r.n == s.setOf t stream n && !(stream && r.n / 16 == n / 16)

/-- Dirty ranges that an allocation in a way evicts. -/
def State.dirtyInWay (s : State) (t : Nat) (stream : Bool) (n w : Nat) : Nat :=
  (s.cache.ranges.filter (fun r => r.dirty && s.inWay t stream n w r)).length

/-- Whether the eviction buffer of a tile has room for k entries more. -/
def State.evbRoom (s : State) (t k : Nat) : Bool := decide ((s.evbOf t).length + k ≤ 64)

/-- An allocation that waits for room in the eviction buffer (R73). -/
def State.evbStall (s : State) (t : Nat) : State := (s.ev t TCH.EVENTS.EVB_FULL).bump t TCH.EVB_STALL.COUNT 1

/-- The eviction buffer drains until it has room for k entries; the first argument bounds the entries that leave. -/
def State.drainEvb (s : State) (t k : Nat) : Nat → State
  | 0 => s
  | f + 1 =>
    if s.evbRoom t k then s else
    match (s.evbOf t).find? s.evbLeaves with
    | some e => (s.writeBack e).drainEvb t k f
    | none => s

/-- A way for a range, its victim evicted. An allocation that needs room in the eviction buffer has waited until the oldest entries left it; there is
none while they cannot leave (DESIGN CHOICE, log entry 17). -/
def State.allocWay (s : State) (t : Nat) (stream : Bool) (n : Nat) : Option (Nat × State) :=
  match s.wayFor t stream n with
  | none => none
  | some w =>
    let k := s.dirtyInWay t stream n w
    let s1 := if s.evbRoom t k then s else (s.evbStall t).drainEvb t k 64
    if s1.evbRoom t k then some (w, s1.evict (s1.inWay t stream n w)) else none

/-- A range is valid in a way. -/
def State.putRange (s : State) (t : Nat) (stream : Bool) (n w : Nat) (bs : List Byte) (dirty : Bool) : State :=
  (s.updCache (fun c => { c with ranges := c.ranges ++ [⟨t, n, w, stream, dirty, bs⟩] })).touchWay t stream (s.setOf t stream n) w

/-- A range allocated in a class, or written to its home where there is no way for it. -/
def State.fill (s : State) (t : Nat) (stream : Bool) (n : Nat) (bs : List Byte) (dirty : Bool) : State :=
  match s.allocWay t stream n with
  | some (w, s1) => s1.putRange t stream n w bs dirty
  | none => if dirty then (match s.homeOf (n / 2 ^ 14) with
      | some h => s.setHomeRange h n bs
      | none => s) else s

/-- Whether a read of a deep home is served without allocation (`TCH.CTRL.DEEP_NOALLOC`). -/
def State.noAlloc (s : State) (h : Home) : Bool := h.tier == 2 && s.flag h.tile TCH.CTRL.DEEP_NOALLOC

/-- The counters of Table 3.10 for a class. -/
def hitCnt (stream : Bool) : Fld := if stream then TCH.STREAM_HIT.COUNT else TCH.HOST_HIT.COUNT

def missCnt (stream : Bool) : Fld := if stream then TCH.STREAM_MISS.COUNT else TCH.HOST_MISS.COUNT

/-! ### The miss queue (R70) -/

/-- The requesters of a range are served: its bytes, or its poison. -/
def State.serve (s : State) (t n waiters : Nat) (bs : List Byte) : State := s.send (.served t n waiters ((s.poisonAt n).getD 0) bs)

/-- A fill ends: its line is valid in the way it holds, and its waiters have their data, from the eviction buffer where that holds it (R73). It
waits while its page cannot be read. -/
def State.fillEntry (s : State) (m : MissEntry) : State :=
  if !s.pagesReady (m.n * 128) 128 then s else
  let s1 := s.updCache (fun c => { c with missq := c.missq.erase m })
  match s1.homeOf (m.n / 2 ^ 14) with
  | none => s1
  | some h =>
    if h.tile != m.tile then s1 else
    let bs := match s1.cached m.tile m.n, s1.evbAt m.tile m.n with
      | some r, _ => r.data
      | none, some e => e.data
      | none, none => s1.homeRange h m.n
    let s2 := match s1.evbAt m.tile m.n with
      | some e => s1.writeBack e
      | none => s1
    let s3 := match m.way with
      | some w => if s2.allocates m.tile && (s2.cached m.tile m.n).isNone && (s2.evbAt m.tile m.n).isNone then
          s2.putRange m.tile m.stream m.n w bs false else s2
      | none => s2
    s3.serve m.tile m.n m.waiters bs

/-! ### Maintenance (R74, R75) -/

/-- Whether two maintenance operations name a common range. -/
def MaintOp.meets (a b : MaintOp) : Bool := a.tile == b.tile && decide (a.n < b.n + b.count) && decide (b.n < a.n + a.count)

/-- Whether an operation covers AMS range n of a tile. -/
def MaintOp.covers (m : MaintOp) (t n : Nat) : Bool := m.tile == t && decide (m.n ≤ n) && decide (n < m.n + m.count)

/-- Whether an operation may run: the writes admitted before it are applied, and the operations issued before it on its range have ended. -/
def State.maintRuns (s : State) (m : MaintOp) : Bool :=
  !s.net.portions.any (fun p => p.st == .admitted && m.after.contains p.id) &&
  !(s.cache.maint.takeWhile (fun x => x != m)).any (fun x => x.meets m)

/-- The lines of a range [n, n + k) go home: CLEAN leaves them valid, INVALIDATE does not. Fills in progress there end first. -/
def State.maintain (s : State) (t n k : Nat) (invalidate : Bool) : State :=
  let inside := fun (m : Nat) => decide (n ≤ m) && decide (m < n + k)
  let s1 := (s.cache.missq.filter (fun m => m.tile == t && inside m.n)).foldl State.fillEntry s
  let s2 := (s1.cache.evb.filter (fun x => x.tile == t && inside x.n)).foldl (fun a x => a.writeBack x) s1
  (s2.cache.ranges.filter (fun r => r.tile == t && inside r.n)).foldl (fun a r =>
    let free := (a.homeOf (r.n / 2 ^ 14)).all (fun h => a.homeTakes h r.n)
    if r.dirty && !free then a else
    let b := if r.dirty then (a.pushEvb t r.n r.data).writeBack ⟨t, r.n, r.data⟩ else a
    b.updCache (fun c => { c with ranges := if invalidate then c.ranges.erase r else c.ranges.map (fun x => if x = r then { x with dirty := false } else x) })) s2

/-- Whether an operation over [n, n + k) has ended: every line written back, none left in the eviction buffer, and after INVALIDATE none valid. -/
def State.maintained (s : State) (t n k : Nat) (invalidate : Bool) : Bool :=
  let inside := fun (m : Nat) => decide (n ≤ m) && decide (m < n + k)
  !s.cache.ranges.any (fun r => r.tile == t && inside r.n && (invalidate || r.dirty)) && !s.cache.evb.any (fun x => x.tile == t && inside x.n) &&
  !s.cache.missq.any (fun m => m.tile == t && inside m.n)

/-- An operation that may run acts; it ends when all of it is done. -/
def State.runMaint (s : State) (m : MaintOp) : State :=
  if !s.maintRuns m then s else
  let s1 := s.maintain m.tile m.n m.count (m.op == 2)
  if !s1.maintained m.tile m.n m.count (m.op == 2) then s1 else
  let s2 := s1.updCache (fun c => { c with maint := c.maint.erase m })
  if m.asker = 0 then s2.setF m.tile TCH.MAINT_CMD.BUSY 0 else s2

/-- Whether a write of AMS range n goes on now: it has a line, a place for one, or a home that takes it (R73, R179; DESIGN CHOICE, log entry 17). -/
def State.rangeTakes (s : State) (h : Home) (n : Nat) : Bool :=
  let t := h.tile
  if h.tier = 0 || (s.cached t n).isSome || (s.evbAt t n).isSome then true
  else if !s.allocates t then s.homeTakes h n
  else match s.wayFor t false n with
    | none => s.homeTakes h n
    | some w =>
      let k := s.dirtyInWay t false n w
      s.evbRoom t k || (s.drainEvb t k 64).evbRoom t k

/-- What stands before a fill of AMS range n ends where it can: a maintenance operation on it (Table 3.2), the fill in progress for it. -/
def State.settleRange (s : State) (t n : Nat) : State :=
  let s1 := match s.cache.maint.find? (fun m => m.covers t n) with
    | some m => s.runMaint m
    | none => s
  match s1.cache.missq.find? (fun m => m.tile == t && m.n == n) with
  | some m => s1.fillEntry m
  | none => s1

/-! ### Reads and writes of one range -/

/-- The bytes of AMS range n at its home tile, without any effect. -/
def State.peekRange (s : State) (h : Home) (n : Nat) : List Byte :=
  match s.cached h.tile n with
  | some r => r.data
  | none => match s.evbAt h.tile n with
    | some e => e.data
    | none => s.homeRange h n

/-- The home is read for a range that its cache does not hold. -/
def State.fetchHome (s : State) (h : Home) (n : Nat) : State := if h.tier = 1 then s.decFetch h.tile (h.local (n * 128)) else s

/-- A read of AMS range n by a requester of a class, at its home (R62, R67). -/
def State.readRange (s0 : State) (h : Home) (stream : Bool) (n : Nat) : List Byte × State :=
  let t := h.tile
  let s := s0.settleRange t n
  match s.cached t n with
  | some r => (r.data, (s.bump t (hitCnt stream) 1).touchWay t r.stream (s.setOf t r.stream n) r.way)
  | none => match s.evbAt t n with
    | some e => (e.data, s.bump t (hitCnt stream) 1)
    | none =>
      let s1 := s.fetchHome h n
      let bs := s1.homeRange h n
      let s2 := if h.tier = 0 then s1 else s1.bump t (missCnt stream) 1
      (bs, if s2.allocates t && h.tier != 0 && !s2.noAlloc h then s2.fill t stream n bs false else s2)

/-- bs written over `old` from offset o. -/
def overlay (old : List Byte) (o : Nat) (bs : List Byte) : List Byte :=
  old.take o ++ bs ++ old.drop (o + bs.length)

/-- The poison that a write of len bytes into AMS range n from offset o clears: of the whole range, or of a burst of the main tier that it covers
(R71, R120, R132; DEDUCED, log entry 23). -/
def State.healRange (s : State) (h : Home) (n o len : Nat) : State :=
  if len = 128 then s.setPoison n none
  else if h.tier != 1 then s
  else [0, 1].foldl (fun a i => if o ≤ 64 * i && 64 * i + 64 ≤ o + len then a.setBurstPoison (2 * n + i) none else a) s

/-- A write into AMS range n from offset o, at its home (R71, R73). -/
def State.writeRange (s0 : State) (h : Home) (n o : Nat) (bs : List Byte) : State :=
  let t := h.tile
  let s := (s0.healRange h n o bs.length).settleRange t n
  match s.cached t n with
  | some r =>
    ((s.updCache (fun c => { c with ranges := c.ranges.map (fun x =>
      if x.tile = t && x.n = n then { x with dirty := true, data := overlay x.data o bs } else x) })).touchWay t r.stream
        (s.setOf t r.stream n) r.way).bump t TCH.HOST_HIT.COUNT 1
  | none => match s.evbAt t n with
    | some _ =>
      (s.updCache (fun c => { c with evb := c.evb.map (fun x =>
        if x.tile = t && x.n = n then { x with data := overlay x.data o bs } else x) })).bump t TCH.HOST_HIT.COUNT 1
    | none =>
      let s1 := if bs.length = 128 then s else s.fetchHome h n
      let new := overlay (s1.homeRange h n) o bs
      if h.tier = 0 then (s1.setHomeRange h n new).updDec (fun d => { d with near := d.near.filter (fun e =>
        !(decide (n * 128 + o ≤ e.1 * 8) && decide (e.1 * 8 + 8 ≤ n * 128 + o + bs.length))) })
      else if s1.allocates t then (s1.bump t TCH.HOST_MISS.COUNT 1).fill t false n new true
      else (s1.bump t TCH.HOST_MISS.COUNT 1).setHomeRange h n new

end Sys2Proof.Machine
end

