-- ==== Sys2Proof/Machine/Space.lean ====
section
/-! DEFINITION. The Appliance Memory Space as a tile serves it: reads and writes of AMS bytes through the home tiles, errors of what is read,
generations and dirty-budget tokens (chapters 2 and 3; R173 to R177). -/

namespace Sys2Proof.Machine

/-! ### Reads and writes of AMS bytes -/

/-- n bytes from AMS address a, within one extent of home h, range by range; the first argument bounds the ranges. -/
def State.readGo (s : State) (h : Home) (stream : Bool) : Nat → Nat → Nat → List Byte × State
  | 0, _, _ => ([], s)
  | k + 1, a, n =>
    if n = 0 then ([], s) else
    let len := min n (128 - a % 128)
    let (bs, s1) := s.readRange h stream (a / 128)
    let (r, s2) := s1.readGo h stream k (a + len) (n - len)
    (bytesAt bs (a % 128) len ++ r, s2)

/-- n bytes from AMS address a at home h. -/
def State.readHome (s : State) (h : Home) (stream : Bool) (a n : Nat) : List Byte × State :=
  s.readGo h stream (n / 128 + 2) a n

/-- n bytes from AMS address a without any effect. -/
def State.peekGo (s : State) : Nat → Nat → Nat → List Byte
  | 0, _, _ => []
  | k + 1, a, n =>
    if n = 0 then [] else
    let len := min n (128 - a % 128)
    let bs := match s.homeOf (a / 2 ^ 21) with
      | some h => bytesAt (s.peekRange h (a / 128)) (a % 128) len
      | none => List.replicate len 0
    bs ++ s.peekGo k (a + len) (n - len)

/-- n bytes from AMS address a as a read returns them now. -/
def State.peek (s : State) (a n : Nat) : List Byte := s.peekGo (n / 128 + 2) a n

/-- n bytes from AMS address a for a requester at tile `via`, extent by extent through each home tile's cache; the ingress tile looks up its home
map first (R32, R67). -/
def State.readAmsGo (s : State) (via : Nat) (stream : Bool) : Nat → Nat → Nat → List Byte × State
  | 0, _, _ => ([], s)
  | k + 1, a, n =>
    if n = 0 then ([], s) else
    let len := min n (2 ^ 21 - a % 2 ^ 21)
    let (bs, s1) := match s.homeOf (a / 2 ^ 21) with
      | some h => (s.lookMap via (a / 2 ^ 21)).readHome h stream a len
      | none => (List.replicate len 0, s)
    let (r, s2) := s1.readAmsGo via stream k (a + len) (n - len)
    (bs ++ r, s2)

/-- n bytes from AMS address a. -/
def State.readAms (s : State) (via : Nat) (stream : Bool) (a n : Nat) : List Byte × State :=
  s.readAmsGo via stream (n / 2 ^ 21 + 2) a n

/-- Bytes written from AMS address a on, range by range. -/
def State.writeGo (s : State) (h : Home) : Nat → Nat → List Byte → State
  | 0, _, _ => s
  | k + 1, a, bs =>
    if bs.isEmpty then s else
    let len := 128 - a % 128
    (s.writeRange h (a / 128) (a % 128) (bs.take len)).writeGo h k (a + len) (bs.drop len)

/-! ### Pages: generations, born state, tokens -/

/-- The GEN of a page (R175). -/
def State.gen (s : State) (p : Nat) : Nat := amapGet 0 s.firn.gens p

/-- A page's GEN set. -/
def State.setGen (s : State) (p g : Nat) : State := { s with firn := { s.firn with gens := amapSet 0 s.firn.gens p (g % 2 ^ 32) } }

/-- Whether GEN a is newer than GEN b (R175). -/
def newerGen (a b : Nat) : Bool :=
  let d := (a + 2 ^ 32 - b % 2 ^ 32) % 2 ^ 32
  decide (1 ≤ d) && decide (d < 2 ^ 31)

/-- A page has been written (R37, R123). -/
def State.setBorn (s : State) (p : Nat) : State :=
  if s.firn.born.contains p then s else { s with firn := { s.firn with born := s.firn.born ++ [p] } }

/-- A write is applied at its home in one step: its bytes, and GEN and the born state of every page it touches (R168, R175,
R123). -/
def State.applyBytes (s : State) (h : Home) (a : Nat) (bs : List Byte) : State :=
  (pagesOf a bs.length).foldl (fun x p => ((x.setGen p (x.gen p + 1)).setBorn p).noteRecopy p)
    (s.writeGo h (bs.length / 128 + 2) a bs)

/-- The pool of a tile (R173). -/
def State.pool (s : State) (t : Nat) : Nat := s.fld t FRN.CEIL.EFFECTIVE * 16384

/-- Free tokens of a tile; 0 while held exceeds the pool (R177). -/
def State.freeTokens (s : State) (t : Nat) : Nat := s.pool t - s.fld t FRN.HELD.PAGES

/-- The token table entry of a page on a tile. -/
def State.tokenOf (s : State) (t p : Nat) : Option Token := s.firn.tokens.find? (fun k => k.tile == t && k.page == p)

/-- A tile's Firn is in urgent mode (R181, R382, R387). -/
def State.isUrgent (s : State) (t : Nat) : Bool :=
  s.pool t == 0 || decide (s.freeTokens t * 100 < s.fld t FRN.CTRL.URGENT_PCT * s.pool t) || s.dstate == .restore ||
  decide (2 ≤ s.pow.target) || ((s.dstate == .service || s.dstate == .restricted) && !s.flag t AON.STATUS.ARMED)

/-- Marks a tile's entry into urgent mode. -/
def State.noteUrgent (s : State) (t : Nat) : State :=
  if s.isUrgent t then
    (if s.firn.urgent.contains t then s else { s with firn := { s.firn with urgent := s.firn.urgent ++ [t] } }.ev t FRN.EVENTS.URGENT)
  else { s with firn := { s.firn with urgent := s.firn.urgent.erase t } }

/-- Updates the token of a page. -/
def State.updToken (s : State) (t p : Nat) (f : Token → Token) : State :=
  { s with firn := { s.firn with tokens := s.firn.tokens.map (fun k => if k.tile = t && k.page = p then f k else k) } }

/-- Takes a token for a page with an in-flight count (R174). -/
def State.takeToken (s : State) (t p n : Nat) : State :=
  ((s.updFirn (fun f => { f with tokens := f.tokens ++ [⟨t, p, s.gen p, none, n, s.now⟩] })).bump t
    FRN.HELD.PAGES 1).noteUrgent t

/-- A page's token returns to the pool. -/
def State.returnToken (s : State) (t p : Nat) : State :=
  if (s.tokenOf t p).isNone then s else
  (({ s with firn := { s.firn with tokens := s.firn.tokens.filter (fun k => !(k.tile == t && k.page == p)) } }.drop t
    FRN.HELD.PAGES 1).bump t FRN.RETURNED.COUNT 1).noteUrgent t

/-- The tokens a grant of pages ps needs (R174). -/
def State.tokensNeeded (s : State) (t : Nat) (ps : List Nat) : Nat := (ps.filter (fun p => (s.tokenOf t p).isNone)).length

/-- A granted request: in-flight counts up, new entries taken (R174). -/
def State.grantTokens (s : State) (t : Nat) (ps : List Nat) : State :=
  ps.foldl (fun a p => if (a.tokenOf t p).isSome then a.updToken t p (fun k => { k with inflight := k.inflight + 1 })
    else a.takeToken t p 1) s

/-- A portion is no longer in flight for pages ps: counts down, and the token of a page whose GEN has not moved since it was
taken returns at once (R176). -/
def State.settleTokens (s : State) (t : Nat) (ps : List Nat) : State :=
  ps.foldl (fun a p =>
    let b := a.updToken t p (fun k => { k with inflight := k.inflight - 1 })
    match b.tokenOf t p with
    | some k => if k.inflight = 0 && k.taken = b.gen p then b.returnToken t p else b
    | none => b) s

/-- Whether a page is dirty on its tile (R167). -/
def State.dirtyPage (s : State) (t p : Nat) : Bool := (s.tokenOf t p).isSome

/-- A page was never written any more: its contents, born state, GEN, poison and tokens are dropped (R124, R244). -/
def State.forgetPage (s : State) (p : Nat) : State :=
  let s0 := s.updDeep (fun d => { d with state2 := d.state2.filter (fun x => x.1.2 != p) })
  let s1 := s0.allTiles (fun t a => ((a.returnToken t p).unmapDeep t p).freeDen t (p / 512))
  { s1 with firn := { s1.firn with
      born := s1.firn.born.filter (fun q => q != p), gens := amapErase p s1.firn.gens,
      poison := s1.firn.poison.filter (fun e => e.1 / 64 != p),
      ranges := s1.firn.ranges.filter (fun r => r.n / 32 != p),
      caps := s1.firn.caps.map (fun c => { c with pages := c.pages.filter (fun x => x.page != p) }),
      heads := s1.firn.heads.filter (fun q => q != p), unrestored := s1.firn.unrestored.filter (fun q => q != p) } }

/-! ### Recovery of main-tier bursts and near-tier words (R59, R131, R132) -/

/-- A page's current backing image: GEN equal to the page's, local copy first (R36). -/
def State.currentImage (s : State) (t q : Nat) : Option DeepPage :=
  let ok := fun (d : DeepPage) => d.page == q && d.gen == s.gen q
  match s.firn.deep.find? (fun d => d.tile == t && ok d) with
  | some d => some d
  | none => s.firn.deep.find? ok

/-- DEEP_TIER_ERROR: tile, DEN, page, step reached, identifier. -/
def State.deepError (s : State) (t p step id : Nat) : State :=
  s.notify 0x03F2 (build339 [(1, t), (4, (s.denOf t (p / 512)).getD 0), (2, p % 512), (1, step), (4, id)])

/-- An uncorrectable burst is dealt with: MAIN_TIER_ERROR (outcome 0 image, 1 partner, 2 poisoned), its page to be retired. -/
def State.ueDone (s : State) (t a id outcome : Nat) : State :=
  let c := (s.locate t (s.physAt t a)).1
  (s.updDec (fun d => { d with
    ues := d.ues.filter (fun u => u != (t, a))
    retire := if d.retire.any (fun e => e.1 == t && e.2.1 == a / 4096) then d.retire else d.retire ++ [(t, a / 4096, c)] })).notify
    0x03F1 (build339 [(1, t), (1, c), (8, a), (4, id), (1, outcome)])

/-- A burst of the memory space is stored as poison with a new identifier (R131 step 3); one record. -/
def State.uePoison (s : State) (t a b : Nat) : State :=
  let (i, s1) := s.newErrId t
  let pa := s1.physAt t a
  ((((s1.setBurstPoison b (some i)).unwild t (a / 4096) [a % 4096 / 64]).storeBurst t pa []).recBit t DEC.EVENTS.UE a).ueDone t a i 2

/-- The page is written again with fresh check bytes from other bytes: image (0) or partner (1); its other bursts that wait are recovered with it. -/
def State.ueReload (s : State) (t a q : Nat) (bs : List Byte) (outcome : Nat) : State :=
  let s1 := ((s.decWrite t (a / 4096 * 4096) bs).noteRecopy q).updDec (fun d => { d with
    ues := d.ues.filter (fun u => !(u.1 == t && u.2 / 4096 == a / 4096)) })
  s1.ueDone t a 0 outcome

/-- Recovery of an uncorrectable burst in the order of R131; during FREEZE step 3 alone. -/
def State.ueRecover (s : State) (t a : Nat) : State :=
  match s.amsPage t (a / 4096) with
  | some q =>
    let b := q * 64 + a % 4096 / 64
    if !s.bornLocal t (a / 4096) then s.updDec (fun d => { d with ues := d.ues.filter (fun u => u != (t, a)) })
    else if s.dstate == .freeze then s.uePoison t a b
    else match (if s.dirtyPage t q then none else s.currentImage t q) with
      | some d => s.ueReload t a q (s.deepBytes d.tile q 0 4096) 0
      | none => if s.classAt (q * 4096) == 2 && s.mayFetch t q then s.sendFetch t q else s.uePoison t a b
  | none => s.updDec (fun d => { d with ues := d.ues.filter (fun u => u != (t, a)) })

/-- What is wrong in the near-tier words of [a, a + n) is overwritten. -/
def State.clearNear (s : State) (a n : Nat) : State :=
  s.updDec (fun d => { d with near := d.near.filter (fun e => !(decide (a ≤ e.1 * 8) && decide (e.1 * 8 + 8 ≤ a + n))) })

/-- A page of the near tier is poison; in an extent with SH with the notification and the record of R155. -/
def State.nearPoison (s : State) (h : Home) (p : Nat) : State :=
  let (i, s1) := s.newErrId h.tile
  let s2 := (s1.poisonAll p i).clearNear (p * 4096) 4096
  if h.sh then ((s2.deepError h.tile p 6 i).ev h.tile DTM.EVENTS.POISON).enqueueRec h.tile (s2.stamp h.tile 0x18 0x0100 4 i) else s2

/-- A near-tier word of a page that SECDED cannot correct (R59): reloaded from a current backing image, in an extent with SH fetched
from the partner where that may be, else the page is poison. -/
def State.nearError (s : State) (h : Home) (p : Nat) : State :=
  match (if s.dirtyPage h.tile p then none else s.currentImage h.tile p) with
  | some d => (s.setBytes .near h.tile (h.local (p * 4096)) (s.deepBytes d.tile p 0 4096)).clearNear (p * 4096) 4096
  | none =>
    if h.sh && s.classAt (p * 4096) == 2 && s.mayFetch h.tile p then s.sendFetch h.tile p else s.nearPoison h p

/-- Near-tier words found wrong by what is read next. -/
def State.addNear (s : State) (l : List NearErr) : State :=
  s.updDec (fun d => { d with near := d.near.filter (fun e => !l.any (fun x => x.word == e.1)) ++ l.map (fun x => (x.word, x.uncorr)) })

/-- A wrong near-tier word that a read meets: counted, and corrected or dealt with. -/
def State.meetNear (s : State) (e : Nat × Bool) : State :=
  match s.homeOf (e.1 / 2 ^ 18) with
  | some h =>
    if h.tier != 0 then s else
    let s1 := s.updDec (fun d => { d with near := d.near.erase e })
    if e.2 then (s1.bump h.tile NTR.ECC.UNCORR 1).nearError h (e.1 / 512) else s1.bump h.tile NTR.ECC.CORR 1
  | none => s

/-- A read of the n bytes at a begins: bursts of the main tier that do not decode and no cached copy hides, and wrong words of the near tier, are
found and their recovery starts; what is to be read is ready when `pagesReady` says so. -/
def State.probe (s : State) (a n : Nat) : State :=
  if !s.pagesReady a n then s else
  let inside := fun (b : Nat) => decide (a < (b + 1) * 64) && decide (b * 64 < a + n)
  let hidden := fun (t b : Nat) => (s.cached t (b / 2)).isSome || (s.evbAt t (b / 2)).isSome
  let wilds := s.dec.wild.flatMap (fun e => (List.range 64).map (fun i => (e.1, s.physAt e.1 (e.2 * 4096) + 64 * i)))
  let bursts := (wilds ++ s.dec.faults.map (fun f => (f.1, f.2.1))).dedup.filter (fun e =>
    ((s.amsBurst e.1 e.2).any (fun b => inside b && !hidden e.1 b)) && s.decoded e.1 e.2 [] == .bad)
  let s1 := bursts.foldl (fun x e => x.burstRead e.1 e.2 [] false) s
  (s1.dec.near.filter (fun e => decide (a < e.1 * 8 + 8) && decide (e.1 * 8 < a + n))).foldl State.meetNear s1

/-- Reads of whole pages begin. -/
def State.probePages (s : State) (ps : List Nat) : State := ps.foldl (fun a p => a.probe (p * 4096) 4096) s

/-- The reads of what a write of the n bytes at a leaves of its first and last range begin (R71). -/
def State.probeEdges (s : State) (a n : Nat) : State :=
  if a % 128 = 0 && n % 128 = 0 then s
  else (s.probe (a / 128 * 128) 128).probe ((a + n - 1) / 128 * 128) 128

end Sys2Proof.Machine
end

