-- ==== Sys2Proof/Machine/Ring.lean ====
section
/-! DEFINITION. The Moraine event ring: arrivals, the open record and commits (R437, R438, R441 to R443, R446). -/

namespace Sys2Proof.Machine

/-- The bytes of a record with its SEQ (Table 17.2). -/
def EvRec.toBytes (r : EvRec) (seq : Nat) : List Byte :=
  leBytes 4 seq ++ leBytes 6 r.ptime ++ leBytes 6 r.ctime ++
  leBytes 1 (b2n r.tq * 128 + b2n r.coarse * 64 + b2n r.denied * 32 + r.sev) ++ leBytes 1 r.source ++
  leBytes 2 r.code ++ leBytes 2 r.rep ++ leBytes 2 r.roleSession ++ leBytes 8 r.arg

/-- Whether an event matches the open record (R442). -/
def EvRec.matches (o r : EvRec) (windowMs : Nat) : Bool :=
  !r.solo && o.source == r.source && o.code == r.code && o.arg == r.arg && decide (r.ptime - o.ptime ≤ windowMs * 1000)

/-- The store address of the slot of a SEQ (R441). -/
def ringAddr (seq : Nat) : Nat := 0x200000 + 32 * (seq % 131072)

/-- The open record goes to the end of tile 0's queue. -/
def State.commitOpen (s : State) : State :=
  match s.recd.openRec with
  | some o => { s with recd := { s.recd with queue := s.recd.queue ++ [o], openRec := none } }
  | none => s

/-- A record that has arrived at tile 0 (R438, R442, R446). -/
def State.arrive (s : State) (r : EvRec) : State :=
  match s.recd.openRec with
  | some o =>
    if o.matches r (s.fld 0 EVR.CTRL.WINDOW_MS) then
      { s with recd := { s.recd with openRec := some { o with rep := min 65535 (o.rep + 1) } } }.bump 0 EVR.COALESCED.COUNT 1
    else if 4096 ≤ s.recd.queue.length then s.loseEvent 0
    else if r.solo then
      (let s1 := s.commitOpen
       if 4096 ≤ s1.recd.queue.length then s1.loseEvent 0
       else { s1 with recd := { s1.recd with queue := s1.recd.queue ++ [r] } })
    else { s.commitOpen with recd := { s.commitOpen.recd with openRec := some r } }
  | none =>
    if 4096 ≤ s.recd.queue.length then s.loseEvent 0
    else if r.solo then { s with recd := { s.recd with queue := s.recd.queue ++ [r] } }
    else { s with recd := { s.recd with openRec := some r } }

/-- Once 64 entries are free again in tile 0's queue and in every tile queue that dropped, one RECORDS_LOST record carries
the number dropped (R446). -/
def State.reportLost (s : State) : State :=
  if s.recd.lost != 0 && decide (s.recd.queue.length + 64 ≤ 4096) &&
      s.recd.lostTiles.all (fun t => !(s.recd.tileQ.any (fun e => e.1 == t))) then
    let s1 := s.commitOpen
    { s1 with recd := { s1.recd with
        queue := s1.recd.queue ++ [{ s1.stamp 0 0x3C 0x0101 3 (min s1.recd.lost (2 ^ 32 - 1)) with solo := true }],
        lost := 0, lostTiles := [] } }
  else s

/-- Whether the record of a commit is notified (R447). -/
def State.notifies (s : State) (r : EvRec) : Bool :=
  if r.source = 0x3F then r.denied else decide (s.fld 0 EVR.CTRL.NOTIFY_SEV ≤ r.sev)

/-- The record r takes the next SEQ and is programmed into the ring, its sector erased first where it opens one (R437,
R441). -/
def State.program1 (s : State) (r : EvRec) : State :=
  let seq := (s.fld 0 EVR.WSEQ.SEQ + 1) % 2 ^ 32
  let a := ringAddr seq
  let s1 := if seq % 64 = 0 then s.eraseSectors 0 a 2048 else s
  let s2 := ((s1.programBytes 0 a (r.toBytes seq)).setF 0 EVR.WSEQ.SEQ seq).bump 0 EVR.RECORDS.COUNT 1
  if s2.notifies r then s2.notify 0x07F0 (r.toBytes seq) else s2

/-- The head of tile 0's queue is committed (R441). -/
def State.commitHead (s : State) : State :=
  match s.recd.queue with
  | r :: q => { s with recd := { s.recd with queue := q } }.program1 r
  | [] => s

/-- Every queued record is committed in order; the number bounds them. -/
def State.commitAll : Nat → State → State
  | 0, s => s
  | n + 1, s => State.commitAll n s.commitHead

/-- The open record and then the queue, committed in order (R443, R444). -/
def State.flushRing (s : State) : State := State.commitAll s.commitOpen.recd.queue.length s.commitOpen

/-- The SEQ the open record, or else the next record, will take (R442). -/
def State.openSeq (s : State) : Nat := (s.fld 0 EVR.WSEQ.SEQ + s.recd.queue.length + 1) % 2 ^ 32

end Sys2Proof.Machine
end

