-- ==== Sys2Proof/Machine/SessionOps.lean ====
section
/-! DEFINITION. Key slots as the session engine uses them, and the end of a session (R347). -/

namespace Sys2Proof.Machine

/-- A key slot. -/
def State.slot (s : State) (n : Nat) : KeySlot := amapGet KeySlot.empty s.kse.slots n

/-- A key slot replaced. -/
def State.setSlot (s : State) (n : Nat) (k : KeySlot) : State :=
  { s with kse := { s.kse with slots := amapSet KeySlot.empty s.kse.slots n k } }

/-- Raw encryption under a key slot. -/
def KeySlot.enc (k : KeySlot) : BitVec 128 → BitVec 128 := Config.aesEnc k.size256 k.key

/-- 16 bytes from the DRBG (R404); `none` while it gives no output (R405). -/
def State.generate (s : State) : Option (BitVec 128 × State) :=
  if s.flag 0 KSE.STATUS.ENTROPY_OK then
    let (v, s1) := s.draw
    some (BitVec.ofNat 128 v,
      { s1 with kse := { s1.kse with sinceSeed := s1.kse.sinceSeed + 1 } }.bump 0 KSE.GENERATED.COUNT 1)
  else none

/-- A session ends (R347): its key slot is emptied, an update it began is abandoned (R367), MB0's notifications go. -/
def State.endSession (s : State) (p : Nat) : State :=
  match s.sessionAt p with
  | none => s
  | some x =>
    let s1 := { s with mb := { s.mb with sessions := s.mb.sessions.filter (fun y => y.point != p),
                                          ntf0 := if p = 0 then [] else s.mb.ntf0 } }
    let s2 := s1.setF 0 MGT.MBOX.SESSION (setBit (s1.fld 0 MGT.MBOX.SESSION) p false)
    let s3 := s2.setSlot (8 + p) { s2.slot (8 + p) with valid := false }
    match s3.boot.update with
    | some u => if u.session = x.id then { s3 with boot := { s3.boot with update := none } } else s3
    | none => s3

/-- Every session of a role ends. -/
def State.endRole (s : State) (r : Nat) : State :=
  ((s.mb.sessions.filter (fun x => x.role == r)).map (·.point)).foldl State.endSession s

/-- Every session ends (R347: power loss, Freeze, SYS_RESET). -/
def State.endAllSessions (s : State) : State := (s.mb.sessions.map (·.point)).foldl State.endSession s

end Sys2Proof.Machine
end

