-- ==== Sys2Proof/Machine/Lanes.lean ====
section
/-! DEFINITION. Feed streams as the rest of the device meets them: their sources, the bandwidth books (R302, R303), holds on moves
(R304), near-tier frames of FIFOs (R58), and how streams end (R301, R327); and the Snowbridge mesh (R15, R18). -/

namespace Sys2Proof.Machine

/-! ### The Snowbridge mesh -/

/-- The links that join two tiles of the mesh. -/
def meshLinks (tiles a b : Nat) : Nat :=
  match tiles with
  | 8 => if a / 4 = b / 4 then (if (a + 1) % 4 = b % 4 || (b + 1) % 4 = a % 4 then 1 else 0) else if a % 4 = b % 4 then 2 else 0
  | 4 => if a ^^^ 1 = b || a ^^^ 2 = b then 2 else 0
  | _ => if a ^^^ 1 = b then 4 else 0

/-- The links of a hop in service. -/
def State.hopLinks (s : State) (a b : Nat) : Nat := meshLinks s.tiles a b - amapGet 0 s.feed.hops (a * 8 + b)

/-- Which of the links in service of a hop carries the traffic of a page: all of it uses one (R15). Nothing else the device does depends on
it (DESIGN CHOICE, log entry 66). -/
def State.pageLink (s : State) (a b page : Nat) : Nat := Config.linkHash page % s.hopLinks a b

/-- The hops along a row ring of four from column a in steps of d (1 or 3), n of them. -/
def ringHops (row d : Nat) : Nat → Nat → List (Nat × Nat)
  | _, 0 => []
  | a, n + 1 => (row * 4 + a, row * 4 + (a + d) % 4) :: ringHops row d ((a + d) % 4) n

/-- Whether every hop of a route is in service. -/
def State.routeUp (s : State) (r : List (Nat × Nat)) : Bool := r.all (fun h => decide (0 < s.hopLinks h.1 h.2))

/-- The route from tile a to tile b (R15), row first; on a BX-8 the other direction of the ring where the chosen one has lost a
link (R18). -/
def State.meshRoute (s : State) (a b : Nat) : List (Nat × Nat) :=
  match s.tiles with
  | 8 =>
    let up := (b % 4 + 4 - a % 4) % 4
    let x := ringHops (a / 4) 1 (a % 4) up
    let y := ringHops (a / 4) 3 (a % 4) ((4 - up) % 4)
    let row := if up ≤ 2 then (if s.routeUp x then x else y) else (if s.routeUp y then y else x)
    let corner := a / 4 * 4 + b % 4
    row ++ (if a / 4 = b / 4 then [] else [(corner, b)])
  | 4 =>
    let corner := a / 2 * 2 + b % 2
    (if a % 2 = b % 2 then [] else [(a, corner)]) ++ (if a / 2 = b / 2 then [] else [(corner, b)])
  | _ => if a = b then [] else [(a, b)]

/-- Whether every tile can reach every other (R18) on the route of R15 or, in a row of the BX-8, the other way round its ring (DEDUCED,
log entry 70: no other detour counts). -/
def State.meshWhole (s : State) : Bool :=
  s.everyTile (fun a => s.everyTile (fun b => s.routeUp (s.meshRoute a b)))

/-- Links between tile t and its neighbours that fail to train are retired until the next boot (R18): the digit p of `detail` to the base 16
is how many of those to tile p; both ends report a link. -/
def State.linksUntrained (s : State) (t detail : Nat) : State :=
  (List.range s.tiles).foldl (fun a p =>
    let n := min (detail / 16 ^ p % 16) (meshLinks s.tiles t p)
    if n ≤ amapGet 0 a.feed.hops (t * 8 + p) then a
    else { a with feed := { a.feed with hops := amapSet 0 (amapSet 0 a.feed.hops (t * 8 + p) n) (p * 8 + t) n } }.recOpen t 0x01 p) s

/-! ### Streams -/

/-- The feed group changed. -/
def State.updFeed (s : State) (f : Feed → Feed) : State := { s with feed := f s.feed }

/-- A stream that is not FREE. -/
def State.fstream (s : State) (n : Nat) : Option FStream := s.feed.streams.find? (fun x => x.cfg.num == n)

/-- A stream changed. -/
def State.updStream (s : State) (n : Nat) (f : FStream → FStream) : State :=
  s.updFeed (fun d => { d with streams := d.streams.map (fun x => if x.cfg.num = n then f x else x) })

/-- The raster-line size L (R300), bits per nozzle 1, 2 or 4. -/
def StreamCfg.lineBytes (c : StreamCfg) : Nat := 2 ^ c.bpn * ceilDiv c.pos 64 * 8

/-- A FIFO slot: L rounded up to 128 B (R306). -/
def StreamCfg.slotBytes (c : StreamCfg) : Nat := alignUp c.lineBytes 128

/-- One past the last source byte (R300). -/
def StreamCfg.srcEnd (c : StreamCfg) : Nat := c.src + (c.lines - 1) * c.pitch + c.lineBytes

/-- The bandwidth of a stream, B/s, rounded up (R302). -/
def StreamCfg.rate (c : StreamCfg) : Nat := ceilDiv (c.lineBytes * 10 ^ 9) c.tmin

/-- The feed tile and lane of a stream number (R299). -/
def feedTileOf (n : Nat) : Nat := n / 32
def feedLaneOf (n : Nat) : Nat := n % 32 / 8

/-- Whether an extent holds source data of a stream. -/
def StreamCfg.uses (c : StreamCfg) (e : Nat) : Bool := decide (c.src / 2 ^ 21 ≤ e) && decide (e ≤ (c.srcEnd - 1) / 2 ^ 21)

/-- A stream outside IDLE and FREE. -/
def FStream.live (x : FStream) : Bool := x.st != 1

/-- The tiles whose main or near tier gives a stream its data, now or after a move that has reserved its frame (R302, R303). -/
def State.homeTiles (s : State) (c : StreamCfg) : List Nat :=
  (((s.ams.homes.filter (fun e => c.uses e.1)).map (fun e => e.2.tile)) ++
    s.ams.moves.filterMap (fun m => if c.uses m.ext && m.frame.isSome then some m.req.tile else none)).dedup

/-- The tiles among them that serve it from the main tier. -/
def State.mainTiles (s : State) (c : StreamCfg) : List Nat :=
  (((s.ams.homes.filter (fun e => c.uses e.1 && e.2.tier == 1)).map (fun e => e.2.tile)) ++
    s.ams.moves.filterMap (fun m => if c.uses m.ext && m.frame.isSome && m.req.tier = 1 then some m.req.tile else none)).dedup

/-- The main-tier feed bandwidth admitted on a tile, B/s (R303). -/
def State.mainAdmitted (s : State) (t : Nat) : Nat :=
  ((s.feed.streams.filter (fun x => x.live && (s.mainTiles x.cfg).contains t)).map (fun x => x.cfg.rate)).sum

/-- The feed bandwidth admitted on a Snowbridge hop, B/s. -/
def State.hopAdmitted (s : State) (h : Nat × Nat) : Nat :=
  ((s.feed.streams.filter (·.live)).map (fun x =>
    (((s.homeTiles x.cfg).filter (fun t => (s.meshRoute t (feedTileOf x.cfg.num)).contains h)).length) * x.cfg.rate)).sum

/-- The feed-admissible bandwidth of a channel at a data rate in 100 MT/s, B/s (R100). -/
def bFeed (rate pct : Nat) : Nat := rate * 8 * 10 ^ 8 * pct * 88 / 10000

/-- The pool of a tile (R100): three times the least of its channels. -/
def State.feedPool (s : State) (t : Nat) : Nat :=
  3 * ((List.range 3).map (fun c => bFeed (s.fld t (Fld.inst DMC.SPEED.CUR_RATE c)) (s.fld t (Fld.inst DMC.PANIC.FEED_PCT c)))).foldl
    min (bFeed 64 100)

/-- The limit of a hop, B/s (Table 11.4). -/
def State.hopLimit (s : State) (h : Nat × Nat) : Nat := s.hopLinks h.1 h.2 * 204800000000

/-- Checks 4, 5 and 7 of Table 11.4 for more bandwidth from one tile (R302, R304): main-tier pool, hops, repartition. -/
def State.mainFits (s : State) (t r : Nat) : Bool := decide (s.mainAdmitted t + r ≤ s.feedPool t)

def State.hopsFit (s : State) (t u r : Nat) : Bool :=
  (s.meshRoute t u).all (fun h => decide (s.hopAdmitted h + r ≤ s.hopLimit h))

def State.repartitioning (s : State) (t : Nat) : Bool := (amapFind t s.cache.repart).isSome

/-- A move is held in PREPARING because its extent is source data of a live stream and its new path is not admitted (R304). -/
def State.feedHolds (s : State) (e : Nat) (q : MoveReq) : Bool :=
  s.feed.streams.any (fun x => x.live && x.cfg.uses e && (q.tier == 2 ||
    !((s.homeTiles x.cfg).contains q.tile || s.hopsFit q.tile (feedTileOf x.cfg.num) x.cfg.rate) ||
    !(q.tier != 1 || (s.mainTiles x.cfg).contains q.tile || s.mainFits q.tile x.cfg.rate) ||
    (q.tier == 0 && s.repartitioning q.tile)))

/-- Near-tier frames of a tile that hold FIFOs (R58). -/
def State.fifoFrames (s : State) (t : Nat) : List Nat :=
  (s.feed.streams.filterMap (fun x => if feedTileOf x.cfg.num = t then x.frame else none)).dedup

/-- The lines a stream has sent since its latest start (R44, R309). -/
def State.linesSent (s : State) (n : Nat) : Option Nat := (s.fstream n).map (·.sent)

/-- FEED_BW of every tile follows the books (R303). -/
def State.noteFeedBw (s : State) : State := s.allTiles (fun t a => a.setF t FED.FEED_BW.MBPS (ceilDiv (a.mainAdmitted t) (10 ^ 6)))

/-- The FEED_STREAM_END notification: stream, cause (0 DONE, 1 STOPPED, 2 REVOKED, 3 FREEZE, 4 FAULT, 5 ROLE), lines sent, last
sequence. -/
def State.streamEnd (s : State) (n cause sent seq : Nat) : State :=
  s.notify 0x06F0 (build339 [(2, n), (1, cause), (4, sent), (8, seq)])

/-- The FEED_FAULT notification: stream or lane, cause (0 underrun, 1 lane failing, 2 spared, 3 spare failed, 4 realigned,
5 disagreement, 6 not covered), sequence. -/
def State.feedFault (s : State) (n cause seq : Nat) : State := s.notify 0x06F1 (build339 [(2, n), (1, cause), (8, seq)])

/-- The sequence before one, modulo 2^48. -/
def lastSeqOf (n : Nat) : Nat := (n + 2 ^ 48 - 1) % 2 ^ 48

/-- A stream returns to IDLE: reservations and FIFO released, its end notified, or kept for after the restore (R301, R327). -/
def State.streamIdle (s : State) (n cause : Nat) : State :=
  match s.fstream n with
  | none => s
  | some x =>
    let s1 := (s.updStream n (fun y => { y with st := 1, staged := [], reserved := 0, flight := [], frame := none, panic := false,
                                                out := none, early := 0, asked := none, reported := none, recent := [] })).noteFeedBw
    if cause = 3 || cause = 4 then s1.updFeed (fun d => { d with ended := d.ended ++ [(n, cause, x.sent, lastSeqOf x.seq)] })
    else s1.streamEnd n cause x.sent (lastSeqOf x.seq)

/-- A RUNNING stream goes to STOPPING, and to IDLE where no frame is in progress; a FILLING or ARMED one to IDLE (Table 11.3). -/
def State.stopStream (s : State) (n cause : Nat) : State :=
  match s.fstream n with
  | none => s
  | some x =>
    if x.st = 4 && x.out.isNone then s.streamIdle n cause
    else if x.st = 4 then s.updStream n (fun y => { y with st := 5, cause := cause, flight := [], reserved := 0, early := 0 })
    else if x.st = 2 || x.st = 3 then s.streamIdle n cause
    else s

/-! ### Self-test as it stands (R369, Table 13.5) -/

/-- A row of Table 13.5: slice, phase, lowest and highest tile, budget in ms. -/
structure SliceRow where
  slice : Nat
  phase : Nat
  lo : Nat
  hi : Nat
  budget : Nat
deriving DecidableEq, Repr

/-- Table 13.5. -/
def sliceRows : List SliceRow :=
  [⟨1, 1, 0, 7, 40⟩, ⟨2, 1, 0, 0, 150⟩, ⟨3, 1, 1, 7, 150⟩, ⟨4, 1, 0, 7, 1200⟩, ⟨5, 1, 0, 0, 30⟩, ⟨6, 1, 0, 7, 10⟩,
   ⟨7, 1, 0, 7, 150⟩, ⟨8, 1, 0, 7, 20⟩, ⟨9, 1, 0, 0, 60⟩, ⟨10, 1, 0, 7, 200⟩, ⟨11, 1, 0, 7, 200⟩, ⟨12, 1, 0, 7, 40⟩,
   ⟨13, 1, 0, 7, 400⟩, ⟨14, 2, 0, 7, 15⟩, ⟨15, 2, 0, 7, 80⟩, ⟨16, 2, 0, 0, 800⟩]

/-- The row of a slice that a tile runs. -/
def sliceRow (t n : Nat) : Option SliceRow :=
  sliceRows.find? (fun r => r.slice == n && decide (r.lo ≤ t) && decide (t ≤ r.hi))

/-- Whether a tile has a slice's outcome. -/
def State.sliceDone (s : State) (t n : Nat) : Bool := s.boot.slices.any (fun x => x.1 == t && x.2.1 == n)

/-- Every slice of a phase has ended on every tile. -/
def State.phaseDone (s : State) (ph : Nat) : Bool :=
  s.everyTile (fun t => (sliceRows.filter (fun r => r.phase == ph && decide (r.lo ≤ t) && decide (t ≤ r.hi))).all
    (fun r => s.sliceDone t r.slice))

/-- Whether self-test holds a port of a tile down: 0, 1 Ethernet, 2 twin (slices 10 and 11 of Table 13.5). -/
def State.heldDown (s : State) (t port : Nat) : Bool :=
  s.boot.slices.any (fun x => x.1 == t && (x.2.1 == 10 || x.2.1 == 11) && x.2.2.1 == 1 && x.2.2.2.1 == port)

/-- The streams of a tile end and its transmitters stop (R327). -/
def State.stopLanes (s : State) (t cause : Nat) : State :=
  let ns := (s.feed.streams.filter (fun x => x.live && feedTileOf x.cfg.num == t)).map (·.cfg.num)
  (ns.foldl (fun a n => a.streamIdle n cause) s).setF t FED.LANES.POWERED 0

/-- What the feed keeps without its rails: configurations, every stream IDLE (R301). -/
def Feed.settled (f : Feed) : Feed :=
  { f with
    streams := f.streams.map (fun x => { x with st := 1, staged := [], reserved := 0, flight := [], frame := none, panic := false, out := none, early := 0, asked := none, reported := none, recent := [], sent := 0, spare := false, switch := none })
    tiles := [], hops := [] }

end Sys2Proof.Machine
end

