-- ==== Sys2Proof/Machine/Wake.lean ====
section
/-! DEFINITION. Transitions of the whole device that many steps share: Freeze and its triggers, FAULT and RESTRICTED entry, the
dirty ceiling, entry to BOOT, wake from sleep (chapters 7, 12, 14), and MCTP packets. -/

namespace Sys2Proof.Machine

/-! ### MCTP packets -/

/-- The enterprise number of the OTP row (Table 16.3). -/
def State.enterprise (s : State) : Nat := natAt (s.granule 0) 0x18 4

/-- The device's own two-wire address (R450). -/
def State.twbAddr (s : State) : Nat := 0x58 + s.pow.twbAdr % 8

/-- An MCTP message as the packets a Block Read returns (R331, R451; PRESUMED, log entry 11): source slave address byte, transport
header with SOM, EOM and sequence, then at most 64 bytes. -/
def mctpPackets (s : State) (frame : List Byte) : List (List Byte) :=
  let cs := chunks 64 80 ((0x7F#8 :: beBytes 4 s.enterprise) ++ frame)
  cs.zipIdx.map (fun (c, i) =>
    let fl := (if i = 0 then 128 else 0) + (if i + 1 = cs.length then 64 else 0) + i % 4 * 16
    [BitVec.ofNat 8 (s.twbAddr * 2 + 1), 0x01#8, BitVec.ofNat 8 s.twb.hostEid, BitVec.ofNat 8 s.twb.eid,
     BitVec.ofNat 8 fl] ++ c)

/-! ### Leaving service -/

/-- A capsule or descriptor as it stood at its start. -/
def Exec.fresh (e : Exec) : Exec :=
  { e with begun := false, poisonId := 0, poisonAddr := 0, revoked := false, failed := false, commit := [], seqs := [], done := false }

/-- Whether a portion's unit leaves it to the partner: not admitted, or not all arrived; those of a mirror stream stay. -/
def Portion.leftOver (p : Portion) : Bool :=
  match p.src with
  | .mirror _ _ => false
  | _ => p.st == .new || p.st == .waiting || (p.st == .admitted && p.data.length != p.len)

/-- A unit that leaves ACTIVE or SOLO stops answering its service addresses (R289): its QPs there go without a packet, what waited at the gate is
discarded, capsules are the partner's to run; descriptors in progress stay as noted. Management QPs on unit addresses stay. -/
def State.dropData (s : State) : State :=
  let gone := fun (q : Qp) => q.kind == 0 || !q.unitAddr
  let s1 := (s.net.qps.filter (fun q => q.kind == 1 && !q.unitAddr)).foldl (fun a q =>
    (a.setF 0 MGT.MBOX.CONNECTED (setBit (a.fld 0 MGT.MBOX.CONNECTED) q.mb false)).endSession q.mb) s
  let s2 := (s1.net.qps.filter (fun q => gone q && !q.shadow)).foldl (fun a q => a.drop (qpTile q.qpn) RMA.QP_COUNT.CONNECTED 1) s1
  let s3 := (s2.net.portions.filter (fun p => p.leftOver && p.st == .admitted && s2.classAt p.addr != 0)).foldl
    (fun a p => a.settleTokens p.tile (pagesOf p.addr p.len)) s2
  s3.updNet (fun n => { n with
    qps := n.qps.filter (fun q => !gone q)
    portions := n.portions.filter (fun p => !p.leftOver)
    execs := (n.execs.filter (fun e => match e.src with
      | .desc _ _ => true
      | _ => false)).map Exec.fresh })

/-- The unit leaves its twin role (Table 10.4, last row but one; R282): `TW_ACTO` low, DEPART sent, role NONE; `quiet` on Freeze
and FAULT entry. -/
def State.leaveTwin (s : State) (quiet : Bool) : State := (((s.driveActo false).depart quiet).setRole .none 6).dropData

/-- FAULT is entered with a cause of Table 12.6 (R22, R342): admission stops with the state, the twin role ends, feed lanes stop
(R327). In a state from which Table 12.5 gives no fault only the cause is set. -/
def State.enterFault (s : State) (c : Nat) : State :=
  let s1 := s.setCause c true
  match s.dstate with
  | .boot | .selftest | .restore | .service | .restricted =>
    (s1.allTiles (fun t a => a.stopLanes t 4)).leaveTwin true |>.toState .fault
  | _ => s1

/-- RESTRICTED is entered from SERVICE; the role is settled again (R294). -/
def State.enterRestricted (s : State) : State :=
  ((s.leaveTwin false).toState .restricted).updTwin (fun x => { x with settled := false, helloSince := s.now })

/-! ### The boot selector and the end of a trial (R364, R368) -/

/-- The offset of a component in its slot, and its space (R361): 1 Minex firmware, 2 Minex tile code. -/
def compBase (c : Nat) : Nat := if c = 1 then 0 else 0x180000
def compSpace (c : Nat) : Nat := if c = 1 then 1536 * 1024 else 512 * 1024

/-- The SVN floor of a component (R362). -/
def State.svnFloorOf (s : State) (c : Nat) : Nat := amapGet 0 s.nv.svnFloor c

/-- The selector copy in force (R364): the one that checks with the higher count. -/
def State.selector (s : State) : Option Selector :=
  (s.nv.selectors.filter (·.ok)).foldl (fun b x => match b with
    | none => some x
    | some y => if y.count < x.count then some x else some y) none

/-- The selector as the boot ROM uses it: slot A with no trial where no copy checks (R364). -/
def State.selectorOr (s : State) : Selector := s.selector.getD ⟨0, false, 0, false, 0, true⟩

/-- Writes the selector over the older copy (R364). -/
def State.writeSelector (s : State) (x : Selector) : State :=
  let top := ((s.nv.selectors.filter (·.ok)).map (·.count)).foldl max 0
  { s with nv := { s.nv with selectors :=
      [(s.selector.getD { x with count := top }), { x with count := top + 1, ok := true }] } }

/-- An FW_CHANGED notification (Table 13.10): slot, component, versions, event (0 written, 1 activated, 2 committed, 3 trial
failed; DEDUCED, log entry 13). -/
def State.fwChanged (s : State) (slot comp event : Nat) : State :=
  s.notify 0x08F0 (build339 [(1, slot), (1, comp), (4, s.slotNat slot 8 4), (4, s.slotNat slot (0x180000 + 8) 4), (1, event)])

/-- The running slot is a trial not yet committed. -/
def State.onTrial (s : State) : Bool := s.flag 0 BST.BOOT.TRIAL

/-- A trial slot is committed: TRIAL cleared, each SVN floor raised to the slot's SVN (R368). -/
def State.fwCommit (s : State) : State :=
  let x := s.selectorOr
  let slot := s.runSlot
  let fl := fun c => max (s.svnFloorOf c) (s.slotNat slot (compBase c + 0xC) 4)
  let s1 := { s with nv := { s.nv with svnFloor := [(1, fl 1), (2, fl 2)] } }
  ((s1.writeSelector { x with trial := false, attempts := 0 }).setFs 0 [(BST.BOOT.TRIAL, 0),
    (BST.BOOT.ATTEMPTS, 0)]).fwChanged slot 1 2

/-- Whether `TW_ACTI` has been low for the guard time and no back-off runs (R285). -/
def State.guardMet (s : State) : Bool :=
  !s.flag 0 TWA.STATUS.ACTI && decide (s.twin.backoffUntil ≤ s.now) &&
  (match s.twin.actiLowSince with
   | some t => decide (t + 2000 ≤ s.now)
   | none => false)

/-- The unit may drive `TW_ACTO` high: ACTIVE or SOLO in SERVICE with the guard met and the lease current (R273, R283, R285). -/
def State.raiseActo (s : State) : State :=
  if (s.role == .active || s.role == .solo) && s.dstate == .service && s.guardMet && s.twin.leaseOk && s.pow.target == 0 &&
      !s.flag 0 TWA.STATUS.ACTO then s.driveActo true else s

/-- SERVICE is entered: a trial with AUTO_COMMIT commits where no cause bit is set (R368). -/
def State.enterService (s : State) : State :=
  let a := s.toState .service
  if a.onTrial && a.selectorOr.autoCommit && a.fld 0 MGT.STATE.CAUSE == 0 then a.fwCommit else a

/-- A RESTRICTED cause arises or clears (Table 12.5): SERVICE to RESTRICTED, and back when no cause is left that needs a
start-up. -/
def State.setRestricted (s : State) (c : Nat) (b : Bool) : State :=
  let s1 := s.setCause c b
  if s1.restrictedCause && s1.dstate == .service then s1.enterRestricted
  else if !s1.restrictedCause && s1.dstate == .restricted then s1.enterService.raiseActo
  else s1

/-! ### The dirty ceiling (R183 to R185) -/

/-- The energy-derived ceiling of R184 in 64 MiB units: C in 10 mF, thresholds in mV, η in %, P in W, margin above 1 in %, rate in
MB/s, metadata in MiB. E_bank × η ÷ (P × M) is num ÷ den seconds. -/
def energyNum (cap trip emerg eta : Nat) : Nat := cap * (trip * trip - emerg * emerg) * eta

def energyDen (p margin : Nat) : Nat := 2 * 10 ^ 8 * p * (100 + margin)

def energyCeiling (cap trip emerg eta p margin rate metaMb : Nat) : Nat :=
  let n := energyNum cap trip emerg eta
  let d := energyDen p margin
  if d = 0 then 0 else
  min 192 ((rate * 10 ^ 6 * (100 * n - 6 * d) / (100 * d) - metaMb * 2 ^ 20) / 2 ^ 26)

/-- The energy-derived ceiling of a tile. -/
def State.energyOf (s : State) (t : Nat) : Nat :=
  energyCeiling (s.fld t FRZ.BANK.CAP) (s.fld 0 AON.HU_THRESH.TRIP) (s.fld 0 AON.HU_THRESH.EMERG) (s.fld t FRZ.POWER.ETA_PCT)
    (s.fld t FRZ.POWER.P_W) (s.fld t FRZ.POWER.MARGIN) (s.fld t DTM.DUMP_RATE.MBPS) (s.fld t FRZ.META.MB)

/-- The package effective ceiling, 64 MiB units. -/
def State.packageCeiling (s : State) : Nat :=
  ((List.range s.tiles).map (fun t => s.fld t FRN.CEIL.EFFECTIVE)).sum

/-- One tile's ceilings recomputed; a held count above the new pool sets OVER_CEILING (R177, R185). -/
def State.recomputeTile (s : State) (t : Nat) : State :=
  let d := energyDen (s.fld t FRZ.POWER.P_W) (s.fld t FRZ.POWER.MARGIN)
  let n := energyNum (s.fld t FRZ.BANK.CAP) (s.fld 0 AON.HU_THRESH.TRIP) (s.fld 0 AON.HU_THRESH.EMERG) (s.fld t FRZ.POWER.ETA_PCT)
  let e := s.energyOf t
  let s1 := s.setFs t [(FRZ.TAVAIL.MS, min 65535 (n * 1000 / d)), (FRN.CEIL.ENERGY, e),
    (FRN.CEIL.EFFECTIVE, min (s.fld t FRN.CEIL.CONFIGURED) e)]
  (if s1.pool t < s1.fld t FRN.HELD.PAGES then s1.ev t FRN.EVENTS.OVER_CEILING else s1).noteUrgent t

/-- The effective ceiling of each tile, 64 MiB units. -/
def State.ceilings (s : State) : List Nat := (List.range s.tiles).map (fun t => s.fld t FRN.CEIL.EFFECTIVE)

/-- The recomputation of R185, with its notification and record on a change of any tile's, and the RESTRICTED cause bit 1. Causes: 0 bank
measurement, 1 CEILING_SET, 2 FREEZE_POWER_SET, 3 POWER_CONFIG. -/
def State.recomputeCeiling (s : State) (why : Nat) : State :=
  let old := s.packageCeiling
  let s1 := s.allTiles (fun t a => a.recomputeTile t)
  let new := s1.packageCeiling
  let per := s1.ceilings.flatMap (fun n => leBytes 1 n)
  let s2 := if s.ceilings = s1.ceilings then s1 else
    (s1.named 0 0x1A 0x0101 3 new).notify 0x04F0
      (pad8 (leBytes 4 (old * 64) ++ leBytes 4 (new * 64) ++ leBytes 2 s1.tiles ++ per ++ leBytes 1 why))
  s2.setRestricted 1 (s2.anyTile (fun t => decide (s2.fld t FRN.CEIL.ENERGY < 16)) || s2.fld 0 FRZ.BANK.CAP == 0)

/-! ### Entry to BOOT and loss of the rails -/

/-- Whether a byte of the nozzle maps lies in a stream's active bank, which alone outlives the rails (R320). -/
def State.mapKept (s : State) (k : Nat) : Bool :=
  let bank := k % 2 ^ 60 / 16384
  s.feed.streams.any (fun x => feedTileOf x.cfg.num == k / 2 ^ 60 && x.cfg.num % 32 == bank / 2 && x.bank == bank % 2)

/-- An array operation that the loss of the rails cuts short (R422): a word reads erased, as the new value or uncorrectable (a free value, log entry
6), a sector is left half-erased, a swap leaves the mapping as it was; the array locks. -/
def State.cutShort (s : State) (t : Nat) : State :=
  let idle := fun (x : NvsTile) => { x with step := 0, busy := none }
  match (s.array t).busy with
  | none => if (s.array t).step = 0 then s else s.updArray t idle
  | some o =>
    let (v, s1) := s.draw
    let w := o.addr / 8
    if o.op = 1 && o.result = 1 then
      (if v % 3 = 0 then s1.wipe .nvs t (w * 8) 8
       else if v % 3 = 1 then s1 else s1.updArray t (fun x => { x with badWords := x.badWords ++ [w] })).updArray t idle
    else if o.op = 2 then
      let k := o.addr / 2048
      s1.updArray t (fun x => { idle x with
        halfErased := x.halfErased.filter (fun y => y != k) ++ [k]
        badWords := x.badWords.filter (fun y => y / 256 != k) ++ ((List.range 256).filter v.testBit).map (fun i => k * 256 + i) })
    else s1.updArray t idle

/-- Everything that does not outlive the rails goes: main and near tier with the tables in them, caches, Firn's buffer, QPs, capsules, sessions,
streams of the twin. What the deep tier, with the metadata saved there, the store, the OTP row and the always-on domain hold stays (R4, R192, R215). -/
def State.loseVolatile (s : State) : State :=
  let s1 := s.endAllSessions.allTiles (fun t a => a.cutShort t)
  let z := State.reset
  { s1 with
    mem := s1.mem.filter (fun e => decide (2 * 2 ^ 68 ≤ e.1) && (decide (e.1 < 4 * 2 ^ 68) || s1.mapKept (e.1 - 4 * 2 ^ 68))),
    cache := z.cache, net := z.net, twin := { z.twin with count := s1.twin.count,
                                                          actiLowSince := if s1.flag 0 TWA.STATUS.ACTI then none else some s1.now },
    firn := { z.firn with deep := s1.firn.deep, seqs := s1.firn.seqs, dumps := s1.firn.dumps, saved := s1.firn.saved,
                          tileSaved := s1.firn.tileSaved, dens := s1.firn.dens },
    ams := z.ams,
    mb := { z.mb with nextChallenge := s1.mb.nextChallenge },
    feed := s1.feed.settled, dram := [], dec := { z.dec with pages := s1.dec.pages, erases := s1.dec.erases, retire := s1.dec.retire },
    deep := { s1.deep with rebuilding := [], gc := [], dirtyTables := [], suspends := [],
                           stripes := s1.deep.stripes.map (fun x => { x with refs := 0 }) },
    kse := z.kse, recd := { z.recd with base := none }, twb := { z.twb with
      held := if s1.dstate == .s3 || s1.dstate == .aonOnly then s1.twb.held else none, nackUntilBoot := s1.twb.nackUntilBoot,
      busClass := s1.twb.busClass } }

/-- Every register of every block but the always-on domain (0x03) takes its reset value (R360); the TRIP comparators are no longer armed (R382); the
level of `TW_ACTI` is the partner's and stays (R285). -/
def State.resetRegs (s : State) : State :=
  ({ s with regs := s.regs.filter (fun e => e.1 / 2 ^ 20 % 256 == 3) }.setAll AON.STATUS.ARMED 0).setF 0 TWA.STATUS.ACTI (s.fld 0 TWA.STATUS.ACTI)

/-- The device enters BOOT with a reset source of Table 13.1 (R360): a new span begins (R433). -/
def State.enterBoot (s : State) (cause : Nat) : State :=
  let o := s.fld 0 MGT.STATE.DSTATE
  let s1 := s.loseVolatile.resetRegs
  let z := State.reset
  { s1 with boot := { z.boot with cause := cause, wdog := s.now },
            frzRun := { s1.frzRun with resetSource := 0 }, twb := { s1.twb with nackUntilBoot := false },
            pow := { s1.pow with spanAt := s.now, target := 0, entryStep := 0, coolSince := none, freezeNet := false } }
    |>.setF 0 MGT.STATE.DSTATE o |>.toState .boot

/-- The rails but VAON are removed and the device stands in AON_ONLY (Tables 7.5, 12.5). -/
def State.railsOff (s : State) : State :=
  let o := s.fld 0 MGT.STATE.DSTATE
  let s1 := s.loseVolatile.resetRegs
  { s1 with pow := { s1.pow with railsOffAt := s.now, target := 0, entryStep := 0, huTload := false } }
    |>.setF 0 MGT.STATE.DSTATE o |>.toState .aonOnly

/-! ### Freeze triggers (R188 to R190) -/

/-- Whether a tile holds dirty pages. -/
def State.anyDirty (s : State) (t : Nat) : Bool := s.firn.tokens.any (fun k => k.tile == t)

/-- The trigger reaches the freeze engine of tile t (Table 7.5): from ARMED, or NOT_ARMED with dirty pages, admission stops and
the queued acknowledgements are dropped, so the engine drains; NOT_ARMED with nothing dirty ends SEALED; a tile lost to a fault writes nothing (Table
7.6). Freeze clears
`FRN.CTRL.PAUSE`. -/
def State.freezeTile (s : State) (t src : Nat) : State :=
  let s0 := s.setFs t [(FRZ.STATUS.SOURCE, src), (FRN.CTRL.PAUSE, 0)]
  if s.frz t != .armed && s.frz t != .notArmed then s.ev t FRZ.EVENTS.SECOND_TRIGGER
  else if s.boot.lost.contains t then
    { s0 with frzRun := { s0.frzRun with ended := s0.frzRun.ended ++ [(t, 0)], outcome := s0.frzRun.outcome ++ [(t, 0)] } }.setF
      t FRZ.STATUS.STATE FState.sealed.code
  else if s.frz t == .armed then s0.setF t FRZ.STATUS.STATE FState.draining.code
  else if s.anyDirty t then
    ({ s0 with frzRun := { s0.frzRun with noArmed := true } }.setF t FRZ.STATUS.STATE FState.draining.code).ev t
      FRZ.EVENTS.NO_ARMED
  else { s0 with frzRun := { s0.frzRun with ended := s0.frzRun.ended ++ [(t, 0)], outcome := s0.frzRun.outcome ++ [(t, 3)] } }.setF
    t FRZ.STATUS.STATE FState.sealed.code

/-- Panic no longer counts on any channel (R99). -/
def State.endPanic (s : State) : State := s.dram.foldl (fun a x => a.notePanic x.tile x.ch) s

/-- What Freeze stops at once beside the engines: the twin role, sessions, the two-wire target, the open record (R442), the bank
test load (R370), panic (R99), admission. -/
def State.beginFreeze (s : State) (src : Nat) : State :=
  let s1 := ((s.leaveTwin true).endAllSessions).commitOpen
  { s1 with
    frzRun := { State.reset.frzRun with since := s.now, source := src, isTest := src == 4 },
    pow := { s1.pow with freezeNet := true, huTload := false },
    twb := { s1.twb with outPkts := [], ctl := [], asm := none, held := none, due := false, nackUntilBoot := true },
    mb := { s1.mb with ntf0 := [], sleepQ := [], held := [], deferred := [] } } |>.toState .freeze |>.endPanic

/-- A tile's retained ranks leave self-refresh (R110, Table 7.6). -/
def State.ranksUp (s : State) (t : Nat) : State :=
  (List.range 3).foldl (fun b c =>
    if b.fld t (Fld.inst DMC.STATUS.STATE c) = 5 then ((b.setF t (Fld.inst DMC.STATUS.STATE c) 2).updDmc t c (fun x =>
      { x with rankPower := x.rankPower.filter (fun e => e.2 != 1) })).admitHeld t c else b) s

/-- A Freeze trigger at tile t (R188): source as `FRZ.STATUS.SOURCE`. In FREEZE it is counted; in BOOT, SELFTEST and RESTORE the
rails are removed without a dump; in OFF, AON_ONLY and S3 nothing is done (Tables 7.6 and 12.5). A trigger in S1 or S2
aborts the sleep (R390). -/
def State.freezeTrigger (s : State) (t src : Nat) : State :=
  match s.dstate with
  | .off | .aonOnly | .s3 => s
  | .boot | .selftest | .restore => s.railsOff
  | .freeze => s.freezeTile t src
  | _ =>
    let s0 := if s.pow.target = 0 then s else { s with pow := { s.pow with target := 0, entryStep := 0 } }.setF 0 PWC.SLEEP.STATE 0
    let s1 := if s0.dstate == .s1 || s0.dstate == .s2 then s0.allTiles (fun u a => a.ranksUp u) else s0
    (s1.beginFreeze src).freezeTile t src

/-- The freeze net reaches the other tiles (R14): every engine not yet triggered starts, its source the net. -/
def State.freezeOthers (s : State) : State :=
  if s.dstate == .freeze then
    s.allTiles (fun t a => if a.frz t == .armed || a.frz t == .notArmed then a.freezeTile t 3 else a)
  else s

/-- A trigger that acts on every tile at once: FREEZE_TEST, SYS_RESET, the watchdog. A reset source code of Table 13.1 is kept
for the BOOT that follows. -/
def State.resetVia (s : State) (code : Nat) : State :=
  let src := if code = 5 then 6 else 5
  match s.dstate with
  | .off => s
  | .aonOnly | .s3 => s
  | .boot | .selftest | .restore =>
    let s1 := s.railsOff
    { s1 with frzRun := { s1.frzRun with resetSource := code } }
  | .freeze => s.ev 0 FRZ.EVENTS.SECOND_TRIGGER
  | _ =>
    let s1 := (s.freezeTrigger 0 src).allTiles (fun t a =>
      if a.frz t == .armed || a.frz t == .notArmed then a.freezeTile t src else a)
    { s1 with frzRun := { s1.frzRun with resetSource := code } }

/-! ### Wake (R388 to R390) -/

/-- What waited for the wake: the lease runs again, `TW_ACTO` rises where the guard allows, notifications leave (R387, R389). -/
def State.resumeService (s : State) : State :=
  let q := s.mb.sleepQ
  let s1 := { s with pow := { s.pow with target := 0, entryStep := 0, heldLate := false },
                     mb := { s.mb with sleepQ := [] },
                     twin := { s.twin with leaseAt := s.now, leaseOk := true, silent := false } }
  q.foldl (fun a e => a.notifyNow e.1 e.2) ((s1.setF 0 PWC.SLEEP.STATE 0).allTiles (fun t a => a.noteUrgent t)).raiseActo

/-- A cache that a sleep entry took to DISABLED and gated has its ways powered as configured, and is ENABLED again where EN is 1 (R81). -/
def State.cacheBack (s : State) (t : Nat) : State :=
  if s.fld t TCH.STATUS.STATE != 1 && s.fld t TCH.STATUS.STATE != 2 then s
  else s.setFs t [(TCH.STATUS.STATE, if s.flag t TCH.CTRL.EN then 0 else s.fld t TCH.STATUS.STATE), (TCH.WAYSTAT.POWERED, s.fld t TCH.WAYPWR.ON)]

/-- A sleep entry in progress is undone (R390): of its steps only the cache's leaves anything to undo while it waits. -/
def State.abortSleep (s : State) : State :=
  if s.dstate == .service && s.pow.target != 0 then
    let s1 := s.evRec 0 PWC.EVENTS.SLEEP_ABORTED 0
    (if 2 ≤ s1.pow.target && 4 ≤ s1.pow.entryStep then s1.allTiles (fun t a => a.cacheBack t) else s1).resumeService
  else s

/-- The stages that switch when every rail is on: all but those shed for a fault (R378, R380). -/
def State.stagesOn (s : State) : Nat := s.pow.shed.foldl (fun v n => setBit v n false) (2 ^ 24 - 1)

/-- The set points of VCORE and VSRAM, mV: nominal (Table 14.1) or retention (Table 14.3 step 7). -/
def State.railSet (s : State) (core sram : Nat) : State :=
  s.allTiles (fun t a => a.setFs t [(PWC.RAIL_V.SET_MV, core), (PWC.RAIL_V.SET_MV.up 4, sram)])

/-- The clocks are back: the feed lanes are powered as configured (R389). -/
def State.ungate (s : State) : State :=
  s.allTiles (fun t a => (a.ranksUp t).setF t FED.LANES.POWERED (if a.flag t FED.CTRL.EN then 15 else 0))

/-- A wake source ends sleep (R388, R389): S1 and S2 to SERVICE, S3 to BOOT with reset source 6; during an entry it ends the
entry. Sources: 1 port (S1 only), 2 MB0, 3 `WAKE_N`, 4 timer. -/
def State.wakeUp (s : State) (src : Nat) : State :=
  let s0 := s.setF 0 AON.WAKE_SRC.SRC src
  match s.dstate with
  | .s1 => (s0.ungate.bump 0 PWC.WAKES.COUNT 1).enterService.resumeService
  | .s2 =>
    if src = 1 then s else
    let s1 := s0.ungate.allTiles (fun t a => a.cacheBack t)
    let s2 := if s1.flag 0 AON.STATUS.XTAL_OK then s1 else { s1 with recd := { s1.recd with coarse := true } }
    (((s2.setFs 0 [(PWC.STATUS.CLK_REQ, 1), (PWC.STATUS.PG, 15), (PWC.PHASES.ON, s2.stagesOn)]).railSet 750 800).bump 0 PWC.WAKES.COUNT 1).enterService.resumeService
  | .s3 => if src = 1 then s else s0.enterBoot 6
  | .service => s.abortSleep
  | _ => s

end Sys2Proof.Machine
end

