-- ==== Sys2Proof/Machine/Order.lean ====
section
/-! DEFINITION. The fields of a capsule (Table 9.4), and the order in which overlapping operations of one QP take effect (R253,
R254). -/

namespace Sys2Proof.Machine

/-! ### Capsule fields -/

def capOp (b : List Byte) : Nat := natAt b 0 1
def capFlags (b : List Byte) : Nat := natAt b 1 1
def capForce (b : List Byte) : Bool := (capFlags b).testBit 0
def capFence (b : List Byte) : Bool := (capFlags b).testBit 1
def capSignal (b : List Byte) : Bool := (capFlags b).testBit 2
def capEnqueue (b : List Byte) : Bool := (capFlags b).testBit 3
def capNoCpl (b : List Byte) : Bool := (capFlags b).testBit 4
def capCqn (b : List Byte) : Nat := natAt b 2 2
def capTag (b : List Byte) : Nat := natAt b 4 4
def capAddr (b : List Byte) : Nat := natAt b 8 8
def capKey (b : List Byte) : Nat := natAt b 0x10 4
def capLen (b : List Byte) : Nat := natAt b 0x14 4
def capSrc (b : List Byte) : Nat := natAt b 0x18 8
def capSrcKey (b : List Byte) : Nat := natAt b 0x20 4
def capSig (b : List Byte) : Nat := natAt b 0x24 2
def capValue (b : List Byte) : Nat := natAt b 0x28 4
def capPlan (b : List Byte) : Nat := natAt b 0x30 8
def capOrder (b : List Byte) : Nat := natAt b 0x38 4

/-- Whether two byte ranges overlap. -/
def overlap (a n b m : Nat) : Bool := decide (a < b + m) && decide (b < a + n)

/-- Whether a capsule that acts in its QP's order writes, or reads, bytes of a range. -/
def capWrites (b : List Byte) (a n : Nat) : Bool :=
  !capEnqueue b && (capOp b == 1 || capOp b == 4) && overlap (capAddr b) (capLen b) a n

def capReads (b : List Byte) (a n : Nat) : Bool :=
  !capEnqueue b && ((capOp b == 2 && overlap (capAddr b) (capLen b) a n) || (capOp b == 4 && overlap (capSrc b) (capLen b) a n))

/-! ### Order on one QP -/

/-- The PSN of an operation of QP n. -/
def Src.psnOn (x : Src) (n : Nat) : Option Nat :=
  match x with
  | .qp m p => if m = n then some p else none
  | _ => none

/-- Whether an operation of QP n stands before position m. -/
def Src.earlier (x : Src) (n m : Nat) : Bool :=
  match x.psnOn n with
  | some p => psnBefore p m
  | none => false

/-- All bytes of a portion have arrived. -/
def Portion.arrived (p : Portion) : Bool := p.data.length == p.len

/-- Whether an earlier capsule of QP n, in execution, still has to read bytes of a range: a READ that has not sent its data, or a
COPY with parts whose source bytes in the range are still to be read. -/
def State.execReads (s : State) (n m a len : Nat) : Bool :=
  s.net.execs.any (fun e => e.src.earlier n m && capReads e.bytes a len &&
    ((capOp e.bytes == 2 && !e.done) || s.net.portions.any (fun o => o.src == e.src && o.capsule && !o.arrived &&
      overlap (capSrc e.bytes + (o.addr - capAddr e.bytes)) o.len a len)))

/-- Whether a read at position m of QP n must wait for an earlier write of that QP to the same bytes (R253). -/
def State.readHeld (s : State) (n m a len : Nat) : Bool :=
  (match s.qp n with
   | some q => q.caps.any (fun c => psnBefore c.psn m && capWrites c.bytes a len)
   | none => false) ||
  s.net.portions.any (fun o => o.src.earlier n m && overlap o.addr o.len a len &&
    (o.st == .new || o.st == .waiting || o.st == .admitted))

/-- Whether the admission of a portion must wait for an earlier operation of its QP on the same bytes (R253, R254). -/
def State.orderHeld (s : State) (p : Portion) : Bool :=
  match p.src with
  | .qp n m =>
    (match s.qp n with
     | some q => q.caps.any (fun c => psnBefore c.psn m && (capWrites c.bytes p.addr p.len || capReads c.bytes p.addr p.len)) ||
         q.reqs.any (fun r => r.kind == 3 && !r.reached && psnBefore r.psn m && overlap r.addr r.len p.addr p.len)
     | none => false) ||
    s.net.portions.any (fun o => o.src.earlier n m && overlap o.addr o.len p.addr p.len && (o.st == .new || o.st == .waiting)) ||
    s.execReads n m p.addr p.len
  | _ => false

end Sys2Proof.Machine
end

