-- ==== Sys2Proof/Machine/Portion.lean ====
section
/-! DEFINITION. Portions of writes: admission under tokens, application in one step, mirroring, discarding (R24, R25, R168, R174
to R176, R229, R231, R266, R275, R290). -/

namespace Sys2Proof.Machine

/-! ### QPs and their mirrored contexts -/

/-- The AETH credit encoding (R225): the largest code whose value does not exceed n free slots. -/
def creditValues : List Nat := [0, 1, 2, 3, 4, 6, 8, 12, 16, 24, 32, 48, 64, 96, 128, 192, 256]

def creditCode (n : Nat) : Nat := (creditValues.filter (fun v => decide (v ≤ n))).length - 1

/-- Free SEND slots of a QP (R225): 256 capsules on a data QP, 2 frames on a management QP. -/
def Qp.slots (q : Qp) : Nat := if q.kind = 0 then 256 - q.caps.length else 2

/-- The body of a QP_CTX record (Table 10.20), from offset 0x08. -/
def Qp.ctxBody (q : Qp) : List Byte :=
  leBytes 4 q.qpn ++ leBytes 1 q.st ++ leBytes 1 (b2n q.localFlag) ++ leBytes 1 q.mtu ++ leBytes 1 q.lport ++ leBytes 4 q.rqpn ++
  leBytes 4 q.epsn ++ leBytes 4 q.spsn ++ leBytes 4 q.una ++ beBytes 16 q.gid ++ leBytes 4 q.window ++
  leBytes 1 (creditCode q.slots) ++ leBytes 1 q.retry ++ leBytes 1 q.rnrRetry ++ leBytes 1 q.ackTimeout ++ leBytes 8 q.winVa ++
  leBytes 4 q.winKey ++ leBytes 1 q.respRes ++ leBytes 1 q.hostCredit ++ leBytes 2 q.ring.length ++ leBytes 4 q.capPsn ++
  leBytes 4 0 ++ (List.range 8).flatMap (fun i =>
    match q.atomics[i]? with
    | some (p, o) => leBytes 4 (2 ^ 31 + p) ++ leBytes 4 0 ++ leBytes 8 o
    | none => List.replicate 16 0)

/-- A data QP's context change enters its ingress tile's stream (Table 10.5). -/
def State.mirrorQp (s : State) (n : Nat) : State :=
  match s.qp n with
  | some q => if q.kind = 0 then s.mirrorItem (qpTile n) 0x03 q.ctxBody else s
  | none => s

/-! ### Chain queue counts (R259) -/

/-- A chain queue. -/
def State.chain (s : State) (n : Nat) : Option Chain := s.net.chains.find? (fun c => c.num == n)

/-- A chain queue changed. -/
def State.updChain (s : State) (n : Nat) (f : Chain → Chain) : State :=
  s.updNet (fun x => { x with chains := x.chains.map (fun c => if c.num = n then f c else c) })

/-- Whether a count has reached V (R259). -/
def hasReached (c v : Nat) : Bool := decide ((c + 2 ^ 32 - v % 2 ^ 32) % 2 ^ 32 < 2 ^ 31)

/-- A queue's count goes up by one; the change is mirrored from its tile (R259, R265). -/
def State.countUp (s : State) (n : Nat) : State :=
  match s.chain n with
  | none => s
  | some c =>
    let v := (c.count + 1) % 2 ^ 32
    (s.updChain n (fun x => { x with count := v })).mirrorItem (n % s.tiles) 0x07
      (leBytes 2 n ++ leBytes 1 1 ++ leBytes 1 0 ++ leBytes 4 v)

/-! ### Portions -/

/-- The portions of [a, a + n): the parts within one atomic unit each, ascending (R168); the first argument bounds them. -/
def splitUnits : Nat → Nat → Nat → List (Nat × Nat)
  | 0, _, _ => []
  | k + 1, a, n =>
    if n = 0 then [] else
    let len := min n (65536 - a % 65536)
    (a, len) :: splitUnits k (a + len) (n - len)

/-- The parts of a range. -/
def unitsOf (a n : Nat) : List (Nat × Nat) := splitUnits (n / 65536 + 2) a n

/-- A portion of an identifier. -/
def State.portion (s : State) (i : Nat) : Option Portion := s.net.portions.find? (fun p => p.id == i)

/-- A portion changed. -/
def State.updPortion (s : State) (i : Nat) (f : Portion → Portion) : State :=
  s.updNet (fun x => { x with portions := x.portions.map (fun p => if p.id = i then f p else p) })

/-- A portion put last in the order of requests, after f. -/
def State.portionLast (s : State) (p : Portion) : State :=
  s.updNet (fun x => { x with portions := x.portions.filter (fun q => q.id != p.id) ++ [p] })

/-- A portion no longer kept. -/
def State.dropPortion (s : State) (i : Nat) : State :=
  s.updNet (fun x => { x with portions := x.portions.filter (fun q => q.id != i) })

/-- The home tile of an extent as a tile's home map copy names it (R33, R34). -/
def State.seenHome (s : State) (t e : Nat) : Nat :=
  match s.ams.stale.find? (fun x => x.1 == t && x.2.1 == e) with
  | some x => x.2.2.tile
  | none => ((s.homeOf e).map (·.tile)).getD 0

/-- The ingress tile of a write (R19). -/
def Src.tile (x : Src) (tiles : Nat) : Nat :=
  match x with
  | .qp n _ => qpTile n
  | .desc c _ => c % tiles
  | .mirror t _ => t

/-- A new portion, sent to the tile that its ingress tile takes for the home. -/
def State.addPortion (s : State) (src : Src) (capsule force : Bool) (kind : PKind) (a n : Nat) (data : List Byte)
    (poison : List (Nat × Nat)) : State :=
  let t := s.seenHome (src.tile s.tiles) (a / 2 ^ 21)
  (s.lookMap (src.tile s.tiles) (a / 2 ^ 21)).updNet (fun x => { x with
    nextPortion := x.nextPortion + 1
    portions := x.portions ++ [⟨x.nextPortion, t, a, n, src, kind, capsule, force, data, .new, s.now, none, false, poison⟩] })

/-- The ingress tile of a portion. -/
def State.ingress (s : State) (p : Portion) : Nat := p.src.tile s.tiles

/-- The twin gate stands open for a portion (R24, R266); a mirrored one passes no gate. -/
def State.gateFor (s : State) (p : Portion) : Bool :=
  match p.src with
  | .mirror _ _ => true
  | _ => s.flag (s.ingress p) HCQ.GATE.OPEN

/-- Whether an extent's admission is held: its move is in FLIPPING (R49; a STANDBY's own copy of the move holds nothing, since the
commit follows the mirrored writes in one stream, R51), or a page waits for its restore or its recovery (R131, R197). -/
def State.heldExt (s : State) (a n : Nat) : Bool :=
  s.ams.moves.any (fun m => m.ext == a / 2 ^ 21 && m.flipping && !m.partner) || !s.pagesReady a n

/-- Whether an earlier portion of the same command is still to be admitted (R174: ascending order). -/
def State.earlierOpen (s : State) (p : Portion) : Bool :=
  s.net.portions.any (fun q => q.src == p.src && q.capsule == p.capsule && decide (q.id < p.id) &&
    (q.st == .new || q.st == .waiting))

/-- A page whose backing image was lost asks its home tile for a token (R152 step 2). -/
def State.askImage (s : State) (t page : Nat) : State :=
  s.addPortion (.mirror t 0) false false .image (page * 4096) 4096 [] []

/-- Whether the device state admits a portion: SERVICE, or RESTRICTED for what a partner mirrors (R294). -/
def State.admits (s : State) (p : Portion) : Bool :=
  s.dstate == .service || (s.dstate == .restricted && (match p.src with
    | .mirror _ _ => true
    | _ => false))

/-- Whether a portion may ask for tokens now, tokens apart (R24, R185, R253, R266). -/
def State.mayAdmit (s : State) (p : Portion) : Bool :=
  s.admits p && s.gateFor p && s.pow.target == 0 && ((s.homeOf (p.addr / 2 ^ 21)).map (·.tile)) == some p.tile && !s.heldExt p.addr p.len &&
  !s.earlierOpen p && !s.orderHeld p

/-- Every page of a write whose command asks C3 goes to the head of Firn's queue (R172, R181). -/
def State.headPages (s : State) (ps : List Nat) : State :=
  s.updFirn (fun f => { f with heads := f.heads ++ ps.filter (fun p => !f.heads.contains p) })

/-- The portion is admitted: tokens of a durable or mirrored region are taken (R38, R174). -/
def State.grant (s : State) (p : Portion) : State :=
  if p.kind == .image then
    (pagesOf p.addr p.len).foldl (fun a q => if (a.tokenOf p.tile q).isSome then a else a.takeToken p.tile q 0) (s.dropPortion p.id)
  else
  let s1 := if s.classAt p.addr = 0 then s else s.grantTokens p.tile (pagesOf p.addr p.len)
  let s2 := if p.st == .waiting then s1.bump p.tile FRN.WAIT_US.COUNT (s.now - p.since) else s1
  let s3 := if p.force then s2.headPages (pagesOf p.addr p.len) else s2
  (s3.portionLast { p with st := .admitted }).lookMap p.tile (p.addr / 2 ^ 21)

/-- The first request that waits for tokens on a tile. -/
def State.firstWaiting (s : State) (t : Nat) : Option Portion :=
  s.net.portions.find? (fun p => p.tile == t && p.st == .waiting)

/-- Whether the free tokens of a tile cover a portion; a volatile region's needs none. -/
def State.enough (s : State) (p : Portion) : Bool :=
  s.classAt p.addr == 0 || decide (s.tokensNeeded p.tile (pagesOf p.addr p.len) ≤ s.freeTokens p.tile)

/-- A portion asks its home tile for admission (R174): granted whole, or last in the tile's line. -/
def State.askAdmit (s : State) (p : Portion) : State :=
  if p.st != .new || !s.mayAdmit p then s
  else if s.enough p && ((s.firstWaiting p.tile).isNone || s.classAt p.addr == 0) then s.grant p
  else (s.portionLast { p with st := .waiting, since := s.now }).ev p.tile FRN.EVENTS.ADMIT_WAIT

/-- The result of an atomic on the 8 bytes `old` (R231). -/
def PKind.result (k : PKind) (old : Nat) : Nat :=
  match k with
  | .write | .image => old
  | .cmpSwap c w => if old = c then w else old
  | .fetchAdd a => (old + a) % 2 ^ 64

/-- The effective class change of a write at its home (R170, R171, R275, R290): a mirrored one is sent in the ordered stream
when the unit feeds it and the unit is in step; in SOLO the divergence bit is set instead. Answers whether it has reached its class,
with the SEQ that carries it. -/
def State.mirrorApplied (s : State) (p : Portion) (kind : Nat) (body : List Byte) : State × Option Nat :=
  if s.classAt p.addr != 2 then (s, none)
  else
    let live := s.role == .active || (s.role == .solo && decide (1 ≤ s.twin.resync) && !s.divBit (p.addr / 65536))
    if live then
      let (a, n) := s.emit p.tile kind body
      (a.bump p.tile MIR.PORTIONS_TX.COUNT 1, some n)
    else if s.role == .solo then (s.setDivBit (p.addr / 65536) true, none)
    else (s, none)

/-- The QPN and PSN, or ring index, that a PORTION record names (Table 10.19). -/
def Src.fields (x : Src) : Nat × Nat :=
  match x with
  | .qp n p => (n, p)
  | .desc _ i => (0, i)
  | .mirror _ n => (0, n)

/-- The pages and stream SEQ of a portion whose command asks C3 are noted with the command. -/
def State.noteForce (s : State) (p : Portion) (seq : Option Nat) : State :=
  if !p.force then s else
  let ps := pagesOf p.addr p.len
  s.updNet (fun x => { x with execs := x.execs.map (fun e => if e.src = p.src then
    { e with commit := e.commit ++ ps.map (fun q => (q, s.gen q)),
             seqs := e.seqs ++ (seq.map (fun n => (p.tile, n))).toList } else e) })

/-- The first write or atomic of a QP to a volatile or durable region sets its LOCAL flag, mirrored (R280); a SOLO unit,
which may become ACTIVE with the QP, sets it too (DEDUCED, log entry 72). -/
def State.noteLocal (s : State) (p : Portion) : State :=
  match p.src with
  | .qp n _ => match s.qp n with
    | some q => if s.classAt p.addr != 2 && !q.localFlag && (s.role == .active || s.role == .solo) then
        (s.updQp n (fun x => { x with localFlag := true })).mirrorQp n else s
    | none => s
  | _ => s

/-- An earlier portion of the same atomic unit that is admitted and not applied (R168). -/
def State.aheadInUnit (s : State) (p : Portion) : Bool :=
  (s.net.portions.takeWhile (fun q => q.id != p.id)).any (fun q =>
    q.addr / 65536 == p.addr / 65536 && q.st == .admitted)

/-- The portion is applied at its home in one step (R168): bytes or the atomic's result, GEN, tokens, mirroring. -/
def State.applyPortion (s : State) (p : Portion) : State :=
  match s.homeOf (p.addr / 2 ^ 21) with
  | none => s
  | some h =>
    let (old, s1) := if p.kind == .write then ([], s) else s.readHome h false p.addr 8
    let o := leNat old
    let new := p.kind.result o
    let fails := match p.kind with
      | .cmpSwap c _ => o != c
      | _ => false
    let bs := if p.kind == .write then p.data else leBytes 8 new
    let s2 := if fails then s1 else s1.applyBytes h p.addr bs
    let s3 := p.poison.foldl (fun a e => a.setPoison e.1 (some e.2)) s2
    let s4 := if s.classAt p.addr = 0 then s3 else s3.settleTokens p.tile (pagesOf p.addr p.len)
    let (n, pos) := p.src.fields
    let (s5, seq) := if p.kind == .write then
        s4.mirrorApplied p 0x01 (leBytes 8 p.addr ++ leBytes 4 p.len ++ leBytes 1 (b2n p.force) ++ leBytes 3 0 ++ leBytes 4 n ++
          leBytes 4 pos ++ p.data)
      else s4.mirrorApplied p 0x02 (leBytes 8 p.addr ++ leBytes 4 n ++ leBytes 4 pos ++ leBytes 8 new ++ leBytes 8 o)
    let s6 := (s5.noteForce p seq).noteLocal p
    let wait := seq.isSome && s.role == .active
    let s7 := s6.updPortion p.id (fun q => { q with st := if wait then .applied else .reached, seq := seq })
    match p.src, p.kind with
    | .qp _ _, .write => s7
    | .qp m psn, _ => s7.updQp m (fun q => { q with atomics := (q.atomics ++ [(psn, o)]).reverse.take 8 |>.reverse })
    | _, _ => s7

/-- A one-sided message that has arrived whole and loses a portion never reaches its point (R257). -/
def State.cutReq (s : State) (p : Portion) : State :=
  match p.src with
  | .qp n m => if p.capsule then s else s.updQp n (fun q => { q with reqs := q.reqs.filter (fun r => !(r.psn == m && r.whole)) })
  | _ => s

/-- A portion is discarded (R168, R176): tokens it took return when nothing else keeps them. -/
def State.discardPortion (s : State) (p : Portion) : State :=
  let s1 := (s.cutReq p).dropPortion p.id
  if p.st == .admitted && s.classAt p.addr != 0 then s1.settleTokens p.tile (pagesOf p.addr p.len) else s1

/-- Whether nothing will ever bring the rest of a portion: Freeze, its QP out of RTS, or its capsule revoked or failed (R189, R243,
R257). -/
def State.orphan (s : State) (p : Portion) : Bool :=
  s.dstate == .freeze ||
  (match p.src with
   | .qp n psn =>
     (match s.qp n with
      | some q => q.st != 2 || (!p.capsule && !q.reqs.any (fun r => r.psn == psn))
      | none => true) || s.net.execs.any (fun e => e.src == p.src && (e.revoked || e.failed))
   | _ => s.net.execs.any (fun e => e.src == p.src && (e.revoked || e.failed)) ||
       !s.net.execs.any (fun e => e.src == p.src) && p.capsule)

/-- The requests of a QP that have reached their point (R221): whole, with every portion at its class. A WRITE with Immediate then
counts in its chain queue (R210). -/
def State.settleReqs (s : State) (n : Nat) : State :=
  match s.qp n with
  | none => s
  | some q =>
    let isDone := fun (r : Req) => !r.reached && r.whole && (r.kind == 0 || r.kind == 1 || r.kind == 4) &&
      !s.net.portions.any (fun p => p.src == .qp n r.psn && !p.capsule && p.st != .reached)
    let ends := q.reqs.filter isDone
    let s1 := s.updQp n (fun x => { x with reqs := x.reqs.map (fun r => if isDone r then { r with reached := true } else r) })
    let s2 := ends.foldl (fun a r => match r.imm with
      | some c => a.countUp c
      | none => a) s1
    s2.updNet (fun x => { x with portions := x.portions.filter (fun p =>
      !(!p.capsule && ends.any (fun r => p.src == .qp n r.psn))) })

/-- After portions changed state: the requests of every QP. -/
def State.settleAll (s : State) : State := (s.net.qps.map (·.qpn)).foldl State.settleReqs s

/-! ### The steps -/

/-- ADMIT_PORTION: portion `id` asks its home tile. -/
def execAdmitPortion (id : Nat) (s : State) : Host.Outcome State Fault Refusal :=
  .next (match s.portion id with
    | some p => s.askAdmit p
    | none => s)

/-- TOKEN_GRANT: the first request that waits on a tile is granted when the free tokens cover it. -/
def execTokenGrant (tile : Nat) (s : State) : Host.Outcome State Fault Refusal :=
  onTile tile s (match s.firstWaiting tile with
    | some p => if s.mayAdmit { p with st := .new } && s.enough p then s.grant p else s
    | none => s)

/-- Whether a portion whose bytes have all arrived is given up before its admission (R189, R243): at Freeze, or where a revocation or a failure
ended its command; one of a QP that left RTS is kept (R257). -/
def State.givesUp (s : State) (p : Portion) : Bool :=
  p.st != .admitted && (s.dstate == .freeze || s.net.execs.any (fun e => e.src == p.src && (e.revoked || e.failed)))

/-- DISCARD_PORTION: a portion that will never arrive whole, or is not to be admitted, is discarded. -/
def execDiscardPortion (id : Nat) (s : State) : Host.Outcome State Fault Refusal :=
  .next (match s.portion id with
    | some p => if (p.st == .new || p.st == .waiting || p.st == .admitted) && s.orphan p && (!p.arrived || s.givesUp p)
        then s.discardPortion p else s
    | none => s)

end Sys2Proof.Machine
end

