-- ==== Sys2Proof/Machine/Firn.lean ====
section
/-! DEFINITION. Firn, the write-behind engine of each tile: choice, capture, verified programs, merges, books (R178 to R181, R52,
R176, R177). -/

namespace Sys2Proof.Machine

/-- A write's page is committed (C3, R170): no token keeps it dirty, or a verified copy holds GEN g or newer. -/
def State.isCommitted (s : State) (p g : Nat) : Bool :=
  match s.homeOf (p / 512) with
  | none => true
  | some h => (s.tokenOf h.tile p).isNone ||
    (match s.deepAt h.tile p with
     | some d => d.gen == g || newerGen d.gen g
     | none => false)

/-- The partner's side of C3 (R276): a MIRROR_ACK with COMMITTED for every SEQ whose pages are now committed. -/
def State.ackCommitted (s : State) (t : Nat) : State :=
  let due := (s.twl t).c3Due
  let ok := due.filter (fun e => e.2.all (fun x => s.isCommitted x.1 x.2))
  ok.foldl (fun a e => a.twinSend t 0x11 1 e.1 [])
    (if ok.isEmpty then s else s.updTwl t (fun y => { y with c3Due := y.c3Due.filter (fun e => !ok.contains e) }))

/-- Whether Firn runs on a tile (chapter 7, `FRN.CTRL.PAUSE`, Table 14.3 step 3). -/
def State.firnRuns (s : State) (t : Nat) : Bool :=
  (s.dstate == .service || s.dstate == .restricted || s.dstate == .restore) && !s.flag t FRN.CTRL.PAUSE

/-- The dirty pages of an atomic unit on a tile. -/
def State.dirtyOf (s : State) (t u : Nat) : List Nat :=
  (s.firn.tokens.filter (fun k => k.tile == t && k.page / 16 == u)).map (·.page)

/-- Whether a page's present GEN is in a tile's Firn buffer. -/
def State.inBuffer (s : State) (t p : Nat) : Bool := (s.captured t p).any (fun c => c.gen == s.gen p)

/-- The dirty pages of a tile in the atomic units that have one whose present GEN is not in Firn's buffer. -/
def State.firnWork (s : State) (t : Nat) : List Token :=
  let mine := s.firn.tokens.filter (fun k => k.tile == t)
  let units := (mine.filter (fun k => !s.inBuffer t k.page)).map (fun k => k.page / 16)
  mine.filter (fun k => units.contains (k.page / 16))

/-- The token that has been held longest. -/
def oldestToken (l : List Token) : Option Token :=
  l.foldl (fun a k => match a with
    | none => some k
    | some b => if k.since < b.since then some k else some b) none

/-- The atomic unit that Firn serves next on a tile (R181). -/
def State.firnNext (s : State) (t : Nat) : Option Nat :=
  let w := s.firnWork t
  match s.firn.heads.find? (fun p => w.any (fun k => k.page == p && !s.inBuffer t p)) with
  | some p => some (p / 16)
  | none => match w.find? (fun k => s.firn.cleanAsk.contains (k.page / 512)) with
    | some k => some (k.page / 16)
    | none => (oldestToken (if s.isUrgent t then w else
        w.filter (fun k => decide (k.since + s.fld t FRN.CTRL.AGE_MIN_US ≤ s.now)))).map (fun k => k.page / 16)

/-- A page captured: its bytes through the cache (R72), its GEN and its mask (R153); ranges held for it are now part of the image (R180). -/
def State.capturePage (s : State) (t p : Nat) : CapPage × State :=
  let (bs, s1) := match s.homeOf (p / 512) with
    | some h => s.readHome h false (p * 4096) 4096
    | none => (List.replicate 4096 0, s)
  (⟨p, s.gen p, bs, s1.maskOf p⟩, (s1.updToken t p (fun k => { k with captured := some (s.gen p) })).updFirn (fun f =>
    { f with ranges := f.ranges.filter (fun r => !(r.tile == t && r.n / 32 == p)) }))

/-- Captures every dirty page of an atomic unit at one instant (R178), where the buffer has room for them (R179) and all of them can be read. -/
def State.captureUnit (s : State) (t u : Nat) : State :=
  let ps := s.dirtyOf t u
  if ps.isEmpty || decide (bufMax < s.bufPages t + ps.length) then s else
  let s0 := s.probePages ps
  if !s0.readable ps then s0 else
  let (l, s1) := ps.foldl (fun (a : List CapPage × State) p =>
    let (c, x) := a.2.capturePage t p
    (a.1 ++ [c], x)) ([], s0)
  s1.updFirn (fun f => { f with caps := f.caps ++ [⟨t, u, l⟩] })

/-- FIRN_CAPTURE: Firn captures the unit it serves next; `near`: near-tier words found wrong by its reads (R59). -/
def execFirnCapture (tile : Nat) (near : List NearErr) (s : State) : Host.Outcome State Fault Refusal :=
  onTile tile s (match s.firnNext tile with
    | some u => if s.firnRuns tile then (s.addNear near).captureUnit tile u else s
    | none => s)

/-- FIRN_DEEP_MERGE: a deep-homed page that has received dirty ranges is read and merged, and captured with the other dirty pages of its unit
(R178, R180). -/
def execFirnDeepMerge (tile page : Nat) (s : State) : Host.Outcome State Fault Refusal :=
  onTile tile s (if s.firnRuns tile && s.firn.ranges.any (fun r => r.tile == tile && r.n / 32 == page) then s.captureUnit tile (page / 16) else s)

/-- One page of a capture is programmed and verified: its token returns under R176, or the page stays dirty. -/
def State.verifyPage (s : State) (t : Nat) (c : CapPage) : State :=
  let s1 := (s.programDeep t c.page c.gen c.mask c.data 0).bump t FRN.PROGRAMMED.COUNT 1
  match s1.tokenOf t c.page with
  | none => s1
  | some k =>
    if s1.gen c.page = c.gen && k.inflight = 0 then
      (s1.returnToken t c.page).updFirn (fun f => { f with heads := f.heads.filter (fun p => p != c.page) })
    else s1.bump t FRN.RECAPTURE.COUNT 1

/-- PROGRAM_VERIFIED: the oldest capture of a unit, all of it in one page stripe, and that stripe's parity have passed program status (R145, R176,
R178); the program waits while the deep tier has no place for it. A page that is no longer homed on the tile is not programmed. `us`: the time that the
program took (R163). -/
def State.programVerified (s : State) (t u us : Nat) : State :=
  match s.firn.caps.find? (fun c => c.tile == t && c.unit == u) with
  | none => s
  | some c =>
    let mine := c.pages.filter (fun p => ((s.homeOf (p.page / 512)).map (·.tile)) == some t)
    let s0 := s.alignHead t 0 mine.length
    if !mine.all (fun p => s0.deepFits t p.page 0) then s else
    let s1 := s0.updFirn (fun f => { f with caps := f.caps.erase c })
    let s2 := ((mine.foldl (fun a p => a.verifyPage t p) s1).closeRow t 0).ackCommitted t
    match s0.headStripe t 0 with
    | some x => if mine.isEmpty then s2 else (List.range 8).foldl (fun a ch => a.noteProgram t x.id ch us) s2
    | none => s2

/-- PROGRAM_VERIFIED: held while the tile has no XTS key (R408). -/
def execProgramVerified (tile unit us : Nat) (s : State) : Host.Outcome State Fault Refusal :=
  onTile tile s (if s.flag tile BCX.STATUS.XTS_KEY then s.programVerified tile unit us else s.ev tile BCX.EVENTS.KEY_MISSING)

/-- FIRN_BOOKS_CHECK: held tokens against the token table (R177). -/
def execFirnBooksCheck (tile : Nat) (s : State) : Host.Outcome State Fault Refusal :=
  onTile tile s
    (let n := (s.firn.tokens.filter (fun k => k.tile == tile)).length
     if s.fld tile FRN.HELD.PAGES = n then s
     else (s.evRec tile FRN.EVENTS.BOOKS 0).setF tile FRN.HELD.PAGES n)

/-- The foreign copies of a page: those on tiles that do not home it (R36, R52). -/
def State.foreignCopies (s : State) (p : Nat) : List DeepPage :=
  s.firn.deep.filter (fun d => d.page == p && (match s.homeOf (p / 512) with
    | some h => d.tile != h.tile && !s.ams.moves.any (fun m => m.ext == p / 512 && m.req.tile == d.tile && m.req.tier == 2)
    | none => false))

/-- LOCAL_IMAGE_WRITE: the home tile's Firn writes a local image of a clean page that has only a foreign one, and frees the foreign
copy (R52); not before the page can be read, restored or recovered. -/
def execLocalImageWrite (page : Nat) (s : State) : Host.Outcome State Fault Refusal :=
  .next (match s.homeOf (page / 512) with
    | none => s
    | some h =>
      let fs := s.foreignCopies page
      if fs.isEmpty || h.tier == 2 || !s.firnRuns h.tile then s
      else if (s.deepAt h.tile page).isSome then fs.foldl (fun a d => a.unmapDeep d.tile page) s
      else
        let s0 := s.probePages [page]
        if !s0.readable [page] || !s0.deepFits h.tile page 0 then s0 else
        let (bs, s1) := s0.readHome h false (page * 4096) 4096
        let s2 := ((s1.alignHead h.tile 0 1).programDeep h.tile page (s1.gen page) (s1.maskOf page) bs 0).closeRow h.tile 0
        fs.foldl (fun a d => a.unmapDeep d.tile page) s2)

end Sys2Proof.Machine
end

