-- ==== Sys2Proof/Machine/Mailbox.lean ====
section
/-! DEFINITION. How a mailbox request is answered (R330 to R339, R343, R349 to R351). A command is a `Cmd`: its opcode, the
roles that hold its right, its class of Table 12.7, whether it acts and whether the ACTIVE mirrors it, its payload check
(step 6), its own state condition (step 7) and its execution (step 8). -/

namespace Sys2Proof.Machine

/-- Mailbox status codes (Table 12.3). -/
inductive Status
  | ok | stateConflict | deniedRole | badArg | busy | noResource | mediaError | versionMismatch | notErased | revoked
  | exhausted
deriving DecidableEq, Repr

/-- The code of a status. -/
def Status.code : Status → Nat
  | ok => 0 | stateConflict => 1 | deniedRole => 2 | badArg => 3 | busy => 4 | noResource => 5 | mediaError => 6
  | versionMismatch => 7 | notErased => 8 | revoked => 9 | exhausted => 10

/-- The classes of Table 12.7. -/
inductive CmdClass
  | sys | reading | firmware | config | region | sleep
deriving DecidableEq, Repr

/-- Who sent a command: role (0 none), session (0 none), point. -/
structure Caller where
  role : Nat
  session : Nat
  point : Nat
deriving DecidableEq, Repr

/-- How an execution ends: the state, the status, the response payload, and what follows the response; or, with `wait` a
region and the cause of its revocation, the response waits for the end of that revocation (R242). -/
structure CmdOut where
  s : State
  status : Status
  payload : List Byte
  after : State → State
  wait : Option (Nat × Nat)

/-- A command that ends with a status and no payload. -/
def CmdOut.done (s : State) (st : Status) : CmdOut := ⟨s, st, [], id, none⟩

/-- A command that ends OK with a payload. -/
def CmdOut.reply (s : State) (pl : List Byte) : CmdOut := ⟨s, .ok, pl, id, none⟩

/-- A mailbox command; `right role s payload` is what its right asks beside the role (owning role, register). -/
structure Cmd where
  opcode : Nat
  roles : List Nat
  cls : CmdClass
  acting : Bool
  mirrored : Bool
  right : Nat → State → List Byte → Bool
  check : State → List Byte → Bool
  ready : State → List Byte → Bool
  run : Caller → List Byte → State → CmdOut

/-- The session opcodes and identity commands that need no session (R336 step 2). -/
def openOpcodes : List Nat := [0x0000, 0x0001, 0x0100, 0x0101]

/-- Every opcode that Table 12.11 and its chapters assign to a command. -/
def allOpcodes : List Nat :=
  [0x0000, 0x0001, 0x0002, 0x0010, 0x0011, 0x0020, 0x0021, 0x0022, 0x0023, 0x0024, 0x0025, 0x0026, 0x0027, 0x0030, 0x0031,
   0x0032, 0x0033, 0x0040, 0x0041, 0x0100, 0x0101, 0x0102, 0x0103] ++
  [0x0200, 0x0201, 0x0202, 0x0203, 0x0204, 0x0205, 0x0220, 0x0221, 0x0222, 0x0223, 0x0224, 0x0300, 0x0301, 0x0310, 0x0311,
   0x0312, 0x0313, 0x0314, 0x0315, 0x0316, 0x0320, 0x0321, 0x0322, 0x0330, 0x0340, 0x0341, 0x0342] ++
  [0x0350, 0x0351, 0x0352, 0x0353, 0x0354, 0x0355, 0x0356, 0x0357, 0x0360, 0x0361, 0x0362, 0x0363, 0x0364, 0x0365, 0x0366,
   0x0370, 0x0371, 0x0372, 0x0373, 0x0374, 0x0375, 0x0400, 0x0401, 0x0402, 0x0403, 0x0404, 0x0405] ++
  [0x0500, 0x0501, 0x0502, 0x0503, 0x0504, 0x0505, 0x0506, 0x0600, 0x0601, 0x0602, 0x0603, 0x0604, 0x0605, 0x0606, 0x0607,
   0x0608, 0x0609, 0x060A, 0x0700, 0x0701, 0x0702, 0x0710, 0x0711] ++
  [0x0800, 0x0801, 0x0802, 0x0803, 0x0804, 0x0805, 0x0806, 0x0807, 0x0900, 0x0901, 0x0910, 0x0911, 0x0912, 0x0920, 0x0921,
   0x0922, 0x0923, 0x0924, 0x0930, 0x0931, 0x0A00, 0x0A01, 0x0A02, 0x0A03, 0x0A04]

/-- The requests the boot ROM serves in FAULT with cause bit 15 (R365). -/
def romOpcodes : List Nat :=
  [0x0000, 0x0001, 0x0100, 0x0101, 0x0102, 0x0800, 0x0801, 0x0802, 0x0803, 0x0806, 0x0804]

/-- Whether a point's requests reach a mailbox at all in a device state (R343, Table 12.7). -/
def pointServed (d : DState) (p : Nat) : Bool :=
  match d with
  | .off | .aonOnly | .freeze | .s3 => false
  | .boot | .selftest | .s2 => p == 0
  | _ => decide (p < 15)

/-- Whether a class is served in a device state (Table 12.7). -/
def classServed (c : CmdClass) (d : DState) : Bool :=
  match c, d with
  | .sys, .boot | .sys, .selftest | .sys, .restore | .sys, .service | .sys, .restricted | .sys, .fault => true
  | .reading, .restore | .reading, .service | .reading, .restricted | .reading, .fault => true
  | .firmware, .service | .firmware, .restricted | .firmware, .fault => true
  | .config, .service | .config, .restricted => true
  | .region, .service => true
  | .sleep, .service => true
  | _, _ => false

/-- Step 7 of R336: the class, the boot ROM's service (R365), the twin role for mirrored acting commands (R343), and the
command's own condition. -/
def Cmd.allowed (c : Cmd) (f : Frame) (s : State) : Bool :=
  if s.boot.romService then f.point == 0 && romOpcodes.contains c.opcode
  else classServed c.cls s.dstate &&
    !(c.mirrored && c.acting && (s.role == .standby || s.role == .syncing)) && c.ready s f.payload

/-- Step 1 of R336: version first, then reserved bits. -/
def headerStatus (f : Frame) : Status :=
  if f.version != 1 then .versionMismatch
  else if f.flags != 0 || f.rsv != 0 || f.status != 0 || f.dstate != 0 || f.trole != 0 then .badArg
  else .ok

/-- The outcome of steps 1 to 7: refused at a step, the stored response sent again, or on to step 8 with the session
that carries the request, if one does. -/
inductive Admit
  | refuse (step : Nat) (st : Status)
  | resend (bytes : List Byte)
  | go (x : Option Session)
deriving DecidableEq, Repr

/-- Step 2 of R336: the session that a frame names, or none for the requests that need none. -/
def sessionOf (c : Cmd) (f : Frame) (s : State) : Option (Option Session) :=
  if f.session = 0 then (if openOpcodes.contains c.opcode then some none else none)
  else match s.mb.sessions.find? (fun x => x.point == f.point && x.id == f.session) with
    | some x => if frameMac x.key f = f.mac then some (some x) else none
    | none => none

/-- Steps 3 to 7 of R336 for a request outside a session. -/
def Cmd.admitOpen (c : Cmd) (f : Frame) (s : State) : Admit :=
  if f.ctr != 0 then .refuse 3 .deniedRole
  else if !c.check s f.payload then .refuse 6 .badArg
  else if s.boot.romService && c.opcode == 0x0100 && leNat (f.payload.take 1) != 2 then .refuse 7 .stateConflict
  else if !c.allowed f s then .refuse 7 .stateConflict
  else .go none

/-- Steps 3 to 7 of R336 within a session. -/
def Cmd.admitIn (c : Cmd) (f : Frame) (x : Session) (s : State) : Admit :=
  if f.ctr = x.lastCtr && x.lastReq == some f then .resend x.lastResp
  else if x.lastCtr = 2 ^ 32 - 1 then .refuse 3 .exhausted
  else if f.ctr != x.lastCtr + 1 then .refuse 3 .deniedRole
  else if !((c.roles.isEmpty || c.roles.contains x.role) && c.right x.role s f.payload) then .refuse 5 .deniedRole
  else if !c.check s f.payload then .refuse 6 .badArg
  else if !c.allowed f s then .refuse 7 .stateConflict
  else .go (some x)

/-- Steps 1 to 7 of R336. -/
def Cmd.admission (c : Cmd) (f : Frame) (s : State) : Admit :=
  if headerStatus f != .ok then .refuse 1 (headerStatus f)
  else match sessionOf c f s with
    | none => .refuse 2 .deniedRole
    | some none => c.admitOpen f s
    | some (some x) => c.admitIn f x s

/-- The response frame to a request (Table 12.2): DSTATE and TROLE as they stand (R337), MAC under the session key. -/
def respFrame (s : State) (f : Frame) (x : Option Session) (executed : Bool) (st : Status) (pl : List Byte) : Frame :=
  let r : Frame := { f with flags := if executed then 5 else 1, version := 1, status := st.code,
                            dstate := s.fld 0 MGT.STATE.DSTATE, trole := s.fld 0 TWA.STATUS.ROLE, rsv := 0, mac := 0,
                            payload := pl }
  match x with
  | some y => { r with mac := frameMac y.key r }
  | none => { r with session := f.session, mac := 0 }

/-- Sends a response on a point: as packets waiting on MB0 (R453, R331), as a SEND of the point's QP on the others. -/
def State.respond (s : State) (p : Nat) (bytes : List Byte) : State :=
  if p = 0 then ({ s with twb := { s.twb with outPkts := s.twb.outPkts ++ mctpPackets s bytes, due := true } }).send
      (.mailbox 0 bytes)
  else (s.send (.mailbox p bytes)).pointMsg p bytes

/-- The audit record of R351: source RLE, code the opcode, argument the first 8 bytes of the payload, or 0 for the keys
group. -/
def State.audit (s : State) (c : Caller) (opcode : Nat) (pl : List Byte) (denied : Bool) : State :=
  let r := s.stamp 0 0x3F opcode (if denied then 3 else 1) 0
  (s.enqueueRec 0 { r with
    denied := denied, solo := true, arg := if opcode / 256 = 0x0A then 0 else leNat (bytesAt pl 0 8),
    roleSession := c.role * 16384 + c.point * 1024 + c.session % 1024 }).bump 0 RLE.AUDIT.COUNT 1

/-- A request refused at steps 1 to 7 (R336): MGT.LAST_REFUSE, the bits and counters, the audit record of a DENIED_ROLE,
and the response with EXECUTED clear. -/
def State.refuseReq (s : State) (f : Frame) (x : Option Session) (step : Nat) (st : Status) : State :=
  let s1 := s.setFs 0 [(MGT.LAST_REFUSE.STATUS, st.code), (MGT.LAST_REFUSE.POINT, f.point), (MGT.LAST_REFUSE.STEP, step)]
  let s2 := if step = 2 && x.isSome then s1.ev 0 MGT.EVENTS.MAC_FAIL else s1
  let s3 := if step = 3 && st = .deniedRole then s2.ev 0 MGT.EVENTS.REPLAY else s2
  let s4 := if st = .deniedRole then
      (s3.ev 0 RLE.EVENTS.DENIED).audit ⟨(x.map (·.role)).getD 0, (x.map (·.id)).getD 0, f.point⟩ f.opcode f.payload true
    else s3
  s4.respond f.point (frameBytes (respFrame s4 f x false st []))

/-- The session that a frame names, whatever its MAC. -/
def State.namedSession (s : State) (f : Frame) : Option Session :=
  s.mb.sessions.find? (fun x => x.point == f.point && x.id == f.session)

/-- The sequence that the unit which sends AUTH chooses for a FEED_MAP_SWITCH with S = 0 (R320). -/
def FStream.switchAt (x : FStream) : Nat := (x.seq + x.depth + 16) % 2 ^ 48

/-- The request that a COMMAND record carries: a FEED_MAP_SWITCH with the sequence as this unit executed it (Table 10.5, R320). -/
def State.mirroredReq (s : State) (f : Frame) : Frame :=
  if f.opcode != 0x0607 || leNat (bytesAt f.payload 8 8) != 0 then f else
  match s.feed.streams.find? (fun x => x.cfg.num == leNat (bytesAt f.payload 0 2)) with
  | some x => { f with payload := f.payload.take 8 ++ leBytes 8 x.switchAt }
  | none => f

/-- The end of step 8 of R336: audit, the response with EXECUTED set, kept with the session for a resend (R335), or held by an
ACTIVE unit in step for the partner's acknowledgement of a mirrored command (R338). `x`: the session's point and id. -/
def State.finishCmd (s : State) (acting mirror : Bool) (f : Frame) (x : Option (Nat × Nat)) (role : Nat) (st : Status)
    (pl : List Byte) : State :=
  let caller : Caller := ⟨role, (x.map (·.2)).getD 0, f.point⟩
  let denied := st == .deniedRole
  let s1 := if acting || denied then
      (if denied then s.ev 0 RLE.EVENTS.DENIED else s).audit caller f.opcode f.payload denied else s
  let y := x.bind (fun e => s1.mb.sessions.find? (fun z => z.point == e.1 && z.id == e.2))
  let resp := frameBytes (respFrame s1 f y true st pl)
  let s2 := match y with
    | some y => s1.updSession y.point (fun (z : Session) =>
        { z with lastCtr := f.ctr, lastReq := some f, lastResp := resp, lastValid := s1.now })
    | none => s1
  if mirror && st == .ok then
    let (seq, a) := s2.mirrorCommand (s2.mirroredReq f) role caller.session
    if a.role == .active && a.flag 0 TWA.STATUS.IN_STEP then { a with mb := { a.mb with held := a.mb.held ++ [⟨seq, f.point, resp⟩] } }
    else a.respond f.point resp
  else s2.respond f.point resp

/-- Answers the command that waits for a key with a status (see `CmdOut.wait`). -/
def State.finishWait (s : State) (key cause : Nat) (st : Status) (pl : List Byte) : State :=
  match s.mb.deferred.find? (fun d => d.region == key && d.cause == cause) with
  | some d => { s with mb := { s.mb with deferred := s.mb.deferred.erase d } }.finishCmd true false d.frame d.session d.role st pl
  | none => s

/-- The key under which the command of a feed stream waits, and its causes: FEED_START, FEED_MAP_SWITCH. -/
def feedKey (n : Nat) : Nat := 131072 + n

/-- A stream stops (Table 11.3); a command that waits for it to be ARMED ends with a status (DESIGN CHOICE, log entry 25). -/
def State.haltStream (s : State) (n cause : Nat) (st : Status) : State :=
  let s1 := s.stopStream n cause
  if (s1.fstream n).any (·.live) then s1 else (s1.finishWait (feedKey n) 5 st []).finishWait (feedKey n) 6 st []

/-- Step 8 of R336: execution, and the response now or at the end of the revocation it waits for. -/
def Cmd.execute (c : Cmd) (f : Frame) (x : Option Session) (s : State) : State :=
  let caller : Caller := ⟨(x.map (·.role)).getD 0, (x.map (·.id)).getD 0, f.point⟩
  let mirror := c.mirrored && c.acting && s.streaming
  let r := c.run caller f.payload (s.bump 0 MGT.COMMANDS.COUNT 1)
  let key := x.map (fun z => (z.point, z.id))
  match r.wait with
  | some (g, cause) =>
    let s1 := { r.s with mb := { r.s.mb with deferred := r.s.mb.deferred ++ [⟨g, cause, f, key, caller.role⟩] } }
    r.after (if mirror then (s1.mirrorCommand (s1.mirroredReq f) caller.role caller.session).2 else s1)
  | none => r.after (r.s.finishCmd c.acting mirror f key caller.role r.status r.payload)

/-- The input frame that a request was, taken from the point's queue. -/
def State.takeInput (s : State) (f : Frame) : State := { s with mb := { s.mb with input := s.mb.input.erase f } }

/-- Whether a point's request still waits for its response: for the end of what it began, or for the partner's acknowledgement (R338). -/
def State.pointWaits (s : State) (p : Nat) : Bool :=
  s.mb.deferred.any (fun d => d.frame.point == p) || s.mb.held.any (fun h => h.point == p)

/-- The wake of a frame that reaches a point in S1, or MB0 in S2, before it is checked (R343). -/
def State.frameWake (s : State) (p : Nat) : State :=
  if s.dstate == .s1 || s.dstate == .s2 then s.wakeUp (if p = 0 then 2 else 1) else s

/-- A mailbox request (R336), after the wake of R343 where the device sleeps; one that meets a sleep entry ends it (R390). A request that arrives at a point while an
earlier one still waits for its response waits in the queue (R335). -/
def mailbox (c : Cmd) (f0 : Frame) (s0 : State) : State :=
  let f := { f0 with opcode := c.opcode }
  if s0.pointWaits f.point then s0 else
  let s1 := s0.takeInput f
  if !pointServed s1.dstate f.point then s1 else
  let s := s1.frameWake f.point
  let r := match c.admission f s with
    | .refuse n st => s.refuseReq f (s.namedSession f) n st
    | .resend b => s.respond f.point b
    | .go x => c.execute f x s
  if s.pow.target = 0 then r else r.abortSleep

/-- A request whose opcode no table assigns (R336 step 4): it is refused as it arrives. -/
def mailboxUnknown (f : Frame) (s0 : State) : State :=
  if !pointServed s0.dstate f.point then s0 else
  let s := s0.frameWake f.point
  let r := if headerStatus f != .ok then s.refuseReq f (s.namedSession f) 1 (headerStatus f)
    else match s.namedSession f with
      | none => s.refuseReq f none 2 .deniedRole
      | some x =>
        if frameMac x.key f != f.mac then s.refuseReq f (some x) 2 .deniedRole
        else if x.lastCtr = 2 ^ 32 - 1 then s.refuseReq f (some x) 3 .exhausted
        else if f.ctr != x.lastCtr + 1 then s.refuseReq f (some x) 3 .deniedRole
        else s.refuseReq f (some x) 4 .badArg
  if s.pow.target = 0 then r else r.abortSleep

/-- No right beside the role. -/
def roleOnly (_ : Nat) (_ : State) (_ : List Byte) : Bool := true

/-- No state condition beside the class. -/
def always (_ : State) (_ : List Byte) : Bool := true

/-- Every role, the reading commands of R350. -/
def anyRole : List Nat := [1, 2, 3]

/-- A reading command for every role. -/
def readCmd (opcode : Nat) (cls : CmdClass) (check : State → List Byte → Bool)
    (run : Caller → List Byte → State → CmdOut) : Cmd :=
  ⟨opcode, anyRole, cls, false, false, roleOnly, check, always, run⟩

/-- An acting command that the ACTIVE does not mirror. -/
def actCmd (opcode : Nat) (roles : List Nat) (cls : CmdClass) (check : State → List Byte → Bool)
    (run : Caller → List Byte → State → CmdOut) : Cmd :=
  ⟨opcode, roles, cls, true, false, roleOnly, check, always, run⟩

/-- An acting command that the ACTIVE mirrors (R298, R333). -/
def mirCmd (opcode : Nat) (roles : List Nat) (cls : CmdClass) (check : State → List Byte → Bool)
    (run : Caller → List Byte → State → CmdOut) : Cmd :=
  ⟨opcode, roles, cls, true, true, roleOnly, check, always, run⟩

/-- The payload is empty. -/
def noArgs (_ : State) (pl : List Byte) : Bool := pl.isEmpty

/-- The fields of a payload whose layout step 6 has checked. -/
def fieldsOf (sizes : List Nat) (pl : List Byte) : List Nat := (parse339 sizes pl).getD []

/-- The n-th field. -/
def fieldAt (sizes : List Nat) (pl : List Byte) (n : Nat) : Nat := (fieldsOf sizes pl).getD n 0

end Sys2Proof.Machine
end

