-- ==== Sys2Proof/Machine/Frames.lean ====
section
/-! DEFINITION. Frames and deep capacity of a tile (R32, R39, R57, R58, R107, R124, R146, R150). -/

namespace Sys2Proof.Machine

/-- The level-2 blocks in use (R32). -/
def State.blocksUsed (s : State) : List Nat := (s.ams.homes.map (fun e => e.1 / 65536)).dedup

/-- The range of frames a tier of a tile gives homes: first, one past the last. While a repartition runs, the near tier gives only the frames that
it has and will keep (R57, R66). -/
def State.frameRange (s : State) (t tier : Nat) : Nat × Nat :=
  match tier with
  | 0 => (0, min (s.fld t NTR.SIZE.STEPS) ((amapFind t s.cache.repart).getD 12) * 4)
  | 1 => (s.reservedFrames t, s.mainBytes / 2 ^ 21)
  | _ => (0, 2 ^ 24)

/-- The frames of a tier in use: homes, reserved destinations, and in the near tier the frames of the raster-line FIFOs. -/
def State.framesUsed (s : State) (t tier : Nat) : List Nat :=
  (s.ams.homes.filter (fun e => e.2.tile == t && e.2.tier == tier)).map (fun e => e.2.frame) ++
  s.ams.moves.filterMap (fun m => if m.req.tile = t && m.req.tier = tier then m.frame else none) ++
  (if tier = 0 then s.fifoFrames t else if tier = 1 then (s.deep.tableFrames.filter (fun e => e.1 == t)).map (fun e => e.2.2) else if tier = 2 then (s.firn.dens.filter (fun x => x.1 / 2 ^ 32 == t)).map (·.2) else [])

/-- The lowest free frame of a tier. -/
def State.freeFrame (s : State) (t tier : Nat) : Option Nat :=
  let (lo, hi) := s.frameRange t tier
  let used := s.framesUsed t tier
  let n := lowestFree used used.length lo
  if n < hi then some n else none

/-- Free frames of a tier. -/
def State.freeFrames (s : State) (t tier : Nat) : Nat :=
  let (lo, hi) := s.frameRange t tier
  (hi - lo) - ((s.framesUsed t tier).filter (fun n => decide (lo ≤ n) && decide (n < hi))).dedup.length

/-- The extents that reserve user capacity on a tile (R150): durable and mirrored ones homed there or moving there, and those whose
deep copy it still holds. -/
def State.reserving (s : State) (t : Nat) : List Nat :=
  let homed := (s.ams.homes.filter (fun e => e.2.tile == t && s.classAt (e.1 * 2 ^ 21) != 0)).map (·.1)
  let moving := (s.ams.moves.filter (fun m => m.req.tile == t && m.frame.isSome && s.classAt (m.ext * 2 ^ 21) != 0)).map (·.ext)
  let kept := (s.firn.deep.filter (fun d => d.tile == t)).map (fun d => d.page / 512)
  (homed ++ moving ++ kept).dedup

/-- Whether a tile's deep tier has user capacity for n more extents. -/
def State.deepRoom (s : State) (t n : Nat) : Bool :=
  decide (((s.reserving t).length + n) * 2 ^ 21 ≤ s.userCap t)

/-- A frame is freed (R124): its contents and born state go. -/
def State.freeFrameBytes (s : State) (h : Home) : State :=
  match h.tier with
  | 0 => s.wipe .near h.tile (h.frame * 2 ^ 21) (2 ^ 21)
  | 1 => s.clearFrame h.tile h.frame
  | _ => s

/-- An extent takes a home at creation: the lowest free frame of the tier, or a DEN. -/
def State.placeExtent (s : State) (e t tier : Nat) : State :=
  if tier = 2 then
    let s1 := s.ensureDen t e
    s1.setHome e ⟨t, 2, false, false, (s1.denOf t e).getD 0⟩
  else match s.freeFrame t tier with
    | some f => s.setHome e ⟨t, tier, false, false, f⟩
    | none => s

/-- The pages of a region that the device keeps anything for. -/
def State.regionPages (s : State) (r : Region) : List Nat :=
  let inside := fun (p : Nat) => decide (r.base ≤ p * 4096) && decide (p * 4096 < r.base + r.len * 2 ^ 21)
  ((s.firn.born ++ s.firn.tokens.map (·.page) ++ s.firn.deep.map (·.page) ++ s.firn.gens.map (·.1)).filter inside).dedup

/-- The extents of a region lose their homes: frames freed, pages unmapped, tokens returned, cached copies dropped (R244). -/
def State.freeRegion (s : State) (r : Region) : State :=
  let es := r.exts
  let s1 := (s.regionPages r).foldl (fun a p => a.forgetPage p) s
  let s2 := s1.updCache (fun c => { c with
    ranges := c.ranges.filter (fun x => !es.contains (x.n / 2 ^ 14))
    evb := c.evb.filter (fun x => !es.contains (x.n / 2 ^ 14))
    missq := c.missq.filter (fun x => !es.contains (x.n / 2 ^ 14))
    waitq := c.waitq.filter (fun x => !es.contains (x.n / 2 ^ 14)) }) |>.updDec (fun d => { d with
      near := d.near.filter (fun x => !es.contains (x.1 / 2 ^ 18)) })
  es.foldl (fun a e =>
    let b := match a.homeOf e with
      | some h => a.freeFrameBytes h
      | none => a
    let c := b.updAms (fun m => { m with homes := amapErase e m.homes, movePend := amapErase e m.movePend,
                                         stale := m.stale.filter (fun x => x.2.1 != e), hmc := m.hmc.filter (fun x => x.2 != e) })
    (c.allTiles (fun t x => x.freeDen t e)).setDiv e 0) s2

end Sys2Proof.Machine
end

