-- ==== Sys2Proof/Machine/Dram.lean ====
section
/-! DEFINITION. The DDR5 controllers: service, refresh, panic, retraining, frequency change, training, repair, partial retention,
and the main-tier commands (chapter 4). -/

namespace Sys2Proof.Machine

/-- A field of channel c set on tile t. -/
def State.setC (s : State) (t c : Nat) (f : Fld) (v : Nat) : State := s.setF t (Fld.inst f c) v

/-- A field of channel c on tile t. -/
def State.fldC (s : State) (t c : Nat) (f : Fld) : Nat := s.fld t (Fld.inst f c)

/-- Runs a meaning for a channel that a tile has. -/
def onChannel (t c : Nat) (s : State) (x : State) : Host.Outcome State Fault Refusal := onUnit t c 3 s x

/-- The number of a channel in the package. -/
def chanNo (t c : Nat) : Nat := t * 3 + c

/-! ### Modules (R86, R87, R113) -/

/-- The module in a slot of a channel: one that the board names, or the board's own. -/
def State.moduleAt (s : State) (t c slot : Nat) : Module :=
  (s.board.modules.find? (fun m => m.tile == t && m.ch == c && m.slot == slot)).getD
    ⟨t, c, slot, decide (slot < s.board.dimms), true, s.board.ranks, s.board.rankGib, s.board.grade, chanNo t c * 2 + slot + 1⟩

/-- The modules of a channel. -/
def State.modules (s : State) (t c : Nat) : List Module :=
  ((List.range 2).map (s.moduleAt t c)).filter (·.fitted)

/-- The serial numbers of a channel's modules. -/
def State.serials (s : State) (t c : Nat) : List Nat := (s.modules t c).map (·.serial)

/-- The serial number of the module that holds a logical rank of a channel (R91). -/
def State.serialOf (s : State) (t c rank : Nat) : Nat := (s.moduleAt t c (s.rankAt rank).1).serial

/-- Whether a module has an organisation of Table 4.1. -/
def Module.supported (m : Module) : Bool :=
  m.rdimm && ((m.rankGib == 32 && [1, 2, 4, 8].contains m.ranks) || (m.rankGib == 64 && [1, 2, 4].contains m.ranks))

/-- The rule of R86 and R87 that a channel's modules break: 1 the organisation, 2 it is not that of the other channels, 3 slot 0. -/
def State.boardRule (s : State) (t c : Nat) : Option Nat :=
  let ms := s.modules t c
  if ms.isEmpty || ms.any (fun m => !m.supported) then some 1
  else if ms.length != s.board.dimms || ms.any (fun m => m.ranks != s.board.ranks || m.rankGib != s.board.rankGib) then some 2
  else if !ms.any (fun m => m.slot == 0) then some 3
  else none

/-- The channels of the package. -/
def State.channels (s : State) : List (Nat × Nat) := (List.range s.tiles).flatMap (fun t => (List.range 3).map (fun c => (t, c)))

/-- The lowest speed grade of any module, MT/s. -/
def State.lowestGrade (s : State) : Nat :=
  (s.channels.flatMap (fun e => (s.modules e.1 e.2).map (·.grade))).foldl min s.board.grade

/-! ### Frequency change (R104 to R106) -/

/-- The highest data rate that the board's class allows, 100 MT/s units (Table 19.6). -/
def State.boardRate (s : State) : Nat := if s.board.dimms = 2 && s.pow.ddrClass != 1 then 48 else 64

/-- The data rate of a timing set, 100 MT/s units (R87): the lowest of the set's own, the modules' and the board's. -/
def State.setRate (s : State) (t c x : Nat) : Nat :=
  let own := s.fld t ((Fld.inst DMC.TSET_A.VALUE c).up (64 * x))
  min own (min (s.lowestGrade / 100) s.boardRate)

/-- Whether set x keeps the tile's pool at or above the feed bandwidth admitted (R106). -/
def State.speedAllowed (s : State) (t c x : Nat) : Bool :=
  decide (s.mainAdmitted t ≤ 3 * bFeed (s.setRate t c x) (s.fldC t c DMC.PANIC.FEED_PCT))

/-- The power state of every logical rank of a channel, all alike. -/
def State.setRanks (s : State) (t c v : Nat) : State :=
  s.updDmc t c (fun x => { x with rankPower := if v = 0 then [] else (List.range s.lranks).map (fun r => (r, v)) })

/-- Whether a waiting change, pause or repair may begin on a channel: no panic, none of the others in progress, no Freeze (R99, R106). -/
def State.channelFree (s : State) (t c : Nat) : Bool :=
  !s.panicOn t c && s.dmcServes t c && (s.dmc t c).repairAt.isNone && s.dstate != .freeze

/-- The waiting change of a tile's next channel begins: one channel at a time (R105). The queues drain, the banks close, every rank enters
self-refresh; requests wait. -/
def State.beginChange (s : State) (t : Nat) : State :=
  if (List.range 3).any (fun c => (s.dmc t c).chgBegun) then s else
  match (List.range 3).find? (fun c => (s.dmc t c).chgSet.isSome && s.channelFree t c) with
  | none => s
  | some c =>
    let s1 := ((s.dmc t c).queue).foldl (fun a q => a.serveBurst t c q) s
    ((s1.updDmc t c (fun x => { x with chgBegun := true, rows := x.rows.map (fun r => { r with isOpen := false }) })).setRanks t c 1).setC t c
      DMC.STATUS.STATE 3

/-- SPEED.GO with a target set (R104, R106): ignored with an untrained set, refused where the pool would not hold the feed. -/
def State.requestSpeed (s : State) (t c x : Nat) : State :=
  if 3 ≤ x || !(s.dmc t c).trained.contains x then s
  else if !s.speedAllowed t c x then s.ev t (Fld.inst DMC.EVENTS.FREQ_REFUSED c)
  else ((s.updDmc t c (fun y => { y with chgSet := some x })).setC t c DMC.SPEED.BUSY 1).beginChange t

/-- SPEED_GO: a write of DMC.SPEED with GO set and TARGET. -/
def execSpeedGo (tile ch target : Nat) (s : State) : Host.Outcome State Fault Refusal :=
  onChannel tile ch s ((s.setC tile ch DMC.SPEED.TARGET target).requestSpeed tile ch (target % 4))

/-- The end of a channel's change: the set's rate, timing and PHY entries in use, the ranks out of self-refresh, the queues open for what waited;
the next channel begins; a DRAM_SPEED_SET whose channels have all changed is answered. -/
def State.endChange (s : State) (t c : Nat) : State :=
  match (s.dmc t c).chgSet with
  | none => s
  | some x =>
    if !(s.dmc t c).chgBegun then s.beginChange t else
    let s1 := (s.updDmc t c (fun y => { y with chgSet := none, chgBegun := false })).setFs t
      [(Fld.inst DMC.SPEED.BUSY c, 0), (Fld.inst DMC.SPEED.CUR_SET c, x), (Fld.inst DMC.SPEED.CUR_RATE c, s.setRate t c x),
       (Fld.inst DMC.STATUS.STATE c, 2)]
    let s2 := ((s1.setRanks t c 0).admitHeld t c).beginChange t
    let quiet := fun (u : Nat) => (List.range 3).all (fun d => (s2.dmc u d).chgSet.isNone)
    let s3 := if quiet t then s2.finishWait (65536 + t) 3 .ok [] else s2
    if (List.range s3.tiles).all quiet then s3.finishWait (65536 + 15) 3 .ok [] else s3

/-- FREQ_CHANGE_DONE -/
def execFreqChangeDone (tile ch : Nat) (s : State) : Host.Outcome State Fault Refusal := onChannel tile ch s (s.endChange tile ch)

/-! ### Retraining pauses (R103) -/

/-- Whether a pause is due on a channel: its period, a move of more than 5 °C, or one asked for. -/
def State.pauseDue (s : State) (t c : Nat) : Bool :=
  let x := s.dmc t c
  let temp := s.fldC t c DMC.REF.TEMP
  x.pauseAsked || (s.fldC t c DMC.RETRAIN.EN != 0 &&
    (decide (x.lastPause + s.fldC t c DMC.RETRAIN.PERIOD * 1000 ≤ s.now) || decide (x.pauseTemp + 5 < temp) ||
     decide (temp + 5 < x.pauseTemp)))

/-- The PHY array word of a set and lane (R102). -/
def phyFld (x lane : Nat) : Fld := ⟨0x08, 0x400 + x * 0x200 + lane * 4, 0, 32⟩

/-- The PHY adjusts the delays of the set in use: RX_DLY and TX_DLY of each lane take free values (R103; DESIGN CHOICE, log entry 6). -/
def State.adjustPhy (s : State) (t c : Nat) : State :=
  let x := s.fldC t c DMC.SPEED.CUR_SET
  (List.range 80).foldl (fun a i =>
    let (v, b) := a.draw
    b.setC t c { phyFld x i with lo := 8, w := 16 } v) s

/-- The all-bank refresh of a pause counts as each rank's next refresh set: a postponed one, or else the one that falls due next. -/
def State.pauseRefresh (s : State) (t c r : Nat) : State :=
  if s.refDebt t c r = 0 then s.updDmc t c (fun x => { x with credit := x.credit.erase r ++ [r] }) else s.setDebt t c r (s.refDebt t c r - 1)

/-- A pause is taken: an all-bank refresh to every rank, 2 µs without traffic, the delays adjusted. -/
def State.takePause (s : State) (t c : Nat) : State :=
  let s1 := (List.range s.lranks).foldl (fun a r => a.pauseRefresh t c r) (s.adjustPhy t c)
  ((s1.updDmc t c (fun x => { x with
    lastPause := s.now
    pauseTemp := s.fldC t c DMC.REF.TEMP
    pauseAsked := false
    deferAt := none
    pauseEnd := s.now + 2
    rows := x.rows.map (fun r => { r with isOpen := false }) })).bump t (Fld.inst DMC.RETRAIN_CNT.COUNT c) 1).setC t c DMC.STATUS.STATE 4

/-- No other channel of the tile pauses. -/
def State.noOtherPause (s : State) (t c : Nat) : Bool :=
  (List.range 3).all (fun d => d == c || decide ((s.dmc t d).pauseEnd ≤ s.now))

/-- A pause that is due is taken, or deferred while a panic read is queued. -/
def State.tryPause (s : State) (t c : Nat) : State :=
  if !s.pauseDue t c || s.dstate == .freeze then s
  else if s.panicOn t c then s.updDmc t c (fun x => { x with deferAt := some (x.deferAt.getD s.now) })
  else if s.channelFree t c && s.noOtherPause t c then s.takePause t c
  else s

/-- RETRAIN_PAUSE -/
def execRetrainPause (tile ch : Nat) (s : State) : Host.Outcome State Fault Refusal := onChannel tile ch s (s.tryPause tile ch)

/-- A pause deferred for MAX_DEFER is taken ahead of panic. -/
def State.forcePause (s : State) (t c : Nat) : State :=
  if s.pauseForced t c && s.dmcServes t c && (s.dmc t c).repairAt.isNone && s.noOtherPause t c && s.dstate != .freeze then
    (s.takePause t c).ev t (Fld.inst DMC.EVENTS.RETRAIN_FORCED c)
  else s

/-- RETRAIN_FORCED -/
def execRetrainForced (tile ch : Nat) (s : State) : Host.Outcome State Fault Refusal := onChannel tile ch s (s.forcePause tile ch)

/-! ### Service and refresh -/

/-- DRAM_REQUEST: a subchannel issues what R95 puts first. -/
def execDramRequest (tile ch sub : Nat) (s : State) : Host.Outcome State Fault Refusal :=
  onChannel tile ch s (match s.dramPick tile ch sub with
    | .refresh r => s.refreshAhead tile ch r
    | .pause => s.forcePause tile ch
    | .burst q => (s.serveBurst tile ch q).noteDrain tile ch sub
    | .nothing => s)

/-- REFRESH_DUE: tREFI2 has passed for a rank. -/
def execRefreshDue (tile ch rank : Nat) (s : State) : Host.Outcome State Fault Refusal :=
  onChannel tile ch s (if rank < s.lranks then s.oweRefresh tile ch rank else s)

/-- REFRESH_DEBT_MAX: the next set of a rank at the limit goes ahead of panic reads. -/
def execRefreshDebtMax (tile ch rank : Nat) (s : State) : Host.Outcome State Fault Refusal :=
  onChannel tile ch s (if 0 < s.refDebt tile ch rank && s.postMax tile ch ≤ s.refDebt tile ch rank then s.refreshAhead tile ch rank
    else s)

/-- TEMP_POLL: module temperatures in °C and whether the DRAM's refresh-rate mode register reports above 85 °C (R96). -/
def execTempPoll (tile ch : Nat) (temps : List Nat) (mode : Bool) (s : State) : Host.Outcome State Fault Refusal :=
  onChannel tile ch s
    (let top := temps.foldl max 0
     let hot := decide (85 < top) || mode
     let s1 := (s.updDmc tile ch (fun x => { x with temps := temps })).setFs tile
       [(Fld.inst DMC.REF.TEMP ch, top), (Fld.inst DMC.REF.HIGH_TEMP ch, b2n hot)]
     if 85 < top && s.fldC tile ch DMC.REF.TEMP ≤ 85 then s1.ev tile (Fld.inst DMC.EVENTS.TEMP_HIGH ch) else s1)

/-- ROW_IDLE_CLOSE: a kept row has had no access for OPEN_MAX (R93). -/
def execRowIdleClose (tile ch bank : Nat) (s : State) : Host.Outcome State Fault Refusal :=
  onChannel tile ch s
    (if s.fldC tile ch DMC.PAGE.POLICY != 0 then s else
     s.updDmc tile ch (fun x => { x with rows := x.rows.map (fun r =>
       if r.bank = bank && decide (s.fldC tile ch DMC.PAGE.OPEN_MAX * 5 ≤ (s.now - r.last) * 1000) &&
         !(x.queue.any (fun q => q.bankNo == bank && q.row == r.row)) then { r with isOpen := false } else r) }))

/-- PANIC_LONG: panic has stayed raised for longer than MAX_US (R98); from the start of Freeze it does not count (R99). -/
def execPanicLong (tile ch : Nat) (s : State) : Host.Outcome State Fault Refusal :=
  onChannel tile ch s (match (s.dmc tile ch).panicAt with
    | some p => if s.panicCounts && decide (s.fldC tile ch DMC.PANIC.MAX_US < s.now - p) then s.evRec tile (Fld.inst DMC.EVENTS.PANIC_LONG ch) ch else s
    | none => s)

/-! ### Training (R101, R102) -/

/-- Whether a logical rank of a tile holds a frame that is a home. -/
def State.rankHomed (s : State) (t rank : Nat) : Bool :=
  s.ams.homes.any (fun e => e.2.tile == t && e.2.tier == 1 && (List.range 4).any (fun i =>
    (s.locate t (e.2.frame * 2 ^ 21 + i * 2 ^ 19)).2.rank == rank))

/-- Whether a pattern run may start on a rank: at start-up, or on a rank that holds no home frame. -/
def State.mayRun (s : State) (t rank : Nat) : Bool :=
  s.dstate == .boot || s.dstate == .selftest || s.dstate == .restore || !s.rankHomed t rank

/-- A pattern run begins with a write of TRN_CTL: the word written, failing lanes and bits as the comparator will find them. OP clears the earlier
result; host traffic to the rank is held. A write while BUSY is ignored. -/
def State.patternRun (s : State) (t c w lanes errs : Nat) : State :=
  if s.fldC t c DMC.TRN_CTL.BUSY != 0 then s else
  let r := bitsOf w 24 4
  let s1 := s.setFs t [(Fld.inst DMC.TRN_CTL.RANK c, r), (Fld.inst DMC.TRN_CTL.SUBCH c, bitsOf w 23 1),
    (Fld.inst DMC.TRN_CTL.PATTERN c, bitsOf w 12 4), (Fld.inst DMC.TRN_CTL.BURSTS c, w)]
  if s.mayRun t r then
    (s1.updDmc t c (fun x => { x with
      run := some (r, lanes, errs)
      held := x.held ++ x.queue.filter (fun q => q.rank == r)
      queue := x.queue.filter (fun q => q.rank != r) })).setFs t
      [(Fld.inst DMC.TRN_CTL.BUSY c, 1), (Fld.inst DMC.TRN_CMP0.LANE_FAIL c, 0), (Fld.inst DMC.TRN_CMP1.LANE_FAIL c, 0),
       (Fld.inst DMC.TRN_CMP1.ERR_COUNT c, 0)]
  else s1

/-- A pattern run in progress ends: its result shows, and what it held goes on. -/
def State.endRun (s : State) (t c : Nat) : State :=
  match (s.dmc t c).run with
  | none => s
  | some (_, lanes, errs) =>
    ((s.updDmc t c (fun x => { x with run := none })).setFs t
      [(Fld.inst DMC.TRN_CTL.BUSY c, 0), (Fld.inst DMC.TRN_CMP0.LANE_FAIL c, lanes), (Fld.inst DMC.TRN_CMP1.LANE_FAIL c, lanes / 2 ^ 32),
       (Fld.inst DMC.TRN_CMP1.ERR_COUNT c, min errs 65535)]).admitHeld t c

/-- TRN_WRITE_READ_COMPARE -/
def execTrnWriteReadCompare (tile ch w lanes errs : Nat) (s : State) : Host.Outcome State Fault Refusal :=
  onChannel tile ch s (s.patternRun tile ch w lanes errs)

/-- TRN_READ_COMPARE -/
def execTrnReadCompare (tile ch w lanes errs : Nat) (s : State) : Host.Outcome State Fault Refusal :=
  onChannel tile ch s (s.patternRun tile ch w lanes errs)

/-- TRN_CA_LOOPBACK -/
def execTrnCaLoopback (tile ch w lanes errs : Nat) (s : State) : Host.Outcome State Fault Refusal :=
  onChannel tile ch s (s.patternRun tile ch w lanes errs)

/-- TRN_WL_SAMPLE -/
def execTrnWlSample (tile ch w lanes errs : Nat) (s : State) : Host.Outcome State Fault Refusal :=
  onChannel tile ch s (s.patternRun tile ch w lanes errs)

/-- The 80 words of a stored result, from its first number (DESIGN CHOICE, log entry 6). -/
def phyWords (n : Nat) : List Nat := (List.range 80).map (fun i => Config.free (n + i) % 2 ^ 32)

/-- Results loaded into the PHY array of a channel. -/
def State.loadPhy (s : State) (t c x n : Nat) : State :=
  (phyWords n).zipIdx.foldl (fun a e => a.setC t c (phyFld x e.2) e.1) s

/-- Fast restore of a set, or full training with new results, which are stored (R101). -/
def State.trainSet (s : State) (t c x : Nat) (fast : Bool) : State :=
  let k := chanNo t c * 3 + x
  match (if fast then amapFind k s.nv.phy else none) with
  | some n => s.loadPhy t c x n
  | none =>
    let n := s.freeCtr
    ({ s with freeCtr := n + 80, nv := { s.nv with
      phy := amapInsert k n (amapErase k s.nv.phy)
      phySerial := amapInsert (chanNo t c) (s.serials t c) (amapErase (chanNo t c) s.nv.phySerial) } }).loadPhy t c x n

/-- The modules' organisation in DMC.CFG (Table 4.6) and the address map of the configuration. -/
def State.loadSpd (s : State) (t c : Nat) : State :=
  let b := s.board
  let stack := if b.ranks = 8 then 2 else if b.ranks = 4 then 1 else 0
  s.setFs t [(Fld.inst DMC.CFG.DPC c, b.dimms), (Fld.inst DMC.CFG.PRANKS c, min b.ranks 2), (Fld.inst DMC.CFG.STACK c, stack),
    (Fld.inst DMC.CFG.DENSITY c, b2n (decide (32 < b.rankGib))), (Fld.inst DMC.CFG.LRANKS c, s.lranks),
    (Fld.inst DMC.CFG.POPULATED c, 1), (Fld.inst DMC.RETAIN.ALLOWED c, b2n (decide (s.fldC t c DMC.AMAP.ORDER < 2)))]

/-- The timing sets of a channel are loaded from the configuration (R104): 13 words each, the first the data rate, with its default. -/
def State.loadTsets (s : State) (t c : Nat) : State :=
  (List.range 39).foldl (fun a k =>
    let f := (Fld.inst DMC.TSET_A.VALUE c).up (64 * (k / 13) + 4 * (k % 13))
    a.setF t f ((s.cfg (cfgKey t f)).getD (if k = 0 then 64 else if k = 13 then 48 else if k = 26 then 32 else 0))) s

/-- The timing sets that the configuration enables: those with a data rate (DESIGN CHOICE, log entry 46). -/
def State.enabledSets (s : State) (t c : Nat) : List Nat :=
  (List.range 3).filter (fun x => s.fld t ((Fld.inst DMC.TSET_A.VALUE c).up (64 * x)) != 0)

/-- A channel is trained: every set enabled, set A in use (R101, R104). -/
def State.trainChannel (s : State) (t c : Nat) (fast : Bool) : State :=
  let s0 := (s.loadTsets t c).loadSpd t c
  let s1 := (s0.enabledSets t c).foldl (fun a x => a.trainSet t c x fast) s0
  (s1.updDmc t c (fun y => { y with trained := s0.enabledSets t c, lastPause := s.now })).setFs t
    [(Fld.inst DMC.SPEED.CUR_SET c, 0), (Fld.inst DMC.SPEED.CUR_RATE c, s1.setRate t c 0), (Fld.inst DMC.STATUS.STATE c, 2)]

/-! ### Repair resources and hard repair (R112, R113) -/

/-- The fields of a PPR word that say where (RANK, SUBCH, BG, BANK, ROW). -/
def pprPlace (w : Nat) : Nat := w / 8 % 2 ^ 27

/-- The key of a bank group's repair resources: module, rank, subchannel, bank group of a PPR place. -/
def State.pprKey (s : State) (t c place : Nat) : Nat :=
  ((s.serialOf t c (bitsOf place 23 4) * 16 + bitsOf place 23 4) * 2 + bitsOf place 22 1) * 8 + bitsOf place 19 3

/-- The resources that hard repairs have used in a bank group. -/
def State.hardUsed (s : State) (k : Nat) : Nat := amapGet 0 s.nv.pprUsed k

/-- The resources of a bank group in use: hard repairs, and the rows of the hard-repair list, each repaired softly. -/
def State.pprTaken (s : State) (t c k : Nat) : Nat :=
  s.hardUsed k + (s.nv.pprList.filter (fun e => e.1 == chanNo t c && e.2.2 == s.serialOf t c (bitsOf e.2.1 23 4) && s.pprKey t c e.2.1 == k)).length

/-- A channel-local address from its place: the inverse of `placeOf`. -/
def placeBack (order rowBits rankBits : Nat) (p : Place) : Nat :=
  let bgf := p.bg ^^^ p.row % 8
  let low := order == 0 || order == 1
  let x := if order == 0 || order == 2 then bgf + p.col * 8 else p.col + bgf * 128
  let z := if low then p.row + p.rank * 2 ^ rowBits else p.rank + p.row * 2 ^ rankBits
  (x + 1024 * (p.bank + 4 * z)) * 128 + p.sub * 64

/-- The addresses of DRAM of the bursts in the row that a PPR place names. -/
def State.rowBursts (s : State) (t c place : Nat) : List Nat :=
  (List.range 128).map (fun col =>
    channelBack (s.chGran t) c (placeBack (s.fld t DMC.AMAP.ORDER) s.rowBits (Nat.log2 s.lranks)
      ⟨bitsOf place 22 1, bitsOf place 19 3, col, bitsOf place 17 2, bitsOf place 0 17, bitsOf place 23 4⟩))

/-- The tile-local pages with a burst in the row. -/
def State.rowPages (s : State) (t c place : Nat) : List Nat := ((s.rowBursts t c place).map (fun a => s.holder t (a / 4096))).dedup

/-- The pages of a row that finds no repair resource are to be retired (Table 5.5). -/
def State.retireRow (s : State) (t c place : Nat) : State :=
  s.updDec (fun d => { d with 
    retire := d.retire ++ ((s.rowPages t c place).filter (fun p => !d.retire.any (fun e => e.1 == t && e.2.1 == p))).map (fun p => (t, p, c)) })

/-- A row leaves the hard-repair list. -/
def State.unlistRow (s : State) (t c place : Nat) : State :=
  { s with nv := { s.nv with pprList := s.nv.pprList.filter (fun e => !(e.1 == chanNo t c && e.2.1 == place)) } }

/-- A row joins the hard-repair list under its module's serial number. -/
def State.listRow (s : State) (t c place : Nat) : State :=
  let s1 := s.unlistRow t c place
  { s1 with nv := { s1.nv with pprList := s1.nv.pprList ++ [(chanNo t c, place, s.serialOf t c (bitsOf place 23 4))] } }

/-- A row is repaired for good, where its bank group has a resource; else its pages are to be retired (R112, R113). -/
def State.hardRepair (s : State) (t c place result : Nat) : State :=
  let k := s.pprKey t c place
  let r := if s.board.pprRes ≤ s.hardUsed k then 2 else result
  let s1 := s.setC t c DMC.STATUS.PPR_RESULT r
  let s2 := { s1 with nv := { s1.nv with pprUsed := amapSet 0 s1.nv.pprUsed k (s.hardUsed k + 1) } }
  if r = 1 then s2.unlistRow t c place
  else if r = 2 then (s1.retireRow t c place).unlistRow t c place
  else s1

/-- hPPR at start-up, before training is verified: every row on a channel's list is applied and leaves it; a row of a module no longer fitted only
leaves it (R112). -/
def State.hardRepairs (s : State) (t c : Nat) : State :=
  (s.nv.pprList.filter (fun e => e.1 == chanNo t c)).foldl (fun a e =>
    if e.2.2 = a.serialOf t c (bitsOf e.2.1 23 4) then a.hardRepair t c e.2.1 1 else a.unlistRow t c e.2.1) s

/-- Entries of the retirement tables whose module is no longer fitted are dropped, with an event (R134). -/
def State.dropEntries (s : State) (t c : Nat) : State :=
  let here := s.serials t c
  let gone := fun (u d n : Nat) => u == t && d == c && !here.contains n
  if !(s.dec.pages.any (fun p => gone p.tile p.ch p.serial) || s.dec.erases.any (fun e => gone e.tile e.ch e.serial)) then s else
  (s.updDec (fun d => { d with pages := d.pages.filter (fun p => !gone p.tile p.ch p.serial)
                               erases := d.erases.filter (fun e => !gone e.tile e.ch e.serial) })).recOpen t 0x0B c

/-! ### The DRAM step of start-up -/

/-- Modules found with other serial numbers than before: slot (channel × 2 + slot), serial number. -/
def State.refit (s : State) (l : List (Nat × Nat)) : State :=
  l.foldl (fun a e =>
    let m := a.moduleAt (e.1 / 6) (e.1 / 2 % 3) (e.1 % 2)
    { a with board := { a.board with modules := a.board.modules.filter (fun x => !(x.tile == m.tile && x.ch == m.ch && x.slot == m.slot)) ++
      [{ m with serial := e.2 }] } }) s

/-- Whether a channel is trained by fast restore: results stored for every set enabled, with its modules' serial numbers, and a compare that passes
(R101). -/
def State.fastRestore (s : State) (t c : Nat) (compareBad : List Nat) : Bool :=
  ((s.loadTsets t c).enabledSets t c).all (fun x => (amapFind (chanNo t c * 3 + x) s.nv.phy).isSome) &&
  amapFind (chanNo t c) s.nv.phySerial == some (s.serials t c) && !compareBad.contains (chanNo t c)

/-- Channels are trained; each that fails full training is marked, and the device is then in FAULT (R22, R101). -/
def State.trainAll (s : State) (cs : List (Nat × Nat)) (compareBad bad : List Nat) : State :=
  let fails := fun (t c : Nat) => !s.fastRestore t c compareBad && bad.contains (chanNo t c)
  let s1 := cs.foldl (fun a e => if fails e.1 e.2 then a.ev e.1 (Fld.inst DMC.EVENTS.TRAIN_FAIL e.2)
    else a.trainChannel e.1 e.2 (s.fastRestore e.1 e.2 compareBad)) s
  if cs.any (fun e => fails e.1 e.2) then s1.enterFault 11 else s1

/-- The DRAM step of start-up (R86, R87, R101, R112): `found`: modules whose serial numbers are new; `compareBad`: channels whose fast-restore
compare fails; `bad`: those that fail full training; numbers are tile × 3 + channel. A population that breaks a rule: a record for each channel that
breaks one, with channel and rule. -/
def State.trainDram (s : State) (found : List (Nat × Nat)) (compareBad bad : List Nat) : State :=
  let s0 := s.refit found
  let wrong := s0.channels.filterMap (fun e => (s0.boardRule e.1 e.2).map (fun r => (e, r)))
  if !wrong.isEmpty then (wrong.foldl (fun a e => a.recOpen e.1.1 0x08 (e.1.2 + 16 * e.2)) s0).enterFault 10
  else
    let s1 := s0.channels.foldl (fun a e => (a.dropEntries e.1 e.2).hardRepairs e.1 e.2) s0
    let s2 := s1.trainAll s1.channels compareBad bad
    let s3 := s2.allTiles (fun t a => a.setF t FRZ.META.MB (a.metaMb t))
    { s3 with boot := { s3.boot with dramTrained := s3.dstate == .selftest } }

/-- DRAM_TRAIN: in SELFTEST, between the phases of Table 13.5. -/
def execDramTrain (found : List (Nat × Nat)) (compareBad bad : List Nat) (s : State) : Host.Outcome State Fault Refusal :=
  .next (if s.dstate == .selftest && !s.boot.dramTrained && s.phaseDone 1 then
    (s.setAll BST.STATUS.PHASE 2).trainDram found compareBad bad else s)

/-! ### Post-package repair (R111, R113) -/

/-- The row of a repair is read through the integrity block with correction and written back with fresh check bytes; a burst that does not decode
stays as it is. -/
def State.rewriteRow (s : State) (t c place : Nat) : State :=
  (s.rowBursts t c place).foldl (fun a x =>
    if (a.faultsAt t x).isEmpty then a else
    match a.decoded t x [] with
    | .data bs _ => a.restate t x none bs []
    | .poison i _ => a.restate t x (some i) [] []
    | .bad => a) s

/-- A soft repair ends with an outcome: 1 done, 2 no resource left, 3 failed. A row repaired joins the hard-repair list under its module's serial
number; one without a resource has its pages retired; the bank is released, and the command that asked is answered. -/
def State.endRepair (s : State) (t c w result : Nat) : State :=
  let p := pprPlace w
  let r := if s.board.pprRes ≤ s.pprTaken t c (s.pprKey t c p) then 2 else result
  let s1 := (s.updDmc t c (fun x => { x with repair := none, repairAt := none })).setFs t
    [(Fld.inst DMC.STATUS.PPR_RESULT c, r), (Fld.inst DMC.PPR.BUSY c, 0),
     (Fld.inst DMC.STATUS.STATE c, if s.fldC t c DMC.STATUS.STATE = 6 then 2 else s.fldC t c DMC.STATUS.STATE)]
  let s2 := if r = 2 then s1.retireRow t c p else s1.rewriteRow t c p
  (if r = 1 then s2.listRow t c p else s2).finishWait (65552 + chanNo t c) 4 (if r = 2 then .exhausted else .ok) []

/-- A waiting repair begins where nothing holds it: from then on it holds its bank. -/
def State.tryRepair (s : State) (t c : Nat) : State :=
  if (s.dmc t c).repair.isSome && s.channelFree t c then
    (s.updDmc t c (fun x => { x with repairAt := some s.now })).setC t c DMC.STATUS.STATE 6
  else s

/-- A repair whose 5 µs are over ends; an outcome not yet known is a free value (DESIGN CHOICE, log entry 6). -/
def State.overRepair (s : State) (t c : Nat) : State :=
  match (s.dmc t c).repair, (s.dmc t c).repairAt with
  | some (w, r), some b =>
    if s.now < b + 5 then s else
    match r with
    | some x => s.endRepair t c w x
    | none =>
      let (v, s1) := s.draw
      s1.endRepair t c w (v % 3 + 1)
  | _, _ => s

/-- The fields of DMC.PPR as a write leaves them. -/
def State.setPpr (s : State) (t c w : Nat) : State :=
  s.setFs t [(Fld.inst DMC.PPR.KIND c, bitsOf w 30 1), (Fld.inst DMC.PPR.RANK c, bitsOf w 26 4), (Fld.inst DMC.PPR.SUBCH c, bitsOf w 25 1),
    (Fld.inst DMC.PPR.BG c, bitsOf w 22 3), (Fld.inst DMC.PPR.BANK c, bitsOf w 20 2), (Fld.inst DMC.PPR.ROW c, bitsOf w 3 17)]

/-- PPR written with GO and KIND 0 (R111), the outcome given if it is known already. -/
def State.startSppr (s : State) (t c w : Nat) (result : Option Nat) : State :=
  if s.fldC t c DMC.PPR.BUSY != 0 || (s.dstate != .service && s.dstate != .restricted) then s else
  (((s.setPpr t c (w % 2 ^ 30)).updDmc t c (fun x => { x with repair := some (w, result) })).setC t c DMC.PPR.BUSY 1).tryRepair t c

/-- SPPR: PPR written with GO and KIND 0; `result` is what the DRAM answers: 1 done, 2 none left, 3 failed. On the row of a repair that is in
progress without an outcome it is that outcome, and the repair ends. -/
def execSppr (tile ch w result : Nat) (s : State) : Host.Outcome State Fault Refusal :=
  onChannel tile ch s (match (s.dmc tile ch).repair, (s.dmc tile ch).repairAt with
    | some (v, none), some _ => if pprPlace v = pprPlace w then s.endRepair tile ch v (result % 3 + 3 * b2n (result % 3 == 0)) else s
    | _, _ => s.startSppr tile ch w (some (result % 3 + 3 * b2n (result % 3 == 0))))

/-- PPR written with GO and KIND 1: in SELFTEST only (R112). -/
def State.startHppr (s : State) (t c w result : Nat) : State :=
  if s.dstate != .selftest then s.ev t (Fld.inst DMC.EVENTS.PPR_REFUSED c)
  else (s.setPpr t c (w % 2 ^ 30 + 2 ^ 30)).hardRepair t c (pprPlace w) result

/-- HPPR -/
def execHppr (tile ch w result : Nat) (s : State) : Host.Outcome State Fault Refusal :=
  onChannel tile ch s (s.startHppr tile ch w (result % 3 + 3 * b2n (result % 3 == 0)))

/-! ### Partial retention (R107 to R110) -/

/-- Whether a page homed in the main tier of a tile must be retained in S2: volatile, pinned, or dirty (R108). -/
def State.mustRetain (s : State) (t e : Nat) : Bool :=
  s.classAt (e * 2 ^ 21) == 0 || ((s.regionAt (e * 2 ^ 21)).map (fun r => r.rights.testBit 3)).getD false ||
  s.firn.tokens.any (fun k => k.tile == t && k.page / 512 == e)

/-- The extents whose frames a tile must retain. -/
def State.retainExts (s : State) (t : Nat) : List Nat :=
  (s.ams.homes.filter (fun e => e.2.tile == t && e.2.tier == 1 && s.mustRetain t e.1)).map (·.1)

/-- Frames in the lowest n ranks of a tile. -/
def State.rankFrames (s : State) (n : Nat) : Nat := 3 * n * s.rankBytes / 2 ^ 21

/-- The lowest n ranks can hold what a tile must retain: its reserved areas lie there, and the frames to retain that lie above find free
frames there. -/
def State.ranksHold (s : State) (t n : Nat) : Bool :=
  let hi := s.rankFrames n
  let used := (s.mainUsed t).filter (fun f => decide (f < hi))
  let above := (s.retainExts t).filter (fun e => ((s.homeOf e).map (fun h => decide (hi ≤ h.frame))).getD false)
  (s.deep.tableFrames.filter (fun e => e.1 == t)).all (fun e => decide (e.2.2 < hi)) &&
  decide (s.reservedFrames t + used.length + above.length ≤ hi)

/-- RETAINED for a tile: the smallest of 1, 2, 4, 8, 16 ranks whose range holds the reserved areas and every frame to retain. -/
def State.retainCount (s : State) (t : Nat) : Nat :=
  min (([1, 2, 4, 8, 16].find? (fun k => s.ranksHold t k)).getD 16) s.lranks

/-- A frame's pages move to another frame of the main tier; tokens and images keep their pages (R108). A frame with a page that cannot be read now
stays. -/
def State.relocate (s : State) (e : Nat) (h : Home) (f : Nat) : State :=
  let ps := (extPages e).filter (fun p => s.bornLocal h.tile (h.local (p * 4096) / 4096))
  let s0 := s.probePages ps
  if !s0.readable ps then s0 else
  let dst := { h with frame := f }
  ((ps.foldl (fun a p => a.decWrite h.tile (dst.local (p * 4096)) (a.mainView h.tile (h.local (p * 4096)) 4096)) s0).freeFrameBytes h).setHome e dst

/-- DRAM_RELOCATE: before S2, RETAINED is set and the frames to retain above the range move into it. -/
def State.dramRelocate (s : State) (t : Nat) : State :=
  let n := s.retainCount t
  let s1 := (List.range 3).foldl (fun a c => a.setC t c DMC.RETAIN.RETAINED n) s
  if n = s.lranks then s1 else
  (s.retainExts t).foldl (fun a e =>
    match a.homeOf e with
    | some h => if h.frame < s.rankFrames n then a else
        (match a.freeFrame t 1 with
         | some f => if f < s.rankFrames n then a.relocate e h f else a
         | none => a)
    | none => a) s1

/-- DRAM_RELOCATE -/
def execDramRelocate (tile : Nat) (s : State) : Host.Outcome State Fault Refusal :=
  onTile tile s (if s.pow.target == 2 && s.pow.entryStep == 5 && s.fldC tile 0 DMC.RETAIN.ALLOWED != 0 then s.dramRelocate tile else s)

/-- Every frame to retain lies in the retained ranks, or every rank is retained (R108). -/
def State.relocated (s : State) (t : Nat) : Bool :=
  s.fldC t 0 DMC.RETAIN.ALLOWED == 0 || (s.fldC t 0 DMC.RETAIN.RETAINED == s.retainCount t && (s.retainCount t == s.lranks ||
    (s.retainExts t).all (fun e => (s.homeOf e).all (fun h => decide (h.frame < s.rankFrames (s.retainCount t))))))

/-- The power states of a channel's ranks in S2 (R109): the lowest n in self-refresh, the others on a DIMM that also holds one of those in the
maximum power saving mode, a DIMM without one with its regulators off. -/
def State.sleepRanks (s : State) (t c n : Nat) : State :=
  s.updDmc t c (fun x => { x with
    rankPower := (List.range s.lranks).map (fun r => (r, if r < n then 1 else 2))
    vrOff := (List.range s.board.dimms).filter (fun d => decide (n ≤ d * s.board.ranks)) })

/-- The ranks of a tile that are not retained lose their contents; their pages wait for their restore (R109, R110). -/
def State.loseRanks (s : State) (t : Nat) : State :=
  let n := s.fldC t 0 DMC.RETAIN.RETAINED
  if s.fldC t 0 DMC.RETAIN.ALLOWED = 0 || n = 0 || n = s.lranks then (List.range 3).foldl (fun a c => a.setRanks t c 1) s else
  let lo := s.rankFrames n
  let gone := (s.ams.homes.filter (fun e => e.2.tile == t && e.2.tier == 1 && decide (lo ≤ e.2.frame))).map (·.1)
  let s1 := ((s.wipe .main t (lo * 2 ^ 21) (s.mainBytes - lo * 2 ^ 21)).updDec (fun d => { d with
    faults := d.faults.filter (fun f => !(f.1 == t && decide (lo * 2 ^ 21 ≤ f.2.1))) })).updFirn (fun f => { f with
    unrestored := f.unrestored ++ f.born.filter (fun p => gone.contains (p / 512) && !f.unrestored.contains p) })
  let s2 := (List.range 3).foldl (fun a c => a.sleepRanks t c n) s1
  { s2 with pow := { s2.pow with ranksAway := s2.pow.ranksAway ++ [t] } }

/-- The ranks that were away return (R110): regulators on, fast restore or full training as R101 says. -/
def State.ranksBack (s : State) (t : Nat) (compareBad bad : List Nat) : State :=
  let cs := (List.range 3).map (fun c => (t, c))
  let fails := fun (c : Nat) => compareBad.contains (chanNo t c) && bad.contains (chanNo t c)
  let s1 := cs.foldl (fun a e => if fails e.2 then a.ev t (Fld.inst DMC.EVENTS.TRAIN_FAIL e.2) else
    let b := if compareBad.contains (chanNo t e.2) then (a.enabledSets t e.2).foldl (fun x k => x.trainSet t e.2 k false) a else a
    (b.updDmc t e.2 (fun x => { x with vrOff := [], rankPower := x.rankPower.filter (fun y => y.2 != 2) })).admitHeld t e.2) s
  if cs.any (fun e => fails e.2) then s1.enterFault 11 else s1

/-- S2_RANK_RETURN: after a wake, the ranks not retained come back and the background restore of their pages may begin (R110). `compareBad`:
channels whose fast-restore compare fails; `bad`: those that then fail full training; numbers are tile × 3 + channel. -/
def execS2RankReturn (tile : Nat) (compareBad bad : List Nat) (s : State) : Host.Outcome State Fault Refusal :=
  onTile tile s (if s.dstate == .service && s.pow.ranksAway.contains tile then
    (let s1 := s.ranksBack tile compareBad bad
     if s1.dstate != .service then s1 else
     { s1 with pow := { s1.pow with ranksAway := s1.pow.ranksAway.erase tile } }.setF tile FRZ.STATUS.BG_RESTORE
      (b2n (s1.firn.unrestored.any (fun p => ((s1.homeOf (p / 512)).map (fun (h : Home) => h.tile)) == some tile)))) else s)

/-! ### Commands (Table 4.14) -/

/-- A tile that a main-tier command names: one the package has, or 15 for all (R115). -/
def namesTile (s : State) (t : Nat) : Bool := decide (t < s.tiles) || t == 15

/-- The tiles that a name covers. -/
def State.tilesOf (s : State) (t : Nat) : List Nat := if t = 15 then List.range s.tiles else [t]

/-- The channels that a name covers. -/
def State.chansOf (s : State) (t : Nat) : List (Nat × Nat) := (s.tilesOf t).flatMap (fun u => (List.range 3).map (fun c => (u, c)))

/-- The repair resources used of a module: those of its hard repairs and of its rows on the list. -/
def State.moduleUsed (s : State) (t c slot : Nat) : Nat :=
  let n := (s.moduleAt t c slot).serial
  ((s.nv.pprUsed.filter (fun e => e.1 / 256 == n)).map (·.2)).sum + (s.nv.pprList.filter (fun e => e.1 == chanNo t c && e.2.2 == n)).length

/-- DRAM_STATUS: per channel Table 4.6, set, state, both modules' temperatures, their repair resources used, counters. -/
def cmdDramStatus : Cmd := readCmd 0x0350 .reading noArgs
  (fun _ _ s => .reply s (buildWithList [] 32 ((s.chansOf 15).map (fun (t, c) =>
    build339 [(4, (s.word t (8 + c) 0).toNat), (1, s.fldC t c DMC.SPEED.CUR_SET), (1, s.fldC t c DMC.STATUS.STATE),
      (1, (s.dmc t c).temps.getD 0 0), (1, (s.dmc t c).temps.getD 1 0), (2, min 65535 (s.moduleUsed t c 0)), (2, min 65535 (s.moduleUsed t c 1)),
      (4, s.fldC t c DMC.ROW_HIT.COUNT), (4, s.fldC t c DMC.ROW_CONFLICT.COUNT), (4, s.fldC t c DMC.PANIC_READS.COUNT),
      (4, s.fldC t c DMC.RETRAIN_CNT.COUNT)]))))

/-- DRAM_SPEED_SET: TILE, SET; answered when every channel has changed, or BUSY where R106 refuses one; BAD_ARG with a set that was not trained
(DESIGN CHOICE, log entry 46). -/
def cmdDramSpeedSet : Cmd := actCmd 0x0351 [2] .config
  (fun s pl => match parse339 [1, 1] pl with
    | some [t, x] => namesTile s t && decide (x < 3)
    | _ => false)
  (fun _ pl s =>
    let f := fieldAt [1, 1] pl
    let cs := s.chansOf (f 0)
    if cs.any (fun (t, c) => !(s.dmc t c).trained.contains (f 1)) then .done s .badArg else
    let no := cs.filter (fun (t, c) => !s.speedAllowed t c (f 1))
    if !no.isEmpty then .done (no.foldl (fun a (t, c) => a.ev t (Fld.inst DMC.EVENTS.FREQ_REFUSED c)) s) .busy
    else ⟨cs.foldl (fun a (t, c) => a.requestSpeed t c (f 1)) s, .ok, [], id, some (65536 + f 0, 3)⟩)

/-- DRAM_TSET_WRITE: TILE, SET, the 16 words of the set. -/
def tsetSizes : List Nat := [1, 1] ++ List.replicate 16 4

def cmdDramTsetWrite : Cmd := actCmd 0x0352 [2] .config
  (fun s pl => match parse339 tsetSizes pl with
    | some (t :: x :: _) => namesTile s t && decide (x < 3)
    | _ => false)
  (fun _ pl s =>
    let f := fieldAt tsetSizes pl
    .done ((s.chansOf (f 0)).foldl (fun a (t, c) => (List.range 16).foldl (fun b i =>
      b.setCfg (cfgKey t ((Fld.inst DMC.TSET_A.VALUE c).up (64 * f 1 + 4 * i))) (f (2 + i))) a) s) .ok)

/-- DRAM_MAP_SET: ORDER, CH_GRAN, the same on every channel (R92). -/
def cmdDramMapSet : Cmd := actCmd 0x0353 [2] .config
  (fun _ pl => match parse339 [1, 1] pl with
    | some [o, g] => decide (o < 4) && decide (g < 2)
    | _ => false)
  (fun _ pl s =>
    let f := fieldAt [1, 1] pl
    .done ((s.chansOf 15).foldl (fun a (t, c) => (a.setCfg (cfgKey t (Fld.inst DMC.AMAP.ORDER c)) (f 0)).setCfg
      (cfgKey t (Fld.inst DMC.AMAP.CH_GRAN c)) (f 1)) s) .ok)

/-- DRAM_RETRAIN: TILE. -/
def cmdDramRetrain : Cmd := actCmd 0x0354 [2] .config
  (fun s pl => match parse339 [1] pl with
    | some [t] => namesTile s t
    | _ => false)
  (fun _ pl s => .done ((s.chansOf (fieldAt [1] pl 0)).foldl (fun a (t, c) =>
    a.updDmc t c (fun x => { x with pauseAsked := true })) s) .ok)

/-- DRAM_TRAIN_RESULTS: TILE, channel, set; the 80 words stored; NO_RESOURCE where none are (DESIGN CHOICE, log entry 46). -/
def cmdDramTrainResults : Cmd := actCmd 0x0355 [2] .reading
  (fun s pl => match parse339 [1, 1, 1] pl with
    | some [t, c, x] => decide (t < s.tiles) && decide (c < 3) && decide (x < 3)
    | _ => false)
  (fun _ pl s =>
    let f := fieldAt [1, 1, 1] pl
    match amapFind (chanNo (f 0) (f 1) * 3 + f 2) s.nv.phy with
    | some n => .reply s (pad8 ((phyWords n).flatMap (leBytes 4)))
    | none => .done s .noResource)

/-- DRAM_TRAIN_CLEAR: TILE; the next start-up trains fully. -/
def cmdDramTrainClear : Cmd := actCmd 0x0356 [2] .config
  (fun s pl => match parse339 [1] pl with
    | some [t] => namesTile s t
    | _ => false)
  (fun _ pl s =>
    let ks := (s.chansOf (fieldAt [1] pl 0)).map (fun (t, c) => chanNo t c)
    .done { s with nv := { s.nv with phy := s.nv.phy.filter (fun e => !ks.contains (e.1 / 3)) } } .ok)

/-- The field sizes of DRAM_PPR: tile, channel, rank, subchannel, bank group, bank, row. -/
def pprSizes : List Nat := [1, 1, 1, 1, 1, 1, 4]

/-- The word of DMC.PPR that a DRAM_PPR makes the firmware write: GO, KIND 0, the row. -/
def pprWord (r sc bg ba row : Nat) : Nat := 1 + row * 2 ^ 3 + ba * 2 ^ 20 + bg * 2 ^ 22 + sc * 2 ^ 25 + r * 2 ^ 26

/-- DRAM_PPR: firmware writes DMC.PPR with GO; the answer follows the repair. A repair in progress is BUSY; one that fails answers OK, with
PPR_RESULT 3 (DESIGN CHOICE, log entry 46). -/
def cmdDramPpr : Cmd := actCmd 0x0357 [2] .config
  (fun s pl => match parse339 pprSizes pl with
    | some [t, c, r, sc, bg, ba, row] => decide (t < s.tiles) && decide (c < 3) && decide (r < s.lranks) && decide (sc < 2) &&
        decide (bg < 8) && decide (ba < 4) && decide (row < 2 ^ s.rowBits)
    | _ => false)
  (fun _ pl s =>
    let f := fieldAt pprSizes pl
    if s.fldC (f 0) (f 1) DMC.PPR.BUSY != 0 then .done s .busy
    else ⟨s.startSppr (f 0) (f 1) (pprWord (f 2) (f 3) (f 4) (f 5) (f 6)) none, .ok, [], id, some (65552 + chanNo (f 0) (f 1), 4)⟩)

/-- DRAM_STATUS -/
def execDramStatus (f : Frame) (s : State) : Host.Outcome State Fault Refusal := .next (mailbox cmdDramStatus f s)

/-- DRAM_SPEED_SET -/
def execDramSpeedSet (f : Frame) (s : State) : Host.Outcome State Fault Refusal := .next (mailbox cmdDramSpeedSet f s)

/-- DRAM_TSET_WRITE -/
def execDramTsetWrite (f : Frame) (s : State) : Host.Outcome State Fault Refusal := .next (mailbox cmdDramTsetWrite f s)

/-- DRAM_MAP_SET -/
def execDramMapSet (f : Frame) (s : State) : Host.Outcome State Fault Refusal := .next (mailbox cmdDramMapSet f s)

/-- DRAM_RETRAIN -/
def execDramRetrain (f : Frame) (s : State) : Host.Outcome State Fault Refusal := .next (mailbox cmdDramRetrain f s)

/-- DRAM_TRAIN_RESULTS -/
def execDramTrainResults (f : Frame) (s : State) : Host.Outcome State Fault Refusal := .next (mailbox cmdDramTrainResults f s)

/-- DRAM_TRAIN_CLEAR -/
def execDramTrainClear (f : Frame) (s : State) : Host.Outcome State Fault Refusal := .next (mailbox cmdDramTrainClear f s)

/-- DRAM_PPR -/
def execDramPpr (f : Frame) (s : State) : Host.Outcome State Fault Refusal := .next (mailbox cmdDramPpr f s)

end Sys2Proof.Machine
end

