-- ==== Sys2Proof/Machine/Dec.lean ====
section
/-! DEFINITION. The integrity block: reads, logs, recovery, scrub, retirement and its commands (R121 to R139). -/

namespace Sys2Proof.Machine

/-! ### Reads and first writes that reach DEC (R122, R123) -/

/-- Copies of a frame's born-map burst that are found not to decode. -/
def State.badCopies (s : State) (t frame : Nat) (bad0 bad1 : Bool) : State :=
  let new := (if bad0 then [(t, frame, 0)] else []) ++ (if bad1 then [(t, frame, 1)] else [])
  s.updDec (fun d => { d with bornBad := d.bornBad ++ new.filter (fun e => !d.bornBad.contains e) })

/-- A read of the burst at a tile-local address (R122). -/
def State.decRead (s : State) (t a : Nat) (err : List (Nat × Nat)) (bad0 bad1 parity : Bool) : State :=
  if s.mainBytes ≤ a then s else
  let f := a / 2 ^ 21
  let s1 := if f < s.reservedFrames t then s else s.badCopies t f bad0 bad1
  let s2 := if parity && s.reservedFrames t ≤ f then s1.repairExt t f else s1
  let p := s2.lookBorn t (a / 4096)
  if p.1 then (p.2.askDram t (p.2.physAt t a) false).burstRead t a err false else p.2

/-- DEC_READ: a read of the burst at a tile-local address; `err`: the symbols found wrong in it, each with its XOR; `bad0`, `bad1`: copies of its
frame's born-map burst that do not decode; `parity`: its extent born bit has a parity error (R125). -/
def execDecRead (tile addr : Nat) (err : List (Nat × Nat)) (bad0 bad1 parity : Bool) (s : State) : Host.Outcome State Fault Refusal :=
  onTile tile s (s.decRead tile addr err bad0 bad1 parity)

/-- An injection on the write path is stored with the first burst of a test-frame page on its channel (Table 5.11); another write of the page
stores fresh codewords. The poison vector has the identifier 0x5A5A of Table 5.6. -/
def State.testWrite (s : State) (t page : Nat) : State :=
  match ((List.range 64).map (fun i => page * 4096 + 64 * i)).find? (fun a => s.injHits t a 0) with
  | some a =>
    ((s.setFaults t a (s.injPattern t)).updDec (fun d => { d with
      testPoison := d.testPoison.filter (fun (x : (Nat × Nat) × Nat) => x.1 != (t, a)) ++
        (if s.flag t DEC.INJ_CTRL.POISON then [((t, a), 0x5A5A)] else []) })).setF t DEC.INJ_CTRL.ARM 0
  | none => s.updDec (fun d => { d with
      faults := d.faults.filter (fun f => !(f.1 == t && f.2.1 / 4096 == page))
      testPoison := d.testPoison.filter (fun (x : (Nat × Nat) × Nat) => !(x.1.1 == t && x.1.2 / 4096 == page)) })

/-- FIRST_WRITE: the first write of a page that reaches DEC (R123): the oldest write-back of the page that waits in the eviction buffer. In the test
frame it is the write that an injection meets. -/
def execFirstWrite (tile page : Nat) (s : State) : Host.Outcome State Fault Refusal :=
  onTile tile s
    (if s.inTest (page * 4096) then s.testWrite tile page
     else if s.bornLocal tile page then s else
     match (s.extOfFrame tile (page / 512)).bind (fun e => (s.evbOf tile).find? (fun x => x.n / 32 == e * 512 + page % 512)) with
     | some x => s.writeBack x
     | none => s)

/-- FRAME_FREE: the born state of a frame that is no home is cleared (R124); its pages read zero. -/
def execFrameFree (tile frame : Nat) (s : State) : Host.Outcome State Fault Refusal :=
  onTile tile s
    (if frame < s.reservedFrames tile || (s.mainUsed tile).contains frame || s.mainBytes / 2 ^ 21 ≤ frame then s
     else s.clearFrame tile frame)

/-! ### Retirement (R134 to R136) -/

/-- Free pages of a tile's spare pool. -/
def State.spareFree (s : State) (t : Nat) : Nat := 4096 - (s.dec.pages.filter (fun p => p.tile == t)).length

/-- The 64 bursts of a page are read where it lies and written to a page of DRAM, with correction; poison stays poison, and a burst that does not
decode keeps what is wrong in it (R135). -/
def State.copyBursts (s : State) (t page target : Nat) : State :=
  if !(s.lookBorn t page).1 then s.wipe .main t target 4096 else
  let src := s.physAt t (page * 4096)
  let s1 := (List.range 64).foldl (fun a i =>
    let r := src + 64 * i
    let b := if i % 2 = 0 then (a.askDram t r false).askDram t (target + 64 * i) true else a
    b.decBurst t (page * 4096 + 64 * i)) s
  let s2 := s1.setBytes .main t target ((List.range 64).flatMap (fun i => s1.burstBytes t (src + 64 * i)))
  (List.range 64).foldl (fun a i => a.setFaults t (target + 64 * i)
    (match s1.decoded t (src + 64 * i) [] with
     | .bad => s1.faultsAt t (src + 64 * i)
     | _ => [])) s2

/-- A page goes to a spare page; whether it could (R135). Its requests wait within the step. -/
def State.retirePage (s : State) (t page c : Nat) : State × Bool :=
  let mine := s.dec.pages.filter (fun p => p.tile == t)
  let s0 := s.updDec (fun d => { d with retire := d.retire.filter (fun e => !(e.1 == t && e.2.1 == page)) })
  let slot := lowestFree (mine.map (·.slot)) mine.length 0
  if 4096 ≤ slot then (s0.ev t DEC.EVENTS.RETIRE_REFUSED, false) else
  let n := s0.serialOf t c (s0.locate t (page * 4096)).2.rank
  let s1 := (s0.copyBursts t page (s0.sparePool + slot * 4096)).updDec (fun d => { d with
    pages := d.pages.filter (fun p => !(p.tile == t && p.page == page)) ++ [⟨t, page, slot, c, n⟩] })
  (if s1.spareFree t < 64 && 64 ≤ s.spareFree t then s1.evRec t DEC.EVENTS.SPARE_LOW 0 else s1, true)

/-- PAGE_RETIRE: a page that waits for its retirement, not in FREEZE (R135). -/
def execPageRetire (tile page : Nat) (s : State) : Host.Outcome State Fault Refusal :=
  onTile tile s
    (match s.dec.retire.find? (fun e => e.1 == tile && e.2.1 == page) with
     | some e => if s.dstate == .freeze then s else (s.retirePage tile page e.2.2).1
     | none => s)

/-- A refused device retirement asks for the module's replacement (Table 5.5). -/
def State.refuseDevice (s : State) (t c sub rank : Nat) : State × Bool :=
  ((s.ev t DEC.EVENTS.RETIRE_REFUSED).named t 0x0B 0x0100 4 (c + rank * 16 + sub * 512), false)

/-- The erasure entries of a subchannel and rank. -/
def State.erasesOf (s : State) (t c sub rank : Nat) : List DecErase :=
  s.dec.erases.filter (fun e => e.tile == t && e.ch == c && e.sub == sub && e.rank == rank)

/-- A device goes under erasure for every bank of a subchannel and rank: one device at most (R119). -/
def State.retireDevice (s : State) (t c sub rank dev : Nat) : State × Bool :=
  if (s.erasesOf t c sub rank).any (fun e => e.bank.isNone || e.dev != dev) then s.refuseDevice t c sub rank
  else (s.updDec (fun d => { d with
    erases := d.erases.filter (fun e => !(e.tile == t && e.ch == c && e.sub == sub && e.rank == rank)) ++ [⟨t, c, sub, rank, none, dev, s.serialOf t c rank⟩] }), true)

/-- A device goes under erasure for one bank; for every bank where the channel's table of 8 is full. -/
def State.retireBank (s : State) (t c sub rank bank dev : Nat) : State × Bool :=
  let es := s.erasesOf t c sub rank
  if es.any (fun e => e.bank.isNone || e.dev != dev || e.bank == some bank) then s.refuseDevice t c sub rank
  else if 8 ≤ (s.dec.erases.filter (fun e => e.tile == t && e.ch == c && e.bank.isSome)).length then s.retireDevice t c sub rank dev
  else (s.updDec (fun d => { d with erases := d.erases ++ [⟨t, c, sub, rank, some bank, dev, s.serialOf t c rank⟩] }), true)

/-! ### Recovery (R131, R132) -/

/-- UE_RECOVERY: of an uncorrectable burst found at a tile-local address. -/
def execUeRecovery (tile addr : Nat) (s : State) : Host.Outcome State Fault Refusal :=
  onTile tile s (if s.dec.ues.contains (tile, addr) then s.ueRecover tile addr else s)

/-! ### Patrol scrub (R133) -/

/-- The first channel-local address of channel c, from `cur` on, whose tile-local address lies in [lo, hi). -/
def scrubIn (g c cur lo hi : Nat) : Option Nat :=
  let q := lo / 2 ^ g
  let q0 := q + (c + 3 - q % 3) % 3
  let l := max cur (q0 / 3 * 2 ^ g)
  if channelBack g c l < hi then some l else none

/-- The next burst that a channel's scrub reads: channel-local address. -/
def State.scrubNext (s : State) (t c cur : Nat) : Option Nat :=
  let g := s.chGran t
  let pages := (s.dec.born.filter (fun e => e.1 == t)).map (·.2)
  let live := pages.filter (fun p => !s.dec.pages.any (fun x => x.tile == t && x.page == p))
  let cands := (scrubIn g c cur s.sparePool (s.testFrame + 2 ^ 21)).toList ++
    live.filterMap (fun p => scrubIn g c cur (p * 4096) (p * 4096 + 4096))
  cands.foldl (fun m l => match m with
    | none => some l
    | some k => some (min k l)) none

/-- The cursor of a channel's scrub. -/
def State.scrubAt (s : State) (t c : Nat) : Nat :=
  s.fld t (DEC.SCRUB_POS.PAGE.up (4 * c)) * 4096 + amapGet 0 s.dec.scrub (chanNo t c) * 64

/-- The cursor moved. -/
def State.setScrub (s : State) (t c l : Nat) : State :=
  (s.updDec (fun d => { d with scrub := amapSet 0 d.scrub (chanNo t c) (l % 4096 / 64) })).setF t (DEC.SCRUB_POS.PAGE.up (4 * c)) (l / 4096)

/-- The passes that every channel of a tile has completed. -/
def State.allPasses (s : State) (t : Nat) : Nat :=
  ((List.range 3).map (fun c => amapGet 0 s.dec.passes (chanNo t c))).foldl min (amapGet 0 s.dec.passes (chanNo t 0))

/-- A channel's pass ends; its cursor returns to 0. -/
def State.scrubPass (s : State) (t c : Nat) : State :=
  let k := chanNo t c
  let s1 := (s.setScrub t c 0).updDec (fun d => { d with passes := amapSet 0 d.passes k (amapGet 0 d.passes k + 1) })
  (s1.ev t DEC.EVENTS.SCRUB_PASS).bump t DEC.SCRUB_PASSES.COUNT (s1.allPasses t - s.allPasses t)

/-- Whether scrub runs on a tile: not in FREEZE, S1 and S2, nor under throttling (Table 14.7). -/
def State.scrubs (s : State) (t : Nat) : Bool :=
  s.flag t DEC.CTRL.SCRUB_EN && (s.dstate == .service || s.dstate == .restricted || s.dstate == .restore) &&
  s.fld 0 PWC.THERM.LEVEL == 0

/-- SCRUB_READ: patrol scrub reads the next burst of a channel. -/
def execScrubRead (tile ch : Nat) (err : List (Nat × Nat)) (s : State) : Host.Outcome State Fault Refusal :=
  onChannel tile ch s
    (if !s.scrubs tile then s else
     match s.scrubNext tile ch (s.scrubAt tile ch) with
     | some l =>
       let a := channelBack (s.chGran tile) ch l
       ((s.askDram tile a false).burstRead tile a err true).setScrub tile ch (l + 64)
     | none => s.scrubPass tile ch)

/-! ### The policy (Table 5.5) -/

/-- ROW_THRESH, the window of rows in hours, the window of whole-device errors in hours: set by DEC_POLICY_SET. -/
def State.rowThresh (s : State) (t : Nat) : Nat := (s.cfg (cfgItem t 2)).getD 8

def State.rowHours (s : State) (t : Nat) : Nat := (s.cfg (cfgItem t 3)).getD 24

def State.devHours (s : State) (t : Nat) : Nat := (s.cfg (cfgItem t 4)).getD 1

/-- The policy's notes of a channel no older than h hours. -/
def State.notesOf (s : State) (t c h : Nat) (whole : Bool) : List DecNote :=
  s.dec.notes.filter (fun n => n.tile == t && n.ch == c && n.whole == whole && decide (s.now ≤ n.last + h * 3600000000))

/-- Devices (subchannel, rank, device) of a channel that the policy retires. -/
def State.devsToRetire (s : State) (t c : Nat) : List (Nat × Nat × Nat) :=
  let ns := s.notesOf t c (s.devHours t) true
  let es := s.dec.erases.filter (fun e => e.tile == t && e.ch == c && e.bank.isSome)
  let keys := (ns.map (fun n => (n.sub, n.rank, n.dev)) ++ es.map (fun e => (e.sub, e.rank, e.dev))).dedup
  keys.filter (fun k =>
    (decide (2 ≤ ((ns.filter (fun n => (n.sub, n.rank, n.dev) == k)).map (·.bank)).dedup.length) ||
     decide (2 ≤ (es.filter (fun e => (e.sub, e.rank, e.dev) == k)).length)) &&
    !(s.erasesOf t c k.1 k.2.1).any (fun e => e.bank.isNone && e.dev == k.2.2))

/-- Banks (subchannel, rank, bank, device) of a channel that the policy retires. -/
def State.banksToRetire (s : State) (t c : Nat) : List (Nat × Nat × Nat × Nat) :=
  let ns := s.notesOf t c (s.rowHours t) false
  ((ns.map (fun n => (n.sub, n.rank, n.bank, n.dev))).dedup).filter (fun k =>
    decide (s.rowThresh t ≤ ((ns.filter (fun n => (n.sub, n.rank, n.bank, n.dev) == k)).map (·.row)).dedup.length) &&
    !(s.erasesOf t c k.1 k.2.1).any (fun e => e.dev == k.2.2.2 && (e.bank.isNone || e.bank == some k.2.2.1)))

/-- The PPR word of a log entry's row (Table 4.9). -/
def DecLog.pprWord (e : DecLog) : Nat := e.rank * 2 ^ 26 + e.sub * 2 ^ 25 + e.bg * 2 ^ 22 + e.bank * 2 ^ 20 + e.row * 8

/-- Log entries of a channel whose burst erred again in the same device after its write-back qualify their rows. -/
def State.qualifyRows (s : State) (t c : Nat) : State :=
  (s.dec.logs.filter (fun e => e.tile == t && e.ch == c && e.again)).foldl (fun a e =>
    let b := e.bg * 4 + e.bank
    let rest := a.dec.notes.filter (fun n => !(n.tile == t && n.ch == c && n.sub == e.sub && n.rank == e.rank && n.bank == b &&
      n.dev == e.dev && n.row == e.row && !n.whole))
    a.updDec (fun d => { d with notes := rest ++ [⟨t, c, e.sub, e.rank, b, e.dev, e.row, false, e.last⟩] })) s

/-- The soft repair of the first qualified row that no erasure covers; the others wait for the next poll. -/
def State.repairRows (s : State) (t c : Nat) (result : Option Nat) : State :=
  let covered := fun (e : DecLog) => (s.erasesOf t c e.sub e.rank).any (fun x => x.dev == e.dev && (x.bank.isNone || x.bank == some (e.bg * 4 + e.bank)))
  let clear := fun (p : DecLog → Bool) (x : State) => x.updDec (fun d => { d with logs := d.logs.map (fun e =>
    if e.tile = t && e.ch = c && e.again && p e then { e with again := false, wb := false } else e) })
  let s1 := clear covered s
  match s1.dec.logs.find? (fun e => e.tile == t && e.ch == c && e.again) with
  | some e => if s1.fldC t c DMC.PPR.BUSY != 0 then s1
      else (clear (fun x => x.rank == e.rank && x.sub == e.sub && x.bg == e.bg && x.bank == e.bank && x.row == e.row) s1).startSppr t c
        e.pprWord result
  | none => s1

/-- The policy on a channel: device before bank, bank before row. -/
def State.applyPolicy (s : State) (t c : Nat) (result : Option Nat) : State :=
  let s1 := s.qualifyRows t c
  let s2 := (s1.devsToRetire t c).foldl (fun a k => (a.retireDevice t c k.1 k.2.1 k.2.2).1) s1
  let s3 := s2.updDec (fun d => { d with notes := d.notes.filter (fun n => !(n.tile == t && n.ch == c && n.whole &&
    (s1.devsToRetire t c).any (fun k => k == (n.sub, n.rank, n.dev)))) })
  let s4 := (s3.banksToRetire t c).foldl (fun a k => (a.retireBank t c k.1 k.2.1 k.2.2.1 k.2.2.2).1) s3
  let s5 := s4.updDec (fun d => { d with notes := d.notes.filter (fun n => !(n.tile == t && n.ch == c && !n.whole &&
    (s3.banksToRetire t c).any (fun k => k == (n.sub, n.rank, n.bank, n.dev)))) })
  s5.repairRows t c result

/-- The per-module summary of a channel in the nonvolatile store (R130): bursts corrected, uncorrectable, poisoned in its log, by the module of
their rank. -/
def State.sumModules (s : State) (t c : Nat) : State :=
  let mine := s.dec.logs.filter (fun e => e.tile == t && e.ch == c)
  let count := fun (n : Nat) (p : Nat → Bool) => ((mine.filter (fun e => s.serialOf t c e.rank == n && p e.kind)).map (·.count)).sum
  let new := (mine.map (fun e => s.serialOf t c e.rank)).dedup.map (fun n =>
    (n, count n (fun k => decide (k < 2)), count n (fun k => k == 2), count n (fun k => k == 3)))
  { s with nv := { s.nv with modErrs := s.nv.modErrs.filter (fun e => !new.any (fun x => x.1 == e.1)) ++ new } }

/-- ERROR_LOG_POLL: firmware reads a tile's logs, keeps the summary of each module and applies the policy; `ppr`: what the DRAM's resources give to a
soft repair that it starts on each channel (as SPPR). -/
def execErrorLogPoll (tile : Nat) (ppr : List Nat) (s : State) : Host.Outcome State Fault Refusal :=
  onTile tile s (if s.dstate == .service || s.dstate == .restricted then
    (List.range 3).foldl (fun a c => (a.sumModules tile c).applyPolicy tile c (some (ppr.getD c 1 % 3 + 3 * b2n (ppr.getD c 1 % 3 == 0)))) s else s)

/-! ### Log clear and injection -/

/-- The logs of the channels in a mask are cleared. -/
def State.clearLogs (s : State) (t mask : Nat) : State :=
  s.updDec (fun d => { d with logs := d.logs.filter (fun e => !(e.tile == t && mask.testBit e.ch)) })

/-- DEC_LOG_CLEAR_WRITE: a write of DEC.LOG_CLEAR. -/
def execDecLogClearWrite (tile mask : Nat) (s : State) : Host.Outcome State Fault Refusal := onTile tile s (s.clearLogs tile (mask % 8))

/-- A write of DEC.INJ_CTRL (Table 5.11). -/
def State.writeInj (s : State) (t v : Nat) : State :=
  s.setFs t [(DEC.INJ_CTRL.POISON, bitsOf v 7 1), (DEC.INJ_CTRL.CH, bitsOf v 5 2), (DEC.INJ_CTRL.SUBCH, bitsOf v 4 1),
    (DEC.INJ_CTRL.PATH, bitsOf v 3 1), (DEC.INJ_CTRL.ARM, v)]

/-- DEC_INJ_ARM: DEC.INJ_CTRL written with ARM; the next access to the test frame meets it. -/
def execDecInjArm (tile v : Nat) (s : State) : Host.Outcome State Fault Refusal := onTile tile s (s.writeInj tile (v / 2 * 2 + 1))

/-! ### Checker self-test (R137, Table 5.6) -/

/-- A test pattern: 64 data bytes. -/
def testData (k : Nat) : List Byte := (List.range 64).map (Config.testVector k)

/-- One symbol of each of the first `n` devices but one, wrong. -/
def spreadErr (n but : Nat) : List (Nat × Nat) := (((List.range 10).filter (fun d => d != but)).take n).map (fun d => (8 * d, 1))

/-- Whether a word decodes to test pattern 0 with `n` symbols corrected, most of them in device d. -/
def corrects (erased : Option Nat) (fault err : List (Nat × Nat)) (n d : Nat) : Bool :=
  match decodeWord erased (flipSyms (storedBurst (testData 0)) (fault ++ err)) with
  | .data bs pat => bs == testData 0 && pat.length == n && (mostDevice pat == d || n != 1)
  | _ => false

/-- The first burst of the test frame on a channel. -/
def State.testBurst (s : State) (t c : Nat) : Nat :=
  (((List.range 32768).map (fun i => s.testFrame + 64 * i)).find? (fun a => (s.locate t a).1 == c)).getD s.testFrame

/-- Whether a channel passes test k on its burst of the test frame, whose faults stand in it. -/
def State.decTest (s : State) (t c k : Nat) : Bool :=
  let f := s.faultsAt t (s.testBurst t c)
  match k with
  | 1 => (List.range 8).all (fun i => decodeWord none (flipSyms (storedBurst (testData i)) f) == .data (testData i) [])
  | 2 => (List.range 80).all (fun y => corrects none f [(y, 1)] 1 (symDevice y))
  | 3 => (List.range 10).all (fun d => corrects none f ((devSyms d).map (fun y => (y, 1))) 8 d)
  | 4 => decodeWord none (flipSyms (storedBurst (testData 0)) (f ++ badFive)) == .bad
  | 5 => corrects (some 3) f (spreadErr 4 3) 4 15
  | 6 => decodeWord (some 3) (flipSyms (storedBurst (testData 0)) (f ++ spreadErr 5 3)) == .bad
  | 7 => decodeWord none (flipSyms (poisonBurst 0x5A5A) f) == .poison 0x5A5A []
  | _ => let s1 := s.decRead t (s.unbornTest * 4096) [] false false false
         s1.fldC t c DMC.ROW_HIT.COUNT == s.fldC t c DMC.ROW_HIT.COUNT && s1.fldC t c DMC.ROW_CONFLICT.COUNT == s.fldC t c DMC.ROW_CONFLICT.COUNT

/-- The tests that fail on a tile: channel × 16 + test. -/
def State.decTests (s : State) (t : Nat) : List Nat :=
  (List.range 3).flatMap (fun c => ((List.range 8).filter (fun k => !s.decTest t c (k + 1))).map (fun k => c * 16 + k + 1))

/-! ### Commands (Table 5.13) -/

/-- The words of a log entry (Table 5.3). -/
def DecLog.words (e : DecLog) (now : Nat) : List Nat :=
  [2 ^ 31 + e.kind * 2 ^ 28 + e.rank * 2 ^ 24 + e.sub * 2 ^ 23 + e.bg * 2 ^ 20 + e.bank * 2 ^ 18 + e.row % 2 ^ 17,
   e.col % 128 * 2 ^ 25 + e.dev * 2 ^ 21 + e.syms * 2 ^ 16 + e.count,
   e.addr % 2 ^ 32 / 64 * 64,
   min 65535 ((now - e.last) / 1000000) * 2 ^ 16 + e.addr / 2 ^ 32 % 512]

/-- An entry of a retirement table as DEC.RET_SEL selects it and DEC.RET_DATA0 and RET_DATA1 show it (Table 5.10). -/
def DecErase.words (e : DecErase) : List Nat :=
  match e.bank with
  | none => [2 ^ 31 + e.dev, 0]
  | some b => [2 ^ 31 + e.rank * 2 ^ 27 + e.sub * 2 ^ 26 + b / 4 * 2 ^ 23 + b % 4 * 2 ^ 21 + e.dev, 0]

def DecPage.words (p : DecPage) : List Nat := [2 ^ 31 + p.page, p.slot]

/-- DEC.STATUS (Table 5.8). -/
def State.decStatus (s : State) (t : Nat) : Nat :=
  b2n (!s.writesBack t) * 2 ^ 30 + s.spareFree t * 2 ^ 17 +
  (s.dec.erases.filter (fun e => e.tile == t && e.bank.isSome)).length * 2 ^ 12 +
  (s.dec.erases.filter (fun e => e.tile == t && e.bank.isNone)).length

/-- The retirement entries of a tile as DEC_STATUS lists them, by table, channel and index: `DEC.RET_SEL`, then its data words (DESIGN CHOICE,
log entry 12). -/
def State.retirements (s : State) (t : Nat) : List (List Byte) :=
  let mine := s.dec.erases.filter (fun e => e.tile == t)
  let row := fun (sel : Nat) (w : List Nat) => (sel :: w).flatMap (leBytes 4)
  (mine.filter (fun e => e.bank.isNone)).map (fun e => row (e.ch * 2 ^ 12 + e.sub * 16 + e.rank) e.words) ++
  (List.range 3).flatMap (fun c => ((mine.filter (fun e => e.bank.isSome && e.ch == c)).zipIdx).map (fun e =>
    row (2 ^ 16 + c * 2 ^ 12 + e.2) e.1.words)) ++
  (s.dec.pages.filter (fun p => p.tile == t)).zipIdx.map (fun p => row (2 ^ 17 + p.2) p.1.words)

/-- DEC_STATUS: TILE and the first retirement entry to list; the fields of Table 5.8, counters, how many entries there are, those listed, scrub
cursors. -/
def cmdDecStatus : Cmd := readCmd 0x0360 .reading
  (fun s pl => match parse339 [1, 4] pl with
    | some [t, _] => decide (t < s.tiles)
    | _ => false)
  (fun _ pl s =>
    let t := fieldAt [1, 4] pl 0
    let cnt := (List.range 3).flatMap (fun c => [DEC.CE_CNT.COUNT, DEC.UE_CNT.COUNT, DEC.POISON_CNT.COUNT, DEC.SCRUB_CE.COUNT].map
      (fun f => (4, s.fld t (decCnt f c))))
    let es := s.retirements t
    .reply s (buildWithList ([(4, (s.word t DEC.CTRL.HOLD.blk DEC.CTRL.HOLD.off).toNat), (4, s.decStatus t), (1, s.fld t DEC.SCRUB.PERIOD)] ++
      (List.range 3).map (fun c => (4, s.fld t (DEC.SCRUB_POS.PAGE.up (4 * c)))) ++ [(4, s.fld t DEC.SCRUB_PASSES.COUNT), (4, s.decFrame)] ++
      cnt ++ [(4, s.fld t DEC.LOG_LOST.COUNT), (4, es.length)]) 12 ((es.drop (fieldAt [1, 4] pl 1)).take 320)))

/-- DEC_LOG_READ: tile, channel. -/
def cmdDecLogRead : Cmd := readCmd 0x0361 .reading
  (fun s pl => match parse339 [1, 1] pl with
    | some [t, c] => decide (t < s.tiles) && decide (c < 3)
    | _ => false)
  (fun _ pl s =>
    let f := fieldAt [1, 1] pl
    .reply s (buildWithList [] 16 ((s.dec.logs.filter (fun e => e.tile == f 0 && e.ch == f 1)).map (fun e =>
      (e.words s.now).flatMap (leBytes 4)))))

/-- DEC_LOG_CLEAR: tile, channel mask. -/
def cmdDecLogClear : Cmd := actCmd 0x0362 [2] .config
  (fun s pl => match parse339 [1, 1] pl with
    | some [t, m] => namesTile s t && decide (m < 8)
    | _ => false)
  (fun _ pl s =>
    let f := fieldAt [1, 1] pl
    .done ((s.tilesOf (f 0)).foldl (fun a t => a.clearLogs t (f 1)) s) .ok)

/-- The fields of DEC_RETIRE: tile, kind (0 device, 1 bank, 2 page, as DEC.RET_SEL.TABLE), channel, subchannel, rank, bank group,
bank, device, tile-local page. -/
def retireSizes : List Nat := [1, 1, 1, 1, 1, 1, 1, 1, 4]

/-- DEC_RETIRE: OK once committed, EXHAUSTED where refused (R139). -/
def cmdDecRetire : Cmd := actCmd 0x0363 [2] .config
  (fun s pl => match parse339 retireSizes pl with
    | some [t, k, c, sub, r, bg, ba, d, p] => decide (t < s.tiles) && decide (k < 3) && decide (c < 3) && decide (sub < 2) &&
        decide (r < s.lranks) && decide (bg < 8) && decide (ba < 4) && decide (d < 10) && decide (p < s.mainBytes / 4096)
    | _ => false)
  (fun _ pl s =>
    let f := fieldAt retireSizes pl
    let (s1, ok) := match f 1 with
      | 0 => s.retireDevice (f 0) (f 2) (f 3) (f 4) (f 7)
      | 1 => s.retireBank (f 0) (f 2) (f 3) (f 4) (f 5 * 4 + f 6) (f 7)
      | _ => s.retirePage (f 0) (f 8) (f 2)
    .done s1 (if ok then .ok else .exhausted))

/-- DEC_POLICY_SET: ROW_THRESH, its window and that of whole-device errors in hours; stored. -/
def cmdDecPolicySet : Cmd := actCmd 0x0364 [2] .config
  (fun _ pl => match parse339 [1, 1, 1] pl with
    | some [n, a, b] => n != 0 && a != 0 && b != 0
    | _ => false)
  (fun _ pl s =>
    let f := fieldAt [1, 1, 1] pl
    .done (s.allTiles (fun t a => ((a.setCfg (cfgItem t 2) (f 0)).setCfg (cfgItem t 3) (f 1)).setCfg (cfgItem t 4) (f 2))) .ok)

/-- DEC_SCRUB_SET: SCRUB_EN, PERIOD; stored. -/
def cmdDecScrubSet : Cmd := actCmd 0x0365 [2] .config
  (fun _ pl => match parse339 [1, 1] pl with
    | some [e, p] => decide (e < 2) && p != 0
    | _ => false)
  (fun _ pl s =>
    let f := fieldAt [1, 1] pl
    .done ((s.configAll DEC.CTRL.SCRUB_EN (f 0)).configAll DEC.SCRUB.PERIOD (f 1)) .ok)

/-- The fields of DEC_INJECT: tile, INJ_CTRL, the three mask words, INJ_XOR. -/
def injectSizes : List Nat := [1, 1, 4, 4, 4, 1]

/-- DEC_INJECT: loads the injection registers and arms them. -/
def cmdDecInject : Cmd := actCmd 0x0366 [3] .firmware
  (fun s pl => match parse339 injectSizes pl with
    | some [t, v, _, _, m, _] => decide (t < s.tiles) && bitsOf v 5 2 != 3 && bitsOf v 1 2 == 0 && decide (m < 65536)
    | _ => false)
  (fun _ pl s =>
    let f := fieldAt injectSizes pl
    .done ((s.setFs (f 0) [(DEC.INJ_MASK0.SYM, f 2), (DEC.INJ_MASK1.SYM, f 3), (DEC.INJ_MASK2.SYM, f 4), (DEC.INJ_XOR.VALUE, f 5)]).writeInj
      (f 0) (f 1 / 2 * 2 + 1)) .ok)

/-- DEC_STATUS -/
def execDecStatus (f : Frame) (s : State) : Host.Outcome State Fault Refusal := .next (mailbox cmdDecStatus f s)

/-- DEC_LOG_READ -/
def execDecLogRead (f : Frame) (s : State) : Host.Outcome State Fault Refusal := .next (mailbox cmdDecLogRead f s)

/-- DEC_LOG_CLEAR -/
def execDecLogClear (f : Frame) (s : State) : Host.Outcome State Fault Refusal := .next (mailbox cmdDecLogClear f s)

/-- DEC_RETIRE -/
def execDecRetire (f : Frame) (s : State) : Host.Outcome State Fault Refusal := .next (mailbox cmdDecRetire f s)

/-- DEC_POLICY_SET -/
def execDecPolicySet (f : Frame) (s : State) : Host.Outcome State Fault Refusal := .next (mailbox cmdDecPolicySet f s)

/-- DEC_SCRUB_SET -/
def execDecScrubSet (f : Frame) (s : State) : Host.Outcome State Fault Refusal := .next (mailbox cmdDecScrubSet f s)

/-- DEC_INJECT -/
def execDecInject (f : Frame) (s : State) : Host.Outcome State Fault Refusal := .next (mailbox cmdDecInject f s)

end Sys2Proof.Machine
end

