-- ==== Sys2Proof/Machine/Persist.lean ====
section
/-! DEFINITION. The persistence commands and the freeze report (Table 7.15, R183 to R185, R200, R503). -/

namespace Sys2Proof.Machine

/-- The bytes of a freeze report (Table 7.16). -/
def FreezeReport.toBytes (r : FreezeReport) : List Byte :=
  leBytes 4 r.seq ++ leBytes 1 r.source ++ leBytes 1 r.outcome ++ leBytes 1 r.flags ++ leBytes 1 r.tiles ++
  leBytes 4 r.unitsLost ++ leBytes 4 0 ++ (List.range 8).flatMap (fun i => leBytes 2 (r.dur.getD i 0)) ++
  (List.range 8).flatMap (fun i => leBytes 2 (r.dirty.getD i 0)) ++
  (List.range 8).flatMap (fun i => leBytes 1 (r.tileOutcome.getD i 0)) ++ leBytes 8 0

/-- Firn's mode as `FRN.STATUS.MODE` codes it: 0 normal, 1 urgent, 2 paused, 3 stopped. -/
def State.firnMode (s : State) (t : Nat) : Nat :=
  if !(s.dstate == .service || s.dstate == .restricted || s.dstate == .restore) then 3
  else if s.flag t FRN.CTRL.PAUSE then 2 else if s.isUrgent t then 1 else 0

/-- PERSIST_STATUS: per tile FRN.CEIL, held and free tokens, Firn mode, FRZ.STATUS, bank and energy inputs, restore progress. -/
def cmdPersistStatus : Cmd := readCmd 0x0400 .reading noArgs
  (fun _ _ s => .reply s (buildWithList [] 32 ((List.range s.tiles).map (fun t =>
    build339 [(4, (s.word t FRN.CEIL.EFFECTIVE.blk FRN.CEIL.EFFECTIVE.off).toNat), (4, s.fld t FRN.HELD.PAGES),
      (4, s.freeTokens t), (1, s.firnMode t), (4, (s.word t FRZ.STATUS.STATE.blk FRZ.STATUS.STATE.off).toNat),
      (2, s.fld t FRZ.BANK.CAP), (2, s.fld t FRZ.POWER.P_W), (1, s.fld t FRZ.POWER.ETA_PCT), (1, s.fld t FRZ.POWER.MARGIN),
      (1, s.fld t FRZ.STATUS.BG_RESTORE)]))))

/-- CEILING_SET: the package configured ceiling in MiB, a nonzero multiple of N × 64 up to N × 12,288 (R183); OK once the new
effective ceiling stands. -/
def cmdCeilingSet : Cmd := actCmd 0x0401 [2] .config
  (fun s pl => match parse339 [4] pl with
    | some [m] => m != 0 && m % (s.tiles * 64) == 0 && decide (m ≤ s.tiles * 12288)
    | _ => false)
  (fun _ pl s => .done ((s.configAll FRN.CEIL.CONFIGURED (fieldAt [4] pl 0 / (s.tiles * 64))).recomputeCeiling 1) .ok)

/-- FREEZE_POWER_SET: P_freeze, η and M. -/
def cmdFreezePowerSet : Cmd := actCmd 0x0402 [2] .config
  (fun _ pl => match parse339 [2, 1, 1] pl with
    | some [p, e, m] => decide (50 ≤ p) && decide (p ≤ 2000) && decide (50 ≤ e) && decide (e ≤ 98) && decide (20 ≤ m) &&
      decide (m ≤ 100)
    | _ => false)
  (fun _ pl s =>
    let f := fieldAt [2, 1, 1] pl
    .done ((((s.configAll FRZ.POWER.P_W (f 0)).configAll FRZ.POWER.ETA_PCT (f 1)).configAll FRZ.POWER.MARGIN
      (f 2)).recomputeCeiling 2) .ok)

/-- FIRN_CONFIG: AGE_MIN_US and URGENT_PCT. -/
def cmdFirnConfig : Cmd := actCmd 0x0403 [2] .config
  (fun _ pl => match parse339 [2, 1] pl with
    | some [_, u] => decide (5 ≤ u) && decide (u ≤ 75)
    | _ => false)
  (fun _ pl s =>
    let s1 := (s.configAll FRN.CTRL.AGE_MIN_US (fieldAt [2, 1] pl 0)).configAll FRN.CTRL.URGENT_PCT (fieldAt [2, 1] pl 1)
    .done (s1.allTiles (fun t a => a.noteUrgent t)) .ok)

/-- FREEZE_REPORT_READ: the last 16 reports, newest first. -/
def cmdFreezeReportRead : Cmd := readCmd 0x0404 .reading noArgs
  (fun _ _ s => .reply s (buildWithList [] 64 ((s.nv.reports.take 16).map FreezeReport.toBytes)))

/-- FREEZE_TEST: in SERVICE and RESTRICTED; Freeze on every tile once the response has left. -/
def cmdFreezeTest : Cmd :=
  { actCmd 0x0405 [2] .config noArgs (fun _ _ s => ⟨s, .ok, [], fun a =>
      (a.freezeTrigger 0 4).allTiles (fun t b => if b.frz t == .armed || b.frz t == .notArmed then b.freezeTile t 4 else b), none⟩)
    with ready := fun s _ => s.dstate == .service || s.dstate == .restricted }

/-- PERSIST_STATUS -/
def execPersistStatus (f : Frame) (s : State) : Host.Outcome State Fault Refusal := .next (mailbox cmdPersistStatus f s)

/-- CEILING_SET -/
def execCeilingSet (f : Frame) (s : State) : Host.Outcome State Fault Refusal := .next (mailbox cmdCeilingSet f s)

/-- FREEZE_POWER_SET -/
def execFreezePowerSet (f : Frame) (s : State) : Host.Outcome State Fault Refusal := .next (mailbox cmdFreezePowerSet f s)

/-- FIRN_CONFIG -/
def execFirnConfig (f : Frame) (s : State) : Host.Outcome State Fault Refusal := .next (mailbox cmdFirnConfig f s)

/-- FREEZE_REPORT_READ -/
def execFreezeReportRead (f : Frame) (s : State) : Host.Outcome State Fault Refusal := .next (mailbox cmdFreezeReportRead f s)

/-- FREEZE_TEST -/
def execFreezeTest (f : Frame) (s : State) : Host.Outcome State Fault Refusal := .next (mailbox cmdFreezeTest f s)

end Sys2Proof.Machine
end

