-- ==== Sys2Proof/Machine/Sessions.lean ====
section
/-! DEFINITION. System commands, sessions, notifications and MCTP control (chapter 12). -/

namespace Sys2Proof.Machine

/-- A granule's CRC checks (R426). -/
def granuleOk (bs : List Byte) : Bool := crc32 (bs.take 60) == natAt bs 60 4

/-- The unit identity (Table 16.3). -/
def State.unitId (s : State) : Nat := natAt (s.granule 0) 0x08 8

/-- SYS_IDENTIFY (Table 12.12): identity from the OTP row (R4), versions from the running slot's headers. -/
def cmdSysIdentify : Cmd := readCmd 0x0000 .sys noArgs
  (fun _ _ s =>
    let sl := s.fld 0 BST.BOOT.SLOT
    .reply s (build339 [(1, natAt (s.granule 0) 5 1), (1, natAt (s.granule 0) 6 1), (1, natAt (s.granule 0) 7 1), (1, sl),
      (4, s.enterprise), (8, s.unitId), (8, s.slotNat sl (s.manifestAt sl + 8) 8), (4, s.slotNat sl 8 4),
      (4, s.slotNat sl 0x180008 4)]))

/-- The package effective ceiling, in 64 MiB units (R185). -/
def State.ceiling (s : State) : Nat := ((List.range s.tiles).map (fun t => s.fld t FRN.CEIL.EFFECTIVE)).sum

/-- SYS_STATE -/
def cmdSysState : Cmd := readCmd 0x0001 .sys noArgs
  (fun _ _ s => .reply s (build339 [(1, s.fld 0 MGT.STATE.DSTATE), (1, s.fld 0 TWA.STATUS.ROLE),
    (2, s.fld 0 MGT.STATE.CAUSE), (4, s.ptime / 1000000), (4, s.ceiling * 64)]))

/-- Whether a session has subscribed to a group of notifications. -/
def State.subscribed (s : State) (g : Nat) : Bool := s.mb.sessions.any (fun x => x.groups.testBit g)

/-- What is notified after a restore, each once a session has subscribed to its group (R340): the freeze report (R503), the ends of
streams that Freeze or FAULT stopped (R327). -/
def State.afterRestore (s : State) : State :=
  if s.dstate != .service && s.dstate != .restricted then s else
  let s1 := match (if s.mb.frzReportDue && s.subscribed 4 then s.nv.reports.head? else none) with
    | some r => { s with mb := { s.mb with frzReportDue := false } }.notify 0x04F1 r.toBytes
    | none => s
  if s1.subscribed 6 then
    s1.feed.ended.foldl (fun a e => a.streamEnd e.1 e.2.1 e.2.2.1 e.2.2.2) (s1.updFeed (fun d => { d with ended := [] }))
  else s1

/-- NOTIFY_SUBSCRIBE: GROUPS, bits [15:11] reserved. -/
def cmdNotifySubscribe : Cmd := { readCmd 0x0010 .sys
  (fun _ pl => match parse339 [2] pl with
    | some [g] => decide (g < 2048)
    | _ => false)
  (fun c pl s =>
    let g := fieldAt [2] pl 0
    ⟨s.updSession c.point (fun x => { x with groups := g }), .ok, [], State.afterRestore, none⟩) with acting := false }

/-- NOTIFY_FETCH: the next notification queued on MB0; BAD_ARG on other points. -/
def cmdNotifyFetch : Cmd := readCmd 0x0011 .sys noArgs
  (fun c _ s =>
    if c.point != 0 then .done s .badArg
    else match s.mb.ntf0 with
      | f :: q => .reply { s with mb := { s.mb with ntf0 := q } } f
      | [] => .reply s [])

/-- The slot that holds a role's key (Table 15.1). -/
def roleSlot (r : Nat) : Nat := 3 + r

/-- Whether a role number is one of the three. -/
def isRole (r : Nat) : Bool := decide (1 ≤ r) && decide (r ≤ 3)

/-- SESSION_CHALLENGE (R344): a challenge of 10 s for this point and role; NO_RESOURCE without entropy (R405), or where
the boot ROM's keys are not ready (R366). -/
def cmdSessionChallenge : Cmd := { readCmd 0x0100 .sys
  (fun _ pl => match parse339 [1] pl with
    | some [r] => isRole r
    | _ => false)
  (fun c pl s =>
    if s.boot.romService && !s.boot.romKeys then .done s .noResource else
    match s.generate with
    | none => .done s .noResource
    | some (nonce, s1) =>
      let ch : Challenge := ⟨s1.mb.nextChallenge, c.point, fieldAt [1] pl 0, nonce, s1.now⟩
      .reply { s1 with mb := { s1.mb with
          challenges := s1.mb.challenges.filter (fun x => decide (s1.now ≤ x.born + 10000000)) ++ [ch],
          nextChallenge := (s1.mb.nextChallenge + 1) % 2 ^ 32 } }
        (build339 [(4, ch.id), (16, nonce.toNat)])) with roles := [] }

/-- The layout of SESSION_OPEN: ROLE, CHALLENGE_ID, NONCE_H, PROOF_H. -/
def sessionOpenLayout : List Nat := [1, 4, 16, 16]

/-- The four ASCII bytes of a proof tag (R344). -/
def tagBytes (a b c d : Nat) : List Byte := [BitVec.ofNat 8 a, BitVec.ofNat 8 b, BitVec.ofNat 8 c, BitVec.ofNat 8 d]

/-- PROOF_H (R344). -/
def proofH (k : KeySlot) (role unit : Nat) (nd nh : BitVec 128) : BitVec 128 :=
  cmac k.enc (tagBytes 0x42 0x58 0x48 0x31 ++ leBytes 1 role ++ leBytes 8 unit ++ blockBytes nd ++ blockBytes nh)

/-- PROOF_D and K_s (R344), by the third letter of their tag. -/
def proofD (k : KeySlot) (letter session : Nat) (nd nh : BitVec 128) : BitVec 128 :=
  cmac k.enc (tagBytes 0x42 0x58 letter 0x31 ++ leBytes 4 session ++ blockBytes nd ++ blockBytes nh)

/-- Whether a role is locked out (R348). -/
def State.locked (s : State) (r : Nat) : Bool := s.mb.lockouts.any (fun x => x.1 == r)

/-- A failed SESSION_OPEN (R348): counted, and the eighth within 60 s locks the role out. -/
def State.openFailed (s : State) (r p : Nat) : State :=
  let fs := s.mb.openFails.filter (fun x => decide (s.now ≤ x.2 + 60000000)) ++ [(r, s.now)]
  let s1 := (s.ev 0 RLE.EVENTS.OPEN_FAIL).bump 0 RLE.OPEN_FAIL.COUNT 1
  if (fs.filter (fun x => x.1 == r)).length < 8 then { s1 with mb := { s1.mb with openFails := fs } }
  else
    let s2 := { s1 with mb := { s1.mb with openFails := fs.filter (fun x => x.1 != r),
                                            lockouts := s1.mb.lockouts ++ [(r, s1.now)] } }
    ((s2.ev 0 RLE.EVENTS.LOCKOUT).setF 0 RLE.LOCKOUT.LOCKED (setBit (s2.fld 0 RLE.LOCKOUT.LOCKED) (r - 1) true)).named 0
      0x02 0x0101 3 (r + p * 4)

/-- The serial number of the next session, with its reservation of 256 committed first (R345, R418). -/
def State.takeSerial (s : State) : Nat × State :=
  let n := s.nv.serialNext
  let s1 := { s with nv := { s.nv with serialNext := n + 1,
                                        serialResv := if s.nv.serialResv ≤ n then n + 256 else s.nv.serialResv } }
  (n, s1.setF 0 RLE.SERIAL.NEXT (n + 1))

/-- The session that SESSION_OPEN opens: any session open on the point closes first (R344). -/
def State.openSession (s : State) (p role : Nat) (k : KeySlot) (nd nh : BitVec 128) : CmdOut :=
  if 2 ^ 28 - 1 ≤ s.nv.serialNext then .done s .exhausted else
  let (n, s1) := (s.endSession p).takeSerial
  let id := p * 2 ^ 28 + n
  let ks := proofD k 0x4B id nd nh
  let old := s1.slot (8 + p)
  let s2 := s1.setSlot (8 + p) ⟨true, false, 0x47, (old.gen + 1) % 256, 1, 0, false, ks.setWidth 256⟩
  let x : Session := ⟨p, role, id, ks, 0, none, [], 0, 1, s2.now, s2.now⟩
  .reply ({ s2 with mb := { s2.mb with sessions := s2.mb.sessions ++ [x] } }.setF 0 MGT.MBOX.SESSION
      (setBit (s2.fld 0 MGT.MBOX.SESSION) p true))
    (build339 [(4, id), (2, 600), (16, (proofD k 0x44 id nd nh).toNat)])

/-- SESSION_OPEN (R344, R345, R348). -/
def cmdSessionOpen : Cmd := { readCmd 0x0101 .sys
  (fun _ pl => match parse339 sessionOpenLayout pl with
    | some [r, _, _, _] => isRole r
    | _ => false)
  (fun c pl s =>
    let f := fieldAt sessionOpenLayout pl
    if s.locked (f 0) then .done s .deniedRole else
    let s1 := { s with mb := { s.mb with challenges := s.mb.challenges.filter (fun x => x.id != f 1) } }
    let k := s.slot (roleSlot (f 0))
    match s.mb.challenges.find? (fun x => x.id == f 1 && x.point == c.point && x.role == f 0) with
    | none => .done (s1.openFailed (f 0) c.point) .deniedRole
    | some ch =>
      if k.valid && decide (s.now ≤ ch.born + 10000000) &&
          (proofH k (f 0) s.unitId ch.nonce (BitVec.ofNat 128 (f 2))).toNat == f 3 then
        s1.openSession c.point (f 0) k ch.nonce (BitVec.ofNat 128 (f 2))
      else .done (s1.openFailed (f 0) c.point) .deniedRole) with roles := [] }

/-- SESSION_CLOSE: the response goes out, then the session ends. -/
def cmdSessionClose : Cmd := readCmd 0x0102 .sys noArgs
  (fun c _ s => ⟨s, .ok, [], fun a => a.endSession c.point, none⟩)

/-- The seconds a session has left (R347). -/
def State.idleLeft (s : State) (x : Session) : Nat := 600 - (s.now - x.lastValid) / 1000000

/-- SESSION_LIST: the session that asks has just made a valid request. -/
def cmdSessionList : Cmd := readCmd 0x0103 .sys noArgs
  (fun c _ s => .reply s (buildWithList [] 16 (s.mb.sessions.map (fun x =>
    build339 [(1, x.point), (1, x.role), (2, if x.point == c.point then 600 else s.idleLeft x), (4, x.id), (8, (x.opened - s.pow.spanAt) / 1000000)]))))

/-- SYS_IDENTIFY -/
def execSysIdentify (f : Frame) (s : State) : Host.Outcome State Fault Refusal :=
  .next (mailbox { cmdSysIdentify with roles := [] } f s)

/-- SYS_STATE -/
def execSysState (f : Frame) (s : State) : Host.Outcome State Fault Refusal :=
  .next (mailbox { cmdSysState with roles := [] } f s)

/-- NOTIFY_SUBSCRIBE -/
def execNotifySubscribe (f : Frame) (s : State) : Host.Outcome State Fault Refusal := .next (mailbox cmdNotifySubscribe f s)

/-- NOTIFY_FETCH -/
def execNotifyFetch (f : Frame) (s : State) : Host.Outcome State Fault Refusal := .next (mailbox cmdNotifyFetch f s)

/-- SESSION_CHALLENGE -/
def execSessionChallenge (f : Frame) (s : State) : Host.Outcome State Fault Refusal :=
  .next (mailbox cmdSessionChallenge f s)

/-- SESSION_OPEN -/
def execSessionOpen (f : Frame) (s : State) : Host.Outcome State Fault Refusal := .next (mailbox cmdSessionOpen f s)

/-- SESSION_CLOSE -/
def execSessionClose (f : Frame) (s : State) : Host.Outcome State Fault Refusal := .next (mailbox cmdSessionClose f s)

/-- SESSION_LIST -/
def execSessionList (f : Frame) (s : State) : Host.Outcome State Fault Refusal := .next (mailbox cmdSessionList f s)

/-- CHALLENGE_EXPIRY: a challenge 10 s old becomes invalid (R344). -/
def execChallengeExpiry (id : Nat) (s : State) : Host.Outcome State Fault Refusal :=
  .next { s with mb := { s.mb with challenges := s.mb.challenges.filter (fun x => x.id != id || decide (s.now < x.born + 10000000)) } }

/-- SESSION_IDLE_EXPIRY: 600 s without a valid request (R347). -/
def execSessionIdleExpiry (point : Nat) (s : State) : Host.Outcome State Fault Refusal :=
  .next (if (s.sessionAt point).any (fun x => decide (x.lastValid + 600000000 ≤ s.now)) then s.endSession point else s)

/-- LOCKOUT_EXPIRY: 60 s after it began (R348). -/
def execLockoutExpiry (role : Nat) (s : State) : Host.Outcome State Fault Refusal :=
  .next (if s.mb.lockouts.any (fun x => x.1 == role && decide (x.2 + 60000000 ≤ s.now)) then
    let s1 := { s with mb := { s.mb with lockouts := s.mb.lockouts.filter (fun x => x.1 != role) } }
    s1.setF 0 RLE.LOCKOUT.LOCKED (setBit (s1.fld 0 RLE.LOCKOUT.LOCKED) (role - 1) false)
  else s)

/-- SET_ENDPOINT_ID (R331; DSP0236: 0 set and 1 force take the ID, 2 and 3 leave it; PRESUMED, log entry 11). -/
def execSetEndpointId (op : Nat) (eid : Nat) (s : State) : Host.Outcome State Fault Refusal :=
  let s1 := { s with twb := { s.twb with ctl := s.twb.ctl.tail } }
  if op ≤ 1 && eid != 0 && eid != 255 then
    .next ({ s1 with twb := { s1.twb with eid := eid % 256 } }.send (.mctp [0x01#8, 0#8, 0#8, BitVec.ofNat 8 eid, 0#8]))
  else .next (s1.send (.mctp [0x01#8, 0x02#8]))

/-- GET_ENDPOINT_ID (R331; a simple endpoint). -/
def execGetEndpointId (s : State) : Host.Outcome State Fault Refusal :=
  .next ({ s with twb := { s.twb with ctl := s.twb.ctl.tail } }.send
    (.mctp [0x02#8, 0#8, BitVec.ofNat 8 s.twb.eid, 0#8, 0#8]))

/-- GET_MCTP_VERSION_SUPPORT (R331): one version entry, 1.3.1 of the base specification (PRESUMED, log entry 11), or an unknown
message type. -/
def execGetMctpVersionSupport (msgType : Nat) (s : State) : Host.Outcome State Fault Refusal :=
  let s1 := { s with twb := { s.twb with ctl := s.twb.ctl.tail } }
  if msgType = 0xff || msgType = 0 || msgType = 0x7f then
    .next (s1.send (.mctp [0x04#8, 0#8, 1#8, 0xf1#8, 0xf3#8, 0xf1#8, 0#8]))
  else .next (s1.send (.mctp [0x04#8, 0x80#8]))

/-- GET_MESSAGE_TYPE_SUPPORT (R331): vendor defined messages only. -/
def execGetMessageTypeSupport (s : State) : Host.Outcome State Fault Refusal :=
  .next ({ s with twb := { s.twb with ctl := s.twb.ctl.tail } }.send (.mctp [0x05#8, 0#8, 1#8, 0x7f#8]))

/-- GET_VENDOR_MESSAGE_SUPPORT (R331): the one vendor ID set, IANA format with the enterprise number. -/
def execGetVendorMessageSupport (sel : Nat) (s : State) : Host.Outcome State Fault Refusal :=
  let s1 := { s with twb := { s.twb with ctl := s.twb.ctl.tail } }
  if sel = 0 then .next (s1.send (.mctp ([0x06#8, 0#8, 0xff#8, 1#8] ++ beBytes 4 s.enterprise ++ [0#8, 0#8])))
  else .next (s1.send (.mctp [0x06#8, 0x02#8]))

end Sys2Proof.Machine
end

