-- ==== Sys2Proof/Machine/KeySlots.lean ====
section
/-! DEFINITION. The key-slot cipher engine, entropy, derived keys and the key commands (chapter 15). -/

namespace Sys2Proof.Machine

/-- Key-slot request statuses (Table 15.4). -/
inductive KStatus
  | ok | stale | policy | empty | exhausted | noEntropy | malformed
deriving DecidableEq, Repr

/-- The code of a request status. -/
def KStatus.code : KStatus → Nat
  | ok => 0 | stale => 1 | policy => 2 | empty => 3 | exhausted => 4 | noEntropy => 5 | malformed => 6

/-- Usage bits of a slot in the order of DST_ATTR (Table 15.2). -/
def usEnc : Nat := 0
def usDec : Nat := 1
def usCtr : Nat := 2
def usDerive : Nat := 3
def usWrap : Nat := 4
def usExport : Nat := 5
def usUnwrap : Nat := 6

/-- Whether a slot carries a usage bit. -/
def KeySlot.may (k : KeySlot) (u : Nat) : Bool := k.usage.testBit u

/-- A half of a slot's key. -/
def KeySlot.half (k : KeySlot) (i : Nat) : BitVec 128 := (k.key >>> (128 * i)).setWidth 128

/-- A key with one half replaced. -/
def withHalf (key : BitVec 256) (i : Nat) (h : BitVec 128) : BitVec 256 :=
  let keep : BitVec 128 := (key >>> (128 * (1 - i))).setWidth 128
  (keep.setWidth 256 <<< (128 * (1 - i))) ||| (h.setWidth 256 <<< (128 * i))

/-- Whether the request reaches its destination slot under the limits of R396: `op` of the request, `via` the slot it goes
through. -/
def State.destAllowed (s : State) (via op d : Nat) : Bool :=
  if d = 0 || d = 3 || 64 ≤ d then false
  else if d = 1 || d = 2 then via == 0 && op == 1 && !(s.slot d).valid
  else if d = 6 then via == 3 && op == 1 && !(s.slot d).valid
  else if op = 2 then d == 4 || d == 5 || d == 7 || decide (32 ≤ d)
  else !(decide (23 ≤ d) && decide (d ≤ 31))

/-- A write of half i of slot d (R397). A write of half 1 needs half 0 of the same generation. Slot 6 never carries EXPORT (R396). -/
def State.writeHalf (s : State) (d i attr : Nat) (v : BitVec 128) : KStatus × State :=
  let k := s.slot d
  if i = 0 then
    let big := attr % 2 = 1
    let us := if d = 6 then setBit (attr / 2 % 128) usExport false else attr / 2 % 128
    (.ok, s.setSlot d { valid := !big, size256 := big, usage := us, gen := (k.gen + 1) % 256, halves := 1, ctr := 0,
                        exhausted := false, key := v.setWidth 256 })
  else if k.halves = 1 && k.size256 && !k.valid then
    (.ok, s.setSlot d { k with valid := true, halves := 2, ctr := 0, exhausted := false, key := withHalf k.key 1 v })
  else (.stale, s)

/-- A BCX key register of a tile. -/
def State.bcxKey (s : State) (t i : Nat) : BitVec 128 := amapGet 0 s.kse.bcx (t * 16 + i)

/-- Loads a BCX key register (Table 15.5) and shows which keys the BCX holds. -/
def State.loadBcx (s : State) (t i : Nat) (v : BitVec 128) : State :=
  let s1 := { s with kse := { s.kse with bcx := amapInsert (t * 16 + i) v (amapErase (t * 16 + i) s.kse.bcx) } }
  if i = 3 then s1.setF t BCX.STATUS.XTS_KEY 1
  else if i = 5 then s1.setF t BCX.STATUS.TX_SA 1
  else if i = 7 then s1.setF t BCX.STATUS.RX_SA 1
  else s1

/-- Routes an output: to a slot half, to a BCX key register, or back to the submitter. -/
def State.route (s : State) (q : KseReq) (v : BitVec 128) : KStatus × State × BitVec 128 :=
  if q.flags.testBit 1 then
    let r := s.writeHalf (q.dst % 64) (q.dst / 64 % 2) q.dstAttr v
    (r.1, r.2, 0)
  else if q.flags.testBit 2 then (.ok, s.loadBcx q.dstTile q.dst v, 0)
  else (.ok, s, v)

/-- Whether the usage bits and the limits of R396 allow an ENC (op 1) or DEC (op 2) request. -/
def State.kseAllowed (s : State) (q : KseReq) : Bool :=
  let k := s.slot q.slot
  let routed := q.flags.testBit 1 || q.flags.testBit 2
  let src := q.flags.testBit 0
  let dstOk := (!q.flags.testBit 1 || s.destAllowed q.slot q.op (q.dst % 64)) &&
    (!q.flags.testBit 2 || (decide (q.dst ≤ 8) && decide (q.dstTile < s.tiles)))
  if src then k.may usWrap && q.src % 64 != q.slot && (s.slot (q.src % 64)).may usExport && !routed
  else if q.op = 1 then (if routed then k.may usDerive && dstOk else k.may usEnc)
  else if q.flags.testBit 2 then false
  else if q.flags.testBit 1 then k.may usUnwrap && dstOk
  else k.may usDec

/-- Reserved fields, operation and flags of a request (Table 15.2). -/
def kseWellFormed (q : KseReq) : Bool :=
  q.rsv == 0 && (!q.flags.testBit 0 || decide (q.src < 128)) && (!q.flags.testBit 1 || decide (q.dst < 128)) && decide (1 ≤ q.op) && decide (q.op ≤ 4) && decide (q.flags < 8) &&
  !(q.flags.testBit 1 && q.flags.testBit 2) && !(q.op == 3 && (q.flags != 0 || q.data.toNat / 2 ^ 64 != 0)) &&
  !(q.op == 4 && (q.flags.testBit 0 || q.flags.testBit 2 || q.slot != 0xff))

/-- A completion goes to its submitter (Table 15.3). -/
def State.kseDone (s : State) (sub : Nat) (q : KseReq) (st : KStatus) (counter : Nat) (v : BitVec 128) : State :=
  let g := if q.flags.testBit 1 then (s.slot (q.dst % 64)).gen else (s.slot q.slot).gen
  let s1 := match st with
    | .stale => s.ev 0 KSE.EVENTS.STALE
    | .policy => s.ev 0 KSE.EVENTS.POLICY
    | _ => s
  s1.send (.kse sub q.tag st.code g counter (if st = .ok then v else 0))

/-- The free entries of a submitter's queue (R398). -/
def kseFree (sub : Nat) : Fld := ⟨0x39, 0x4, 8 * sub, 8⟩

/-- A request that enters its submitter's queue and executes (R398, R399); a full queue does not accept it. -/
def State.kseRequest (s : State) (sub : Nat) (q : KseReq) (run : State → State) : State :=
  if s.fld 0 (kseFree sub) = 0 then s.ev 0 KSE.EVENTS.QUEUE_FULL
  else if !kseWellFormed q then s.kseDone sub q .malformed 0 0
  else if q.op != 4 && !(s.slot q.slot).valid then s.kseDone sub q .empty 0 0
  else if q.op != 4 && (s.slot q.slot).gen != q.slotGen then s.kseDone sub q .stale 0 0
  else if q.flags.testBit 0 && !(s.slot (q.src % 64)).valid then s.kseDone sub q .empty 0 0
  else run s

/-- An ENC or DEC request at the engine. -/
def State.kseBlock (s : State) (sub : Nat) (q : KseReq) : State :=
  if !s.kseAllowed q then s.kseDone sub q .policy 0 0
  else
    let k := s.slot q.slot
    let x := if q.flags.testBit 0 then (s.slot (q.src % 64)).half (q.src / 64 % 2) else q.data
    let v := if q.op = 1 then Config.aesEnc k.size256 k.key x else Config.aesDec k.size256 k.key x
    let r := (s.bump 0 KSE.BLOCKS.COUNT 1).route q v
    r.2.1.kseDone sub q r.1 0 r.2.2

/-- A CTR request at the engine (R400): the counter never wraps. -/
def State.kseCtr (s : State) (sub : Nat) (q : KseReq) : State :=
  let k := s.slot q.slot
  if !k.may usCtr then s.kseDone sub q .policy 0 0
  else if k.exhausted then s.kseDone sub q .exhausted 0 0
  else
    let v := Config.aesEnc k.size256 k.key (BitVec.ofNat 128 (q.data.toNat % 2 ^ 64 + k.ctr * 2 ^ 64))
    let s1 := (s.setSlot q.slot { k with ctr := min (k.ctr + 1) (2 ^ 64 - 1), exhausted := k.ctr == 2 ^ 64 - 1 }).bump 0
      KSE.BLOCKS.COUNT 1
    (if k.ctr = 2 ^ 64 - 1 then s1.ev 0 KSE.EVENTS.EXHAUSTED else s1).kseDone sub q .ok k.ctr v

/-- A GENERATE request at the engine (R404, R405). -/
def State.kseGenerate (s : State) (sub : Nat) (q : KseReq) : State :=
  if q.flags.testBit 1 && !s.destAllowed 0xff 4 (q.dst % 64) then s.kseDone sub q .policy 0 0
  else match s.generate with
    | none => s.kseDone sub q .noEntropy 0 0
    | some (v, s1) =>
      let r := s1.route q v
      r.2.1.kseDone sub q r.1 0 r.2.2

/-- A submitter is one of four (R398); there is no other. -/
def onSubmitter (sub : Nat) (s x : State) : Host.Outcome State Fault Refusal :=
  .next (if sub < 4 then x else s)

/-- ENC -/
def execEnc (submitter : Nat) (q : KseReq) (s : State) : Host.Outcome State Fault Refusal :=
  let q := { q with op := 1 }
  onSubmitter submitter s (s.kseRequest submitter q (fun a => a.kseBlock submitter q))

/-- DEC -/
def execDec (submitter : Nat) (q : KseReq) (s : State) : Host.Outcome State Fault Refusal :=
  let q := { q with op := 2 }
  onSubmitter submitter s (s.kseRequest submitter q (fun a => a.kseBlock submitter q))

/-- CTR -/
def execCtr (submitter : Nat) (q : KseReq) (s : State) : Host.Outcome State Fault Refusal :=
  let q := { q with op := 3 }
  onSubmitter submitter s (s.kseRequest submitter q (fun a => a.kseCtr submitter q))

/-- GENERATE -/
def execGenerate (submitter : Nat) (q : KseReq) (s : State) : Host.Outcome State Fault Refusal :=
  let q := { q with op := 4 }
  onSubmitter submitter s (s.kseRequest submitter q (fun a => a.kseGenerate submitter q))

/-- DRBG_RESEED (R404) -/
def execDrbgReseed (s : State) : Host.Outcome State Fault Refusal :=
  .next { s with kse := { s.kse with sinceSeed := 0, seededAt := s.now } }

/-- A KEY_EVENT notification (Table 15.10): cause (0 entropy failed, 1 entropy dead, 2 role key changed, 3 pair key
changed, 4 KN exhausted; DEDUCED, log entry 13), tile, role. -/
def State.keyEvent (s : State) (cause t role : Nat) : State :=
  s.notify 0x0AF0 (build339 [(1, cause), (1, t), (1, role)])

/-- A health test fails (R405): the DRBG stops giving output; the third failure within 60 s latches ENTROPY_DEAD. -/
def State.healthFail (s : State) : State :=
  let fs := s.kse.fails.filter (fun x => decide (s.now ≤ x + 60000000)) ++ [s.now]
  let s1 := { s with kse := { s.kse with fails := fs } }.setF 0 KSE.STATUS.ENTROPY_OK 0
  let s2 := ((s1.bump 0 KSE.HEALTH_FAILS.COUNT 1).evRec 0 KSE.EVENTS.HEALTH_FAIL 0).keyEvent 0 0 0
  if 3 ≤ fs.length then (s2.setF 0 KSE.STATUS.ENTROPY_DEAD 1).keyEvent 1 0 0 else s2

/-- HEALTH_FAIL -/
def execHealthFail (s : State) : Host.Outcome State Fault Refusal := .next s.healthFail

/-- ENTROPY_RESTART: 10 ms after a failure the source restarts with its start-up tests (R405). -/
def execEntropyRestart (ok : Bool) (s : State) : Host.Outcome State Fault Refusal :=
  .next (if s.flag 0 KSE.STATUS.ENTROPY_DEAD || s.flag 0 KSE.STATUS.ENTROPY_OK || s.kse.fails.any (fun x => decide (s.now < x + 10000)) then s
    else if ok then { s with kse := { s.kse with sinceSeed := 0, seededAt := s.now } }.setF 0 KSE.STATUS.ENTROPY_OK 1
    else s.healthFail)

/-- KSE_QUEUE_CHECK (R398): a mismatch records an event and resets the queue once it has drained. -/
def execKseQueueCheck (submitter free : Nat) (s : State) : Host.Outcome State Fault Refusal :=
  onSubmitter submitter s (if s.fld 0 (kseFree submitter) = free then s
    else (s.recOpen 0 0x39 submitter).setF 0 (kseFree submitter) 32)

/-! ### Derived keys (R401) -/

/-- The derivation block of Table 15.5. -/
def deriveBlock (label : List Nat) (context tile half : Nat) (size256 : Bool) : BitVec 128 :=
  blockOf (label.map (BitVec.ofNat 8) ++ leBytes 8 context ++ leBytes 1 tile ++ leBytes 1 half ++ leBytes 1 (b2n size256) ++
    [0#8])

/-- A 256-bit key derived through a slot. -/
def State.derive (s : State) (parent : Nat) (label : List Nat) (context tile : Nat) : BitVec 256 :=
  let k := s.slot parent
  withHalf ((k.enc (deriveBlock label context tile 0 true)).setWidth 256) 1
    (k.enc (deriveBlock label context tile 1 true))

/-- Loads a slot whole, as two half writes of R397 do. -/
def State.loadSlot (s : State) (n usage : Nat) (size256 : Bool) (key : BitVec 256) : State :=
  s.setSlot n ⟨true, size256, usage, ((s.slot n).gen + 1) % 256, if size256 then 2 else 1, 0, false, key⟩

/-- The labels of Table 15.5. -/
def lblSwrp : List Nat := [0x53, 0x57, 0x52, 0x50]
def lblSmac : List Nat := [0x53, 0x4D, 0x41, 0x43]
def lblRole : List Nat := [0x52, 0x4F, 0x4C, 0x45]
def lblXtsd : List Nat := [0x58, 0x54, 0x53, 0x44]
def lblXtst : List Nat := [0x58, 0x54, 0x53, 0x54]
def lblMsak : List Nat := [0x4D, 0x53, 0x41, 0x4B]
def lblMslt : List Nat := [0x4D, 0x53, 0x4C, 0x54]

/-- Slots 1 and 2 from slot 0 (R406, Table 15.5). -/
def State.deriveStoreKeys (s : State) : State :=
  (s.loadSlot 1 0x53 true (s.derive 0 lblSwrp 0 0)).loadSlot 2 0x01 true (s.derive 0 lblSmac 0 0)

/-- The wrap record of a slot with the higher SERIAL whose TAG checks (R403). -/
def State.wrapOf (s : State) (n : Nat) : Option WrapRec :=
  (s.nv.wraps.filter (fun w => w.slot == n)).foldl (fun best w =>
    let ok := cmac (s.slot 2).enc (leBytes 2 0x4B57 ++ leBytes 1 w.slot ++ leBytes 1 w.attr ++ leBytes 4 w.serial ++
      leBytes 8 0 ++ w.ct) == w.tag
    match best with
    | none => if ok then some w else none
    | some b => if ok && decide (b.serial < w.serial) then some w else some b) none

/-- The key that a wrap record holds, decrypted through slot 1. -/
def State.unwrapKey (s : State) (w : WrapRec) : BitVec 256 :=
  let k := s.slot 1
  let d := fun i => Config.aesDec k.size256 k.key (blockOf (w.ct.drop (16 * i)))
  if w.attr % 2 = 1 then withHalf ((d 0).setWidth 256) 1 (d 1) else (d 0).setWidth 256

/-- Writes the wrap record of a slot over the copy with the lower SERIAL (R403). -/
def State.writeWrap (s : State) (n : Nat) : State :=
  let k := s.slot n
  let e := fun i => blockBytes ((s.slot 1).enc (k.half i))
  let ct := e 0 ++ (if k.size256 then e 1 else List.replicate 16 0#8)
  let old := s.nv.wraps.filter (fun w => w.slot == n)
  let top := (old.map (·.serial)).foldl max 0
  let attr := b2n k.size256 + k.usage * 2
  let tag := cmac (s.slot 2).enc (leBytes 2 0x4B57 ++ leBytes 1 n ++ leBytes 1 attr ++ leBytes 4 (top + 1) ++
    leBytes 8 0 ++ ct)
  { s with nv := { s.nv with wraps := s.nv.wraps.filter (fun w => w.slot != n || w.serial == top) ++
      [⟨n, attr, top + 1, ct, tag⟩] } }

/-- A role slot at start-up: its wrap record, else the initial key (R407). -/
def State.restoreRole (s : State) (r : Nat) : State :=
  let n := roleSlot r
  match s.wrapOf n with
  | some w => (s.loadSlot n (w.attr / 2) (w.attr % 2 == 1) (s.unwrapKey w)).setF 0 KSE.STATUS.INIT_KEYS
      (setBit (s.fld 0 KSE.STATUS.INIT_KEYS) (r - 1) false)
  | none => (s.loadSlot n 0x29 true (s.derive 3 lblRole s.unitId r)).setF 0 KSE.STATUS.INIT_KEYS
      (setBit (s.fld 0 KSE.STATUS.INIT_KEYS) (r - 1) true)

/-- The pair slot at start-up: its wrap record, else empty (Table 15.1). -/
def State.restorePair (s : State) : State :=
  match s.wrapOf 7 with
  | some w => s.loadSlot 7 (w.attr / 2) (w.attr % 2 == 1) (s.unwrapKey w)
  | none => s

/-- The deep key epoch of a tile (R408). -/
def State.deepEpoch (s : State) (t : Nat) : Nat := amapGet 0 s.nv.deepEpoch t

/-- The XTS keys of a tile's BCX at its deep key epoch (R406, R408). -/
def State.loadXts (s : State) (t : Nat) : State :=
  let e := s.deepEpoch t
  let d := s.derive 0 lblXtsd e t
  let w := s.derive 0 lblXtst e t
  ((((s.loadBcx t 0 (d.setWidth 128)).loadBcx t 1 ((d >>> 128).setWidth 128)).loadBcx t 2 (w.setWidth 128)).loadBcx t 3
    ((w >>> 128).setWidth 128)).setF t BCX.DEEP_EPOCH.EPOCH e

/-- The key work of start-up: root seeds from the OTP row by hardware (R406), then the derived and restored slots. -/
def State.loadRoots (s : State) : State :=
  (s.loadSlot 0 0x08 true (BitVec.ofNat 256 (leNat ((s.granule 2).take 32)))).loadSlot 3 0x08 true
    (BitVec.ofNat 256 (leNat ((s.granule 3).take 32)))

/-- Every key of R406 that the firmware derives or restores. -/
def State.loadKeys (s : State) : State :=
  let s1 := (s.deriveStoreKeys.restoreRole 1).restoreRole 2
  let s2 := (s1.loadSlot 6 0x09 true (s1.derive 3 lblRole s1.unitId 3)).restorePair
  s2.allTiles (fun t a => a.loadXts t)

/-! ### Twin-link keys (R409 to R412) -/

/-- The CONTEXT of a link key: KN, then the sender's MAC in network order (R409). -/
def linkContext (kn mac : Nat) : Nat := leNat (leBytes 2 kn ++ beBytes 6 mac)

/-- Derives and loads a transmit association (registers 4, 5 and 8) or a receive association (6, 7). -/
def State.loadLinkKey (s : State) (t kn mac reg : Nat) : State :=
  let k := s.derive 7 lblMsak (linkContext kn mac) t
  let s1 := (s.loadBcx t reg (k.setWidth 128)).loadBcx t (reg + 1) ((k >>> 128).setWidth 128)
  if reg = 4 then s1.loadBcx t 8 (((s.slot 7).enc (deriveBlock lblMslt (linkContext kn mac) t 0 true)) &&&
    BitVec.ofNat 128 (2 ^ 96 - 1)) else s1

/-- The transmitter of tile t moves to KN + 1, its reservation of 256 values committed first (R410, R418); past 0xFFFF the link carries no further frames. -/
def State.advanceKn (s : State) (t : Nat) : State :=
  let kn := amapGet 0 s.nv.txKn t + 1
  if 0xFFFF < kn then
    ((s.setFs t [(TWL.STATUS.SECURED, 0), (TWL.STATUS.PAIRED, 0), (BCX.STATUS.TX_SA, 0)]).ev t
      BCX.EVENTS.KN_EXHAUSTED).keyEvent 4 t 0
  else
    let s1 := { s with nv := { s.nv with
      txKn := amapSet 0 s.nv.txKn t kn
      txResv := if amapGet 0 s.nv.txResv t < kn then amapSet 0 s.nv.txResv t (kn + 255) else s.nv.txResv } }
    (((s1.updTwl t (fun y => { y with txPn := 1 })).setF t BCX.STATUS.TX_KN kn).ev t BCX.EVENTS.KN_SWITCH).loadLinkKey t kn
      (s1.twlMac t) 4

/-! ### Key commands -/

/-- KEY_STATUS: per slot VALID, size, usage, generation; INIT_KEYS; entropy state; per tile XTS key, epoch, TX_KN, RX_KN. -/
def cmdKeyStatus : Cmd := readCmd 0x0A00 .reading noArgs
  (fun _ _ s =>
    let h := buildList 0 4 ((List.range 64).map (fun n =>
      let k := s.slot n
      build339 [(1, b2n k.valid), (1, b2n k.size256), (1, k.usage), (1, k.gen)] |>.take 4))
    let m := h ++ leBytes 1 (s.fld 0 KSE.STATUS.INIT_KEYS) ++
      leBytes 1 (s.fld 0 KSE.STATUS.ENTROPY_OK + 2 * s.fld 0 KSE.STATUS.ENTROPY_DEAD)
    .reply s (pad8 (m ++ buildList m.length 12 ((List.range s.tiles).map (fun t =>
      (build339 [(1, s.fld t BCX.STATUS.XTS_KEY), (4, s.fld t BCX.DEEP_EPOCH.EPOCH), (2, s.fld t BCX.STATUS.TX_KN),
        (2, s.fld t BCX.RX_KN.KN)]).take 12)))))

/-- The payload of Table 15.7: roles it may name, sizes it may name. -/
def keySetCheck (roles sizes : List Nat) (pl : List Byte) : Bool :=
  pl.length == 56 && roles.contains (natAt pl 0 1) && sizes.contains (natAt pl 1 1) && natAt pl 2 6 == 0 &&
  (natAt pl 1 1 == 1 || natAt pl 0x18 16 == 0)

/-- The session key of a caller. -/
def State.callerKey (s : State) (c : Caller) : BitVec 128 := ((s.sessionAt c.point).map (·.key)).getD 0

/-- The key of Table 15.7's CT under the session key. -/
def keyFromCt (ks : BitVec 128) (size256 : Bool) (ct : List Byte) : BitVec 256 :=
  let d := fun i => Config.aesDec false (ks.setWidth 256) (blockOf (ct.drop (16 * i)))
  if size256 then withHalf ((d 0).setWidth 256) 1 (d 1) else (d 0).setWidth 256

/-- KEY_ROLE_SET (R407): TAG, slot, wrap record, response, then the role's sessions end. -/
def cmdKeyRoleSet : Cmd := actCmd 0x0A01 [2] .firmware (fun _ pl => keySetCheck [1, 2] [0, 1] pl)
  (fun c pl s =>
    let ks := s.callerKey c
    let r := natAt pl 0 1
    let big := natAt pl 1 1 == 1
    if cmac (aes128 ks) (tagBytes 0x42 0x58 0x52 0x31 ++ pl.take 0x28) != blockOf (pl.drop 0x28) then .done s .deniedRole
    else
      let s1 := (s.loadSlot (roleSlot r) 0x29 big (keyFromCt ks big (pl.drop 8))).writeWrap (roleSlot r)
      let s2 := s1.setF 0 KSE.STATUS.INIT_KEYS (setBit (s1.fld 0 KSE.STATUS.INIT_KEYS) (r - 1) false)
      ⟨s2, .ok, [], fun a => (a.keyEvent 2 0 r).endRole r, none⟩)

/-- Every twin link that is up is secured anew, the others at their next link-up; a resynchronisation restarts from the divergence words (R412). -/
def State.resecure (s : State) : State :=
  let s1 := { s with nv := { s.nv with txKn := [], txResv := [], rxMac := [], rxKn := [] } }.stopResync
  s1.allTiles (fun t a =>
    let b := a.setFs t [(TWL.STATUS.SECURED, 0), (TWL.STATUS.PAIRED, 0), (BCX.STATUS.RX_SA, 0), (BCX.RX_KN.KN, 0)]
    if b.flag t TWL.STATUS.LINK_UP then b.advanceKn t else b.setFs t [(BCX.STATUS.TX_SA, 0), (BCX.STATUS.TX_KN, 0)])

/-- KEY_PAIR_SET (R412). -/
def cmdKeyPairSet : Cmd := { actCmd 0x0A02 [2] .firmware (fun _ pl => keySetCheck [0] [1] pl)
  (fun c pl s =>
    let ks := s.callerKey c
    if cmac (aes128 ks) (tagBytes 0x42 0x58 0x50 0x31 ++ pl.take 0x28) != blockOf (pl.drop 0x28) then .done s .deniedRole
    else ⟨((s.loadSlot 7 0x28 true (keyFromCt ks true (pl.drop 8))).writeWrap 7).resecure, .ok, [],
      fun a => a.keyEvent 3 0 0, none⟩)
  with ready := fun s _ => !(s.role == .active || s.role == .standby) }

/-- KEY_MACSEC_REKEY: every tile's transmitter to KN + 1; STATE_CONFLICT when no link is secured (R410). -/
def cmdKeyMacsecRekey : Cmd := { actCmd 0x0A03 [2] .firmware noArgs
  (fun _ _ s => .done (s.allTiles (fun t a => a.advanceKn t)) .ok)
  with ready := fun s _ => s.anyTile (fun t => s.flag t TWL.STATUS.SECURED) }

/-- KEY_SELFTEST: a failure enters FAULT with cause bit 11. -/
def cmdKeySelftest (ok : Bool) : Cmd := actCmd 0x0A04 [3] .firmware noArgs
  (fun _ _ s => if ok then .done s .ok else
    ⟨s.ev 0 KSE.EVENTS.KAT_FAIL, .ok, [], fun a => a.enterFault 11, none⟩)

/-- KEY_STATUS -/
def execKeyStatus (f : Frame) (s : State) : Host.Outcome State Fault Refusal := .next (mailbox cmdKeyStatus f s)

/-- KEY_ROLE_SET -/
def execKeyRoleSet (f : Frame) (s : State) : Host.Outcome State Fault Refusal := .next (mailbox cmdKeyRoleSet f s)

/-- KEY_PAIR_SET -/
def execKeyPairSet (f : Frame) (s : State) : Host.Outcome State Fault Refusal := .next (mailbox cmdKeyPairSet f s)

/-- KEY_MACSEC_REKEY -/
def execKeyMacsecRekey (f : Frame) (s : State) : Host.Outcome State Fault Refusal := .next (mailbox cmdKeyMacsecRekey f s)

/-- KEY_SELFTEST -/
def execKeySelftest (f : Frame) (ok : Bool) (s : State) : Host.Outcome State Fault Refusal :=
  .next (mailbox (cmdKeySelftest ok) f s)

end Sys2Proof.Machine
end

