-- ==== Sys2Proof/Machine/NvStore.lean ====
section
/-! DEFINITION. The embedded nonvolatile store and the OTP row (chapter 16). -/

namespace Sys2Proof.Machine

/-- The array locks without starting (R419). -/
def State.nvsLock (s : State) (t : Nat) : State :=
  (s.updArray t (fun a => { a with step := 0 })).setF t NVS.STATUS.UNLOCKED 0

/-- The array locks and NVS.EVENTS.KEY_FAIL is set (R419). -/
def State.nvsKeyFail (s : State) (t : Nat) : State := (s.nvsLock t).ev t NVS.EVENTS.KEY_FAIL

/-- A write of NVS.KEY (R419). -/
def State.nvsKey (s : State) (t master value : Nat) (late : Bool) : State :=
  let a := s.array t
  if s.flag t NVS.CMD.BUSY then s.ev t NVS.EVENTS.KEY_FAIL
  else if a.step = 0 then
    if value = 0x6C17 then s.updArray t (fun a => { a with step := 1, master := master }) else s
  else if a.master != master then s.nvsKeyFail t
  else if a.step = 1 then
    if value = 0x93E8 && !late then
      (s.updArray t (fun a => { a with step := 2 })).setF t NVS.STATUS.UNLOCKED 1
    else s.nvsKeyFail t
  else s

/-- Starts an array operation that the unlock sequence allows (R419): the operation and its effect run when the array is
unlocked by the same master; another master's write locks the array; a locked array starts nothing. -/
def State.nvsStart (s : State) (t master op addr : Nat) (run : State → State × Nat) : State :=
  let a := s.array t
  if a.step = 0 then s
  else if a.master != master then s.nvsKeyFail t
  else if a.step = 1 then s
  else
    let s1 := ((s.nvsLock t).setF t NVS.CMD.BUSY 1).setF t NVS.ADDR.WORD (addr / 8)
    let (s2, r) := if addr < 0x800000 then run s1 else (s1, 7)
    s2.updArray t (fun a => { a with busy := some ⟨op, addr, r⟩ })

/-- A sector's first word. -/
def sectorOf (addr : Nat) : Nat := addr / 2048

/-- A PROGRAM of one word (R420): NOT_ERASED without a pulse; else up to 16 pulses, and after 16 the contents are
undefined (a free value). -/
def State.nvsProgram (s : State) (t addr data pulses : Nat) : State × Nat :=
  let w := addr / 8
  if !s.wordErased t w then ((s.ev t NVS.EVENTS.NOT_ERASED).setF t NVS.STATUS.PULSES 0, 2)
  else if data % 2 ^ 64 = 2 ^ 64 - 1 then (s.setF t NVS.STATUS.PULSES 0, 1)
  else
    let s1 := s.bump t NVS.PROGRAMS.COUNT 1
    if pulses ≤ 16 then
      let s2 := (s1.setBytes .nvs t (w * 8) (leBytes 8 data)).setF t NVS.STATUS.PULSES pulses
      if s.fld t NVS.WEAR_TH.PULSE_WARN < pulses then
        (if (s2.array t).warned.contains (sectorOf addr) then s2.ev t NVS.EVENTS.WEAR_WARN
         else (s2.updArray t (fun a => { a with warned := a.warned ++ [sectorOf addr] })).evRec t NVS.EVENTS.WEAR_WARN
           (sectorOf addr), 1)
      else (s2, 1)
    else
      let (v, s2) := s1.draw
      (((s2.setBytes .nvs t (w * 8) (leBytes 8 v)).setF t NVS.STATUS.PULSES 16).ev t NVS.EVENTS.VERIFY_FAIL, 3)

/-- An ERASE of one sector (R415); one that fails its blank check leaves the sector half-erased. -/
def State.nvsErase (s : State) (t addr : Nat) (ok : Bool) : State × Nat :=
  let n := sectorOf addr
  if ok then (s.eraseSectors t (n * 2048) 2048, 1)
  else
    let s1 := (s.bump t NVS.ERASES.COUNT 1).updArray t (fun a =>
      { a with erases := amapSet 0 a.erases n (amapGet 0 a.erases n + 1) })
    ((s1.updArray t (fun a => { a with halfErased := a.halfErased.filter (fun x => x != n) ++ [n] })).ev t
      NVS.EVENTS.VERIFY_FAIL, 3)

/-- A SWAP of one sector onto the lowest free spare (R424): its correctable words are kept, the others read erased; with no spare the sector can
only be read. -/
def State.nvsSwap (s : State) (t addr : Nat) : State × Nat :=
  let n := sectorOf addr
  let free := s.fld t NVS.STATUS.SPARE_FREE
  if free = 0 then (s.updArray t (fun a => { a with stuck := a.stuck.filter (fun x => x != n) ++ [n] }), 6)
  else
    let bad := (s.array t).badWords.filter (fun w => w / 256 == n)
    let s1 := bad.foldl (fun a w => a.wipe .nvs t (w * 8) 8) s
    let s2 := (s1.updArray t (fun a =>
      { a with map := amapInsert n (64 - free) (amapErase n a.map), warned := a.warned.filter (fun x => x != n),
               halfErased := a.halfErased.filter (fun x => x != n), marginal := a.marginal.filter (fun x => x != n),
               badWords := a.badWords.filter (fun w => w / 256 != n) })).setF t NVS.STATUS.SPARE_FREE (free - 1)
    let s3 := s2.ev t NVS.EVENTS.SWAPPED
    (if free - 1 < 8 then s3.evRec t NVS.EVENTS.SPARE_LOW (free - 1) else s3, 1)

/-- A SWAP begins: the map entry is committed last, at its end (R422, R424); with no spare it ends at once. -/
def State.swapBegin (s : State) (t addr : Nat) : State × Nat :=
  if s.fld t NVS.STATUS.SPARE_FREE = 0 then s.nvsSwap t addr else (s, 1)

/-- A command is about to erase or program the sectors of a range: one that is warned is swapped before its next erase (R423), one whose margin
differs at its next update (R425). -/
def State.freshen (s : State) (t a n : Nat) (erase : Bool) : State :=
  let x := s.array t
  let ns := (x.marginal ++ (if erase then x.warned else [])).filter (fun k => decide (a / 2048 ≤ k) && decide (k * 2048 < a + n))
  ns.dedup.foldl (fun b k => (b.nvsSwap t (k * 2048)).1) s

/-- Whether a sector of a range can no longer be written: a command that needs to answers MEDIA_ERROR (R424). -/
def State.cannotWrite (s : State) (t a n : Nat) : Bool :=
  (s.array t).stuck.any (fun k => decide (a / 2048 ≤ k) && decide (k * 2048 < a + n))

/-- Whether a word of a range reads uncorrectable. -/
def State.badRange (s : State) (t a n : Nat) : Bool := (s.array t).badWords.any (fun w => decide (a < w * 8 + 8) && decide (w * 8 < a + n))

/-- PROGRAM -/
def execProgram (tile master addr data pulses : Nat) (s : State) : Host.Outcome State Fault Refusal :=
  onTile tile s (s.nvsStart tile master 1 addr (fun a =>
    (((a.setF tile NVS.DATA_LO.DATA data).setF tile NVS.DATA_HI.DATA (data / 2 ^ 32)).nvsProgram tile addr data pulses)))

/-- ERASE: once Freeze has started the firmware starts none (R422). -/
def execErase (tile master addr : Nat) (ok : Bool) (s : State) : Host.Outcome State Fault Refusal :=
  onTile tile s (if s.dstate == .freeze then s
    else s.nvsStart tile master 2 addr (fun a => a.nvsErase tile addr ok))

/-- BLANK_CHECK -/
def execBlankCheck (tile master addr : Nat) (s : State) : Host.Outcome State Fault Refusal :=
  onTile tile s (s.nvsStart tile master 3 addr (fun a =>
    (a, if (List.range 256).all (fun i => a.wordErased tile (sectorOf addr * 256 + i)) &&
          !(a.array tile).halfErased.contains (sectorOf addr) then 1 else 4)))

/-- A sector whose words differ at the margin level (R425). -/
def State.marginFound (s : State) (t n : Nat) : State :=
  s.updArray t (fun a => { a with marginal := a.marginal.filter (fun x => x != n) ++ [n] })

/-- MARGIN_READ -/
def execMarginRead (tile master addr : Nat) (differs : Bool) (s : State) : Host.Outcome State Fault Refusal :=
  onTile tile s (s.nvsStart tile master 4 addr (fun a =>
    if differs then (a.marginFound tile (sectorOf addr), 5) else (a, 1)))

/-- SWAP: once Freeze has started the firmware starts none (R422). -/
def execSwap (tile master addr : Nat) (s : State) : Host.Outcome State Fault Refusal :=
  onTile tile s (if s.dstate == .freeze then s else s.nvsStart tile master 5 addr (fun a => a.swapBegin tile addr))

/-- An operation that a register write starts (R419), with outcomes left free (DESIGN CHOICE, log entry 6). -/
def State.nvsRun (s : State) (t op : Nat) : State :=
  let addr := 8 * s.fld t NVS.ADDR.WORD
  let (v, s1) := s.draw
  s1.nvsStart t (s1.array t).master op addr (fun a =>
    match op with
    | 1 => a.nvsProgram t addr (a.fld t NVS.DATA_LO.DATA + 2 ^ 32 * a.fld t NVS.DATA_HI.DATA) (v % 17 + 1)
    | 2 => a.nvsErase t addr (v % 2 == 1)
    | 3 => (a, if (List.range 256).all (fun i => a.wordErased t (sectorOf addr * 256 + i)) &&
        !(a.array t).halfErased.contains (sectorOf addr) then 1 else 4)
    | 4 => if v % 2 = 1 then (a.updArray t (fun x => { x with marginal := x.marginal.filter (fun y => y != sectorOf addr) ++ [sectorOf addr] }), 5)
      else (a, 1)
    | 5 => a.swapBegin t addr
    | _ => (a, 0))

/-- A write of NVS.KEY, CMD, ADDR, DATA_LO or DATA_HI by the firmware (R419, Table 16.5): the unlock sequence of the master that began it, the
operation, and the fields; the array being unlocked, PROGRAM starts with DATA_HI and the others with ADDR. -/
def State.nvsRegWrite (s : State) (t off w : Nat) : State :=
  let open' := (s.array t).step == 2
  let op := (s.array t).op
  match off with
  | 0x00 => s.nvsKey t (s.array t).master (w % 65536) false
  | 0x04 => s.updArray t (fun a => { a with op := w % 8 })
  | 0x08 =>
    let s1 := s.setF t NVS.ADDR.WORD (bitsOf w 3 20)
    if open' && decide (2 ≤ op) && decide (op ≤ 5) then s1.nvsRun t op else s1
  | 0x0c => s.setF t NVS.DATA_LO.DATA w
  | 0x10 =>
    let s1 := s.setF t NVS.DATA_HI.DATA w
    if open' && op == 1 then s1.nvsRun t 1 else s1
  | _ => s

/-- NVS_OPERATION_END: BUSY clears and RESULT shows; a SWAP commits its map entry. -/
def execNvsOperationEnd (tile : Nat) (s0 : State) : Host.Outcome State Fault Refusal :=
  onTile tile s0 (match (s0.array tile).busy with
    | some o =>
      let s := if o.op = 5 && o.result = 1 then (s0.nvsSwap tile o.addr).1 else s0
      ((s.updArray tile (fun a => { a with busy := none })).setF tile NVS.CMD.BUSY 0).setF tile NVS.CMD.RESULT
        o.result
    | none => s0)

/-- NVS_KEY_WRITE -/
def execNvsKeyWrite (tile master value : Nat) (late : Bool) (s : State) : Host.Outcome State Fault Refusal :=
  onTile tile s (s.nvsKey tile master value late)

/-- NVS_UNLOCK_TIMEOUT: 1,024 cycles after the unlock without a start (R419). -/
def execNvsUnlockTimeout (tile : Nat) (s : State) : Host.Outcome State Fault Refusal :=
  onTile tile s (if (s.array tile).step = 2 then s.nvsKeyFail tile else s)

/-- MARGIN_SCHEDULE: in SERVICE and RESTRICTED (R425). -/
def execMarginSchedule (tile : Nat) (differ : List Nat) (s : State) : Host.Outcome State Fault Refusal :=
  onTile tile s (if s.dstate == .service || s.dstate == .restricted then
    differ.foldl (fun a n => a.marginFound tile n) s else s)

/-- NV_STATUS: per tile, spare sectors free, warned sectors, highest and mean erase counts, ECC counts. -/
def cmdNvStatus : Cmd := readCmd 0x0920 .reading noArgs
  (fun _ _ s => .reply s (buildWithList [] 16 ((List.range s.tiles).map (fun t =>
    let a := s.array t
    build339 [(1, s.fld t NVS.STATUS.SPARE_FREE), (2, a.warned.length), (4, (a.erases.map (·.2)).foldl max 0),
      (4, (a.erases.map (·.2)).sum / 4096), (2, s.fld t NVS.ECC.CORR), (2, s.fld t NVS.ECC.UNCORR)]))))

/-- The FACT area (Table 16.1). -/
def factBase : Nat := 0x7C0000

/-- NV_FACTORY_READ: OFFSET, LENGTH, of tile 0's factory pages (DESIGN CHOICE, log entry 12). -/
def cmdNvFactoryRead : Cmd := { actCmd 0x0921 [3] .firmware
  (fun _ pl => match parse339 [4, 2] pl with
    | some [o, n] => o % 8 == 0 && decide (n ≤ 4096) && decide (o + n ≤ 0x40000)
    | _ => false)
  (fun _ pl s =>
    let a := factBase + fieldAt [4, 2] pl 0
    if s.badRange 0 a (fieldAt [4, 2] pl 1) then .done ((s.bump 0 NVS.ECC.UNCORR 1).ev 0 NVS.EVENTS.ECC_UNCORR) .mediaError
    else .reply s (s.bytes .nvs 0 a (fieldAt [4, 2] pl 1))) with acting := false }

/-- NV_FACTORY_WRITE: OFFSET, then words; no word is written where one is not erased (R420). -/
def cmdNvFactoryWrite : Cmd := actCmd 0x0922 [3] .firmware
  (fun _ pl => match parseTail [4] 8 pl with
    | some ([o], d) => o % 8 == 0 && d.length % 8 == 0 && !d.isEmpty && decide (o + d.length ≤ 0x40000)
    | _ => false)
  (fun _ pl s0 =>
    let a := factBase + natAt pl 0 4
    let d := pl.drop 8
    let s := s0.freshen 0 a d.length false
    if s.cannotWrite 0 a d.length then .done s .mediaError
    else if s.rangeErased 0 a d.length then .done (s.programBytes 0 a d) .ok
    else .done (s.ev 0 NVS.EVENTS.NOT_ERASED) .notErased)

/-- NV_FACTORY_ERASE: OFFSET and LENGTH of whole sectors. -/
def cmdNvFactoryErase : Cmd := actCmd 0x0923 [3] .firmware
  (fun _ pl => match parse339 [4, 4] pl with
    | some [o, n] => o % 2048 == 0 && n % 2048 == 0 && decide (1 ≤ n) && decide (o + n ≤ 0x40000)
    | _ => false)
  (fun _ pl s =>
    let f := fieldAt [4, 4] pl
    let s1 := s.freshen 0 (factBase + f 0) (f 1) true
    if s1.cannotWrite 0 (factBase + f 0) (f 1) then .done s1 .mediaError
    else .done (s1.eraseSectors 0 (factBase + f 0) (f 1)) .ok)

/-- NV_SCAN: TILE. -/
def cmdNvScan (differ : List Nat) : Cmd := actCmd 0x0924 [2] .config
  (fun s pl => match parse339 [1] pl with
    | some [t] => decide (t < s.tiles)
    | _ => false)
  (fun _ pl s => .done (differ.foldl (fun a n => a.marginFound (fieldAt [1] pl 0) n) s) .ok)

/-- OTP_READ: identity, key hash, trims, MAKER granules, LOCK, FROM_COPY; the seeds are left out (R429). -/
def cmdOtpRead : Cmd := readCmd 0x0930 .reading noArgs
  (fun _ _ s => .reply s (([0, 1] ++ (List.range 59).map (· + 4)).flatMap s.granule ++ s.otpBytes 0 0xFF8 8 ++
    leBytes 4 (s.fld 0 OTP.STATUS_LO.FROM_COPY) ++ leBytes 4 (s.fld 0 OTP.STATUS_HI.FROM_COPY)))

/-- Whether a granule is locked in a copy. -/
def State.otpLocked (s : State) (c g : Nat) : Bool := (leNat (s.otpBytes c 0xFF8 8)).testBit g

/-- The hottest die, 0.1 °C, signed. -/
def State.hottest (s : State) : Int :=
  ((List.range s.tiles).map (fun t =>
    let v := s.fld t BST.MON.TEMP
    if v < 32768 then (v : Int) else (v : Int) - 65536)).foldl max (-32768)

/-- OTP_PROGRAM (R430): GRANULE, then its 64 bytes from offset 8 (DESIGN CHOICE, log entry 12). -/
def cmdOtpProgram (ok : Bool) : Cmd := { actCmd 0x0931 [3] .firmware
  (fun _ pl => match parseTail [1] 8 pl with
    | some ([g], d) => decide (12 ≤ g) && decide (g ≤ 62) && d.length == 64
    | _ => false)
  (fun _ pl s =>
    let g := natAt pl 0 1
    let d := pl.drop 8
    if s.otpLocked 0 g || s.otpLocked 1 g then .done s .stateConflict
    else if leNat (s.otpBytes 0 (g * 64) 64) != 0 || leNat (s.otpBytes 1 (g * 64) 64) != 0 then .done s .notErased
    else if ok then
      let lock := leBytes 8 (2 ^ g)
      .done ((((s.fuseBytes 0 (g * 64) d).fuseBytes 1 (g * 64) d).fuseBytes 0 0xFF8 lock).fuseBytes 1 0xFF8 lock) .ok
    else
      let (v, s1) := s.draw
      .done ((s1.fuseBytes 0 (g * 64) ((d.zip (leBytes 64 v)).map (fun x => x.1 &&& x.2))).ev 0 OTP.EVENTS.PROG_FAIL)
        .mediaError)
  with ready := fun s _ => (s.dstate == .service || s.dstate == .restricted) && decide (s.hottest ≤ 850) }

/-- NV_STATUS -/
def execNvStatus (f : Frame) (s : State) : Host.Outcome State Fault Refusal := .next (mailbox cmdNvStatus f s)

/-- NV_FACTORY_READ -/
def execNvFactoryRead (f : Frame) (s : State) : Host.Outcome State Fault Refusal := .next (mailbox cmdNvFactoryRead f s)

/-- NV_FACTORY_WRITE -/
def execNvFactoryWrite (f : Frame) (s : State) : Host.Outcome State Fault Refusal := .next (mailbox cmdNvFactoryWrite f s)

/-- NV_FACTORY_ERASE -/
def execNvFactoryErase (f : Frame) (s : State) : Host.Outcome State Fault Refusal := .next (mailbox cmdNvFactoryErase f s)

/-- NV_SCAN -/
def execNvScan (f : Frame) (differ : List Nat) (s : State) : Host.Outcome State Fault Refusal :=
  .next (mailbox (cmdNvScan differ) f s)

/-- OTP_READ -/
def execOtpRead (f : Frame) (s : State) : Host.Outcome State Fault Refusal := .next (mailbox cmdOtpRead f s)

/-- OTP_PROGRAM -/
def execOtpProgram (f : Frame) (ok : Bool) (s : State) : Host.Outcome State Fault Refusal :=
  .next (mailbox (cmdOtpProgram ok) f s)

end Sys2Proof.Machine
end

