-- ==== Sys2Proof/Machine/Firmware.lean ====
section
/-! DEFINITION. Firmware images, slots, the boot selector and the firmware commands (R361 to R368, R377). -/

namespace Sys2Proof.Machine

/-- The OTP row's maker key hash (Table 16.3). -/
def State.makerHash (s : State) : List Byte := (s.granule 1).take 48

/-- The image of a component in a slot passes the checks of R362 on header, key hash, signature and SVN. -/
def State.imageOk (s : State) (slot c : Nat) : Bool :=
  let b := compBase c
  let n := s.slotNat slot (b + 0x10) 4
  s.slotNat slot b 4 == 0x494D5842 && s.slotNat slot (b + 4) 2 == 1 && s.slotNat slot (b + 6) 1 == c &&
  s.slotNat slot (b + 7) 1 == 0 && s.slotNat slot (b + 0x18) 8 == 0 && s.slotNat slot (b + 0x81) 31 == 0 &&
  (c == 1 || s.slotNat slot (b + 0x14) 4 == 0) && decide (256 + n ≤ compSpace c) &&
  (let rd := s.bytes .nvs (slotTile slot)
   let pub := rd (b + 0x20) 97
   Config.sha384 pub == s.makerHash &&
   Config.ecdsaOk pub (Config.sha384 (rd b 0xA0 ++ rd (b + 256) n)) (rd (b + 0xA0) 96)) &&
  decide (s.svnFloorOf c ≤ s.slotNat slot (b + 0xC) 4) && !s.badRange (slotTile slot) b (256 + n)

/-- A NAND profile entry checks (R166): CRC, reserved fields, the limits of Table 6.2. -/
def State.profileOk (s : State) (slot i : Nat) : Bool :=
  let a := s.profileAt slot i
  let v := fun (o n : Nat) => s.slotNat slot (a + o) n
  v 0xFC 4 == crc32 (s.bytes .nvs (slotTile slot) a 0xFC) && decide (1 ≤ v 1 1) && decide (v 1 1 ≤ 6) && v 8 2 == 16384 &&
  decide (2048 ≤ v 0xA 2) && v 0x14 1 == 4 && [8, 12, 16, 24].contains (v 0x15 1) && v 0x16 2 == 0 && decide (v 0x18 2 ≤ 60) &&
  decide (v 0x1E 2 ≤ 1600) && decide (v 0x20 2 ≤ 250) && decide (v 0x22 2 ≤ 10000) && decide (4 ≤ v 0x26 1) && decide (8 ≤ v 0x27 1) &&
  decide (8 ≤ v 0x3D 1) && decide (v 0x3D 1 ≤ 16) && v 0x3F 1 == 0 && leNat (s.bytes .nvs (slotTile slot) (a + 0x8C) 112) == 0

/-- The manifest of a slot is well formed (Table 13.3). -/
def State.manifestOk (s : State) (slot : Nat) : Bool :=
  let m := s.manifestAt slot
  let np := s.slotNat slot (m + 6) 2
  let nq := s.slotNat slot (m + 0x10) 2
  let nf := s.slotNat slot (m + 0x12) 2
  s.slotNat slot m 4 == 0x464D5842 && s.slotNat slot (m + 4) 2 == 1 && decide (1 ≤ np) && decide (np ≤ 64) &&
  s.slotNat slot (m + 8) 8 != 0 && decide (nq ≤ 64) && decide (1 ≤ nf) && decide (nf ≤ 256) &&
  s.slotNat slot (m + 0x18) 8 == 0 &&
  (List.range np).all (fun i => s.slotNat slot (m + 0x20 + 8 * i) 8 / 2 ^ 40 == 0) &&
  decide (m - 256 + 0x20 + 8 * (np + nq) ≤ s.slotNat slot 0x10 4) &&
  decide (s.slotNat slot (m + 0x14) 4 + 256 * nf ≤ s.slotNat slot 0x10 4) && (List.range nf).all (fun i => s.profileOk slot i)

/-- An image is authentic (R362); a firmware image whose manifest breaks its layout is not (R363). -/
def State.authentic (s : State) (slot c : Nat) : Bool := s.imageOk slot c && (c != 1 || s.manifestOk slot)

/-- A slot is bootable (R362, R367). -/
def State.bootable (s : State) (slot : Nat) : Bool :=
  !s.nv.incomplete.contains slot && s.authentic slot 1 && s.authentic slot 2

/-- The pairing of a slot is listed (R363). -/
def State.pairListed (s : State) (slot : Nat) : Bool :=
  let m := s.manifestAt slot
  (List.range (s.slotNat slot (m + 6) 2)).any (fun i =>
    s.slotNat slot (m + 0x20 + 8 * i) 4 == s.slotNat slot (0x180000 + 8) 4 &&
    s.slotNat slot (m + 0x24 + 8 * i) 1 == natAt (s.granule 0) 6 1)

/-- The manifest identities a slot's manifest names as partners (R363, R272). -/
def State.partners (s : State) (slot : Nat) : List Nat :=
  let m := s.manifestAt slot
  let np := s.slotNat slot (m + 6) 2
  (List.range (s.slotNat slot (m + 0x10) 2)).map (fun i => s.slotNat slot (m + 0x20 + 8 * (np + i)) 8)

/-- The manifest identity of a slot. -/
def State.manifestId (s : State) (slot : Nat) : Nat := s.slotNat slot (s.manifestAt slot + 8) 8

/-- The slot other than the one running (R367). -/
def State.idleSlot (s : State) : Nat := 1 - s.runSlot % 2

/-- A slot is marked INCOMPLETE. -/
def State.markIncomplete (s : State) (slot : Nat) : State :=
  { s with nv := { s.nv with incomplete := s.nv.incomplete.filter (fun x => x != slot) ++ [slot] } }

/-- FW_STATUS: per slot bootable, INCOMPLETE, versions, SVNs, MANIFEST_ID, pairing; selector; SVN floors; open update. -/
def cmdFwStatus : Cmd := readCmd 0x0800 .reading noArgs
  (fun _ _ s =>
    let x := s.selectorOr
    .reply s (pad8 (([0, 1].flatMap (fun n => build339 [(1, b2n (s.bootable n)), (1, b2n (s.nv.incomplete.contains n)),
      (4, s.slotNat n 8 4), (4, s.slotNat n (0x180000 + 8) 4), (4, s.slotNat n 0xC 4), (4, s.slotNat n (0x180000 + 0xC) 4),
      (8, s.manifestId n), (1, b2n (s.pairListed n))])) ++
      build339 [(1, x.active), (1, b2n x.trial), (1, x.attempts), (4, s.svnFloorOf 1), (4, s.svnFloorOf 2),
        (1, b2n s.boot.update.isSome), (1, (s.boot.update.map (·.comp)).getD 0), (4, (s.boot.update.map (·.len)).getD 0)])))

/-- FW_UPDATE_BEGIN (R367): COMPONENT, LENGTH, COPY_OTHER. -/
def cmdFwUpdateBegin : Cmd := actCmd 0x0801 [2] .firmware
  (fun _ pl => match parse339 [1, 4, 1] pl with
    | some [c, n, o] => (c == 1 || c == 2) && decide (n ≤ compSpace c) && decide (o ≤ 1)
    | _ => false)
  (fun cl pl s =>
    let f := fieldAt [1, 4, 1] pl
    let slot := s.idleSlot
    if s.boot.update.any (fun u => u.session != cl.session) then .done s .busy
    else if s.onTrial then .done s .stateConflict
    else
      let other := 3 - f 0
      let t := slotTile slot
      let s0 := s.freshen t 0 0x200000 true
      if s0.cannotWrite t (compBase (f 0)) (compSpace (f 0)) || (f 2 = 1 && s0.cannotWrite t (compBase other) (compSpace other)) then
        .done (s0.markIncomplete slot) .mediaError
      else
      let n := 256 + s0.slotNat s0.runSlot (compBase other + 0x10) 4
      let s1 := if f 2 = 1 then
          (s0.eraseSectors t (compBase other) (compSpace other)).programBytes t (compBase other)
            (s0.bytes .nvs (slotTile s0.runSlot) (compBase other) (min n (compSpace other)))
        else s0
      let s2 := (s1.eraseSectors t (compBase (f 0)) (compSpace (f 0))).markIncomplete slot
      .done { s2 with boot := { s2.boot with update := some ⟨cl.session, f 0, f 1, []⟩ } } .ok)

/-- FW_UPDATE_DATA (R367): offset, 4 reserved bytes, up to 4,088 bytes, into words that read erased (R420); the range lies within LENGTH (DESIGN CHOICE, log entry 14). -/
def cmdFwUpdateData : Cmd := actCmd 0x0802 [2] .firmware
  (fun s pl => match parseTail [4, 4] 8 pl with
    | some ([o, r], d) => r == 0 && !d.isEmpty && decide (d.length ≤ 4088) &&
        s.boot.update.all (fun u => decide (o + d.length ≤ u.len))
    | _ => false)
  (fun cl pl s =>
    let o := natAt pl 0 4
    let d := pl.drop 8
    match s.boot.update with
    | some u =>
      if u.session != cl.session then .done s .busy
      else
        let t := slotTile s.idleSlot
        let a := compBase u.comp + o
        let s0 := s.freshen t a d.length false
        if s0.cannotWrite t a d.length then .done s0 .mediaError
        else if !s0.rangeErased t a d.length then .done (s0.ev t NVS.EVENTS.NOT_ERASED) .notErased
        else
        let s1 := s0.programBytes t a d
        .done { s1 with boot := { s1.boot with update := some { u with written := u.written ++ [(o, d.length)] } } } .ok
    | none => .done s .stateConflict)

/-- Whether every byte up to n lies in one of the ranges written: the end of the covered prefix, from p, with fuel. -/
def coveredTo (ws : List (Nat × Nat)) : Nat → Nat → Nat
  | 0, p => p
  | k + 1, p =>
    match ws.find? (fun w => decide (w.1 ≤ p) && decide (p < w.1 + w.2)) with
    | some w => coveredTo ws k (w.1 + w.2)
    | none => p

/-- FW_UPDATE_END (R367, Table 13.4). -/
def cmdFwUpdateEnd : Cmd := actCmd 0x0803 [2] .firmware noArgs
  (fun cl _ s =>
    match s.boot.update with
    | some u =>
      if u.session != cl.session then .done s .busy
      else
        let slot := s.idleSlot
        let s1 := { s with boot := { s.boot with update := none } }
        if coveredTo u.written u.written.length 0 < u.len || !s1.authentic slot u.comp then .done s1 .badArg
        else
          let s2 := { s1 with nv := { s1.nv with incomplete := s1.nv.incomplete.filter (fun x => x != slot) } }
          let s3 := s2.fwChanged slot u.comp 0
          if s3.pairListed slot then .done s3 .ok else .done s3 .versionMismatch
    | none => .done s .stateConflict)

/-- FW_ACTIVATE (R368): SLOT, flags RESET, FORCE, AUTO_COMMIT. In FAULT with cause bit 15 a bootable slot restarts the device
(R365). -/
def cmdFwActivate : Cmd := actCmd 0x0804 [2] .firmware
  (fun _ pl => match parse339 [1, 1] pl with
    | some [sl, fl] => decide (sl ≤ 1) && decide (fl ≤ 7)
    | _ => false)
  (fun _ pl s =>
    let slot := fieldAt [1, 1] pl 0
    let fl := fieldAt [1, 1] pl 1
    if s.nv.incomplete.contains slot || (s.boot.romService && !s.bootable slot) then .done s .stateConflict
    else if !s.pairListed slot && !fl.testBit 1 then .done s .versionMismatch
    else
      let s1 := (s.writeSelector ⟨slot, true, 0, fl.testBit 2, 0, true⟩).fwChanged slot 1 1
      ⟨s1, .ok, [], fun a => if fl.testBit 0 || a.boot.romService then a.resetVia 4 else a, none⟩)

/-- FW_COMMIT -/
def cmdFwCommit : Cmd := { actCmd 0x0805 [2] .firmware noArgs (fun _ _ s => .done s.fwCommit .ok)
  with ready := fun s _ => s.dstate == .service && s.onTrial }

/-- FW_UPDATE_ABORT: the slot stays INCOMPLETE. -/
def cmdFwUpdateAbort : Cmd := actCmd 0x0806 [2] .firmware noArgs
  (fun cl _ s => match s.boot.update with
    | some u => if u.session = cl.session then .done { s with boot := { s.boot with update := none } } .ok
                else .done s .busy
    | none => .done s .stateConflict)

/-- FW_MANIFEST_READ: SLOT, OFFSET; up to 4 KiB of the manifest. -/
def cmdFwManifestRead : Cmd := readCmd 0x0807 .reading
  (fun _ pl => match parse339 [1, 4] pl with
    | some [sl, _] => decide (sl ≤ 1)
    | _ => false)
  (fun _ pl s =>
    let slot := fieldAt [1, 4] pl 0
    let o := fieldAt [1, 4] pl 1
    let m := s.manifestAt slot
    let size := 0x20 + 8 * (s.slotNat slot (m + 6) 2 + s.slotNat slot (m + 0x10) 2)
    .reply s (if s.manifestOk slot then s.bytes .nvs (slotTile slot) (m + o) (min 4096 (size - o)) else []))

/-- FW_STATUS -/
def execFwStatus (f : Frame) (s : State) : Host.Outcome State Fault Refusal := .next (mailbox cmdFwStatus f s)

/-- FW_UPDATE_BEGIN -/
def execFwUpdateBegin (f : Frame) (s : State) : Host.Outcome State Fault Refusal := .next (mailbox cmdFwUpdateBegin f s)

/-- FW_UPDATE_DATA -/
def execFwUpdateData (f : Frame) (s : State) : Host.Outcome State Fault Refusal := .next (mailbox cmdFwUpdateData f s)

/-- FW_UPDATE_END -/
def execFwUpdateEnd (f : Frame) (s : State) : Host.Outcome State Fault Refusal := .next (mailbox cmdFwUpdateEnd f s)

/-- FW_ACTIVATE -/
def execFwActivate (f : Frame) (s : State) : Host.Outcome State Fault Refusal := .next (mailbox cmdFwActivate f s)

/-- FW_COMMIT -/
def execFwCommit (f : Frame) (s : State) : Host.Outcome State Fault Refusal := .next (mailbox cmdFwCommit f s)

/-- FW_UPDATE_ABORT -/
def execFwUpdateAbort (f : Frame) (s : State) : Host.Outcome State Fault Refusal := .next (mailbox cmdFwUpdateAbort f s)

/-- FW_MANIFEST_READ -/
def execFwManifestRead (f : Frame) (s : State) : Host.Outcome State Fault Refusal := .next (mailbox cmdFwManifestRead f s)

end Sys2Proof.Machine
end

