-- ==== Sys2Proof/Machine/Deep.lean ====
section
/-! DEFINITION. The deep-tier managers: reads and their ladder, suspends, garbage collection, table flush, dump areas, wear, format and rebuild, the
deep-tier commands (chapter 6). -/

namespace Sys2Proof.Machine

/-! ### Capacity and mode (R150, R163) -/

/-- Over-provisioning now, %: what the user capacity leaves of the data blocks when replacements have come from the free pool. -/
def State.opNow (s : State) (t : Nat) : Nat :=
  let lost := (s.deep.stripes.filter (fun x => x.tile == t && x.st == 6)).length * 8
  let data := (s.rawBytes t * 98 / 100 - 96 * 2 ^ 30 - lost * 2 ^ 25) * 7 / 8
  if data = 0 then 0 else 100 - ceilDiv (100 * s.userCap t) data

/-- The floor of SPARE blocks (R163). -/
def State.spareFloor (s : State) (t : Nat) : Nat := s.fld t DTM.SPARE_FLOOR.BLOCKS

/-- DTM.STATUS.MODE (R163). -/
def State.deepMode (s : State) (t : Nat) : Nat :=
  if s.spareBlocks t = 0 && s.opNow t < 7 then 2 else if s.spareBlocks t < s.spareFloor t then 1 else 0

/-- Whether a block has passed a threshold of stage 1 (R163). -/
def State.worn (s : State) (t b c : Nat) : Bool :=
  let x := s.block t b c
  decide (s.fld t DTM.WEAR_TH.ITER * x.decodes < x.iters) || decide (s.fld t DTM.WEAR_TH.RETRY < x.retry)

/-! ### Reads (R152, R153, R155) -/

/-- How a read fares on flash: whether the hard decode succeeds and after how many iterations, the retry level at which it would
(0 none), whether the soft decode would, whether stripe parity would. -/
structure FlashRead where
  hard : Bool
  iters : Nat
  retry : Nat
  soft : Bool
  parity : Bool
deriving DecidableEq, Repr

/-- Steps 1 to 4 of Table 6.7: the step that succeeds. -/
def State.ladder (s : State) (t : Nat) (x : FlashRead) : Option Nat :=
  if x.hard then some 1
  else if x.retry != 0 && x.retry ≤ s.fld t DTM.CTRL.RETRY_MAX then some 2
  else if s.flag t DTM.CTRL.SOFT_EN && x.soft then some 3
  else if x.parity then some 4
  else none

/-- Reads of the other seven channels' pages, for parity. -/
def State.readOthers (s : State) (t c : Nat) : State :=
  (List.range 8).foldl (fun a d => if d = c then a else a.bump t (Fld.inst FCH.READS.COUNT d) 1) s

/-- The counters of a read of a codeword of stripe b on channel c through Table 6.7, and what its block's statistics keep of it (R152, R163); whether
the block is to be refreshed. -/
def State.countRead (s : State) (t b c : Nat) (x : FlashRead) (step : Option Nat) : State :=
  let tried := if x.hard then 0 else if step = some 2 then x.retry else s.fld t DTM.CTRL.RETRY_MAX
  let soft := if x.hard || step = some 2 || !s.flag t DTM.CTRL.SOFT_EN then 0 else 3
  let s1 := (s.bump t (Fld.inst FCH.READS.COUNT c) (1 + tried + soft)).bump t BCX.XTS_UNITS.COUNT 1
  let s2 := if x.hard then s1 else s1.bump t DTM.HARD_FAIL.COUNT 1
  let s3 := match step with
    | some 2 => s2.bump t DTM.RETRY_OK.COUNT 1
    | some 3 => s2.bump t DTM.SOFT_OK.COUNT 1
    | some 4 => ((s2.readOthers t c).bump t DTM.PARITY_OK.COUNT 1).ev t DTM.EVENTS.RECOVERED
    | some _ => s2
    | none => s2.readOthers t c
  let reads := ((s3.stripe t b).map (·.reads)).getD 0 + 1
  let again := step != some 1 && step != some 2
  let s4 := s3.updStripe t b (fun y => { y with reads := reads, ahead := y.ahead || again || decide (s.prof 0x30 4 < reads) })
  let s5 := s4.updBlock t b c (fun y => if x.hard then { y with iters := y.iters + x.iters, decodes := y.decodes + 1 }
    else { y with retry := max y.retry tried })
  if s5.worn t b c then s5.markWeak t b c else s5

/-- A read of a page's codeword climbs Table 6.7; one that needed step 2 or later is written again through head 1 (R152). -/
def State.noteRead (s : State) (t p b c : Nat) (x : FlashRead) (step : Option Nat) : State :=
  let s1 := s.countRead t b c x step
  if x.hard || step.isNone then s1 else s1.relocateDeep t p

/-- Whether a request that reads a page waits on a QP or in a capsule. -/
def State.readersOf (s : State) (p : Nat) : Nat :=
  (s.net.qps.flatMap (fun q => q.reqs.filter (fun r => r.kind == 3 && (pagesOf r.addr r.len).contains p))).length +
  (s.net.execs.filter (fun e => capReads e.bytes (p * 4096) 4096)).length

/-- Requesters waiting for a page of a tile's deep tier. -/
def State.waitersOf (s : State) (t p : Nat) : Nat :=
  ((s.cache.missq.filter (fun m => m.tile == t && m.n / 32 == p)).map (·.waiters)).sum + s.readersOf p

/-- Step 6: a deep home's page is poisoned under one identifier (R152, R155), its entry in state 2; a shared one with the number of waiters. -/
def State.deepPoison (s : State) (t p : Nat) (shared : Bool) : State :=
  let (i, s1) := s.newErrId t
  let s2 := ((s1.poisonAll p i).updDeep (fun d => { d with state2 := d.state2 ++ [((t, p), i)] })).unmapDeep t p
  let s3 := (s2.bump t DTM.POISONED.COUNT 1).deepError t p 6 i
  let w := min 65535 (max 1 (s.waitersOf t p))
  if shared then (s3.ev t DTM.EVENTS.POISON).enqueueRec t { s3.stamp t 0x18 0x0100 4 i with rep := w } else s3.evRec t DTM.EVENTS.POISON p

/-- A backing image that fails: the page of it is unmapped, and its home tile asks for a token to write it afresh, unless the home
itself is being recovered; as the only copy of a clean page not yet restored it leaves poison (R152). -/
def State.loseImage (s : State) (t p : Nat) : State :=
  let s1 := s.unmapDeep t p
  if s1.firn.unrestored.contains p && !s1.firn.deep.any (fun d => d.page == p) then
    ((s1.poisonPage t p).updFirn (fun f => { f with unrestored := f.unrestored.filter (fun q => q != p) })).setDivBit (p / 16) true
  else match s1.homeOf (p / 512) with
  | some h => if s1.dec.ues.any (fun u => s1.amsPage u.1 (u.2 / 4096) == some p) || s1.firn.unrestored.contains p ||
      s1.dirtyPage h.tile p then s1 else s1.askImage h.tile p
  | none => s1

/-- A read that fails steps 1 to 5: poison, or a lost image. -/
def State.ladderLast (s : State) (t p : Nat) : State :=
  let home := s.homeOf (p / 512)
  if home.any (fun h => h.tile == t && h.tier == 2) then s.deepPoison t p (home.any (·.sh)) else s.loseImage t p

/-- A read that fails steps 1 to 4. -/
def State.ladderEnd (s : State) (t p : Nat) : State :=
  if s.classAt (p * 4096) == 2 && s.mayFetch t p then s.sendFetch t p else s.ladderLast t p

/-- A page fetched from the partner at step 5: delivered and written again locally (R155). -/
def State.deepFetched (s : State) (t p : Nat) (bs : List Byte) : State :=
  ((s.programDeep t p (((s.deepAt t p).map (·.gen)).getD (s.gen p)) [] bs 1).bump t DTM.TWIN_OK.COUNT 1).ev t DTM.EVENTS.RECOVERED

/-- DEEP_READ: a read of a page's codeword on a tile. A page in Firn's buffer is served from there (R153); without an
XTS key the access is held (R408). -/
def execDeepRead (tile page : Nat) (hard : Bool) (iters retry : Nat) (soft parity : Bool) (s : State) :
    Host.Outcome State Fault Refusal :=
  onTile tile s
    (match s.deepAt tile page with
     | some d =>
       if (s.captured tile page).isSome then s else
       if !s.flag tile BCX.STATUS.XTS_KEY then s.ev tile BCX.EVENTS.KEY_MISSING else
       let x : FlashRead := ⟨hard, iters, retry, soft, parity⟩
       let step := s.ladder tile x
       let s1 := s.noteRead tile page d.stripe (cwChannel d.stripe d.idx) x step
       if step.isSome then s1 else s1.ladderEnd tile page
     | none => s)

/-! ### Reads of a busy LUN (R154) -/

/-- Whether a LUN of a tile erases: a stripe of it is in ERASING. -/
def State.lunErasing (s : State) (t lun : Nat) : Bool :=
  s.deep.stripes.any (fun x => x.tile == t && x.st == 3 && s.stripeLun x.id == lun)

/-- Whether a LUN of a tile runs an erase or a program: a stripe in ERASING, or Firn's open stripe with a capture to program. -/
def State.lunBusy (s : State) (t lun : Nat) : Bool :=
  s.lunErasing t lun || (s.firn.caps.any (fun c => c.tile == t) &&
    s.deep.stripes.any (fun x => x.tile == t && x.st == 1 && x.head == 0 && s.stripeLun x.id == lun))

/-- Whether a read of a page is latency-critical: its extent has SH set, it carries the panic mark or serves a stream, or it is a host
read-through with RA_HOST. -/
def State.critical (s : State) (t p : Nat) : Bool :=
  let mine := s.cache.missq.filter (fun m => m.tile == t && m.n / 32 == p)
  (s.homeOf (p / 512)).any (·.sh) || mine.any (fun m => m.panic || m.stream) ||
  (s.flag t DTM.CTRL.RA_HOST && (mine.any (fun m => !m.stream) || decide (0 < s.readersOf p)))

/-- Whether the parity of a codeword's page stripe is written. -/
def State.parityWritten (s : State) (t b i : Nat) : Bool :=
  match s.stripe t b with
  | some x => x.st != 1 || decide (i / 28 * 28 + 28 ≤ x.used)
  | none => false

/-- A read of codeword i of stripe b meets a busy LUN on its channel, with other channels' LUNs busy too, and would take `us` µs by a suspend: it
suspends the operation, is served from the other seven channels, or waits for the operation's end with a place in the stripe (R151). -/
def State.suspendRead (s : State) (t p us : Nat) (busy : List Nat) (d : DeepPage) : State :=
  let c := cwChannel d.stripe d.idx
  let lun := s.stripeLun d.stripe
  let k := t * 256 + c * 16 + lun
  let n := amapGet 0 s.deep.suspends k
  let left := decide (n < s.prof (if s.lunErasing t lun then 0x27 else 0x26) 1)
  let around := busy.all (· == c) && s.parityWritten t d.stripe d.idx
  let s1 := if left then s else s.ev t (Fld.inst FCH.EVENTS.SUSPEND_LIMIT c)
  if s1.critical t p && (!left || decide (s.fld t DTM.RA.LIMIT_US < us)) && around then (s1.readOthers t c).bump t DTM.READ_AROUND.COUNT 1
  else if left then ((s1.updDeep (fun x => { x with suspends := amapSet 0 x.suspends k (n + 1) })).bump t
    (Fld.inst FCH.SUSPENDS.COUNT c) 1).bump t (Fld.inst FCH.READS.COUNT c) 1
  else s1.updStripe t d.stripe (fun x => { x with refs := x.refs + 1 })

/-- SUSPEND_READ: a read of a page; `us`: the time that a suspend and the read would take; `busy`: the channels whose LUN of the page's number is
busy now, two at most, as the manager schedules programs and erases. -/
def execSuspendRead (tile page us : Nat) (busy : List Nat) (s : State) : Host.Outcome State Fault Refusal :=
  onTile tile s
    (match s.deepAt tile page with
     | some d =>
       if s.lunBusy tile (s.stripeLun d.stripe) && busy.contains (cwChannel d.stripe d.idx) && decide (busy.dedup.length ≤ 2) then
         s.suspendRead tile page us busy d
       else s
     | none => s)

/-! ### Failures of programs and erases (R162) -/

/-- DEEP_PROGRAM_FAIL: a program of an open stripe fails on a channel; Firn programs the affected pages again. -/
def execDeepProgramFail (tile stripe ch : Nat) (s : State) : Host.Outcome State Fault Refusal :=
  onUnit tile ch 8 s
    (if (s.stripe tile stripe).any (fun x => x.st == 1) then
      let s1 := (s.ev tile (Fld.inst FCH.EVENTS.PROG_FAIL ch)).retireBlock tile stripe ch 0
      if s1.firn.caps.any (fun c => c.tile == tile) then s1.ev tile FRN.EVENTS.REPROGRAM else s1
     else s)

/-- ERASE_FAIL: an erase of a stripe fails on a channel. -/
def execEraseFail (tile stripe ch : Nat) (s : State) : Host.Outcome State Fault Refusal :=
  onUnit tile ch 8 s
    (if (s.stripe tile stripe).any (fun x => x.st == 3) && !s.memberBad tile stripe ch then
      (s.ev tile (Fld.inst FCH.EVENTS.ERASE_FAIL ch)).retireBlock tile stripe ch 1
     else s)

/-! ### Garbage collection (R149) -/

/-- The pages and the table pages whose valid codeword lies in a stripe. -/
def State.pagesIn (s : State) (t b : Nat) : List Nat :=
  (s.firn.deep.filter (fun d => d.tile == t && d.stripe == b)).map (·.page)

def State.tablesIn (s : State) (t b : Nat) : List Nat :=
  (s.deep.tables.filter (fun e => e.1 == t && e.2.2.1 == b)).map (·.2.1)

/-- Valid codewords of a stripe. -/
def State.validIn (s : State) (t b : Nat) : Nat := (s.pagesIn t b).length + (s.tablesIn t b).length

/-- Whether stripe a is a better victim than b: a bad block first, then data to refresh, then fewer valid codewords, then fewer erases (DEDUCED,
log entry 24). -/
def State.betterVictim (s : State) (a b : Stripe) : Bool :=
  let k := fun (x : Stripe) => (((if s.stripeBad x.tile x.id then 0 else if x.ahead then 1 else 2) * (stripeCap + 1)) + s.validIn x.tile x.id) * 2 ^ 20 +
    x.erases
  decide (k a < k b)

/-- The victim of a tile: a FULL block stripe. -/
def State.gcVictim (s : State) (t : Nat) : Option Stripe :=
  (s.deep.stripes.filter (fun x => x.tile == t && x.st == 2)).foldl (fun m x => match m with
    | none => some x
    | some y => if s.betterVictim x y then some x else some y) none

/-- A victim's valid codewords move, and once none is left its blocks are erased. -/
def State.collect (s : State) (t : Nat) (v : Stripe) : State :=
  let s1 := (s.pagesIn t v.id).foldl (fun a p => a.relocateDeep t p) s
  let s2 := ((s1.tablesIn t v.id).foldl (fun a n => a.relocateTable t n) s1).closeRow t 1
  if s2.validIn t v.id = 0 then s2.updStripe t v.id (fun x => { x with st := 3, ahead := false }) else s2

/-- Whether garbage collection has work on a tile: it runs, the FREE block stripes are below LO, or a bad block waits for it (R162). -/
def State.gcDue (s : State) (t : Nat) : Bool :=
  s.deep.gc.contains t || decide (s.freeStripes t < s.fld t DTM.GC.LO) || (s.gcVictim t).any (fun v => s.stripeBad t v.id)

/-- GC_START: below LO, and while it runs, garbage collection relocates a victim. -/
def execGcStart (tile : Nat) (s : State) : Host.Outcome State Fault Refusal :=
  onTile tile s
    (if !s.gcDue tile || !(s.dstate == .service || s.dstate == .restricted || s.dstate == .restore) then s else
     let s1 := s.updDeep (fun d => { d with gc := d.gc.erase tile ++ [tile] })
     match s1.gcVictim tile with
     | some v => s1.collect tile v
     | none => s1)

/-- GC_STOP: above HI. -/
def execGcStop (tile : Nat) (s : State) : Host.Outcome State Fault Refusal :=
  onTile tile s (if s.fld tile DTM.GC.HI < s.freeStripes tile then s.updDeep (fun d => { d with gc := d.gc.erase tile }) else s)

/-- The blocks of a stripe are erased: its codewords are gone, its bad blocks are replaced, and it is FREE or taken apart (R160, R162). -/
def State.eraseDone (s : State) (t b us : Nat) : State :=
  let s1 := (s.updStripe t b (fun y => { y with used := 0, reads := 0, erases := y.erases + 1, ahead := false })).updDeep (fun d => { d with
    flash := d.flash.filter (fun c => !(c.tile == t && c.stripe == b)) })
  let s2 := (List.range 8).foldl (fun a c => (a.updBlock t b c (fun x => { x with iters := 0, decodes := 0, retry := 0, tbers := us, weak := false })).bump t
    (Fld.inst FCH.ERASES.COUNT c) 1) s1
  (s2.mendStripe t b).endLunOp t (s.stripeLun b)

/-- BLOCK_ERASE_DONE: the blocks of a stripe leave ERASING, `us` µs after its erase began; not while a read holds a place in it (R151), nor in FREEZE,
which suspends the erase (R159). -/
def execBlockEraseDone (tile stripe us : Nat) (s : State) : Host.Outcome State Fault Refusal :=
  onTile tile s
    (match s.stripe tile stripe with
     | some x => if x.st != 3 || x.refs != 0 || s.dstate == .freeze then s else s.eraseDone tile stripe us
     | none => s)

/-- The check of a tile's block counts: they are off, and are rebuilt from the block table (R160). -/
def State.booksOff (s : State) (t : Nat) : State := s.evRec t DTM.EVENTS.BOOKS 0

/-- TABLE_FLUSH: the changed table pages of a tile are written through head 2; `mismatch`: the sum of the block counts is off
(R148, R160). -/
def execTableFlush (tile : Nat) (mismatch : Bool) (s : State) : Host.Outcome State Fault Refusal :=
  onTile tile s
    (if (s.dirtyTablesOf tile).isEmpty then s
     else if !s.flag tile BCX.STATUS.XTS_KEY then s.ev tile BCX.EVENTS.KEY_MISSING
     else if mismatch then (s.flushTables tile).booksOff tile else s.flushTables tile)

/-- A table page of a tile has stood changed for `DTM.TABLE.FLUSH_MS`: the changed ones are written (R148). -/
def State.flushDue (s : State) (t : Nat) : State :=
  if s.flag t BCX.STATUS.XTS_KEY && (s.dirtyTablesOf t).any (fun e => decide (e.2 + s.fld t DTM.TABLE.FLUSH_MS * 1000 ≤ s.now)) && s.dstate != .freeze then
    s.flushTables t else s

/-! ### Dump areas (R157, R158) -/

/-- The dump area of a tile in a state: 1 armed, 2 previous, 3 written. -/
def State.areaIn (s : State) (t st : Nat) : Option DumpArea := s.deep.areas.find? (fun a => a.tile == t && a.st == st)

/-- The freeze engine of a tile that holds an armed area is ARMED. -/
def State.setArmed (s : State) (t : Nat) : State := if s.frz t == .notArmed then s.setF t FRZ.STATUS.STATE FState.armed.code else s

/-- The n FREE block stripes of a tile with the fewest erases, then the lowest numbers. -/
def State.leastWorn (s : State) (t n : Nat) : List Nat :=
  let listed := s.deep.stripes.filter (fun x => x.tile == t)
  let ids := listed.map (·.id)
  let fresh := ((List.range (n + ids.length)).filter (fun b => decide (b < s.stripeTotal t) && !ids.contains b)).take n
  let free := (listed.filter (fun x => x.st == 0)).map (fun x => (x.erases, x.id))
  (((fresh.map (fun b => ((0 : Nat), b)) ++ free).mergeSort (fun (a b : Nat × Nat) => decide (a.1 < b.1) || (a.1 == b.1 && decide (a.2 ≤ b.2)))).take n).map (·.2)

/-- Block stripes of a tile go to a state at once, erased. -/
def State.takeStripes (s : State) (t st : Nat) (ids : List Nat) : State :=
  let new := ids.map (fun b => { (s.stripe t b).getD (Stripe.fresh t b) with st := st, used := 0, reads := 0, ahead := false })
  s.updDeep (fun d => { d with
    stripes := new.map (fun x => { x with erases := x.erases + 1 }) ++ d.stripes.filter (fun x => !(x.tile == t && ids.contains x.id))
    flash := d.flash.filter (fun c => !(c.tile == t && ids.contains c.stripe)) })

/-- A new area of 192 block stripes, 48 GiB, is erased and verified, and the tile's freeze engine is ARMED (R157, R158); none where they are not FREE. -/
def State.armArea (s : State) (t : Nat) : State :=
  if (s.areaIn t 1).isSome then s.setArmed t else
  let ids := s.leastWorn t 192
  if ids.length < 192 then s else
  let s1 := (s.takeStripes t 4 ids).updDeep (fun d => { d with areas := d.areas ++ [⟨t, d.nextArea, 1, ids⟩], nextArea := d.nextArea + 1 })
  ((List.range 8).foldl (fun a c => a.bump t (Fld.inst FCH.ERASES.COUNT c) 192) s1).setArmed t

/-- DUMP_ARM: a new armed area where the tile has none and its previous dump is in its own area. -/
def execDumpArm (tile : Nat) (s : State) : Host.Outcome State Fault Refusal :=
  onTile tile s (match s.dstate with
    | .restore | .service | .restricted => if (s.areaIn tile 3).isSome then s else s.armArea tile
    | _ => s)

/-- What a token reserved at restore records as its GEN: the one before that of the page, so that its data counts as unsaved (R176, R196). -/
def takenAtRestore (g : Nat) : Nat := (g + 2 ^ 32 - 1) % 2 ^ 32

/-- Whether every page restored from an area has had its token returned: a token still held from its restore records that GEN. -/
def State.areaDone (s : State) (t n : Nat) : Bool :=
  (s.firn.dumps.filter (fun d => d.tile == t)).all (fun d => d.area != n || d.pages.all (fun p =>
    !s.firn.tokens.any (fun k => k.page == p.page && k.taken == takenAtRestore p.gen)))

/-- Whether a tile holds a newer seal than the dump of an area. -/
def State.newerSeal (s : State) (t n : Nat) : Bool :=
  s.firn.dumps.any (fun d => d.tile == t && d.isSealed && s.firn.dumps.any (fun e => e.tile == t && decide (e.seq < d.seq) && e.area == n))

/-- An area's blocks return to the free pool, and its dump is gone. -/
def State.releaseArea (s : State) (t : Nat) (a : DumpArea) : State :=
  let s1 := (s.takeStripes t 0 a.stripes).updDeep (fun d => { d with areas := d.areas.erase a })
  ((List.range 8).foldl (fun x c => x.bump t (Fld.inst FCH.ERASES.COUNT c) a.stripes.length) s1).updFirn (fun f => { f with
    dumps := f.dumps.filter (fun d => !(d.tile == t && d.area == a.num)) })

/-- PREVIOUS_RELEASE: the previous area's blocks return to the free pool (R158). -/
def execPreviousRelease (tile : Nat) (s : State) : Host.Outcome State Fault Refusal :=
  onTile tile s
    (match s.areaIn tile 2 with
     | some a =>
       if (s.areaIn tile 1).isSome && (s.newerSeal tile a.num || (s.areaDone tile a.num && s.boot.restored.contains tile)) then
         s.releaseArea tile a
       else s
     | none => s)

/-! ### Wear (R163) -/

/-- Whether a wear stage has been reached on a tile, at a block for stages 1 and 2. -/
def State.stageReached (s : State) (t stage b c : Nat) : Bool :=
  match stage with
  | 1 => s.worn t b c
  | 2 => s.slowProg (s.block t b c).tprog
  | 3 => decide (0 < s.badCount t)
  | 4 => decide (1 ≤ s.deepMode t)
  | 5 => decide (s.deepMode t = 2)
  | _ => false

/-- A stage reached: DEEP_WEAR, an event, and what the stage brings (R163; Table 12.6 bit 3). -/
def State.reportStage (s : State) (t stage b c : Nat) : State :=
  let s1 := if stage ≤ 2 then s.markWeak t b c else s
  let s2 := if stage = 4 then (s1.ev t DTM.EVENTS.NO_NEW_HOMES).setCause 3 true else s1
  if s2.deep.stages.contains (t, stage) then s2 else
  ((s2.updDeep (fun d => { d with stages := d.stages ++ [(t, stage)] })).recOpen t 0x18 stage).notify 0x03F3
    (build339 [(1, t), (1, stage), (4, s2.spareBlocks t), (1, s2.opNow t)])

/-- WEAR_STAGE: a stage is looked for on a tile, at a block of a stripe; `tprog`: the time of a program of it that has just ended, µs, for stage 2. -/
def execWearStage (tile stage stripe ch tprog : Nat) (s : State) : Host.Outcome State Fault Refusal :=
  onUnit tile ch 8 s
    (let s1 := if stage = 2 then s.noteProgram tile stripe ch tprog else s
     if s1.stageReached tile stage stripe ch then s1.reportStage tile stage stripe ch else s1)

/-! ### Format and rebuild (R148, R161, R408) -/

/-- A tile's deep tier is empty, with its reserves and an armed dump area; wear and grown bad blocks stay known. -/
def State.formatTile (s : State) (t : Nat) : State :=
  let used := (s.deep.stripes.filter (fun x => x.tile == t && x.st != 0 && x.st != 6)).map (·.id)
  let s1 := (s.takeStripes t 0 used).updDeep (fun d => { d with
    blocks := d.blocks.filter (fun x => x.tile != t)
    areas := d.areas.filter (fun x => x.tile != t)
    roots := d.roots.erase t ++ [t]
    rootBad := d.rootBad.erase t
    rebuilding := d.rebuilding.erase t
    gc := d.gc.erase t
    tables := d.tables.filter (fun e => e.1 != t)
    state2 := d.state2.filter (fun x => x.1.1 != t)
    dirtyTables := d.dirtyTables.filter (fun e => e.1 / 2 ^ 24 != t)
    stages := d.stages.filter (fun x => x.1 != t) })
  let s2 := (used.filter (s1.stripeBad t)).foldl (fun a b => a.mendStripe t b) s1
  let gone := fun (e : Nat) => (s.homeOf e).any (fun h => h.tile == t && h.tier == 2)
  (s2.updFirn (fun f => { f with
    deep := f.deep.filter (fun d => d.tile != t)
    dens := f.dens.filter (fun x => x.1 / 2 ^ 32 != t || s.ams.homes.any (fun e => denKey t e.1 == x.1 && e.2.tile == t && e.2.tier == 2))
    ranges := f.ranges.filter (fun r => r.tile != t)
    dumps := f.dumps.filter (fun d => d.tile != t)
    poison := f.poison.filter (fun e => !gone (e.1 / 2 ^ 15)) })).armArea t

/-- The factory's marks are read from every block, and stored (R161). -/
def State.readFactory (s : State) : State := { s with nv := { s.nv with factory := s.board.factoryBad } }

/-- DEEP_FIRST_FORMAT: a deep tier with no root on any tile is new; some tiles formatted and others not is a fault (R161). -/
def execDeepFirstFormat (s : State) : Host.Outcome State Fault Refusal :=
  .next (if s.dstate != .selftest && s.dstate != .restore then s
    else if s.deep.roots.isEmpty then s.readFactory.allTiles (fun t a => a.formatTile t)
    else if s.everyTile (fun t => s.deep.roots.contains t) then s
    else s.enterFault 13)

/-- The root of a tile cannot be read, and with it the translation of its pages (R148). -/
def State.loseRoot (s : State) (t : Nat) : State :=
  (s.updDeep (fun d => { d with rootBad := d.rootBad.erase t ++ [t], tables := d.tables.filter (fun e => e.1 != t)
                                state2 := d.state2.filter (fun x => x.1.1 != t) })).updFirn (fun f => { f with deep := f.deep.filter (fun d => d.tile != t) })

/-- What the headers of a tile's flash say: for each DEN and page the codeword of KIND 1 to 3 with the highest SEQ (R148). -/
def State.scanHeaders (s : State) (t : Nat) : List DeepPage :=
  let ws := s.deep.flash.filter (fun c => c.tile == t && decide (1 ≤ c.kind) && decide (c.kind ≤ 3))
  (ws.filter (fun c => !ws.any (fun y => y.den == c.den && y.page % 512 == c.page % 512 && decide (c.seq < y.seq)))).filterMap (fun c =>
    (s.extOfDen t c.den).map (fun e => ⟨t, e * 512 + c.page % 512, c.gen, c.seq, c.stripe, c.idx⟩))

/-- DEEP_REBUILD_DONE: the header scan of a tile ends; its translation is what the headers say, every table page of it to be written again. -/
def execDeepRebuildDone (tile : Nat) (s : State) : Host.Outcome State Fault Refusal :=
  onTile tile s
    (if !s.deep.rebuilding.contains tile then s else
     let s1 := (s.updDeep (fun d => { d with rebuilding := d.rebuilding.erase tile, rootBad := d.rootBad.erase tile })).updFirn (fun f =>
       { f with deep := f.deep.filter (fun d => d.tile != tile) ++ s.scanHeaders tile })
     (((s.scanHeaders tile).map (fun d => d.page / 512)).dedup).foldl (fun a e => a.dirtyTable tile e) s1)

/-! ### Commands (Table 6.14) -/

/-- The state of a block (R160): 0 FREE, 1 OPEN, 2 FULL, 3 DUMP_ARMED, 4 DUMP_PREVIOUS, 5 SPARE, 6 ERASING, 7 RETIRED_GROWN; 8 one that the factory
marked, which has none of them (DESIGN CHOICE, log entry 22). -/
def State.blockState (s : State) (t c lun plane k : Nat) : Nat :=
  if s.factoryBad t c lun plane k then 8
  else if s.grownBad t c lun plane k then 7
  else match s.ownerOf t c lun plane k with
  | none => 5
  | some b => match ((s.stripe t b).map (·.st)).getD 0 with
    | 1 => 1
    | 2 => 2
    | 3 => 6
    | 4 => 3
    | 5 => 4
    | _ => 0

/-- DTM.STATUS.DUMP: 0 none, 1 arming, 2 armed, 3 writing, 4 sealed. -/
def State.dumpCode (s : State) (t : Nat) : Nat :=
  match s.frz t with
  | .dumping | .sealing => 3
  | .sealed => 4
  | _ => if (s.areaIn t 1).isSome then 2 else 0

/-- Whether a block belongs to a dump area. -/
def State.inDumpArea (s : State) (t c lun plane k : Nat) : Bool :=
  let x := s.blockState t c lun plane k
  x == 3 || x == 4

/-- Highest and mean erase count of a tile's stripes. -/
def State.peMax (s : State) (t : Nat) : Nat := ((s.deep.stripes.filter (fun x => x.tile == t)).map (·.erases)).foldl max 0

def State.peAvg (s : State) (t : Nat) : Nat :=
  if s.stripeTotal t = 0 then 0 else ((s.deep.stripes.filter (fun x => x.tile == t)).map (·.erases)).sum / s.stripeTotal t

/-- DEEP_STATUS: TILE; the fields of Table 6.11, user capacity and pages mapped, block counts by state, counters. -/
def cmdDeepStatus : Cmd := readCmd 0x0370 .reading
  (fun s pl => match parse339 [1] pl with
    | some [t] => decide (t < s.tiles)
    | _ => false)
  (fun _ pl s =>
    let t := fieldAt [1] pl 0
    let n := fun (k : Nat) => (s.deep.stripes.filter (fun x => x.tile == t && x.st == k)).length * 8
    .reply s (build339 ([(4, (s.word t DTM.CTRL.OP_PCT.blk DTM.CTRL.OP_PCT.off).toNat), (1, s.deepMode t), (1, s.dumpCode t), (1, s.opNow t),
      (4, s.freeStripes t), (4, s.spareBlocks t), (4, s.spareFloor t), (2, s.fld t DTM.GC.HI), (2, s.fld t DTM.GC.LO),
      (1, s.fld t DTM.RA.LIMIT_US), (2, (s.deep.tableFrames.filter (fun e => e.1 == t)).length), (2, s.fld t DTM.TABLE.FLUSH_MS),
      (1, s.fld t DTM.WEAR_TH.ITER), (1, s.fld t DTM.WEAR_TH.RETRY), (2, s.peMax t), (2, s.peAvg t), (2, s.fld t DTM.DUMP_RATE.MBPS),
      (8, s.userCap t), (8, (s.firn.deep.filter (fun d => d.tile == t)).length), (4, (s.freeStripes t) * 8), (4, n 1), (4, n 2), (4, n 4),
      (4, n 5), (4, s.spareBlocks t), (4, n 3), (4, s.badCount t)] ++
      [DTM.HARD_FAIL.COUNT, DTM.RETRY_OK.COUNT, DTM.SOFT_OK.COUNT, DTM.PARITY_OK.COUNT, DTM.TWIN_OK.COUNT, DTM.POISONED.COUNT,
       DTM.READ_AROUND.COUNT].map (fun f => (4, s.fld t f)))))

/-- The fields of DEEP_BLOCK_INFO: tile, channel, LUN, plane, first block, count. -/
def blockSizes : List Nat := [1, 1, 1, 1, 2, 2]

/-- DEEP_BLOCK_INFO: state, erase count, iteration mean, highest retry level, last tPROG and tBERS, weak flag of each block. -/
def cmdDeepBlockInfo : Cmd :=
  { readCmd 0x0371 .reading
    (fun s pl => match parse339 blockSizes pl with
      | some [t, c, l, p, b, n] => decide (t < s.tiles) && decide (c < 8) && decide (l < s.board.luns) && decide (p < 4) &&
          decide (1 ≤ n) && decide (n ≤ 255) && decide (b + n ≤ s.board.lunGib * 8)
      | _ => false)
    (fun _ pl s =>
      let f := fieldAt blockSizes pl
      .reply s (buildWithList [] 16 ((List.range (f 5)).map (fun i =>
        let b := s.ownerOf (f 0) (f 1) (f 2) (f 3) (f 4 + i)
        let x := (b.map (fun n => s.block (f 0) n (f 1))).getD ⟨f 0, 0, f 1, 0, 0, 0, 0, 0, false⟩
        build339 [(1, s.blockState (f 0) (f 1) (f 2) (f 3) (f 4 + i)), (4, ((b.bind (s.stripe (f 0))).map (·.erases)).getD 0),
          (1, if x.decodes = 0 then 0 else x.iters / x.decodes), (1, x.retry), (2, x.tprog), (2, x.tbers), (1, b2n x.weak)])))) with
    roles := [2] }

/-- The fields of DEEP_CONFIG: OP_PCT, RETRY_MAX, SOFT_EN, RA_HOST, GC HI, GC LO, ITER, RETRY, spare floor. -/
def deepCfgSizes : List Nat := [1, 1, 1, 1, 2, 2, 1, 1, 4]

/-- DEEP_CONFIG: for every tile, stored; BUSY where the user capacity would fall below what is reserved (R150). -/
def cmdDeepConfig : Cmd := actCmd 0x0372 [2] .config
  (fun s pl => match parse339 deepCfgSizes pl with
    | some [op, r, so, ra, hi, lo, _, _, fl] => decide (7 ≤ op) && decide (op ≤ 40) && decide (1 ≤ r) && decide (r ≤ 15) &&
        decide (r ≤ s.prof 0x3D 1) && decide (so < 2) && decide (ra < 2) && decide (lo < hi) && decide (fl < 2 ^ 24)
    | _ => false)
  (fun _ pl s =>
    let f := fieldAt deepCfgSizes pl
    if s.anyTile (fun t => decide (s.userCapAt t (f 0) < (s.reserving t).length * 2 ^ 21)) then .done s .busy else
    let l := [(DTM.CTRL.OP_PCT, f 0), (DTM.CTRL.RETRY_MAX, f 1), (DTM.CTRL.SOFT_EN, f 2), (DTM.CTRL.RA_HOST, f 3), (DTM.GC.HI, f 4),
      (DTM.GC.LO, f 5), (DTM.WEAR_TH.ITER, f 6), (DTM.WEAR_TH.RETRY, f 7), (DTM.SPARE_FLOOR.BLOCKS, f 8)]
    .done (l.foldl (fun a e => a.configAll e.1 e.2) s) .ok)

/-- The fields of DEEP_RETIRE_BLOCK: tile, channel, LUN, plane, block. -/
def retireBlockSizes : List Nat := [1, 1, 1, 1, 2]

/-- DEEP_RETIRE_BLOCK: a block is retired under R162; BAD_ARG for a dump-area block. -/
def cmdDeepRetireBlock : Cmd := actCmd 0x0373 [2] .config
  (fun s pl => match parse339 retireBlockSizes pl with
    | some [t, c, l, p, b] => decide (t < s.tiles) && decide (c < 8) && decide (l < s.board.luns) && decide (p < 4) &&
        decide (b < s.board.lunGib * 8) && !s.factoryBad t c l p b && !s.inDumpArea t c l p b
    | _ => false)
  (fun _ pl s =>
    let f := fieldAt retireBlockSizes pl
    .done (if s.grownBad (f 0) (f 1) (f 2) (f 3) (f 4) then s else
      match s.ownerOf (f 0) (f 1) (f 2) (f 3) (f 4) with
      | some b => s.retireBlock (f 0) b (f 1) 2
      | none => (s.updDeep (fun d => { d with bad := d.bad ++ [⟨f 0, f 1, f 2, f 3, f 4, 2⟩] })).ev (f 0) DTM.EVENTS.RETIRED) .ok)

/-- Whether DEEP_FORMAT is served (Table 6.14). -/
def formatReady (s : State) (_ : List Byte) : Bool :=
  s.dstate == .fault || s.dstate == .restricted || (s.dstate == .service && s.ams.regions.all (fun r => r.cls == 0))

/-- DEEP_FORMAT: the epochs advance and the new keys are loaded, then every tile is erased (R408). -/
def cmdDeepFormat : Cmd :=
  { actCmd 0x0374 [2] .sys noArgs (fun _ _ s =>
      let s1 := s.allTiles (fun t a =>
        { a with nv := { a.nv with deepEpoch := amapSet 0 a.nv.deepEpoch t ((a.deepEpoch t + 1) % 2 ^ 32) } }.loadXts t)
      .done ((s1.allTiles (fun t a => a.formatTile t)).updDeep (fun d => { d with formatted := true }) |>.setCause 3 false) .ok) with
    ready := formatReady }

/-- DEEP_REBUILD: TILE; RESTORE only. -/
def cmdDeepRebuild : Cmd :=
  { actCmd 0x0375 [2] .sys
    (fun s pl => match parse339 [1] pl with
      | some [t] => decide (t < s.tiles)
      | _ => false)
    (fun _ pl s =>
      let t := fieldAt [1] pl 0
      .done (s.updDeep (fun d => { d with rebuilding := d.rebuilding.erase t ++ [t] })) .ok) with
    ready := fun s _ => s.dstate == .restore }

/-- DEEP_STATUS -/
def execDeepStatus (f : Frame) (s : State) : Host.Outcome State Fault Refusal := .next (mailbox cmdDeepStatus f s)

/-- DEEP_BLOCK_INFO -/
def execDeepBlockInfo (f : Frame) (s : State) : Host.Outcome State Fault Refusal := .next (mailbox cmdDeepBlockInfo f s)

/-- DEEP_CONFIG -/
def execDeepConfig (f : Frame) (s : State) : Host.Outcome State Fault Refusal := .next (mailbox cmdDeepConfig f s)

/-- DEEP_RETIRE_BLOCK -/
def execDeepRetireBlock (f : Frame) (s : State) : Host.Outcome State Fault Refusal := .next (mailbox cmdDeepRetireBlock f s)

/-- DEEP_FORMAT -/
def execDeepFormat (f : Frame) (s : State) : Host.Outcome State Fault Refusal := .next (mailbox cmdDeepFormat f s)

/-- DEEP_REBUILD -/
def execDeepRebuild (f : Frame) (s : State) : Host.Outcome State Fault Refusal := .next (mailbox cmdDeepRebuild f s)

end Sys2Proof.Machine
end

