-- ==== Sys2Proof/Machine/QpOps.lean ====
section
/-! DEFINITION. Operations on QPs that regions, capsules and the transport share: packets out, NAKs, ERROR, teardown (R215, R223,
R257). -/

namespace Sys2Proof.Machine

/-- Discards what a QP that leaves RTS has not brought to its point (R257): capsules not started, portions that have not arrived
whole; capsules in execution send no record; descriptors it enqueued run on, but their host data can no longer be pulled or pushed. -/
def State.tearDown (s : State) (n : Nat) : State :=
  let mine := fun (p : Portion) => match p.src with
    | .qp m _ => m == n && (p.st == .new || p.st == .waiting || p.st == .admitted) && !p.arrived
    | _ => false
  let s1 := (s.net.portions.filter mine).foldl State.discardPortion s
  let s2 := s1.updNet (fun x => { x with execs := x.execs.map (fun e => match e.src with
    | .qp m _ => if m = n then { e with failed := true } else e
    | _ => if e.enqQpn = n && ((capOp e.bytes == 2 && !e.done) || (capOp e.bytes == 1 &&
        x.portions.any (fun p => p.src == e.src && p.capsule && !p.arrived))) then { e with failed := true } else e) })
  s2.updQp n (fun q => { q with caps := [], sent := [], cplQ := [], frame := [], settled := false })

/-- The mailbox point of a management QP loses its connection, and its session ends (R347). -/
def State.dropPoint (s : State) (q : Qp) : State :=
  if q.kind = 1 then
    (s.setF 0 MGT.MBOX.CONNECTED (setBit (s.fld 0 MGT.MBOX.CONNECTED) q.mb false)).endSession q.mb
  else s

/-- A QP goes to ERROR (Table 8.7) with QP_FAULT; causes: 0 NAK sent, 1 retries exhausted, 2 window exceeded, 3 killed, 4 link. -/
def State.qpError (s : State) (n why psn : Nat) : State :=
  match s.qp n with
  | none => s
  | some q =>
    if q.st = 4 || q.st = 0 then s else
    let s1 := (s.tearDown n).updQp n (fun x => { x with st := 4, errAt := some s.now })
    ((s1.dropPoint q).mirrorQp n).notify 0x00F1 (build339 [(4, n), (1, why), (4, psn)])

/-- A NAK of a code (0 PSN Sequence Error, 1 Invalid Request, 2 Remote Access Error, 3 Remote Operational Error) for a PSN (R223);
all but the first put the QP into ERROR. -/
def State.nak (s : State) (n psn code : Nat) : State :=
  match s.qp n with
  | none => s
  | some q =>
    let s1 := s.packet q 0x11 psn (96 + code) []
    if code = 0 then (s1.bump (qpTile n) RMA.SEQ_NAK_TX.COUNT 1).updQp n (fun x => { x with nakSent := true })
    else s1.qpError n 0 psn

/-- An admitted portion whose bytes have all arrived takes effect; an atomic that meets poison draws NAK Remote Operational Error
instead (R223). -/
def State.takeEffect (s : State) (p : Portion) : State :=
  if p.kind != .write && !(s.poisonIn p.addr 8).isEmpty then
    match p.src with
    | .qp n m => (s.discardPortion p).nak n m 3
    | _ => (s.applyPortion p).settleAll
  else (s.applyPortion p).settleAll

/-- Whether a portion's home takes all of it now (R73, R179). -/
def State.homeHas (s : State) (p : Portion) : Bool :=
  (s.homeOf (p.addr / 2 ^ 21)).all (fun h => (List.range ((p.addr + p.len + 127) / 128 - p.addr / 128)).all (fun i => s.rangeTakes h (p.addr / 128 + i)))

/-- What an application reads of its range is looked at: an atomic's operand, the ends of a partial write (R71, R59, R131). -/
def State.probePortion (s : State) (p : Portion) : State := if p.kind == .write then s.probeEdges p.addr p.len else s.probe p.addr 8

/-- APPLY_PORTION: an admitted portion whose bytes have all arrived is applied, in the order of admission in its unit; it waits for pages in
recovery, and for room where its home has none. -/
def execApplyPortion (id : Nat) (s : State) : Host.Outcome State Fault Refusal :=
  .next (match s.portion id with
    | some p =>
      if !(p.st == .admitted && p.arrived && !s.aheadInUnit p) then s else
      let s0 := s.probePortion p
      if s0.pagesReady p.addr p.len && s0.homeHas p then s0.takeEffect p else s0
    | none => s)

/-- A QP context is released: FREE (Table 8.7). -/
def State.qpFree (s : State) (n : Nat) : State :=
  match s.qp n with
  | none => s
  | some q =>
    let s1 := (s.updQp n (fun x => { x with st := 0 })).mirrorQp n
    let s2 := (s1.updNet (fun x => { x with qps := x.qps.filter (fun y => y.qpn != n)
                                            portions := x.portions.filter (fun p => match p.src with
                                              | .qp m _ => m != n
                                              | _ => true)
                                            execs := x.execs.filter (fun e => match e.src with
                                              | .qp m _ => m != n
                                              | _ => true) })).dropPoint q
    if q.shadow then s2 else s2.drop (qpTile n) RMA.QP_COUNT.CONNECTED 1

end Sys2Proof.Machine
end

