-- ==== Sys2Proof/Machine/Regions.lean ====
section
/-! DEFINITION. Regions: creation, keys and their checks, flags, two-phase revocation (R235 to R244). -/

namespace Sys2Proof.Machine

/-- A region's key (Table 9.2). -/
def Region.key (r : Region) : Nat := r.gen % 256 * 2 ^ 24 + r.tag % 256 * 2 ^ 16 + r.num

/-- A right of Table 9.1: 0 RD, 1 WR, 2 AT, 3 PIN, 4 SINGLE. -/
def Region.right (r : Region) (n : Nat) : Bool := r.rights.testBit n

/-- How a key check ends (R238). -/
inductive KeyCheck
  | ok (r : Region) | keyFail | bounds | noRight
deriving DecidableEq, Repr

/-- The checks of R238 in their order, for n bytes at a and a right. A region whose deletion has passed phase 1 matches no key. -/
def State.checkKey (s : State) (key a n right : Nat) : KeyCheck :=
  match s.regionNum (key % 65536) with
  | none => .keyFail
  | some r =>
    if r.key != key || s.ams.revokes.any (fun v => v.region == r.num && v.cause == 1 && v.phase == 2) then .keyFail
    else if !(decide (r.base ≤ a) && decide (a + n ≤ r.base + r.len * 2 ^ 21)) then .bounds
    else if !r.right right then .noRight
    else .ok r

/-- The counters and events of a failed check on an ingress tile (Table 9.10); a key of another generation of a number that has been in use is
a revoked one (DEDUCED, log entry 72). -/
def State.noteCheck (s : State) (t key : Nat) (k : KeyCheck) : State :=
  match k with
  | .ok _ => s
  | .keyFail =>
    let s1 := (s.bump t RGN.KEY_FAIL.COUNT 1).ev t RGN.EVENTS.CHECK_FAIL
    match amapFind (key % 65536) s.ams.gens with
    | some g => if g % 256 = key / 2 ^ 24 % 256 then s1 else s1.ev t RGN.EVENTS.REVOKED_HIT
    | none => s1
  | .bounds => (s.bump t RGN.BOUNDS_FAIL.COUNT 1).ev t RGN.EVENTS.CHECK_FAIL
  | .noRight => (s.bump t RGN.RIGHT_FAIL.COUNT 1).ev t RGN.EVENTS.CHECK_FAIL

/-- Whether this unit accepts placement changes (R61): ACTIVE or SOLO. -/
def State.placing (s : State) (_ : List Byte) : Bool := s.role == .active || s.role == .solo

/-! ### STATE records (Table 10.19, SUBKIND 0) -/

/-- A region's entry as a STATE record carries it, from offset 0x08. -/
def Region.stateBody (r : Region) : List Byte :=
  leBytes 8 0 ++ leBytes 2 r.num ++ leBytes 1 r.cls ++ leBytes 1 r.tier ++ leBytes 1 r.start ++ leBytes 1 r.rights ++
  leBytes 1 r.owner ++ leBytes 1 0 ++ leBytes 4 r.key ++ leBytes 4 r.len ++ leBytes 8 r.base

/-- The STATE record of a region enters tile 0's stream. -/
def State.mirrorRegion (s : State) (n : Nat) : State :=
  match s.regionNum n with
  | some r => s.mirrorItem 0 0x11 r.stateBody
  | none => s

/-! ### Creation (R236, R39) -/

/-- The size of every tile's region count. -/
def State.countRegions (s : State) : State := s.setAll RGN.STATUS.USED s.ams.regions.length

/-- Whether n bytes at a overlap a region. -/
def State.overlaps (s : State) (a n : Nat) : Bool :=
  s.ams.regions.any (fun r => decide (a < r.base + r.len * 2 ^ 21) && decide (r.base < a + n))

/-- The lowest free base for n bytes: 0, or the end of a region. -/
def State.lowestBase (s : State) (n : Nat) : Option Nat :=
  ((0 :: s.ams.regions.map (fun r => r.base + r.len * 2 ^ 21)).filter (fun a =>
    decide (a + n ≤ 2 ^ 50) && !s.overlaps a n)).foldl (fun m a => match m with
    | none => some a
    | some b => some (min a b)) none

/-- The tile of extent i of a region (R39). -/
def Region.tileOf (r : Region) (tiles i : Nat) : Nat := if r.right 4 then r.start else (r.start + i) % tiles

/-- The extents that a region homes on tile t. -/
def Region.countOn (r : Region) (tiles t : Nat) : Nat :=
  if r.right 4 then (if t = r.start then r.len else 0)
  else (r.len + (tiles - 1) - (t + tiles - r.start % tiles) % tiles) / tiles

/-- The level-2 blocks a region touches (R32). -/
def Region.blocks (r : Region) : List Nat :=
  (List.range ((r.base / 2 ^ 21 + r.len - 1) / 65536 - r.base / 2 ^ 37 + 1)).map (fun i => r.base / 2 ^ 37 + i)

/-- Whether every tile has the frames and the deep capacity a region needs, and the home map its blocks (R32, R39, R150); deep
homes need a deep tier that takes new ones (Table 12.6 bit 3, R163). -/
def State.roomFor (s : State) (r : Region) : Bool :=
  s.everyTile (fun t => let n := r.countOn s.tiles t
    decide (n ≤ s.freeFrames t r.tier) && (r.cls == 0 || s.deepRoom t n)) &&
  decide ((s.blocksUsed ++ r.blocks).dedup.length ≤ s.gMax) && !(r.tier == 2 && s.cause 3)

/-- A region enters the table of every tile and its extents take their homes. -/
def State.addRegion (s : State) (r : Region) : State :=
  let s1 := (s.updAms (fun m => { m with regions := m.regions ++ [r]
                                         gens := amapInsert r.num r.gen (amapErase r.num m.gens) })).countRegions
  (List.range r.len).foldl (fun a i => a.placeExtent (r.base / 2 ^ 21 + i) (r.tileOf s.tiles i) r.tier) s1

/-- The payload of REGION_CREATE: base, length, default tier, starting tile, class, flags. -/
def createSizes : List Nat := [8, 4, 1, 1, 1, 1]

/-- The class that a payload names: 0xFF is mirrored. -/
def classOf (c : Nat) : Nat := if c = 255 then 2 else c

/-- REGION_CREATE: number, base and key (R236). -/
def cmdRegionCreate : Cmd :=
  { mirCmd 0x0200 [1, 2] .region
    (fun s pl => match parse339 createSizes pl with
      | some [b, n, tier, t, c, fl] =>
        (b == 2 ^ 64 - 1 || (b % 2 ^ 21 == 0 && decide (b + n * 2 ^ 21 ≤ 2 ^ 50) && !s.overlaps b (n * 2 ^ 21))) &&
        decide (1 ≤ n) && decide (n ≤ 2 ^ 29) && decide (tier < 3) && decide (t < s.tiles) && (decide (c < 3) || c == 255) &&
        decide (fl < 32) && !(c == 0 && tier == 2)
      | _ => false)
    (fun c pl s =>
      let f := fieldAt createSizes pl
      let base := if f 0 = 2 ^ 64 - 1 then s.lowestBase (f 1 * 2 ^ 21) else some (f 0)
      let used := s.ams.regions.map (·.num)
      let num := lowestFree used used.length 0
      match base with
      | none => .done s .noResource
      | some b =>
        if 65536 ≤ num then .done s .noResource else
        let (tag, s1) := s.draw
        let r : Region := ⟨num, b, f 1, classOf (f 4), f 2, f 3, f 5, c.role, (amapFind num s.ams.gens).getD 0, tag % 256⟩
        if !s.roomFor r then .done s .noResource else
        ⟨s1.addRegion r, .ok, build339 [(2, num), (8, b), (4, r.key)], fun a => a.mirrorRegion num, none⟩) with
    ready := State.placing }

/-! ### Revocation (R242, R243) -/

/-- The revocation at the front begins phase 1. -/
def State.beginRevoke (s : State) : State :=
  match s.ams.revokes with
  | v :: vs =>
    if v.phase = 0 then
      (s.updAms (fun m => { m with revokes := { v with phase := 1 } :: vs })).allTiles (fun t a => a.setFs t
        [(RGN.REVOKE.PHASE1, 1), (RGN.REVOKE.PHASE2, 0), (RGN.REVOKE.REGION, v.region)])
    else s
  | [] => s

/-- A revocation is requested; it waits behind any other. -/
def State.revoke (s : State) (n cause keep : Nat) : State :=
  match s.regionNum n with
  | none => s
  | some r =>
    let (tag, s1) := s.draw
    (s1.updAms (fun m => { m with revokes := m.revokes ++ [⟨n, cause, keep, 0, r.gen, if cause = 0 then tag % 256 else r.tag⟩] })).beginRevoke

/-- Whether an address range lies in a region. -/
def Region.holds (r : Region) (a : Nat) : Bool := decide (r.base ≤ a) && decide (a < r.base + r.len * 2 ^ 21)

/-- The orders of plans that refer to a region, disarmed (R45). -/
def State.disarmRegion (s : State) (n : Nat) : State :=
  s.updAms (fun m => { m with plans := m.plans.map (fun p => { p with orders := p.orders.map (fun o =>
    if ((p.refs[o.ridx]?).map (·.region)) = some n && (o.st == 0 || o.st == 1) then { o with st := 3 } else o) }) })

/-- The MOVE_RESULT notification of one extent: extent range, order, result code (Table 2.11). -/
def State.moveResult (s : State) (e order code : Nat) : State :=
  s.notify 0x03F0 (build339 [(4, e), (4, 1), (4, order), (1, code)])

/-- The body of a MOVE record (Table 10.19): OP 0 start, 1 commit, 2 cancelled, 3 abandoned. -/
def moveBody (e op : Nat) (q : MoveReq) : List Byte :=
  leBytes 4 e ++ leBytes 1 op ++ leBytes 1 q.tile ++ leBytes 1 q.tier ++ leBytes 1 (b2n q.shared) ++ leBytes 4 q.order ++
  leBytes 4 0 ++ leBytes 8 q.plan

/-- What a move that ends without its commit has reserved and written at its destination is released. -/
def State.releaseDest (s : State) (m : Move) : State :=
  match m.frame with
  | none => s
  | some f =>
    if m.req.tier = 2 then
      if ((s.homeOf m.ext).map (·.tile)) = some m.req.tile then s.freeDen m.req.tile m.ext
      else (s.firn.deep.filter (fun d => d.tile == m.req.tile && d.page / 512 == m.ext)).foldl
        (fun a d => a.unmapDeep d.tile d.page) s |>.freeDen m.req.tile m.ext
    else s.freeFrameBytes ⟨m.req.tile, m.req.tier, false, false, f⟩

/-- A move ends without its commit: its destination is released, MV cleared, Firn no longer asked. -/
def State.dropMove (s : State) (m : Move) : State :=
  let s1 := (s.updAms (fun x => { x with moves := x.moves.erase m })).releaseDest m
  let s2 := match s1.homeOf m.ext with
    | some h => s1.setHome m.ext { h with mv := false }
    | none => s1
  s2.updFirn (fun f => { f with cleanAsk := f.cleanAsk.filter (fun x => x != m.ext) })

/-- A move in PREPARING or COPYING and a pending request of an extent are cancelled (Table 2.10); the result of a partner's move is the partner's to
tell. -/
def State.cancelMove (s : State) (e : Nat) : State :=
  let s0 := match amapFind e s.ams.issued with
    | some q => (s.updAms (fun m => { m with issued := amapErase e m.issued })).moveResult e q.order 3
    | none => s
  let s1 := match amapFind e s0.ams.movePend with
    | some (q, partner) =>
      let a := s0.updAms (fun m => { m with movePend := amapErase e m.movePend })
      if partner then a else a.moveResult e q.order 3
    | none => s0
  match s1.ams.moves.find? (fun m => m.ext == e && !m.flipping) with
  | some m =>
    let t := ((s1.homeOf e).map (·.tile)).getD 0
    let s2 := (s1.dropMove m).ev t MOV.EVENTS.CANCELLED
    if m.partner then s2 else (s2.mirrorItem t 0x0B (moveBody e 2 m.req)).moveResult e m.req.order 3
  | none => s1

/-- Work of one-sided messages and capsules that meets the end of phase 1 (Table 9.3): portions that have not arrived whole or are not
admitted are discarded; a message that is all received draws NAK for its last PSN; capsules in execution are marked. A cleared right
meets only the work that needs it: `writes` for WR, `reads` for RD. What has passed its check as an RDMA READ, an atomic or a capsule READ
completes (R242). -/
def State.meetRevoke (s : State) (r : Region) (writes reads : Bool) : State :=
  let lost := s.net.portions.filter (fun p => writes && r.holds p.addr && p.kind == .write &&
    (p.st == .new || p.st == .waiting || (p.st == .admitted && !p.arrived)))
  let s1 := lost.foldl State.discardPortion s
  let naks := (lost.filter (fun p => !p.capsule)).filterMap (fun p => match p.src with
    | .qp n psn => ((s.qp n).bind (fun q => q.reqs.find? (fun x => x.psn == psn && x.whole))).map (fun x => (n, x.last))
    | _ => none)
  let s2 := naks.foldl (fun a e => a.nak e.1 e.2 2) s1
  s2.updNet (fun x => { x with execs := x.execs.map (fun e =>
    let op := (e.bytes.headD 0).toNat
    let ka := leNat (bytesAt e.bytes 0x10 4) % 65536
    let ks := leNat (bytesAt e.bytes 0x20 4) % 65536
    if (writes && ka = r.num && (op = 1 || op = 3 || op = 4)) || (reads && op = 4 && ks = r.num) then { e with revoked := true } else e) })

/-- REVOKE record of a phase in tile 0's stream. -/
def State.mirrorRevoke (s : State) (n phase gen : Nat) : State :=
  s.mirrorItem 0 0x09 (leBytes 2 n ++ leBytes 1 phase ++ leBytes 1 gen ++ leBytes 4 0)

/-- The end of phase 1: no tile matches the old key, or the old right, any more. -/
def State.phase1End (s : State) (v : Revoke) : State :=
  match s.regionNum v.region with
  | none => s
  | some r =>
    let r' := if v.cause = 2 then { r with rights := r.rights / 8 * 8 + v.keep % 8 }
      else { r with gen := (r.gen + 1) % 256, tag := v.newTag }
    let s1 := s.updAms (fun m => { m with
      regions := m.regions.map (fun x => if x.num = r.num then r' else x)
      gens := amapInsert r.num r'.gen (amapErase r.num m.gens)
      revokes := m.revokes.map (fun x => if x.phase = 1 then { x with phase := 2 } else x) })
    let s2 := s1.allTiles (fun t a => a.setFs t [(RGN.REVOKE.PHASE1, 0), (RGN.REVOKE.PHASE2, 1)])
    let s3 := if v.cause = 2 then s2 else (s2.disarmRegion r.num)
    let s4 := if v.cause = 2 then s3 else r.exts.foldl (fun a e => a.cancelMove e) s3
    let loses := fun (right : Nat) => v.cause != 2 || (r.right right && !v.keep.testBit right)
    let ends := s4.feed.streams.filter (fun x => x.live && r.holds x.cfg.src && loses 0)
    let s5 := ends.foldl (fun a x => a.haltStream x.cfg.num 2 .revoked) s4
    (s5.meetRevoke r (loses 1) (loses 0)).mirrorRevoke r.num 1 r'.gen

/-- REVOKE_PHASE1_END -/
def execRevokePhase1End (s : State) : Host.Outcome State Fault Refusal :=
  .next (match s.ams.revokes with
    | v :: _ => if v.phase = 1 && s.placing [] then s.phase1End v else s
    | [] => s)

/-- Whether an RDMA READ, an atomic or a capsule READ that passed its check on a region is still to complete (R242). -/
def State.stillReads (s : State) (r : Region) : Bool :=
  s.net.qps.any (fun q => q.st == 2 && !q.shadow && q.reqs.any (fun x =>
    (x.kind == 3 || x.kind == 5 || (x.kind == 4 && !x.reached)) && x.key % 65536 == r.num)) ||
  s.net.execs.any (fun e => (e.bytes.headD 0).toNat == 2 && !e.failed && leNat (bytesAt e.bytes 0x10 4) % 65536 == r.num)

/-- Whether everything admitted before the end of phase 1 has drained (R242, R305): no admitted portion, no read under way, no marked capsule,
no FLIPPING move and no stream that a revocation stops in the region. -/
def State.drained (s : State) (r : Region) : Bool :=
  !(s.net.portions.any (fun p => r.holds p.addr && (p.st == .admitted || p.st == .applied))) &&
  !s.stillReads r && !(s.net.execs.any (fun e => e.revoked && (leNat (bytesAt e.bytes 0x10 4) % 65536 == r.num ||
      leNat (bytesAt e.bytes 0x20 4) % 65536 == r.num))) &&
  !(s.ams.moves.any (fun m => m.flipping && r.holds (m.ext * 2 ^ 21))) &&
  !(s.feed.streams.any (fun x => x.st == 5 && x.cause == 2 && r.holds x.cfg.src))

/-- The revocation at the front ends: a deleted region's number, frames, pages and tokens are free; REGION_REVOKED is sent; the
command that asked is answered; the next revocation begins. -/
def State.phase2End (s : State) (v : Revoke) : State :=
  match s.regionNum v.region with
  | none => s
  | some r =>
    let s1 := s.updAms (fun m => { m with revokes := m.revokes.drop 1 })
    let s2 := if v.cause = 1 then ((s1.freeRegion r).updAms (fun m => { m with regions := m.regions.filter (fun x => x.num != r.num) })).countRegions
      else s1
    let s3 := (s2.setAll RGN.REVOKE.PHASE2 0).allTiles (fun t a => a.ev t RGN.EVENTS.REVOKE_DONE)
    let s4 := (s3.mirrorRevoke r.num 2 r.gen).notify 0x02F0 (build339 [(2, r.num), (1, v.oldGen), (1, r.gen), (1, v.cause)])
    let s5 := match s4.mb.deferred.find? (fun d => d.region == r.num && d.cause == v.cause) with
      | some d => { s4 with mb := { s4.mb with deferred := s4.mb.deferred.erase d } }.finishCmd true false d.frame d.session
          d.role .ok (if v.cause = 0 then build339 [(4, r.key)] else [])
      | none => s4
    s5.beginRevoke

/-- REVOKE_PHASE2_END -/
def execRevokePhase2End (s : State) : Host.Outcome State Fault Refusal :=
  .next (match s.ams.revokes with
    | v :: _ => if v.phase = 2 && s.placing [] && (match s.regionNum v.region with
        | some r => s.drained r
        | none => true) then s.phase2End v else s
    | [] => s)

/-! ### Commands (Table 9.13) -/

/-- The region number at the front of a payload. -/
def regionArg (pl : List Byte) : Nat := leNat (pl.take 2)

/-- The right of the owning role (R239); an absent region is left to step 6. -/
def ownsRegion (role : Nat) (s : State) (pl : List Byte) : Bool :=
  match s.regionNum (regionArg pl) with
  | some r => r.owner == role
  | none => true

/-- A command on a region of the owning role. -/
def regionCmd (opcode : Nat) (sizes : List Nat) (run : Caller → List Byte → State → CmdOut) : Cmd :=
  { mirCmd opcode [1, 2] .region (fun s pl => (parse339 sizes pl).isSome && (s.regionNum (regionArg pl)).isSome) run with
    right := ownsRegion, ready := State.placing }

/-- REGION_DELETE (R244). -/
def cmdRegionDelete : Cmd := regionCmd 0x0201 [2]
  (fun _ pl s => ⟨s.revoke (regionArg pl) 1 0, .ok, [], id, some (regionArg pl, 1)⟩)

/-- REGION_REKEY (R241): the STATE record that follows the command carries the new key. -/
def cmdRegionRekey : Cmd := regionCmd 0x0202 [2]
  (fun _ pl s => ⟨s.revoke (regionArg pl) 0 0, .ok, [], fun a =>
    match a.regionNum (regionArg pl), a.ams.revokes.reverse.find? (fun v => v.region == regionArg pl && v.cause == 0) with
    | some r, some v => a.mirrorItem 0 0x11 { r with gen := (r.gen + 1) % 256, tag := v.newTag }.stateBody
    | _, _ => a, some (regionArg pl, 0)⟩)

/-- Whether a REGION_SET_FLAGS changes PIN alone, or nothing (R240). -/
def pinOnly (s : State) (pl : List Byte) : Bool :=
  match s.regionNum (regionArg pl) with
  | some r => (fieldAt [2, 1] pl 1) % 8 == r.rights % 8
  | none => false

/-- REGION_SET_FLAGS: RD, WR, AT and PIN; SINGLE stays. Setting acts at once, clearing RD, WR or AT is a revocation of those rights. -/
def runSetFlags (_ : Caller) (pl : List Byte) (s : State) : CmdOut :=
  match s.regionNum (regionArg pl) with
  | none => .done s .badArg
  | some r =>
    let fl := fieldAt [2, 1] pl 1 % 16
    let single := r.rights / 16 * 16
    let clears := (List.range 3).any (fun i => r.right i && !fl.testBit i)
    let both := (r.rights % 8) ||| (fl % 8)
    let s1 := s.updAms (fun m => { m with regions := m.regions.map (fun x =>
      if x.num = r.num then { x with rights := both + fl / 8 * 8 + single } else x) })
    if clears then ⟨s1.revoke r.num 2 (fl + single), .ok, [], id, some (r.num, 2)⟩ else .done s1 .ok

/-- REGION_SET_FLAGS as it changes rights. -/
def cmdRegionSetFlags : Cmd :=
  { regionCmd 0x0203 [2, 1] runSetFlags with
    check := fun s pl => match parse339 [2, 1] pl with
      | some [n, fl] => (s.regionNum n).isSome && decide (fl < 16)
      | _ => false }

/-- REGION_SET_FLAGS that changes PIN alone: in any twin role, not mirrored (R240). -/
def cmdRegionSetPin : Cmd := { cmdRegionSetFlags with mirrored := false, ready := always }

/-- An entry as REGION_QUERY returns it (R268), laid out as the region entry of Table 10.19: the key without its TAG for other roles. -/
def Region.entry (r : Region) (role : Nat) : List Byte :=
  let key := if role = r.owner then r.key else r.key - r.tag % 256 * 2 ^ 16
  build339 [(2, r.num), (1, r.cls), (1, r.tier), (1, r.start), (1, r.rights), (1, r.owner), (4, key), (4, r.len), (8, r.base)]

/-- REGION_QUERY -/
def cmdRegionQuery : Cmd := readCmd 0x0204 .reading
  (fun s pl => (parse339 [2] pl).isSome && (s.regionNum (regionArg pl)).isSome)
  (fun c pl s => match s.regionNum (regionArg pl) with
    | some r => .reply s (r.entry c.role)
    | none => .done s .badArg)

/-- REGION_LIST: numbers, bases, lengths, classes, owning roles; as many as a payload holds, from the number named. -/
def cmdRegionList : Cmd := readCmd 0x0205 .reading
  (fun _ pl => pl.isEmpty || (parse339 [2] pl).isSome)
  (fun _ pl s => .reply s (buildWithList [] 24 (((s.ams.regions.filter (fun r => decide (regionArg pl ≤ r.num))).take 170).map
    (fun r => build339 [(2, r.num), (8, r.base), (4, r.len), (1, r.cls), (1, r.owner)]))))

/-- REGION_CREATE -/
def execRegionCreate (f : Frame) (s : State) : Host.Outcome State Fault Refusal := .next (mailbox cmdRegionCreate f s)

/-- REGION_DELETE -/
def execRegionDelete (f : Frame) (s : State) : Host.Outcome State Fault Refusal := .next (mailbox cmdRegionDelete f s)

/-- REGION_REKEY -/
def execRegionRekey (f : Frame) (s : State) : Host.Outcome State Fault Refusal := .next (mailbox cmdRegionRekey f s)

/-- REGION_SET_FLAGS -/
def execRegionSetFlags (f : Frame) (s : State) : Host.Outcome State Fault Refusal :=
  .next (mailbox (if pinOnly s f.payload then cmdRegionSetPin else cmdRegionSetFlags) f s)

/-- REGION_QUERY -/
def execRegionQuery (f : Frame) (s : State) : Host.Outcome State Fault Refusal := .next (mailbox cmdRegionQuery f s)

/-- REGION_LIST -/
def execRegionList (f : Frame) (s : State) : Host.Outcome State Fault Refusal := .next (mailbox cmdRegionList f s)

end Sys2Proof.Machine
end

