-- ==== Sys2Proof/Machine/Plans.lean ====
section
/-! DEFINITION. Tier plans: the file (R41, R42), activation, orders and their triggers (R43 to R46). -/

namespace Sys2Proof.Machine

/-! ### The file (Tables 2.4 to 2.9) -/

/-- A little-endian field of a file. -/
def fileNat (bs : List Byte) (o n : Nat) : Nat := leNat (bytesAt bs o n)

/-- A section: type, entry size, count, offset (Table 2.5). -/
structure Section where
  type : Nat
  size : Nat
  count : Nat
  off : Nat
deriving DecidableEq, Repr

/-- The section table. -/
def planSections (bs : List Byte) : List Section :=
  (List.range (fileNat bs 0x0A 2)).map (fun i => ⟨fileNat bs (0x40 + 16 * i) 2, fileNat bs (0x42 + 16 * i) 2,
    fileNat bs (0x44 + 16 * i) 4, fileNat bs (0x48 + 16 * i) 4⟩)

/-- The entries of a section type. -/
def planEntries (bs : List Byte) (ty : Nat) : List (List Byte) :=
  match (planSections bs).find? (fun x => x.type == ty) with
  | some x => (List.range x.count).map (fun i => bytesAt bs (x.off + i * x.size) x.size)
  | none => []

/-- The entry size and the limit of a section type (Tables 2.5, 2.9). -/
def sectionLimits (ty : Nat) : Option (Nat × Nat) :=
  match ty with
  | 1 => some (24, 4096)
  | 2 => some (16, 65536)
  | 3 => some (32, 65536)
  | _ => none

/-- A section is of a known type and size, within the file and off the header and the table. -/
def Section.ok (x : Section) (n len : Nat) : Bool :=
  (match sectionLimits x.type with
   | some (sz, lim) => x.size == sz && decide (x.count ≤ lim)
   | none => false) &&
  x.off % 8 == 0 && decide (0x40 + 16 * n ≤ x.off) && decide (x.off + x.size * x.count ≤ len)

/-- No two sections overlap or have one type. -/
def sectionsApart : List Section → Bool
  | [] => true
  | x :: xs => xs.all (fun y => x.type != y.type &&
      (decide (x.off + x.size * x.count ≤ y.off) || decide (y.off + y.size * y.count ≤ x.off) || x.count == 0 || y.count == 0)) &&
      sectionsApart xs

/-- The header and the section table obey R41. -/
def planHeaderOk (tiles : Nat) (bs : List Byte) : Bool :=
  let n := fileNat bs 0x0A 2
  fileNat bs 0 4 == 0x4650544A && fileNat bs 4 2 == 1 && fileNat bs 6 2 == 0 && fileNat bs 8 2 == 64 && decide (1 ≤ n) &&
  decide (n ≤ 3) && fileNat bs 0x0C 1 == tiles && decide (fileNat bs 0x0D 1 ≤ 8) && fileNat bs 0x0E 2 == 0 &&
  fileNat bs 0x10 8 != 0 && fileNat bs 0x18 4 == bs.length && decide (bs.length ≤ 2 ^ 24) && leNat (bytesAt bs 0x20 28) == 0 &&
  decide (0x40 + 16 * n ≤ bs.length) &&
  fileNat bs 0x3C 4 == crc32 (bs.take 0x3C ++ List.replicate 4 0 ++ bs.drop 0x40) &&
  (List.range n).all (fun i => fileNat bs (0x4C + 16 * i) 4 == 0) &&
  (planSections bs).all (fun x => x.ok n bs.length) && sectionsApart (planSections bs) &&
  (planSections bs).any (fun x => x.type == 1)

/-- REGION_REF entries (Table 2.6). -/
def refOk (e : List Byte) : Bool :=
  decide (fileNat e 3 1 < 3) && fileNat e 8 8 % 2 ^ 21 == 0 && decide (fileNat e 8 8 < 2 ^ 50) && fileNat e 0x10 8 == 0

def refOf (e : List Byte) : PlanRef := ⟨fileNat e 0 2, fileNat e 2 1, fileNat e 3 1, fileNat e 4 4, fileNat e 8 8⟩

/-- The range and destination fields that ASSIGN and MOVE entries share: RIDX, FIRST, COUNT, TIER. -/
def rangeOk (refs : List PlanRef) (ridx first count tier : Nat) : Bool :=
  (match refs[ridx]? with
   | some r => decide (first + count ≤ r.len)
   | none => false) && decide (1 ≤ count) && decide (tier < 3)

/-- ASSIGN entries (Table 2.7). -/
def assignOk (refs : List PlanRef) (e : List Byte) : Bool :=
  rangeOk refs (fileNat e 0 2) (fileNat e 4 4) (fileNat e 8 4) (fileNat e 3 1) && decide (fileNat e 0x0C 2 < 2) && fileNat e 0x0E 2 == 0

def assignOf (e : List Byte) : PlanAssign :=
  ⟨fileNat e 0 2, fileNat e 2 1, fileNat e 3 1, fileNat e 4 4, fileNat e 8 4, fileNat e 0x0C 2 == 1⟩

/-- MOVE entries (Table 2.8); OBJ names a stream of the package (Table 11.1) or a chain queue. -/
def orderOk (tiles : Nat) (refs : List PlanRef) (e : List Byte) : Bool :=
  let trig := fileNat e 0x12 1
  let obj := fileNat e 0x14 4
  let v := fileNat e 0x18 8
  fileNat e 0 4 != 0 && rangeOk refs (fileNat e 4 2) (fileNat e 8 4) (fileNat e 0x0C 4) (fileNat e 0x11 1) &&
  decide (fileNat e 6 2 < 2) && fileNat e 0x13 1 == 0 &&
  (match trig with
   | 1 => decide (obj < 32 * tiles) && decide (v < 2 ^ 32)
   | 2 => decide (obj < 4096) && decide (v < 2 ^ 32)
   | 0 | 3 => obj == 0 && v == 0
   | _ => false)

def orderOf (e : List Byte) : PlanOrder :=
  { id := fileNat e 0 4, ridx := fileNat e 4 2, shared := fileNat e 6 2 == 1, first := fileNat e 8 4, count := fileNat e 0x0C 4,
    tile := fileNat e 0x10 1, tier := fileNat e 0x11 1, trig := fileNat e 0x12 1, obj := fileNat e 0x14 4,
    value := fileNat e 0x18 8, st := 3, left := [] }

/-- A plan file that obeys R41, as the plan it spells. -/
def parsePlan (tiles : Nat) (bs : List Byte) : Option Plan :=
  if !planHeaderOk tiles bs then none else
  let re := planEntries bs 1
  let refs := re.map refOf
  let ae := planEntries bs 2
  let oe := planEntries bs 3
  if re.all refOk && ae.all (assignOk refs) && oe.all (orderOk tiles refs) && decide ((oe.map (fun e => fileNat e 0 4)).Nodup) then
    some ⟨fileNat bs 0x10 8, fileNat bs 0x0D 1, false, refs, ae.map assignOf, oe.map orderOf, bs⟩
  else none

/-! ### Orders (R44) -/

/-- A plan. -/
def State.plan (s : State) (n : Nat) : Option Plan := s.ams.plans.find? (fun p => p.id == n)

/-- A plan changed. -/
def State.updPlan (s : State) (n : Nat) (f : Plan → Plan) : State :=
  s.updAms (fun m => { m with plans := m.plans.map (fun p => if p.id = n then f p else p) })

/-- An order changed. -/
def State.updOrder (s : State) (p o : Nat) (f : PlanOrder → PlanOrder) : State :=
  s.updPlan p (fun x => { x with orders := x.orders.map (fun y => if y.id = o then f y else y) })

/-- The extents an order or assignment covers. -/
def Plan.exts (p : Plan) (ridx first count : Nat) : List Nat :=
  match p.refs[ridx]? with
  | some r => (List.range count).map (fun i => r.base / 2 ^ 21 + first + i)
  | none => []

/-- ORDER record (Table 10.19). -/
def State.mirrorOrder (s : State) (p o st : Nat) : State :=
  s.mirrorItem 0 0x0A (leBytes 8 p ++ leBytes 4 o ++ leBytes 1 st ++ leBytes 3 0)

/-- Move requests issued to the movers; a STANDBY takes each from the ACTIVE's MOVE records (R51). -/
def State.issue (s : State) (es : List Nat) (q : MoveReq) : State :=
  if !s.placing [] then s else s.updAms (fun m => { m with issued := m.issued ++ es.map (fun e => (e, q)) })

/-- An order fires, once: one move request for each extent it covers. -/
def State.fire (s : State) (p : Plan) (o : PlanOrder) (es : List Nat) : State :=
  (((s.updOrder p.id o.id (fun x => { x with st := 1, left := es })).issue es ⟨o.tile, o.tier, o.shared, o.id, p.id⟩).mirrorOrder
    p.id o.id 1)

/-- The armed orders of active plans that p picks, ascending by ORDER_ID. -/
def State.armed (s : State) (p : PlanOrder → Bool) : List (Plan × PlanOrder) :=
  ((s.ams.plans.filter (·.active)).flatMap (fun x => (x.orders.filter (fun o => o.st == 0 && p o)).map (fun o => (x, o)))).mergeSort
    (fun a b => decide (a.2.id ≤ b.2.id))

/-- Fires every armed order that p picks; only where R61 accepts placement changes (R51). -/
def State.fireAll (s : State) (p : PlanOrder → Bool) : State :=
  if s.placing [] then (s.armed p).foldl (fun a e => a.fire e.1 e.2 (e.1.exts e.2.ridx e.2.first e.2.count)) s else s

/-- ORDER_RASTER_LINE: the orders on a stream whose count of lines sent has reached VALUE. -/
def execOrderRasterLine (stream : Nat) (s : State) : Host.Outcome State Fault Refusal :=
  .next (match s.linesSent stream with
    | some n => s.fireAll (fun o => o.trig == 1 && o.obj == stream && decide (o.value ≤ n))
    | none => s)

/-- ORDER_CHAIN_COUNT: the orders on a chain queue whose count has reached VALUE. -/
def execOrderChainCount (cqn : Nat) (s : State) : Host.Outcome State Fault Refusal :=
  .next (match s.chain cqn with
    | some c => s.fireAll (fun o => o.trig == 2 && o.obj == cqn && hasReached c.count o.value)
    | none => s)

/-! ### Commands (Table 2.21) -/

/-- PLAN_LOAD_BEGIN: FILE_LEN; an open load is dropped (DESIGN CHOICE, log entry 20). -/
def cmdPlanLoadBegin : Cmd :=
  { mirCmd 0x0310 [1] .region
    (fun _ pl => match parse339 [4] pl with
      | some [n] => decide (64 ≤ n) && decide (n ≤ 2 ^ 24)
      | _ => false)
    (fun _ pl s => if 64 ≤ s.ams.plans.length then .done s .noResource
      else .done (s.updAms (fun m => { m with planLoad := some ⟨fieldAt [4] pl 0, []⟩ })) .ok) with ready := State.placing }

/-- Bytes put into a load from an offset. -/
def putCells : Nat → List Byte → List Host.Cell → List Host.Cell
  | _, [], l => l
  | o, b :: bs, l => putCells (o + 1) bs (amapSet 0 l o b)

/-- PLAN_LOAD_DATA: OFFSET, 4 reserved bytes, bytes of the file; what runs past FILE_LEN must be the payload's zero padding. With no load
open STATE_CONFLICT (DESIGN CHOICE, log entry 20). -/
def cmdPlanLoadData : Cmd :=
  { mirCmd 0x0311 [1] .region
    (fun s pl => match parseTail [4, 4] 8 pl, s.ams.planLoad with
      | some ([o, z], bs), some l => z == 0 && decide (o + bs.length < l.len + 8) && decide (bs.length ≤ 4088) &&
          leNat (bs.drop (l.len - o)) == 0
      | some ([_, z], _), none => z == 0
      | _, _ => false)
    (fun _ pl s => match parseTail [4, 4] 8 pl, s.ams.planLoad with
      | some ([o, _], bs), some l =>
        .done (s.updAms (fun m => { m with planLoad := some { l with cells := putCells o (bs.take (l.len - o)) l.cells } })) .ok
      | _, _ => .done s .stateConflict) with ready := State.placing }

/-- PLAN_LOAD_END: the file is checked under R41 and loaded inactive, or wholly rejected. -/
def cmdPlanLoadEnd : Cmd :=
  { mirCmd 0x0312 [1] .region noArgs
    (fun _ _ s => match s.ams.planLoad with
      | none => .done s .stateConflict
      | some l =>
        let s1 := s.updAms (fun m => { m with planLoad := none })
        match parsePlan s.tiles ((List.range l.len).map (fun i => amapGet 0 l.cells i)) with
        | some p =>
          if (s1.plan p.id).isSome then .done s1 .badArg
          else .done (s1.updAms (fun m => { m with plans := m.plans ++ [p] })) .ok
        | none => .done s1 .badArg) with ready := State.placing }

/-- The refusals of R43, in the order of its table. -/
def State.activateStatus (s : State) (p : Plan) : Status :=
  let bad := fun (r : PlanRef) => match s.regionNum r.region with
    | some x => x.base != r.base || x.len != r.len || x.cls != r.cls
    | none => true
  let old := fun (r : PlanRef) => match s.regionNum r.region with
    | some x => x.gen != r.gen
    | none => false
  let governed := fun (r : PlanRef) => s.ams.plans.any (fun q => q.active && q.id != p.id &&
    q.refs.any (fun y => y.region == r.region))
  let arming := (p.orders.filter (fun o => o.trig != 0 && (o.st == 0 || o.st == 3))).length
  let volDeep := fun (ridx tier tile : Nat) =>
    (tier == 2 && ((p.refs[ridx]?).map (·.cls)) == some 0) || decide (s.tiles ≤ tile)
  if p.refs.any bad then .badArg
  else if p.refs.any old then .revoked
  else if p.refs.any governed then .busy
  else if s.anyTile (fun t => decide (s.fld t NTR.SIZE.STEPS < p.nearMin)) then .noResource
  else if 16384 < (s.armed (fun o => o.trig != 0)).length + arming then .noResource
  else if p.assigns.any (fun a => volDeep a.ridx a.tier a.tile) || p.orders.any (fun o => volDeep o.ridx o.tier o.tile) then .badArg
  else .ok

/-- Activation (R44, R46): assignments in file order; IMMEDIATE orders and fired ones that are not complete, ascending; the others
armed. -/
def State.activate (s : State) (p : Plan) : State :=
  let s1 := s.updPlan p.id (fun x => { x with active := true, orders := x.orders.map (fun o => if o.st = 3 then { o with st := 0 } else o) })
  let s2 := p.assigns.foldl (fun a e => a.issue (p.exts e.ridx e.first e.count) ⟨e.tile, e.tier, e.shared, 0, p.id⟩) s1
  let now := ((p.orders.filter (fun o => (o.trig == 0 && o.st != 2) || o.st == 1)).mergeSort (fun a b => decide (a.id ≤ b.id)))
  now.foldl (fun a o => a.fire p o (if o.st = 1 then o.left else p.exts o.ridx o.first o.count)) s2

/-- A command on a loaded plan; an unknown plan is BAD_ARG. -/
def planCmd (opcode : Nat) (run : Plan → State → CmdOut) : Cmd :=
  { mirCmd opcode [1] .region (fun s pl => match parse339 [8] pl with
      | some [n] => (s.plan n).isSome
      | _ => false)
    (fun _ pl s => match s.plan (fieldAt [8] pl 0) with
      | some p => run p s
      | none => .done s .badArg) with ready := State.placing }

/-- PLAN_ACTIVATE; an active plan is STATE_CONFLICT (DESIGN CHOICE, log entry 20). -/
def cmdPlanActivate : Cmd := planCmd 0x0313 (fun p s =>
  if p.active then .done s .stateConflict
  else if s.activateStatus p = .ok then .done (s.activate p) .ok else .done s (s.activateStatus p))

/-- PLAN_DEACTIVATE: unfired orders are disarmed; requests issued go on (R45). An inactive plan is STATE_CONFLICT (DESIGN CHOICE, log entry 20). -/
def cmdPlanDeactivate : Cmd := planCmd 0x0314 (fun p s =>
  if p.active then .done (s.updPlan p.id (fun x => { x with active := false, orders := x.orders.map (fun o =>
    if o.st = 0 then { o with st := 3 } else o) })) .ok
  else .done s .stateConflict)

/-- PLAN_UNLOAD: inactive plans only. -/
def cmdPlanUnload : Cmd := planCmd 0x0315 (fun p s =>
  if p.active then .done s .busy else .done (s.updAms (fun m => { m with plans := m.plans.filter (fun x => x.id != p.id) })) .ok)

/-- The arguments of PLAN_STATUS: the plan, and the number of the first order to be told, 0 where it is left out (DESIGN CHOICE, log entry 20). -/
def planAsk (pl : List Byte) : Option (Nat × Nat) :=
  match parse339 [8] pl, parse339 [8, 4] pl with
  | some [n], _ => some (n, 0)
  | _, some [n, k] => some (n, k)
  | _, _ => none

/-- PLAN_STATUS: whether the plan is active, and the state of each order, as ORDER records code it, in file order, 510 at most from the one asked
for on. -/
def cmdPlanStatus : Cmd := readCmd 0x0316 .reading
  (fun s pl => match planAsk pl with
    | some (n, k) => (s.plan n).any (fun p => k == 0 || decide (k < p.orders.length))
    | none => false)
  (fun _ pl s => match (planAsk pl).bind (fun x => (s.plan x.1).map (fun p => (p, x.2))) with
    | some (p, k) => .reply s (buildWithList [(1, b2n p.active)] 8 (((p.orders.drop k).take 510).map (fun o => build339 [(4, o.id), (1, o.st)])))
    | none => .done s .badArg)

/-- PLAN_LOAD_BEGIN -/
def execPlanLoadBegin (f : Frame) (s : State) : Host.Outcome State Fault Refusal := .next (mailbox cmdPlanLoadBegin f s)

/-- PLAN_LOAD_DATA -/
def execPlanLoadData (f : Frame) (s : State) : Host.Outcome State Fault Refusal := .next (mailbox cmdPlanLoadData f s)

/-- PLAN_LOAD_END -/
def execPlanLoadEnd (f : Frame) (s : State) : Host.Outcome State Fault Refusal := .next (mailbox cmdPlanLoadEnd f s)

/-- PLAN_ACTIVATE -/
def execPlanActivate (f : Frame) (s : State) : Host.Outcome State Fault Refusal := .next (mailbox cmdPlanActivate f s)

/-- PLAN_DEACTIVATE -/
def execPlanDeactivate (f : Frame) (s : State) : Host.Outcome State Fault Refusal := .next (mailbox cmdPlanDeactivate f s)

/-- PLAN_UNLOAD -/
def execPlanUnload (f : Frame) (s : State) : Host.Outcome State Fault Refusal := .next (mailbox cmdPlanUnload f s)

/-- PLAN_STATUS -/
def execPlanStatus (f : Frame) (s : State) : Host.Outcome State Fault Refusal := .next (mailbox cmdPlanStatus f s)

end Sys2Proof.Machine
end

