-- ==== Sys2Proof/Machine/Moves.lean ====
section
/-! DEFINITION. The tier mover: requests, the state machine of Table 2.10, the commit, races, and its commands (R20, R33, R34, R47 to
R55, R61). -/

namespace Sys2Proof.Machine

/-- The move in progress of an extent. -/
def State.moveOf (s : State) (e : Nat) : Option Move := s.ams.moves.find? (fun m => m.ext == e)

/-- The move of an extent changed. -/
def State.updMove (s : State) (e : Nat) (f : Move → Move) : State :=
  s.updAms (fun x => { x with moves := x.moves.map (fun m => if m.ext = e then f m else m) })

/-- The source home tile of an extent. -/
def State.homeTile (s : State) (e : Nat) : Nat := ((s.homeOf e).map (·.tile)).getD 0

/-- Moves of a tile in COPYING or FLIPPING (`MOV.STATUS.ACTIVE`). -/
def State.movesActive (s : State) (t : Nat) : Nat :=
  (s.ams.moves.filter (fun m => (m.copying || m.flipping) && s.homeTile m.ext == t)).length

/-- The born pages of an extent. -/
def State.bornOf (s : State) (e : Nat) : List Nat := s.firn.born.filter (fun p => p / 512 == e)

/-! ### Results (R47, R44) -/

/-- An extent of an order is DONE; the order is complete when all are, and the ACTIVE's ORDER record says so. -/
def State.orderDone (s : State) (e : Nat) (q : MoveReq) : State :=
  if q.order = 0 then s else
  match (s.plan q.plan).bind (fun p => p.orders.find? (fun o => o.id == q.order)) with
  | none => s
  | some o =>
    let left := o.left.filter (fun x => x != e)
    if o.st = 1 && left.isEmpty && s.placing [] then
      (s.updOrder q.plan q.order (fun x => { x with left := [], st := 2 })).mirrorOrder q.plan q.order 2
    else s.updOrder q.plan q.order (fun x => { x with left := left })

/-- A request completes DONE or DONE_POISON on a tile. -/
def State.moveDone (s : State) (t e : Nat) (q : MoveReq) (partner poison : Bool) : State :=
  let s1 := (if poison then s.ev t MOV.EVENTS.POISON else s).bump t MOV.DONE_CNT.COUNT 1
  let s2 := s1.orderDone e q
  if partner then s2 else s2.moveResult e q.order (b2n poison)

/-! ### Data (R48, R52 to R54, Table 2.12) -/

/-- A move within one tile to its deep tier: the mapping flip of R53. -/
def State.isFlip (s : State) (m : Move) : Bool := m.req.tier == 2 && s.homeTile m.ext == m.req.tile

/-- Every backing image of an extent is current: each born page has a deep copy of its GEN on the home tile, and no token. -/
def State.imagesCurrent (s : State) (e : Nat) : Bool :=
  let t := s.homeTile e
  (s.bornOf e).all (fun p => (s.tokenOf t p).isNone && (match s.deepAt t p with
    | some d => d.gen == s.gen p
    | none => false))

/-- The destination as a home. -/
def Move.dest (m : Move) : Home := ⟨m.req.tile, m.req.tier, false, m.req.shared, m.frame.getD 0⟩

/-- A page written at a home that is not yet the extent's: programmed in a deep tier with its mask, stored in the others. -/
def State.putPage (s : State) (h : Home) (p : Nat) (bs : List Byte) : State :=
  match h.tier with
  | 0 => s.setBytes .near h.tile (h.local (p * 4096)) bs
  | 1 => s.decWrite h.tile (h.local (p * 4096)) bs
  | _ => s.programDeep h.tile p (s.gen p) (s.maskOf p) bs 0

/-- Pages copied from the source home, in the class of mover reads (R67), to the destination; in a deep tier their last page stripe ends. -/
def State.copyPages (s : State) (m : Move) (ps : List Nat) : State :=
  match s.homeOf m.ext with
  | none => s
  | some h =>
    let s1 := ps.foldl (fun a p =>
      let (bs, a1) := a.readHome h true (p * 4096) 4096
      a1.putPage m.dest p bs) s
    if m.req.tier = 2 then s1.closeRow m.req.tile 0 else s1

/-- Whether the destination holds pages that have been copied: a deep tier may have had no place for them. -/
def State.copied (s : State) (m : Move) (ps : List Nat) : Bool :=
  m.req.tier != 2 || ps.all (fun p => (s.deepAt m.req.tile p).any (fun d => d.gen == s.gen p))

/-! ### PREPARING -/

/-- Whether the destination tile's deep tier has what a durable or mirrored extent reserves there, or still reserves for it (R150), and takes a deep
home at all (Table 12.6 bit 3). -/
def State.deepAllows (s : State) (m : Move) : Bool :=
  ((s.reserving m.req.tile).contains m.ext || s.classAt (m.ext * 2 ^ 21) == 0 || s.deepRoom m.req.tile 1) && !(m.req.tier == 2 && s.cause 3)

/-- A destination frame, or deep extent number, is reserved (R47, R58). -/
def State.reserve (s : State) (m : Move) : Option (Nat × State) :=
  if !s.deepAllows m then none
  else if m.req.tier = 2 then
    let s1 := s.ensureDen m.req.tile m.ext
    (s1.denOf m.req.tile m.ext).map (fun n => (n, s1))
  else (s.freeFrame m.req.tile m.req.tier).map (fun f => (f, s.freeFrameBytes ⟨m.req.tile, m.req.tier, false, false, f⟩))

/-- A move that a stream's source data holds: an event, once (R55, R304). -/
def State.holdPath (s : State) (m : Move) : State :=
  if m.toldPath then s else (s.recOpen (s.homeTile m.ext) MOV.EVENTS.WAIT_SPACE.blk m.ext).updMove m.ext (fun x => { x with toldPath := true })

/-- A move without a free destination frame waits; the bit, and an event once. -/
def State.waitSpace (s : State) (m : Move) : State :=
  if m.told then s.ev (s.homeTile m.ext) MOV.EVENTS.WAIT_SPACE
  else (s.evRec (s.homeTile m.ext) MOV.EVENTS.WAIT_SPACE m.ext).updMove m.ext (fun x => { x with told := true })

/-- A move reserves its frame, and Firn is asked to clean an extent that is demoted on its tile (Table 2.10). -/
def State.reserveMove (s : State) (m : Move) : State :=
  if m.frame.isSome then s
  else if s.feedHolds m.ext m.req then s.holdPath m
  else match s.reserve m with
    | none => s.waitSpace m
    | some (f, s1) =>
      let s2 := (s1.updMove m.ext (fun x => { x with frame := some f })).noteFeedBw
      if s.isFlip m then s2.updFirn (fun x => { x with cleanAsk := x.cleanAsk.filter (fun y => y != m.ext) ++ [m.ext] }) else s2

/-- A STANDBY whose copy of a move has reached FLIPPING tells its partner (R51). -/
def State.sendReady (s : State) (m : Move) : State :=
  if m.partner then s.emit' (s.homeTile m.ext) 0x0C (leBytes 4 m.ext ++ leBytes 4 0) else s

/-- A move leaves PREPARING where its tile allows another and is not paused; MV is set (Table 2.2). -/
def State.startMove (s : State) (m : Move) : State :=
  let t := s.homeTile m.ext
  let s1 := match s.homeOf m.ext with
    | some h => s.setHome m.ext { h with mv := true }
    | none => s
  if m.frame.isNone || s.flag t MOV.CTRL.PAUSE || decide (s.fld t MOV.CTRL.MAX_PAR ≤ s.movesActive t) then s
  else if s.isFlip m then
    if s.imagesCurrent m.ext then (s1.updMove m.ext (fun x => { x with flipping := true })).sendReady m else s
  else s1.updMove m.ext (fun x => { x with copying := true, todo := s.bornOf m.ext })

/-- Whether a move is in PREPARING. -/
def Move.preparing (m : Move) : Bool := !m.copying && !m.flipping

/-- What a move in PREPARING can do now. -/
def State.tryPrepare (s : State) (e : Nat) : State :=
  match s.moveOf e with
  | some m =>
    if !m.preparing then s else
    let s1 := s.reserveMove m
    match s1.moveOf e with
    | some m1 => s1.startMove m1
    | none => s1
  | none => s

/-! ### Requests (R47) -/

/-- A home map entry as a STATE record carries it. -/
def State.mirrorHome (s : State) (e : Nat) : State :=
  match s.homeOf e with
  | some h => s.mirrorItem h.tile 0x11 (leBytes 8 1 ++ leBytes 4 e ++ leBytes 2 1 ++ leBytes 2 0 ++ leBytes 4 h.word ++ leBytes 4 0)
  | none => s

/-- A request for the extent's own home: DONE, nothing moved; SH as the request says. -/
def State.alreadyHome (s : State) (e : Nat) (h : Home) (q : MoveReq) (partner : Bool) : State :=
  let s1 := if h.sh == q.shared then s else (s.setHome e { h with sh := q.shared }).mirrorHome e
  s1.moveDone h.tile e q partner false

/-- A request takes the pending slot; what it replaces completes SUPERSEDED. A partner's start that finds this unit's copy of the move before it not
yet committed waits here as the partner's (R51). -/
def State.pend (s : State) (e t : Nat) (q : MoveReq) (partner : Bool) : State :=
  let s1 := match amapFind e s.ams.movePend with
    | some o => if o.2 then s else (s.ev t MOV.EVENTS.SUPERSEDED).moveResult e o.1.order 2
    | none => s
  s1.updAms (fun x => { x with movePend := amapInsert e (q, partner) (amapErase e x.movePend) })

/-- A request for an extent (R47): its home, the pending slot, or a move in PREPARING whose start the partner hears (R51). -/
def State.moveRequest (s : State) (e : Nat) (q : MoveReq) (partner : Bool) : State :=
  match s.homeOf e with
  | none => s.moveResult e q.order 3
  | some h =>
    if (s.moveOf e).isSome then s.pend e h.tile q partner
    else if h.tile = q.tile && h.tier = q.tier then s.alreadyHome e h q partner
    else
      let s1 := s.updAms (fun x => { x with moves := x.moves ++ [⟨e, q, false, false, none, [], [], 0, false, false, false, partner, false, false⟩] })
      ((if partner then s1 else s1.mirrorItem h.tile 0x0B (moveBody e 0 q))).tryPrepare e

/-- MOVE_REQUEST: a mover takes the request issued first. -/
def execMoveRequest (s : State) : Host.Outcome State Fault Refusal :=
  .next (match s.ams.issued with
    | (e, q) :: l => (s.updAms (fun x => { x with issued := l })).moveRequest e q false
    | [] => s)

/-- MOVE_FRAME_FREE: a move in PREPARING tries again: a frame, a path or a place among the moves of its tile has come free. -/
def execMoveFrameFree (ext : Nat) (s : State) : Host.Outcome State Fault Refusal := .next (s.tryPrepare ext)

/-- MOVE_CLEANED: Firn has cleaned an extent that is demoted on its tile. -/
def execMoveCleaned (ext : Nat) (s : State) : Host.Outcome State Fault Refusal :=
  .next (match s.moveOf ext with
    | some m => if s.isFlip m && s.imagesCurrent ext then s.tryPrepare ext else s
    | none => s)

/-! ### COPYING (R48) -/

/-- MOVE_PASS_DONE: the pages of a pass have been copied; the next pass takes the re-copy set, or FLIPPING begins. A pass waits for the restore and
the recovery of what it reads (R54) and for room where it writes. -/
def State.passDone (s : State) (e : Nat) : State :=
  match s.moveOf e with
  | none => s
  | some m =>
    let t := s.homeTile e
    if !m.copying || s.flag t MOV.CTRL.PAUSE then s else
    let s0 := s.probePages m.todo
    let s1 := s0.copyPages m m.todo
    if !s0.readable m.todo || !s1.copied m m.todo then s0 else
    if m.recopy.length ≤ s.fld t MOV.RECOPY.THRESH || m.passes + 1 = s.fld t MOV.RECOPY.MAX_PASS then
      (s1.updMove e (fun x => { x with copying := false, flipping := true, passes := m.passes + 1, todo := [] })).sendReady m
    else s1.updMove e (fun x => { x with passes := m.passes + 1, todo := m.recopy, recopy := [] })

/-- MOVE_PASS_DONE; `near`: near-tier words found wrong by the mover's reads (R59). -/
def execMovePassDone (ext : Nat) (near : List NearErr) (s : State) : Host.Outcome State Fault Refusal := .next ((s.addNear near).passDone ext)

/-! ### FLIPPING and the commit (R49 to R53) -/

/-- Dirty pages of an extent at its home. -/
def State.dirtyExt (s : State) (e : Nat) : List Token :=
  s.firn.tokens.filter (fun k => k.tile == s.homeTile e && k.page / 512 == e)

/-- The conditions of R49: writes drained, tokens for the dirty pages at the destination, the partner ready, and for the flip every
image current. -/
def State.mayCommit (s : State) (m : Move) : Bool :=
  m.flipping && !s.net.portions.any (fun p => p.addr / 2 ^ 21 == m.ext && p.st == .admitted) &&
  (s.homeTile m.ext == m.req.tile || decide ((s.dirtyExt m.ext).length ≤ s.freeTokens m.req.tile)) &&
  (if m.partner then m.commitDue else s.role != .active || m.ready) && (!s.isFlip m || s.imagesCurrent m.ext)

/-- Step 3 of R49: dirty lines and eviction buffer entries of the extent reach the source home. -/
def State.cleanSource (s : State) (e t : Nat) : State :=
  let inExt := fun (n : Nat) => n / 2 ^ 14 == e
  let s1 := (s.cache.ranges.filter (fun r => r.tile == t && r.dirty && inExt r.n)).foldl (fun a r => a.pushEvb t r.n r.data) s
  let s2 := s1.updCache (fun c => { c with ranges := c.ranges.map (fun r => if r.tile = t && inExt r.n then { r with dirty := false } else r) })
  (s2.cache.evb.filter (fun x => x.tile == t && inExt x.n)).foldl (fun a x => a.writeBack x) s2

/-- Whether they all have. -/
def State.sourceClean (s : State) (e t : Nat) : Bool :=
  !s.cache.ranges.any (fun r => r.tile == t && r.dirty && r.n / 2 ^ 14 == e) && !s.cache.evb.any (fun x => x.tile == t && x.n / 2 ^ 14 == e)

/-- Steps 3 and 4 of R49 begin: the source is clean, and the reads of the pages still to be copied have begun. -/
def State.beginCommit (s : State) (m : Move) (h : Home) : State :=
  let s1 := s.cleanSource m.ext h.tile
  s1.probePages (((s1.moveOf m.ext).map (·.recopy)).getD [])

/-- Whether they can end now. -/
def State.canCopy (s : State) (m : Move) (h : Home) : Bool :=
  let todo := ((s.moveOf m.ext).map (·.recopy)).getD []
  s.sourceClean m.ext h.tile && (s.isFlip m || (s.readable todo && (s.copyPages m todo).copied m todo))

/-- Tokens of dirty pages pass from the source tile to the destination tile (R50). -/
def State.passTokens (s : State) (ks : List Token) (d : Nat) : State :=
  ks.foldl (fun a k => ((a.takeToken d k.page k.inflight).updToken d k.page (fun x => { x with taken := k.taken, since := k.since })).returnToken
    k.tile k.page) s

/-- What the source keeps of the deep copies (Table 2.12): nothing where the extent's new home is a deep tier elsewhere, only those of
clean pages otherwise; its buffered ranges are part of what was copied. -/
def State.settleImages (s : State) (m : Move) (h : Home) (dirty : List Nat) : State :=
  if h.tile = m.req.tile then
    (if h.tier = 2 then s.updFirn (fun f => { f with ranges := f.ranges.filter (fun r => r.n / 2 ^ 14 != m.ext) }) else s)
  else
    let gone := fun (d : DeepPage) => d.tile == h.tile && d.page / 512 == m.ext && (m.req.tier == 2 || dirty.contains d.page)
    let s1 := (s.firn.deep.filter gone).foldl (fun a d => a.unmapDeep d.tile d.page) s
    s1.updFirn (fun f => { f with
      ranges := f.ranges.filter (fun r => r.n / 2 ^ 14 != m.ext)
      caps := f.caps.map (fun c => { c with pages := c.pages.filter (fun x => !(c.tile == h.tile && x.page / 512 == m.ext)) }) })

/-- The commit (R49, R34), once `State.canCopy` holds: the last pages copied, home map in the copies of both home tiles, every other tile's copy left to `HOME_MAP_APPLY`, the source
frame freed, the source tile's lines invalidated. -/
def State.commitMove (s : State) (m : Move) (h : Home) : State :=
  let e := m.ext
  let todo := ((s.moveOf e).map (·.recopy)).getD []
  let s2 := if s.isFlip m then s else s.copyPages m todo
  let ks := if h.tile = m.req.tile then [] else s2.dirtyExt e
  let s3 := s2.passTokens ks m.req.tile
  let s4 := if m.partner then s3 else s3.mirrorItem h.tile 0x0B (moveBody e 1 m.req)
  let s5 := s4.setHome e { m.dest with frame := m.frame.getD 0 }
  let others := (List.range s.tiles).filter (fun t => t != h.tile && t != m.req.tile)
  let s6 := s5.updAms (fun x => { x with
    moves := x.moves.filter (fun y => y.ext != e)
    stale := x.stale.filter (fun y => !(y.2.1 == e && (y.1 == h.tile || y.1 == m.req.tile))) ++ others.map (fun t => (t, e, h)) })
  let s7 := s6.updCache (fun c => { c with ranges := c.ranges.filter (fun r => !(r.tile == h.tile && r.n / 2 ^ 14 == e)) })
  let s8 := (s7.freeFrameBytes h).settleImages m h (ks.map (·.page))
  let s9 := if h.tier = 2 then s8.freeDen h.tile e else s8
  s9.updFirn (fun f => { f with cleanAsk := f.cleanAsk.filter (fun x => x != e) })

/-- A move whose conditions hold ends: commit, result, pending request (R47, R49). -/
def State.tryCommit (s : State) (e : Nat) : State :=
  match s.moveOf e, s.homeOf e with
  | some m, some h =>
    if !s.mayCommit m then s else
    let s0 := s.beginCommit m h
    if !s0.canCopy m h then s0 else
    let poison := !(s0.poisonIn (e * 2 ^ 21) (2 ^ 21)).isEmpty
    let s1 := ((s0.commitMove m h).moveDone h.tile e m.req m.partner poison).noteFeedBw
    match amapFind e s1.ams.movePend with
    | some (q, partner) => (s1.updAms (fun x => { x with movePend := amapErase e x.movePend })).moveRequest e q partner
    | none => s1
  | _, _ => s

/-- MOVE_COMMIT -/
def execMoveCommit (ext : Nat) (s : State) : Host.Outcome State Fault Refusal := .next (s.tryCommit ext)

/-- HOME_MAP_APPLY: a tile applies the oldest change of an extent that its home map copy lacks (R34). -/
def execHomeMapApply (tile ext : Nat) (s : State) : Host.Outcome State Fault Refusal :=
  onTile tile s (match s.ams.stale.find? (fun x => x.1 == tile && x.2.1 == ext) with
    | some x => s.updAms (fun m => { m with stale := m.stale.erase x })
    | none => s)

/-- FORWARD_TO_HOME: a write that has reached a tile which no longer homes its extent goes on to the home (R20); what waited for tokens
there asks anew. -/
def execForwardToHome (id : Nat) (s : State) : Host.Outcome State Fault Refusal :=
  .next (match s.portion id with
    | some p => match s.homeOf (p.addr / 2 ^ 21) with
      | some h => if p.tile != h.tile && (p.st == .new || p.st == .waiting) then
          s.updPortion id (fun x => { x with tile := h.tile, st := .new }) else s
      | none => s
    | none => s)

/-! ### Ends other than the commit (R55) -/

/-- A move's ABANDONED in the event record: the bit, and a record with extent and order. -/
def State.recAbandoned (s : State) (e order : Nat) : State := s.evRec (s.homeTile e) MOV.EVENTS.ABANDONED (e + 2 ^ 32 * order)

/-- Every move is abandoned: Freeze, or loss of the ACTIVE role. The partner hears of it while this unit still feeds the stream; a Freeze leaves the
record for after the restore (Table 2.13). -/
def State.abandonMoves (s : State) : State :=
  let s1 := s.ams.moves.foldl (fun a m =>
    let b := if s.dstate == .freeze then (a.dropMove m).updAms (fun x => { x with abandoned := x.abandoned ++ [(m.ext, m.req.order)] })
      else (a.dropMove m).recAbandoned m.ext m.req.order
    if m.partner then b else (b.mirrorItem (a.homeTile m.ext) 0x0B (moveBody m.ext 3 m.req)).moveResult m.ext m.req.order 4) s
  (s1.ams.movePend.foldl (fun a e => if e.2.2 then a else a.moveResult e.1 e.2.1.order 4) s1).updAms (fun x =>
    { x with movePend := [], issued := [] })

/-- A unit that begins to serve issues again every fired order whose extents are not all DONE (R55). -/
def State.reissueOrders (s : State) : State :=
  (s.ams.plans.filter (·.active)).foldl (fun a p => (p.orders.filter (fun o => o.st == 1)).foldl
    (fun b o => b.issue o.left ⟨o.tile, o.tier, o.shared, o.id, p.id⟩) a) s

/-! ### Commands (Table 2.21) -/

/-- TIER_QUERY: for each tile and tier, frames in all, free, and holding FIFOs. -/
def cmdTierQuery : Cmd := readCmd 0x0300 .reading noArgs
  (fun _ _ s => .reply s (buildWithList [] 16 ((List.range s.tiles).flatMap (fun t => (List.range 3).map (fun k =>
    let total := if k = 0 then s.fld t NTR.SIZE.STEPS * 4 else if k = 1 then s.mainBytes / 2 ^ 21 else s.userCap t / 2 ^ 21
    let free := if k = 2 then total - (s.reserving t).length else s.freeFrames t k
    build339 [(1, t), (1, k), (4, total), (4, free), (4, if k = 0 then (s.fifoFrames t).length else 0)])))))

/-- HOME_QUERY: the entry of an AMS address, 0 where it lies in no region. -/
def cmdHomeQuery : Cmd := readCmd 0x0301 .reading
  (fun _ pl => match parse339 [8] pl with
    | some [a] => decide (a < 2 ^ 50)
    | _ => false)
  (fun _ pl s => .reply s (build339 [(4, ((s.homeOf (fieldAt [8] pl 0 / 2 ^ 21)).map Home.word).getD 0)]))

/-- Whether every extent of a range lies in a region, and its class may go to a tier. -/
def State.rangeOk (s : State) (first n tier : Nat) : Bool :=
  let common := fun (r : Region) => min (first + n) (r.base / 2 ^ 21 + r.len) - max first (r.base / 2 ^ 21)
  decide (1 ≤ n) && ((s.ams.regions.map common).sum == n) && !s.ams.regions.any (fun r => r.cls == 0 && tier == 2 && common r != 0)

/-- MOVE_EXTENTS: first extent, count, tile, tier; one request for each; SH as it stands. -/
def cmdMoveExtents : Cmd :=
  { mirCmd 0x0320 [1] .region
    (fun s pl => match parse339 [4, 4, 1, 1] pl with
      | some [f, n, t, k] => decide (t < s.tiles) && decide (k < 3) && s.rangeOk f n k
      | _ => false)
    (fun _ pl s =>
      let f := fieldAt [4, 4, 1, 1] pl
      .done ((List.range (f 1)).foldl (fun a i =>
        a.issue [f 0 + i] ⟨f 2, f 3, ((s.homeOf (f 0 + i)).map (·.sh)).getD false, 0, 0⟩) s) .ok) with ready := State.placing }

/-- MOVE_CANCEL: the move and the pending request of each extent of a range (Table 2.10). -/
def cmdMoveCancel : Cmd :=
  { mirCmd 0x0321 [1] .region
    (fun s pl => match parse339 [4, 4] pl with
      | some [f, n] => s.rangeOk f n 0
      | _ => false)
    (fun _ pl s =>
      let f := fieldAt [4, 4] pl
      .done ((List.range (f 1)).foldl (fun a i => if a.placing [] then a.cancelMove (f 0 + i) else a) s) .ok) with ready := State.placing }

/-- MOVE_STATUS: state (0 IDLE, 1 PREPARING, 2 COPYING, 3 FLIPPING), destination, order, and the pending slot. -/
def cmdMoveStatus : Cmd := readCmd 0x0322 .reading
  (fun _ pl => match parse339 [4] pl with
    | some [e] => decide (e < 2 ^ 29)
    | _ => false)
  (fun _ pl s =>
    let e := fieldAt [4] pl 0
    let q := (s.moveOf e).map (·.req)
    let st := match s.moveOf e with
      | some m => if m.flipping then 3 else if m.copying then 2 else 1
      | none => 0
    let w := (amapFind e s.ams.movePend).map (·.1)
    .reply s (build339 [(1, st), (1, (q.map (·.tile)).getD 0), (1, (q.map (·.tier)).getD 0), (1, b2n w.isSome), (4, (q.map (·.order)).getD 0),
      (1, (w.map (·.tile)).getD 0), (1, (w.map (·.tier)).getD 0), (4, (w.map (·.order)).getD 0)]))

/-- TIER_QUERY -/
def execTierQuery (f : Frame) (s : State) : Host.Outcome State Fault Refusal := .next (mailbox cmdTierQuery f s)

/-- HOME_QUERY -/
def execHomeQuery (f : Frame) (s : State) : Host.Outcome State Fault Refusal := .next (mailbox cmdHomeQuery f s)

/-- MOVE_EXTENTS -/
def execMoveExtents (f : Frame) (s : State) : Host.Outcome State Fault Refusal := .next (mailbox cmdMoveExtents f s)

/-- MOVE_CANCEL -/
def execMoveCancel (f : Frame) (s : State) : Host.Outcome State Fault Refusal := .next (mailbox cmdMoveCancel f s)

/-- MOVE_STATUS -/
def execMoveStatus (f : Frame) (s : State) : Host.Outcome State Fault Refusal := .next (mailbox cmdMoveStatus f s)

end Sys2Proof.Machine
end

