-- ==== Sys2Proof/Machine/Cache.lean ====
section
/-! DEFINITION. The tier cache as its own events and commands drive it: lookups and fills, the eviction buffer, maintenance, the state
machine of Table 3.3, ways, the repartition (R57, R62 to R85). -/

namespace Sys2Proof.Machine

/-- Cache states (`TCH.STATUS.STATE`). -/
inductive CState
  | enabled | draining | disabled | repartitioning | stopped
deriving DecidableEq, Repr

/-- The code of a cache state. -/
def CState.code : CState → Nat
  | enabled => 0 | draining => 1 | disabled => 2 | repartitioning => 3 | stopped => 4

/-- A tile's cache is in a state. -/
def State.cacheIs (s : State) (t : Nat) (c : CState) : Bool := s.fld t TCH.STATUS.STATE == c.code

/-- A tile's cache goes to a state. -/
def State.cacheTo (s : State) (t : Nat) (c : CState) : State := s.setF t TCH.STATUS.STATE c.code

/-- Nothing valid in a tile's cache and its buffer empty. -/
def State.cacheEmpty (s : State) (t : Nat) : Bool := !s.cache.ranges.any (fun r => r.tile == t) && (s.evbOf t).isEmpty

/-! ### Lookups and fills (R62, R64, R70, R83) -/

/-- Errors that a lookup meets in the arrays (R83): in the data none, one bit, more; in tag and state one array, both. -/
structure CacheErr where
  data : Nat
  tag : Nat
deriving DecidableEq, Repr

/-- A dirty range with an uncorrectable word goes home as poison, its page under one identifier, with one record. -/
def State.cachePoison (s : State) (r : CRange) : State :=
  let s1 := ((s.poisonPage r.tile (r.n / 32)).bump r.tile TCH.ECC.UNCORR 1).evRec r.tile TCH.EVENTS.DATA_UNCORR (r.n * 128)
  let s2 := s1.drainEvb r.tile 1 64
  if s2.evbRoom r.tile 1 then s2.evict (fun x => x.tile == r.tile && x.n == r.n) else s2

/-- The array errors of a lookup that finds a range: tag arrays first. -/
def State.cacheEcc (s : State) (r : CRange) (e : CacheErr) : State :=
  if e.tag = 2 then s.enterFault 12
  else
    let s1 := if e.tag = 1 then (s.ev r.tile TCH.EVENTS.TAG_REPAIR).bump r.tile TCH.ECC.CORR 1 else s
    if e.data = 1 then s1.bump r.tile TCH.ECC.CORR 1
    else if e.data = 2 then
      if r.dirty then s1.cachePoison r
      else ((s1.ev r.tile TCH.EVENTS.DATA_UNCORR).bump r.tile TCH.ECC.UNCORR 1).updCache (fun c => { c with
        ranges := c.ranges.filter (fun x => !(x.tile == r.tile && x.n == r.n)) })
    else s1

/-- A miss whose fill may not be issued: it waits at the tile's input, behind a full queue or a maintenance operation on its range (R70, Table 3.2). -/
def State.missWaits (s : State) (t n : Nat) : Bool :=
  decide (128 ≤ (s.cache.missq.filter (fun m => m.tile == t)).length) || s.cache.maint.any (fun m => m.covers t n)

/-- The fill of a miss is issued: it holds the way it will go to (R69), and its home is read, ahead of reads without the panic mark where it has it;
an allocation that finds no room in the eviction buffer waits (R73). -/
def State.issueMiss (s : State) (h : Home) (m : MissEntry) : State :=
  let wait := fun (x : State) => x.updCache (fun c => { c with waitq := c.waitq ++ [m] })
  let go := fun (x : State) (w : Option Nat) =>
    let a := h.local (m.n * 128)
    let y := (x.updCache (fun c => { c with missq := c.missq ++ [{ m with way := w }] })).fetchHome h m.n
    if m.panic && h.tier = 1 then y.markPanic h.tile (y.physAt h.tile a) 127 true else y
  if !s.allocates h.tile || s.noAlloc h || (s.wayFor h.tile m.stream m.n).isNone then go s none
  else match s.allocWay h.tile m.stream m.n with
    | some (w, s1) => go s1 (some w)
    | none => wait (s.evbStall h.tile)

/-- A miss: it joins the fill in progress for its range, whose read takes the panic mark with it, or has its own, or waits (R70). -/
def State.miss (s : State) (h : Home) (m : MissEntry) : State :=
  match s.cache.missq.find? (fun x => x.tile == m.tile && x.n == m.n) with
  | some x =>
    let s1 := s.updCache (fun c => { c with missq := c.missq.map (fun y =>
      if y = x then { y with waiters := y.waiters + m.waiters, panic := y.panic || m.panic } else y) })
    if m.panic && h.tier = 1 then s1.markPanic h.tile (s1.physAt h.tile (h.local (m.n * 128))) 127 true else s1
  | none => if s.missWaits m.tile m.n then s.updCache (fun c => { c with waitq := c.waitq ++ [m] }) else s.issueMiss h m

/-- The misses that wait at a tile's input try again, in their order. -/
def State.pumpMisses (s : State) (t : Nat) : State :=
  (s.cache.waitq.filter (fun m => m.tile == t)).foldl (fun a m =>
    let b := a.updCache (fun c => { c with waitq := c.waitq.erase m })
    match b.homeOf (m.n / 2 ^ 14) with
    | some h => if h.tile != t || h.tier == 0 then b
        else match b.cached t m.n, b.evbAt t m.n with
          | some r, _ => b.serve t m.n m.waiters r.data
          | none, some e => b.serve t m.n m.waiters e.data
          | none, none => b.miss h m
    | none => b) s

/-- A request looks up the cache of its home tile, which a near-tier home never is in. -/
def State.lookup (s : State) (t n : Nat) (stream panic : Bool) (e : CacheErr) : State :=
  match s.homeOf (n / 2 ^ 14) with
  | none => s
  | some h =>
    if h.tile != t || h.tier == 0 then s else
    match s.cached t n with
    | some r =>
      let s1 := s.cacheEcc r e
      match s1.cached t n with
      | some r1 => (s1.bump t (hitCnt stream) 1).touchWay t r1.stream (s1.setOf t r1.stream n) r1.way
      | none => if e.tag = 2 then s1 else if (s1.evbAt t n).isSome then s1.bump t (hitCnt stream) 1
          else (s1.bump t (missCnt stream) 1).miss h ⟨t, n, stream, panic, 1, none⟩
    | none => if (s.evbAt t n).isSome then s.bump t (hitCnt stream) 1 else (s.bump t (missCnt stream) 1).miss h ⟨t, n, stream, panic, 1, none⟩

/-- CACHE_LOOKUP: AMS range `n` (AMS[49:7]) at tile `tile`, by a requester of the stream class or not, with the panic mark or not;
`data`, `tag`: errors met in the arrays (R83). -/
def execCacheLookup (tile n : Nat) (stream panic : Bool) (data tag : Nat) (s : State) : Host.Outcome State Fault Refusal :=
  onTile tile s ((s.pumpMisses tile).lookup tile n stream panic ⟨data, tag⟩)

/-- CACHE_FILL: the fill of a miss queue entry ends. -/
def execCacheFill (tile n : Nat) (s : State) : Host.Outcome State Fault Refusal :=
  onTile tile s (match s.cache.missq.find? (fun m => m.tile == tile && m.n == n) with
    | some m => (s.fillEntry m).pumpMisses tile
    | none => s.pumpMisses tile)

/-! ### The eviction buffer and cleaning (R73, R76, R77) -/

/-- Whether hardware cleans a range now: its cache drains, or its way is cleaned. -/
def State.cleans (s : State) (r : CRange) : Bool :=
  s.cacheIs r.tile .draining || s.cacheIs r.tile .repartitioning || (s.fld r.tile TCH.WAYSTAT.CLEANING).testBit r.way

/-- A line that hardware cleans passes to the buffer and becomes invalid, one that is clean already only the latter; the oldest entry that its home
takes leaves the buffer. -/
def State.evbStep (s : State) (t : Nat) : State :=
  let s0 := if s.cacheIs t .draining || s.cacheIs t .repartitioning then s.evict (fun r => r.tile == t && !r.dirty) else s
  let s1 := match s0.cache.ranges.find? (fun r => r.tile == t && r.dirty && s0.cleans r) with
    | some r => if s0.evbRoom t 1 then s0.evict (fun x => x == r) else s0
    | none => s0
  (match (s1.evbOf t).find? s1.evbLeaves with
   | some e => s1.writeBack e
   | none => s1).pumpMisses t

/-- EVB_WRITEBACK -/
def execEvbWriteback (tile : Nat) (s : State) : Host.Outcome State Fault Refusal := onTile tile s (s.evbStep tile)

/-! ### Maintenance (R74, R75) -/

/-- The key and cause under which a CACHE_MAINT of a point waits for its operations (R85). -/
def maintKey (point : Nat) : Nat := 262144 + point

/-- CACHE_MAINT commands whose operations have all ended are answered. -/
def State.answerMaint (s : State) : State :=
  (s.mb.deferred.filter (fun d => d.cause == 7 && !s.cache.maint.any (fun m => m.asker == d.frame.point + 1))).foldl (fun a d =>
    a.finishWait (maintKey d.frame.point) 7 .ok []) s

/-- The first operation of a tile with the OP given acts. -/
def State.maintStep (s : State) (t op : Nat) : State :=
  match s.cache.maint.find? (fun m => m.tile == t && m.op == op) with
  | some m => ((s.runMaint m).pumpMisses t).answerMaint
  | none => s

/-- CLEAN: the oldest CLEAN of a tile acts, and ends where nothing holds it. -/
def execClean (tile : Nat) (s : State) : Host.Outcome State Fault Refusal := onTile tile s (s.maintStep tile 1)

/-- INVALIDATE -/
def execInvalidate (tile : Nat) (s : State) : Host.Outcome State Fault Refusal := onTile tile s (s.maintStep tile 2)

/-- An operation that a register (asker 0) or CACHE_MAINT of point asker − 1 begins: it comes after the writes already admitted to its range (R74). -/
def State.beginMaint (s : State) (t op n k asker : Nat) : State :=
  let before := (s.net.portions.filter (fun p => p.tile == t && p.st == .admitted && decide (n * 128 < p.addr + p.len) &&
    decide (p.addr < (n + k) * 128))).map (·.id)
  s.updCache (fun c => { c with maint := c.maint ++ [⟨t, op, n, k, asker, before⟩] })

/-- A write to `TCH.MAINT_CMD` (Table 3.8): SCOPE and OP; ignored, with the bit, while BUSY or with SCOPE 3. -/
def State.maintWrite (s : State) (t scope op : Nat) : State :=
  if s.flag t TCH.MAINT_CMD.BUSY || scope = 3 then s.ev t TCH.EVENTS.MAINT_REJECTED
  else
    let s1 := s.setF t TCH.MAINT_CMD.SCOPE scope
    let n := s.fld t TCH.MAINT_LO.ADDR_LO + s.fld t TCH.MAINT_HI.ADDR_HI * 2 ^ 25
    let k := if scope = 0 then 1 else if scope = 1 then 32 else 2 ^ 14
    if op = 1 || op = 2 then
      (s1.setF t TCH.MAINT_CMD.BUSY 1).beginMaint t op (n / k * k) k 0
    else s1

/-! ### Enable, drain, disable (Table 3.3) -/

/-- A tile's cache holds dirty data. -/
def State.dirtyCache (s : State) (t : Nat) : Bool := s.cache.ranges.any (fun r => r.tile == t && r.dirty) || !(s.evbOf t).isEmpty

/-- The cache reaches DISABLED: the bit and its record (R85). -/
def State.cacheOff (s : State) (t : Nat) : State :=
  ((s.updCache (fun c => { c with ranges := c.ranges.filter (fun r => r.tile != t) })).cacheTo t .disabled).evRec t TCH.EVENTS.DISABLED 0

/-- DRAINING begins: clean ranges are invalid at once. -/
def State.drainCache (s : State) (t : Nat) (c : CState) : State :=
  (s.updCache (fun x => { x with ranges := x.ranges.filter (fun r => r.tile != t || r.dirty) })).cacheTo t c

/-- A value of `TCH.CTRL.EN` takes effect; ignored while REPARTITIONING. -/
def State.enWrite (s : State) (t : Nat) (on : Bool) : State :=
  if s.cacheIs t .repartitioning then s else
  let s1 := s.setF t TCH.CTRL.EN (b2n on)
  if s.cacheIs t .enabled && !on then (if s.dirtyCache t then s1.drainCache t .draining else s1.cacheOff t)
  else if (s.cacheIs t .draining || s.cacheIs t .disabled) && on then s1.cacheTo t .enabled
  else s1

/-- A meaning for one tile, or for every tile with tile field 0xF (R352). -/
def onTiles (t : Nat) (s : State) (f : Nat → State → State) : Host.Outcome State Fault Refusal :=
  if t = 15 then .next (s.allTiles f) else onTile t s (f t s)

/-- TCH_EN_WRITE -/
def execTchEnWrite (tile : Nat) (en : Bool) (s : State) : Host.Outcome State Fault Refusal :=
  onTiles tile s (fun t a => a.enWrite t en)

/-- CACHE_DRAIN_DONE -/
def execCacheDrainDone (tile : Nat) (s : State) : Host.Outcome State Fault Refusal :=
  onTile tile s (if s.cacheIs tile .draining && s.cacheEmpty tile then s.cacheOff tile else s)

/-! ### Ways (R77 to R79) -/

/-- Each class keeps a powered way that is not cleaning, for class, power and cleaning masks. -/
def waysKept (cls powered cleaning : Nat) : Bool :=
  let good := (List.range 16).filter (fun w => powered.testBit w && !cleaning.testBit w)
  good.any (fun w => cls.testBit w) && good.any (fun w => !cls.testBit w)

/-- A refused way write (R78). -/
def State.wayRefused (s : State) (t v : Nat) : State := s.evRec t TCH.EVENTS.WAY_REFUSED v

/-- The ways of a mask that are powered. -/
def State.poweredOf (s : State) (t m : Nat) : Nat := m &&& s.fld t TCH.WAYSTAT.POWERED

/-- The cleaning mask after a write to `TCH.WAYPWR.ON`, and whether R78 lets the write through. -/
def State.pwrCleaning (s : State) (t v : Nat) : Nat :=
  s.fld t TCH.WAYSTAT.CLEANING ||| s.poweredOf t (s.fld t TCH.WAYPWR.ON &&& (v ^^^ 65535))

def State.pwrOk (s : State) (t v : Nat) : Bool :=
  waysKept (s.fld t TCH.WAYCLASS.STREAM) (s.fld t TCH.WAYSTAT.POWERED) (s.pwrCleaning t v)

/-- A write to `TCH.WAYPWR.ON`: cleared bits start cleaning; set bits power their ways up (`WAY_POWER_UP_DONE`). -/
def State.pwrWrite (s : State) (t v : Nat) : State :=
  if s.pwrOk t v then (s.setF t TCH.WAYSTAT.CLEANING (s.pwrCleaning t v)).setF t TCH.WAYPWR.ON v else s.wayRefused t v

/-- The same for `TCH.WAYCLASS.STREAM`: powered ways that change class are cleaned first. -/
def State.classCleaning (s : State) (t v : Nat) : Nat :=
  s.fld t TCH.WAYSTAT.CLEANING ||| s.poweredOf t (s.fld t TCH.WAYCLASS.STREAM ^^^ v)

def State.classOk (s : State) (t v : Nat) : Bool := waysKept v (s.fld t TCH.WAYSTAT.POWERED) (s.classCleaning t v)

/-- A write to `TCH.WAYCLASS.STREAM`. -/
def State.classWrite (s : State) (t v : Nat) : State :=
  if s.classOk t v then (s.setF t TCH.WAYSTAT.CLEANING (s.classCleaning t v)).setF t TCH.WAYCLASS.STREAM v else s.wayRefused t v

/-- TCH_WAYPWR_WRITE -/
def execTchWaypwrWrite (tile value : Nat) (s : State) : Host.Outcome State Fault Refusal :=
  onTiles tile s (fun t a => a.pwrWrite t (value % 65536))

/-- TCH_WAYCLASS_WRITE -/
def execTchWayclassWrite (tile value : Nat) (s : State) : Host.Outcome State Fault Refusal :=
  onTiles tile s (fun t a => a.classWrite t (value % 65536))

/-- The dirty lines of a way go home through the buffer, as many as there is room for; clean ones stop being valid. -/
def State.cleanWay (s : State) (t w : Nat) : State :=
  let mine := fun (r : CRange) => r.tile == t && r.way == w
  let s1 := s.evict (fun r => mine r && !r.dirty)
  ((s1.cache.ranges.filter mine).foldl (fun a r =>
    let b := a.drainEvb t 1 64
    if b.evbRoom t 1 then b.evict (fun x => x == r) else b) s1)

/-- WAY_CLEAN_DONE: the fills of the way have ended, its last dirty lines leave it, every line of it is invalid; it is gated where its power bit is 0,
or serves its class again; a power bit back at 1 keeps it powered (R77; DESIGN CHOICE, log entry 46). -/
def execWayCleanDone (tile way : Nat) (s : State) : Host.Outcome State Fault Refusal :=
  onUnit tile way 16 s
    (if !(s.fld tile TCH.WAYSTAT.CLEANING).testBit way || s.cache.missq.any (fun m => m.tile == tile && m.way == some way) then s else
     let s1 := s.cleanWay tile way
     if s1.cache.ranges.any (fun r => r.tile == tile && r.way == way) then s1 else
     ((s1.setF tile TCH.WAYSTAT.CLEANING (setBit (s1.fld tile TCH.WAYSTAT.CLEANING) way false)).setF tile TCH.WAYSTAT.POWERED
       (setBit (s1.fld tile TCH.WAYSTAT.POWERED) way ((s1.fld tile TCH.WAYPWR.ON).testBit way))).evRec tile TCH.EVENTS.WAY_DONE way)

/-- WAY_POWER_UP_DONE -/
def execWayPowerUpDone (tile way : Nat) (s : State) : Host.Outcome State Fault Refusal :=
  onUnit tile way 16 s
    (if (s.fld tile TCH.WAYPWR.ON).testBit way && !s.cacheIs tile .stopped then
       s.setF tile TCH.WAYSTAT.POWERED (setBit (s.fld tile TCH.WAYSTAT.POWERED) way true)
     else s)

/-! ### The near tier's size (R57, R66) -/

/-- The cache of a tile begins a repartition to a number of steps. -/
def State.beginRepart (s : State) (t n : Nat) : State :=
  (s.drainCache t .repartitioning).updCache (fun c => { c with repart := amapInsert t n (amapErase t c.repart) })

/-- REPARTITION_DONE: nothing is dirty and the buffer is empty; every way invalid, the new geometry, new near-tier frames zero, ENABLED or DISABLED. -/
def execRepartitionDone (tile : Nat) (s : State) : Host.Outcome State Fault Refusal :=
  onTile tile s (match amapFind tile s.cache.repart with
    | some n =>
      if !s.cacheIs tile .repartitioning || s.dirtyCache tile then s else
      let old := s.fld tile NTR.SIZE.STEPS
      let s1 := s.updCache (fun c => { c with
        ranges := c.ranges.filter (fun r => r.tile != tile)
        repart := amapErase tile c.repart
        plru := c.plru.filter (fun e => e.1 / 131072 != tile) })
      let s2 := (s1.wipe .near tile (old * 2 ^ 23) ((n - old) * 2 ^ 23)).setF tile NTR.SIZE.STEPS n
      s2.cacheTo tile (if s.flag tile TCH.CTRL.EN then .enabled else .disabled)
    | none => s)

/-- Whether a near-tier frame at or above n steps holds a home or FIFOs, or is reserved for a move's destination (R57; the last DESIGN CHOICE, log
entry 74). -/
def State.nearBusy (s : State) (n : Nat) : Bool := s.anyTile (fun t => (s.framesUsed t 0).any (fun f => decide (n * 4 ≤ f)))

/-- NEAR_SIZE_SET: steps of 8 MiB. -/
def cmdNearSizeSet : Cmd := actCmd 0x0330 [2] .config
  (fun _ pl => match parse339 [1] pl with
    | some [n] => decide (n ≤ 8)
    | _ => false)
  (fun _ pl s =>
    let n := fieldAt [1] pl 0
    if s.nearBusy n || s.anyTile (fun t => s.cacheIs t .repartitioning) then .done s .busy
    else .done (s.allTiles (fun t a => (a.setCfg (cfgKey t NTR.SIZE.STEPS) n).beginRepart t n)) .ok)

/-! ### Freeze (R80) -/

/-- Freeze stops the cache: no allocation, no fill or maintenance operation, the buffer's entries to the main tier or to Firn's buffer. -/
def State.stopCache (s : State) (t : Nat) : State :=
  (((s.evbOf t).foldl (fun a e => a.writeBack e) s).updCache (fun c => { c with
    missq := c.missq.filter (fun m => m.tile != t)
    waitq := c.waitq.filter (fun m => m.tile != t)
    maint := c.maint.filter (fun m => m.tile != t) })).cacheTo t .stopped

/-- The cache after a restore or a wake from S2: every way invalid, ENABLED, ways powered as the configuration says; DISABLED where it
holds EN = 0. -/
def State.startCache (s : State) (t : Nat) : State :=
  (((s.updCache (fun c => { c with ranges := c.ranges.filter (fun r => r.tile != t) })).setF t TCH.WAYSTAT.POWERED (s.fld t TCH.WAYPWR.ON)).setF
    t TCH.WAYSTAT.CLEANING 0).cacheTo t (if s.flag t TCH.CTRL.EN then .enabled else .disabled)

/-! ### Commands (Table 3.11) -/

/-- CACHE_STATUS: per tile state, way classes, powered and cleaning ways, set counts, counters. -/
def cmdCacheStatus : Cmd := readCmd 0x0340 .reading noArgs
  (fun _ _ s => .reply s (buildWithList [] 44 ((List.range s.tiles).map (fun t =>
    build339 [(1, s.fld t TCH.STATUS.STATE), (2, s.fld t TCH.WAYCLASS.STREAM), (2, s.fld t TCH.WAYSTAT.POWERED),
      (2, s.fld t TCH.WAYSTAT.CLEANING), (2, s.hostSets t), (2, s.streamSets t), (4, s.fld t TCH.HOST_HIT.COUNT),
      (4, s.fld t TCH.HOST_MISS.COUNT), (4, s.fld t TCH.STREAM_HIT.COUNT), (4, s.fld t TCH.STREAM_MISS.COUNT),
      (4, s.fld t TCH.WRITEBACK.COUNT), (4, s.fld t TCH.EVB_STALL.COUNT), (2, s.fld t TCH.ECC.UNCORR), (2, s.fld t TCH.ECC.CORR)]))))

/-- The payload of CACHE_CONFIG: tile, EN, DEEP_NOALLOC, way classes, way power. -/
def cacheCfgSizes : List Nat := [1, 1, 1, 2, 2]

/-- The writes of CACHE_CONFIG on one tile, unless R78 refuses one. -/
def State.cacheConfig (s : State) (t en na cls pwr : Nat) : Option State :=
  if !s.classOk t cls then none else
  let s1 := s.classWrite t cls
  if !s1.pwrOk t pwr then none else
  let s2 := ((s1.pwrWrite t pwr).setF t TCH.CTRL.DEEP_NOALLOC na).enWrite t (en == 1)
  some ((((s2.setCfg (cfgKey t TCH.CTRL.EN) en).setCfg (cfgKey t TCH.CTRL.DEEP_NOALLOC) na).setCfg
    (cfgKey t TCH.WAYCLASS.STREAM) cls).setCfg (cfgKey t TCH.WAYPWR.ON) pwr)

/-- CACHE_CONFIG: for all tiles, or for none where one refuses: BAD_ARG and nothing else (R78; DESIGN CHOICE, log entry 46). -/
def cmdCacheConfig : Cmd := actCmd 0x0341 [2] .config
  (fun s pl => match parse339 cacheCfgSizes pl with
    | some [t, en, na, _, _] => (decide (t < s.tiles) || t == 15) && decide (en < 2) && decide (na < 2)
    | _ => false)
  (fun _ pl s =>
    let f := fieldAt cacheCfgSizes pl
    match (s.tilesOf (f 0)).foldl (fun (a : Option State) t => a.bind (fun x => x.cacheConfig t (f 1) (f 2) (f 3) (f 4))) (some s) with
    | some a => .done a .ok
    | none => .done s .badArg)

/-- The operations of CACHE_MAINT over the pages of [a, a + n), at the home tile of each extent. -/
def State.beginMaints (s : State) (a n op asker : Nat) : State :=
  (s.ams.homes.filter (fun e => decide (a < (e.1 + 1) * 2 ^ 21) && decide (e.1 * 2 ^ 21 < a + n))).foldl (fun x e =>
    let lo := max (a / 128) (e.1 * 2 ^ 14)
    x.beginMaint e.2.tile op lo (min ((a + n) / 128) ((e.1 + 1) * 2 ^ 14) - lo) asker) s

/-- CACHE_MAINT: AMS address, pages, OP (1 CLEAN, 2 INVALIDATE); extent by extent at the home tiles; answered when all operations have ended. -/
def cmdCacheMaint : Cmd := actCmd 0x0342 [2] .config
  (fun s pl => match parse339 [8, 4, 1] pl with
    | some [a, n, op] => a % 4096 == 0 && decide (1 ≤ n) && (op == 1 || op == 2) && decide (a + n * 4096 ≤ 2 ^ 50) &&
        (s.homeOf (a / 2 ^ 21)).isSome && (s.homeOf ((a + n * 4096 - 1) / 2 ^ 21)).isSome
    | _ => false)
  (fun c pl s =>
    let f := fieldAt [8, 4, 1] pl
    let s1 := s.beginMaints (f 0) (f 1 * 4096) (f 2) (c.point + 1)
    let s2 := (s1.cache.maint.filter (fun m => m.asker == c.point + 1)).foldl State.runMaint s1
    if s2.cache.maint.any (fun m => m.asker == c.point + 1) then ⟨s2, .ok, [], id, some (maintKey c.point, 7)⟩ else .done s2 .ok)

/-- NEAR_SIZE_SET -/
def execNearSizeSet (f : Frame) (s : State) : Host.Outcome State Fault Refusal := .next (mailbox cmdNearSizeSet f s)

/-- CACHE_STATUS -/
def execCacheStatus (f : Frame) (s : State) : Host.Outcome State Fault Refusal := .next (mailbox cmdCacheStatus f s)

/-- CACHE_CONFIG -/
def execCacheConfig (f : Frame) (s : State) : Host.Outcome State Fault Refusal := .next (mailbox cmdCacheConfig f s)

/-- CACHE_MAINT -/
def execCacheMaint (f : Frame) (s : State) : Host.Outcome State Fault Refusal := .next (mailbox cmdCacheMaint f s)

end Sys2Proof.Machine
end

