-- ==== Sys2Proof/Machine/Windows.lean ====
section
/-! DEFINITION. A tile's receive buffer: write windows, the window pool and its books, priority flow control, the context cache
(R204, R216, R217, R225 to R230). -/

namespace Sys2Proof.Machine

/-- The QPs that a tile serves; a STANDBY's shadow contexts are not among them. -/
def State.tileQps (s : State) (t : Nat) : List Qp := s.net.qps.filter (fun q => qpTile q.qpn == t && !q.shadow)

/-- Bytes that pulls hold in a tile's receive buffer: reserved or arrived, and not yet applied (R226). -/
def State.pulledBytes (s : State) (t : Nat) : Nat :=
  ((s.net.portions.filter (fun p => p.pulled && s.ingress p == t && (p.st == .new || p.st == .waiting || p.st == .admitted))).map
    (·.len)).sum

/-- Receive buffer bytes held on a tile: one-sided write data not acknowledged (R229), and pulls. -/
def State.heldBytes (s : State) (t : Nat) : Nat := ((s.tileQps t).map (·.unacked)).sum + s.pulledBytes t

/-- How many bits of a byte are set. -/
def ones8 (v : Nat) : Nat := ((List.range 8).filter (fun i => v.testBit i)).length

/-- The window pool of a tile in KiB (R228): the 16 MiB receive buffer less headroom and pull pool; half of it at throttle level 2 (Table
14.7). -/
def State.poolKb (s : State) (t : Nat) : Nat :=
  let head := ([0, 1].map (fun p => s.fld t (ETH.PFC.HEADROOM.inst p) * 4 * ones8 (s.fld t (ETH.PFC.LOSSLESS.inst p)))).sum
  (16384 - head - s.fld t RMA.BUF_POOL.PULL_KB) / (if 2 ≤ s.fld 0 PWC.THERM.LEVEL then 2 else 1)

/-- The active share of the pool, KiB: the pool less the idle allowance. -/
def State.shareKb (s : State) (t : Nat) : Nat := s.poolKb t - 1024

/-- Whether a QP is active (R228). -/
def State.isActive (s : State) (q : Qp) : Bool :=
  q.kind == 0 && (match q.lastWrite with
    | some w => decide (s.now ≤ w + s.fld (qpTile q.qpn) RMA.WIN.ACTIVE_US)
    | none => false)

/-- The write window of R228 in bytes, with n active QPs. -/
def State.windowOf (s : State) (t n : Nat) : Nat :=
  max 4 (min (s.fld t RMA.WIN.MAX_KB) (s.shareKb t / n / 4 * 4)) * 1024

/-- Committed bytes of a tile's QPs, and bytes held against the idle allowance (R230); a QP with nothing committed is idle. -/
def State.committedBytes (s : State) (t : Nat) : Nat := ((s.tileQps t).map (·.committed)).sum

def State.idleBytes (s : State) (t : Nat) : Nat := (((s.tileQps t).filter (fun q => q.committed == 0)).map (·.unacked)).sum

/-- A QP's unacknowledged bytes change; what an active one has committed follows (R230). -/
def Qp.setUnacked (q : Qp) (n : Nat) : Qp :=
  { q with unacked := n, committed := if q.committed = 0 then 0 else max q.window n }

/-- The total of bytes held in a tile's idle allowance that the device keeps (R230). -/
def State.keepIdle (s : State) (t : Nat) : State :=
  s.updNet (fun x => { x with idleHeld := amapInsert t (s.idleBytes t) (amapErase t x.idleHeld) })

/-- The buffer books of a tile as `RMA.BUF_USE` shows them, and its idle total; what is held beyond the pool sets OVERCOMMIT. -/
def State.rebook (s : State) (t : Nat) : State :=
  let c := s.committedBytes t
  let s1 := (s.keepIdle t).setFs t [(RMA.BUF_USE.HELD_KB, min 65535 (ceilDiv (s.heldBytes t) 1024)),
    (RMA.BUF_USE.COMMITTED_KB, min 65535 (ceilDiv c 1024)), (RMA.BUF_POOL.WIN_KB, s.poolKb t)]
  if s.shareKb t * 1024 < c || 2 ^ 20 < s.idleBytes t then s1.ev t RMA.EVENTS.OVERCOMMIT else s1

/-- Priority flow control of a tile's ports (R204): XOFF while the free buffer is below the priority's headroom (DEDUCED, log entry 28: the
share of a priority is the whole buffer). -/
def State.flow (s : State) (t : Nat) : State :=
  let free := 2 ^ 24 - s.heldBytes t
  ((List.range 2).flatMap (fun p => (List.range 8).map (fun c => (p, c)))).foldl (fun a e =>
    let f := ETH.STATUS.RX_XOFF.inst e.1
    let want := (a.fld t (ETH.PFC.LOSSLESS.inst e.1)).testBit e.2 && decide (free < a.fld t (ETH.PFC.HEADROOM.inst e.1) * 4096)
    if (a.fld t f).testBit e.2 == want then a
    else (((a.setF t f (setBit (a.fld t f) e.2 want)).bump t (ETH.PFC_TX.COUNT.inst e.1) 1).send
      (.eth t e.1 (if want then 0 else 1) e.2 []))) s

/-! ### The context cache (R217) -/

/-- Whether a timer of a QP falls due within 10 µs: retransmission, RNR, connection, error hold, or rate restoring. -/
def State.timerNear (s : State) (q : Qp) : Bool :=
  let near := fun (a : Nat) => decide (a ≤ s.now + 10)
  q.rnrWait || (!q.sent.isEmpty && near (q.sentAt + 4096 * 2 ^ q.ackTimeout / 1000)) || (q.st == 1 && near (q.opened + 100000)) ||
  (match q.errAt with
    | some a => q.st == 4 && q.settled && near (a + s.fld (qpTile q.qpn) RMA.CTRL.ERR_HOLD_S * 1000000)
    | none => false) ||
  (match q.cnpRxAt with
    | some a => near (a + 50)
    | none => false)

/-- The context that makes room: the least recently used with no timer due soon. -/
def State.ctxVictim (s : State) (t n : Nat) : Option Qp :=
  ((s.tileQps t).filter (fun q => q.cached && q.qpn != n && !s.timerNear q)).foldl (fun m q => match m with
    | none => some q
    | some b => if q.lastUse < b.lastUse then some q else some b) none

/-- A QP's context is brought into its tile's cache of 16,384, unless it is there; where none may make room it is used and spilled again. -/
def State.fetchCtx (s : State) (n : Nat) : State :=
  match s.qp n with
  | none => s
  | some q =>
    if q.cached then s.updQp n (fun x => { x with lastUse := s.now }) else
    let t := qpTile n
    let s1 := s.bump t RMA.CTX_MISS.COUNT 1
    let s2 := if ((s.tileQps t).filter (·.cached)).length < 16384 then s1 else
      match s.ctxVictim t n with
      | some v => s1.updQp v.qpn (fun x => { x with cached := false })
      | none => s1
    let room := decide (((s2.tileQps t).filter (·.cached)).length < 16384)
    s2.updQp n (fun x => { x with cached := room, lastUse := s.now })

/-! ### Windows -/

/-- The window word is written to the host (R227). -/
def State.sendWindow (s : State) (n : Nat) : State :=
  match s.qp n with
  | some q => if q.kind = 0 && q.st = 2 then s.request n (segment q.mtuBytes q.spsn 6 q.winVa q.winKey 0 (leBytes 8 q.window)) else s
  | none => s

/-- A QP's window becomes W: committed when issued; the host and the partner learn it (R227, R230). -/
def State.setWindow (s : State) (n w : Nat) (active : Bool) : State :=
  match s.qp n with
  | none => s
  | some q =>
    let s1 := s.updQp n (fun x => { x with committed := if active then max w x.unacked else 0, window := w })
    if q.window = w then s1 else (s1.sendWindow n).mirrorQp n

/-- The windows of a tile's data QPs in RTS (R228). -/
def State.windows (s : State) (tile : Nat) : State :=
  let qs := (s.tileQps tile).filter (fun q => q.kind == 0 && q.st == 2)
  let n := (qs.filter s.isActive).length
  let w := s.windowOf tile (max 1 n)
  let s1 := s.updNet (fun x => { x with winAt := amapInsert tile s.now (amapErase tile x.winAt) })
  ((qs.foldl (fun a q => a.setWindow q.qpn (if s.isActive q then w else 4096) (s.isActive q)) s1).setF tile
    RMA.ACTIVE.QPS n).rebook tile

/-- WINDOW_RECOMPUTE: at most every 100 µs (R228). -/
def execWindowRecompute (tile : Nat) (s : State) : Host.Outcome State Fault Refusal :=
  onTile tile s
    (match amapFind tile s.net.winAt with
     | some a => if a + 100 ≤ s.now then s.windows tile else s
     | none => s.windows tile)

/-- BUF_BOOKS_CHECK: the totals kept in `RMA.BUF_USE` against the sums over contexts (R230). -/
def execBufBooksCheck (tile : Nat) (s : State) : Host.Outcome State Fault Refusal :=
  onTile tile s
    (if s.fld tile RMA.BUF_USE.COMMITTED_KB = min 65535 (ceilDiv (s.committedBytes tile) 1024) &&
        s.fld tile RMA.BUF_USE.HELD_KB = min 65535 (ceilDiv (s.heldBytes tile) 1024) &&
        (amapFind tile s.net.idleHeld).getD 0 = s.idleBytes tile then s
     else (s.evRec tile RMA.EVENTS.BOOKS 0).rebook tile)

/-- CONTEXT_FETCH: a spilled context is fetched. -/
def execContextFetch (qpn : Nat) (s : State) : Host.Outcome State Fault Refusal := .next (s.fetchCtx qpn)

end Sys2Proof.Machine
end

