-- ==== Sys2Proof/Machine/Transport.lean ====
section
/-! DEFINITION. Requests from hosts (R207 to R211, R218 to R225, R231): reception, classification by PSN, execution, acknowledgement.
Responses and NAKs are packets; the point at which each request may be acknowledged is R221's. -/

namespace Sys2Proof.Machine

/-! ### Acknowledgements (R221, R222, R276) -/

/-- Capsule slots still free in a tile's capsule store (R225). -/
def State.storeFree (s : State) (t : Nat) : Nat :=
  s.capStoreMb t * 16384 - ((s.tileQps t).map (fun q => q.caps.length)).sum

/-- Free SEND slots that the device can set aside for a QP. -/
def State.slotsFree (s : State) (q : Qp) : Nat := if q.kind = 0 then min q.slots (s.storeFree (qpTile q.qpn)) else
  2 - (s.mb.input.filter (fun f => f.point == q.mb)).length

/-- The AETH syndrome of an ACK: bits [6:5] 00 and the credit code (R225). -/
def State.ackSyn (s : State) (q : Qp) : Nat := creditCode (s.slotsFree q)

/-- Whether the partner has acknowledged a frame of tile t's stream. -/
def State.streamAcked (s : State) (t seq : Nat) : Bool :=
  !((s.twl t).unacked ++ (s.twl t).queue).any (fun f => decide (f.seq ≤ seq))

/-- Whether the ACTIVE may answer a request whose context change went out in frame `seq` (R276). -/
def State.ctxDone (s : State) (n seq : Nat) : Bool := s.role != .active || seq == 0 || s.streamAcked (qpTile n) seq

/-- The packets of a READ response; poisoned data completes with the error identifier and no data (R26, R223; DEDUCED, log entry 29). -/
def State.sendRead (s : State) (q : Qp) (psn a n : Nat) : State :=
  match s.poisonIn a n with
  | e :: _ => s.packet q 0x10 psn e.2 []
  | [] =>
    let (bs, s1) := s.readAms (qpTile q.qpn) false a n
    let cs := chunks q.mtuBytes (n / q.mtuBytes + 1) bs
    cs.zipIdx.foldl (fun x (c, i) =>
      let op := if cs.length = 1 then 0x10 else if i = 0 then 0x0D else if i + 1 = cs.length then 0x0F else 0x0E
      x.packet q op (psn + i) (if op = 0x0E then 0 else x.ackSyn q) c) s1

/-- Answers the requests of QP n that have reached their point, in the order of PSNs; `pend`: an acknowledgement gathered and not
yet sent; the first argument bounds them. -/
def State.ackGo (s : State) (n : Nat) : Nat → Option Nat → State
  | 0, _ => s
  | k + 1, pend =>
    match s.qp n with
    | none => s
    | some q =>
      let done := match pend with
        | some p => s.packet q 0x11 p (s.ackSyn q) []
        | none => s
      match q.reqs with
      | [] => done
      | r :: rs =>
        if !s.ctxDone n r.ctx then done
        else if r.kind = 3 || r.kind = 5 then
          if r.kind = 3 && s.readHeld n r.psn r.addr r.len then done
          else
            let s0 := s.probe r.addr r.len
            if s0.pagesReady r.addr r.len then ((s0.sendRead q r.psn r.addr r.len).updQp n (fun x =>
              { x with reqs := rs, acked := if r.kind = 3 then r.psn else x.acked })).ackGo n k none
            else match pend with
              | some p => s0.packet q 0x11 p (s0.ackSyn q) []
              | none => s0
        else if !r.reached then done
        else if r.kind = 4 then
          let orig := ((q.atomics.reverse.find? (fun x => x.1 == r.psn)).map (·.2)).getD 0
          ((s.packet q 0x12 r.psn (s.ackSyn q) (beBytes 8 orig)).updQp n (fun x => { x with reqs := rs, acked := r.psn })).ackGo n k
            none
        else
          (s.updQp n (fun x => { x.setUnacked (x.unacked - r.got) with reqs := rs, acked := r.last })).ackGo n k (some r.last)

/-- Everything a QP in RTS may answer now. -/
def State.ackQp (s : State) (n : Nat) : State :=
  match s.qp n with
  | some q => if q.st = 2 && !q.shadow && s.dstate != .freeze then
      ((s.ackGo n (q.reqs.length + 1) none).rebook (qpTile n)).flow (qpTile n) else s
  | none => s

/-- ACK_SEND: within 1 µs of a point being reached; READs that waited are served. -/
def execAckSend (qpn : Nat) (s : State) : Host.Outcome State Fault Refusal := .next (s.ackQp qpn)

/-! ### Reception -/

/-- Whether this unit answers its service addresses (R202). -/
def State.serving (s : State) : Bool := s.role == .active || s.role == .solo

/-- A QP enters RTS: its initial window is written, or its mailbox point connected (Table 8.7, R332). -/
def State.toRts (s : State) (n : Nat) : State :=
  match s.qp n with
  | none => s
  | some q =>
    if q.st != 1 then s else
    let s1 := (s.updQp n (fun x => { x with st := 2 })).mirrorQp n
    if q.kind = 0 then s1.sendWindow n
    else s1.setF 0 MGT.MBOX.CONNECTED (setBit (s1.fld 0 MGT.MBOX.CONNECTED) q.mb true)

/-- An ECN-marked packet draws a CNP, at most one per QP in CNP_GAP_US (R207). -/
def State.ecnMark (s : State) (q : Qp) (ecn : Bool) : State :=
  let t := qpTile q.qpn
  let due := match q.cnpAt with
    | some a => decide (a + s.fld t RMA.CTRL.CNP_GAP_US ≤ s.now)
    | none => true
  if ecn && due && s.flag t RMA.CTRL.CNP_EN then
    ((s.packet q 0x81 0 0 []).bump t RMA.CNP_TX.COUNT 1).updQp q.qpn (fun x => { x with cnpAt := some s.now })
  else s

/-- The QP a packet is for, once the unit has woken for it: none where it is dropped (R202, R208). -/
def State.landing (s0 : State) (p : Packet) : State × Option Qp :=
  let s := if s0.dstate == .s1 || s0.pow.target != 0 then s0.wakeUp 1 else s0
  if !pointServed s.dstate 1 then (s, none)
  else if p.service && !s.serving then (s.bump p.tile (ETH.RX_DROP.COUNT.inst p.port) 1, none)
  else match s.qp p.qpn with
    | none => (s.ev p.tile RMA.EVENTS.BAD_PORT, none)
    | some q =>
      if q.shadow || qpTile q.qpn != p.tile || qpPort q.qpn != p.port || q.lport != p.lport then (s.ev p.tile RMA.EVENTS.BAD_PORT, none)
      else
        let s1 := (s.fetchCtx p.qpn).ecnMark q p.ecn
        (s1, s1.qp p.qpn)

/-- The opcodes of Table 8.2 that a QP kind accepts as requests: 0 data, 1 management. -/
def Qp.accepts (q : Qp) (op : Nat) : Bool :=
  if q.kind = 0 then [0x04, 0x06, 0x07, 0x08, 0x09, 0x0A, 0x0B, 0x0C, 0x13, 0x14].contains op else [0x00, 0x01, 0x02, 0x04].contains op

/-- What one request packet may be: executed, refused with a NAK code, refused at a key check (R238), or turned away with RNR NAK. -/
inductive Verdict
  | run (s : State)
  | bad (code : Nat)
  | keyed (key : Nat) (k : KeyCheck)
  | rnr

/-- The outstanding message of a QP whose last packet has not come. -/
def Qp.open (q : Qp) : Option Req := q.reqs.reverse.find? (fun r => !r.whole)

/-- An ACK of a duplicate whose original has reached its point (R219, R221). -/
def State.dupAck (s : State) (q : Qp) (psn : Nat) : State :=
  if psnBefore q.acked psn then s
  else (s.packet q 0x11 q.acked (s.ackSyn q) []).bump (qpTile q.qpn) RMA.DUP_ACKED.COUNT 1

/-- A duplicate request, answered by its opcode and never executed again (R219); a READ is read again, in its turn (request kind 5). -/
def State.duplicate (s : State) (q : Qp) (p : Packet) : State :=
  let n := q.qpn
  if p.opcode = 0x0C then
    if q.reqs.any (fun r => r.psn == p.psn) then s else
    match s.checkKey p.key p.va p.len 0 with
    | .ok _ =>
      ((s.updQp n (fun x => { x with reqs := x.reqs ++ [⟨p.psn, p.psn, 5, p.key, p.va, p.len, 0, none, true, false, 0⟩] })).ackQp n).bump
        (qpTile n) RMA.DUP_ACKED.COUNT 1
    | k => (s.noteCheck (qpTile n) p.key k).nak n p.psn 2
  else if p.opcode = 0x13 || p.opcode = 0x14 then
    if q.reqs.any (fun r => r.psn == p.psn) then s else
    match q.atomics.reverse.find? (fun x => x.1 == p.psn) with
    | some x => (s.packet q 0x12 p.psn (s.ackSyn q) (beBytes 8 x.2)).bump (qpTile n) RMA.DUP_ACKED.COUNT 1
    | none => s.nak n p.psn 1
  else s.dupAck q p.psn

/-- A request packet has been executed (R218): the ePSN advances by one and the context change is mirrored; the last request of the
QP is the one it belongs to. -/
def State.executed (s : State) (n : Nat) : State :=
  match s.qp n with
  | none => s
  | some q =>
    let s1 := (s.updQp n (fun x => { x with epsn := (x.epsn + 1) % 2 ^ 24, nakSent := false })).mirrorQp n
    let c := if q.kind = 0 && s1.streaming then (s1.twl (qpTile n)).txSeq - 1 else 0
    let m := (s1.net.qps.find? (fun x => x.qpn == n)).bind (fun x => x.reqs.reverse.find? (fun r => r.kind != 5))
    (s1.updQp n (fun x => { x with reqs := x.reqs.map (fun r => if some r = m then { r with ctx := c } else r) })).settleReqs n

/-- A request packet meets its QP: wrong opcode, PSN class, then execution (R208, R218). -/
def State.receive (s0 : State) (p : Packet) (run : State → Qp → Verdict) : State :=
  match s0.landing p with
  | (s, none) => s
  | (s, some q) =>
    let n := q.qpn
    let d := psnDist q.epsn p.psn
    if q.st = 3 || q.st = 4 then s
    else if !q.accepts p.opcode then (if q.st = 2 then s.nak n p.psn 1 else s)
    else if d = 0 then
      let s1 := s.toRts n
      match s1.qp n with
      | none => s1
      | some q1 => match run s1 q1 with
        | .run s2 => (s2.executed n).ackQp n
        | .bad c => s1.nak n p.psn c
        | .keyed key k => (s1.noteCheck (qpTile n) key k).nak n p.psn 2
        | .rnr => ((s1.packet q1 0x11 p.psn (32 + s1.fld (qpTile n) RMA.CTRL.RNR_TIMER) []).bump (qpTile n) RMA.RNR_NAK_TX.COUNT
            1).ev (qpTile n) RMA.EVENTS.RNR_SENT
    else if d < 2 ^ 23 then (if q.nakSent || q.st != 2 then s else s.nak n q.epsn 0)
    else if q.st = 2 then s.duplicate q p else s

/-- A request packet: every opcode of Table 8.2 but responses, acknowledgements and CNP. -/
def isRequest (p : Packet) : Bool := decide (p.opcode < 0x0D) || p.opcode == 0x13 || p.opcode == 0x14

/-- A packet's unit and the check that its opcode belongs to the row (a listed opcode of another row is that row's event); a packet
of any opcode that Table 8.2 does not list is refused whichever row brings it. A request packet ends a sleep entry (R390). -/
def onPacket (p : Packet) (own : List Nat) (s : State) (x : State) : Host.Outcome State Fault Refusal :=
  .next (if p.tile < s.tiles then
    (if p.port < 2 && p.lport < 4 then
      (if own.contains p.opcode || !([0x00, 0x01, 0x02, 0x04] ++ (List.range 15).map (· + 6) ++ [0x81]).contains p.opcode
        then (if isRequest p then x.abortSleep else x) else s)
     else s) else s)

/-! ### SEND (R225) -/

/-- A request joins its QP's list. -/
def State.addReq (s : State) (n : Nat) (r : Req) : State := s.updQp n (fun q => { q with reqs := q.reqs ++ [r] })

/-- A capsule is taken into the queue of a data QP; the partner learns of it (Table 10.5). -/
def State.takeCapsule (s : State) (q : Qp) (p : Packet) : State :=
  let s1 := (s.updQp q.qpn (fun x => { x with caps := x.caps ++ [⟨p.psn, p.data⟩], capPsn := p.psn })).addReq q.qpn
    ⟨p.psn, p.psn, 2, 0, 0, 0, 0, none, true, true, 0⟩
  s1.mirrorItem (qpTile q.qpn) 0x04 (leBytes 4 q.qpn ++ leBytes 4 p.psn ++ p.data)

/-- A whole mailbox message (R332, R334): the frame joins its point's queue; a wrong size is dropped and counted. -/
def State.mailFrame (s : State) (point : Nat) (fr : List Byte) : State :=
  if fr.length < 64 || 4160 < fr.length || fr.length != 64 + natAt fr 0x0c 2 then s.bump 0 MGT.DROPPED.COUNT 1
  else
    let f : Frame := ⟨point, natAt fr 0 2, natAt fr 2 1, natAt fr 3 1, natAt fr 4 4, natAt fr 8 4, natAt fr 0x0e 2,
      natAt fr 0x10 4, natAt fr 0x14 1, natAt fr 0x15 1, natAt fr 0x16 26, blockOf (fr.drop 0x30), fr.drop 64⟩
    if allOpcodes.contains f.opcode then { s with mb := { s.mb with input := s.mb.input ++ [f] } } else mailboxUnknown f s

/-- A SEND packet in its place: a 64 B Only on a data QP, any part of a frame on a management QP. -/
def State.runSend (s : State) (p : Packet) (q : Qp) : Verdict :=
  let first := p.opcode == 0 || p.opcode == 4
  let last := p.opcode == 2 || p.opcode == 4
  if q.kind = 0 then
    if p.data.length != 64 then .bad 1
    else if s.slotsFree q = 0 then .rnr
    else .run (s.takeCapsule q p)
  else if first != q.open.isNone || decide (q.mtuBytes < p.data.length) then .bad 1
  else if first && s.slotsFree q == 0 then .rnr
  else
    let bs := (if first then [] else q.frame) ++ p.data
    let s1 := if first then s.addReq q.qpn ⟨p.psn, p.psn, 2, 0, 0, 0, 0, none, last, last, 0⟩
      else s.updQp q.qpn (fun x => { x with reqs := x.reqs.map (fun r => if r.whole then r else
        { r with last := p.psn, whole := last, reached := last }) })
    let s2 := s1.updQp q.qpn (fun x => { x with frame := if last then [] else bs })
    .run (if last then s2.mailFrame q.mb bs else s2)

/-- SEND -/
def execSend (p : Packet) (s : State) : Host.Outcome State Fault Refusal :=
  onPacket p [0x00, 0x01, 0x02, 0x04] s (s.receive p (fun a q => a.runSend p q))

/-! ### RDMA WRITE (R209, R210) -/

/-- Bytes of a one-sided message enter the portions they belong to, in order, from message offset `got`. -/
def State.fillPortions (s : State) (n psn va got : Nat) (bs : List Byte) : State :=
  s.updNet (fun x => { x with portions := x.portions.map (fun p =>
    if p.src = .qp n psn && !p.capsule && !p.arrived then
      let at' := p.addr - va + p.data.length
      if got ≤ at' then { p with data := p.data ++ (bs.drop (at' - got)).take (p.len - p.data.length) } else p
    else p) })

/-- Every portion of a message asks for admission, in ascending order. -/
def State.askMessage (s : State) (src : Src) (capsule : Bool) : State :=
  ((s.net.portions.filter (fun p => p.src == src && p.capsule == capsule && p.st == .new)).map (·.id)).foldl
    (fun a i => match a.portion i with
      | some p => a.askAdmit p
      | none => a) s

/-- The bytes a packet adds to the receive buffer; what passes the window is counted, once notified (R230). -/
def State.chargeWindow (s : State) (n len : Nat) : State :=
  match s.qp n with
  | none => s
  | some q =>
    let t := qpTile n
    let u := q.unacked + len
    let kb := (u - q.window) / 1024 - (q.unacked - q.window) / 1024
    let s1 := s.updQp n (fun x => { x.setUnacked u with lastWrite := some s.now })
    let s2 := if q.window < u && 0 < len then
        let a := (s1.bump t RMA.WIN_VIOL_KB.COUNT kb).ev t RMA.EVENTS.WIN_VIOL
        if q.violTold then a
        else (a.updQp n (fun x => { x with violTold := true })).notify 0x00F1 (build339 [(4, n), (1, 2), (4, q.epsn)])
      else s1
    (s2.rebook t).flow t

/-- Whether immediate data names a chain queue that a data QP may signal (R210, R261). -/
def State.immOk (s : State) (imm : Nat) : Bool :=
  imm / 4096 == 0 && (match s.chain imm with
    | some c => c.hostAccess
    | none => false)

/-- The data of a WRITE packet that has passed its checks: `r` its message before the packet. -/
def State.writeData (s : State) (p : Packet) (q : Qp) (r : Req) (last imm : Bool) : State :=
  let n := q.qpn
  let s1 := s.updQp n (fun x => { x with reqs := x.reqs.map (fun y => if y.psn = r.psn && !y.whole then
    { y with last := p.psn, got := r.got + p.data.length, whole := last, imm := if imm then some p.imm else none, kind := b2n imm }
    else y) })
  ((s1.fillPortions n r.psn r.addr r.got p.data).chargeWindow n p.data.length).askMessage (.qp n r.psn) false

/-- A First or Only packet: the RETH is checked and the message's portions are laid out (R209). -/
def State.runWriteFirst (s : State) (p : Packet) (q : Qp) (last imm : Bool) : Verdict :=
  let n := q.qpn
  if q.open.isSome then .bad 1
  else if 2 ^ 50 ≤ p.va then .bad 2
  else if 2 ^ 30 < p.len then .bad 1
  else match s.checkKey p.key p.va p.len 1 with
    | .ok _ =>
      if imm && !s.immOk p.imm then .bad 2
      else if (if last then p.data.length != p.len || decide (q.mtuBytes < p.len) else p.data.length != q.mtuBytes || decide (p.len ≤ q.mtuBytes))
        then .bad 1
      else
        let r : Req := ⟨p.psn, p.psn, 0, p.key, p.va, p.len, 0, none, false, false, 0⟩
        let s1 := (unitsOf p.va p.len).foldl (fun a u => a.addPortion (.qp n p.psn) false false .write u.1 u.2 [] []) (s.addReq n r)
        .run (s1.writeData p q r last imm)
    | k => .keyed p.key k

/-- A Middle or Last packet follows the decision of the first; a key revoked since is refused (Table 9.3). -/
def State.runWriteNext (s : State) (p : Packet) (q : Qp) (last imm : Bool) : Verdict :=
  match q.open with
  | none => .bad 1
  | some r =>
    match s.checkKey r.key r.addr r.len 1 with
    | .ok _ =>
      let left := r.len - r.got
      if imm && !s.immOk p.imm then .bad 2
      else if (if last then p.data.length != left || decide (q.mtuBytes < left) else p.data.length != q.mtuBytes || decide (left ≤ q.mtuBytes))
        then .bad 1
      else .run (s.writeData p q r last imm)
    | k => .keyed r.key k

/-- A WRITE packet. -/
def State.runWrite (s : State) (p : Packet) (q : Qp) : Verdict :=
  let imm := p.opcode == 0x09 || p.opcode == 0x0B
  let last := imm || p.opcode == 0x08 || p.opcode == 0x0A
  if p.opcode = 0x06 || p.opcode = 0x0A || p.opcode = 0x0B then s.runWriteFirst p q last imm else s.runWriteNext p q last imm

/-- RDMA_WRITE -/
def execRdmaWrite (p : Packet) (s : State) : Host.Outcome State Fault Refusal :=
  onPacket p [0x06, 0x07, 0x08, 0x0A] s (s.receive p (fun a q => a.runWrite p q))

/-- RDMA_WRITE_IMM: the packet that carries the immediate data. -/
def execRdmaWriteImm (p : Packet) (s : State) : Host.Outcome State Fault Refusal :=
  onPacket p [0x09, 0x0B] s (s.receive p (fun a q => a.runWrite p q))

/-! ### RDMA READ and atomics (R26, R211, R231) -/

/-- READs and atomics of a QP that have not been answered (R211). -/
def Qp.respOut (q : Qp) : Nat := (q.reqs.filter (fun r => r.kind == 3 || r.kind == 4)).length

/-- An RDMA READ request, checked; it is served in its turn. -/
def State.runRead (s : State) (p : Packet) (q : Qp) : Verdict :=
  if q.open.isSome then .bad 1
  else if 2 ^ 50 ≤ p.va then .bad 2
  else if 2 ^ 30 < p.len then .bad 1
  else match s.checkKey p.key p.va p.len 0 with
    | .ok _ =>
      if q.respRes ≤ q.respOut then .bad 1
      else .run (s.addReq q.qpn ⟨p.psn, p.psn, 3, p.key, p.va, p.len, 0, none, true, false, 0⟩)
    | k => .keyed p.key k

/-- RDMA_READ_REQUEST; `near`: near-tier words found wrong, as a read meets them (R59). -/
def execRdmaReadRequest (p : Packet) (near : List NearErr) (s : State) : Host.Outcome State Fault Refusal :=
  onPacket p [0x0C] s ((s.addNear near).receive p (fun a q => a.runRead p q))

/-- An atomic, checked and sent to its home as an 8-byte portion. -/
def State.runAtomic (s : State) (p : Packet) (q : Qp) (k : PKind) : Verdict :=
  if q.open.isSome then .bad 1
  else if 2 ^ 50 ≤ p.va then .bad 2
  else if p.va % 8 != 0 then .bad 1
  else match s.checkKey p.key p.va 8 2 with
    | .ok _ =>
      if q.respRes ≤ q.respOut then .bad 1
      else
        let s1 := (s.addReq q.qpn ⟨p.psn, p.psn, 4, p.key, p.va, 8, 0, none, true, false, 0⟩).addPortion (.qp q.qpn p.psn) false false k
          p.va 8 (List.replicate 8 0) []
        .run (s1.askMessage (.qp q.qpn p.psn) false)
    | k => .keyed p.key k

/-- CMP_SWAP -/
def execCmpSwap (p : Packet) (s : State) : Host.Outcome State Fault Refusal :=
  onPacket p [0x13] s (s.receive p (fun a q => a.runAtomic p q (.cmpSwap (p.cmp % 2 ^ 64) (p.swap % 2 ^ 64))))

/-- FETCH_ADD: the add operand stands where CmpSwap has its swap operand. -/
def execFetchAdd (p : Packet) (s : State) : Host.Outcome State Fault Refusal :=
  onPacket p [0x14] s (s.receive p (fun a q => a.runAtomic p q (.fetchAdd (p.swap % 2 ^ 64))))

end Sys2Proof.Machine
end

