-- ==== Sys2Proof/Machine/Connect.lean ====
section
/-! DEFINITION. The host ports, connections, and the device as requester (R201 to R207, R212 to R215, R224, R257). -/

namespace Sys2Proof.Machine

/-! ### Logical ports -/

/-- The weight of traffic class c. -/
def etsFld (port c : Nat) : Fld :=
  let f := ETH.ETS0.BW0.inst port
  if c < 4 then { f with lo := 8 * c } else { f.up 4 with lo := 8 * (c - 4) }

/-- Logical ports of a mode (Table 8.1). -/
def modePorts (mode : Nat) : Nat := 2 ^ (mode % 4)

/-- The key of a logical port. -/
def lportKey (t port lp : Nat) : Nat := (t * 2 + port) * 4 + lp

/-- Runs a meaning for a logical port; an absent one has no effect (R11). -/
def onLport (t port lp : Nat) (s x : State) : Host.Outcome State Fault Refusal :=
  .next (if t < s.tiles then (if port < 2 && lp < 4 then x else s) else s)

/-- NET_LINK: logical port, up or down, mode. -/
def State.netLink (s : State) (t port lp : Nat) (up : Bool) : State :=
  s.notify 0x00F0 (build339 [(1, t), (1, port), (1, lp), (1, b2n up), (1, s.fld t (ETH.CFG.MODE.inst port))])

/-- The DCBX TLVs of a port go out in LLDP, the willing bit clear (R206): strict classes and weights. They leave when a link comes up (DESIGN
CHOICE, log entry 77). -/
def State.lldp (s : State) (t port lp : Nat) : State :=
  s.xmit t port 0 (.eth t port 6 lp (leBytes 1 0 ++ leBytes 1 (s.fld t (ETH.ETS_STRICT.STRICT.inst port)) ++
    (List.range 8).flatMap (fun c => leBytes 1 (s.fld t (etsFld port c)))))

/-- A logical port's link comes up. -/
def State.linkUp (s : State) (t port lp : Nat) : State :=
  let f := ETH.STATUS.LINK_UP.inst port
  if (s.fld t f).testBit lp then s else
  (((s.setF t f (setBit (s.fld t f) lp true)).updNet (fun x => { x with linkDown := amapErase (lportKey t port lp) x.linkDown })).netLink t
    port lp true).lldp t port lp

/-- A logical port's link goes down; its QPs are kept for 2 s (R232). -/
def State.linkDown (s : State) (t port lp : Nat) : State :=
  let f := ETH.STATUS.LINK_UP.inst port
  let k := lportKey t port lp
  if !(s.fld t f).testBit lp then s else
  (((s.setF t f (setBit (s.fld t f) lp false)).ev t (ETH.EVENTS.LINK_DOWN.inst port)).updNet (fun x =>
    { x with linkDown := amapInsert k s.now (amapErase k x.linkDown) })).netLink t port lp false

/-- ETH_LINK_UP: a logical port that its mode has and `LPORT_EN` enables, where the ports are in service. -/
def execEthLinkUp (tile port lport : Nat) (s : State) : Host.Outcome State Fault Refusal :=
  onLport tile port lport s
    (if pointServed s.dstate 1 && decide (lport < modePorts (s.fld tile (ETH.CFG.MODE.inst port))) &&
        (s.fld tile (ETH.CFG.LPORT_EN.inst port)).testBit lport && !s.heldDown tile port then s.linkUp tile port lport else s)

/-- ETH_LINK_DOWN -/
def execEthLinkDown (tile port lport : Nat) (s : State) : Host.Outcome State Fault Refusal :=
  onLport tile port lport s (s.linkDown tile port lport)

/-- The QPs bound to a logical port. -/
def State.boundTo (s : State) (t port lp : Nat) : List Qp :=
  (s.tileQps t).filter (fun q => qpPort q.qpn == port && q.lport == lp)

/-- LINK_DOWN_HOLD_EXPIRY: longer than 2 s without link (Table 8.7). -/
def execLinkDownHoldExpiry (tile port lport : Nat) (s : State) : Host.Outcome State Fault Refusal :=
  onLport tile port lport s
    (match amapFind (lportKey tile port lport) s.net.linkDown with
     | some since => if since + 2000000 < s.now then
         ((s.boundTo tile port lport).filter (fun q => q.st == 2 || q.st == 3)).foldl (fun a q => a.qpError q.qpn 4 q.epsn) s else s
     | none => s)

/-- The priority of a frame (R203): its PCP, or what its DSCP maps to in the port's table. -/
def State.framePrio (s : State) (t port : Nat) (pcp : Option Nat) (dscp : Nat) : Nat :=
  match pcp with
  | some p => p % 8
  | none => ((s.cfg (cfgItem t (4096 + port * 64 + dscp % 64))).getD (Config.dscpPriority (dscp % 64))) % 8

/-- A frame as a port receives it (R202 to R204, R208); one that asks for an address of a logical port is answered where the unit answers for
it (R202). -/
def State.frameIn (s : State) (t port prio : Nat) (i : FrameInfo) : State :=
  if !i.fcs then s.bump t (ETH.RX_FCS_ERR.COUNT.inst port) 1
  else
    let s1 := s.bump t (ETH.RX_FRAMES.COUNT.inst port) 1
    let drop := s1.bump t (ETH.RX_DROP.COUNT.inst port) 1
    let lossless := (s.fld t (ETH.PFC.LOSSLESS.inst port)).testBit prio
    if !i.ipForm || (!lossless && decide (2 ^ 24 < s.heldBytes t + i.size)) || (i.service && !s.serving) then drop
    else if i.roce && !i.icrc then (s1.bump t (ETH.RX_ICRC_ERR.COUNT.inst port) 1).ev t (ETH.EVENTS.ICRC_ERR.inst port)
    else match i.asks with
      | some lp => if lp < 4 then (s1.xmit t port prio (.eth t port 5 lp (s1.addrBytes t port lp i.service))).flow t else s1.flow t
      | none => s1.flow t

/-- ETH_FRAME: what the frame carries arrives as the packet's own event. -/
def execEthFrame (tile port : Nat) (pcp : Option Nat) (dscp : Nat) (i : FrameInfo) (s : State) : Host.Outcome State Fault Refusal :=
  onUnit tile port 2 s
    (let s1 := if s.dstate == .s1 then s.wakeUp 1 else s
     if pointServed s1.dstate 1 then s1.frameIn tile port (s1.framePrio tile port pcp dscp) i else s1)

/-- What waited at a priority leaves once its pause ends. -/
def State.flushTx (s : State) (k t port : Nat) : State :=
  (s.net.txq.filter (fun e => e.1 == k)).foldl (fun a e => (a.bump t (ETH.TX_FRAMES.COUNT.inst port) 1).send e.2)
    (s.updNet (fun x => { x with txq := x.txq.filter (fun e => e.1 != k) }))

/-- PFC_PAUSE: the peer pauses a priority, or the pause ends (R205). -/
def execPfcPause (tile port prio : Nat) (on : Bool) (s : State) : Host.Outcome State Fault Refusal :=
  onUnit tile port 2 s
    (let f := ETH.STATUS.TX_PAUSED.inst port
     let p := prio % 8
     let k := prioKey tile port p
     let s1 := (s.bump tile (ETH.PFC_RX.COUNT.inst port) 1).setF tile f (setBit (s.fld tile f) p on)
     if on then s1.updNet (fun x => { x with pausedAt := if (amapFind k x.pausedAt).isSome then x.pausedAt else amapInsert k s.now x.pausedAt })
     else (s1.updNet (fun x => { x with pausedAt := amapErase k x.pausedAt })).flushTx k tile port)

/-- PFC_WATCHDOG: a lossless priority has stayed paused longer than WATCHDOG_MS (R205). -/
def execPfcWatchdog (tile port prio : Nat) (s : State) : Host.Outcome State Fault Refusal :=
  onUnit tile port 2 s
    (match amapFind (prioKey tile port (prio % 8)) s.net.pausedAt with
     | some since =>
       if (s.fld tile (ETH.PFC.LOSSLESS.inst port)).testBit (prio % 8) &&
           decide (since + s.fld tile (ETH.PFC.WATCHDOG_MS.inst port) * 1000 < s.now) then s.evRec tile (ETH.EVENTS.PFC_WATCHDOG.inst port) prio
       else s
     | none => s)

/-! ### Connections (R213 to R215) -/

/-- A communication management reply: 1 REP, 2 REJ, 3 DREP. -/
def State.cmSend (s : State) (t port kind : Nat) (bs : List Byte) : State :=
  s.xmit t port (s.fld t (ETH.PRIO.ROCE_PCP.inst port)) (.eth t port 4 kind bs)

/-- Whether this unit is on its way out of ACTIVE or SOLO (R202). -/
def State.leaving (s : State) : Bool := s.twin.swap == 2 || s.twin.swap == 3 || s.pow.target != 0

/-- The connect block obeys Table 8.4. -/
def blockGood (b : List Byte) : Bool :=
  let kind := natAt b 3 1
  b.length == 32 && natAt b 0 2 == 0xB5A7 && natAt b 2 1 == 1 && decide (kind < 2) && natAt b 5 3 == 0 && natAt b 0x14 12 == 0 &&
  (if kind = 0 then natAt b 4 1 == 0 && natAt b 8 8 != 0 && natAt b 8 8 % 8 == 0 else natAt b 8 8 == 0 && natAt b 0x10 4 == 0)

/-- QPs of the package, and of a tile, not in FREE. -/
def State.connected (s : State) : Nat := (s.net.qps.filter (fun q => !q.shadow)).length

/-- The QPN a REQ is given: the lowest context index free on its port (R214). -/
def State.freeQpn (s : State) (t port : Nat) : Nat :=
  let base := t * 2 ^ 21 + port * 2 ^ 20
  let used := s.net.qps.map (·.qpn)
  lowestFree used used.length (if base = 0 then 2 else base)

/-- Whether a limit refuses one more QP (R214, R332): of the tile, of the package, of the context indices of
the port, or of the mailbox point. -/
def State.atLimit (s : State) (r : ConnectReq) : Bool :=
  decide (s.fld r.tile RMA.QP_LIMIT.LIMIT ≤ (s.tileQps r.tile).length) || decide (1048576 ≤ s.connected) ||
  decide ((r.tile * 2 + r.port + 1) * 2 ^ 20 ≤ s.freeQpn r.tile r.port) ||
  (natAt r.priv 3 1 == 1 && s.net.qps.any (fun q => q.kind == 1 && q.mb == natAt r.priv 4 1))

/-- The refusal of a REQ (Table 8.6), the lowest that holds; 0 for none. -/
def State.refusal (s : State) (r : ConnectReq) : Nat :=
  let kind := natAt r.priv 3 1
  let mb := natAt r.priv 4 1
  if !blockGood r.priv then 1
  else if (kind == 0) != r.service then 2
  else if s.atLimit r then 3
  else if kind == 1 && (mb == 0 || decide (14 < mb)) then 4
  else if kind == 0 && s.leaving then 5
  else if !r.supported || decide (s.fld r.tile (ETH.CFG.MTU.inst r.port) < r.mtu) then 6
  else 0

/-- The context of a new QP in CONNECTING. -/
def newQp (r : ConnectReq) (qpn spsn now : Nat) : Qp :=
  { qpn := qpn, kind := natAt r.priv 3 1, mb := natAt r.priv 4 1, lport := r.lport, st := 1, shadow := false, unitAddr := !r.service,
    rqpn := r.rqpn % 2 ^ 24, gid := r.gid % 2 ^ 128, mtu := r.mtu, epsn := r.psn % 2 ^ 24, spsn := spsn % 2 ^ 24, una := spsn % 2 ^ 24,
    nakSent := false, acked := (r.psn + 2 ^ 24 - 1) % 2 ^ 24, retry := r.retry % 8, rnrRetry := r.rnrRetry % 8,
    ackTimeout := max 4 (min 20 r.ackTimeout), retriesLeft := r.retry % 8, rnrLeft := r.rnrRetry % 8, sentAt := now,
    respRes := max 1 (min 8 r.respRes), hostCredit := 31, window := if natAt r.priv 3 1 = 0 then 4096 else 0,
    winVa := natAt r.priv 8 8, winKey := natAt r.priv 0x10 4, lastWrite := none, unacked := 0, committed := 0, reqs := [], caps := [],
    capPsn := 0, frame := [], sent := [], rnrWait := false, ring := [], cplQ := [], atomics := [], localFlag := false, rate := 10000,
    cnpAt := none, cnpRxAt := none, opened := now, errAt := none, dreq := false, settled := false, violTold := false, cached := true,
    lastUse := now }

/-- The reply block of Table 8.5. -/
def State.replyBlock (s : State) (q : Qp) : List Byte :=
  leBytes 2 0xB5A7 ++ leBytes 1 1 ++ leBytes 1 q.respRes ++ leBytes 2 (if q.kind = 0 then 256 else 2) ++ leBytes 2 0 ++
  leBytes 4 q.window ++ leBytes 4 (s.unitId % 2 ^ 32) ++ leBytes 16 0

/-- A REQ is answered (R213): REP with a new context, or REJ with reason 28 and the status of Table 8.6. -/
def State.answerReq (s : State) (r : ConnectReq) : State :=
  let c := s.refusal r
  if c != 0 then
    (if c = 3 then s.ev r.tile RMA.EVENTS.LIMIT else s).cmSend r.tile r.port 2 (beBytes 4 r.rqpn ++ beBytes 2 28 ++ leBytes 2 c)
  else
    let (spsn, s1) := s.draw
    let q := newQp r (s.freeQpn r.tile r.port) spsn s.now
    let s2 := ((s1.updNet (fun x => { x with qps := x.qps ++ [q] })).bump r.tile RMA.QP_COUNT.CONNECTED 1).mirrorQp q.qpn
    s2.cmSend r.tile r.port 1 (beBytes 4 q.rqpn ++ beBytes 4 q.qpn ++ beBytes 4 q.spsn ++ s2.replyBlock q)

/-- REQ: at a service address that this unit does not serve it is dropped without a REJ (R202). -/
def execReq (r : ConnectReq) (s : State) : Host.Outcome State Fault Refusal :=
  onLport r.tile r.port r.lport s
    (let s1 := if s.dstate == .s1 then s.wakeUp 1 else s
     if !pointServed s1.dstate 1 then s1
     else if r.service && !s1.serving then s1.bump r.tile (ETH.RX_DROP.COUNT.inst r.port) 1
     else s1.answerReq r)

/-- RTU -/
def execRtu (qpn : Nat) (s : State) : Host.Outcome State Fault Refusal := .next (s.toRts qpn)

/-- CONNECT_TIMEOUT: no RTU for 100 ms, or a REJ from the host. -/
def execConnectTimeout (qpn : Nat) (rej : Bool) (s : State) : Host.Outcome State Fault Refusal :=
  .next (match s.qp qpn with
    | some q => if q.st = 1 && (rej || decide (q.opened + 100000 ≤ s.now)) then s.qpFree qpn else s
    | none => s)

/-- DREP, and the context is released. -/
def State.release (s : State) (q : Qp) (drep : Bool) : State :=
  (if drep then s.cmSend (qpTile q.qpn) (qpPort q.qpn) 3 (beBytes 4 q.rqpn ++ beBytes 4 q.qpn) else s).qpFree q.qpn

/-- DREQ: RTS to DRAINING; ERROR to FREE once its work has settled (Table 8.7, R257). -/
def State.disconnect (s : State) (n : Nat) : State :=
  match s.qp n with
  | none => s
  | some q =>
    if q.st = 2 then (((s.tearDown n).updQp n (fun x => { x with st := 3, dreq := true })).dropPoint q).mirrorQp n
    else if q.st = 4 then
      if q.settled then s.release q true else s.updQp n (fun x => { x with dreq := true })
    else s

/-- DREQ -/
def execDreq (qpn : Nat) (s : State) : Host.Outcome State Fault Refusal := .next (s.disconnect qpn)

/-- Whether work of QP n is still under way: a portion admitted and short of its class (R257). -/
def State.qpBusy (s : State) (n : Nat) : Bool :=
  s.net.portions.any (fun p => (p.src.psnOn n).isSome && p.st != .reached)

/-- The admitted work of a QP in DRAINING or ERROR has settled (Table 8.7). -/
def State.settleQp (s : State) (n : Nat) : State :=
  match s.qp n with
  | none => s
  | some q =>
    if (q.st != 3 && q.st != 4) || q.settled || s.qpBusy n then s else
    let s1 := s.updNet (fun x => { x with
      execs := x.execs.filter (fun e => (e.src.psnOn n).isNone)
      portions := x.portions.filter (fun p => (p.src.psnOn n).isNone) })
    if q.st = 3 then s1.release q true
    else if q.dreq then s1.release q true
    else s1.updQp n (fun x => { x with settled := true, errAt := some s.now, reqs := [] })

/-- QP_SETTLED -/
def execQpSettled (qpn : Nat) (s : State) : Host.Outcome State Fault Refusal := .next (s.settleQp qpn)

/-- ERR_HOLD_EXPIRY: ERR_HOLD_S after the work of a QP in ERROR settled. -/
def execErrHoldExpiry (qpn : Nat) (s : State) : Host.Outcome State Fault Refusal :=
  .next (match s.qp qpn with
    | some q => (match q.errAt with
      | some a => if q.st = 4 && q.settled && decide (a + s.fld (qpTile qpn) RMA.CTRL.ERR_HOLD_S * 1000000 ≤ s.now) then s.release q false else s
      | none => s)
    | none => s)

/-! ### The device as requester (R224) -/

/-- The identity of a capsule in execution as its pushes carry it. -/
def Src.code (x : Src) : Nat :=
  match x with
  | .qp n p => (n * 2 ^ 24 + p) * 4 + 1
  | .desc c i => (c * 2 ^ 32 + i) * 4 + 2
  | .mirror t n => (t * 2 ^ 64 + n) * 4 + 3

/-- Completion records that wait on a data QP leave as SENDs, each kept until it is acknowledged and mirrored with its PSN (R251, Table
10.19); the number bounds them. -/
def State.cplGo (s : State) (n : Nat) : Nat → State
  | 0 => s
  | k + 1 =>
    match s.qp n with
    | none => s
    | some q =>
      match q.cplQ with
      | m :: ms =>
        if q.maySend then
          let s1 := (s.updQp n (fun x => { x with cplQ := ms, ring := x.ring ++ [(q.spsn, m)] })).request n
            (segment q.mtuBytes q.spsn 0 0 0 0 m)
          ((s1.mirrorItem (qpTile n) 0x05 (leBytes 4 n ++ leBytes 4 q.spsn ++ m)).mirrorQp n).cplGo n k
        else s
      | [] => s

/-- What waits to be sent on a QP leaves while credit lasts. -/
def State.pumpQp (s : State) (n : Nat) : State :=
  match s.qp n with
  | some q => if q.kind = 0 then s.cplGo n q.cplQ.length else s.pumpSend n
  | none => s

/-- The packets at the front of a list that an acknowledgement of PSN `psn` covers; one of a READ never is. -/
def ackedPart (psn : Nat) (l : List SentPkt) : List SentPkt :=
  l.takeWhile (fun p => p.opcode != 0x0C && !psnBefore psn p.psn)

/-- Packets acknowledged by the host: the record shrinks; pushes that end are done; completion records are released. -/
def State.ackSent (s : State) (n psn : Nat) : State :=
  match s.qp n with
  | none => s
  | some q =>
    let gone := ackedPart psn q.sent
    if gone.isEmpty then s else
    let rest := q.sent.drop gone.length
    let ends := gone.filterMap (fun p => if (p.opcode == 0x08 || p.opcode == 0x0A) && p.por != 0 then some p.por else none)
    let s1 := s.updQp n (fun x => { x with
      sent := rest
      una := (rest.head?.map (·.psn)).getD x.spsn
      sentAt := s.now
      retriesLeft := x.retry
      rnrLeft := x.rnrRetry
      ring := x.ring.filter (fun e => psnBefore psn e.1) })
    (s1.updNet (fun x => { x with execs := x.execs.map (fun e => if ends.contains e.src.code then { e with done := true } else e) })).mirrorQp n

/-- Retries are exhausted: the QP goes to ERROR. -/
def State.retriesOut (s : State) (n psn : Nat) : State := (s.qpError n 1 psn).ev (qpTile n) RMA.EVENTS.RETRY_EXCEEDED

/-- Every packet not acknowledged is sent again. -/
def State.resend (s : State) (n : Nat) : State :=
  match s.qp n with
  | none => s
  | some q => q.sent.foldl (fun a p => a.transmit q p)
      ((s.bump (qpTile n) RMA.RETRANSMIT.COUNT q.sent.length).updQp n (fun x => { x with sentAt := s.now, rnrWait := false }))

/-- Go-back-N from the oldest unacknowledged PSN, at the cost of a retry. -/
def State.goBack (s : State) (n : Nat) : State :=
  match s.qp n with
  | none => s
  | some q =>
    if q.sent.isEmpty then s
    else if q.retriesLeft = 0 then s.retriesOut n q.una
    else (s.updQp n (fun x => { x with retriesLeft := x.retriesLeft - 1 })).resend n

/-- A pull or push that the host has refused ends its capsule's access (R252). -/
def State.failAccess (s : State) (n : Nat) (p : SentPkt) : State :=
  let src := if p.opcode = 0x0C then (s.portion p.por).map (·.src.code) else some p.por
  ((s.updQp n (fun x => { x with sent := x.sent.filter (fun y => !(y.por == p.por && (y.opcode == 0x0C) == (p.opcode == 0x0C))) })).updNet
    (fun x => { x with execs := x.execs.map (fun e => if some e.src.code = src then { e with failed := true } else e) })).resend n

/-- An acknowledgement of the host: its AETH syndrome says ACK, RNR NAK or NAK (R223, R224). -/
def State.hostAck (s : State) (n psn syn : Nat) : State :=
  let kind := syn / 32 % 4
  let val := syn % 32
  if kind = 0 then ((s.ackSent n psn).updQp n (fun x => { x with hostCredit := val, rnrWait := false })).pumpQp n
  else
    let s1 := s.ackSent n ((psn + 2 ^ 24 - 1) % 2 ^ 24)
    match s1.qp n with
    | none => s1
    | some q =>
      if q.sent.isEmpty then s1
      else if kind = 1 then
        if q.rnrRetry = 7 then s1.updQp n (fun x => { x with rnrWait := true })
        else if q.rnrLeft = 0 then s1.retriesOut n psn
        else s1.updQp n (fun x => { x with rnrWait := true, rnrLeft := x.rnrLeft - 1 })
      else if kind = 3 then
        if val = 0 then s1.goBack n
        else match q.sent.head? with
          | some p => if p.por = 0 then s1.retriesOut n psn else s1.failAccess n p
          | none => s1
      else s1

/-- A response packet that has come to its QP in RTS. -/
def State.response (s0 : State) (p : Packet) (f : State → Qp → State) : State :=
  match s0.landing p with
  | (s, some q) => if q.st = 2 then f s q else s
  | (s, none) => s

/-- ACK_RECEIVED: opcode 0x11, the AETH syndrome in `imm`. -/
def execAckReceived (p : Packet) (s : State) : Host.Outcome State Fault Refusal :=
  onPacket { p with opcode := 0x11 } [0x11] s (s.response p (fun a q => a.hostAck q.qpn p.psn p.imm))

/-- A packet of a READ response: the next of its READ adds its bytes; one out of order draws go-back-N (R224). -/
def State.readResponse (s : State) (q : Qp) (psn : Nat) (bs : List Byte) : State :=
  match q.sent.find? (fun x => x.opcode == 0x0C && decide (psnDist x.psn psn < x.span q.mtuBytes)) with
  | none => s
  | some x =>
    let s1 := s.ackSent q.qpn ((x.psn + 2 ^ 24 - 1) % 2 ^ 24)
    match s1.qp q.qpn with
    | none => s1
    | some q1 =>
      let next := x.data.length / q.mtuBytes
      if q1.sent.head? != some x then s1.goBack q.qpn
      else if psnDist x.psn psn < next then s1
      else if psnDist x.psn psn != next || bs.length != min q.mtuBytes (x.len - x.data.length) then s1.goBack q.qpn
      else
        let got := x.data ++ bs
        let s2 := s1.updQp q.qpn (fun y => { y with sentAt := s.now, retriesLeft := y.retry })
        if got.length < x.len then s2.updQp q.qpn (fun y => { y with sent := { x with data := got } :: y.sent.drop 1 })
        else
          let s3 := s2.updQp q.qpn (fun y => { y with sent := y.sent.drop 1, una := ((y.sent.drop 1).head?.map (·.psn)).getD y.spsn })
          (s3.updPortion x.por (fun y => { y with data := got })).pumpQp q.qpn

/-- READ_RESPONSE -/
def execReadResponse (p : Packet) (s : State) : Host.Outcome State Fault Refusal :=
  onPacket p [0x0D, 0x0E, 0x0F, 0x10] s (s.response p (fun a q => a.readResponse q p.psn p.data))

/-- ACK_TIMEOUT: 4.096 µs × 2^k with the oldest packet unacknowledged. -/
def execAckTimeout (qpn : Nat) (s : State) : Host.Outcome State Fault Refusal :=
  .next (match s.qp qpn with
    | some q => if q.st = 2 && !q.shadow && !q.rnrWait && !q.sent.isEmpty && decide (q.sentAt * 1000 + 4096 * 2 ^ q.ackTimeout ≤ s.now * 1000)
        then s.goBack qpn else s
    | none => s)

/-- RNR_TIMER: the wait after an RNR NAK is over. -/
def execRnrTimer (qpn : Nat) (s : State) : Host.Outcome State Fault Refusal :=
  .next (match s.qp qpn with
    | some q => if q.st = 2 && q.rnrWait then (s.resend qpn).pumpQp qpn else s
    | none => s)

/-- CNP: the rate of READ responses and pulls is halved, not below 1 % (R207; the rate counts hundredths of a percent). -/
def execCnp (p : Packet) (s : State) : Host.Outcome State Fault Refusal :=
  onPacket { p with opcode := 0x81 } [0x81] s (s.response p (fun a q =>
    let t := qpTile q.qpn
    if a.flag t RMA.CTRL.CNP_EN then
      (a.bump t RMA.CNP_RX.COUNT 1).updQp q.qpn (fun x => { x with rate := max 100 (x.rate / 2), cnpRxAt := some a.now })
    else a))

/-- CNP_RATE_RESTORE: 50 µs with no further notification raise the rate by 5 % of the port rate. -/
def execCnpRateRestore (qpn : Nat) (s : State) : Host.Outcome State Fault Refusal :=
  .next (match s.qp qpn with
    | some q => (match q.cnpRxAt with
      | some a => if a + 50 ≤ s.now then s.updQp qpn (fun x => { x with rate := min 10000 (x.rate + 500),
                                                                         cnpRxAt := if x.rate + 500 < 10000 then some s.now else none }) else s
      | none => s)
    | none => s)

end Sys2Proof.Machine
end

