-- ==== Sys2Proof/Machine/Capsules.lean ====
section
/-! DEFINITION. Capsules and the descriptors of chain queues: checks, start, execution, completion (R226, R245 to R252, R256, R260 to
R263). -/

namespace Sys2Proof.Machine

/-! ### Checks (R246, R261) -/

/-- The bytes of a capsule from o to o + n are 0. -/
def capZero (b : List Byte) (o n : Nat) : Bool := natAt b o n == 0

/-- The fields that an opcode does not use, and the ranges of those it uses (Table 9.5). -/
def capFieldsOk (b : List Byte) : Bool :=
  let range := decide (1 ≤ capLen b) && decide (capLen b ≤ 2 ^ 30) && decide (capAddr b < 2 ^ 50)
  let tail := capZero b 0x28 4 && capZero b 0x30 12
  match capOp b with
  | 1 | 2 => range && tail
  | 3 => range && capZero b 0x18 12 && tail
  | 4 => range && decide (capSrc b < 2 ^ 50) && !overlap (capAddr b) (capLen b) (capSrc b) (capLen b) && tail
  | 5 => capZero b 8 28 && tail
  | 6 => decide (capAddr b < 4096) && capZero b 0x10 20 && capZero b 0x30 12
  | 7 => capZero b 8 28 && capZero b 0x28 4
  | _ => false

/-- The checks of R246 that do not depend on a region (the first stage of R260); a reserved address bit is a reserved field (R30).
`inQueue`: it goes into a chain queue. -/
def capMalformedAs (inQueue : Bool) (b : List Byte) : Bool :=
  decide (32 ≤ capFlags b) || decide (4096 ≤ capCqn b) || decide (4096 ≤ capSig b) || !capZero b 0x26 2 || !capZero b 0x2C 4 ||
  !capZero b 0x3C 4 || (!capEnqueue b && capCqn b != 0) || (!capSignal b && capSig b != 0) ||
  ((capOp b == 6 || capOp b == 7) && !inQueue) || (capForce b && capOp b != 1 && capOp b != 4) || !capFieldsOk b

/-- The same for a capsule, which goes into a queue by its ENQUEUE flag. -/
def capMalformed (b : List Byte) : Bool := capMalformedAs (capEnqueue b) b

/-- Whether a capsule or descriptor may name a chain queue (R261). -/
def State.mayName (s : State) (enqQpn role n : Nat) : Bool :=
  match s.chain n with
  | some c => c.hostAccess || (enqQpn == 0 && c.owner == role)
  | none => false

/-- The right that an opcode needs on ADDR (Table 9.1): WR, or RD for a READ. -/
def capRight (op : Nat) : Nat := if op = 2 then 0 else 1

/-- The checks at start that depend on the regions and queues named (R238, R246, R260, R261): 0 passed, else the status of Table 9.7. -/
def State.capAccess (s : State) (e : Exec) : State × Nat :=
  let b := e.bytes
  let t := e.src.tile s.tiles
  let queues := if (capSignal b && !s.mayName e.enqQpn e.role (capSig b)) ||
      (capOp b == 6 && !s.mayName e.enqQpn e.role (capAddr b)) then 2 else 0
  if 5 ≤ capOp b then (s, queues) else
  match s.checkKey (capKey b) (capAddr b) (capLen b) (capRight (capOp b)) with
  | .ok r =>
    let src := if capOp b = 4 then s.checkKey (capSrcKey b) (capSrc b) (capLen b) 0 else .ok r
    match src with
    | .ok _ => (s, if (capForce b || capOp b == 3) && r.cls == 0 then 1 else queues)
    | k => (s.noteCheck t (capSrcKey b) k, 2)
  | k => (s.noteCheck t (capKey b) k, 2)

/-! ### Completion (R251, R252) -/

/-- How a capsule ends: status, class, error identifier, DONE_LEN, FAULT_ADDR. -/
structure CapEnd where
  st : Nat
  cls : Nat
  err : Nat
  done : Nat
  fault : Nat
deriving DecidableEq, Repr

/-- An end without effect. -/
def CapEnd.none (st fault : Nat) : CapEnd := ⟨st, 0xFF, 0, 0, fault⟩

/-- The queue that a record names. -/
def Exec.named (e : Exec) : Nat :=
  if capSignal e.bytes then capSig e.bytes
  else match e.src with
    | .desc c _ => c
    | _ => if capEnqueue e.bytes then capCqn e.bytes else 0

/-- The completion record (Table 9.6). -/
def State.capRecord (s : State) (e : Exec) (r : CapEnd) : List Byte :=
  let b := e.bytes
  let names := capSignal b || capEnqueue b || (match e.src with
    | .desc _ _ => true
    | _ => false)
  leBytes 4 (capTag b) ++ leBytes 1 (capOp b) ++ leBytes 1 r.cls ++ leBytes 2 r.st ++ leBytes 4 r.err ++ leBytes 4 r.done ++
  leBytes 8 r.fault ++ leBytes 2 e.named ++ leBytes 2 0 ++ leBytes 4 (if names then ((s.chain e.named).map (·.count)).getD 0 else 0)

/-- A record leaves for the QP that sent or enqueued, or for the point of the posting session; else it is dropped (R251, R257). -/
def State.sendRecord (s : State) (e : Exec) (rec : List Byte) : State :=
  let n := match e.src with
    | .qp n _ => n
    | _ => e.enqQpn
  let lost := s.bump (e.src.tile s.tiles) HCQ.CPL_DROPPED.COUNT 1
  if n != 0 then
    match s.qp n with
    | some q => if q.st = 2 then (s.updQp n (fun x => { x with cplQ := x.cplQ ++ [rec] })).pumpQp n else lost
    | none => lost
  else match s.sessionAt e.point with
    | some x =>
      if x.id != e.session then lost
      else if e.point = 0 && 16 ≤ s.mb.ntf0.length then lost.deliver x 0x02F2 rec
      else s.deliver x 0x02F2 rec
    | none => lost

/-- A descriptor of queue c has ended (R260): the next may start, or the queue halts; one that a reset left to run to its end halts
nothing (R264). -/
def State.endDesc (s : State) (c : Nat) (e : Exec) (st : Nat) : State :=
  match s.chain c with
  | none => s
  | some q =>
    if st = 0 || q.st = 1 then s.updChain c (fun x => { x with running := none, st := if x.ring.isEmpty then 1 else 2 })
    else
      let s1 := (s.updChain c (fun x => { x with running := none, st := 3, lastFail := st })).ev (c % s.tiles) HCQ.EVENTS.HALTED
      (s1.mirrorItem (c % s.tiles) 0x07 (leBytes 2 c ++ leBytes 1 2 ++ leBytes 1 0 ++ leBytes 4 q.count)).notify 0x02F1
        (build339 [(2, c), (4, capTag e.bytes), (2, st)])

/-- The event bits and counters of a status. -/
def State.noteEnd (s : State) (t st : Nat) : State :=
  match st with
  | 1 => (s.bump t HCQ.MALFORMED.COUNT 1).ev t HCQ.EVENTS.MALFORMED
  | 5 => s.ev t HCQ.EVENTS.HOST_ACCESS
  | 6 => s.ev t HCQ.EVENTS.CHQ_FULL
  | _ => s

/-- The index of the descriptor that a queue runs. -/
def State.runningIdx (s : State) (c : Nat) : Option Nat :=
  match s.chain c with
  | some q => q.running.map (·.idx)
  | none => none

/-- A capsule or descriptor completes: counts change, its record is sent unless NO_CPL suppresses an OK, its queue goes on (R251, R259,
R260). -/
def State.endCapsule (s : State) (e : Exec) (r : CapEnd) : State :=
  let b := e.bytes
  let s0 := s.updNet (fun x => { x with execs := x.execs.filter (fun y => y.src != e.src)
                                        portions := x.portions.filter (fun p => !(p.src == e.src && p.capsule)) })
  let s1 := if r.st = 0 && capSignal b then s0.countUp (capSig b) else s0
  let s2 := match e.src with
    | .desc c i => if r.st = 0 && s1.runningIdx c == some i then s1.countUp c else s1
    | _ => s1
  let s3 := s2.noteEnd (e.src.tile s.tiles) r.st
  let s4 := if r.st = 0 && capNoCpl b then s3 else s3.sendRecord e (s3.capRecord e r)
  match e.src with
  | .desc c i => if s4.runningIdx c == some i then s4.endDesc c e r.st else s4
  | _ => s4

/-! ### Start (R245, R256, R260) -/

/-- A descriptor enters a queue's ring; the enqueue is mirrored (R258, R265). -/
def State.enqueueDesc (s : State) (c enqQpn session point role : Nat) (b : List Byte) : State :=
  match s.chain c with
  | none => s
  | some q =>
    (s.updChain c (fun x => { x with ring := x.ring ++ [⟨x.nextIdx, enqQpn, session, point, role, b⟩], nextIdx := x.nextIdx + 1 })).mirrorItem
      (c % s.tiles) 0x07 (leBytes 2 c ++ leBytes 1 0 ++ leBytes 1 0 ++ leBytes 4 q.count ++ leBytes 4 enqQpn ++ leBytes 4 0 ++ b)

/-- Descriptors that a queue's ring of 64 can still take; one in progress keeps its place (DESIGN CHOICE, log entry 31). -/
def Chain.room (c : Chain) : Nat := 64 - c.ring.length - b2n c.running.isSome

/-- A START record (Table 10.19) in the stream of the executing tile, and its SEQ where the partner is ACTIVE's STANDBY. -/
def State.mirrorStart (s : State) (x : Src) : State × Nat :=
  let t := x.tile s.tiles
  let (k, num, pos) := match x with
    | .qp n p => (0, n, p)
    | .desc c i => (1, c, i)
    | .mirror _ n => (0, 0, n)
  let s1 := s.mirrorItem t 0x06 (leBytes 1 k ++ leBytes 3 0 ++ leBytes 4 num ++ leBytes 4 pos ++ leBytes 4 0)
  (s1, (s1.twl t).txSeq - 1)

/-- Begins a capsule or descriptor that has passed the first stage: the checks of the second, then execution. -/
def State.beginExec (s : State) (e : Exec) : State :=
  let (s1, c) := s.capAccess e
  let b := e.bytes
  let a := if 5 ≤ capOp b then 0 else capAddr b
  if c != 0 then s1.endCapsule e (.none c a)
  else if (capOp b == 1 || capOp b == 2) && (match e.src with
      | .desc _ _ => ((s1.qp e.enqQpn).map (·.st)) != some 2
      | _ => false) then s1.endCapsule e (.none 5 a)
  else s1.updNet (fun x => { x with execs := x.execs ++ [e] })

/-- A capsule with ENQUEUE: the checks of the first stage, then the ring (R260). -/
def State.startEnqueue (s : State) (e : Exec) : State :=
  let b := e.bytes
  let c := capCqn b
  if !s.mayName e.enqQpn e.role c then s.endCapsule e (.none 2 0)
  else if ((s.chain c).map (·.room)).getD 0 = 0 then s.endCapsule e (.none 6 0)
  else s.enqueueDesc c e.enqQpn 0 0 0 b

/-- Whether every operation of lower position on a QP has completed (R256). -/
def State.fenceMet (s : State) (q : Qp) (psn : Nat) : Bool :=
  q.reqs.all (fun r => !psnBefore r.psn psn || r.kind == 2 || (decide (r.kind < 2) && r.reached)) &&
  q.caps.all (fun d => !psnBefore d.psn psn) && !s.net.execs.any (fun e => e.src.earlier q.qpn psn) && q.cplQ.isEmpty

/-- Whether a waiting capsule of a QP may start: RTS, room in the ring of 256 records, its fence (R251, R256). -/
def State.mayStart (s : State) (q : Qp) (c : QCapsule) : Bool :=
  q.st == 2 && !q.shadow && s.dstate == .service && s.pow.target == 0 && decide (q.ring.length + q.cplQ.length < 256) &&
  (!capFence c.bytes || s.fenceMet q c.psn)

/-- A capsule starts. -/
def State.startCapsule (s : State) (q : Qp) (c : QCapsule) : State :=
  let n := q.qpn
  let s1 := (s.updQp n (fun x => { x with caps := x.caps.erase c })).bump (qpTile n) HCQ.CAPSULES.COUNT 1
  let (s2, seq) := s1.mirrorStart (.qp n c.psn)
  let e : Exec := ⟨.qp n c.psn, c.bytes, n, 0, 0, false, 0, 0, false, false, [],
    if s2.role == .active && capOp c.bytes == 3 && s2.classAt (capAddr c.bytes) == 2 then [(qpTile n, seq)] else [], false, 0⟩
  if capMalformed c.bytes then s2.endCapsule e (.none 1 0)
  else if capEnqueue c.bytes then s2.startEnqueue e
  else s2.beginExec e

/-- CAPSULE_START: the waiting capsule of the lowest PSN that may start. A fence holds back its own capsule only (R245, R256; DEDUCED, log
entry 68). -/
def execCapsuleStart (qpn : Nat) (s : State) : Host.Outcome State Fault Refusal :=
  .next (match s.qp qpn with
    | some q => (match q.caps.find? (s.mayStart q) with
      | some c => s.startCapsule q c
      | none => s)
    | none => s)

/-- The next descriptor of a queue starts (R260), on the unit that serves. -/
def State.startDesc (s : State) (c : Nat) : State :=
  match s.chain c with
  | none => s
  | some q =>
    match q.ring with
    | [] => s
    | d :: ds =>
      if q.st = 3 || q.running.isSome || s.dstate != .service || s.pow.target != 0 || !s.placing [] then s else
      let s1 := s.updChain c (fun x => { x with ring := ds, running := some d, st := 2 })
      let (s2, seq) := s1.mirrorStart (.desc c d.idx)
      s2.beginExec ⟨.desc c d.idx, d.bytes, d.enqQpn, d.session, d.point, false, 0, 0, false, false, [],
        if s2.role == .active && capOp d.bytes == 3 && s2.classAt (capAddr d.bytes) == 2 then [(c % s.tiles, seq)] else [], false, d.role⟩

/-- DESCRIPTOR_START -/
def execDescriptorStart (cqn : Nat) (s : State) : Host.Outcome State Fault Refusal := .next (s.startDesc cqn)

/-! ### Execution -/

/-- The source that an operand names. -/
def srcOf (i : ExecId) : Src :=
  match i with
  | .capsule n p => .qp n p
  | .desc c k => .desc c k

/-- A capsule or descriptor in execution. -/
def State.execOf (s : State) (i : ExecId) : Option Exec := s.net.execs.find? (fun e => e.src == srcOf i)

/-- It changed. -/
def State.updExec (s : State) (x : Src) (f : Exec → Exec) : State :=
  s.updNet (fun n => { n with execs := n.execs.map (fun e => if e.src = x then f e else e) })

/-- Whether this unit executes capsules and descriptors: a partner only notes their starts (R265). -/
def State.executes (s : State) : Bool := s.dstate == .service && s.placing []

/-- Runs a step of a capsule or descriptor of an opcode. -/
def State.onExec (s : State) (i : ExecId) (op : Nat) (f : Exec → State) : State :=
  match s.execOf i with
  | some e => if capOp e.bytes = op && s.executes then f e else s
  | none => s

/-- The portions of a write are laid out and ask for admission (R226, R249). -/
def State.layOut (s : State) (e : Exec) : State :=
  let s1 := (unitsOf (capAddr e.bytes) (capLen e.bytes)).foldl
    (fun a u => a.addPortion e.src true (capForce e.bytes) .write u.1 u.2 [] []) s
  (s1.updExec e.src (fun x => { x with begun := true })).askMessage e.src true

/-- CAPSULE_WRITE: its data is pulled portion by portion once each is admitted. -/
def execCapsuleWrite (i : ExecId) (s : State) : Host.Outcome State Fault Refusal :=
  .next (s.onExec i 1 (fun e => if e.begun || e.revoked || e.failed then s else s.layOut e))

/-- The QP over which a capsule reaches host memory. -/
def Exec.hostQp (e : Exec) : Nat :=
  match e.src with
  | .qp n _ => n
  | _ => e.enqQpn

/-- CAPSULE_PULL: an RDMA READ for an admitted portion, in ascending order, with room in the pull pool and at most 8 READs outstanding on the
QP (R226). -/
def State.pull (s : State) (p : Portion) (e : Exec) : State :=
  match s.qp e.hostQp with
  | none => s
  | some q =>
    let t := qpTile q.qpn
    let first := !s.net.portions.any (fun o => o.src == p.src && o.capsule && decide (o.id < p.id) && !o.pulled)
    if q.st = 2 && first && decide ((q.sent.filter (fun x => x.opcode == 0x0C)).length < 8) &&
        decide (s.pulledBytes t + p.len ≤ s.fld t RMA.BUF_POOL.PULL_KB * 1024) then
      let s1 := (s.updPortion p.id (fun x => { x with pulled := true })).request q.qpn
        [⟨q.spsn, 0x0C, capSrc e.bytes + (p.addr - capAddr e.bytes), capSrcKey e.bytes, p.len, [], p.id⟩]
      ((s1.mirrorQp q.qpn).rebook t).flow t
    else s

/-- CAPSULE_PULL -/
def execCapsulePull (id : Nat) (s : State) : Host.Outcome State Fault Refusal :=
  .next (match s.portion id with
    | some p =>
      (match s.net.execs.find? (fun e => e.src == p.src) with
       | some e => if p.capsule && p.st == .admitted && !p.pulled && capOp e.bytes == 1 && !e.revoked && !e.failed && s.executes
           then s.pull p e else s
       | none => s)
    | none => s)

/-- Bytes with the poisoned 128 B ranges as zeros (R247). -/
def zeroPoison (a : Nat) (ps : List (Nat × Nat)) (bs : List Byte) : List Byte :=
  bs.mapIdx (fun i b => if ps.any (fun e => e.1 == (a + i) / 128) then 0 else b)

/-- Whether a capsule's read must wait for an earlier write of its QP, or for its pages. -/
def State.capReadReady (s : State) (e : Exec) (a n : Nat) : Bool :=
  s.pagesReady a n && (match e.src with
    | .qp q p => !s.readHeld q p a n
    | _ => true)

/-- The tile that a capsule or descriptor reads through: its QP's, tile 0 for a posted one (R67). -/
def Src.via (x : Src) : Nat :=
  match x with
  | .qp n _ => qpTile n
  | _ => 0

/-- CAPSULE_READ: the data is read and written to the host by RDMA WRITE. -/
def State.capRead (s0 : State) (e : Exec) : State :=
  let b := e.bytes
  let a := capAddr b
  let s := if e.begun || e.failed then s0 else s0.probe a (capLen b)
  if e.begun || e.failed || !s.capReadReady e a (capLen b) then s else
  match s.qp e.hostQp with
  | none => s
  | some q =>
    let ps := s.poisonIn a (capLen b)
    let (bs, s1) := s.readAms e.src.via false a (capLen b)
    let s2 := s1.updExec e.src (fun x => { x with
      begun := true
      poisonId := (ps.head?.map (·.2)).getD 0
      poisonAddr := (ps.head?.map (fun y => max (y.1 * 128) a)).getD 0 })
    (s2.request q.qpn (segment q.mtuBytes q.spsn 6 (capSrc b) (capSrcKey b) e.src.code (zeroPoison a ps bs))).mirrorQp q.qpn

/-- CAPSULE_READ -/
def execCapsuleRead (i : ExecId) (s : State) : Host.Outcome State Fault Refusal := .next (s.onExec i 2 (fun e => s.capRead e))

/-- A COMMIT starts: the dirty pages of the range go to the head of Firn's queue; what it waits for is noted (R172, R248). Portions
applied before it and not yet acknowledged by the partner are asked for as well. -/
def State.commitBegin (s : State) (e : Exec) : State :=
  let a := capAddr e.bytes
  let n := capLen e.bytes
  let dirty := ((s.firn.tokens.filter (fun k => decide (a / 4096 ≤ k.page) && decide (k.page ≤ (a + n - 1) / 4096))).map (·.page)).dedup
  let late := (s.net.portions.filter (fun p => p.st == .applied && overlap p.addr p.len a n)).filterMap (fun p => p.seq.map (fun q => (p.tile, q)))
  (s.headPages dirty).updExec e.src (fun x => { x with begun := true, commit := dirty.map (fun p => (p, s.gen p)), seqs := x.seqs ++ late })

/-- COMMIT -/
def execCommit (i : ExecId) (s : State) : Host.Outcome State Fault Refusal :=
  .next (s.onExec i 3 (fun e => if e.begun || e.revoked then s else s.commitBegin e))

/-- The destination ranges that the poison of a source part falls on (R249). -/
def mapPoison (src dst len : Nat) (ps : List (Nat × Nat)) : List (Nat × Nat) :=
  ps.flatMap (fun e =>
    let lo := max (e.1 * 128) src
    let hi := min ((e.1 + 1) * 128) (src + len)
    let a := dst + (lo - src)
    let z := dst + (hi - src)
    (List.range ((z - 1) / 128 - a / 128 + 1)).map (fun i => (a / 128 + i, e.2)))

/-- A COPY reads the source of an admitted portion. -/
def State.copyPart (s0 : State) (e : Exec) (p : Portion) : State :=
  let b := e.bytes
  let src := capSrc b + (p.addr - capAddr b)
  let s := s0.probe src p.len
  if !s.capReadReady e src p.len then s else
  let ps := s.poisonIn src p.len
  let (bs, s1) := s.readAms e.src.via false src p.len
  let dst := mapPoison src p.addr p.len ps
  let s2 := s1.updPortion p.id (fun x => { x with data := zeroPoison src ps bs, poison := dst })
  match dst with
  | d :: _ => s2.updExec e.src (fun x => if x.poisonId = 0 then { x with poisonId := d.2, poisonAddr := max (d.1 * 128) p.addr } else x)
  | [] => s2

/-- The step of a COPY: its portions laid out, then the source of each admitted portion read, ascending. -/
def State.copyStep (s : State) (e : Exec) : State :=
  if e.revoked then s else
  let s1 := if e.begun then s else s.layOut e
  (s1.net.portions.filter (fun p => p.src == e.src && p.capsule && p.st == .admitted && !p.arrived)).foldl (fun a p => a.copyPart e p) s1

/-- COPY -/
def execCopy (i : ExecId) (s : State) : Host.Outcome State Fault Refusal := .next (s.onExec i 4 (fun e => s.copyStep e))

/-- Whether a capsule of a QP may complete now: its QP in RTS, its context change acknowledged in a pair (R257, R276). -/
def State.mayEnd (s : State) (e : Exec) : Bool :=
  match e.src with
  | .qp n p =>
    (match s.qp n with
     | some q => q.st == 2 && (match q.reqs.find? (fun r => r.psn == p) with
       | some r => s.ctxDone n r.ctx
       | none => true)
     | none => false)
  | _ => true

/-- NOTIFY -/
def execNotify (i : ExecId) (s : State) : Host.Outcome State Fault Refusal :=
  .next (s.onExec i 5 (fun e => if s.mayEnd e then s.endCapsule e ⟨0, 0xFF, 0, 0, 0⟩ else s))

/-- Whether the count that a WAIT names has reached its value (R259); none where the queue is free. -/
def State.waitMet (s : State) (e : Exec) : Option Bool := (s.chain (capAddr e.bytes)).map (fun c => hasReached c.count (capValue e.bytes))

/-- A WAIT ends if it can (R262). -/
def State.tryWait (s : State) (e : Exec) : State :=
  match s.waitMet e with
  | none => s.endCapsule e (.none 2 0)
  | some true => s.endCapsule e ⟨0, 0xFF, 0, 0, 0⟩
  | some false => s.updExec e.src (fun x => { x with begun := true })

/-- WAIT -/
def execWait (i : ExecId) (s : State) : Host.Outcome State Fault Refusal :=
  .next (s.onExec i 6 (fun e => if e.begun then s else s.tryWait e))

/-- WAIT_SATISFIED -/
def execWaitSatisfied (i : ExecId) (s : State) : Host.Outcome State Fault Refusal :=
  .next (s.onExec i 6 (fun e => if e.begun then s.tryWait e else s))

/-- MOVE_TRIGGER: fires an armed EXTERNAL order of an active plan (R263). -/
def State.moveTrigger (s : State) (e : Exec) : State :=
  if !s.placing [] then s else
  match (s.plan (capPlan e.bytes)).bind (fun p => (p.orders.find? (fun o => o.id == capOrder e.bytes)).map (fun o => (p, o))) with
  | some (p, o) =>
    if p.active && o.trig == 3 && o.st == 0 then (s.fire p o (p.exts o.ridx o.first o.count)).endCapsule e ⟨0, 0xFF, 0, 0, 0⟩
    else s.endCapsule e (.none 7 0)
  | none => s.endCapsule e (.none 7 0)

/-- MOVE_TRIGGER -/
def execMoveTrigger (i : ExecId) (s : State) : Host.Outcome State Fault Refusal := .next (s.onExec i 7 (fun e => s.moveTrigger e))

/-! ### The end of a capsule -/

/-- DONE_LEN: the applied whole parts from ADDR on (R251). -/
def State.doneLen (s : State) (e : Exec) : Nat :=
  (((unitsOf (capAddr e.bytes) (capLen e.bytes)).takeWhile (fun u =>
    s.net.portions.any (fun p => p.src == e.src && p.capsule && p.addr == u.1 && p.st == .reached))).map (·.2)).sum

/-- The class that the portions of a write have reached (Table 7.1). -/
def State.classReached (s : State) (e : Exec) : Nat :=
  let c := s.classAt (capAddr e.bytes)
  if c = 2 then
    (if s.role == .active && (s.net.portions.filter (fun p => p.src == e.src && p.capsule)).all (fun p => p.seq.isSome) then 2 else 1)
  else c

/-- Whether C3 has been reached for what a command asks (R170, R276). -/
def State.c3Met (s : State) (e : Exec) : Bool :=
  e.commit.all (fun x => s.isCommitted x.1 x.2) && (s.role != .active || e.seqs.isEmpty)

/-- How a WRITE or COPY ends, if it can end now. -/
def State.writeEnd (s : State) (e : Exec) : Option CapEnd :=
  let b := e.bytes
  let d := s.doneLen e
  let cls := if d = 0 then 0xFF else s.classReached e
  if !(s.net.portions.filter (fun p => p.src == e.src && p.capsule)).all (fun p => p.st == .reached) then none
  else if e.revoked then some ⟨3, cls, 0, d, capAddr b + d⟩
  else if e.failed then some ⟨5, cls, 0, d, capAddr b + d⟩
  else if !e.begun || decide (d < capLen b) || (capForce b && !s.c3Met e) then none
  else if e.poisonId != 0 then some ⟨4, if capForce b then 3 else cls, e.poisonId, d, e.poisonAddr⟩
  else some ⟨0, if capForce b then 3 else cls, 0, capLen b, 0⟩

/-- How a capsule in execution ends, if it can end now; NOTIFY, WAIT and MOVE_TRIGGER end in their own steps. -/
def State.execEnd (s : State) (e : Exec) : Option CapEnd :=
  let b := e.bytes
  match capOp b with
  | 1 | 4 => s.writeEnd e
  | 2 =>
    if e.failed then some (.none 5 (capAddr b))
    else if !e.done then none
    else if e.poisonId != 0 then some ⟨4, 0xFF, e.poisonId, capLen b, e.poisonAddr⟩
    else some ⟨0, 0xFF, 0, capLen b, 0⟩
  | 3 =>
    if e.revoked then some (.none 3 (capAddr b))
    else if e.begun && s.c3Met e then some ⟨0, 3, 0, capLen b, 0⟩ else none
  | _ => none

/-- CAPSULE_COMPLETE -/
def execCapsuleComplete (i : ExecId) (s : State) : Host.Outcome State Fault Refusal :=
  .next (match s.execOf i with
    | some e => if s.executes && s.mayEnd e then (match s.execEnd e with
        | some r => s.endCapsule e r
        | none => s) else s
    | none => s)

end Sys2Proof.Machine
end

