-- ==== Sys2Proof/Machine/Chains.lean ====
section
/-! DEFINITION. The chain queue commands (R258, R260, R261, R264, Table 9.13). -/

namespace Sys2Proof.Machine

/-- The queue number at the front of a payload. -/
def chainArg (pl : List Byte) : Nat := leNat (pl.take 2)

/-- The right of the owning role; a free queue is left to step 6. -/
def ownsChain (role : Nat) (s : State) (pl : List Byte) : Bool :=
  match s.chain (chainArg pl) with
  | some c => c.owner == role
  | none => true

/-- CHAIN_CREATE: the lowest free queue, count 0. Indices go on above any descriptor that still runs under the number. -/
def cmdChainCreate : Cmd :=
  { mirCmd 0x0220 [1, 2] .region
    (fun _ pl => match parse339 [1] pl with
      | some [h] => decide (h < 2)
      | _ => false)
    (fun c pl s =>
      let used := s.net.chains.map (·.num)
      let n := lowestFree used used.length 0
      if 4096 ≤ n then .done s .noResource else
      let next := (s.net.execs.map (fun e => match e.src with
        | .desc k i => if k = n then i + 1 else 0
        | _ => 0)).foldl max 0
      .reply (s.updNet (fun x => { x with chains := x.chains ++ [⟨n, 1, c.role, fieldAt [1] pl 0 == 1, 0, next, [], none, 0⟩] }))
        (build339 [(2, n)])) with
    ready := State.placing }

/-- Descriptors discarded from a ring each send a record with status RESET (R264). -/
def State.resetDescs (s : State) (c : Nat) (ds : List Desc) : State :=
  ds.foldl (fun a d =>
    let e : Exec := ⟨.desc c d.idx, d.bytes, d.enqQpn, d.session, d.point, false, 0, 0, false, false, [], [], false, d.role⟩
    a.sendRecord e (a.capRecord e (.none 8 0))) s

/-- A queue is reset (R264): unstarted descriptors and a WAIT in progress end with RESET, another descriptor in progress runs to its
end, the queue is IDLE. -/
def State.resetChain (s : State) (c : Nat) : State :=
  match s.chain c with
  | none => s
  | some q =>
    let s1 := (s.updChain c (fun x => { x with st := 1, ring := [] })).mirrorItem (c % s.tiles) 0x07
      (leBytes 2 c ++ leBytes 1 3 ++ leBytes 1 0 ++ leBytes 4 q.count)
    let s2 := match q.running with
      | some d => (match s1.net.execs.find? (fun (e : Exec) => e.src == Src.desc c d.idx && capOp e.bytes == 6) with
        | some e => s1.endCapsule e (.none 8 0)
        | none => s1)
      | none => s1
    s2.resetDescs c q.ring

/-- A queue is freed (R262, R264): reset, WAITs on it end with ACCESS. -/
def State.deleteChain (s : State) (c : Nat) : State :=
  let s1 := s.resetChain c
  let s2 := s1.updNet (fun x => { x with chains := x.chains.filter (fun q => q.num != c) })
  (s2.net.execs.filter (fun e => capOp e.bytes == 6 && capAddr e.bytes == c)).foldl (fun a e => a.endCapsule e (.none 2 0)) s2

/-- CHAIN_DELETE -/
def cmdChainDelete : Cmd :=
  { mirCmd 0x0221 [1, 2] .region (fun s pl => (parse339 [2] pl).isSome && (s.chain (chainArg pl)).isSome)
      (fun _ pl s => .done (s.deleteChain (chainArg pl)) .ok) with
    right := ownsChain, ready := State.placing }

/-- CHAIN_RESET: mirrored by the CHAIN record that it sends. -/
def cmdChainReset : Cmd :=
  { actCmd 0x0222 [1, 2] .region (fun s pl => (parse339 [2] pl).isSome && (s.chain (chainArg pl)).isSome)
      (fun _ pl s => .done (s.resetChain (chainArg pl)) .ok) with
    right := ownsChain, ready := State.placing }

/-- The descriptors of a CHAIN_POST. -/
def postDescs (pl : List Byte) : List (List Byte) := (List.range (natAt pl 2 2)).map (fun i => bytesAt pl (8 + 64 * i) 64)

/-- The payload of a CHAIN_POST: queue, count 1 to 63, four zero bytes, descriptors that pass the first stage of R260 and name no other
queue in CQN. A posted descriptor needs no ENQUEUE flag to be a WAIT or a MOVE_TRIGGER (DEDUCED, log entry 69). -/
def postOk (s : State) (pl : List Byte) : Bool :=
  let k := natAt pl 2 2
  decide (8 ≤ pl.length) && decide (1 ≤ k) && decide (k ≤ 63) && natAt pl 4 4 == 0 && pl.length == 8 + 64 * k &&
  (s.chain (chainArg pl)).isSome &&
  (postDescs pl).all (fun b => !capMalformedAs true b && (!capEnqueue b || capCqn b == chainArg pl))

/-- The right to post: the owning role, and the check of R261 on each CQN. -/
def ownsPost (role : Nat) (s : State) (pl : List Byte) : Bool :=
  ownsChain role s pl && (pl.length != 8 + 64 * natAt pl 2 2 || (postDescs pl).all (fun b => !capEnqueue b || s.mayName 0 role (capCqn b)))

/-- CHAIN_POST: all of them in order, or none; each is mirrored by its CHAIN record. -/
def cmdChainPost : Cmd :=
  { actCmd 0x0223 [1, 2] .region postOk
      (fun c pl s =>
        if ((s.chain (chainArg pl)).map (·.room)).getD 0 < natAt pl 2 2 then .done s .noResource
        else .done ((postDescs pl).foldl (fun a b => a.enqueueDesc (chainArg pl) 0 c.session c.point c.role b) s) .ok) with
    right := ownsPost, ready := State.placing }

/-- The state of a queue as CHAIN_STATUS and `HCQ.CHQ` count it: one whose descriptor still runs is RUNNING. -/
def Chain.shown (c : Chain) : Nat := if c.running.isSome then 2 else c.st

/-- CHAIN_STATUS: state (0 for a free queue), count, descriptors in the ring (DESIGN CHOICE, log entry 31), status of the last failure. -/
def cmdChainStatus : Cmd := readCmd 0x0224 .reading
  (fun _ pl => match parse339 [2] pl with
    | some [n] => decide (n < 4096)
    | _ => false)
  (fun _ pl s => .reply s (match s.chain (chainArg pl) with
    | some c => build339 [(1, c.shown), (4, c.count), (2, 64 - c.room), (2, c.lastFail)]
    | none => build339 [(1, 0), (4, 0), (2, 0), (2, 0)]))

/-- CHAIN_CREATE -/
def execChainCreate (f : Frame) (s : State) : Host.Outcome State Fault Refusal := .next (mailbox cmdChainCreate f s)

/-- CHAIN_DELETE -/
def execChainDelete (f : Frame) (s : State) : Host.Outcome State Fault Refusal := .next (mailbox cmdChainDelete f s)

/-- CHAIN_RESET -/
def execChainReset (f : Frame) (s : State) : Host.Outcome State Fault Refusal := .next (mailbox cmdChainReset f s)

/-- CHAIN_POST -/
def execChainPost (f : Frame) (s : State) : Host.Outcome State Fault Refusal := .next (mailbox cmdChainPost f s)

/-- CHAIN_STATUS -/
def execChainStatus (f : Frame) (s : State) : Host.Outcome State Fault Refusal := .next (mailbox cmdChainStatus f s)

end Sys2Proof.Machine
end

