-- ==== Sys2Proof/Machine/Feed.lean ====
section
/-! DEFINITION. The engine feed: admission, prefetch, nozzle maps, strobes and indexes, frames, lanes and the spare, and its commands
(chapter 11). -/

namespace Sys2Proof.Machine

/-! ### Depths and places -/

/-- LOW of a stream by default (R307): 30 µs of lines for main-homed sources, 5 µs for near-homed ones, the larger of both. -/
def State.lowDefault (s : State) (c : StreamCfg) : Nat :=
  let near := s.ams.homes.any (fun e => c.uses e.1 && e.2.tier == 0)
  max (if (s.mainTiles c).isEmpty then 0 else ceilDiv 30000 c.tmin) (if near then ceilDiv 5000 c.tmin else 0)

/-- LOW and FIFO_LINES in force (R306, R307). -/
def State.lowOf (s : State) (c : StreamCfg) : Nat := if c.low = 0 then s.lowDefault c else c.low

def State.depthOf (s : State) (c : StreamCfg) : Nat := if c.fifo = 0 then max 64 (4 * s.lowOf c) else c.fifo

/-- The bytes of a stream's FIFO. -/
def State.fifoBytes (s : State) (c : StreamCfg) : Nat := s.depthOf c * c.slotBytes

/-- Bytes that FIFOs take of a near-tier frame. -/
def State.frameLoad (s : State) (t f : Nat) : Nat :=
  ((s.feed.streams.filter (fun x => feedTileOf x.cfg.num == t && x.frame == some f)).map (fun x => x.depth * x.cfg.slotBytes)).sum

/-- The near-tier frame that takes a FIFO: one that holds FIFOs and has room, else a free one (R58, R306). -/
def State.fifoFrame (s : State) (c : StreamCfg) : Option Nat :=
  let t := feedTileOf c.num
  let n := s.fifoBytes c
  if 2 ^ 21 < n then none
  else match (s.fifoFrames t).find? (fun f => decide (s.frameLoad t f + n ≤ 2 ^ 21)) with
    | some f => some f
    | none => s.freeFrame t 0

/-- The sequence of a stream's raster line i, and the line that a sequence names. -/
def StreamCfg.seqOf (c : StreamCfg) (i : Nat) : Nat := (c.base + i) % 2 ^ 48

def StreamCfg.lineOf (c : StreamCfg) (q : Nat) : Nat := (q + 2 ^ 48 - c.base % 2 ^ 48) % 2 ^ 48

/-- The raster line that a stream's next edge calls for. -/
def FStream.wanted (x : FStream) : Nat := if x.st = 4 || x.st = 5 then x.cfg.lineOf x.seq else 0

/-! ### Admission (R302, Table 11.4) -/

/-- The blocks of one frame on a lane. -/
def StreamCfg.blocks (c : StreamCfg) : Nat :=
  let d := 1 + ceilDiv c.lineBytes 8
  2 + d + ceilDiv d 32

/-- Whether a lane holds its live streams and one more: 90 % of the shortest period, at 2.346667 ns a block. -/
def State.laneFits (s : State) (c : StreamCfg) : Bool :=
  let cs := c :: ((s.feed.streams.filter (fun x => x.live && x.cfg.num / 8 == c.num / 8 && x.cfg.num != c.num)).map (·.cfg))
  decide ((cs.map (·.blocks)).sum ≤ 900000 * (cs.map (·.tmin)).foldl min c.tmin / 2346667)

/-- Whether every hop holds a stream from each of its home tiles. -/
def State.streamHops (s : State) (c : StreamCfg) : Bool :=
  let u := feedTileOf c.num
  let routes := (s.homeTiles c).map (fun t => s.meshRoute t u)
  (routes.flatMap id).all (fun h => decide (s.hopAdmitted h + (routes.filter (fun r => r.contains h)).length * c.rate ≤ s.hopLimit h))

/-- Whether the key of a stream passes for RD over its source: 0, 1 REVOKED, 2 BAD_ARG. -/
def State.streamKey (s : State) (c : StreamCfg) : Nat :=
  match s.checkKey c.key c.src (c.srcEnd - c.src) 0 with
  | .ok _ => 0
  | .keyFail => if (s.regionNum (c.key % 65536)).isSome then 1 else 2
  | _ => 2

/-- Whether an extent of the source is deep-homed or moves, or is to move, to the deep tier. -/
def State.deepSource (s : State) (c : StreamCfg) : Bool :=
  s.ams.homes.any (fun e => c.uses e.1 && e.2.tier == 2) || s.ams.moves.any (fun m => c.uses m.ext && m.req.tier == 2) ||
  (s.ams.movePend.map (fun e => (e.1, e.2.1)) ++ s.ams.issued).any (fun e => c.uses e.1 && e.2.tier == 2)

/-- The first check that fails, with its refusal. -/
def State.admitStream (s : State) (c : StreamCfg) : Option (Nat × Status) :=
  if s.deepSource c then some (1, .busy)
  else if s.streamKey c != 0 then some (2, if s.streamKey c = 1 then .revoked else .badArg)
  else if !s.laneFits c then some (3, .noResource)
  else if (s.mainTiles c).any (fun t => !s.mainFits t c.rate) then some (4, .noResource)
  else if !s.streamHops c then some (5, .noResource)
  else if (s.fifoFrame c).isNone then some (6, .noResource)
  else if s.ams.homes.any (fun e => c.uses e.1 && e.2.tier == 0 && s.repartitioning e.2.tile) then some (7, .busy)
  else none

/-! ### Prefetch and staging (R306 to R308, R319, R320) -/

/-- Prefetch reads are issued while slots are free and lines are left, in order; each reserves its slot. -/
def FStream.issue (x : FStream) : FStream :=
  if x.st = 2 || x.st = 3 || x.st = 4 then
    let n := min (x.depth - x.staged.length - x.reserved) (x.cfg.lines - x.nextRead)
    { x with reserved := x.reserved + n, nextRead := x.nextRead + n, flight := x.flight ++ (List.range n).map (fun i => x.nextRead + i) }
  else x

/-- Panic follows the staged lines (R307): from below LOW until 2 × LOW. -/
def FStream.notePanic (x : FStream) : FStream :=
  if x.staged.length < x.low && (x.st = 4 || x.st = 5) then { x with panic := true }
  else if 2 * x.low ≤ x.staged.length then { x with panic := false }
  else x

/-- The reads of source line i that wait in the channels of its home tiles take or lose the panic mark (R98, R307). -/
def State.panicReads (s : State) (c : StreamCfg) (i : Nat) (on : Bool) : State :=
  let a := c.src + i * c.pitch
  (pagesOf a c.lineBytes).foldl (fun x p =>
    let lo := max a (p * 4096)
    match x.homeOf (p / 512) with
    | some h => if h.tier = 1 then x.markPanic h.tile (x.physAt h.tile (h.local lo)) (min (a + c.lineBytes) ((p + 1) * 4096) - lo - 1) on else x
    | none => x) s

/-- The address of a map entry in the nozzle map space of a tile: bank b of a stream, position p. -/
def nzmAddr (n b p : Nat) : Nat := ((n % 32 * 2 + b) * 8192 + p) * 2

/-- A map entry (Table 11.8). It is stored XORed with its position, so that a bank never loaded is the identity (DESIGN CHOICE, log entry 26). -/
def State.nzm (s : State) (n b p : Nat) : Nat := leNat (s.bytes .nzm (feedTileOf n) (nzmAddr n b p) 2) ^^^ p

/-- A map entry written. -/
def State.setNzm (s : State) (n b p e : Nat) : State := s.setBytes .nzm (feedTileOf n) (nzmAddr n b p) (leBytes 2 (e ^^^ p))

/-- The value of position p in a planar payload of `planes` bits (R315). -/
def planar (d : List Byte) (planes pl p : Nat) : Nat :=
  (List.range planes).foldl (fun v k => v + b2n ((d.getD (k * pl + p / 8) 0).toNat.testBit (p % 8)) * 2 ^ k) 0

/-- A planar payload of P values. -/
def toPlanar (vs : List Nat) (planes pl : Nat) : List Byte :=
  (List.range planes).flatMap (fun k => (List.range pl).map (fun j =>
    BitVec.ofNat 8 ((List.range 8).foldl (fun b i => b + b2n ((vs.getD (8 * j + i) 0).testBit k) * 2 ^ i) 0)))

/-- The output at position p under a map entry (R319), with b bits per nozzle. -/
def mapOut (e p b : Nat) (inp : Nat → Nat) : Nat :=
  if e.testBit 15 then 0 else
  let src := e % 8192
  let v := if src = p then inp p else max (inp p) (inp src)
  if v = 0 then 0 else min (v + bitsOf e 13 2) (2 ^ b - 1)

/-- A raster line staged through a map bank; an entry that fails parity is the identity (R319, R320). -/
def State.stageLine (s : State) (c : StreamCfg) (bank : Nat) (bad : List Nat) (d : List Byte) : List Byte :=
  let b := 2 ^ c.bpn
  let pl := ceilDiv c.pos 64 * 8
  toPlanar ((List.range c.pos).map (fun p => mapOut (if bad.contains p then p else s.nzm c.num bank p) p b (planar d b pl))) b pl

/-- The map bank in force for a sequence (R320). -/
def FStream.bankFor (x : FStream) (q : Nat) : Nat :=
  match x.switch with
  | some k => if (q + 2 ^ 48 - k) % 2 ^ 48 < 2 ^ 47 then 1 - x.bank else x.bank
  | none => x.bank

/-- The bank of a stream switches: it is in force, and stored. -/
def State.switchBank (s : State) (n : Nat) : State :=
  (s.updStream n (fun x => { x with bank := 1 - x.bank, switch := none })).ev (feedTileOf n) NZM.EVENTS.SWITCHED

/-- A pending switch takes effect when the next line to send is staged with the new bank. -/
def State.trySwitch (s : State) (n : Nat) : State :=
  match s.fstream n with
  | some x => if x.switch.isSome && x.bankFor x.seq != x.bank then s.switchBank n else s
  | none => s

/-- The oldest prefetch read of a stream returns, once its pages can be read: the line is staged, or dropped where its edge has passed (R311). Its
reads carry the panic mark while the stream is in panic (R307). `bad`: the positions whose map entry fails parity. -/
def State.prefetchDone (s : State) (n : Nat) (bad : List Nat) (near : List NearErr) : State :=
  match s.fstream n with
  | none => s
  | some x =>
    match x.flight with
    | [] => s
    | i :: rest =>
      let a := x.cfg.src + i * x.cfg.pitch
      let s0 := (s.addNear near).probe a x.cfg.lineBytes
      if !s0.pagesReady a x.cfg.lineBytes then s0 else
      let (d, s') := s0.readAms (feedTileOf n) true a x.cfg.lineBytes
      let s1 := if x.panic then s'.panicReads x.cfg i true else s'
      let bank := x.bankFor (x.cfg.seqOf i)
      let used := bad.filter (fun p => decide (p < x.cfg.pos))
      let keep := decide (x.wanted ≤ i)
      let line : Staged := ⟨i, bank, s1.stageLine x.cfg bank used d⟩
      let s2 := if used.isEmpty then s1 else (s1.ev (feedTileOf n) NZM.EVENTS.PARITY).bump (feedTileOf n) NZM.PARITY_ERR.COUNT used.length
      let s3 := s2.updStream n (fun y =>
        let st := if keep then y.staged ++ [line] else y.staged
        ({ y with flight := rest, reserved := y.reserved - 1, staged := st } : FStream).notePanic.issue)
      if x.panic && !(s3.fstream n).any (·.panic) then (((s3.fstream n).map (·.staged)).getD []).foldl (fun y l => y.panicReads x.cfg l.idx false) s3 else s3

/-- PREFETCH_DONE: while the device is neither in FREEZE nor in FAULT (R327); `near`: errors met in near-tier words (R59). -/
def execPrefetchDone (stream : Nat) (bad : List Nat) (near : List NearErr) (s : State) : Host.Outcome State Fault Refusal :=
  .next (if s.dstate == .freeze || s.dstate == .fault then s else s.prefetchDone stream bad near)

/-! ### Starting (R301, R302, R329) -/

/-- FEED_START is answered once the stream is ARMED and, in a pair, the STANDBY has reported or been waited for. -/
def State.answerStart (s : State) (n : Nat) : State :=
  match s.fstream n with
  | some x =>
    if x.st < 3 || (x.asked.isSome && x.reported.isNone) then s
    else
      let cov := x.asked.isSome && x.reported == some true
      ((s.updStream n (fun y => { y with asked := none })).finishWait (feedKey n) 5 .ok (build339 [(1, 0), (1, b2n cov)])).finishWait
        (feedKey n) 6 .ok []
  | none => s

/-- The FIFO of a FILLING stream is full, or holds every line of the job: ARMED. -/
def State.fifoFull (s : State) (n : Nat) : State :=
  match s.fstream n with
  | some x => if x.st = 2 && min x.depth x.cfg.lines ≤ x.staged.length then
      (s.updStream n (fun y => { y with st := 3, panic := false })).answerStart n else s
  | none => s

/-- FIFO_FULL -/
def execFifoFull (stream : Nat) (s : State) : Host.Outcome State Fault Refusal := .next (s.fifoFull stream)

/-- A stream that has passed admission: FILLING, with its FIFO. -/
def State.fillStream (s : State) (c : StreamCfg) : State :=
  (s.updStream c.num (fun x => ({ x with st := 2, depth := s.depthOf c, low := s.lowOf c, frame := s.fifoFrame c, staged := [], reserved := 0, flight := [], nextRead := 0, sent := 0, seq := c.base, skip := c.skip, panic := false, out := none, early := 0, cause := 1, recent := [], startedAt := s.now } : FStream).issue)).noteFeedBw

/-- What the STANDBY reports of a FEED_START when it has acknowledged the record that carries it: a free value (DESIGN CHOICE, log entry 27). -/
def State.coverReport (s : State) (n : Nat) : State :=
  match s.fstream n with
  | some x =>
    if x.asked.isNone || x.reported.isSome then s else
    let (v, s1) := s.draw
    let yes := v % 2 == 1
    let s2 := s1.updStream n (fun y => { y with reported := some yes })
    (if yes then s2 else s2.feedFault n 6 x.seq).answerStart n
  | none => s

/-- The streams whose FEED_START a MIRROR_ACK of tile 0 up to a SEQ covers. -/
def State.coverReports (s : State) (seq : Nat) : State :=
  ((s.feed.streams.filter (fun x => x.asked.any (fun q => decide (q ≤ seq)))).map (·.cfg.num)).foldl State.coverReport s

/-- FEED_COVER_TIMEOUT: 10 ms without the STANDBY's report; the stream runs on the ACTIVE alone. -/
def execFeedCoverTimeout (stream : Nat) (s : State) : Host.Outcome State Fault Refusal :=
  .next (match s.fstream stream with
    | some x => if x.asked.isSome && x.reported.isNone && x.startedAt + 10000 ≤ s.now then
        ((s.updStream stream (fun y => { y with reported := some false })).feedFault stream 6 x.seq).answerStart stream
      else s
    | none => s)

/-! ### Frames (R309 to R316) -/

/-- The tile's feed beside its registers. -/
def State.ftile (s : State) (t : Nat) : FeedTile :=
  (s.feed.tiles.find? (fun x => x.tile == t)).getD
    { tile := t, idxAt := none, matched := false, edges0 := 0, edges1 := 0, spareFor := none, spareAt := 0, spareUp := false,
      back := false, lastOk := [], errs := [], status := [] }

/-- The tile's feed changed. -/
def State.updFtile (s : State) (t : Nat) (f : FeedTile → FeedTile) : State :=
  s.updFeed (fun d => { d with tiles := f (s.ftile t) :: d.tiles.filter (fun x => x.tile != t) })

/-- Whether the unit's role sends raster lines, and with AUTH (Table 11.9). -/
def State.feedSends (s : State) : Bool := s.role == .active || s.role == .solo || s.role == .standby

def State.feedAuth (s : State) : Bool := s.role == .active || s.role == .solo

/-- The lane a stream's frames leave on. -/
def FStream.lane (x : FStream) : Nat := if x.spare then 4 else feedLaneOf x.cfg.num

/-- The segments of a frame's data blocks (R314): each but the first, which directly follows the SOL, begins with a SEG block. -/
def feedSegments (slot : Nat) (d : List Byte) : List Byte :=
  (List.range ((d.length + 255) / 256)).flatMap (fun k =>
    (if k = 0 then [] else leBytes 1 0x33 ++ leBytes 1 (slot * 32) ++ leBytes 6 0) ++ (d.drop (k * 256)).take 256)

/-- A frame as the blocks it leaves in (R314, R315, Tables 11.5, 11.6): SOL, header and payload in segments, EOL with the CRC. -/
def State.feedFrame (s : State) (x : FStream) (line : Option Staged) : List Byte :=
  let c := x.cfg
  let i := c.lineOf x.seq
  let d := (line.map (·.data)).getD []
  let sol := leBytes 1 (c.num % 8 * 32 + b2n s.feedAuth * 16 + b2n s.pow.twPref * 8 + b2n line.isNone * 4) ++ leBytes 6 x.seq
  let flags := (line.map (·.bank)).getD x.bank + b2n (i + 1 == c.lines) * 2 + b2n (i == 0) * 4 + b2n x.spare * 8
  let h := leBytes 1 c.num ++ leBytes 2 c.pos ++ leBytes 3 d.length ++ leBytes 1 c.bpn ++ leBytes 1 flags
  leBytes 1 0x78 ++ sol ++ feedSegments (c.num % 8) (pad8 (h ++ d)) ++
    (leBytes 1 0x87 ++ leBytes 1 (c.num % 8 * 32) ++ leBytes 4 (crc32 (sol ++ h ++ d)) ++ leBytes 2 0)

/-- A strobe edge sends a RUNNING stream's next raster line, or an underrun where it is not staged (R309, R311). -/
def State.sendLine (s : State) (n : Nat) : State :=
  match s.fstream n with
  | none => s
  | some x =>
    let t := feedTileOf n
    let i := x.cfg.lineOf x.seq
    let line := x.staged.find? (fun l => l.idx == i)
    let s1 := (s.send (.feed t x.lane (if line.isSome then 0 else 1) (s.feedFrame x line))).bump t FED.LINES_TX.COUNT 1
    let s2 := s1.updStream n (fun y => ({ y with
      seq := (y.seq + 1) % 2 ^ 48
      sent := (y.sent + 1) % 2 ^ 32
      staged := y.staged.filter (fun l => decide (i < l.idx))
      out := some (y.seq, i, line.isNone)
      recent := y.recent.filter (fun r => decide (s.now ≤ r.2 + 200)) ++ [(y.seq, s.now)] } : FStream).notePanic.issue)
    let s3 := s2.trySwitch n
    if line.isSome then s3 else ((s3.bump t FED.UNDERRUNS.COUNT 1).evRec t FED.EVENTS.UNDERRUN n).feedFault n 0 x.seq

/-- An edge on a stream's strobe input. -/
def State.edgeStream (s : State) (n : Nat) : State :=
  match s.fstream n with
  | none => s
  | some x =>
    if x.st != 4 then s
    else if x.skip != 0 then s.updStream n (fun y => { y with skip := y.skip - 1 })
    else if x.out.isSome then
      ((s.updStream n (fun y => { y with early := y.early + 1 })).ev (feedTileOf n) FED.EVENTS.STROBE_EARLY).bump (feedTileOf n)
        FED.STROBE_EARLY.COUNT 1
    else s.sendLine n

/-- The streams that a strobe input of a tile drives, in ascending slot order (R310). -/
def State.strobed (s : State) (t stb : Nat) : List Nat :=
  (List.range 32).map (fun i => t * 32 + i) |>.filter (fun n => (s.fstream n).any (fun x => x.cfg.stb == stb))

/-- A strobe edge of a tile. -/
def State.strobe (s : State) (t stb : Nat) : State :=
  let s1 := s.updFtile t (fun x => if stb = 0 then { x with edges0 := x.edges0 + 1 } else { x with edges1 := x.edges1 + 1 })
  (s1.strobed t stb).foldl State.edgeStream s1

/-- STROBE_EDGE -/
def execStrobeEdge (tile stb : Nat) (s : State) : Host.Outcome State Fault Refusal := onUnit tile stb 2 s (s.strobe tile stb)

/-- STROBE_EARLY: an edge while a RUNNING stream of the input is still sending. -/
def execStrobeEarly (tile stb : Nat) (s : State) : Host.Outcome State Fault Refusal :=
  onUnit tile stb 2 s
    (if (s.strobed tile stb).any (fun n => (s.fstream n).any (fun x => x.st == 4 && x.out.isSome && x.skip == 0)) then s.strobe tile stb
     else s)

/-- A stream moves to the spare, or back, at a raster-line boundary (R318). -/
def State.moveLane (s : State) (n : Nat) : State :=
  let f := s.ftile (feedTileOf n)
  if f.spareFor != some (feedLaneOf n) || !f.spareUp then s
  else s.updStream n (fun x => if x.out.isNone then { x with spare := !f.back } else x)

/-- Once every stream has moved, the lane left is powered down; the spare left is free again. -/
def State.laneLeft (s : State) (t : Nat) : State :=
  let f := s.ftile t
  match f.spareFor with
  | none => s
  | some l =>
    let mine := s.feed.streams.filter (fun x => feedTileOf x.cfg.num == t && feedLaneOf x.cfg.num == l && x.live)
    if !f.spareUp || mine.any (fun x => x.spare == f.back) then s
    else if f.back then
      ((s.updFtile t (fun x => { x with spareFor := none, spareUp := false, back := false })).setF t FED.LANES.SPARE_FOR 7).setF t
        FED.LANES.POWERED (setBit (s.fld t FED.LANES.POWERED) 4 false)
    else s.setF t FED.LANES.POWERED (setBit (s.fld t FED.LANES.POWERED) l false)

/-- FRAME_END: the EOL of a stream's frame has been sent (Table 11.3). -/
def State.frameEnd (s : State) (n : Nat) : State :=
  match s.fstream n with
  | none => s
  | some x =>
    let last := x.out.any (fun o => o.2.1 + 1 == x.cfg.lines)
    let s1 := (s.updStream n (fun y => { y with out := none })).moveLane n |>.laneLeft (feedTileOf n)
    if x.st = 5 then s1.streamIdle n x.cause
    else if x.out.isSome && last then s1.streamIdle n 0
    else if x.st = 4 && x.early != 0 && x.out.isSome then (s1.updStream n (fun y => { y with early := y.early - 1 })).sendLine n
    else s1

/-- FRAME_END -/
def execFrameEnd (stream : Nat) (s : State) : Host.Outcome State Fault Refusal := .next (s.frameEnd stream)

/-- The INDEX_MARK of a tile (Table 10.19): every ARMED or RUNNING stream. -/
def State.indexMark (s : State) (t : Nat) : State :=
  let xs := s.feed.streams.filter (fun x => feedTileOf x.cfg.num == t && (x.st == 3 || x.st == 4))
  if xs.isEmpty then s else
  s.mirrorItem t 0x0D (leBytes 2 xs.length ++ leBytes 6 0 ++
    xs.flatMap (fun x => leBytes 2 x.cfg.num ++ leBytes 2 x.skip ++ leBytes 4 0 ++ leBytes 8 x.seq))

/-- INDEX_PULSE: an index edge of a tile; less than 2 ms after the last accepted one it is ignored (R309, R322). -/
def State.indexPulse (s : State) (t : Nat) : State :=
  if (s.ftile t).idxAt.any (fun a => decide (s.now < a + 2000)) then s.ev t FED.EVENTS.IDX_FAST else
  let s1 := s.updFtile t (fun x => { x with idxAt := some s.now, matched := false, edges0 := 0, edges1 := 0 })
  let s2 := if s.feedAuth then s1.updFeed (fun d => { d with streams := d.streams.map (fun x =>
      if feedTileOf x.cfg.num = t && x.st = 3 then { x with st := 4, seq := x.cfg.base, skip := x.cfg.skip, sent := 0 } else x) })
    else s1
  if s.role == .active then s2.indexMark t else s2

/-- INDEX_PULSE -/
def execIndexPulse (tile : Nat) (s : State) : Host.Outcome State Fault Refusal := onTile tile s (s.indexPulse tile)

/-- A stream of a STANDBY takes a mark's values (R322): an ARMED one starts, a RUNNING one that differs is realigned. -/
def State.applyMark (s : State) (t n skip seq : Nat) : State :=
  match s.fstream n with
  | none => s
  | some x =>
    let f := s.ftile t
    let edges := if x.cfg.stb = 0 then f.edges0 else f.edges1
    let used := min skip edges
    let q := (seq + (edges - used)) % 2 ^ 48
    let i := x.cfg.lineOf q
    let s1 := fun (a : State) => (a.updStream n (fun y => ({ y with st := 4, seq := q, skip := skip - used,
                                                                    staged := y.staged.filter (fun l => decide (i ≤ l.idx)) } : FStream).issue)).trySwitch n
    if x.st = 3 then (s1 s).updStream n (fun y => { y with sent := 0 })
    else if x.st = 4 && (x.seq != q || x.skip != skip - used) then
      (((s1 s).evRec t FED.EVENTS.SEQ_REALIGN n).bump t FED.REALIGN.COUNT 1).feedFault n 4 q
    else s

/-- An INDEX_MARK reaches a STANDBY's feed tile: matched to its most recent index pulse within the window, or ignored (R322). -/
def State.markArrives (s : State) (t : Nat) (body : List Byte) : State :=
  let f := s.ftile t
  let ok := !f.matched && f.idxAt.any (fun a => decide (s.now ≤ a + s.fld t FED.ALIGN.WIN_US))
  if !ok then s.ev t FED.EVENTS.SEQ_MARK_LATE else
  (List.range (natAt body 0 2)).foldl (fun a i =>
    let o := 8 + 16 * i
    a.applyMark t (natAt body o 2) (natAt body (o + 2) 2) (natAt body (o + 8) 8 % 2 ^ 48))
    (s.updFtile t (fun x => { x with matched := true }))

/-- FIFO_BOOKS_CHECK: reserved slots against the reads in flight (R308). -/
def execFifoBooksCheck (tile : Nat) (s : State) : Host.Outcome State Fault Refusal :=
  onTile tile s
    (if s.feed.streams.any (fun x => feedTileOf x.cfg.num == tile && x.reserved != x.flight.length) then
      (s.updFeed (fun d => { d with streams := d.streams.map (fun x =>
        if feedTileOf x.cfg.num = tile then { x with reserved := x.flight.length } else x) })).evRec tile FED.EVENTS.BOOKS 0
     else s)

/-- A LID block (Table 11.5). -/
def State.lid (s : State) (t lane : Nat) : List Byte :=
  let f := s.ftile t
  let rep := if lane = 4 then f.spareFor.getD 0xFF else 0xFF
  leBytes 1 0x4B ++ leBytes 1 (b2n s.feedAuth * 16 + b2n s.pow.twPref * 8 + lane) ++ leBytes 1 rep ++ leBytes 1 t ++ leBytes 4 (s.unitId % 2 ^ 32)

/-- LID_SEND: on every powered lane of a tile (R316). -/
def execLidSend (tile : Nat) (s : State) : Host.Outcome State Fault Refusal :=
  onTile tile s ((List.range 5).foldl (fun a l => if (a.fld tile FED.LANES.POWERED).testBit l then a.send (.feed tile l 2 (a.lid tile l))
    else a) s)

/-! ### Status frames and lanes (R317, R318, R323) -/

/-- When a lane last gave a valid status frame. -/
def FeedTile.okAt (f : FeedTile) (lane : Nat) : Nat := amapGet 0 f.lastOk lane

/-- A STANDBY compares the last sequences consumed with what it sent in the preceding 200 µs (R323). -/
def State.crossCheck (s : State) (t lane : Nat) (d : List Byte) : State :=
  if s.role != .standby then s else
  (List.range 8).foldl (fun a k =>
    let q := natAt d (0x10 + 6 * k) 6
    match a.feed.streams.find? (fun x => feedTileOf x.cfg.num == t && x.lane == lane && x.cfg.num % 8 == k && x.st == 4) with
    | some x => if q = 2 ^ 48 - 1 || x.recent.any (fun r => r.1 == q && decide (s.now ≤ r.2 + 200)) then a
        else (a.evRec t FED.EVENTS.SEQ_DISAGREE x.cfg.num).feedFault x.cfg.num 5 q
    | none => a) s

/-- The spare comes into service, or the lane it stood for: streams with no frame in progress move at once. -/
def State.laneUp (s : State) (t : Nat) : State :=
  let s1 := s.updFtile t (fun x => { x with spareUp := true })
  (((s1.feed.streams.filter (fun x => feedTileOf x.cfg.num == t)).map (·.cfg.num)).foldl State.moveLane s1).laneLeft t

/-- STATUS_FRAME: the 64 bytes of a status frame on a lane, and the CRC its EOS block carries. -/
def State.statusFrame (s : State) (t lane : Nat) (d : List Byte) (crc : Nat) : State :=
  if crc32 d != crc || d.length != 64 || natAt d 0 2 != 0xFD5A then s.bump t FED.RX_CRC_ERR.COUNT 1 else
  let s1 := s.updFtile t (fun f =>
    let ok := amapInsert lane s.now (amapErase lane f.lastOk)
    let e := f.errs.filter (fun x => decide (s.now ≤ x.2.1 + 1000)) ++ [(lane, s.now, natAt d 8 2 + natAt d 0xA 2)]
    { f with lastOk := ok, errs := e, status := amapInsert lane d (amapErase lane f.status) })
  let s2 := (s1.setF t FED.LANES.STATUS_OK (setBit (s1.fld t FED.LANES.STATUS_OK) lane true)).crossCheck t lane d
  let f := s2.ftile t
  if f.back && !f.spareUp && f.spareFor == some lane then s2.laneUp t else s2

/-- STATUS_FRAME -/
def execStatusFrame (tile lane : Nat) (data : List Byte) (crc : Nat) (s : State) : Host.Outcome State Fault Refusal :=
  onUnit tile lane 5 s (s.statusFrame tile lane data crc)

/-- Whether a lane is failing (R318): LANE_BAD, errors within 1 ms, no block lock, or no valid status frame for 1 ms. -/
def State.laneFails (s : State) (t lane : Nat) : Bool :=
  let f := s.ftile t
  let bad := ((amapFind lane f.status).map (fun d => (natAt d 3 1).testBit 0)).getD false
  let n := ((f.errs.filter (fun e => e.1 == lane && decide (s.now ≤ e.2.1 + 1000))).map (·.2.2)).sum
  (s.fld t FED.LANES.POWERED).testBit lane &&
  (bad || decide (s.fld t FED.CTRL.ERR_TH ≤ n) || !(s.fld t FED.LANES.LOCK).testBit lane || decide (f.okAt lane + 1000 ≤ s.now))

/-- The spare is powered up for a lane (R318 step 1). -/
def State.spareLane (s : State) (t lane : Nat) : State :=
  (s.updFtile t (fun f => { f with spareFor := some lane, spareAt := s.now, spareUp := false, back := false })).setFs t
    [(FED.LANES.POWERED, setBit (s.fld t FED.LANES.POWERED) 4 true), (FED.LANES.SPARE_FOR, lane)]

/-- Whether the spare may stand for a lane. -/
def State.spareLaneFree (s : State) (t lane : Nat) : Bool :=
  (s.ftile t).spareFor.isNone && (s.fld t FED.CTRL.SPARE_MAP).testBit lane

/-- LANE_FAILING: a lane of 0 to 3 fails; `lost`: its receive pair has lost block lock. -/
def execLaneFailing (tile lane : Nat) (lost : Bool) (s : State) : Host.Outcome State Fault Refusal :=
  onUnit tile lane 4 s
    (let s0 := if lost then s.setF tile FED.LANES.LOCK (setBit (s.fld tile FED.LANES.LOCK) lane false) else s
     let s1 := if (s0.ftile tile).okAt lane + 1000 ≤ s0.now then
         s0.setF tile FED.LANES.STATUS_OK (setBit (s0.fld tile FED.LANES.STATUS_OK) lane false) else s0
     if !s1.laneFails tile lane then s1 else
     let s2 := (s1.ev tile FED.EVENTS.LANE_FAILING).feedFault (tile * 5 + lane) 1 0
     if s2.flag tile FED.CTRL.SPARE_EN && s2.spareLaneFree tile lane then s2.spareLane tile lane else s2)

/-- SPARE_STATUS_OK: a valid status frame has come on the spare (R318 step 3). -/
def execSpareStatusOk (tile : Nat) (s : State) : Host.Outcome State Fault Refusal :=
  onTile tile s
    (let f := s.ftile tile
     match f.spareFor with
     | some l => if f.spareUp || f.back || f.okAt 4 < f.spareAt || (amapFind 4 f.lastOk).isNone then s
         else ((s.laneUp tile).ev tile FED.EVENTS.LANE_SPARED).feedFault (tile * 5 + l) 2 0
     | none => s)

/-- SPARE_TIMEOUT: 1 ms without it; the spare, or the lane that was to be restored, is powered down and the streams stay where they
are. -/
def execSpareTimeout (tile : Nat) (s : State) : Host.Outcome State Fault Refusal :=
  onTile tile s
    (let f := s.ftile tile
     match f.spareFor with
     | some l => if f.spareUp || s.now < f.spareAt + 1000 then s
       else if f.back then
         (((s.updFtile tile (fun x => { x with back := false, spareUp := true })).setF tile FED.LANES.POWERED
           (setBit (s.fld tile FED.LANES.POWERED) l false)).ev tile FED.EVENTS.SPARE_FAIL).feedFault (tile * 5 + l) 3 0
       else
         (((s.updFtile tile (fun x => { x with spareFor := none })).setFs tile
           [(FED.LANES.POWERED, setBit (s.fld tile FED.LANES.POWERED) 4 false), (FED.LANES.SPARE_FOR, 7)]).ev tile FED.EVENTS.SPARE_FAIL).feedFault
           (tile * 5 + l) 3 0
     | none => s)

/-- BLOCK_LOCK: a receive pair gains block lock (R313). -/
def execBlockLock (tile lane : Nat) (s : State) : Host.Outcome State Fault Refusal :=
  onUnit tile lane 5 s (s.setF tile FED.LANES.LOCK (setBit (s.fld tile FED.LANES.LOCK) lane true))

/-! ### Commands (Table 11.17) -/

/-- The stream that a payload names first. -/
def streamArg (pl : List Byte) : Nat := natAt pl 0 2

/-- A stream number the variant has. -/
def State.isStream (s : State) (n : Nat) : Bool := decide (n < 32 * s.tiles)

/-- The configuration of a payload (Table 11.2). -/
def streamOf (pl : List Byte) : StreamCfg :=
  { num := natAt pl 0 2, bpn := natAt pl 2 1, stb := natAt pl 3 1 % 2, pos := natAt pl 4 2, fifo := natAt pl 6 2, src := natAt pl 8 8,
    key := natAt pl 0x10 4, pitch := natAt pl 0x14 4, lines := natAt pl 0x18 4, tmin := natAt pl 0x1C 4, skip := natAt pl 0x20 2,
    low := natAt pl 0x22 2, base := natAt pl 0x24 8 }

/-- The checks of R300. -/
def State.streamOk (s : State) (pl : List Byte) : Bool :=
  let c := streamOf pl
  pl.length == 48 && s.isStream c.num && decide (c.bpn < 3) && decide (natAt pl 3 1 < 2) && decide (1 ≤ c.pos) && decide (c.pos ≤ 8192) &&
  (c.fifo == 0 || (decide (16 ≤ c.fifo) && decide (c.fifo ≤ 512) && decide (c.fifo * c.lineBytes ≤ 2 ^ 21))) && c.src % 128 == 0 &&
  c.pitch % 128 == 0 && decide (c.lineBytes ≤ c.pitch) && decide (1 ≤ c.lines) && decide (1500 ≤ c.tmin) && decide (c.base < 2 ^ 48) &&
  natAt pl 0x2C 4 == 0 && s.ams.regions.any (fun r => decide (r.base ≤ c.src) && decide (c.srcEnd ≤ r.base + r.len * 2 ^ 21))

/-- A stream newly configured. -/
def FStream.ofCfg (c : StreamCfg) : FStream :=
  { cfg := c, st := 1, seq := 0, skip := 0, sent := 0, depth := 0, low := 0, staged := [], reserved := 0, flight := [], nextRead := 0,
    frame := none, panic := false, spare := false, bank := 0, switch := none, out := none, early := 0, cause := 0, recent := [],
    asked := none, startedAt := 0, reported := none }

/-- FEED_STREAM_SET: FREE or IDLE streams. -/
def cmdFeedStreamSet : Cmd := mirCmd 0x0601 [1] .region (fun s pl => s.streamOk pl)
  (fun _ pl s =>
    let c := streamOf pl
    match s.fstream c.num with
    | some x => if x.live then .done s .stateConflict else .done (s.updStream c.num (fun y => { y with cfg := c })) .ok
    | none => .done (s.updFeed (fun d => { d with streams := d.streams ++ [FStream.ofCfg c] })) .ok)

/-- A payload of one stream number. -/
def oneStream (s : State) (pl : List Byte) : Bool :=
  match parse339 [2] pl with
  | some [n] => s.isStream n
  | _ => false

/-- FEED_STREAM_CLEAR: IDLE to FREE. -/
def cmdFeedStreamClear : Cmd := mirCmd 0x0602 [1] .region oneStream
  (fun _ pl s => match s.fstream (streamArg pl) with
    | some x => if x.live then .done s .stateConflict
        else .done (s.updFeed (fun d => { d with streams := d.streams.filter (fun y => y.cfg.num != x.cfg.num) })) .ok
    | none => .done s .stateConflict)

/-- A refusal of admission, with its code (R329). -/
def refuseAdmit (s : State) (code : Nat) (st : Status) : CmdOut := ⟨s, st, build339 [(1, code), (1, 0)], id, none⟩

/-- FEED_START: admission, fill and arm; answered at ARMED. -/
def runFeedStart (_ : Caller) (pl : List Byte) (s : State) : CmdOut :=
  let n := streamArg pl
  match s.fstream n with
  | none => .done s .stateConflict
  | some x =>
    if x.live then .done s .stateConflict else
    let c := x.cfg
    if (c.low != 0 && c.low < s.lowDefault c) || (c.fifo != 0 && c.fifo < 2 * s.lowOf c) then .done s .badArg else
    match s.admitStream c with
    | some (k, st) => refuseAdmit (s.ev (feedTileOf n) FED.EVENTS.ADMIT_REFUSED) k st
    | none =>
      ⟨s.fillStream c, .ok, [], fun a =>
        if a.role == .active && a.flag 0 TWA.STATUS.IN_STEP then a.updStream n (fun y => { y with asked := some ((a.twl 0).txSeq - 1) })
        else a, some (feedKey n, 5)⟩

/-- FEED_START -/
def cmdFeedStart : Cmd := mirCmd 0x0603 [1] .region oneStream runFeedStart

/-- FEED_STOP: a FILLING, ARMED or RUNNING stream. -/
def cmdFeedStop : Cmd := mirCmd 0x0604 [1] .region oneStream
  (fun _ pl s => match s.fstream (streamArg pl) with
    | some x => if x.st = 2 || x.st = 3 || x.st = 4 then .done (s.haltStream x.cfg.num 1 .stateConflict) .ok else .done s .stateConflict
    | none => .done s .stateConflict)

/-- FEED_ADMIT_CHECK: admission, without reserving; a stream that runs is not counted beside itself. -/
def cmdFeedAdmitCheck : Cmd := readCmd 0x0605 .reading oneStream
  (fun _ pl s => match s.fstream (streamArg pl) with
    | some x => match (s.updStream (streamArg pl) (fun y => { y with st := 1, frame := none })).admitStream x.cfg with
        | some (k, st) => refuseAdmit s k st
        | none => .reply s (build339 [(1, 0), (1, 0)])
    | none => .done s .stateConflict)

/-- FEED_MAP_LOAD: entries into the inactive bank (R320). -/
def cmdFeedMapLoad : Cmd := mirCmd 0x0606 [1] .region
  (fun s pl =>
    let n := natAt pl 4 2
    let p := ((s.fstream (streamArg pl)).map (·.cfg.pos)).getD 8192
    s.isStream (streamArg pl) && decide (1 ≤ n) && decide (n ≤ 2044) && decide (natAt pl 2 2 + n ≤ 8192) && natAt pl 6 2 == 0 &&
    pl.length == alignUp (8 + 2 * n) 8 && leNat (pl.drop (8 + 2 * n)) == 0 &&
    (List.range n).all (fun i => decide (natAt pl (8 + 2 * i) 2 % 8192 < p)))
  (fun _ pl s => match s.fstream (streamArg pl) with
    | some x =>
      if x.switch.isSome then .done s .busy else
      let s1 := (List.range (natAt pl 4 2)).foldl (fun a i => a.setNzm x.cfg.num (1 - x.bank) (natAt pl 2 2 + i) (natAt pl (8 + 2 * i) 2)) s
      .done (s1.ev (feedTileOf x.cfg.num) NZM.EVENTS.LOADED) .ok
    | none => .done s .stateConflict)

/-- The highest sequence a stream has staged or sent is at or past S. -/
def FStream.past (x : FStream) (q : Nat) : Bool :=
  let top := (x.staged.map (fun l => l.idx + 1)).foldl max (x.cfg.lineOf x.seq)
  decide (x.cfg.lineOf q < top)

/-- FEED_MAP_SWITCH: STREAM, S (R320); S = 0 leaves the choice to the unit that sends AUTH, whose COMMAND record carries what it chose
(`State.mirroredReq`). -/
def runMapSwitch (_ : Caller) (pl : List Byte) (s : State) : CmdOut :=
  let f := fieldAt [2, 8] pl
  match s.fstream (f 0) with
  | none => .done s .stateConflict
  | some x =>
    let n := x.cfg.num
    let q := if f 1 = 0 then x.switchAt else f 1
    if x.switch.isSome then .done s .busy
    else if x.st = 1 then .done (s.switchBank n) .ok
    else if x.st = 5 || (f 1 != 0 && x.st = 4 && s.feedAuth && x.past q) then .done s .stateConflict
    else if x.st = 4 then .done ((s.updStream n (fun y => { y with switch := some q })).trySwitch n) .ok
    else ⟨(s.updStream n (fun y => ({ y with st := 2, switch := some q, staged := [], flight := [], reserved := 0, nextRead := 0 } : FStream).issue)).trySwitch n,
      .ok, [], id, some (feedKey n, 6)⟩

/-- FEED_MAP_SWITCH -/
def cmdFeedMapSwitch : Cmd := mirCmd 0x0607 [1] .region
  (fun s pl => match parse339 [2, 8] pl with
    | some [n, q] => s.isStream n && decide (q < 2 ^ 48)
    | _ => false) runMapSwitch

/-- The fields of FEED_LANE_CONFIG: SPARE_EN, SPARE_MAP, ERR_TH, IDX_POL, STB1_POL, STB0_POL, EN, WIN_US. -/
def laneCfgSizes : List Nat := [1, 1, 1, 1, 1, 1, 1, 2]

/-- Lanes 0 to 3 follow FED.CTRL.EN, beside a lane that the spare stands for. -/
def State.powerLanes (s : State) (t : Nat) : State :=
  let p := s.fld t FED.LANES.POWERED
  s.setF t FED.LANES.POWERED ((if s.flag t FED.CTRL.EN then 15 else 0) + p / 16 * 16)

/-- FEED_LANE_CONFIG: stored for every tile; not mirrored. -/
def cmdFeedLaneConfig : Cmd := actCmd 0x0608 [2] .config
  (fun _ pl => match parse339 laneCfgSizes pl with
    | some [se, sm, et, ip, s1, s0, en, w] => decide (se < 2) && decide (sm < 16) && et != 0 && decide (ip < 2) && decide (s1 < 2) &&
        decide (s0 < 2) && decide (en < 2) && decide (100 ≤ w) && decide (w ≤ 1900)
    | _ => false)
  (fun _ pl s =>
    let f := fieldAt laneCfgSizes pl
    let l := [(FED.CTRL.SPARE_EN, f 0), (FED.CTRL.SPARE_MAP, f 1), (FED.CTRL.ERR_TH, f 2), (FED.CTRL.IDX_POL, f 3), (FED.CTRL.STB1_POL, f 4),
      (FED.CTRL.STB0_POL, f 5), (FED.CTRL.EN, f 6), (FED.ALIGN.WIN_US, f 7)]
    .done ((l.foldl (fun a e => a.configAll e.1 e.2) s).allTiles (fun t a => a.powerLanes t)) .ok)

/-- A payload of a tile and one of its lanes 0 to 3. -/
def oneLane (s : State) (pl : List Byte) : Bool :=
  match parse339 [1, 1] pl with
  | some [t, l] => decide (t < s.tiles) && decide (l < 4)
  | _ => false

/-- FEED_LANE_SPARE: the named lane is spared as though it were failing. -/
def cmdFeedLaneSpare : Cmd := actCmd 0x0609 [2] .config oneLane
  (fun _ pl s =>
    let f := fieldAt [1, 1] pl
    if s.spareLaneFree (f 0) (f 1) then .done (s.spareLane (f 0) (f 1)) .ok else .done s .noResource)

/-- FEED_LANE_RESTORE: the spared lane is powered, and its streams go back once it gives a status frame. -/
def cmdFeedLaneRestore : Cmd := actCmd 0x060A [2] .config oneLane
  (fun _ pl s =>
    let f := fieldAt [1, 1] pl
    let x := s.ftile (f 0)
    if x.spareFor != some (f 1) || !x.spareUp then .done s .stateConflict else
    .done ((s.updFtile (f 0) (fun y => { y with back := true, spareUp := false, spareAt := s.now })).setF (f 0) FED.LANES.POWERED
      (setBit (s.fld (f 0) FED.LANES.POWERED) (f 1) true)) .ok)

/-- The stream registers of Table 11.13 for a stream: state word, sequence, FIFO word, lines sent. -/
def State.streamWords (s : State) (n : Nat) : List Nat :=
  match s.fstream n with
  | none => [0, 0, 0, 0, 0]
  | some x =>
    [x.st * 2 ^ 28 + b2n x.panic * 2 ^ 27 + b2n (s.feedAuth && x.live) * 2 ^ 26 + b2n x.spare * 2 ^ 25 + x.bank * 2 ^ 24 +
      b2n x.switch.isSome * 2 ^ 23 + x.staged.length, x.seq % 2 ^ 32, x.seq / 2 ^ 32, x.low * 2 ^ 16 + x.depth, x.sent]

/-- FEED_STATUS: TILE; its streams as Table 11.13 has them, then its lanes with their last status frames. -/
def cmdFeedStatus : Cmd := readCmd 0x0600 .reading
  (fun s pl => match parse339 [1] pl with
    | some [t] => decide (t < s.tiles)
    | _ => false)
  (fun _ pl s =>
    let t := fieldAt [1] pl 0
    let str := (List.range 32).map (fun i => (s.streamWords (t * 32 + i)).flatMap (leBytes 4))
    let lane := (List.range 5).map (fun l => (amapFind l (s.ftile t).status).getD (List.replicate 64 0))
    .reply s (pad8 (leBytes 4 (s.word t FED.LANES.LOCK.blk FED.LANES.LOCK.off).toNat ++ leBytes 4 0 ++ str.flatMap (fun w => w ++ leBytes 4 0) ++
      lane.flatMap id)))

/-- FEED_STATUS -/
def execFeedStatus (f : Frame) (s : State) : Host.Outcome State Fault Refusal := .next (mailbox cmdFeedStatus f s)

/-- FEED_STREAM_SET -/
def execFeedStreamSet (f : Frame) (s : State) : Host.Outcome State Fault Refusal := .next (mailbox cmdFeedStreamSet f s)

/-- FEED_STREAM_CLEAR -/
def execFeedStreamClear (f : Frame) (s : State) : Host.Outcome State Fault Refusal := .next (mailbox cmdFeedStreamClear f s)

/-- FEED_START -/
def execFeedStart (f : Frame) (s : State) : Host.Outcome State Fault Refusal := .next (mailbox cmdFeedStart f s)

/-- FEED_STOP -/
def execFeedStop (f : Frame) (s : State) : Host.Outcome State Fault Refusal := .next (mailbox cmdFeedStop f s)

/-- FEED_ADMIT_CHECK -/
def execFeedAdmitCheck (f : Frame) (s : State) : Host.Outcome State Fault Refusal := .next (mailbox cmdFeedAdmitCheck f s)

/-- FEED_MAP_LOAD -/
def execFeedMapLoad (f : Frame) (s : State) : Host.Outcome State Fault Refusal := .next (mailbox cmdFeedMapLoad f s)

/-- FEED_MAP_SWITCH -/
def execFeedMapSwitch (f : Frame) (s : State) : Host.Outcome State Fault Refusal := .next (mailbox cmdFeedMapSwitch f s)

/-- FEED_LANE_CONFIG -/
def execFeedLaneConfig (f : Frame) (s : State) : Host.Outcome State Fault Refusal := .next (mailbox cmdFeedLaneConfig f s)

/-- FEED_LANE_SPARE -/
def execFeedLaneSpare (f : Frame) (s : State) : Host.Outcome State Fault Refusal := .next (mailbox cmdFeedLaneSpare f s)

/-- FEED_LANE_RESTORE -/
def execFeedLaneRestore (f : Frame) (s : State) : Host.Outcome State Fault Refusal := .next (mailbox cmdFeedLaneRestore f s)

end Sys2Proof.Machine
end

