-- ==== Sys2Proof/Machine/Recorder.lean ====
section
/-! DEFINITION. The Moraine event recorder and time: arrivals, the open record, commits to the ring, and the event and time
commands (chapter 17). -/

namespace Sys2Proof.Machine

/-- EVENT_ARRIVAL: the oldest event queued on a tile reaches tile 0 (R438). -/
def State.eventArrival (s : State) (t : Nat) : State :=
  match s.recd.tileQ.find? (fun e => e.1 == t) with
  | some e => ({ s with recd := { s.recd with tileQ := s.recd.tileQ.erase e } }.arrive e.2).reportLost
  | none => s

/-- EVENT_ARRIVAL -/
def execEventArrival (tile : Nat) (s : State) : Host.Outcome State Fault Refusal := onTile tile s (s.eventArrival tile)

/-- OPEN_WINDOW_END: the window has passed since the open record's first event (R442). -/
def execOpenWindowEnd (s : State) : Host.Outcome State Fault Refusal :=
  .next (if s.recd.openRec.any (fun o => decide (o.ptime + s.fld 0 EVR.CTRL.WINDOW_MS * 1000 ≤ s.ptime)) then s.commitOpen else s)

/-- Whether the ring has been scanned since BOOT was entered; until then no record is committed (R437, R440). -/
def State.ringScanned (s : State) : Bool := !([.off, .aonOnly, .s3, .boot] : List DState).contains s.dstate

/-- RECORD_COMMIT -/
def execRecordCommit (s : State) : Host.Outcome State Fault Refusal :=
  .next (if s.ringScanned then s.commitHead.reportLost else s)

/-- EVENT_READ (R444): S, COUNT, OPEN. -/
def cmdEventRead : Cmd := readCmd 0x0700 .reading
  (fun _ pl => match parse339 [4, 2, 1] pl with
    | some [_, n, o] => decide (1 ≤ n) && decide (n ≤ 126) && decide (o ≤ 1)
    | _ => false)
  (fun _ pl s =>
    let f := fieldAt [4, 2, 1] pl
    let s1 := if f 2 = 1 then s.flushRing else s
    let w := s1.fld 0 EVR.WSEQ.SEQ
    .reply s1 (build339 [(4, w), (4, w), (4, s1.openSeq), (4, 0)] ++
      (List.range (f 1)).flatMap (fun i => s1.bytes .nvs 0 (ringAddr (f 0 + i)) 32)))

/-- EVENT_STATUS; the lost count is that of every tile. -/
def cmdEventStatus : Cmd := readCmd 0x0701 .reading noArgs
  (fun _ _ s => .reply s (build339 [(4, s.fld 0 EVR.WSEQ.SEQ), (4, s.openSeq), (2, s.recd.queue.length),
    (4, min (2 ^ 32 - 1) ((List.range s.tiles).map (fun t => s.fld t EVR.LOST.COUNT)).sum), (2, s.fld 0 EVR.CTRL.WINDOW_MS), (1, s.fld 0 EVR.CTRL.NOTIFY_SEV)]))

/-- EVENT_CONFIG: WINDOW_MS, NOTIFY_SEV. -/
def cmdEventConfig : Cmd := actCmd 0x0702 [1] .firmware
  (fun _ pl => match parse339 [2, 1] pl with
    | some [w, v] => decide (1 ≤ w) && decide (w ≤ 60000) && decide (1 ≤ v) && decide (v ≤ 5)
    | _ => false)
  (fun _ pl s => .done ((s.config 0 EVR.CTRL.WINDOW_MS (fieldAt [2, 1] pl 0)).config 0 EVR.CTRL.NOTIFY_SEV
    (fieldAt [2, 1] pl 1)) .ok)

/-- TIME_SET (R434, R449). -/
def cmdTimeSet : Cmd := actCmd 0x0710 [1, 2] .firmware
  (fun _ pl => match parse339 [8] pl with
    | some [b] => decide (1577836800000 ≤ b) && decide (b < 2 ^ 48)
    | _ => false)
  (fun _ pl s => .done { s with recd := { s.recd with base := some (fieldAt [8] pl 0, s.ptime) } } .ok)

/-- TIME_GET -/
def cmdTimeGet : Cmd := readCmd 0x0711 .reading noArgs
  (fun _ _ s => .reply s (build339 [(8, s.ptime), (8, s.ctime), (1, b2n s.recd.base.isSome * 128 + b2n s.recd.coarse * 64)]))

/-- EVENT_READ -/
def execEventRead (f : Frame) (s : State) : Host.Outcome State Fault Refusal := .next (mailbox cmdEventRead f s)

/-- EVENT_STATUS -/
def execEventStatus (f : Frame) (s : State) : Host.Outcome State Fault Refusal := .next (mailbox cmdEventStatus f s)

/-- EVENT_CONFIG -/
def execEventConfig (f : Frame) (s : State) : Host.Outcome State Fault Refusal := .next (mailbox cmdEventConfig f s)

/-- TIME_SET -/
def execTimeSet (f : Frame) (s : State) : Host.Outcome State Fault Refusal := .next (mailbox cmdTimeSet f s)

/-- TIME_GET -/
def execTimeGet (f : Frame) (s : State) : Host.Outcome State Fault Refusal := .next (mailbox cmdTimeGet f s)

end Sys2Proof.Machine
end

