-- ==== Sys2Proof/Machine/TwoWireBus.lean ====
section
/-! DEFINITION. The two-wire management bus: packets in and out, MCTP assembly, Host Notify, errors and recovery
(chapter 18, R331). -/

namespace Sys2Proof.Machine

/-- MB0 holds one request in execution and one waiting (R338). -/
def State.mb0Full (s : State) : Bool := decide (2 ≤ (s.mb.input.filter (fun x => x.point == 0)).length + b2n (s.pointWaits 0))

/-- A request message whose assembly is complete: a vendor frame goes to MB0 (BUSY beyond one in execution and one
waiting, R338), a control message to its own queue; any other is dropped. -/
def State.mctpMessage (s : State) (body : List Byte) : State :=
  match body with
  | ty :: rest =>
    if ty = 0x7f#8 then
      let fr := rest.drop 4
      if beNat (rest.take 4) != s.enterprise then s
      else if fr.length < 64 || fr.length != 64 + natAt fr 0x0c 2 then s.bump 0 MGT.DROPPED.COUNT 1
      else
        let f : Frame := ⟨0, natAt fr 0 2, natAt fr 2 1, natAt fr 3 1, natAt fr 4 4, natAt fr 8 4, natAt fr 0x0e 2,
          natAt fr 0x10 4, natAt fr 0x14 1, natAt fr 0x15 1, natAt fr 0x16 26, blockOf (fr.drop 0x30), fr.drop 64⟩
        if s.mb0Full then
          (s.ev 0 MGT.EVENTS.MB0_BUSY).respond 0 (frameBytes (respFrame s f (s.namedSession f) false .busy []))
        else if allOpcodes.contains f.opcode then { s with mb := { s.mb with input := s.mb.input ++ [f] } }
        else mailboxUnknown f s
    else if ty = 0#8 then { s with twb := { s.twb with ctl := s.twb.ctl ++ [rest] } }
    else s
  | [] => s

/-- A packet that the bus has accepted enters MCTP assembly (R331): a packet that breaks the sequence discards the message
in assembly. -/
def State.mctpPacket (s : State) (pkt : List Byte) : State :=
  let fl := natAt pkt 4 1
  let som := fl.testBit 7
  let eom := fl.testBit 6
  let seq := fl / 16 % 4
  let data := pkt.drop 5
  let s0 := { s with twb := { s.twb with hostEid := natAt pkt 3 1 } }
  let ended := fun (a : State) (m : List Byte) =>
    if eom then ({ a with twb := { a.twb with asm := none } }).mctpMessage m
    else { a with twb := { a.twb with asm := some ((seq + 1) % 4, m) } }
  match s0.twb.asm, som with
  | none, true => ended s0 data
  | some _, true => ended (s0.ev 0 TWB.EVENTS.SEQ_BREAK) data
  | some (n, m), false =>
    if n = seq then ended s0 (m ++ data)
    else { s0 with twb := { s0.twb with asm := none } }.ev 0 TWB.EVENTS.SEQ_BREAK
  | none, false => s0.ev 0 TWB.EVENTS.SEQ_BREAK

/-- A packet discarded under R452. -/
def State.pecFail (s : State) : State := (s.ev 0 TWB.EVENTS.PEC_FAIL).bump 0 TWB.PEC_ERR.COUNT 1

/-- Whether the bytes of a Block Write, byte count first and PEC last, pass R451 and R452. -/
def State.blockOk (s : State) (bytes : List Byte) : Bool :=
  let n := natAt bytes 0 1
  decide (6 ≤ n) && decide (n ≤ 69) && bytes.length == n + 2 &&
  crc8 ([BitVec.ofNat 8 (s.twbAddr * 2), 0x0f#8] ++ bytes.take (n + 1)) == natAt bytes (n + 1) 1

/-- Awake: the target answers from the two-wire clock domain (R454): every powered state but S2. -/
def State.twbAwake (s : State) : Bool :=
  match s.dstate with
  | .off | .aonOnly | .s2 | .s3 => false
  | _ => true

/-- The bus class of a clock rate in kHz, rounded down to 100, 400 or 1,000 (R500). -/
def busClassOf (kHz : Nat) : Nat := if 1000 ≤ kHz then 1000 else if 400 ≤ kHz then 400 else 100

/-- A transaction addresses the target on a bus clocked at a rate (R500). -/
def State.addressedAt (s : State) (kHz : Nat) : State := { s with twb := { s.twb with busClass := busClassOf kHz } }

/-- A Block Write that the target takes (R452). -/
def State.blockWrite (s : State) (bytes : List Byte) : State :=
  if s.blockOk bytes then
    let pkt := (bytes.drop 1).take (natAt bytes 0 1)
    (s.bump 0 TWB.RX_PKTS.COUNT 1).mctpPacket pkt
  else s.pecFail

/-- The bytes of a Block Read: byte count, packet, PEC over the whole transaction (R451). -/
def State.readReply (s : State) (pkt : List Byte) : List Byte :=
  let a := BitVec.ofNat 8 (s.twbAddr * 2)
  let body := BitVec.ofNat 8 pkt.length :: pkt
  body ++ [BitVec.ofNat 8 (crc8 ([a, 0x0f#8, a ||| 1#8] ++ body))]

/-- A Block Read (R453): the packet at the head leaves only when the read completes. -/
def State.blockRead (s : State) (done : Bool) : State :=
  match s.twb.outPkts with
  | [] => s.send (.twoWire (s.readReply []))
  | p :: q =>
    let s1 := s.send (.twoWire (s.readReply p))
    if done then { s1 with twb := { s1.twb with outPkts := q } }.bump 0 TWB.TX_PKTS.COUNT 1 else s1

/-- The status byte (Table 18.2). -/
def State.statusByte (s : State) : Nat :=
  b2n (!s.twb.outPkts.isEmpty) + 2 * b2n (!s.mb.ntf0.isEmpty) + 4 * b2n s.twb.asm.isSome +
  8 * b2n s.mb0Full + 16 * b2n s.twb.held.isSome

/-- The bytes of a Read Byte with its PEC (R451). -/
def State.byteReply (s : State) : List Byte :=
  let a := BitVec.ofNat 8 (s.twbAddr * 2)
  let b := BitVec.ofNat 8 s.statusByte
  [b, BitVec.ofNat 8 (crc8 [a, 0x0e#8, a ||| 1#8, b])]

/-- The transaction that the awake target completes (Table 18.1); another command byte is NACKed and the rest ignored (R450). -/
def State.awakeXfer (s : State) (x : SmbusXfer) : State :=
  match x with
  | .blockWrite cmd bytes => if cmd = 0x0f then s.blockWrite bytes else s
  | .blockRead done => s.blockRead done
  | .readByte => s.send (.twoWire s.byteReply)

/-- An address match is a wake source in S1, and during a sleep entry, which it ends (Table 14.4, R390, R454). -/
def State.matchWake (s : State) : State :=
  if s.dstate == .s1 then (s.ev 0 TWB.EVENTS.WAKE_MATCH).wakeUp 2
  else if s.dstate == .service && s.pow.target != 0 then s.wakeUp 2
  else s

/-- A transaction at the awake target: NACKed from Freeze until BOOT (R460) and while a packet is held (R454). -/
def State.xfer (s : State) (x : SmbusXfer) (kHz : Nat) : State :=
  if !s.twbAwake then s
  else if s.twb.nackUntilBoot || s.twb.held.isSome then s.addressedAt kHz
  else (s.addressedAt kHz).matchWake.awakeXfer x

/-- BLOCK_WRITE: `kHz` is the rate of the bus clock. -/
def execBlockWrite (cmd : Nat) (bytes : List Byte) (kHz : Nat) (s : State) : Host.Outcome State Fault Refusal :=
  .next (s.xfer (.blockWrite cmd bytes) kHz)

/-- BLOCK_READ -/
def execBlockRead (done : Bool) (kHz : Nat) (s : State) : Host.Outcome State Fault Refusal := .next (s.xfer (.blockRead done) kHz)

/-- READ_BYTE -/
def execReadByte (kHz : Nat) (s : State) : Host.Outcome State Fault Refusal := .next (s.xfer .readByte kHz)

/-- A held packet passes to MB0 (R454). -/
def State.serveHeld (s : State) : State :=
  match s.twb.held with
  | some p => { s with twb := { s.twb with held := none } }.mctpPacket p
  | none => s

/-- The transaction that the always-on receive logic completes while the target sleeps (R454). -/
def State.sleepXfer (s : State) (x : SmbusXfer) : State :=
  match x with
  | .blockWrite cmd bytes =>
    if cmd != 0x0f then s
    else if s.blockOk bytes then
      { s with twb := { s.twb with held := some ((bytes.drop 1).take (natAt bytes 0 1)) } }.bump 0 TWB.RX_PKTS.COUNT 1
    else s.pecFail
  | .blockRead _ => s.send (.twoWire (s.readReply []))
  | .readByte => s.send (.twoWire s.byteReply)

/-- ADDRESS_MATCH_SLEEP (R454): S1 answers as awake; in S2 and S3 the match wakes the device; in AON_ONLY a packet is held until BOOT; a
further match is NACKed while a packet is held, and after Freeze until BOOT (R460). -/
def execAddressMatchSleep (x : SmbusXfer) (kHz : Nat) (s : State) : Host.Outcome State Fault Refusal :=
  .next (let a := s.addressedAt kHz
    if s.dstate == .s1 then s.xfer x kHz
    else if s.dstate != .s2 && s.dstate != .s3 && s.dstate != .aonOnly then s
    else if s.twb.held.isSome || s.twb.nackUntilBoot then a
    else if s.dstate == .s2 then (((a.sleepXfer x).ev 0 TWB.EVENTS.WAKE_MATCH).wakeUp 2).serveHeld
    else if s.dstate == .s3 then ((a.sleepXfer x).wakeUp 2).ev 0 TWB.EVENTS.WAKE_MATCH
    else a.sleepXfer x)

/-- Whether a Host Notify may be sent: something waits, it is enabled, the device is awake and not in Freeze. -/
def State.mayNotify (s : State) : Bool :=
  (!s.twb.outPkts.isEmpty || !s.mb.ntf0.isEmpty) && s.flag 0 TWB.CFG.NOTIFY_EN && s.twbAwake && s.dstate != .s1 &&
  !s.twb.nackUntilBoot

/-- A Host Notify goes out on the wires and ends as the host and the other controllers decide (R456, R457). After 8 losses
in a row the message is abandoned. -/
def State.hostNotify (s : State) (e : NotifyEnd) : State :=
  if !s.mayNotify then s else
  let hi := b2n (!s.twb.outPkts.isEmpty) + 2 * b2n (!s.mb.ntf0.isEmpty)
  match e with
  | .sent => ({ s with twb := { s.twb with losses := 0, due := false } }.bump 0 TWB.NOTIFY_TX.COUNT 1).send
      (.hostNotify (s.twbAddr * 2) (min 255 s.twb.outPkts.length) hi s.twb.busClass)
  | .nacked => { s with twb := { s.twb with losses := 0, due := false } }.ev 0 TWB.EVENTS.NOTIFY_NACK
  | .arbLost =>
    let n := s.twb.losses + 1
    ({ s with twb := { s.twb with losses := if n = 8 then 0 else n, due := n != 8 } }.ev 0 TWB.EVENTS.ARB_LOST).bump 0
      TWB.ARB_LOST.COUNT 1

/-- HOST_NOTIFY -/
def execHostNotify (e : NotifyEnd) (s : State) : Host.Outcome State Fault Refusal :=
  .next (if s.twb.due && s.twb.losses == 0 then s.hostNotify e else s)

/-- HOST_NOTIFY_REPEAT: NOTIFY_MS after the last while RSP or NTF remains; it merges with a copy that still waits and
starts again from the first loss. -/
def execHostNotifyRepeat (e : NotifyEnd) (s : State) : Host.Outcome State Fault Refusal :=
  .next (if s.twb.losses = 0 then s.hostNotify e else s)

/-- ARB_BACKOFF_EXPIRY: the whole message is sent again (R457). -/
def execArbBackoffExpiry (e : NotifyEnd) (s : State) : Host.Outcome State Fault Refusal :=
  .next (if s.twb.losses = 0 then s else s.hostNotify e)

/-- BUS_ERROR: the transaction is discarded (Table 18.3). -/
def execBusError (s : State) : Host.Outcome State Fault Refusal :=
  .next (if s.dstate == .off then s else (s.ev 0 TWB.EVENTS.BUS_ERROR).bump 0 TWB.BUS_ERR.COUNT 1)

/-- SCL_TIMEOUT: the target is reset and the transaction discarded (Table 18.3). -/
def execSclTimeout (s : State) : Host.Outcome State Fault Refusal :=
  .next (if s.dstate == .off then s else s.ev 0 TWB.EVENTS.TIMEOUT)

/-- BUS_RECOVERY (R459): before a Host Notify, at most nine pulses at 100 kHz, then a STOP, or BUS_STUCK with its event. -/
def execBusRecovery (pulses : Nat) (s0 : State) : Host.Outcome State Fault Refusal :=
  .next (if !s0.mayNotify then s0 else
    let s := s0.send (.busClocks 100)
    if pulses ≤ 9 then { s with twb := { s.twb with stuckReps := 0 } }.ev 0 TWB.EVENTS.RECOVERED
    else
      let s1 := { s with twb := { s.twb with stuckReps := s.twb.stuckReps + 1 } }
      s1.evRec 0 TWB.EVENTS.BUS_STUCK 0)

/-- TWB_STATUS: TWB.CFG, TWB.STATUS and the counters. -/
def cmdTwbStatus : Cmd := readCmd 0x0040 .reading noArgs
  (fun _ _ s => .reply s (build339 [(4, (s.word 0 0x3D 0).toNat),
    (4, (min 255 s.twb.outPkts.length) * 2 ^ 24 + s.statusByte * 2 ^ 16 + s.fld 0 TWB.STATUS.CONTROLLER * 256 + s.twbAddr),
    (4, s.fld 0 TWB.RX_PKTS.COUNT), (4, s.fld 0 TWB.TX_PKTS.COUNT), (4, s.fld 0 TWB.BUS_ERR.COUNT),
    (4, s.fld 0 TWB.PEC_ERR.COUNT), (4, s.fld 0 TWB.ARB_LOST.COUNT), (4, s.fld 0 TWB.NOTIFY_TX.COUNT)]))

/-- The Host Notify addresses that Table 18.6 takes. -/
def hostAddrOk (s : State) (a : Nat) : Bool := decide (8 ≤ a) && decide (a ≤ 0x77) && a != s.twbAddr

/-- TWB_CONFIG: NOTIFY_EN, NOTIFY_MS, HOST_ADDR (R462). -/
def cmdTwbConfig : Cmd := actCmd 0x0041 [2] .config
  (fun s pl => match parse339 [1, 1, 1] pl with
    | some [e, m, a] => decide (e ≤ 1) && decide (1 ≤ m) && hostAddrOk s a
    | _ => false)
  (fun _ pl s =>
    let f := fieldAt [1, 1, 1] pl
    .done (((s.config 0 TWB.CFG.NOTIFY_EN (f 0)).config 0 TWB.CFG.NOTIFY_MS (f 1)).config 0 TWB.CFG.HOST_ADDR (f 2)) .ok)

/-- TWB_STATUS -/
def execTwbStatus (f : Frame) (s : State) : Host.Outcome State Fault Refusal := .next (mailbox cmdTwbStatus f s)

/-- TWB_CONFIG -/
def execTwbConfig (f : Frame) (s : State) : Host.Outcome State Fault Refusal := .next (mailbox cmdTwbConfig f s)

end Sys2Proof.Machine
end

