-- ==== Sys2Proof/Machine/Startup.lean ====
section
/-! DEFINITION. Start-up: the boot ROM's steps, self-test slices, the bank measurement and the release to service (chapter
13). -/

namespace Sys2Proof.Machine

/-! ### Boot -/

/-- The board power that Freeze is planned with where none is configured, W (Table 7.3). -/
def State.powerDefault (s : State) : Nat := if s.tiles = 2 then 170 else if s.tiles = 4 then 320 else 600

/-- Loads the "L" fields of the register tables on every tile: the configuration's value, else the default (R9, Table 7.3). -/
def State.loadConfig (s : State) : State :=
  s.allTiles (fun t a => ((FRZ.POWER.P_W, s.powerDefault) :: loadDefaults).foldl (fun b e =>
    let ins := if e.1.blk = 0x08 then [0, 1, 2] else if e.1.blk = 0x20 then [0, 1] else [0]
    ins.foldl (fun c n => c.setF t (e.1.inst n) ((c.cfg (cfgKey t (e.1.inst n))).getD e.2)) b) a)

/-- The slots of the ring that hold any programmed byte (R437). -/
def State.ringSlots (s : State) : List Nat :=
  ((s.mem.filter (fun e => decide (memKey .nvs 0 0x200000 ≤ e.1) && decide (e.1 < memKey .nvs 0 0x600000))).map
    (fun e => (e.1 - memKey .nvs 0 0x200000) / 32)).dedup

/-- The SEQ of a ring slot; all ones where it reads erased (R441). -/
def State.slotSeq (s : State) (n : Nat) : Nat := leNat (s.bytes .nvs 0 (0x200000 + 32 * n) 4)

/-- The SEQs of the whole records in the ring: a slot whose SEQ word is uncorrectable counts as missing (R441). -/
def State.ringSeqs (s : State) : List Nat :=
  ((s.ringSlots.filter (fun n => s.slotSeq n % 131072 == n && !(s.array 0).badWords.contains ((0x200000 + 32 * n) / 8))).map s.slotSeq).filter
    (fun q => q != 2 ^ 32 - 1)

/-- The later of two SEQs, modulo 2^32 (R437). -/
def laterSeq (a b : Nat) : Nat := if (a + 2 ^ 32 - b) % 2 ^ 32 < 2 ^ 31 then a else b

/-- The BOOT scan of the ring: EVR.WSEQ, and SCAN_GAP where a record is missing below the highest (R437). -/
def State.scanRing (s : State) : State :=
  match s.ringSeqs with
  | [] => s
  | q :: qs =>
    let h := qs.foldl laterSeq q
    let s1 := s.setF 0 EVR.WSEQ.SEQ h
    if (q :: qs).any (fun x => x != h && !(q :: qs).contains ((x + 1) % 2 ^ 32)) then s1.ev 0 EVR.EVENTS.SCAN_GAP else s1

/-- The two records that open a span (R440), ahead of everything queued. -/
def State.openSpan (s : State) : State :=
  let gap := { s.stamp 0 0x3C 0x0100 2 (s.fld 0 EVR.WSEQ.SEQ + s.fld 0 FRZ.STATUS.LAST * 2 ^ 32) with solo := true }
  let start := { s.stamp 0 0x3E 0x0100 2 (s.fld 0 BST.RST_CAUSE.CAUSE + s.fld 0 BST.BOOT.SLOT * 16 +
    s.fld 0 BST.BOOT.TRIAL * 32) with solo := true }
  { s with recd := { s.recd with queue := gap :: start :: s.recd.queue } }

/-- The OTP read of boot step 3 (R427): which granules come from the copy, and CRC_FAIL where one copy fails. -/
def State.readOtp (s : State) : State :=
  (List.range 63).foldl (fun a g =>
    let p := granuleOk (a.otpBytes 0 (g * 64) 64)
    let c := granuleOk (a.otpBytes 1 (g * 64) 64)
    if p || !c then a
    else
      let b := if g < 32 then a.setF 0 OTP.STATUS_LO.FROM_COPY (setBit (a.fld 0 OTP.STATUS_LO.FROM_COPY) g true)
        else a.setF 0 OTP.STATUS_HI.FROM_COPY (setBit (a.fld 0 OTP.STATUS_HI.FROM_COPY) (g - 32) true)
      b.evRec 0 OTP.EVENTS.CRC_FAIL g) s

/-- Completes an interrupted OTP program: a granule valid in one copy and unprogrammed in the other (R430). -/
def State.completeOtp (s : State) : State :=
  (List.range 51).foldl (fun a i =>
    let g := i + 12
    let p := a.otpBytes 0 (g * 64) 64
    let c := a.otpBytes 1 (g * 64) 64
    let lock := leBytes 8 (2 ^ g)
    let fin := fun (x : State) => ((x.fuseBytes 0 0xFF8 lock).fuseBytes 1 0xFF8 lock).ev 0 OTP.EVENTS.COMPLETED
    if granuleOk p && leNat c == 0 then fin (a.fuseBytes 1 (g * 64) p)
    else if granuleOk c && leNat p == 0 then fin (a.fuseBytes 0 (g * 64) c)
    else a) s

/-- The identity, key-hash and seed granules each check in one copy (R427). -/
def State.otpRootsOk (s : State) : Bool :=
  [0, 1, 2, 3].all (fun g => granuleOk (s.otpBytes 0 (g * 64) 64) || granuleOk (s.otpBytes 1 (g * 64) 64))

/-- R364 step 1 and the lost selector: the selector to boot with, and the state that has recorded what it met. -/
def State.trialStep (s : State) : Selector × State :=
  match s.selector with
  | none =>
    let x := s.selectorOr
    (x, s.named 0 0x3E 0x0103 4 0)
  | some x =>
    if x.trial then
      let y := { x with attempts := x.attempts + 1 }
      if 2 < y.attempts then
        let z := { y with trial := false, active := 1 - x.active % 2 }
        (z, ((s.writeSelector z).ev 0 BST.EVENTS.TRIAL_FAILED).named 0 0x3E 0x0101 4 x.active)
      else (y, s.writeSelector y)
    else (x, s)

/-- Slot choice (R364): the slot to boot and whether it is the fallback, or none. -/
def State.slotChoice (s : State) (x : Selector) : Option (Nat × Bool) :=
  if !s.otpRootsOk then none
  else if s.bootable x.active then some (x.active, false)
  else if s.bootable (1 - x.active % 2) then some (1 - x.active % 2, true)
  else none

/-- Boot step 1 (R361, R378, R379, R381): rails in regulation at their set points, stages on but those shed, references on
request, the hold-up converter enabled. -/
def State.railsUp (s : State) : State :=
  let s1 := s.setFs 0 [(PWC.STATUS.PG, 15), (PWC.STATUS.CLK_REQ, 1), (PWC.STATUS.HU_EN, 1),
    (PWC.PHASES.ON, s.stagesOn)]
  s1.allTiles (fun t a => a.setFs t [(PWC.RAIL_V.SET_MV, 750), (PWC.RAIL_V.SET_MV.up 4, 800),
    (PWC.RAIL_V.SET_MV.up 8, 900), (PWC.RAIL_V.SET_MV.up 12, 1100)])

/-- The transport limits that RMA_CONFIG stored come into force (R216, R234). -/
def State.loadRma (s : State) (t : Nat) : State :=
  (match s.cfg (cfgItem t 5) with
   | some mb => s.setCfg (cfgItem t 1) mb
   | none => s).setF t RMA.QP_LIMIT.LIMIT ((s.cfg (cfgKey t RMA.QP_LIMIT.LIMIT)).getD (1048576 / s.tiles))

/-- The board record (R479), at offset 0 of the FACT area of tile 0: DDR_CLASS and NF_RATE; absent or wrong, class 0 and 16. -/
def State.boardRecord (s : State) : Nat × Nat :=
  let r := s.bytes .nvs 0 factBase 12
  let c := natAt r 3 1
  let n := natAt r 4 1
  if natAt r 0 2 == 0x4442 && natAt r 2 1 == 1 && decide (c ≤ 1) && [8, 12, 16, 24].contains n && natAt r 5 3 == 0 &&
      natAt r 8 4 == crc32 (r.take 8) && !s.badRange 0 factBase 12 then (c, n) else (0, 16)

/-- What the firmware loads from the store once it runs: board record, configuration, counters with their reservations (R418), freeze
history, epoch, straps. -/
def State.loadStore (s : State) : State :=
  let keep := fun (e : Nat × Nat) => (e.1, min lastFresh (e.2 - 1))
  let s1 := { s.loadConfig with nv := { s.loadConfig.nv with
    serialNext := s.nv.serialResv
    txKn := s.nv.txResv
    errId := if s.deep.formatted then [] else s.nv.errResv.map keep
    errResv := if s.deep.formatted then [] else s.nv.errResv } }.updDeep (fun d => { d with formatted := false })
  let s1 := { s1 with pow := { s1.pow with ddrClass := s.boardRecord.1, nfRate := s.boardRecord.2 } }
  let s2 := s1.setFs 0 [(RLE.SERIAL.NEXT, s.nv.serialResv), (TWA.EPOCH_LO.EPOCH, s.nv.epoch),
    (TWA.EPOCH_HI.EPOCH, s.nv.epoch / 2 ^ 32), (TWA.STATUS.PREF, b2n s.pow.twPref), (MGT.CORES.IN_SERVICE, 7),
    (TWB.STATUS.ADDR, s.twbAddr)]
  s2.allTiles (fun t a => (a.loadRma t).setFs t [(FRZ.SEQ.COUNT, s.nv.frzSeq),
    (FRZ.STATUS.LAST, (s.nv.reports.head?.map (·.outcome)).getD 0),
    (FRZ.LAST.DUR_MS, (s.nv.reports.head?.map (fun r => r.dur.getD t 0)).getD 0),
    (FRZ.LAST.DIRTY_MB, (s.nv.reports.head?.map (fun r => r.dirty.getD t 0)).getD 0),
    (FRZ.EVENTS.TEST, (s.nv.reports.head?.map (fun r => bitsOf r.flags 2 1)).getD 0),
    (FRZ.EVENTS.MAINS_RETURN, (s.nv.reports.head?.map (fun r => bitsOf r.flags 0 1)).getD 0),
    (FRZ.EVENTS.COLLAPSE, (s.nv.reports.head?.map (fun r => b2n (r.outcome == 2))).getD 0),
    (NVS.STATUS.SPARE_FREE, 64 - ((s.array t).map.map (fun e => e.2 + 1)).foldl max 0)]
    |>.powerLanes t)

/-- No slot boots: the device enters FAULT with cause bit 15 and the boot ROM serves MB0 (R364, R365). -/
def State.bootNone (s : State) (x : Selector) : State :=
  let s1 := { s with boot := { s.boot with romService := true } }.setFs 0 [(BST.RST_CAUSE.CAUSE, s.boot.cause), (BST.BOOT.ATTEMPTS, x.attempts)]
  (s1.scanRing.openSpan).enterFault 15

/-- What BOOT shows of the slot it starts, with the causes of a fallback and of an unlisted pairing. -/
def State.bootShow (s : State) (x : Selector) (slot : Nat) (fb : Bool) : State :=
  let s1 := s.loadStore.setFs 0 [(BST.RST_CAUSE.CAUSE, s.boot.cause), (BST.BOOT.ATTEMPTS, x.attempts), (BST.BOOT.TRIAL, b2n (x.trial && !fb)),
    (BST.BOOT.FALLBACK, b2n fb), (BST.BOOT.SLOT, slot)]
  let s2 := if fb then s1.setCause 2 true else s1
  if s2.pairListed slot then s2 else (s2.setCause 0 true).recOpen 0 0x3E slot

/-- The boot ROM hands over to the image: watchdog and lease run from now (R283, R376). -/
def State.handOver (s : State) : State :=
  { s with boot := { s.boot with handedOver := true, wdog := s.now } }.updTwin (fun x => { x with leaseAt := s.now })

/-- BOOT with the selector's choice; `blank`: no valid selector was found, so one is written. -/
def State.bootWith (s : State) (x : Selector) (blank : Bool) : State :=
  match s.slotChoice x with
  | none => s.bootNone x
  | some (slot, fb) =>
    let s1 := s.bootShow x slot fb
    ((if blank then s1.writeSelector x else s1).completeOtp.scanRing.openSpan.handOver).toState .selftest

/-- BOOT from the selector, after the step of a trial. -/
def State.bootFrom (s : State) (blank : Bool) : State :=
  let (x, s1) := s.trialStep
  s1.bootWith x blank

/-- BOOT (R361): with the device in BOOT and nothing handed over. -/
def State.bootRom (s : State) : State :=
  { s with boot := { s.boot with wdog := s.now } }.railsUp.readOtp.loadRoots.bootFrom s.selector.isNone

/-- Whether step 1 of BOOT waits for the dies: none may read below −10 °C (R485), and after a Freeze that a critical temperature began none above
TCRIT − 15 °C (R383). `temps`: in 0.1 °C, signed. -/
def State.dieWait (s : State) (temps : List Nat) : Bool :=
  let hot := s.frzRun.source == 3 && (List.range s.tiles).any (fun t => s.flag t AON.EVENTS.TCRIT)
  (List.range s.tiles).any (fun t =>
    let c := signed16 (temps.getD t 0)
    decide (c < -100) || (hot && decide (((s.fld t AON.TCRIT.C : Int) - 15) * 10 < c)))

/-- BOOT: where the dies are out of range the device stays in step 1 with its rails up; else a packet held from sleep is served once MB0 service
begins (R454). -/
def execBoot (temps : List Nat) (s : State) : Host.Outcome State Fault Refusal :=
  .next (if s.dstate != .boot || s.boot.handedOver then s
    else if s.dieWait temps then { s with boot := { s.boot with wdog := s.now } }.railsUp
    else s.bootRom.serveHeld)

/-- BOOTROM_KEY_INIT (R366): known answers and entropy tests, slots 1 and 2, and slot 5; nothing where a test fails. -/
def execBootromKeyInit (ok : Bool) (s : State) : Host.Outcome State Fault Refusal :=
  .next (if s.boot.romService && ok then
    { (s.deriveStoreKeys.restoreRole 2).setF 0 KSE.STATUS.ENTROPY_OK 1 with boot := { s.boot with romKeys := true } }
    else s)

/-! ### Self-test (R369, Table 13.5) -/

/-- Whether a slice may start on a tile now: in SELFTEST, in the tile's order, phase 2 after the DRAM step. -/
def State.maySlice (s : State) (t n : Nat) : Bool :=
  s.dstate == .selftest && (sliceRow t n).isSome && !s.sliceDone t n && !(s.boot.running.any (fun x => x.1 == t)) &&
  (sliceRows.filter (fun r => decide (r.slice < n) && decide (r.lo ≤ t) && decide (t ≤ r.hi))).all
    (fun r => s.sliceDone t r.slice) &&
  (decide (n < 14) || s.boot.dramTrained)

/-- A slice starts on a tile. -/
def State.startSlice (s : State) (t n : Nat) : State :=
  if s.maySlice t n then
    { s with boot := { s.boot with running := s.boot.running ++ [(t, n, s.now)] } }.setFs t
      [(BST.STATUS.PHASE, if n < 14 then 1 else 3), (BST.STATUS.SLICE, n)]
  else s

/-- SELFTEST_SLICE -/
def execSelftestSlice (tile slice : Nat) (s : State) : Host.Outcome State Fault Refusal :=
  onTile tile s (s.startSlice tile slice)

/-- The bit of a slice in the PASS or DEGR registers of a tile set. -/
def State.sliceBit (s : State) (t n : Nat) (lo hi : Fld) : State :=
  if n ≤ 32 then s.setF t lo (setBit (s.fld t lo) (n - 1) true) else s.setF t hi (setBit (s.fld t hi) (n - 33) true)

/-- The channels of a tile that slice 13 refuses: channel, and the chip enable without a profile (R141), or none where the population breaks
R142. -/
def State.flashMisses (s : State) (t : Nat) : List (Nat × Option Nat) :=
  (List.range 8).filterMap (fun c =>
    match s.profileMiss t c with
    | some e => some (c, some e)
    | none => if s.populated t c then none else some (c, none))

/-- Slice 13 (R140 to R142): a channel without a profile sets PROFILE_MISS and is recorded with its chip enable, channel + 16 × chip enable; one
that does not train sets TRAIN_FAIL; else every LUN of every channel is switched to NV-DDR3, and the spare floor is set. -/
def State.flashSlice (s : State) (t outcome detail : Nat) : State :=
  let at13 := fun (st : Nat) (x : State) => (List.range 8).foldl (fun a c => a.setF t (Fld.inst FCH.STATUS.STATE c) st) x
  let misses := s.flashMisses t
  if !misses.isEmpty then
    misses.foldl (fun a m => match m.2 with
      | some e => a.evRec t (Fld.inst FCH.EVENTS.PROFILE_MISS m.1) (m.1 + 16 * e)
      | none => a) s
  else if outcome = 2 then (at13 1 s).ev t (Fld.inst FCH.EVENTS.TRAIN_FAIL (detail % 8))
  else
    let s1 := (List.range 8).foldl (fun a c => a.setFs t [(Fld.inst FCH.CFG.RATE c, min s.pow.nfRate (s.prof 0x15 1)), (Fld.inst FCH.CFG.LUNS c, s.lunsOn t c),
      (Fld.inst FCH.CFG.POPULATED c, 1)]) (at13 2 s)
    let s2 := s1.setF t DTM.SPARE_FLOOR.BLOCKS ((s.cfg (cfgKey t DTM.SPARE_FLOOR.BLOCKS)).getD (s.rawBlocks t / 200))
    if detail = 1 then s2.booksOff t else s2

/-- The outcome of a slice: that of the hardware that ran it, but FAIL where the checkers of slice 14 fail a test (R137) or the flash of slice 13
is refused (R141, R142). -/
def State.sliceOutcome (s : State) (t n outcome : Nat) : Nat :=
  if n = 13 && !(s.flashMisses t).isEmpty then 2 else if n = 14 && !(s.decTests t).isEmpty then 2 else min outcome 2

/-- What a slice leaves beside its outcome (Table 13.5): half-erased store sectors erased again (R422), a store sector swapped, channels with no NAND profile (R141) or serving, a retired core, a shed stage, entropy started,
the freeze write rate and the ceiling that follows from it (R185), links retired (`detail` by neighbour), an Ethernet port (0, 1), the twin port (2)
or a feed lane (3 on) held down (`State.heldDown`) or spared, or rows repaired, kept in the store (R373). -/
def State.sliceEffect (s : State) (t n outcome detail : Nat) : State :=
  match n with
  | 1 =>
    let s1 := (s.array t).halfErased.foldl (fun a n => a.eraseSectors t (n * 2048) 2048) s
    if outcome = 1 then (s1.nvsSwap t detail).1 else s1
  | 2 => if outcome = 1 then (s.setFs 0 [(MGT.CORES.FAILED, 2 ^ (detail % 4)),
      (MGT.CORES.IN_SERVICE, setBit 15 (detail % 4) false)]).ev 0 MGT.EVENTS.CORE_SPARED else s
  | 5 => if outcome = 2 then s.ev 0 KSE.EVENTS.KAT_FAIL
    else ({ s with kse := { s.kse with sinceSeed := 0, seededAt := s.now } }.setF 0 KSE.STATUS.ENTROPY_OK 1).loadKeys
  | 9 => if outcome = 1 then ({ s with pow := { s.pow with shed := s.pow.shed ++ [detail] } }).setF 0 PWC.PHASES.ON
      (setBit (s.fld 0 PWC.PHASES.ON) detail false) else s
  | 7 => if outcome = 1 then s.linksUntrained t detail else s
  | 10 | 11 => if outcome = 1 && 3 ≤ detail && s.spareLaneFree t ((detail - 3) % 4) then s.spareLane t ((detail - 3) % 4) else s
  | 13 => s.flashSlice t outcome detail
  | 14 => if outcome != 2 then s
    else match s.decTests t with
      | [] => s.evRec t DEC.EVENTS.SELFTEST_FAIL detail
      | k :: ks => (k :: ks).foldl (fun a x => a.evRec t DEC.EVENTS.SELFTEST_FAIL x) s
  | 15 => if outcome = 2 then s else (s.setF t DTM.DUMP_RATE.MBPS detail).recomputeCeiling 0
  | 4 => if outcome = 1 then { s with nv := { s.nv with repairs := s.nv.repairs ++ [(t * 64 + n, detail)] } } else s
  | _ => s

/-- The FAULT cause of a slice's failure (Table 13.5, Table 12.6). -/
def State.sliceCause (s : State) (t n : Nat) : Nat :=
  if n = 7 then 8 else if n = 13 && !(s.flashMisses t).isEmpty then 10 else if n = 3 then 9 else 11

/-- A slice ends (R369), `late`: by its budget, with nothing found: its record, registers, effect, then FAULT on FAIL or where the links leave a
tile out of reach (R18), or RESTORE when every slice of every tile has ended. -/
def State.endSlice (s : State) (t n outcome detail : Nat) (late : Bool) : State :=
  let t0 := ((s.boot.running.find? (fun x => x.1 == t)).map (fun x => x.2.2)).getD s.now
  let ms := (s.now - t0) / 1000
  let s1 := { s with boot := { s.boot with running := s.boot.running.filter (fun x => x.1 != t),
                                            slices := s.boot.slices ++ [(t, n, outcome, detail, ms)] } }
  let s2 := (s1.bump t BST.SLICE_MS.TOTAL ms).named t 0x3E 0x0102 (2 + outcome) (n + outcome * 64)
  let s3 := if outcome ≤ 1 then s2.sliceBit t n BST.PASS_LO.SLICE BST.PASS_HI.SLICE else s2
  let s4 := if outcome = 1 then (s3.sliceBit t n BST.DEGR_LO.SLICE BST.DEGR_HI.SLICE).evRec t BST.EVENTS.SPARE_USED n else s3
  let s5 := if late then s4 else s4.sliceEffect t n outcome detail
  if outcome = 2 then ((s5.setF t BST.STATUS.PHASE 5).ev t BST.EVENTS.SLICE_FAIL).enterFault (s5.sliceCause t n)
  else if n = 7 && !s5.meshWhole then s5.enterFault 8
  else if s5.dstate == .selftest && s5.phaseDone 1 && s5.phaseDone 2 && s5.boot.dramTrained then
    (s5.setAll BST.STATUS.PHASE 4).toState .restore
  else s5

/-- The slice that a tile runs has overrun its budget (R369); the wait for the bank does not count against slice 16 (R371). -/
def State.sliceLate (s : State) (t : Nat) : Bool :=
  s.boot.running.any (fun x => x.1 == t && (match sliceRow t x.2.1 with
    | some r => if r.slice = 16 then s.boot.bankRunning.any (fun b => decide (b.2 + r.budget * 1000 < s.now))
        else decide (x.2.2 + r.budget * 1000 < s.now)
    | none => false))

/-- SLICE_RESULT: in time; a slice that has overrun its budget ends FAIL whatever it found. -/
def execSliceResult (tile slice outcome detail : Nat) (s : State) : Host.Outcome State Fault Refusal :=
  onTile tile s (if !s.boot.running.any (fun x => x.1 == tile && x.2.1 == slice) then s
    else if s.sliceLate tile then s.endSlice tile slice 2 0 true
    else s.endSlice tile slice (s.sliceOutcome tile slice outcome) detail false)

/-- SLICE_BUDGET_EXPIRY: the slice running on the tile overruns its budget and ends FAIL. -/
def execSliceBudgetExpiry (tile : Nat) (s : State) : Host.Outcome State Fault Refusal :=
  onTile tile s (match s.boot.running.find? (fun x => x.1 == tile) with
    | some x => if s.sliceLate tile then s.endSlice tile x.2.1 2 0 true else s
    | none => s)

/-! ### Hold-up bank measurement (R371) -/

/-- Whether a measurement may run: slice 16, or a repeat in RESTORE or RESTRICTED after an invalid one. -/
def State.mayMeasure (s : State) : Bool :=
  s.pow.mains && (s.boot.running.any (fun x => x.2.1 == 16) ||
    ((s.dstate == .restore || s.dstate == .restricted) && s.fld 0 FRZ.BANK.CAP == 0))

/-- When slice 16 began to wait for the bank, where it does. -/
def State.bankWaitFrom (s : State) : Option Nat :=
  if s.boot.bankRunning.isSome then none else (s.boot.running.find? (fun x => x.1 == 0 && x.2.1 == 16)).map (fun x => x.2.2)

/-- BANK_MEASURE_START: with `HU_SENSE` at V_trip + 0.8 V (`hu`, mV), `HU_TLOAD` high, V1 sampled, V2 = V1 − DELTA; a slice 16 that had to wait
shows it. -/
def execBankMeasureStart (hu v1 : Nat) (s0 : State) : Host.Outcome State Fault Refusal :=
  .next (if s0.mayMeasure && s0.boot.bankRunning.isNone && s0.fld 0 AON.HU_THRESH.TRIP + 800 ≤ hu then
    let s := if s0.bankWaitFrom.any (fun w => decide (w < s0.now)) then s0.ev 0 BST.EVENTS.BANK_WAIT else s0
    { s with pow := { s.pow with huTload := true },
             boot := { s.boot with bankRunning := some (v1, s.now) } }.setFs 0
      [(BST.BANK_V.V1_MV, v1), (BST.BANK_V.V2_MV, v1 - s.fld 0 BST.BANK_CFG.DELTA * 10)]
    else s0)

/-- The outcome of a measurement: capacitance in 10 mF units, 0 where it is invalid; the ceiling follows (R371, R185), and
slice 16 ends where it runs. -/
def State.bankDone (s : State) (cap : Nat) : State :=
  let s1 := { s with pow := { s.pow with huTload := false }, boot := { s.boot with bankRunning := none } }
  let s2 := (s1.setAll FRZ.BANK.CAP cap).recomputeCeiling 0
  let s3 := if cap = 0 then s2.ev 0 BST.EVENTS.BANK_INVALID else s2
  if s3.boot.running.any (fun x => x.1 == 0 && x.2.1 == 16) then s3.endSlice 0 16 (if cap = 0 then 1 else 0) cap false else s3

/-- BANK_WAIT_EXPIRY: the bank does not reach its level within WAIT_S. -/
def execBankWaitExpiry (s : State) : Host.Outcome State Fault Refusal :=
  .next (if s.bankWaitFrom.any (fun w => decide (w + s.fld 0 BST.BANK_CFG.WAIT_S * 1000000 ≤ s.now)) then
    (s.ev 0 BST.EVENTS.BANK_WAIT).bankDone 0 else s)

/-- ln(a ÷ b) in units of 10^−12 for a > b > 0: the series of 2 artanh((a − b)/(a + b)) to five terms. -/
def lnPico (a b : Nat) : Nat :=
  let z := (a - b) * 10 ^ 12 / (a + b)
  let z2 := z * z / 10 ^ 12
  let p3 := z * z2 / 10 ^ 12
  let p5 := p3 * z2 / 10 ^ 12
  let p7 := p5 * z2 / 10 ^ 12
  let p9 := p7 * z2 / 10 ^ 12
  2 * (z + p3 / 3 + p5 / 5 + p7 / 7 + p9 / 9)

/-- C_meas in 10 mF units (R371): t in µs, R_test in mΩ, V1 and V2 in mV; rounded down (DEDUCED, log entry 15). -/
def cMeas (t r v1 v2 : Nat) : Nat :=
  let d := r * lnPico v1 v2
  if d = 0 then 0 else min 65535 (t * 10 ^ 11 / d)

/-- BANK_MEASURE_END -/
def execBankMeasureEnd (t : Nat) (stayed : Bool) (s : State) : Host.Outcome State Fault Refusal :=
  .next (if s.boot.bankRunning.isNone then s else
    let s1 := s.setF 0 BST.BANK_T.US t
    if 10000 ≤ t && t ≤ 750000 && stayed then
      s1.bankDone (cMeas t (s.fld 0 BST.BANK_CFG.RTEST_MOHM) (s.fld 0 BST.BANK_V.V1_MV) (s.fld 0 BST.BANK_V.V2_MV))
    else s1.bankDone 0)

/-! ### Release to service (R374) -/

/-- The conditions of R374 beside the RESTRICTED causes. -/
def State.mayRelease (s : State) : Bool :=
  s.dstate == .restore && s.boot.slices.all (fun x => x.2.2.1 != 2) &&
  s.everyTile (fun t => s.frz t == .armed && s.boot.restored.contains t &&
    decide (s.fld t FRN.HELD.PAGES ≤ s.fld t FRN.CEIL.EFFECTIVE * 16384))

/-- RELEASE_TO_SERVICE: SERVICE, or RESTRICTED with a RESTRICTED cause set; a trial with AUTO_COMMIT commits on entering
SERVICE with no cause bit set (R368); the report of the preceding Freeze is then due (R503), and the
wait for the partner begins (R294). -/
def execReleaseToService (s : State) : Host.Outcome State Fault Refusal :=
  .next (if !s.mayRelease then s else
    let s0 := s.updTwin (fun x => { x with helloSince := s.now })
    if s0.restrictedCause then (s0.toState .restricted).afterRestore
    else s0.enterService.afterRestore.raiseActo)

/-! ### Watchdog, reports -/

/-- WDOG_KICK (R376) -/
def State.wdogKick (s : State) : State := if s.boot.handedOver then { s with boot := { s.boot with wdog := s.now } } else s

/-- WDOG_KICK -/
def execWdogKick (s : State) : Host.Outcome State Fault Refusal := .next s.wdogKick

/-- SELFTEST_REPORT: per tile, outcome, elapsed ms and detail of each slice; bank measurement; reset cause. -/
def cmdSelftestReport : Cmd := readCmd 0x0910 .reading noArgs
  (fun _ _ s =>
    let h := build339 [(4, s.fld 0 BST.BANK_T.US), (2, s.fld 0 BST.BANK_V.V1_MV), (2, s.fld 0 BST.BANK_V.V2_MV),
      (2, s.fld 0 FRZ.BANK.CAP), (1, s.fld 0 BST.RST_CAUSE.CAUSE)]
    .reply s (pad8 (h ++ buildList h.length 16 (s.boot.slices.map (fun x =>
      build339 [(1, x.1), (1, x.2.1), (1, x.2.2.1), (4, x.2.2.2.2), (4, x.2.2.2.1)])))))

/-- MONITOR_READ: BST.MON and BST.HU of every tile. -/
def cmdMonitorRead : Cmd := readCmd 0x0911 .reading noArgs
  (fun _ _ s0 =>
    let s := s0.allTiles (fun t a => (a.senseReg t 0x3E 0x030).senseReg t 0x3E 0x034)
    .reply s (buildWithList [] 8 ((List.range s.tiles).map (fun t => build339 [(4, (s.word t 0x3E 0x030).toNat), (4, (s.word t 0x3E 0x034).toNat)]))))

/-- BANK_CONFIG: RTEST_MOHM, DELTA, WAIT_S, effective at the next measurement. -/
def cmdBankConfig : Cmd := actCmd 0x0912 [3] .config
  (fun _ pl => match parse339 [2, 1, 1] pl with
    | some [r, d, _] => decide (1 ≤ r) && decide (10 ≤ d) && decide (d ≤ 100)
    | _ => false)
  (fun _ pl s =>
    let f := fieldAt [2, 1, 1] pl
    .done (((s.config 0 BST.BANK_CFG.RTEST_MOHM (f 0)).config 0 BST.BANK_CFG.DELTA (f 1)).config 0 BST.BANK_CFG.WAIT_S
      (f 2)) .ok)

/-- SELFTEST_REPORT -/
def execSelftestReport (f : Frame) (s : State) : Host.Outcome State Fault Refusal := .next (mailbox cmdSelftestReport f s)

/-- MONITOR_READ -/
def execMonitorRead (f : Frame) (s : State) : Host.Outcome State Fault Refusal := .next (mailbox cmdMonitorRead f s)

/-- BANK_CONFIG -/
def execBankConfig (f : Frame) (s : State) : Host.Outcome State Fault Refusal := .next (mailbox cmdBankConfig f s)

end Sys2Proof.Machine
end

