-- ==== Sys2Proof/Machine/Power.lean ====
section
/-! DEFINITION. Power: supplies, comparators, clocks, the hold-up converter, throttling, wake sources, and the power commands
beside POWER_SLEEP (chapter 14). -/

namespace Sys2Proof.Machine

/-! ### VAON and MAINS_OK (R342, R382, R383) -/

/-- The registers of the always-on domain at their loaded values (R9, R360). -/
def State.loadAon (s : State) : State :=
  s.allTiles (fun t a => a.setFs t [(AON.HU_THRESH.TRIP, (s.cfg (cfgKey t AON.HU_THRESH.TRIP)).getD 14000),
    (AON.HU_THRESH.EMERG, (s.cfg (cfgKey t AON.HU_THRESH.EMERG)).getD 6000),
    (AON.FILTER.MAINS_US, (s.cfg (cfgKey t AON.FILTER.MAINS_US)).getD 5), (AON.TCRIT.C, (s.cfg (cfgKey t AON.TCRIT.C)).getD 115)])

/-- VAON_APPLIED: OFF to AON_ONLY; the straps are sampled (R470), the elapsed-time counter starts. -/
def execVaonApplied (pref : Bool) (adr : Nat) (s : State) : Host.Outcome State Fault Refusal :=
  .next (if s.dstate != .off then s else
    { s with regs := [], pow := { State.reset.pow with mains := s.pow.mains, twPref := pref, twbAdr := adr % 8, vaon := true,
                                                        vaonAt := s.now, railsOffAt := s.now },
             boot := { s.boot with cause := 1 },
             frzRun := { s.frzRun with resetSource := 1 } }
      |>.setF 0 MGT.STATE.DSTATE 0 |>.setF 0 AON.STATUS.MAINS (b2n s.pow.mains) |>.setF 0 TWA.STATUS.ACTI (s.fld 0 TWA.STATUS.ACTI)
      |>.toState .aonOnly)

/-- VAON_LOST: the device goes to OFF and releases every output; what is volatile is lost, without a Freeze. -/
def execVaonLost (s : State) : Host.Outcome State Fault Refusal :=
  .next (if s.dstate == .off then s else
    let s1 := { s.loseVolatile with regs := [], twb := State.reset.twb, pow := { s.pow with vaon := false, huTload := false, target := 0, entryStep := 0 } }
    (s1.setF 0 MGT.STATE.DSTATE 0).setF 0 TWA.STATUS.ACTI (s.fld 0 TWA.STATUS.ACTI))

/-- VAON_LOW: recorded; elapsed time after it is unreliable, so time is coarse (R383, Table 17.1). -/
def execVaonLow (s : State) : Host.Outcome State Fault Refusal :=
  .next { s.evRec 0 AON.EVENTS.VAON_LOW 0 with recd := { (s.evRec 0 AON.EVENTS.VAON_LOW 0).recd with coarse := true } }

/-- `MAINS_OK` is high; a Freeze notes its return (R192). -/
def State.mainsUp (s : State) : State :=
  { s with pow := { s.pow with mains := true }
           frzRun := if s.dstate == DState.freeze then { s.frzRun with mainsBack := true } else s.frzRun }.setAll AON.STATUS.MAINS 1

/-- A cold boot from AON_ONLY with `MAINS_OK` high, no earlier than 100 ms after the rails were removed (R192, Table 12.5). -/
def State.coldBoot (s : State) : State :=
  if s.dstate == .aonOnly && s.pow.mains && decide (s.pow.railsOffAt + 100000 ≤ s.now) then
    s.enterBoot (if s.frzRun.resetSource = 0 then 2 else s.frzRun.resetSource)
  else s

/-- MAINS_OK_HIGH: `MAINS_OK` has been high for 100 ms; AON_ONLY leaves for BOOT (Table 12.5) with source 2, or 1 after VAON
was applied, or the source of the Freeze before. -/
def execMainsOkHigh (s : State) : Host.Outcome State Fault Refusal :=
  .next (s.mainsUp.coldBoot)

/-- MAINS_OK_LOW: tile `tile`'s comparator takes the level after its filter; the trigger of R188. -/
def execMainsOkLow (tile : Nat) (s : State) : Host.Outcome State Fault Refusal :=
  onTile tile s (({ s with pow := { s.pow with mains := false } }.setF tile AON.STATUS.MAINS 0).ev tile
    AON.EVENTS.MAINS_LOW |>.freezeTrigger tile 1)

/-- HU_TRIP: `HU_SENSE` falls below TRIP; a trigger while the comparator is armed (R382). -/
def execHuTrip (tile : Nat) (s : State) : Host.Outcome State Fault Refusal :=
  onTile tile s
    (let s1 := s.setF tile AON.STATUS.ABOVE_TRIP 0
     if s1.flag tile AON.STATUS.ARMED then (s1.ev tile AON.EVENTS.HU_TRIP).freezeTrigger tile 2 else s1)

/-- HU_EMERG: the bank falls below EMERG; during Freeze an engine short of its seal collapses (Table 7.5). -/
def execHuEmerg (tile : Nat) (s : State) : Host.Outcome State Fault Refusal :=
  onTile tile s
    (let s1 := (s.setF tile AON.STATUS.ABOVE_EMERG 0).ev tile AON.EVENTS.HU_EMERG
     match s1.frz tile with
     | .stopping | .draining | .dumping | .sealing =>
       (s1.ev tile FRZ.EVENTS.COLLAPSE).setF tile FRZ.STATUS.STATE FState.collapsed.code
     | _ => s1)

/-- TRIP_ARM: the TRIP comparator is armed (R382). -/
def execTripArm (tile : Nat) (s : State) : Host.Outcome State Fault Refusal :=
  onTile tile s (match s.dstate with
    | .off | .aonOnly | .s3 => s
    | _ => (s.setFs tile [(AON.STATUS.ARMED, 1), (AON.STATUS.ABOVE_TRIP, 1), (AON.STATUS.ABOVE_EMERG, 1)]).noteUrgent tile)

/-- TCRIT: a die reaches its critical temperature and drives the freeze net (R383); the tile freezes with the net as source. -/
def execTcrit (tile : Nat) (s : State) : Host.Outcome State Fault Refusal :=
  onTile tile s ((s.ev tile AON.EVENTS.TCRIT).freezeTrigger tile 3)

/-- FREEZE_NET: a tile sees the net asserted and starts Freeze, on whichever comes first (R14); nothing while the net is not
asserted. -/
def execFreezeNet (tile : Nat) (s : State) : Host.Outcome State Fault Refusal :=
  onTile tile s
    (if s.pow.freezeNet && s.dstate == .freeze then
      (if s.frz tile == .armed || s.frz tile == .notArmed then s.freezeTile tile 3 else s)
     else s)

/-! ### Rails and stages (R378 to R380) -/

/-- RAIL_FAULT: a core rail leaves regulation and drives the freeze net. -/
def execRailFault (rail : Nat) (s : State) : Host.Outcome State Fault Refusal :=
  .next (if 4 ≤ rail then s else ((s.setF 0 PWC.STATUS.PG (setBit (s.fld 0 PWC.STATUS.PG) rail false)).ev 0 PWC.EVENTS.RAIL_FAULT).freezeTrigger
    0 3)

/-- The throttle level is set; entering a level is an event, and entering from level 0 asks set B of each channel, leaving
level 1 set A (Table 14.7, R105, R106). -/
def State.setThrottle (s : State) (l : Nat) : State :=
  let o := s.fld 0 PWC.THERM.LEVEL
  let s1 := s.setF 0 PWC.THERM.LEVEL l
  let all := fun (x : Nat) => s1.allTiles (fun t a => (List.range 3).foldl (fun b c => b.requestSpeed t c x) a)
  let s2 := if o = 0 && 0 < l then all 1 else if 0 < o && l = 0 then all 0 else s1
  if o < l then s2.ev 0 PWC.EVENTS.THROTTLE else s2

/-- PHASE_FAULT: a stage is shed for the rest of the span; level 2 where the rest cannot carry the rail at TDP. -/
def execPhaseFault (stage : Nat) (short : Bool) (s : State) : Host.Outcome State Fault Refusal :=
  .next (if 24 ≤ stage then s else
    (let s1 := { s with pow := { s.pow with shed := s.pow.shed.erase stage ++ [stage],
                                            shortOfPhases := s.pow.shortOfPhases || short } }
     let s2 := (s1.setF 0 PWC.PHASES.ON (setBit (s1.fld 0 PWC.PHASES.ON) stage false)).evRec 0 PWC.EVENTS.PHASE_FAULT stage
     if short && s2.fld 0 PWC.THERM.LEVEL < 2 then s2.setThrottle 2 else s2))

/-- The stages of each rail (Table 14.1). -/
def stageRail (n : Nat) : Nat × Nat := if n < 14 then (0, 14) else if n < 18 then (14, 18) else if n < 22 then (18, 22) else (22, 24)

/-- PHASE_SHED_LOAD: a phase is shed below 30 % load, never the rail's last, or added back; a stage shed for a fault stays off. -/
def execPhaseShedLoad (stage : Nat) (on : Bool) (s : State) : Host.Outcome State Fault Refusal :=
  let p := s.fld 0 PWC.PHASES.ON
  let (lo, hi) := stageRail stage
  let others := (List.range (hi - lo)).any (fun i => lo + i != stage && p.testBit (lo + i))
  .next (if 24 ≤ stage then s else if on then (if s.pow.shed.contains stage then s else s.setF 0 PWC.PHASES.ON (setBit p stage true))
    else if others then s.setF 0 PWC.PHASES.ON (setBit p stage false) else s)

/-! ### Clocks and wake sources (R384, R388) -/

/-- XTAL_FAIL: the domain runs from the RC oscillator. -/
def execXtalFail (s : State) : Host.Outcome State Fault Refusal :=
  .next ((s.setF 0 AON.STATUS.XTAL_OK 0).ev 0 AON.EVENTS.XTAL_FAIL)

/-- XTAL_OK: the crystal runs. -/
def execXtalOk (s : State) : Host.Outcome State Fault Refusal := .next (s.setF 0 AON.STATUS.XTAL_OK 1)

/-- WAKE_N: low for at least 1 µs, which is a wake source, or high again. -/
def execWakeN (low : Bool) (s : State) : Host.Outcome State Fault Refusal :=
  let s1 := { s with pow := { s.pow with wakeLow := low } }.setF 0 AON.STATUS.WAKE_PIN (b2n low)
  .next (if low then s1.wakeUp 3 else s1)

/-- WAKE_TIMER: the elapsed-time counter reaches the compare value with EN set; EN clears. -/
def execWakeTimer (s : State) : Host.Outcome State Fault Refusal :=
  .next (if s.flag 0 AON.WAKE_AT_HI.EN &&
      decide (s.fld 0 AON.WAKE_AT_LO.TICKS + s.fld 0 AON.WAKE_AT_HI.TICKS * 2 ^ 32 ≤ s.etc) then
    (s.setF 0 AON.WAKE_AT_HI.EN 0).wakeUp 4 else s)

/-- WAKE: a wake event of S1 (a frame or an idle exit on a port) takes effect. -/
def execWake (s : State) : Host.Outcome State Fault Refusal :=
  .next (match s.dstate with
    | .s1 => s.wakeUp 1
    | .s2 => s.wakeUp 3
    | .s3 => s.wakeUp 3
    | _ => s)

/-- SLEEP_ABORTED: a wake source or a request packet meets a sleep entry. -/
def execSleepAborted (s : State) : Host.Outcome State Fault Refusal := .next s.abortSleep

/-! ### Throttling (R392) -/

/-- The throttle level after a reading of the hottest die, with the time since it has been below the level's exit. -/
def State.throttleNext (s : State) (hot : Int) : Nat × Option Nat :=
  let th : Int := (s.fld 0 PWC.THERM.THROTTLE : Nat) * 10
  let l := s.fld 0 PWC.THERM.LEVEL
  if s.pow.shortOfPhases || th + 50 ≤ hot then (2, none)
  else if l = 0 then (if th ≤ hot then 1 else 0, none)
  else
    let exit := if l = 2 then th + 20 else th - 50
    if hot ≤ exit then
      (match s.pow.coolSince with
       | some c => if c + 1000000 ≤ s.now then (l - 1, none) else (l, some c)
       | none => (l, some s.now))
    else (l, none)

/-- THERMAL_CHECK: each tile's hottest sensor, in SERVICE and RESTRICTED (Table 14.7). -/
def execThermalCheck (temps : List Nat) (s : State) : Host.Outcome State Fault Refusal :=
  .next
    (let s0 := s.allTiles (fun t a => a.setF t BST.MON.TEMP (temps.getD t 0))
     if s0.dstate != .service && s0.dstate != .restricted || s0.pow.target != 0 then s0 else
     let ts := (List.range s0.tiles).map (fun t => signed16 (temps.getD t 0))
     let hot := ts.foldl max (ts.headD 0)
     let s1 := if (s0.fld 0 PWC.THERM.WARN : Int) * 10 ≤ hot then s0.evRec 0 PWC.EVENTS.WARN 0 else s0
     let (l, c) := s1.throttleNext hot
     let s2 := { s1 with pow := { s1.pow with coolSince := c } }.setThrottle l
     if l = 0 then s2 else s2.bump 0 PWC.THROTTLE_MS.COUNT 1)

/-! ### Watchdog and reset (R376, R358) -/

/-- The watchdog period: 5 s in BOOT before the hand-over, then 1 s. -/
def State.wdogPeriod (s : State) : Nat := if s.boot.handedOver then 1000000 else 5000000

/-- WDOG_EXPIRY: the period has passed since the last kick; reset code 5 by way of Freeze. -/
def execWdogExpiry (s : State) : Host.Outcome State Fault Refusal :=
  .next (if decide (s.boot.wdog + s.wdogPeriod ≤ s.now) && s.dstate != .off && s.dstate != .aonOnly && s.dstate != .s3 &&
      s.dstate != .s2 && !s.boot.romService then s.resetVia 5 else s)

/-- SYS_RESET (0x0002): OK is answered, then the reset runs as a Freeze trigger in the present state. -/
def cmdSysReset : Cmd :=
  actCmd 0x0002 [2] .firmware noArgs (fun _ _ s => ⟨s, .ok, [], fun a => a.resetVia 4, none⟩)

/-- SYS_RESET -/
def execSysReset (f : Frame) (s : State) : Host.Outcome State Fault Refusal := .next (mailbox cmdSysReset f s)

/-! ### Commands (Table 14.11) -/

/-- POWER_STATUS: state, rails, stages, tile power, throttle level, comparator levels, latest wake source. -/
def cmdPowerStatus : Cmd := readCmd 0x0030 .reading noArgs
  (fun _ _ s0 =>
    let s := (List.range 4).foldl (fun a r => a.sense 0 (PWC.RAIL_V.MEAS_MV.up (4 * r))) (s0.allTiles (fun t a => a.sense t PWC.TILE_P.DECIWATT))
    .reply s (build339 ([(1, s.fld 0 MGT.STATE.DSTATE), (1, s.fld 0 PWC.STATUS.PG)] ++
    (List.range 4).flatMap (fun r => [(2, s.fld 0 (PWC.RAIL_V.SET_MV.up (4 * r))), (2, s.fld 0 (PWC.RAIL_V.MEAS_MV.up (4 * r)))]) ++
    [(4, s.fld 0 PWC.PHASES.ON)] ++ (List.range 8).map (fun t => (2, if t < s.tiles then s.fld t PWC.TILE_P.DECIWATT else 0)) ++
    [(1, s.fld 0 PWC.THERM.LEVEL), (1, b2n (s.flag 0 AON.STATUS.MAINS) + b2n (s.flag 0 AON.STATUS.ABOVE_TRIP) * 2 +
      b2n (s.flag 0 AON.STATUS.ABOVE_EMERG) * 4), (1, s.fld 0 AON.WAKE_SRC.SRC)])))

/-- The field sizes of POWER_CONFIG. -/
def powerSizes : List Nat := [2, 2, 1, 1, 1, 1, 2]

/-- POWER_CONFIG: TRIP, EMERG, MAINS_US, TCRIT, WARN, THROTTLE, CLEAN_MS; a change of the thresholds recomputes the ceiling. -/
def cmdPowerConfig : Cmd := actCmd 0x0032 [2] .config
  (fun _ pl => match parse339 powerSizes pl with
    | some [tr, em, us, tc, w, th, cl] =>
      decide (2200 ≤ em) && decide (em ≤ 13000) && decide (em + 1000 ≤ tr) && decide (tr ≤ 15200) && decide (1 ≤ us) &&
      decide (us ≤ 50) && decide (105 ≤ tc) && decide (tc ≤ 125) && decide (w ≤ th) && decide (th + 10 ≤ tc) &&
      decide (100 ≤ cl) && decide (cl ≤ 60000)
    | _ => false)
  (fun _ pl s =>
    let f := fieldAt powerSizes pl
    let s1 := ((((s.configAll AON.HU_THRESH.TRIP (f 0)).configAll AON.HU_THRESH.EMERG (f 1)).configAll AON.FILTER.MAINS_US
      (f 2)).configAll AON.TCRIT.C (f 3)).config 0 PWC.THERM.WARN (f 4)
    let s2 := (s1.config 0 PWC.THERM.THROTTLE (f 5)).config 0 PWC.SLEEP.CLEAN_MS (f 6)
    .done (if s.fld 0 AON.HU_THRESH.TRIP = f 0 && s.fld 0 AON.HU_THRESH.EMERG = f 1 then s2 else s2.recomputeCeiling 3) .ok)

/-- WAKE_TIMER_SET: DELAY_S; 0 clears EN. -/
def cmdWakeTimerSet : Cmd := actCmd 0x0033 [2] .config
  (fun _ pl => (parse339 [4] pl).isSome)
  (fun _ pl s =>
    let d := fieldAt [4] pl 0
    .done (if d = 0 then s.setF 0 AON.WAKE_AT_HI.EN 0 else
      let v := (s.etc + d * 32768) % 2 ^ 48
      s.setFs 0 [(AON.WAKE_AT_LO.TICKS, v % 2 ^ 32), (AON.WAKE_AT_HI.TICKS, v / 2 ^ 32), (AON.WAKE_AT_HI.EN, 1)]) .ok)

/-- POWER_STATUS -/
def execPowerStatus (f : Frame) (s : State) : Host.Outcome State Fault Refusal := .next (mailbox cmdPowerStatus f s)

/-- POWER_CONFIG -/
def execPowerConfig (f : Frame) (s : State) : Host.Outcome State Fault Refusal := .next (mailbox cmdPowerConfig f s)

/-- WAKE_TIMER_SET -/
def execWakeTimerSet (f : Frame) (s : State) : Host.Outcome State Fault Refusal := .next (mailbox cmdWakeTimerSet f s)

end Sys2Proof.Machine
end

