-- ==== Sys2Proof/Machine/FreezeRun.lean ====
section
/-! DEFINITION. The run of a Freeze: triggers, draining, the dump, its seal, removal of the rails, the cold boot (R188 to R193), and the faults that
lead to it (R18, R22). -/

namespace Sys2Proof.Machine

/-! ### Triggers (R188) -/

/-- FREEZE_TRIGGER: source as `FRZ.STATUS.SOURCE`: 1 to 3 at a tile's own engine, 4 a test, 5 a reset, 6 the watchdog. -/
def execFreezeTrigger (tile source : Nat) (s : State) : Host.Outcome State Fault Refusal :=
  onTile tile s (match source with
    | 1 | 2 | 3 => s.freezeTrigger tile source
    | 4 => if s.dstate == .service || s.dstate == .restricted then
        (s.freezeTrigger 0 4).allTiles (fun t b => if b.frz t == .armed || b.frz t == .notArmed then b.freezeTile t 4 else b) else s
    | 5 => s.resetVia 4
    | 6 => s.resetVia 5
    | _ => s)

/-- SECOND_TRIGGER: counted, nothing else. -/
def execSecondTrigger (tile : Nat) (s : State) : Host.Outcome State Fault Refusal :=
  onTile tile s (if s.dstate == .freeze && s.frz tile != .armed && s.frz tile != .notArmed then s.ev tile FRZ.EVENTS.SECOND_TRIGGER else s)

/-- MAINS_RETURN: Freeze goes on to its end (R192). -/
def execMainsReturn (s : State) : Host.Outcome State Fault Refusal := .next s.mainsUp

/-! ### DRAINING (R189, R159, R327) -/

/-- A tile's dirty pages, ascending. -/
def State.dirtyPages (s : State) (t : Nat) : List Nat :=
  ((s.firn.tokens.filter (fun k => k.tile == t)).map (·.page)).mergeSort (fun a b => decide (a ≤ b))

/-- What is admitted and has arrived is applied; the rest is discarded. -/
def State.drainPortions (s : State) (t : Nat) : State :=
  let mine := s.net.portions.filter (fun p => p.tile == t)
  let s1 := (mine.filter (fun p => p.st == .admitted && p.arrived)).foldl (fun a p => a.applyPortion p) s
  let s2 := (mine.filter (fun p => p.st == .admitted && !p.arrived)).foldl State.discardPortion s1
  s2.updNet (fun n => { n with portions := n.portions.filter (fun p => p.tile != t) })

/-- The deep-tier manager at Freeze (R159): no garbage collection, queued reads and programs dropped, an erase in progress suspended for good: it is
done again after restore. What Firn's buffer holds is dumped (R179). -/
def State.stopDeep (s : State) (t : Nat) : State :=
  let erasing := (s.deep.stripes.filter (fun x => x.tile == t && x.st == 3)).length
  (List.range 8).foldl (fun a c => a.bump t (Fld.inst FCH.SUSPENDS.COUNT c) erasing) (s.updDeep (fun d => { d with
    gc := d.gc.erase t
    stripes := d.stripes.map (fun x => if x.tile = t then { x with refs := 0 } else x) }))

/-- The partner gives no page any more: what a tile waits for from it is poison (R131, R152, R59). -/
def State.dropFetches (s : State) (t : Nat) : State :=
  ((s.twl t).fetches.foldl (fun a f => match a.homeOf (f.page / 512) with
    | some h => if h.tile != t || h.tier = 1 then a else if h.tier = 0 then a.nearPoison h f.page else a.deepPoison t f.page h.sh
    | none => a) s).updTwl t (fun y => { y with fetches := [] })

/-- The places of a dump's pages, given ascending: the pages of an atomic unit one after another, in one page stripe (R189); and the next place. -/
def dumpLayout (ps : List Nat) : List (Nat × Nat) × Nat :=
  ((ps.map (· / 16)).dedup).foldl (fun a u =>
    let mine := ps.filter (fun p => p / 16 == u)
    let i := if 28 < a.2 % 28 + mine.length then ceilDiv a.2 28 * 28 else a.2
    (a.1 ++ mine.zip ((List.range mine.length).map (i + ·)), i + mine.length)) ([], 0)

/-- The codewords of a tile's metadata in a dump: its bound (R186; DESIGN CHOICE, log entry 71). -/
def State.metaWords (s : State) (t : Nat) : Nat := s.fld t FRZ.META.MB * 256

/-- The place of the seal: after pages and metadata, in page stripes of their own. -/
def State.sealPlace (s : State) (t : Nat) : Nat := (ceilDiv (dumpLayout (s.dirtyPages t)).2 28 + ceilDiv (s.metaWords t) 28) * 28

/-- The block stripes that a tile's dump would take in SLC mode (R191). -/
def State.dumpStripes (s : State) (t : Nat) : Nat := ceilDiv (s.sealPlace t + 28) slcCap

/-- Where a tile's dump goes: to its armed area, else to erased FREE block stripes, those with the fewest erases first (R191). -/
def State.dumpArea (s : State) (t : Nat) : DumpArea :=
  (s.areaIn t 1).getD ⟨t, s.deep.nextArea, 1, s.leastWorn t (min (s.dumpStripes t) (s.freeStripes t))⟩

/-- The emergency dump record of a tile with no armed area (R191). -/
def State.emergencyRecord (s : State) (t : Nat) : State :=
  if (s.areaIn t 1).isSome then s else
  let a := s.dumpArea t
  { s with nv := { s.nv with emerg := s.nv.emerg.filter (fun e => e.tile != t) ++
      [⟨t, s.nv.frzSeq, amapGet 0 s.firn.seqs t, a.stripes.headD 0, a.stripes.length⟩] } }

/-- The drain window ends on a tile: its host ports, lanes and cache stop, and dumping starts. -/
def State.drainEnd (s : State) (t : Nat) : State :=
  let s1 := (((s.abandonMoves.drainPortions t).dropFetches t).stopCache t).stopDeep t
  let s2 := (s1.stopLanes t 3).setFs t [(ETH.STATUS.LINK_UP.inst 0, 0), (ETH.STATUS.LINK_UP.inst 1, 0)]
  let s3 := { s2 with frzRun := { s2.frzRun with dirty := s2.frzRun.dirty ++ [(t, (s2.dirtyPages t).length / 256)] } }
  (s3.emergencyRecord t).setF t FRZ.STATUS.STATE FState.dumping.code

/-- DRAIN_WINDOW_END: 50 µs have passed, or every admitted portion is applied. -/
def execDrainWindowEnd (tile : Nat) (s : State) : Host.Outcome State Fault Refusal :=
  onTile tile s (if s.frz tile == .draining then s.drainEnd tile else s)

/-! ### DUMPING and SEALING (R189, R191, R46) -/

/-- The bursts of a page that wait for their recovery are poison (R131). -/
def State.dropUes (s : State) (t p : Nat) : State :=
  (s.dec.ues.filter (fun u => u.1 == t && s.amsPage u.1 (u.2 / 4096) == some p)).foldl (fun a u => a.ueRecover u.1 u.2) s

/-- A page as a tile's dump takes it: read through the cache and Firn's buffer, what does not decode poisoned. -/
def State.readDirty (s : State) (t p : Nat) : List Byte × State :=
  let s1 := ((s.dropUes t p).probe (p * 4096) 4096).dropUes t p
  match s1.homeOf (p / 512) with
  | some h => s1.readHome h false (p * 4096) 4096
  | none => (List.replicate 4096 0, s1)

/-- The DEN field of a page's dump codeword: its frame, for a deep home its deep extent number (Table 6.4). -/
def State.dumpDen (s : State) (t p : Nat) : Nat :=
  match s.homeOf (p / 512) with
  | some h => if h.tier = 2 then (s.denOf t (p / 512)).getD 0 else h.frame
  | none => 0

/-- A page dumped at a place of an area. -/
def State.dumpPage (s : State) (a : DumpArea) (p i : Nat) : DumpPage × State :=
  let (bs, s1) := s.readDirty a.tile p
  let (q, s2) := s1.nextSeq a.tile
  (⟨p, s2.gen p, q⟩, s2.putCodeword a.tile (a.stripes.getD (i / slcCap) 0) (i % slcCap) 4 true (s2.dumpDen a.tile p) p (s2.gen p) q (s2.maskOf p) bs)

/-- Page stripes programmed on a tile: one page of each channel for each. -/
def State.programmed (s : State) (t n : Nat) : State :=
  (List.range 8).foldl (fun a c => a.bump t (Fld.inst FCH.PROGRAMS.COUNT c) n) s

/-- The atomic units of a list of pages. -/
def unitCount (ps : List Nat) : Nat := ((ps.map (· / 16)).dedup).length

/-- A dump of pages at their places on tile t, in its armed area or in the emergency stripes, which then holds a dump. -/
def State.writeDump (s : State) (t : Nat) (l : List (Nat × Nat)) : State :=
  let a := s.dumpArea t
  let emergency := (s.areaIn t 1).isNone
  let units := unitCount (s.dirtyPages t)
  let s1 := if emergency then (a.stripes.foldl (fun x b => x.updStripe t b (fun y => { y with st := 4 })) s).updDeep (fun d =>
      { d with areas := d.areas ++ [{ a with st := 3 }], nextArea := d.nextArea + 1 })
    else s.updDeep (fun d => { d with areas := d.areas.map (fun x => if x = a then { x with st := 3 } else x) })
  let (ps, s2) := l.foldl (fun (r : List DumpPage × State) e =>
    let (x, b) := r.2.dumpPage a e.1 e.2
    (r.1 ++ [x], b)) ([], s1)
  (s2.programmed t (ceilDiv ((l.map (fun e => e.2 + 1)).foldl max 0) 28)).updFirn (fun f =>
    { f with
      dumps := f.dumps ++ [⟨t, s.nv.frzSeq, a.num, emergency, false, units, ps⟩]
      tileSaved := f.tileSaved.filter (fun m => m.tile != t || m.seq.isSome)
      saved := if t = 0 then f.saved.filter (fun m => m.seq.isSome) else f.saved })

/-- A tile's copy of the home map (R34). -/
def State.homesOn (s : State) (t : Nat) : List (Nat × Home) :=
  s.ams.homes.map (fun e => (e.1, { ((s.ams.stale.find? (fun x => x.1 == t && x.2.1 == e.1)).map (·.2.2)).getD e.2 with mv := false }))

/-- A tile's metadata of Table 7.4 is kept in the deep tier, with that of the package on tile 0: a plan with its order states, a chain queue with its
count; n: the Freeze whose dump it is in (DESIGN CHOICE, log entry 71: on the way into S3 it is in none). -/
def State.keepMeta (s : State) (t : Nat) (n : Option Nat) : State :=
  let born := (s.firn.born.filter (fun p => s.homeTile (p / 512) == t) ++ s.dirtyPages t).dedup
  let mine : TileMeta := ⟨t, n, s.homesOn t, born, s.firn.tokens.filter (fun k => k.tile == t)⟩
  s.updFirn (fun f => { f with
    tileSaved := f.tileSaved.filter (fun m => m.tile != t) ++ [mine]
    saved := if t = 0 then some ⟨n, s.ams.regions, s.ams.gens, s.ams.plans, s.net.chains, s.ams.abandoned⟩ else f.saved })

/-- A tile's metadata goes into its dump. -/
def State.saveMeta (s : State) (t : Nat) : State :=
  let w := s.metaWords t
  let s1 := (s.keepMeta t (some s.nv.frzSeq)).updFirn (fun f => { f with seqs := amapSet 0 f.seqs t (amapGet 0 f.seqs t + w) })
  (s1.bump t BCX.XTS_UNITS.COUNT w).programmed t (ceilDiv w 28)

/-- Every page and item of a tile is programmed and verified; an emergency dump whose block stripes are used up ends as in COLLAPSED. -/
def State.dumpComplete (s : State) (t : Nat) : State :=
  let l := (dumpLayout (s.dirtyPages t)).1
  if (s.areaIn t 1).isNone && s.freeStripes t < s.dumpStripes t then
    (s.writeDump t (l.filter (fun e => decide (e.2 < s.freeStripes t * slcCap)))).setF t FRZ.STATUS.STATE FState.collapsed.code
  else ((s.writeDump t l).saveMeta t).setF t FRZ.STATUS.STATE FState.sealing.code

/-- DUMP_COMPLETE -/
def execDumpComplete (tile : Nat) (s : State) : Host.Outcome State Fault Refusal :=
  onTile tile s (if s.frz tile == .dumping then s.dumpComplete tile else s)

/-- The dump of a tile in this Freeze. -/
def State.thisDump (s : State) (t : Nat) : Option Dump := s.firn.dumps.find? (fun d => d.tile == t && d.seq == s.nv.frzSeq)

/-- The seal of a tile's dump: the sequence number, the counts of pages and of metadata items, and the SEQs of the dump, first and last (R189;
their places DESIGN CHOICE, log entry 71). -/
def State.putSeal (s : State) (t : Nat) (d : Dump) : State :=
  match s.deep.areas.find? (fun a => a.tile == t && a.num == d.area) with
  | none => s
  | some a =>
    let i := s.sealPlace t
    let (q, s1) := s.nextSeq t
    let first := ((d.pages.map (·.seq)).min?).getD (q - s.metaWords t)
    let bs := leBytes 4 d.seq ++ leBytes 4 d.pages.length ++ leBytes 4 (s.metaWords t) ++ leBytes 4 0 ++ leBytes 8 first ++ leBytes 8 q
    (s1.putCodeword t (a.stripes.getD (i / slcCap) 0) (i % slcCap) 7 true 0 0 0 q [] (bs ++ List.replicate (4096 - bs.length) 0)).programmed t 1

/-- The time since the trigger, ms. -/
def State.freezeMs (s : State) : Nat := min 65535 ((s.now - s.frzRun.since) / 1000)

/-- The seal stands. -/
def State.sealDone (s : State) (t : Nat) : State :=
  let s0 := match s.thisDump t with
    | some d => s.putSeal t d
    | none => s
  let s1 := { s0 with frzRun := { s0.frzRun with ended := s0.frzRun.ended ++ [(t, s.freezeMs)], outcome := s0.frzRun.outcome ++ [(t, 1)] } }
  let s2 := s1.updFirn (fun f => { f with dumps := f.dumps.map (fun (d : Dump) => if d.tile = t && d.seq = s.nv.frzSeq then { d with isSealed := true } else d) })
  s2.setF t FRZ.STATUS.STATE FState.sealed.code

/-- SEAL_VERIFIED -/
def execSealVerified (tile : Nat) (s : State) : Host.Outcome State Fault Refusal :=
  onTile tile s (if s.frz tile == .sealing then s.sealDone tile else s)

/-! ### The end (R189, R192, R193) -/

/-- A tile that has not sealed when the rails go: of a dump in progress as many page stripes stand as had been programmed with their parity, a
free value (R193). -/
def State.endUnsealed (s : State) (t : Nat) : State :=
  if s.frz t == .sealed then s else
  let ps := s.dirtyPages t
  let (l, n) := dumpLayout ps
  let s1 := if (s.thisDump t).isSome || !s.frzRun.dirty.any (fun e => e.1 == t) then s else
    let (v, a) := s.draw
    a.writeDump t (l.filter (fun e => decide (e.2 < v % (ceilDiv n 28 + 1) * 28)))
  let kept := ((s1.thisDump t).map (fun d => unitCount (d.pages.map (·.page)))).getD 0
  { s1 with frzRun := { s1.frzRun with
    ended := s1.frzRun.ended ++ [(t, s1.freezeMs)]
    outcome := s1.frzRun.outcome ++ [(t, 2)]
    unitsLost := s1.frzRun.unitsLost + (unitCount ps - kept) } }

/-- Every tile has come to its end, 2 s have passed since the trigger, or the bank has collapsed. -/
def State.mayCut (s : State) : Bool :=
  s.everyTile (fun t => s.frz t == .sealed || s.frz t == .collapsed) || decide (s.frzRun.since + 2000000 ≤ s.now) ||
  s.anyTile (fun t => s.frz t == .collapsed && !s.flag t AON.STATUS.ABOVE_EMERG)

/-- RAILS_REMOVED: the sequence number moves on; the reset source is kept for the BOOT that follows (Table 13.1). -/
def execRailsRemoved (s : State) : Host.Outcome State Fault Refusal :=
  .next (if s.dstate == .freeze && s.mayCut then
    let s1 := s.allTiles (fun t a => a.endUnsealed t)
    { s1 with nv := { s1.nv with frzSeq := (s1.nv.frzSeq + 1) % 2 ^ 32 }
              frzRun := { s1.frzRun with
                pendingReport := true
                resetSource := if s1.frzRun.resetSource = 0 && s1.pow.mains then 3 else s1.frzRun.resetSource } }.railsOff
  else s)

/-- COLD_BOOT -/
def execColdBoot (s : State) : Host.Outcome State Fault Refusal := .next s.coldBoot

/-! ### FAULT (R18, R22) -/

/-- FAULT_ENTRY: a FAULT cause of Table 12.6 arises at a tile; a tile lost takes no part in a Freeze. -/
def execFaultEntry (tile cause : Nat) (s : State) : Host.Outcome State Fault Refusal :=
  onTile tile s (if 8 ≤ cause && cause < 16 then
    (if cause = 9 then { s with boot := { s.boot with lost := s.boot.lost.filter (fun t => t != tile) ++ [tile] } } else s).enterFault cause
  else s)

/-- The feed tiles whose live streams pass a hop. -/
def State.feedsOver (s : State) (h : Nat × Nat) : List Nat :=
  ((s.feed.streams.filter (fun x => x.live && (s.homeTiles x.cfg).any (fun t => (s.meshRoute t (feedTileOf x.cfg.num)).contains h))).map
    (fun x => feedTileOf x.cfg.num)).dedup

/-- LINK_RETIRED: one of the links between two tiles goes, both directions, until the next boot (R18). -/
def execLinkRetired (tile peer : Nat) (s : State) : Host.Outcome State Fault Refusal :=
  onTile tile s
    (if s.hopLinks tile peer = 0 then s else
     let more := fun (l : List (Nat × Nat)) (k : Nat) => amapSet 0 l k (amapGet 0 l k + 1)
     let s1 := (s.updFeed (fun f => { f with hops := more (more f.hops (tile * 8 + peer)) (peer * 8 + tile) })).recOpen tile 0x01 peer
     if !s1.meshWhole then s1.enterFault 8 else
     [(tile, peer), (peer, tile)].foldl (fun a h =>
       if a.hopLimit h < a.hopAdmitted h then (a.feedsOver h).foldl (fun b t => b.evRec t FED.EVENTS.PATH_DEGRADED peer) a else a) s1)

end Sys2Proof.Machine
end

