-- ==== Sys2Proof/Machine/Network.lean ====
section
/-! DEFINITION. The network and transport commands (R206, R234, Table 8.15). -/

namespace Sys2Proof.Machine

/-! ### Port settings -/

/-- A port's new mode and enabled logical ports act: a change of mode retrains the port and ends the QPs of logical ports that disappear
(Table 8.9); a logical port no longer enabled loses its link. -/
def State.portTake (s : State) (t port old mode en : Nat) : State :=
  let s2 := if old = mode then s else s.ev t (ETH.EVENTS.MODE_CHANGE.inst port)
  (List.range 4).foldl (fun a lp =>
    let b := if old != mode || !en.testBit lp then a.linkDown t port lp else a
    if modePorts mode ≤ lp then (b.boundTo t port lp).foldl (fun c q => c.qpError q.qpn 4 q.epsn) b else b) s2

/-- A port takes a mode, its enabled logical ports and its largest MTU, and stores them. -/
def State.setPort (s : State) (t port mode en mtu : Nat) : State :=
  let s1 := ((s.config t (ETH.CFG.MODE.inst port) mode).config t (ETH.CFG.LPORT_EN.inst port) en).config t (ETH.CFG.MTU.inst port) mtu
  s1.portTake t port (s.fld t (ETH.CFG.MODE.inst port)) mode en

/-- Whether a mode removes a logical port to which a QP is bound. -/
def State.modeDrops (s : State) (t port mode : Nat) : Bool :=
  (s.tileQps t).any (fun q => qpPort q.qpn == port && decide (modePorts mode ≤ q.lport))

/-- The weights of the weighted classes sum to 100 (R206). -/
def etsOk (strict : Nat) (bw : List Nat) : Bool :=
  ((bw.zipIdx.filter (fun e => !strict.testBit e.2)).map (·.1)).sum == 100

/-! ### Commands -/

/-- The first two bytes of a payload name a tile and a port that exist. -/
def portArg (s : State) (pl : List Byte) : Bool := decide (natAt pl 0 1 < s.tiles) && decide (natAt pl 1 1 < 2)

/-- One port in NET_STATUS. -/
def State.portStatus (s : State) (t port : Nat) : List Byte :=
  let g := fun (f : Fld) => s.fld t (f.inst port)
  let a := fun (lp k : Nat) => (s.cfg (addrItem t port lp k)).getD 0
  leBytes 1 t ++ leBytes 1 port ++ leBytes 1 (g ETH.CFG.MODE) ++ leBytes 1 (g ETH.STATUS.LINK_UP) ++ leBytes 1 (g ETH.CFG.LPORT_EN) ++
  leBytes 1 (g ETH.CFG.MTU) ++ leBytes 1 (g ETH.STATUS.RX_XOFF) ++ leBytes 1 (g ETH.STATUS.TX_PAUSED) ++ leBytes 1 (g ETH.PFC.LOSSLESS) ++
  leBytes 1 (g ETH.PFC.HEADROOM) ++ leBytes 1 (g ETH.PFC.WATCHDOG_MS) ++ leBytes 1 (g ETH.ETS_STRICT.STRICT) ++
  (List.range 8).flatMap (fun c => leBytes 1 (s.fld t (etsFld port c))) ++
  [ETH.RX_FRAMES.COUNT, ETH.TX_FRAMES.COUNT, ETH.RX_FCS_ERR.COUNT, ETH.RX_ICRC_ERR.COUNT, ETH.PFC_RX.COUNT, ETH.PFC_TX.COUNT,
   ETH.RX_DROP.COUNT].flatMap (fun f => leBytes 4 (g f)) ++
  (List.range 4).flatMap (fun lp => leBytes 16 (a lp 0) ++ leBytes 16 (a lp 1) ++ leBytes 8 (a lp 2) ++ leBytes 8 (s.unitMac t port lp))

/-- NET_STATUS -/
def cmdNetStatus : Cmd := readCmd 0x0020 .reading noArgs
  (fun _ _ s => .reply s (buildWithList [] 240 ((List.range s.tiles).flatMap (fun t => [0, 1].map (fun p => s.portStatus t p)))))

/-- NET_PORT_SET: tile, port, MODE, LPORT_EN, MTU, FORCE. -/
def cmdNetPortSet : Cmd := actCmd 0x0021 [2] .config
  (fun s pl => match parse339 [1, 1, 1, 1, 1, 1] pl with
    | some [_, _, m, en, mtu, force] => portArg s pl && decide (m < 3) && decide (en < 16) && decide (mtu < 3) && decide (force < 2)
    | _ => false)
  (fun _ pl s =>
    let f := fieldAt [1, 1, 1, 1, 1, 1] pl
    if s.modeDrops (f 0) (f 1) (f 2) && f 5 == 0 then .done s .busy else .done (s.setPort (f 0) (f 1) (f 2) (f 3) (f 4)) .ok)

/-- The fields of NET_ADDR_SET: tile, port, logical port, unit address, service address, service MAC, VLAN, the DSCP table. -/
def addrSizes : List Nat := [1, 1, 1, 16, 16, 8, 2] ++ List.replicate 8 8

/-- NET_ADDR_SET -/
def cmdNetAddrSet : Cmd := actCmd 0x0022 [2] .config
  (fun s pl =>
    let f := fieldAt addrSizes pl
    (parse339 addrSizes pl).isSome && portArg s pl && decide (f 2 < 4) && decide (f 5 < 2 ^ 48) && decide (f 6 < 4096) &&
    (List.range 64).all (fun i => decide (f (7 + i / 8) / 256 ^ (i % 8) % 256 < 8)))
  (fun _ pl s =>
    let f := fieldAt addrSizes pl
    let s1 := (List.range 4).foldl (fun a k => a.setCfg (addrItem (f 0) (f 1) (f 2) k) (f (3 + k))) s
    .done ((List.range 64).foldl (fun a i => a.setCfg (cfgItem (f 0) (4096 + f 1 * 64 + i)) (f (7 + i / 8) / 256 ^ (i % 8) % 256)) s1) .ok)

/-- The fields of NET_DCB_SET: tile, port, LOSSLESS, HEADROOM, WATCHDOG_MS, STRICT, eight weights, ROCE_PCP, CNP_PCP, ROCE_DSCP, CNP_DSCP. -/
def dcbSizes : List Nat := List.replicate 18 1

/-- The weights of a NET_DCB_SET. -/
def dcbWeights (pl : List Byte) : List Nat := (List.range 8).map (fun c => fieldAt dcbSizes pl (6 + c))

/-- NET_DCB_SET -/
def cmdNetDcbSet : Cmd := actCmd 0x0023 [2] .config
  (fun s pl =>
    let f := fieldAt dcbSizes pl
    (parse339 dcbSizes pl).isSome && portArg s pl && f 4 != 0 && etsOk (f 5) (dcbWeights pl) && decide (f 14 < 8) &&
    decide (f 15 < 8) && decide (f 16 < 64) && decide (f 17 < 64))
  (fun _ pl s =>
    let f := fieldAt dcbSizes pl
    let set := fun (a : State) (e : Fld × Nat) => a.config (f 0) (e.1.inst (f 1)) e.2
    let s1 := [(ETH.PFC.LOSSLESS, f 2), (ETH.PFC.HEADROOM, f 3), (ETH.PFC.WATCHDOG_MS, f 4), (ETH.ETS_STRICT.STRICT, f 5),
      (ETH.PRIO.ROCE_PCP, f 14), (ETH.PRIO.CNP_PCP, f 15), (ETH.PRIO.ROCE_DSCP, f 16), (ETH.PRIO.CNP_DSCP, f 17)].foldl set s
    .done ((List.range 8).foldl (fun a c => a.config (f 0) (etsFld (f 1) c) (f (6 + c))) s1) .ok)

/-- The fields of RMA_CONFIG: QP_LIMIT of eight tiles (0 for an absent one), capsule store in MiB, PULL_KB, MAX_KB, ACTIVE_US, CNP_EN,
CNP_GAP_US, ERR_HOLD_S. -/
def rmaSizes : List Nat := List.replicate 8 4 ++ [4, 2, 2, 2, 1, 1, 1]

/-- RMA_CONFIG: the limits act at the next start-up, the rest at once. -/
def cmdRmaConfig : Cmd := actCmd 0x0024 [2] .config
  (fun s pl =>
    let f := fieldAt rmaSizes pl
    (parse339 rmaSizes pl).isSome && decide (((List.range s.tiles).map f).sum ≤ 1048576) &&
    (List.range 8).all (fun t => decide (t < s.tiles) || f t == 0) && decide (4 ≤ f 10) && decide (f 10 ≤ 4096) && f 10 % 4 == 0 &&
    f 11 != 0 && decide (f 12 < 2) && f 14 != 0)
  (fun _ pl s =>
    let f := fieldAt rmaSizes pl
    let s1 := s.allTiles (fun t a => (a.setCfg (cfgKey t RMA.QP_LIMIT.LIMIT) (f t)).setCfg (cfgItem t 5) (f 8))
    let s2 := [(RMA.BUF_POOL.PULL_KB, f 9), (RMA.WIN.MAX_KB, f 10), (RMA.WIN.ACTIVE_US, f 11), (RMA.CTRL.CNP_EN, f 12),
      (RMA.CTRL.CNP_GAP_US, f 13), (RMA.CTRL.ERR_HOLD_S, f 14)].foldl (fun a e => a.configAll e.1 e.2) s1
    .done (s2.allTiles (fun t a => a.rebook t)) .ok)

/-- The role that owns a QP (R239): operator for a data QP, that of the open session for a management QP. -/
def State.qpRole (s : State) (q : Qp) : Nat := if q.kind = 0 then 1 else ((s.sessionAt q.mb).map (·.role)).getD 0

/-- QP_LIST: from a QPN on, as many as a payload holds. -/
def cmdQpList : Cmd := readCmd 0x0025 .reading
  (fun _ pl => pl.isEmpty || (parse339 [4] pl).isSome)
  (fun _ pl s => .reply s (buildWithList [] 24 (((s.net.qps.filter (fun q => !q.shadow && decide (natAt pl 0 4 ≤ q.qpn))).take 170).map
    (fun q => build339 [(4, q.qpn), (1, q.kind), (1, q.st), (1, s.qpRole q), (16, leNat (beBytes 16 q.gid))]))))

/-- QP_INFO: PSNs, credits, window, unacknowledged bytes, counts of what is queued. -/
def cmdQpInfo : Cmd := readCmd 0x0026 .reading
  (fun s pl => (parse339 [4] pl).isSome && (s.qp (natAt pl 0 4)).isSome)
  (fun _ pl s => match s.qp (natAt pl 0 4) with
    | some q => .reply s (build339 [(4, q.epsn), (4, q.acked), (4, q.spsn), (4, q.una), (1, s.ackSyn q), (1, q.hostCredit), (4, q.window),
        (4, q.unacked), (2, q.caps.length), (2, q.reqs.length), (2, q.sent.length), (2, q.ring.length)])
    | none => .done s .badArg)

/-- QP_KILL: a QP in RTS goes to ERROR. -/
def cmdQpKill : Cmd :=
  { actCmd 0x0027 [2] .config (fun s pl => (parse339 [4] pl).isSome && (s.qp (natAt pl 0 4)).isSome)
      (fun _ pl s => .done (s.qpError (natAt pl 0 4) 3 (((s.qp (natAt pl 0 4)).map (·.epsn)).getD 0)) .ok) with
    ready := fun s pl => ((s.qp (natAt pl 0 4)).map (·.st)) == some 2 }

/-- NET_STATUS -/
def execNetStatus (f : Frame) (s : State) : Host.Outcome State Fault Refusal := .next (mailbox cmdNetStatus f s)

/-- NET_PORT_SET -/
def execNetPortSet (f : Frame) (s : State) : Host.Outcome State Fault Refusal := .next (mailbox cmdNetPortSet f s)

/-- NET_ADDR_SET -/
def execNetAddrSet (f : Frame) (s : State) : Host.Outcome State Fault Refusal := .next (mailbox cmdNetAddrSet f s)

/-- NET_DCB_SET -/
def execNetDcbSet (f : Frame) (s : State) : Host.Outcome State Fault Refusal := .next (mailbox cmdNetDcbSet f s)

/-- RMA_CONFIG -/
def execRmaConfig (f : Frame) (s : State) : Host.Outcome State Fault Refusal := .next (mailbox cmdRmaConfig f s)

/-- QP_LIST -/
def execQpList (f : Frame) (s : State) : Host.Outcome State Fault Refusal := .next (mailbox cmdQpList f s)

/-- QP_INFO -/
def execQpInfo (f : Frame) (s : State) : Host.Outcome State Fault Refusal := .next (mailbox cmdQpInfo f s)

/-- QP_KILL -/
def execQpKill (f : Frame) (s : State) : Host.Outcome State Fault Refusal := .next (mailbox cmdQpKill f s)

end Sys2Proof.Machine
end

