-- ==== Sys2Proof/Machine/TwinRole.lean ====
section
/-! DEFINITION. The twin roles: loss of the partner, standing alone, resynchronisation, takeover and the orderly swap (R273, R274,
R280, R284, R285, R287 to R293). -/

namespace Sys2Proof.Machine

/-- A TWIN_FAULT notification: cause (0 interlock fault, 1 path lost, 2 pairing refused, 3 partner silent while active; DEDUCED, log entry 13), code. -/
def State.twinFault (s : State) (cause code : Nat) : State := s.notify 0x05F1 (build339 [(1, cause), (1, code)])

/-- The detection time, µs (R284). -/
def State.detectUs (s : State) : Nat := s.fld 0 TWA.CTRL.DETECT * 100

/-- The partner's role as it last said it. -/
def State.partnerRole (s : State) : TRole := TRole.ofCode (s.fld 0 TWA.STATUS.PARTNER_ROLE)

/-- The unit is one of a pair. -/
def State.inPair (s : State) : Bool := s.flag 0 TWA.CTRL.PAIR_EN

/-- An empty shadow context. -/
def Qp.blank (n now : Nat) : Qp :=
  { qpn := n, kind := 0, mb := 0, lport := 0, st := 1, shadow := true, unitAddr := false, rqpn := 0, gid := 0, mtu := 0, epsn := 0, spsn := 0,
    una := 0, nakSent := false, acked := 0, retry := 0, rnrRetry := 0, ackTimeout := 0, retriesLeft := 0, rnrLeft := 0, sentAt := 0, respRes := 0,
    hostCredit := 31, window := 0, winVa := 0, winKey := 0, lastWrite := none, unacked := 0, committed := 0, reqs := [], caps := [], capPsn := 0,
    frame := [], sent := [], rnrWait := false, ring := [], cplQ := [], atomics := [], localFlag := false, rate := 0, cnpAt := none,
    cnpRxAt := none, opened := now, errAt := none, dreq := false, settled := false, violTold := false, cached := false, lastUse := 0 }

/-- What is held of a shadow context goes: its queue, its records, its capsules noted as started. -/
def State.dropShadow (s : State) (n : Nat) : State :=
  s.updNet (fun x => { x with qps := x.qps.filter (fun q => !(q.qpn == n && q.shadow))
                              execs := x.execs.filter (fun e => (e.src.psnOn n).isNone) })

/-- Valid words within DETECT, and valid HEARTBEAT frames on every tile within DETECT (Table 10.9). -/
def State.hbLvds (s : State) : Bool := s.twin.lastWord.isSome && decide (s.now < s.twin.lastWordAt + s.detectUs)

def State.hbLink (s : State) : Bool := s.everyTile (fun t => (s.twl t).lastHb.any (fun a => decide (s.now < a + s.detectUs)))

/-! ### Becoming SOLO -/

/-- Responses held for the partner leave (R338). -/
def State.releaseHeld (s : State) : State :=
  s.mb.held.foldl (fun a h => a.respond h.point h.bytes) { s with mb := { s.mb with held := [] } }

/-- Writes that wait for C2 complete at C1 (Table 10.4); nothing waits for the partner any more. -/
def State.completeAtC1 (s : State) : State :=
  (s.updNet (fun n => { n with
    portions := n.portions.map (fun p => if p.st == .applied then { p with st := .reached } else p)
    execs := n.execs.map (fun e => { e with seqs := [] }) })).settleAll.releaseHeld

/-- The unit becomes SOLO (R274): epoch advanced, `TW_ACTO` high where the guard allows. -/
def State.goSolo (s : State) (why : Nat) : State := ((s.setRole .solo why).advanceEpoch).raiseActo

/-- An ACTIVE unit becomes SOLO. R290: the bits of atomic units whose portions the partner has not acknowledged are set. -/
def State.standAlone (s : State) (why : Nat) : State := (s.divergeUnacked.completeAtC1).goSolo why

/-! ### Loss of the partner (R284, R290) -/

/-- A partner that is lost, or not heard, while `TW_ACTI` is high (R285): recorded once. -/
def State.silentActive (s : State) : State :=
  if s.twin.silentTold then s else
  ((s.updTwin (fun x => { x with silentTold := true })).evRec 0 TWA.EVENTS.PARTNER_SILENT_ACTIVE 0).twinFault 3 0

/-- The partner is declared lost: every divergence bit is set, whatever the role; an ACTIVE unit becomes SOLO, unless it is leaving in an orderly
swap. -/
def State.loseOn (s : State) : State :=
  let s1 := ((s.updTwin (fun x => { x with lost := true, lostAt := s.now, left := false, goodSince := none, mismatchSince := none })).evRec 0
    TWA.EVENTS.PARTNER_LOST 0).divergeAll
  match s1.role with
  | .active => if 2 ≤ s1.twin.swap then s1 else s1.standAlone 1
  | .standby => if s1.flag 0 TWA.STATUS.ACTI then s1.silentActive else s1
  | .syncing => (s1.updTwin (fun x => { x with resync := 0, seen := [], planIn := none })).named 0 0x29 0x0100 4 0
  | .solo => s1.stopResync
  | .none => s1

/-- PARTNER_LOST: no valid heartbeat on either path for the detection time. -/
def execPartnerLost (s : State) : Host.Outcome State Fault Refusal :=
  .next (if !s.twin.lost && decide (s.twin.lastWordAt + s.detectUs ≤ s.now) &&
      s.everyTile (fun t => (s.twl t).lastHb.all (fun a => decide (a + s.detectUs ≤ s.now))) then s.loseOn else s)

/-- A DEPART has come on either path (R284): `TW_HBRX` at tile 0, or a HEARTBEAT frame of tile t. -/
def State.departHeard (s : State) (t : Nat) : State :=
  let s1 := s.ev t TWA.EVENTS.DEPART_RX
  if s1.twin.lost then s1 else s1.loseOn

/-- PATH_LOST: one of the two paths alone has been silent for the detection time. -/
def execPathLost (s : State) : Host.Outcome State Fault Refusal :=
  let wordOld := decide (s.twin.lastWordAt + s.detectUs ≤ s.now)
  let linkOld := s.everyTile (fun t => (s.twl t).lastHb.all (fun a => decide (a + s.detectUs ≤ s.now)))
  .next (if !s.twin.lost && !s.twin.pathTold && wordOld != linkOld then
    ((s.updTwin (fun x => { x with pathTold := true })).evRec 0 TWA.EVENTS.PATH_LOST (b2n linkOld)).twinFault 1 (b2n linkOld) else s)

/-! ### Resynchronisation (R291) -/

/-- What a resynchronisation sends of a data QP: its context, queued capsules, capsules in execution, records not yet acknowledged. -/
def State.sendQpState (s : State) (q : Qp) : State :=
  let t := qpTile q.qpn
  let s1 := s.mirrorQp q.qpn
  let s2 := (s.net.execs.filter (fun e => match e.src with
    | .qp n _ => n == q.qpn
    | _ => false)).foldl (fun a e =>
      let p := e.src.fields.2
      (a.mirrorItem t 0x04 (leBytes 4 q.qpn ++ leBytes 4 p ++ e.bytes)).mirrorItem t 0x06 (leBytes 4 0 ++ leBytes 4 q.qpn ++ leBytes 4 p ++ leBytes 4 0)) s1
  let s3 := q.caps.foldl (fun a c => a.mirrorItem t 0x04 (leBytes 4 q.qpn ++ leBytes 4 c.psn ++ c.bytes)) s2
  q.ring.foldl (fun a e => a.mirrorItem t 0x05 (leBytes 4 q.qpn ++ leBytes 4 e.1 ++ e.2)) s3

/-- The state of a chain queue with its descriptors. -/
def State.sendChain (s : State) (c : Chain) : State :=
  let t := c.num % s.tiles
  let s1 := s.mirrorItem 0 0x11 (leBytes 8 3 ++ leBytes 2 c.num ++ leBytes 1 c.st ++ leBytes 1 c.owner ++ leBytes 1 (b2n c.hostAccess) ++
    leBytes 3 0 ++ leBytes 4 c.count ++ leBytes 4 0)
  let put := fun (a : State) (d : Desc) => a.mirrorItem t 0x07
    (leBytes 2 c.num ++ leBytes 1 0 ++ leBytes 1 0 ++ leBytes 4 c.count ++ leBytes 4 d.enqQpn ++ leBytes 4 0 ++ d.bytes)
  let s2 := match c.running with
    | some d => (put s1 d).mirrorItem t 0x06 (leBytes 4 1 ++ leBytes 4 c.num ++ leBytes 4 d.idx ++ leBytes 4 0)
    | none => s1
  c.ring.foldl put s2

/-- A plan and the states of its orders. -/
def State.sendPlan (s : State) (p : Plan) : State :=
  p.orders.foldl (fun a o => a.mirrorOrder p.id o.id o.st)
    (s.mirrorItem 0 0x11 (leBytes 8 2 ++ leBytes 8 p.id ++ leBytes 4 0 ++ leBytes 4 p.file.length ++ leBytes 1 (b2n p.active) ++ leBytes 7 0 ++ p.file))

/-- Revocations and moves in progress, as the partner would have heard of them: the commands again, with the key that a rekey will bring, and the
starts. -/
def State.sendPending (s : State) : State :=
  let s1 := s.ams.revokes.foldl (fun a v =>
    match a.mb.deferred.find? (fun d => d.region == v.region && d.cause == v.cause) with
    | none => a
    | some d =>
      let b := (a.mirrorCommand d.frame d.role ((d.session.map (·.2)).getD 0)).2
      match b.regionNum v.region with
      | some r => if v.cause = 0 && v.phase != 2 then b.mirrorItem 0 0x11 { r with gen := (r.gen + 1) % 256, tag := v.newTag }.stateBody else b
      | none => b) s
  s1.ams.moves.foldl (fun a m => a.mirrorItem (a.homeTile m.ext) 0x0B (moveBody m.ext 0 m.req)) s1

/-- Step 1: region table, home map, plans, order states, chain queues, epoch, contexts of data QPs, what is in progress, the end of the state. -/
def State.startResync (s : State) : State :=
  let s1 := s.updTwin (fun x => { x with resync := 1, left := false })
  let s2 := s1.ams.regions.foldl (fun a r => a.mirrorRegion r.num) s1
  let s3 := s2.ams.homes.foldl (fun a e => a.mirrorHome e.1) s2
  let s4 := s3.ams.plans.foldl State.sendPlan s3
  let s5 := s4.net.chains.foldl State.sendChain s4
  let s6 := s5.mirrorItem 0 0x0E (leBytes 8 s5.epoch)
  let s7 := (s6.net.qps.filter (fun q => q.kind == 0)).foldl State.sendQpState s6
  s7.sendPending.mirrorItem 0 0x11 (leBytes 8 4)

/-- A SOLO unit with a paired SYNCING partner starts a resynchronisation (Table 10.4), unless TWIN_LEAVE stands (R412, note). -/
def State.tryResync (s : State) : State :=
  if s.role == .solo && s.dstate == .service && s.twin.resync == 0 && !s.twin.left && !s.twin.lost && s.fld 0 TWA.STATUS.REFUSE == 0 &&
      s.partnerRole == .syncing && s.everyTile (fun t => s.linkReady t) then s.startResync else s

/-- The extents of a tile with a nonzero divergence word, in frame order. -/
def State.divergent (s : State) (t : Nat) : List Nat :=
  (((s.twin.diverge.filter (fun e => e.2 != 0 && s.classAt (e.1 * 2 ^ 21) == 2)).filterMap (fun e => match s.homeOf e.1 with
    | some h => if h.tile = t then some (h.frame, e.1) else none
    | none => none)).mergeSort (fun a b => decide (a.1 ≤ b.1))).map (·.2)

/-- The poison mask of a page: bit i for its range i (Table 10.17). -/
def State.poisonMask (s : State) (p : Nat) : Nat :=
  ((s.maskOf p).map (fun e => 2 ^ e.1)).sum

/-- A page as it travels: the first bytes of a poisoned range hold its error identifier. -/
def State.pageOut (s : State) (p : Nat) (bs : List Byte) : List Byte :=
  (List.range 32).flatMap (fun i =>
    let r := bytesAt bs (128 * i) 128
    match (s.maskOf p).find? (fun e => e.1 == i) with
    | some e => leBytes 4 e.2 ++ r.drop 4
    | none => r)

/-- A snapshot of an atomic unit is captured and sent; its bit is cleared (R291 step 2). -/
def State.sendSnapshot (s : State) (t u : Nat) : State :=
  let ps := (List.range 16).map (fun i => u * 16 + i)
  let isBorn := fun (p : Nat) => s.firn.born.contains p
  let (bs, s1) := s.readAms t false (u * 65536) 65536
  let mask := ((List.range 16).map (fun i => if isBorn (u * 16 + i) then 2 ^ i else 0)).sum
  let data := (List.range 16).flatMap (fun i => if isBorn (u * 16 + i) then s.pageOut (u * 16 + i) (bytesAt bs (4096 * i) 4096) else [])
  let s2 := s1.mirrorItem t 0x10 (leBytes 8 (u * 65536) ++ leBytes 2 mask ++ leBytes 6 0 ++
    ps.flatMap (fun p => leBytes 4 (if isBorn p then s.poisonMask p else 0)) ++ data)
  let s3 := (s2.setDivBit u false).bump t MIR.SNAPSHOTS.COUNT 1
  if (s3.divergent t).isEmpty then s3.ev t MIR.EVENTS.RESYNC_DONE else s3

/-- The lowest set bit of a divergence word. -/
def lowBit (w : Nat) : Nat := ((List.range 32).find? (fun i => w.testBit i)).getD 0

/-- RESYNC_SNAPSHOT: of the next set bit of a tile, once its pages can be read. -/
def execResyncSnapshot (tile : Nat) (s : State) : Host.Outcome State Fault Refusal :=
  onTile tile s (if s.role != .solo || s.twin.resync = 0 || s.dstate != .service then s else
    match s.divergent tile with
    | e :: _ =>
      let u := e * 32 + lowBit (s.divWord e)
      let s0 := s.probe (u * 65536) 65536
      if s0.pagesReady (u * 65536) 65536 then s0.sendSnapshot tile u else s0
    | [] => s)

/-- RESYNC_COMPLETE: every word 0, every frame acknowledged: the SOLO unit becomes ACTIVE. -/
def execResyncComplete (s : State) : Host.Outcome State Fault Refusal :=
  .next (if s.role == .solo && s.twin.resync != 0 && s.dstate == .service && s.partnerRole == .syncing &&
      s.everyTile (fun t => (s.divergent t).isEmpty && (s.twl t).unacked.isEmpty && (s.twl t).queue.isEmpty && s.linkReady t) then
    ((s.updTwin (fun x => { x with diverge := [] })).setRole .active 7).advanceEpoch else s)

/-- The unit becomes SYNCING: what it did as STANDBY or ACTIVE ends, and a new resynchronisation is awaited. -/
def State.goSyncing (s : State) (why : Nat) : State :=
  (((s.abandonMoves.dropData).setRole .syncing why).updTwin (fun x => { x with
    resync := 0
    seen := []
    planIn := none
    swap := 0
    finalSeen := false })).updAms (fun m => { m with revokes := [] })

/-- A SYNCING unit that the ACTIVE calls in step becomes STANDBY; a RESTRICTED one stays SYNCING (R294). -/
def State.goStandby (s : State) (why : Nat) : State :=
  if s.dstate == .service then
    let stale := (s.net.qps.filter (fun q => q.shadow && !s.twin.seen.contains (5, q.qpn))).map (·.qpn)
    ((stale.foldl State.dropShadow s).setRole .standby why).updTwin (fun x => { x with diverge := [], finalSeen := false, swap := 0, seen := [] })
  else s

/-! ### Takeover (R287, R288) -/

/-- A capsule or descriptor that was in progress starts again from its beginning (R265, R287). -/
def State.runAgain (s : State) (e : Exec) : State :=
  let s1 := s.updNet (fun n => { n with execs := n.execs.filter (fun y => y.src != e.src)
                                        portions := n.portions.filter (fun p => !(p.src == e.src && p.capsule)) })
  let (s2, seq) := s1.mirrorStart e.src
  let f := { e.fresh with seqs := if s2.role == .active && capOp e.bytes == 3 && s2.classAt (capAddr e.bytes) == 2 then
    [(e.src.tile s.tiles, seq)] else [] }
  if capEnqueue e.bytes && e.enqQpn != 0 && (match e.src with
    | .qp _ _ => true
    | _ => false) then s2.startEnqueue f else s2.beginExec f

/-- The capsules of a QP, or the descriptors, noted as in execution, in the order of their starts. -/
def State.noted (s : State) (qpn : Option Nat) : List Exec :=
  s.net.execs.filter (fun e => match e.src, qpn with
    | .qp n _, some m => n == m
    | .desc _ _, none => true
    | _, _ => false)

/-- A shadow context is resumed: released in CONNECTING, ERROR with LOCAL (R280), else served from its mirrored PSNs; records that the host has not
acknowledged are sent again, capsules in execution start again. -/
def State.resumeQp (s : State) (q : Qp) : State :=
  if !q.shadow then s
  else if q.st = 1 then s.qpFree q.qpn
  else
    let s1 := (s.updQp q.qpn (fun x => { x with
      shadow := false
      spsn := if x.st = 2 then x.una else x.spsn
      sent := []
      reqs := []
      cplQ := x.ring.map (·.2) ++ x.cplQ
      ring := []
      retriesLeft := x.retry
      rnrLeft := x.rnrRetry
      errAt := if x.st = 4 then some s.now else none })).bump (qpTile q.qpn) RMA.QP_COUNT.CONNECTED 1
    if q.st != 2 then s1
    else if q.localFlag then s1.qpError q.qpn 5 q.epsn
    else ((s1.noted (some q.qpn)).foldl State.runAgain (s1.pumpQp q.qpn)).mirrorQp q.qpn

/-- Gratuitous ARP or unsolicited neighbour advertisements of the service addresses on every logical port in service (R287 step 6). -/
def State.announce (s : State) : State :=
  s.allTiles (fun t a => (List.range 2).foldl (fun b p => (List.range 4).foldl (fun c lp =>
    if (c.fld t (ETH.STATUS.LINK_UP.inst p)).testBit lp then c.xmit t p 0 (.eth t p 3 lp (c.addrBytes t p lp true)) else c) b) a)

/-- R287 steps 1 to 6; a revocation that the partner left unfinished goes on here; `inStep` with the final SWAP record: ACTIVE at once, divergence bits clear (R293 step 5). -/
def State.takeOver (s : State) (inStep : Bool) : State :=
  let s1 := (s.driveActo true).updTwin (fun x => { x with
    swap := 0
    finalSeen := false
    diverge := if inStep then [] else x.diverge
    tiles := x.tiles.map (fun y => { y with part := none }) })
  let s2 := (((if inStep then s1.setRole .active 4 else s1.setRole .solo 5).advanceEpoch).bump 0 TWA.TAKEOVERS.COUNT 1)
  let s3 := s2.net.qps.foldl State.resumeQp s2
  let s4 := s3.abandonMoves.reissueOrders
  let s5 := (s4.noted none).foldl State.runAgain s4
  (s5.beginRevoke.announce).updTwin (fun x => { x with announceLeft := 2 })

/-- Whether every record fully received has been applied (R287 step 2). -/
def State.streamsApplied (s : State) : Bool := s.everyTile (fun t => (s.twl t).items.isEmpty)

/-- An interlock fault latched on this unit, or on the partner as it last said (R286). -/
def State.anyIfault (s : State) : Bool := s.flag 0 TWA.STATUS.IFAULT || s.twin.lastWord.any (fun w => w.testBit 22)

/-- The interlock check passed during the last detection time before the partner fell silent (R285). -/
def State.goodAtLoss (s : State) : Bool :=
  match s.twin.lastGood with
  | some g => decide (max s.twin.lastWordAt g ≤ g + s.detectUs)
  | none => false

/-- Whether the STANDBY may take over now (R285); in an orderly swap that it asked for, once the final SWAP record has come (R293). -/
def State.mayTakeOver (s : State) : Bool :=
  s.role == .standby && s.dstate == .service && s.twin.lost && s.guardMet && s.twin.leaseOk && s.pow.target == 0 && s.streamsApplied &&
  (if s.twin.swap = 1 then s.twin.finalSeen else !s.anyIfault && s.goodAtLoss)

/-- TAKEOVER -/
def execTakeover (s : State) : Host.Outcome State Fault Refusal := .next (if s.mayTakeOver then s.takeOver s.twin.finalSeen else s)

/-- SERVICE_ANNOUNCE_REPEAT -/
def execServiceAnnounceRepeat (s : State) : Host.Outcome State Fault Refusal :=
  .next (if s.twin.announceLeft != 0 && s.serving then s.announce.updTwin (fun x => { x with announceLeft := x.announceLeft - 1 }) else s)

/-! ### Orderly swap (R292, R293) -/

/-- The pair is in step, no interlock fault is latched and no revocation runs. -/
def State.maySwap (s : State) : Bool :=
  (s.role == .active || s.role == .standby) && s.dstate == .service && s.flag 0 TWA.STATUS.IN_STEP && !s.anyIfault && !s.twin.lost &&
  s.ams.revokes.isEmpty && s.twin.swap == 0 && s.everyTile (fun t => s.linkReady t)

/-- The drained ACTIVE sends the contexts of its data QPs and the final SWAP record. -/
def State.swapProceed (s : State) : State :=
  if s.twin.swap = 2 && !s.net.portions.any (fun p => (p.st == .admitted && p.arrived) || p.st == .applied) then
    let s1 := (s.net.qps.filter (fun q => q.kind == 0)).foldl (fun a q => a.mirrorQp q.qpn) s
    let (s2, n) := s1.emit 0 0x0F (leBytes 8 2)
    s2.updTwin (fun x => { x with swap := 3, swapSeq := n, swapAt := s.now })
  else s

/-- Step 2 on the ACTIVE: `TW_ACTO` low, DEPART, its moves abandoned (R55). -/
def State.swapLeave (s : State) : State :=
  ((((s.driveActo false).depart false).abandonMoves).updTwin (fun x => { x with swap := 2, swapAt := s.now })).swapProceed

/-- Step 1 on the STANDBY: the SWAP record in its own stream. -/
def State.swapAsk (s : State) : State :=
  (s.emit' 0 0x0F (leBytes 8 1)).updTwin (fun x => { x with swap := 1, swapAt := s.now })

/-- The swap begins on this unit. -/
def State.beginSwap (s : State) : State := if s.role == .active then s.swapLeave else s.swapAsk

/-- The old ACTIVE ends its part: STANDBY with the final record acknowledged, else SYNCING (R289, R293). -/
def State.swapDone (s : State) (acked : Bool) : State :=
  let s1 := s.completeAtC1.updTwin (fun x => { x with swap := 0, lost := false })
  if acked then (s1.dropData.setRole .standby 4).updTwin (fun x => { x with diverge := [] }) else s1.goSyncing 4

/-- COMEBACK_HOLDOFF: the preferred unit has been STANDBY for HOLDOFF seconds (R292). -/
def execComebackHoldoff (s : State) : Host.Outcome State Fault Refusal :=
  .next (if s.role == .standby && s.pow.twPref && s.flag 0 TWA.CTRL.COMEBACK_EN && s.maySwap &&
      decide (s.twin.standbySince + s.fld 0 TWA.CTRL.HOLDOFF * 1000000 ≤ s.now) then s.swapAsk else s)

/-- SWAP_TIMEOUT: DETECT has passed without the final record's acknowledgement, or without the record. -/
def execSwapTimeout (s : State) : Host.Outcome State Fault Refusal :=
  .next (
    if 2 ≤ s.twin.swap then (if s.twin.swapAt + s.detectUs ≤ s.now then s.swapDone false else s)
    else if s.twin.swap = 1 && !s.twin.finalSeen && decide ((if s.twin.lost then s.twin.lostAt else s.twin.swapAt) + s.detectUs ≤ s.now) then
      s.updTwin (fun x => { x with swap := 0 })
    else s)

/-! ### Start-up role (R294) -/

/-- The role is settled. -/
def State.settleAs (s : State) (solo : Bool) : State :=
  let s1 := s.updTwin (fun x => { x with settled := true })
  if solo then (s1.goSolo 0).tryResync else s1.goSyncing 0

/-- Whether this unit wins where both are NONE: the higher epoch, then LAST_ROLE ACTIVE or SOLO, then PREF high. -/
def State.winsRole (s : State) (p : Peer) : Bool :=
  let serves := fun (r : Nat) => r == 1 || r == 3
  if s.epoch != p.epoch then decide (p.epoch < s.epoch)
  else if serves s.nv.lastRole != serves p.lastRole then serves s.nv.lastRole
  else s.pow.twPref

/-- A SOLO outcome of Table 10.7: after the guard; barred to a RESTRICTED unit and to one whose pairing was refused. -/
def State.settleSolo (s : State) (barred : Bool) : State :=
  if barred then s.settleAs false else if s.guardMet then s.settleAs true else s

/-- The first row of Table 10.7 that matches. -/
def State.settleRole (s : State) : State :=
  let barred := s.dstate == .restricted || s.fld 0 TWA.STATUS.REFUSE != 0
  let waited := decide (s.twin.helloSince + s.fld 0 TWA.HELLO_WAIT.MS * 1000 ≤ s.now)
  if !s.inPair then (if s.guardMet then s.settleAs true else s)
  else if !s.twin.lost && s.twin.lastWord.isSome then
    match s.partnerRole with
    | .active | .solo => s.settleAs false
    | .standby | .syncing => s.settleSolo barred
    | .none =>
      (match s.twin.peer with
       | some p => if s.winsRole p then s.settleSolo barred else s.settleAs false
       | none => if waited then s.settleSolo true else s)
  else if !waited then s
  else if s.flag 0 TWA.STATUS.ACTI then s.silentActive
  else s.settleSolo barred

/-- ROLE_SETTLE -/
def execRoleSettle (s : State) : Host.Outcome State Fault Refusal :=
  .next (if !s.twin.settled && (s.dstate == .service || s.dstate == .restricted) then s.settleRole else s)

end Sys2Proof.Machine
end

