-- ==== Sys2Proof/Machine/TwinLink.lean ====
section
/-! DEFINITION. The twin links: frames, pairing, heartbeats on both paths, the interlock, mirror credit, fetches, keys (R269 to R272, R276 to
R286, R297, R409 to R411). -/

namespace Sys2Proof.Machine

/-! ### Frames (R270) -/

/-- The header of a twin frame (Table 10.1) with its payload. -/
structure TwinFrame where
  type : Nat
  flags : Nat
  tile : Nat
  seq : Nat
  credit : Nat
  body : List Byte
deriving DecidableEq, Repr

/-- A frame as received by tile t; none where R270 drops it. -/
def parseTwin (t type : Nat) (bs : List Byte) : Option TwinFrame :=
  if decide (16 ≤ bs.length) && natAt bs 0 1 == type && decide (natAt bs 1 1 ≤ (if type = 0x11 then 1 else 0)) && natAt bs 2 1 == t &&
      natAt bs 0x0E 2 == 0 && natAt bs 0x0C 2 == bs.length - 16 && decide (bs.length ≤ 9016) &&
      (type == 0x10 || type == 0x11 || natAt bs 4 4 == 0) then
    some ⟨type, natAt bs 1 1, natAt bs 2 1, natAt bs 4 4, natAt bs 8 4, bs.drop 16⟩
  else none

/-- Credit that a frame returns (R278). -/
def State.takeCredit (s : State) (t c : Nat) : State :=
  if c = 0 then s else
  ((s.updTwl t (fun y => { y with grantRx := y.grantRx + c })).setF t MIR.CREDIT_AVAIL.AVAILABLE
    (min 65536 (s.fld t MIR.CREDIT_AVAIL.AVAILABLE + c))).pump t

/-- The first frame that passes its check commits the new sender's MAC and KN (R411); the link is secured in both directions. -/
def State.commitRx (s : State) (t : Nat) : State :=
  match (s.twl t).rxPend with
  | none => s
  | some (mac, kn) =>
    let s1 := { s with nv := { s.nv with rxMac := amapSet 0 s.nv.rxMac t mac, rxKn := amapSet 0 s.nv.rxKn t kn } }
    (s1.updTwl t (fun y => { y with rxPend := none })).setFs t [(BCX.RX_KN.KN, kn), (TWL.STATUS.SECURED, s1.fld t BCX.STATUS.TX_SA)]

/-- A frame of a type that has passed MACsec on tile t: dropped with FRAME_BAD where R270 says so. -/
def State.twinIn (s : State) (t type : Nat) (bs : List Byte) (ok : List Byte → Bool) (k : TwinFrame → State → State) : State :=
  let s1 := s.commitRx t
  if !s1.flag t TWL.STATUS.LINK_UP || !s1.flag t TWL.STATUS.SECURED then s else
  let s2 := (s1.updTwl t (fun y => { y with heard := true })).bump t BCX.GCM_RX.COUNT 1
  match parseTwin t type bs with
  | none => s2.ev t TWL.EVENTS.FRAME_BAD
  | some f => if ok f.body then k f (s2.takeCredit t f.credit) else s2.ev t TWL.EVENTS.FRAME_BAD

/-! ### Pairing (R271, R272) -/

/-- The HELLO of this unit (Table 10.2). -/
def State.helloBody (s : State) : List Byte :=
  leBytes 2 0xB5A9 ++ leBytes 1 1 ++ leBytes 1 1 ++ leBytes 1 s.tiles ++ leBytes 1 (natAt (s.granule 0) 6 1) ++
  leBytes 1 (b2n s.pow.twPref + 2 * b2n s.inPair + 4 * s.fld 0 TWA.STATUS.IFAULT) ++ leBytes 1 s.nv.lastRole ++ leBytes 8 s.unitId ++
  leBytes 8 (s.manifestId s.runSlot) ++ leBytes 8 s.epoch ++ leBytes 4 ((s.cfg (cfgItem 0 6)).getD 0) ++
  leBytes 1 (s.fld 0 MGT.STATE.DSTATE) ++ leBytes 27 0

/-- HELLO_SEND: on a secured link that is not paired; a unit with PAIR_EN clear says so (Table 10.3, code 9). -/
def execHelloSend (tile : Nat) (s : State) : Host.Outcome State Fault Refusal :=
  onTile tile s (if s.flag tile TWL.STATUS.LINK_UP && s.flag tile BCX.STATUS.TX_SA && !s.flag tile TWL.STATUS.PAIRED then
    s.twinSend tile 0x01 0 0 s.helloBody else s)

/-- The partner that a HELLO describes. -/
def peerOf (b : List Byte) : Peer :=
  { verMin := natAt b 2 1, verMax := natAt b 3 1, variant := natAt b 4 1, pref := (natAt b 6 1).testBit 0, pairEn := (natAt b 6 1).testBit 1,
    ifault := (natAt b 6 1).testBit 2, lastRole := natAt b 7 1, unitId := natAt b 8 8, manifest := natAt b 0x10 8, epoch := natAt b 0x18 8,
    pairId := natAt b 0x20 4 }

/-- The layout of a HELLO. -/
def helloOk (b : List Byte) : Bool :=
  b.length == 64 && natAt b 0 2 == 0xB5A9 && decide (natAt b 6 1 < 8) && decide (natAt b 7 1 < 5) && natAt b 0x25 27 == 0

/-- Whether this unit's manifest lists the partner's (R363); what the partner's own table lists is not known here. -/
def State.listsPartner (s : State) (p : Peer) : Bool := p.manifest == s.manifestId s.runSlot || (s.partners s.runSlot).contains p.manifest

/-- The lowest code of Table 10.3 that holds; `theirs`: the partner's manifest lists this unit's. -/
def State.refusalOf (s : State) (p : Peer) (theirs : Bool) : Nat :=
  if !(decide (p.verMin ≤ 1) && decide (1 ≤ p.verMax)) then 1
  else if !s.listsPartner p && !theirs then 2
  else if p.variant != s.tiles then 3
  else if s.anyTile (fun t => (s.twl t).helloTile.isSome || !s.flag t TWL.STATUS.LINK_UP) then 4
  else if p.pairId != (s.cfg (cfgItem 0 6)).getD 0 then 5
  else if p.pref == s.pow.twPref then 6
  else if p.unitId == s.unitId then 7
  else if s.anyTile (fun t => !s.flag t TWL.STATUS.SECURED) then 8
  else if !p.pairEn then 9 else 0

/-- Pairing is refused with a code (R272): event and notification once for each code; a unit that serves stays or becomes SOLO, a STANDBY becomes
SYNCING. -/
def State.refusePair (s : State) (c : Nat) : State :=
  let s1 := s.allTiles (fun t a => a.setF t TWL.STATUS.PAIRED 0)
  let s2 := if s1.fld 0 TWA.STATUS.REFUSE = c then s1 else
    ((s1.setF 0 TWA.STATUS.REFUSE c).evRec 0 TWA.EVENTS.REFUSED c).twinFault 2 c
  match s2.role with
  | .active => s2.standAlone 10
  | .solo => s2.stopResync
  | .standby => s2.goSyncing 10
  | _ => s2

/-- Pairing is accepted. -/
def State.acceptPair (s : State) : State :=
  let s1 := (s.setF 0 TWA.STATUS.REFUSE 0).updTwin (fun x => { x with version := 1 })
  (s1.allTiles (fun t a => a.setF t TWL.STATUS.PAIRED 1)).tryResync

/-- Pairing is tried with what is known of the partner. -/
def State.tryPair (s : State) : State :=
  if !s.inPair then s else
  match s.twin.peer with
  | none => if s.anyTile (fun t => (s.twl t).helloTile.isSome) then s.refusePair 4 else s
  | some p =>
    let (v, s1) := s.draw
    let c := s1.refusalOf p (v % 2 == 1)
    if c = 0 then s1.acceptPair else s1.refusePair c

/-- The tile that a whole HELLO names where it is another one: the frame is dropped (R270), and the cabling is known to be wrong. -/
def namedTile (tile : Nat) (frame : List Byte) : Option Nat :=
  let other := natAt frame 2 1
  match parseTwin other 0x01 frame with
  | some f => if helloOk f.body && other != tile then some other else none
  | none => none

/-- HELLO: tile 0's decides, those of the other tiles check the cabling. -/
def execHello (tile : Nat) (frame : List Byte) (s : State) : Host.Outcome State Fault Refusal :=
  onTile tile s
    (let s1 := s.twinIn tile 0x01 frame helloOk (fun f a =>
       if tile = 0 then a.updTwin (fun x => { x with peer := some (peerOf f.body), left := false }) else a)
     if s1.flag tile TWL.STATUS.LINK_UP && s1.flag tile TWL.STATUS.SECURED then
       (s1.updTwl tile (fun y => { y with helloTile := namedTile tile frame })).tryPair
     else s1)

/-! ### Heartbeats (R282 to R284) -/

/-- CRC-8, polynomial x^8 + x^2 + x + 1, of the most significant n bits first; the first argument counts bits left. -/
def crc8Go : Nat → Nat → Nat → Nat
  | 0, _, c => c
  | n + 1, v, c =>
    let b := (c / 128 + (v / 2 ^ n) % 2) % 2
    crc8Go n v (if b = 1 then Nat.xor (c * 2 % 256) 7 else c * 2 % 256)

/-- The CRC of a heartbeat word: over bits [31:8]. -/
def wordCrc (w : Nat) : Nat := crc8Go 24 (w / 256 % 2 ^ 24) 0

/-- The heartbeat word as it stands (Table 10.6). -/
def State.heartWord (s : State) : Nat :=
  let v := s.fld 0 TWA.STATUS.ROLE * 2 ^ 28 + s.fld 0 TWA.STATUS.ACTO * 2 ^ 27 + s.fld 0 TWA.STATUS.ACTI * 2 ^ 26 +
    b2n (decide (s.now < s.twin.departUntil)) * 2 ^ 25 + b2n s.pow.twPref * 2 ^ 24 +
    b2n (s.role == .active && s.flag 0 TWA.STATUS.IN_STEP) * 2 ^ 23 + s.fld 0 TWA.STATUS.IFAULT * 2 ^ 22 + s.epoch % 64 * 2 ^ 16 +
    s.twin.count * 256
  v + wordCrc v

/-- Whether heartbeats leave: the lease is current and the unit is not silent, or DEPART is still sent; not in sleep. -/
def State.heartBeats (s : State) : Bool :=
  (decide (s.now < s.twin.departUntil) || (!s.twin.silent && s.twin.leaseOk)) &&
  !(s.dstate == .off || s.dstate == .aonOnly || s.dstate == .s1 || s.dstate == .s2 || s.dstate == .s3)

/-- HBTX_WORD_SEND -/
def execHbtxWordSend (s : State) : Host.Outcome State Fault Refusal :=
  .next (if s.heartBeats then
    let s1 := s.updTwin (fun x => { x with count := (x.count + 1) % 256 })
    (s1.updTwin (fun x => { x with wordSent := s1.heartWord })).send (.hbWord s1.heartWord)
  else s)

/-- HEARTBEAT_SEND (Table 10.15); the grant total takes in the credit that this frame carries. -/
def execHeartbeatSend (tile : Nat) (s : State) : Host.Outcome State Fault Refusal :=
  onTile tile s (if s.heartBeats && s.flag tile TWL.STATUS.LINK_UP && s.flag tile TWL.STATUS.SECURED then
    let x := s.twl tile
    s.twinSend tile 0x02 0 0 (leBytes 4 s.twin.wordSent ++ leBytes 4 0 ++ leBytes 8 ((s.cfg (cfgKey tile MIR.BUF.KB)).getD 8192 * 4 + x.grantTx + x.owed) ++
      leBytes 8 x.usedRx)
  else s)

/-- What a word's ROLE and IN_STEP mean for this unit's role (Table 10.4). -/
def State.followPartner (s : State) (w : Nat) : State :=
  let serves := w / 2 ^ 28 == 1 || w / 2 ^ 28 == 3
  match s.role with
  | .syncing => if w / 2 ^ 28 = 1 && w.testBit 23 && 1 ≤ s.twin.resync then s.goStandby 7 else s
  | .standby => if serves && !w.testBit 23 && !w.testBit 25 && !s.twin.lost then s.goSyncing 8 else s
  | .solo => s.tryResync
  | _ => s

/-- A valid word on either path, `t` the tile it came to: DEPART, the partner's role, a partner heard again. A STANDBY that has lost its partner hears it again only as one that
serves. -/
def State.hearWord (s : State) (t w : Nat) : State :=
  let r := w / 2 ^ 28
  let s1 := (s.setF 0 TWA.STATUS.PARTNER_ROLE r).updTwin (fun x => { x with lastWord := some w, pathTold := false })
  if w.testBit 25 then s1.departHeard t
  else
    let heard := s1.role != .standby || ((r == 1 || r == 3) && w.testBit 27 && s1.twin.swap == 0)
    (s1.updTwin (fun x => { x with lost := x.lost && !heard, silentTold := x.silentTold && !heard })).followPartner w

/-- The interlock check (R286): levels reported, sampled, driven and read back. -/
def State.interlockOk (s : State) (w : Nat) : Bool :=
  s.flag 0 TWA.STATUS.ACTI == w.testBit 27 && s.flag 0 TWA.STATUS.ACTO == w.testBit 26 && s.flag 0 TWA.STATUS.ACTO == s.flag 0 TWA.STATUS.ACTO_PAD

/-- The check made at a word. -/
def State.checkInterlock (s : State) (w : Nat) : State :=
  if s.interlockOk w then s.updTwin (fun x => { x with
    mismatchSince := none
    goodSince := some (x.goodSince.getD s.now)
    lastGood := some s.now })
  else s.updTwin (fun x => { x with mismatchSince := some (x.mismatchSince.getD s.now), goodSince := none })

/-- Whether a word counts on from the last, or comes after silence (R282). -/
def State.wordInOrder (s : State) (w : Nat) : Bool :=
  match s.twin.lastWord with
  | some l => w / 256 % 256 == (l / 256 % 256 + 1) % 256 || decide (s.twin.lastWordAt + s.detectUs ≤ s.now)
  | none => true

/-- What a period on `TW_HBRX` stands for (Table 20.12): 0, 1 or the start mark as 2; none outside every window. -/
def hbSymbol (p : Nat × Nat) : Option Nat :=
  if p.1 < 900 || 1100 < p.1 then none
  else if 150 ≤ p.2 && p.2 ≤ 350 then some 0
  else if 650 ≤ p.2 && p.2 ≤ 850 then some 1
  else if 400 ≤ p.2 && p.2 ≤ 600 then some 2
  else none

/-- The word that bits spell, most significant first. -/
def hbBits : List (Nat × Nat) → Nat → Option Nat
  | [], v => some v
  | p :: l, v =>
    match hbSymbol p with
    | some b => if b = 2 then none else hbBits l (2 * v + b)
    | none => none

/-- The word that 33 periods carry: the start mark and 32 bits (R282, R499). -/
def hbDecode (l : List (Nat × Nat)) : Option Nat :=
  match l with
  | p :: r => if hbSymbol p = some 2 && r.length = 32 then hbBits r 0 else none
  | [] => none

/-- The periods that the device drives on `TW_HBTX` for a word (R282). -/
def hbEncode (w : Nat) : List (Nat × Nat) :=
  (1000, 500) :: (List.range 32).map (fun i => (1000, if w.testBit (31 - i) then 750 else 250))

/-- A word heard on `TW_HBRX`; `pad`: the level read back from the `TW_ACTO` ball. -/
def State.hearPin (s : State) (w : Nat) (pad : Bool) : State :=
  if wordCrc w != w % 256 || !s.wordInOrder w then s.bump 0 TWA.HB_CRC_ERR.COUNT 1
  else ((s.setF 0 TWA.STATUS.ACTO_PAD (b2n pad)).updTwin (fun x => { x with lastWordAt := s.now })).checkInterlock w |>.hearWord 0 w

/-- HEARTBEAT_WORD: a period that breaks Table 20.12 makes the word invalid whatever its CRC (R499). -/
def execHeartbeatWord (periods : List (Nat × Nat)) (pad : Bool) (s : State) : Host.Outcome State Fault Refusal :=
  .next (
    if s.dstate == .off || s.dstate == .aonOnly || s.dstate == .s3 then s
    else match hbDecode periods with
      | some w => s.hearPin w pad
      | none => s.bump 0 TWA.HB_CRC_ERR.COUNT 1)

/-- The credit books against the partner's totals (R278, R297): the first HEARTBEAT on a link brings the initial buffer. -/
def State.checkBooks (s : State) (t g u : Nat) : State :=
  let x := s.twl t
  let s1 := s.updTwl t (fun y => { y with peerGrant := g, peerUsed := u })
  if x.grantRx = 0 || x.peerGrant = 0 then
    ((s1.updTwl t (fun y => { y with grantRx := g })).setF t MIR.CREDIT_AVAIL.AVAILABLE (min 65536 (g - x.usedTx))).pump t
  else
    let flight := (x.unacked.map (fun f => frameUnits f.body)).sum
    if g = x.grantRx && u ≤ x.usedTx && x.usedTx ≤ u + flight then s1
    else (s1.updTwl t (fun y => { y with booksOff := true })).evRec t MIR.EVENTS.BOOKS 0

/-- HEARTBEAT -/
def execHeartbeat (tile : Nat) (frame : List Byte) (s : State) : Host.Outcome State Fault Refusal :=
  onTile tile s (s.twinIn tile 0x02 frame (fun b => b.length == 24 && natAt b 4 4 == 0) (fun f a =>
    let w := natAt f.body 0 4
    let a1 := (a.updTwl tile (fun y => { y with lastHb := some a.now })).checkBooks tile (natAt f.body 8 8) (natAt f.body 16 8)
    if wordCrc w = w % 256 then a1.hearWord tile w else a1.bump tile TWA.HB_CRC_ERR.COUNT 1))

/-- CREDIT_BOOKS_RESET: after a mismatch, with no MIRROR frame in flight, the partner's totals stand. -/
def execCreditBooksReset (tile : Nat) (s : State) : Host.Outcome State Fault Refusal :=
  onTile tile s
    (let x := s.twl tile
     if x.booksOff && x.unacked.isEmpty then
       ((s.updTwl tile (fun y => { y with booksOff := false, grantRx := y.peerGrant, usedTx := y.peerUsed })).setF tile
         MIR.CREDIT_AVAIL.AVAILABLE (min 65536 (x.peerGrant - x.peerUsed))).pump tile
     else s)

/-- CREDIT -/
def execCredit (tile : Nat) (frame : List Byte) (s : State) : Host.Outcome State Fault Refusal :=
  onTile tile s (s.twinIn tile 0x12 frame (fun b => b.isEmpty) (fun _ a => a))

/-! ### Lease and interlock (R283, R285, R286) -/

/-- LEASE_KICK: the lease is renewed; a unit that went silent because it had expired is heard again. -/
def State.leaseKick (s : State) : State :=
  if s.pow.target != 0 then s else
  (s.updTwin (fun x => { x with leaseAt := s.now, leaseOk := true, silent := x.silent && (s.dstate == .freeze || s.dstate == .fault) })).raiseActo

/-- LEASE_KICK -/
def execLeaseKick (s : State) : Host.Outcome State Fault Refusal := .next s.leaseKick

/-- LEASE_EXPIRED: in hardware; suspended during sleep (R387). -/
def execLeaseExpired (s : State) : Host.Outcome State Fault Refusal :=
  .next (if s.twin.leaseOk && s.boot.handedOver && s.pow.target == 0 && decide (s.twin.leaseAt + s.fld 0 TWA.CTRL.LEASE * 50 ≤ s.now) then
    (((s.driveActo false).depart true).updTwin (fun x => { x with leaseOk := false })).ev 0 TWA.EVENTS.LEASE_EXPIRED
  else s)

/-- `TW_ACTI` rises within 1 µs of `TW_ACTO` (R285): the unit with PREF low gives way for 5 ms. -/
def State.contend (s : State) : State :=
  if s.flag 0 TWA.STATUS.ACTO && decide (s.now ≤ s.twin.actoRoseAt + 1) then
    let s1 := s.ev 0 TWA.EVENTS.CONTENTION
    if s.pow.twPref then s1 else (s1.driveActo false).updTwin (fun x => { x with backoffUntil := s.now + 5000 })
  else if s.role == .active then s.standAlone 2 else s

/-- TW_ACTI_CHANGE: the level after the input filter. -/
def execTwActiChange (level : Bool) (s : State) : Host.Outcome State Fault Refusal :=
  .next (
    let s1 := (s.setF 0 TWA.STATUS.ACTI (b2n level)).updTwin (fun x => { x with
      actiLowSince := if level then none else some (x.actiLowSince.getD s.now) })
    if level then (if s.flag 0 TWA.STATUS.ACTI then s1 else s1.contend) else s1)

/-- GUARD_EXPIRY: `TW_ACTI` has been low for 2 ms. -/
def execGuardExpiry (s : State) : Host.Outcome State Fault Refusal := .next s.raiseActo

/-- CONTENTION_BACKOFF: 5 ms have passed; the guard is applied again. -/
def execContentionBackoff (s : State) : Host.Outcome State Fault Refusal :=
  .next (if s.twin.backoffUntil != 0 && decide (s.twin.backoffUntil ≤ s.now) then
    (s.updTwin (fun x => { x with backoffUntil := 0 })).raiseActo else s)

/-- INTERLOCK_FAULT: a mismatch has lasted longer than 100 µs. -/
def execInterlockFault (s : State) : Host.Outcome State Fault Refusal :=
  .next (match s.twin.mismatchSince with
    | some t => if decide (t + 100 < s.now) && !s.flag 0 TWA.STATUS.IFAULT then
        ((s.setF 0 TWA.STATUS.IFAULT 1).evRec 0 TWA.EVENTS.IFAULT 0).twinFault 0 0 else s
    | none => s)

/-- A tile follows the gate (R24, R266): it counts the time that writes wait at it. -/
def State.gateTile (s : State) (t : Nat) (isOpen : Bool) : State :=
  let was := s.flag t HCQ.GATE.OPEN
  let mine := fun (p : Portion) => p.st == .new && (match p.src with
    | .mirror _ _ => false
    | _ => p.src.tile s.tiles == t)
  let s1 := s.setFs t [(HCQ.GATE.OPEN, b2n isOpen), (HCQ.GATE.ACTI, s.fld 0 TWA.STATUS.ACTI), (HCQ.GATE.ACTO, s.fld 0 TWA.STATUS.ACTO)]
  if was && !isOpen then
    (s1.ev t HCQ.EVENTS.GATE_CLOSED).updNet (fun n => { n with portions := n.portions.map (fun p => if mine p then { p with since := s.now } else p) })
  else if !was && isOpen then
    (s1.net.portions.filter mine).foldl (fun a p => (a.bump t HCQ.GATE_WAIT_US.COUNT (s.now - p.since)).askAdmit p) s1
  else s1

/-- TWIN_GATE_CHANGE: tile 0 samples both pins and sends the gate state to every tile. -/
def execTwinGateChange (s : State) : Host.Outcome State Fault Refusal :=
  .next (let isOpen := s.flag 0 TWA.STATUS.ACTO && !s.flag 0 TWA.STATUS.ACTI
    s.allTiles (fun t a => a.gateTile t isOpen))

/-! ### Fetches (R281, R297) -/

/-- A FETCH_REQ answered once every MIRROR record received before it has been applied. -/
def State.answerFetch (s : State) (t id a : Nat) : State :=
  let p := a / 4096
  let s0 := if s.inStep p && s.classAt a == 2 then s.probe a 4096 else s
  if s0.inStep p && s0.classAt a == 2 && s0.pagesReady a 4096 then
    let (bs, s1) := s0.readAms t false a 4096
    s1.twinSend t 0x21 0 0 (leBytes 4 id ++ leBytes 4 0 ++ leBytes 8 a ++ leBytes 4 (s0.poisonMask p) ++ leBytes 12 0 ++ s0.pageOut p bs)
  else s0.twinSend t 0x21 0 0 (leBytes 4 id ++ leBytes 4 1 ++ leBytes 8 a ++ leBytes 16 0)

/-- The fetches that can be answered. -/
def State.answerFetches (s : State) (t : Nat) : State :=
  if (s.twl t).items.isEmpty then
    (s.twl t).fetchIn.foldl (fun a e => a.answerFetch t e.1 e.2) (s.updTwl t (fun y => { y with fetchIn := [] }))
  else s

/-- FETCH_REQ -/
def execFetchReq (tile : Nat) (frame : List Byte) (s : State) : Host.Outcome State Fault Refusal :=
  onTile tile s (s.twinIn tile 0x20 frame
    (fun b => b.length == 16 && natAt b 0 4 != 0 && natAt b 4 4 == 0 && natAt b 8 8 % 4096 == 0 && decide (natAt b 8 8 < 2 ^ 50))
    (fun f a => (a.updTwl tile (fun y => { y with fetchIn := y.fetchIn ++ [(natAt f.body 0 4, natAt f.body 8 8)] })).answerFetches tile))

/-- A fetched page: the bursts that could not be corrected, or the deep copy, take its bytes; ranges poisoned at the partner stay poison. -/
def State.fetchOk (s : State) (t p mask : Nat) (bs : List Byte) : State :=
  let ues := s.dec.ues.filter (fun u => u.1 == t && s.amsPage u.1 (u.2 / 4096) == some p)
  let s1 := if ues.isEmpty then (match s.homeOf (p / 512) with
      | some h => if h.tier = 0 then (s.setBytes .near h.tile (h.local (p * 4096)) bs).clearNear (p * 4096) 4096 else s.deepFetched t p bs
      | none => s.deepFetched t p bs) else ues.foldl (fun a u => a.ueReload t u.2 p bs 1) s
  (List.range 32).foldl (fun a i => if mask.testBit i then a.setPoison (p * 32 + i) (some (natAt bs (128 * i) 4)) else a) s1

/-- The partner cannot give a page: the next step of its recovery (R131 step 3, Table 6.7 step 6). -/
def State.fetchFailed (s : State) (t p : Nat) : State :=
  let s0 := s.ev t MIR.EVENTS.FETCH_FAIL
  let ues := s0.dec.ues.filter (fun u => u.1 == t && s0.amsPage u.1 (u.2 / 4096) == some p)
  if ues.isEmpty then (match s0.homeOf (p / 512) with
    | some h => if h.tier = 0 then s0.nearPoison h p else s0.ladderLast t p
    | none => s0.ladderLast t p)
  else ues.foldl (fun a u => a.uePoison t u.2 (p * 64 + u.2 % 4096 / 64)) s0

/-- A fetch is no longer outstanding. -/
def State.endFetch (s : State) (t id : Nat) : State := s.updTwl t (fun y => { y with fetches := y.fetches.filter (fun f => f.id != id) })

/-- The layout of a FETCH_RESP (Table 10.17). -/
def fetchRespOk (b : List Byte) : Bool :=
  decide (32 ≤ b.length) && decide (natAt b 4 1 < 2) && natAt b 5 3 == 0 && natAt b 0x14 12 == 0 &&
  b.length == (if natAt b 4 1 = 0 then 4128 else 32)

/-- FETCH_RESP -/
def execFetchResp (tile : Nat) (frame : List Byte) (s : State) : Host.Outcome State Fault Refusal :=
  onTile tile s (s.twinIn tile 0x21 frame fetchRespOk (fun f a =>
    match (a.twl tile).fetches.find? (fun x => x.id == natAt f.body 0 4) with
    | none => a.ev tile TWL.EVENTS.FRAME_BAD
    | some x =>
      let a1 := a.endFetch tile x.id
      if natAt f.body 4 1 = 0 then a1.fetchOk tile x.page (natAt f.body 0x10 4) (f.body.drop 32) else a1.fetchFailed tile x.page))

/-- FETCH_TIMEOUT: 1 ms without an answer. -/
def execFetchTimeout (tile id : Nat) (s : State) : Host.Outcome State Fault Refusal :=
  onTile tile s (match (s.twl tile).fetches.find? (fun x => x.id == id) with
    | some x => if x.born + 1000 ≤ s.now then (s.endFetch tile id).fetchFailed tile x.page else s
    | none => s)

/-! ### The stream as its sender sees it (R276, R277) -/

/-- A tile's twin link shows down. -/
def State.twlLow (s : State) (t : Nat) : State :=
  (s.setFs t [(TWL.STATUS.LINK_UP, 0), (TWL.STATUS.SECURED, 0), (TWL.STATUS.PAIRED, 0)]).ev t TWL.EVENTS.LINK_DOWN

/-- What a link that went down does to the role (R290): an ACTIVE unit becomes SOLO, a STANDBY SYNCING where the partner's IN_STEP reads 0. -/
def State.downRole (s : State) : State :=
  match s.role with
  | .active => if 2 ≤ s.twin.swap then s else s.standAlone 3
  | .solo => s.stopResync
  | .standby => if s.twin.lastWord.any (fun w => w.testBit 23) then s else s.goSyncing 3
  | .syncing => s.updTwin (fun x => { x with resync := 0, seen := [], planIn := none })
  | .none => s

/-- A tile's twin link is down. -/
def State.twlDown (s : State) (t : Nat) : State := (s.twlLow t).downRole

/-- MIRROR_RETRANSMIT: the oldest frame not acknowledged for 20 µs; a stream not delivered for the detection time takes the link down. -/
def execMirrorRetransmit (tile : Nat) (s : State) : Host.Outcome State Fault Refusal :=
  onTile tile s (match (s.twl tile).unacked with
    | f :: fs =>
      if !(s.linkReady tile && decide (f.sentAt + 20 ≤ s.now)) then s
      else if s.detectUs ≤ f.sends * 20 then s.twlDown tile
      else ((s.updTwl tile (fun y => { y with unacked := { f with sentAt := s.now, sends := f.sends + 1 } :: fs })).bump tile
        TWL.RETRANSMIT.COUNT 1).twinSend tile 0x10 0 f.seq f.body
    | [] => s)

/-- What an acknowledgement up to a SEQ of tile t's stream brings about: portions at C2, responses, the reports of a FEED_START, the end of
a swap. -/
def State.ackStream (s : State) (t n : Nat) : State :=
  let s1 := (s.updTwl t (fun y => { y with unacked := y.unacked.filter (fun f => decide (n < f.seq)) })).updNet (fun x => { x with
    portions := x.portions.map (fun p => if p.tile = t && p.st == .applied && p.seq.any (fun q => decide (q ≤ n)) then { p with st := .reached }
      else p) })
  let s2 := s1.settleAll
  let s3 := if t != 0 then s2 else
    let go := s2.mb.held.filter (fun h => decide (h.seq ≤ n))
    go.foldl (fun a h => a.respond h.point h.bytes) { s2 with mb := { s2.mb with held := s2.mb.held.filter (fun h => decide (n < h.seq)) } }
  let s4 := if t = 0 then s3.coverReports n else s3
  if t = 0 && s4.twin.swap = 3 && s4.twin.swapSeq ≤ n then s4.swapDone true else s4.swapProceed

/-- MIRROR_ACK -/
def execMirrorAck (tile : Nat) (frame : List Byte) (s : State) : Host.Outcome State Fault Refusal :=
  onTile tile s (s.twinIn tile 0x11 frame (fun b => b.isEmpty) (fun f a =>
    if f.flags = 1 then a.updNet (fun x => { x with execs := x.execs.map (fun e => { e with seqs := e.seqs.filter (fun q => q != (tile, f.seq)) }) })
    else a.ackStream tile f.seq))

/-! ### Links and their keys (R269, R409 to R411) -/

/-- TWIN_LINK_DOWN: for the detection time while the partner is not lost. -/
def execTwinLinkDown (tile : Nat) (s : State) : Host.Outcome State Fault Refusal :=
  onTile tile s (if s.flag tile TWL.STATUS.LINK_UP then s.twlDown tile else s)

/-- A link whose key numbers are used up counts as down (R410). -/
def State.kmOut (s : State) (t : Nat) : State :=
  if s.flag t TWL.STATUS.LINK_UP && !s.flag t BCX.STATUS.TX_SA && (s.slot 7).valid then s.twlDown t else s

/-- TWIN_LINK_UP: the transmit key number goes on, committed before the first frame; without a pair key pairing is refused with code 8. A stream
that stands goes on, else it begins anew. -/
def execTwinLinkUp (tile : Nat) (s : State) : Host.Outcome State Fault Refusal :=
  onTile tile s (if !pointServed s.dstate 1 || s.heldDown tile 2 then s else
    let keep := s.role == .active || s.role == .standby
    let x := if keep then s.twl tile else { TwinTile.fresh tile with lastHb := (s.twl tile).lastHb }
    let s1 := (s.updTwl tile (fun _ => { x with upAt := s.now, heard := false, rxPend := none })).setFs tile [(TWL.STATUS.LINK_UP, 1), (TWL.STATUS.SECURED, 0), (TWL.STATUS.PAIRED, 0), (BCX.STATUS.RX_SA, 0)]
    if !(s1.slot 7).valid then (if s1.inPair then s1.refusePair 8 else s1)
    else ((s1.setF tile BCX.STATUS.TX_SA 1).advanceKn tile).kmOut tile)

/-- PN_NEAR: the packet number has passed 2^62; the transmitter moves to the next key number. -/
def execPnNear (tile : Nat) (s : State) : Host.Outcome State Fault Refusal :=
  onTile tile s (if s.flag tile TWL.STATUS.LINK_UP && decide (2 ^ 62 ≤ (s.twl tile).txPn) then ((s.ev tile TWL.EVENTS.PN_NEAR).advanceKn tile).kmOut tile else s)

/-- RX_NEW_KN: a frame from a MAC address not held, or with a higher key number, makes tile 0 derive and install its key; one with a lower number is
a replay. The frame itself is dropped and counted. -/
def execRxNewKn (tile mac kn : Nat) (s : State) : Host.Outcome State Fault Refusal :=
  onTile tile s (if !s.flag tile TWL.STATUS.LINK_UP || !(s.slot 7).valid then s else
    let held := amapGet 0 s.nv.rxMac tile == mac
    let last := amapGet 0 s.nv.rxKn tile
    if held && decide (kn < last) then (s.bump tile TWL.RX_REPLAY.COUNT 1).ev tile TWL.EVENTS.REPLAY
    else if held && kn = last && s.flag tile BCX.STATUS.RX_SA then s
    else (((s.loadLinkKey tile (kn % 65536) (mac % 2 ^ 48) 6).setF tile BCX.STATUS.RX_SA 1).updTwl tile (fun y =>
      { y with rxPend := some (mac % 2 ^ 48, kn % 65536) })).bump tile BCX.RX_EARLY.COUNT 1 |>.ev tile BCX.EVENTS.RX_NEW_KN)

/-- MACSEC_VERIFY_FAIL: the integrity check, or the replay check, fails. -/
def execMacsecVerifyFail (tile : Nat) (replay : Bool) (s : State) : Host.Outcome State Fault Refusal :=
  onTile tile s (if !s.flag tile TWL.STATUS.LINK_UP then s
    else if replay then (s.bump tile TWL.RX_REPLAY.COUNT 1).ev tile TWL.EVENTS.REPLAY
    else (s.bump tile TWL.RX_ICV_FAIL.COUNT 1).ev tile TWL.EVENTS.ICV_FAIL)

/-- PAIR_KEY_TIMEOUT: no valid frame in the 100 ms after link-up, with a pair key. -/
def execPairKeyTimeout (tile : Nat) (s : State) : Host.Outcome State Fault Refusal :=
  onTile tile s (if s.flag tile TWL.STATUS.LINK_UP && (s.slot 7).valid && !(s.twl tile).heard && decide ((s.twl tile).upAt + 100000 ≤ s.now) then
    (if s.inPair then s.refusePair 8 else s) else s)

end Sys2Proof.Machine
end

