-- ==== Sys2Proof/Machine/TwinItems.lean ====
section
/-! DEFINITION. The ordered stream as its receiver takes it: records, items, acknowledgement, credit, and the items of data and of QPs
(R275 to R278, R298; R231, R276). -/

namespace Sys2Proof.Machine

/-! ### Records (Tables 10.18, 10.19) -/

/-- A record of a frame. -/
structure TwinRec where
  kind : Nat
  more : Bool
  item : Nat
  body : List Byte
deriving DecidableEq, Repr

/-- The records of a MIRROR frame, end to end; none where one breaks Table 10.18. The first argument bounds them. -/
def recordsGo : Nat → List Byte → Option (List TwinRec)
  | 0, bs => if bs.isEmpty then some [] else none
  | n + 1, bs =>
    if bs.isEmpty then some [] else
    let len := natAt bs 2 2
    if bs.length < 8 || natAt bs 0 1 = 0 || 0x11 < natAt bs 0 1 || 1 < natAt bs 1 1 || len < 8 || len % 8 != 0 || 9000 < len || bs.length < len then
      none
    else (recordsGo n (bs.drop len)).map (fun rs => ⟨natAt bs 0 1, natAt bs 1 1 == 1, natAt bs 4 4, bytesAt bs 8 (len - 8)⟩ :: rs)

/-- The layout of a STATE item. -/
def stateOk (b : List Byte) : Bool :=
  natAt b 1 7 == 0 &&
  (match natAt b 0 1 with
   | 0 => b.length == 32 && natAt b 15 1 == 0 && decide (natAt b 10 1 < 3) && decide (natAt b 11 1 < 3) && decide (natAt b 24 8 < 2 ^ 50)
   | 1 => natAt b 14 2 == 0 && decide (1 ≤ natAt b 12 2) && decide (natAt b 12 2 ≤ 2048) && b.length == alignUp (16 + 4 * natAt b 12 2) 8
   | 2 => decide (32 ≤ b.length) && natAt b 25 7 == 0
   | 3 => b.length == 24 && natAt b 13 3 == 0 && natAt b 20 4 == 0
   | 4 => b.length == 8
   | _ => false)

/-- The layout of a whole item: length and reserved fields (Tables 10.19, 10.20); offsets from the start of its data. -/
def itemOk (kind : Nat) (b : List Byte) : Bool :=
  match kind with
  | 0x01 => decide (natAt b 0 8 < 2 ^ 50) && decide (1 ≤ natAt b 8 4) && decide (natAt b 8 4 ≤ 65536) && decide (natAt b 0 8 % 65536 + natAt b 8 4 ≤ 65536) &&
      decide (natAt b 12 1 < 2) && natAt b 13 3 == 0 && b.length == 24 + alignUp (natAt b 8 4) 8
  | 0x02 => b.length == 32 && natAt b 0 8 % 8 == 0 && decide (natAt b 0 8 < 2 ^ 50)
  | 0x03 => b.length == 200 && decide (natAt b 4 1 < 5) && decide (natAt b 5 1 < 2) && decide (natAt b 6 1 < 3) && decide (natAt b 7 1 < 4) &&
      decide (natAt b 8 4 < 2 ^ 24) && natAt b 0x44 4 == 0 && (List.range 8).all (fun i => natAt b (0x4C + 16 * i) 4 == 0)
  | 0x04 => b.length == 72
  | 0x05 => b.length == 40
  | 0x06 => b.length == 16 && decide (natAt b 0 1 < 2) && natAt b 1 3 == 0 && natAt b 12 4 == 0
  | 0x07 => decide (natAt b 2 1 < 4) && natAt b 3 1 == 0 &&
      (if natAt b 2 1 = 0 then b.length == 80 && natAt b 12 4 == 0 else b.length == 8)
  | 0x08 => decide (72 ≤ b.length) && natAt b 2 2 == 0
  | 0x09 => b.length == 8 && natAt b 4 4 == 0
  | 0x0A => b.length == 16 && natAt b 13 3 == 0
  | 0x0B => b.length == 24 && natAt b 12 4 == 0 && decide (natAt b 4 1 < 4) && decide (natAt b 7 1 < 2)
  | 0x0C => b.length == 8 && natAt b 4 4 == 0
  | 0x0D => decide (1 ≤ natAt b 0 2) && decide (natAt b 0 2 ≤ 32) && natAt b 2 6 == 0 && b.length == 8 + 16 * natAt b 0 2
  | 0x0E => b.length == 8
  | 0x0F => b.length == 8 && natAt b 1 7 == 0
  | 0x10 => decide (80 ≤ b.length) && natAt b 10 6 == 0 && natAt b 0 8 % 65536 == 0 && decide (natAt b 0 8 < 2 ^ 50) &&
      b.length == 80 + 4096 * ((List.range 16).map (fun i => natAt b 8 2 / 2 ^ i % 2)).sum
  | 0x11 => stateOk b
  | _ => false

/-- What assembling records has come to: the item in assembly, the next number expected, whole items. -/
structure Assembly where
  part : Option RxItem
  next : Nat
  items : List RxItem
deriving DecidableEq, Repr

/-- A record joins the item in assembly, or begins the next one; none where it breaks the item sequence. -/
def Assembly.add (a : Assembly) (seq : Nat) (r : TwinRec) : Option Assembly :=
  let x : Option RxItem := match a.part with
    | some p => if r.kind = p.kind && r.item = p.item then some { p with last := seq, body := p.body ++ r.body } else none
    | none => if r.item = a.next then some ⟨r.kind, r.item, seq, seq, r.body⟩ else none
  match x with
  | none => none
  | some y =>
    if r.more then some { a with part := some y }
    else if itemOk y.kind y.body then some ⟨none, (y.item + 1) % 2 ^ 32, a.items ++ [y]⟩ else none

/-- Every record of a frame. -/
def Assembly.addAll (a : Assembly) (seq : Nat) (rs : List TwinRec) : Option Assembly :=
  rs.foldl (fun x r => x.bind (fun y => y.add seq r)) (some a)

/-! ### Acknowledgement and credit (R276, R278) -/

/-- The highest SEQ whose records have all been applied. -/
def TwinTile.applied (x : TwinTile) : Nat :=
  ((x.items.map (·.first)) ++ (x.part.map (·.first)).toList).foldl (fun m n => min m (n - 1)) x.rxSeq

/-- What has been applied is acknowledged; its credit is owed; fetches that waited for it are answered. -/
def State.ackApplied (s : State) (t : Nat) : State :=
  let x := s.twl t
  let n := x.applied
  let s1 := if n ≤ x.rxAcked then s else
    let units := ((x.rxFrames.filter (fun e => decide (e.1 ≤ n))).map (·.2)).sum
    (s.updTwl t (fun y => { y with rxAcked := n, owed := y.owed + units, rxFrames := y.rxFrames.filter (fun e => decide (n < e.1)) })).twinSend t
      0x11 0 n []
  s1.answerFetches t

/-- A MIRROR frame in order is parsed whole or not at all; one already received is acknowledged again; one ahead waits for the retransmission. A
second bad frame takes the link down (R298). -/
def State.mirrorIn (s : State) (t : Nat) (f : TwinFrame) : State :=
  let x := s.twl t
  if f.seq ≤ x.rxSeq then s.twinSend t 0x11 0 x.rxAcked []
  else if f.seq != x.rxSeq + 1 then s
  else match (recordsGo (f.body.length / 8 + 1) f.body).bind (fun rs => (⟨x.part, x.rxItem, x.items⟩ : Assembly).addAll f.seq rs) with
    | none =>
      let s1 := (s.updTwl t (fun y => { y with bad := y.bad + 1 })).ev t TWL.EVENTS.FRAME_BAD
      if 1 ≤ x.bad then s1.twlDown t else s1
    | some a =>
      let u := frameUnits f.body
      (s.updTwl t (fun y => { y with
        rxSeq := f.seq
        part := a.part
        rxItem := a.next
        items := a.items
        rxFrames := y.rxFrames ++ [(f.seq, u)]
        usedRx := y.usedRx + u
        bad := 0 })).ackApplied t

/-- MIRROR -/
def execMirror (tile : Nat) (frame : List Byte) (s : State) : Host.Outcome State Fault Refusal :=
  onTile tile s (s.twinIn tile 0x10 frame (fun _ => true) (fun f a => a.mirrorIn tile f))

/-- The item at the head of a tile's stream leaves it. -/
def State.popItem (s : State) (t : Nat) : State := (s.updTwl t (fun y => { y with items := y.items.drop 1 })).ackApplied t

/-- Runs what an item does, if it is of a kind and heads the stream; `none`: it waits. -/
def State.onItem (s : State) (t kind : Nat) (k : RxItem → State → Option State) : State :=
  match (s.twl t).items with
  | x :: _ =>
    if x.kind = kind && (s.dstate == .service || s.dstate == .restricted) then
      match k x s with
      | some a => a.popItem t
      | none => s
    else s
  | [] => s

/-- Whether this unit follows a partner's stream. -/
def State.follows (s : State) : Bool := s.role == .standby || s.role == .syncing

/-- Tile 0's stream has not yet brought the end of the state that a resynchronisation sends (R291 step 1): items of other tiles that name a region
or a chain queue wait for it. -/
def State.stateDue (s : State) : Bool := s.role == .syncing && s.twin.resync == 0

/-- An item that only a unit following the stream takes; any other drops it. -/
def State.following (s : State) (f : State → State) : Option State := some (if s.follows then f s else s)

/-! ### Data (R168, R174, R231, R276) -/

/-- The partner's side of C3 is asked for pages at a SEQ of the stream. -/
def State.askC3 (s : State) (t seq : Nat) (ps : List Nat) : State :=
  ((s.headPages ps).updTwl t (fun y => { y with c3Due := y.c3Due ++ [(seq, ps.map (fun p => (p, s.gen p)))] })).ackCommitted t

/-- The portion that carries an item. -/
def State.mirrorPortion (s : State) (t : Nat) (x : RxItem) : Option Portion := s.net.portions.find? (fun p => p.src == Src.mirror t x.item)

/-- A mirrored write at address a is admitted under this unit's own tokens and applied in one step; until then its portion waits in the line of its
tile. Answers whether it is done. -/
def State.mirrorWrite (s : State) (t : Nat) (x : RxItem) (a : Nat) (data : List Byte) (force : Bool) : State × Bool :=
  if !s.follows || s.classAt a != 2 then (s, true) else
  let s1 := match s.mirrorPortion t x with
    | some _ => s
    | none => s.addPortion (.mirror t x.item) false force .write a data.length data []
  let s2 := match s1.mirrorPortion t x with
    | some p => s1.askAdmit p
    | none => s1
  match s2.mirrorPortion t x with
  | none => (s2, true)
  | some q =>
    if q.st != .admitted || s2.aheadInUnit q then (s2, false) else
    let s0 := s2.probePortion q
    if !s0.pagesReady q.addr q.len || !s0.homeHas q then (s0, false) else
    let s3 := s0.applyPortion q
    match s3.mirrorPortion t x with
    | none => (s3, true)
    | some r =>
      if r.st != .reached then (s3, false) else
      let s4 := (s3.dropPortion r.id).bump t MIR.PORTIONS_RX.COUNT 1
      (if force then s4.askC3 t x.last (pagesOf a data.length) else s4, true)

/-- The item at the head of a tile's stream, when it is of a kind that writes data. -/
def State.mirrorStep (s : State) (t kind : Nat) (addr : List Byte → Nat) (data : List Byte → List Byte) (force : List Byte → Bool) : State :=
  match (s.twl t).items with
  | x :: _ =>
    if x.kind != kind || !(s.dstate == .service || s.dstate == .restricted) then s else
    match s.mirrorWrite t x (addr x.body) (data x.body) (force x.body) with
    | (a, true) => a.popItem t
    | (a, false) => a
  | [] => s

/-- PORTION_RECORD -/
def execPortionRecord (tile : Nat) (s : State) : Host.Outcome State Fault Refusal :=
  onTile tile s (s.mirrorStep tile 0x01 (fun b => natAt b 0 8) (fun b => bytesAt b 24 (natAt b 8 4)) (fun b => natAt b 12 1 == 1))

/-- ATOMIC_RECORD: the resulting 8 bytes are written (R231). -/
def execAtomicRecord (tile : Nat) (s : State) : Host.Outcome State Fault Refusal :=
  onTile tile s (s.mirrorStep tile 0x02 (fun b => natAt b 0 8) (fun b => bytesAt b 16 8) (fun _ => false))

/-- A snapshot replaces its atomic unit whole (Table 10.19), once this unit's tokens cover its born pages. -/
def State.takeSnapshot (s : State) (b : List Byte) : Option State :=
  let a := natAt b 0 8
  if !s.follows || s.classAt a != 2 then some s else
  match s.homeOf (a / 2 ^ 21) with
  | none => some s
  | some h =>
    let born := (List.range 16).filter (fun i => (natAt b 8 2).testBit i)
    let ps := born.map (fun i => a / 4096 + i)
    if s.freeTokens h.tile < s.tokensNeeded h.tile ps || s.heldExt a 65536 then none else
    let s1 := ((List.range 16).filter (fun i => !(natAt b 8 2).testBit i)).foldl (fun x i => x.forgetPage (a / 4096 + i)) s
    let s2 := (born.zipIdx).foldl (fun x (i, k) =>
      let p := a / 4096 + i
      let bs := bytesAt b (80 + 4096 * k) 4096
      let y := ((x.grantTokens h.tile [p]).applyBytes h (p * 4096) bs).settleTokens h.tile [p]
      (List.range 32).foldl (fun z j => z.setPoison (p * 32 + j)
        (if (natAt b (16 + 4 * i) 4).testBit j then some (natAt bs (128 * j) 4) else none)) y) s1
    some (s2.setDivBit (a / 65536) false)

/-- SNAPSHOT_RECORD -/
def execSnapshotRecord (tile : Nat) (s : State) : Host.Outcome State Fault Refusal :=
  onTile tile s (s.onItem tile 0x10 (fun x a => a.takeSnapshot x.body))

/-! ### QPs, capsules and chain queues (R265, R276, R288) -/

/-- The saved atomic results of a QP_CTX record. -/
def ctxAtomics (b : List Byte) : List (Nat × Nat) :=
  (List.range 8).filterMap (fun i =>
    let o := 0x48 + 16 * i
    if (natAt b o 4).testBit 31 then some (natAt b o 4 % 2 ^ 24, natAt b (o + 8) 8) else none)

/-- A shadow context as a QP_CTX record has it (Table 10.20), over what CAPSULE and COMPLETION records have brought. -/
def Qp.takeCtx (q : Qp) (b : List Byte) : Qp :=
  let una := natAt b 0x14 4 % 2 ^ 24
  { q with
    st := natAt b 4 1
    localFlag := natAt b 5 1 == 1
    mtu := natAt b 6 1
    lport := natAt b 7 1
    rqpn := natAt b 8 4 % 2 ^ 24
    epsn := natAt b 0x0C 4 % 2 ^ 24
    spsn := natAt b 0x10 4 % 2 ^ 24
    una := una
    gid := beNat (bytesAt b 0x18 16)
    window := natAt b 0x28 4
    retry := natAt b 0x2D 1
    rnrRetry := natAt b 0x2E 1
    ackTimeout := natAt b 0x2F 1
    winVa := natAt b 0x30 8
    winKey := natAt b 0x38 4
    respRes := natAt b 0x3C 1
    hostCredit := natAt b 0x3D 1
    capPsn := natAt b 0x40 4
    atomics := ctxAtomics b
    ring := q.ring.filter (fun e => !psnBefore e.1 una) }

/-- A QP_CTX item: FREE releases the shadow context. The first that a resynchronisation sends of a QP replaces all that was held of it. -/
def State.takeCtx (s : State) (b : List Byte) : State :=
  let n := natAt b 0 4
  let anew := s.role == .syncing && !s.twin.seen.contains (5, n)
  let s1 := if natAt b 4 1 = 0 || anew then s.dropShadow n else s
  if natAt b 4 1 = 0 then s1 else
  let q := ((s1.qp n).getD (Qp.blank n s1.now)).takeCtx b
  let s2 := s1.updNet (fun x => { x with qps := x.qps.filter (fun y => y.qpn != n) ++ [q] })
  if anew then s2.updTwin (fun x => { x with seen := (5, n) :: x.seen }) else s2

/-- QP_CTX_RECORD -/
def execQpCtxRecord (tile : Nat) (s : State) : Host.Outcome State Fault Refusal :=
  onTile tile s (s.onItem tile 0x03 (fun x a => a.following (fun z => z.takeCtx x.body)))

/-- CAPSULE_RECORD -/
def execCapsuleRecord (tile : Nat) (s : State) : Host.Outcome State Fault Refusal :=
  onTile tile s (s.onItem tile 0x04 (fun x a => a.following (fun z => z.updQp (natAt x.body 0 4) (fun q =>
    { q with caps := q.caps ++ [⟨natAt x.body 4 4 % 2 ^ 24, bytesAt x.body 8 64⟩] }))))

/-- A completion record is kept until it is acknowledged; the capsule or descriptor it ends, known by TAG and OPCODE, is no longer in execution. -/
def State.takeCompletion (s : State) (b : List Byte) : State :=
  let n := natAt b 0 4
  let ends := fun (e : Exec) => e.enqQpn == n && natAt b 8 4 == capTag e.bytes && natAt b 12 1 == capOp e.bytes
  let s1 := s.updQp n (fun q => { q with ring := q.ring ++ [(natAt b 4 4 % 2 ^ 24, bytesAt b 8 32)] })
  match s1.net.execs.find? ends with
  | none => s1
  | some e =>
    let s2 := s1.updNet (fun x => { x with execs := x.execs.filter (fun y => y.src != e.src) })
    match e.src with
    | .desc c _ => s2.updChain c (fun q => { q with running := none, st := if q.st = 2 && q.ring.isEmpty then 1 else q.st })
    | _ => s2

/-- COMPLETION_RECORD -/
def execCompletionRecord (tile : Nat) (s : State) : Host.Outcome State Fault Refusal :=
  onTile tile s (s.onItem tile 0x05 (fun x a => a.following (fun z => z.takeCompletion x.body)))

/-- A capsule or descriptor noted as started; the pages of a COMMIT are asked for here as well (R276). -/
def State.noteStart (s : State) (t seq : Nat) (e : Exec) : State :=
  let s1 := s.updNet (fun x => { x with execs := x.execs.filter (fun y => y.src != e.src) ++ [e] })
  if capOp e.bytes = 3 && s1.classAt (capAddr e.bytes) == 2 && !capEnqueue e.bytes then
    s1.askC3 t seq (((s1.firn.tokens.filter (fun k => decide (capAddr e.bytes / 4096 ≤ k.page) &&
      decide (k.page ≤ (capAddr e.bytes + capLen e.bytes - 1) / 4096))).map (·.page)).dedup)
  else s1

/-- A START item. A queue's descriptors start in their order; the item's index becomes that of the descriptor. -/
def State.takeStart (s : State) (t seq : Nat) (b : List Byte) : State :=
  let n := natAt b 4 4
  let p := natAt b 8 4
  if natAt b 0 1 = 0 then
    match (s.qp n).bind (fun q => q.caps.find? (fun c => c.psn == p % 2 ^ 24)) with
    | some c => (s.updQp n (fun q => { q with caps := q.caps.filter (fun y => y.psn != c.psn) })).noteStart t seq
        ⟨.qp n c.psn, c.bytes, n, 0, 0, false, 0, 0, false, false, [], [], false, 0⟩
    | none => s
  else
    match s.chain n with
    | none => s
    | some q =>
      let s1 := s.updNet (fun x => { x with execs := x.execs.filter (fun e => match e.src with
        | .desc c _ => c != n
        | _ => true) })
      match q.ring with
      | [] => s1
      | d :: ds =>
        (s1.updChain n (fun y => { y with
          running := some { d with idx := p }
          st := 2
          ring := ds.zipIdx.map (fun (e, i) => { e with idx := p + 1 + i })
          nextIdx := p + 1 + ds.length })).noteStart t seq
          ⟨.desc n p, d.bytes, d.enqQpn, d.session, d.point, false, 0, 0, false, false, [], [], false, d.role⟩

/-- START_RECORD -/
def execStartRecord (tile : Nat) (s : State) : Host.Outcome State Fault Refusal :=
  onTile tile s (s.onItem tile 0x06 (fun x a =>
    if natAt x.body 0 1 = 1 && a.stateDue then none else a.following (fun z => z.takeStart tile x.last x.body)))

/-- A CHAIN item: enqueue (the capsule that enqueued is then done), count change, halted, reset. -/
def State.takeChain (s : State) (b : List Byte) : State :=
  let n := natAt b 0 2
  let q := natAt b 8 4
  let s1 := s.updChain n (fun c => { c with count := natAt b 4 4 })
  match natAt b 2 1 with
  | 0 =>
    let d := bytesAt b 16 64
    let s2 := s1.updChain n (fun c => { c with ring := c.ring ++ [⟨c.nextIdx, q, 0, 0, c.owner, d⟩], nextIdx := c.nextIdx + 1 })
    (match s2.net.execs.find? (fun e => q != 0 && (e.src.psnOn q).isSome && e.bytes == d) with
     | some e => s2.updNet (fun x => { x with execs := x.execs.filter (fun y => y.src != e.src) })
     | none => s2)
  | 2 => (s1.updChain n (fun c => { c with st := 3, running := none })).updNet (fun x => { x with execs := x.execs.filter (fun e => match e.src with
      | .desc c _ => c != n
      | _ => true) })
  | 3 =>
    let wait := s1.net.execs.any (fun e => match e.src with
      | .desc c _ => c == n && capOp e.bytes == 6
      | _ => false)
    (s1.updChain n (fun c => { c with st := 1, ring := [], running := if wait then none else c.running })).updNet (fun x => { x with
      execs := x.execs.filter (fun e => match e.src with
        | .desc c _ => !(c == n && capOp e.bytes == 6)
        | _ => true) })
  | _ => s1

/-- CHAIN_RECORD -/
def execChainRecord (tile : Nat) (s : State) : Host.Outcome State Fault Refusal :=
  onTile tile s (s.onItem tile 0x07 (fun x a => if a.stateDue then none else a.following (fun z => z.takeChain x.body)))

end Sys2Proof.Machine
end

