-- ==== Sys2Proof/Machine/Restore.lean ====
section
/-! DEFINITION. Restore after a start-up, the background restore of clean pages, and the report of the Freeze before (R195 to R198, R46, R258, R290,
R503). -/

namespace Sys2Proof.Machine

/-! ### Metadata (R196 step 1) -/

/-- The sequence number of a tile's newest dump. -/
def State.newestDump (s : State) (t : Nat) : Option Nat :=
  ((s.firn.dumps.filter (fun d => d.tile == t)).map (·.seq)).max?

/-- Whether metadata of a tile stands: its dump is in one of the tile's areas, or it was kept on the way into S3. -/
def State.dumpStands (s : State) (t : Nat) (n : Option Nat) : Bool := n.all (fun q => s.firn.dumps.any (fun d => d.tile == t && d.seq == q))

/-- A tile's metadata, while the dump that it is in stands. -/
def State.tileMeta (s : State) (t : Nat) : Option TileMeta := s.firn.tileSaved.find? (fun m => m.tile == t && s.dumpStands t m.seq)

/-- The package's metadata, while tile 0's dump that it is in stands. -/
def State.packageMeta (s : State) : Option DumpMeta := s.firn.saved.filter (fun m => s.dumpStands 0 m.seq)

/-- The home map of the package: each extent as the tile that homes it has it; a tile whose copy differs has still to apply it (R34). -/
def State.loadHomes (s : State) : State :=
  let all := (List.range s.tiles).filterMap s.tileMeta
  let homes := all.flatMap (fun m => m.homes.filter (fun e => e.2.tile == m.tile))
  s.updAms (fun a => { a with
    homes := homes
    stale := all.flatMap (fun m => (m.homes.filter (fun e => homes.any (fun x => x.1 == e.1 && x.2 != e.2))).map (fun e => (m.tile, e.1, e.2))) })

/-- The tables that a restore brings back: every plan inactive (R46), every chain queue IDLE and empty with its count (R258). -/
def State.loadMeta (s : State) (m : DumpMeta) : State :=
  let s1 := s.loadHomes.updAms (fun a => { a with
    regions := m.regions
    gens := m.gens
    plans := m.plans.map (fun p => { p with active := false }) })
  (s1.updNet (fun n => { n with chains := m.chains.map (fun c => { c with st := 1, ring := [], running := none }) })).countRegions

/-- The first tile that restores brings the package's tables with it. -/
def State.bringMeta (s : State) : State :=
  if s.boot.restored.isEmpty then
    (match s.packageMeta with
     | some m => s.loadMeta m
     | none => s)
  else s

/-! ### Pages (R195, R196 steps 2 and 3) -/

/-- A copy of a page that restore may take: GEN, SEQ, contents with their poison mask, and the tile of the image it is, or none for a dump. -/
structure Copy where
  gen : Nat
  seq : Nat
  word : Codeword
  image : Option Nat
deriving DecidableEq, Repr

/-- Whether copy a goes before copy b: newer GEN, on a tie the higher SEQ (R195). -/
def Copy.before (a b : Copy) : Bool := newerGen a.gen b.gen || (a.gen == b.gen && decide (b.seq < a.seq))

/-- The better of the copies. -/
def bestOf (l : List Copy) : Option Copy :=
  l.foldl (fun m c => match m with
    | none => some c
    | some b => if c.before b then some c else some b) none

/-- The dump codeword of a tile with a SEQ. -/
def State.dumpWord (s : State) (t q : Nat) : Option Codeword := s.deep.flash.find? (fun c => c.tile == t && c.kind == 4 && c.seq == q)

/-- The backing images of a page, local or foreign. -/
def State.imagesOf (s : State) (p : Nat) : List Copy :=
  (s.firn.deep.filter (fun d => d.page == p)).filterMap (fun d => (s.flashAt d.tile d.stripe d.idx).map (fun c => ⟨d.gen, d.seq, c, some d.tile⟩))

/-- The copies of a page: in the dumps of its home tile, and its backing images. -/
def State.copiesOf (s : State) (t p : Nat) : List Copy :=
  ((s.firn.dumps.filter (fun d => d.tile == t)).flatMap (fun d => (d.pages.filter (fun x => x.page == p)).filterMap
    (fun x => (s.dumpWord t x.seq).map (fun c => ⟨x.gen, x.seq, c, none⟩)))) ++ s.imagesOf p

/-- The copy that restore takes. -/
def State.bestCopy (s : State) (t p : Nat) : Option Copy := bestOf (s.copiesOf t p)

/-- Whether a tile's saved metadata has a page as born or dirty (R126). -/
def State.savedBorn (s : State) (t p : Nat) : Bool :=
  (s.tileMeta t).any (fun m => m.born.contains p || m.tokens.any (fun k => k.page == p))

/-- The pages of which a tile holds or seeks a copy: those of durable and mirrored regions that it homes (R38). -/
def State.restorable (s : State) (t : Nat) : List Nat :=
  let ps := ((s.firn.dumps.filter (fun d => d.tile == t)).flatMap (fun d => d.pages.map (·.page))) ++ s.firn.deep.map (·.page) ++
    s.deep.state2.map (fun x => x.1.2) ++ ((s.tileMeta t).map (·.born)).getD []
  (ps.filter (fun p => s.classAt (p * 4096) != 0 && s.homeTile (p / 512) == t && (s.homeOf (p / 512)).isSome)).dedup.mergeSort
    (fun a b => decide (a ≤ b))

/-- A page's contents at its home; for a deep home, ranges that Firn merges. -/
def State.putHome (s : State) (h : Home) (p : Nat) (bs : List Byte) : State :=
  if h.tier = 2 then (List.range 32).foldl (fun a i => a.updFirn (fun f => { f with
    ranges := f.ranges.filter (fun r => !(r.tile == h.tile && r.n == p * 32 + i)) ++ [⟨h.tile, p * 32 + i, bytesAt bs (128 * i) 128⟩] })) s
  else s.putPage h p bs

/-- A codeword read and decrypted. -/
def State.readWord (s : State) (c : Codeword) : State :=
  (s.bump c.tile (Fld.inst FCH.READS.COUNT (cwChannel c.stripe c.idx)) 1).bump c.tile BCX.XTS_UNITS.COUNT 1

/-- A page that has been lost is poison under a new identifier, and divergent in a twin pair (R152, R198). -/
def State.lostPage (s : State) (t p : Nat) : State := (s.poisonPage t p).setDivBit (p / 16) true

/-- A page of a tile from its copy: one from a dump is written home with its poison and a token; a clean near-tier home is written, a clean main-tier
home waits for the background restore, a deep home stays where it is. -/
def State.takeCopy (s : State) (t : Nat) (h : Home) (lost : Bool) (p : Nat) (c : Copy) : State :=
  let s1 := (s.setGen p c.gen).setBorn p
  match c.image with
  | none =>
    let s2 := s1.readWord c.word
    let s3 := ((if lost then s2.lostPage t p else s2.setMask p c.word.mask).putHome h p c.word.data).takeToken t p 0
    s3.updToken t p (fun k => { k with taken := takenAtRestore c.gen })
  | some _ => match h.tier with
    | 0 => ((s1.readWord c.word).setMask p c.word.mask).putHome h p c.word.data
    | 1 => s1.updFirn (fun f => { f with unrestored := f.unrestored ++ [p] })
    | _ => s1.setMask p c.word.mask

/-- A page without a copy: poison of a deep home as its entry holds it (R147); one that was born waits for its restore, which finds nothing, or is
lost; any other is unborn. -/
def State.noCopy (s : State) (t : Nat) (h : Home) (p : Nat) : State :=
  match s.deep.state2.find? (fun x => x.1 == (t, p)) with
  | some x => if h.tier = 2 then (s.setBorn p).poisonAll p x.2 else s
  | none =>
    if !s.savedBorn t p then s
    else if h.tier = 1 then (s.setBorn p).updFirn (fun f => { f with unrestored := f.unrestored ++ [p] })
    else (s.setBorn p).lostPage t p

/-- A page of a tile restored; `lost`: pages whose codeword stays unreadable. A lost image is unmapped, and the next copy counts (R152). -/
def State.restorePage (s : State) (t : Nat) (lost : List Nat) (p : Nat) : State :=
  match s.homeOf (p / 512) with
  | none => s
  | some h =>
    let gone := match s.bestCopy t p with
      | some ⟨_, _, _, some d⟩ => if h.tier = 0 && lost.contains p then some d else none
      | _ => none
    let s1 := match gone with
      | some d => s.unmapDeep d p
      | none => s
    match s1.bestCopy t p with
    | some c => s1.takeCopy t h (lost.contains p) p c
    | none => if gone.isSome then (s1.setBorn p).lostPage t p else s1.noCopy t h p

/-! ### The report (R503) -/

/-- Tiles whose newest dumps differ in sequence number (R195). -/
def State.seqMismatch (s : State) : Bool :=
  decide (1 < (((List.range s.tiles).filterMap (fun t => s.newestDump t)).dedup).length)

/-- The report of the latest Freeze. -/
def State.freezeReport (s : State) : FreezeReport :=
  let r := s.frzRun
  let per := fun (l : List (Nat × Nat)) => (List.range s.tiles).map (fun t => amapGet 0 l t)
  let outs := per r.outcome
  { seq := (s.nv.frzSeq + 2 ^ 32 - 1) % 2 ^ 32
    source := r.source
    outcome := if outs.contains 2 then 2 else if outs.contains 1 then 1 else 3
    flags := b2n r.mainsBack + 2 * b2n r.noArmed + 4 * b2n r.isTest + 8 * b2n s.seqMismatch
    tiles := s.tiles
    unitsLost := r.unitsLost
    dur := per r.ended
    dirty := per r.dirty
    tileOutcome := outs }

/-- The report is kept, and read in the registers; an unsealed dump is a record of its own (R193). -/
def State.report (s : State) : State :=
  if !s.frzRun.pendingReport then s else
  let r := s.freezeReport
  let s1 := { s with nv := { s.nv with reports := (r :: s.nv.reports).take 16 }
                     frzRun := { s.frzRun with pendingReport := false }
                     mb := { s.mb with frzReportDue := true } }
  let s2 := s1.allTiles (fun t a => a.setFs t [(FRZ.STATUS.LAST, r.outcome), (FRZ.LAST.DUR_MS, r.dur.getD t 0), (FRZ.LAST.DIRTY_MB, r.dirty.getD t 0),
    (FRZ.EVENTS.TEST, b2n s.frzRun.isTest), (FRZ.EVENTS.MAINS_RETURN, b2n s.frzRun.mainsBack), (FRZ.EVENTS.COLLAPSE, b2n (r.outcome == 2)),
    (FRZ.SEQ.COUNT, s.nv.frzSeq)])
  let s3 := if r.outcome = 2 then s2.named 0 0x1A 0x0100 4 r.unitsLost else s2
  if s.seqMismatch then s3.recOpen 0 0x1A s.nv.frzSeq else s3

/-! ### The steps -/

/-- The area of the dump just restored becomes the previous one. -/
def State.ageArea (s : State) (t : Nat) : State :=
  let ids := (s.deep.areas.filter (fun a => a.tile == t && a.st == 3)).flatMap (·.stripes)
  { s.updDeep (fun d => { d with
      areas := d.areas.map (fun (a : DumpArea) => if a.tile = t && a.st = 3 then { a with st := 2 } else a)
      stripes := d.stripes.map (fun x => if x.tile = t && ids.contains x.id then { x with st := 5 } else x) }) with
    nv := { s.nv with emerg := s.nv.emerg.filter (fun e => e.tile != t) } }

/-- The moves that the Freeze abandoned are reported in the event record, once (Table 2.13). -/
def State.tellAbandoned (s : State) : State :=
  match s.packageMeta with
  | some m => (m.abandoned.foldl (fun a e => a.recAbandoned e.1 e.2) s).updFirn (fun f => { f with saved := some { m with abandoned := [] } })
  | none => s

/-- After the last tile: both units' divergence words are set (R290), the report is due, the background restore begins. -/
def State.endRestore (s : State) : State :=
  (s.divergeAll.report.tellAbandoned).allTiles (fun t a =>
    a.setF t FRZ.STATUS.BG_RESTORE (b2n (a.firn.unrestored.any (fun p => a.homeTile (p / 512) == t))))

/-- A tile restores. -/
def State.restoreTile (s : State) (t : Nat) (lost : List Nat) : State :=
  let s0 := s.bringMeta
  let s1 := (s0.restorable t).foldl (fun a p => a.restorePage t lost p) s0
  let s2 := ((s1.ageArea t).armArea t).startCache t
  let s3 := { s2 with boot := { s2.boot with restored := s2.boot.restored ++ [t] } }
  if s3.everyTile (fun u => s3.boot.restored.contains u) then s3.endRestore else s3

/-- RESTORE: of a tile; `rootOk`: its translation root reads, else it waits for DEEP_REBUILD (R148); `metaOk`: its dump metadata read; `lost`: pages
whose dump codewords, or near-tier homes whose images, stay unreadable (R198, R152). -/
def execRestore (tile : Nat) (rootOk metaOk : Bool) (lost : List Nat) (s : State) : Host.Outcome State Fault Refusal :=
  onTile tile s
    (if s.dstate != .restore || s.boot.restored.contains tile || s.deep.rebuilding.contains tile || s.deep.rootBad.contains tile then s
     else if !rootOk then s.loseRoot tile
     else if (s.newestDump tile).isSome && (!metaOk || (s.tileMeta tile).isNone || s.packageMeta.isNone) then (s.recOpen tile 0x1A tile).enterFault 14
     else s.restoreTile tile lost)

/-! ### Background restore (R197) -/

/-- Whether a request waits for a page. -/
def State.touched (s : State) (p : Nat) : Bool :=
  s.net.portions.any (fun q => (pagesOf q.addr q.len).contains p) || s.cache.missq.any (fun m => m.n / 32 == p) ||
  s.net.qps.any (fun q => q.reqs.any (fun r => r.kind == 3 && (pagesOf r.addr r.len).contains p)) ||
  s.net.execs.any (fun e => capReads e.bytes (p * 4096) 4096 || capWrites e.bytes (p * 4096) 4096)

/-- Whether an ASSIGN entry or a fired order of a loaded plan names an extent. -/
def State.planned (s : State) (e : Nat) : Bool :=
  s.ams.plans.any (fun p => p.assigns.any (fun a => (p.exts a.ridx a.first a.count).contains e) ||
    p.orders.any (fun o => o.st == 1 && (p.exts o.ridx o.first o.count).contains e))

/-- The place of a page in the order of its tile: requests first, then plans, then frames and pages. -/
def State.restoreRank (s : State) (p : Nat) : Nat :=
  let f := ((s.homeOf (p / 512)).map (·.frame)).getD 0
  (if s.touched p then 0 else if s.planned (p / 512) then 1 else 2) * 2 ^ 60 + f * 512 + p % 512

/-- The page that a tile restores next. -/
def State.restoreNext (s : State) (t : Nat) : Option Nat :=
  (s.firn.unrestored.filter (fun p => s.homeTile (p / 512) == t)).foldl (fun m p => match m with
    | none => some p
    | some q => if s.restoreRank p < s.restoreRank q then some p else some q) none

/-- A page is back: what waited for it goes on. -/
def State.pageBack (s : State) (t p : Nat) : State :=
  let s1 := s.updFirn (fun f => { f with unrestored := f.unrestored.filter (fun q => q != p) })
  let s2 := (s1.net.portions.filter (fun q => q.st == .new && (pagesOf q.addr q.len).contains p)).foldl State.askAdmit s1
  let s3 := (s2.net.qps.map (·.qpn)).foldl State.ackQp s2
  s3.setF t FRZ.STATUS.BG_RESTORE (b2n (s3.firn.unrestored.any (fun q => s3.homeTile (q / 512) == t)))

/-- The image of a page is read for its restore, through Table 6.7: the page is back where a step succeeds, or where nothing can be read any more; else
it waits for the partner or for its next image (R152, R197). -/
def State.restoreImage (s : State) (t p : Nat) (h : Home) (c : Copy) (x : FlashRead) : State :=
  let d := c.image.getD t
  let step := s.ladder d x
  let s1 := s.noteRead d p c.word.stripe (cwChannel c.word.stripe c.word.idx) x step
  if step.isSome then (((s1.setGen p c.gen).setMask p c.word.mask).putPage h p c.word.data).pageBack t p
  else
    let s2 := s1.ladderEnd d p
    if s2.firn.unrestored.contains p then s2 else s2.pageBack t p

/-- BG_RESTORE_PAGE: the next page of a tile from its newest image, read as DEEP_READ does. Throttled, only pages that a request waits for (Table
14.7). A born page of which no copy is left is lost. -/
def execBgRestorePage (tile : Nat) (hard : Bool) (iters retry : Nat) (soft parity : Bool) (s : State) : Host.Outcome State Fault Refusal :=
  onTile tile s
    (if !(s.dstate == .service || s.dstate == .restricted) || s.pow.ranksAway.contains tile then s else
     if !s.flag tile BCX.STATUS.XTS_KEY then s.ev tile BCX.EVENTS.KEY_MISSING else
     match s.restoreNext tile with
     | none => s
     | some p =>
       if s.fld 0 PWC.THERM.LEVEL != 0 && !s.touched p then s else
       match s.homeOf (p / 512), bestOf (s.imagesOf p) with
       | some h, some c => s.restoreImage tile p h c ⟨hard, iters, retry, soft, parity⟩
       | _, _ => (s.lostPage tile p).pageBack tile p)

end Sys2Proof.Machine
end

