-- ==== Sys2Proof/Machine/TwinCommands.lean ====
section
/-! DEFINITION. The items of the ordered stream that carry commands and tables, and the twin commands (R291, R293, R296, R298, Table 10.14). -/

namespace Sys2Proof.Machine

/-! ### COMMAND records (R298, R333) -/

/-- The request frame that a COMMAND record carries. -/
def frameIn (point : Nat) (b : List Byte) : Frame :=
  { point := point, opcode := natAt b 0 2, flags := natAt b 2 1, version := natAt b 3 1, tag := natAt b 4 4, session := natAt b 8 4,
    status := natAt b 0x0E 2, ctr := natAt b 0x10 4, dstate := natAt b 0x14 1, trole := natAt b 0x15 1, rsv := leNat (bytesAt b 0x16 26),
    mac := blockOf (bytesAt b 0x30 16), payload := bytesAt b 0x40 (natAt b 0x0C 2) }

/-- The commands that the partner executes as they stand. -/
def partnerCmds : List Cmd :=
  [cmdChainCreate, cmdPlanLoadBegin, cmdPlanLoadData, cmdPlanLoadEnd, cmdPlanActivate, cmdPlanDeactivate, cmdPlanUnload, cmdMoveExtents,
   cmdMoveCancel, cmdFeedStreamSet, cmdFeedStreamClear, cmdFeedStart, cmdFeedStop, cmdFeedMapLoad, cmdFeedMapSwitch]

/-- A revocation of the serving unit, entered here; its REVOKE records run it. -/
def State.partnerRevoke (s : State) (n cause keep : Nat) : State :=
  match s.regionNum n with
  | some r => s.updAms (fun m => { m with revokes := m.revokes ++ [⟨n, cause, keep, 0, r.gen, r.tag⟩] })
  | none => s

/-- The rights of an entry with this unit's own PIN (R240). -/
def Region.withRights (r : Region) (rights : Nat) : Region :=
  { r with rights := rights % 8 + r.rights / 8 % 2 * 8 + rights / 16 % 2 * 16 }

/-- REGION_SET_FLAGS at the partner: rights set act at once, rights cleared at REVOKE phase 1. -/
def State.partnerFlags (s : State) (pl : List Byte) : State :=
  match s.regionNum (regionArg pl) with
  | none => s
  | some r =>
    let fl := fieldAt [2, 1] pl 1 % 8 + r.rights / 16 * 16
    let s1 := s.updAms (fun m => { m with regions := m.regions.map (fun x => if x.num = r.num then x.withRights (r.rights ||| fl) else x) })
    if (List.range 3).any (fun i => r.right i && !fl.testBit i) then s1.partnerRevoke r.num 2 fl else s1

/-- The descriptors of a queue that are noted as started. -/
def State.dropDescs (s : State) (c : Nat) : State :=
  s.updNet (fun x => { x with execs := x.execs.filter (fun e => match e.src with
    | .desc n _ => n != c
    | _ => true) })

/-- CHAIN_DELETE at the partner. -/
def State.partnerDelete (s : State) (c : Nat) : State :=
  (s.updNet (fun x => { x with chains := x.chains.filter (fun q => q.num != c) })).dropDescs c

/-- The payload of TWIN_CONFIG: PAIR_EN, PAIR_ID, DETECT, LEASE, HOLDOFF, COMEBACK_EN, HELLO_WAIT. -/
def twinCfgSizes : List Nat := [1, 4, 1, 1, 1, 1, 2]

/-- Its limits (Table 10.9). -/
def twinCfgOk (pl : List Byte) : Bool :=
  match parse339 twinCfgSizes pl with
  | some [e, _, d, l, h, c, w] => decide (e < 2) && decide (5 ≤ d) && decide (d ≤ 200) && decide (5 ≤ l) && decide (l ≤ 2 * d) && decide (10 ≤ h) &&
      decide (c < 2) && decide (100 ≤ w) && decide (w ≤ 60000)
  | _ => false

/-- DETECT and LEASE, in force and stored. -/
def State.setDetect (s : State) (pl : List Byte) : State :=
  (s.config 0 TWA.CTRL.DETECT (fieldAt twinCfgSizes pl 2)).config 0 TWA.CTRL.LEASE (fieldAt twinCfgSizes pl 3)

/-- A command that the partner executes as it stands: where its payload is valid, without a response. -/
def State.runAs (s : State) (x : Cmd) (c : Caller) (pl : List Byte) : State :=
  if x.check s pl then (x.run c pl s).after (x.run c pl s).s else s

/-- The partner executes a command as point 15: audited with the originating role and session, no response. -/
def State.partnerRun (s : State) (f : Frame) (role session : Nat) : State :=
  let c : Caller := ⟨role, session, 15⟩
  let s1 := s.audit c f.opcode f.payload false
  if f.opcode = 0x0501 then (if twinCfgOk f.payload then s1.setDetect f.payload else s1)
  else if !s.follows || f.opcode = 0x0200 then s1
  else if f.opcode = 0x0201 then s1.partnerRevoke (regionArg f.payload) 1 0
  else if f.opcode = 0x0202 then s1.partnerRevoke (regionArg f.payload) 0 0
  else if f.opcode = 0x0203 then s1.partnerFlags f.payload
  else if f.opcode = 0x0221 then s1.partnerDelete (chainArg f.payload)
  else match partnerCmds.find? (fun x => x.opcode == f.opcode) with
    | some x => s1.runAs x c f.payload
    | none => s1

/-- A command's record; a unit that does not follow its partner takes TWIN_CONFIG alone (R296). -/
def takeCommandItem (x : RxItem) (a : State) : Option State :=
  let f := frameIn (natAt x.body 0 1) (x.body.drop 8)
  if a.follows || f.opcode = 0x0501 then some (a.partnerRun f (natAt x.body 1 1) (natAt x.body 4 4)) else some a

/-- COMMAND_RECORD -/
def execCommandRecord (s : State) : Host.Outcome State Fault Refusal := .next (s.onItem 0 0x08 takeCommandItem)

/-! ### Revocations, orders (R242, R51) -/

/-- Moves of a region end with it. -/
def State.dropMovesIn (s : State) (r : Region) : State := (s.ams.moves.filter (fun m => r.holds (m.ext * 2 ^ 21))).foldl State.dropMove s

/-- A region with its homes is gone. -/
def State.removeRegion (s : State) (r : Region) : State :=
  (((s.dropMovesIn r).freeRegion r).updAms (fun m => { m with regions := m.regions.filter (fun x => x.num != r.num) })).countRegions

/-- Phase 1 has ended at the serving unit: the entry changes in every copy here; what Table 9.3 ends, ends. Which moves end the serving unit's MOVE
records say: one in FLIPPING there goes on here too (R51). -/
def State.takePhase1 (s : State) (r : Region) (gen : Nat) : State :=
  let v := s.ams.revokes.find? (fun v => v.region == r.num)
  let right := (v.map (·.cause)).getD (if gen = r.gen then 2 else 0) == 2
  let r' := if right then r.withRights ((v.map (·.keep)).getD r.rights) else { r with gen := gen, tag := (v.map (·.newTag)).getD r.tag }
  let s1 := s.updAms (fun m => { m with
    regions := m.regions.map (fun x => if x.num = r.num then r' else x)
    gens := amapInsert r.num r'.gen (amapErase r.num m.gens)
    revokes := m.revokes.map (fun x => if x.region = r.num then { x with phase := 2 } else x) })
  let s2 := s1.allTiles (fun t a => a.setFs t [(RGN.REVOKE.PHASE1, 0), (RGN.REVOKE.PHASE2, 1), (RGN.REVOKE.REGION, r.num)])
  let s3 := if right then s2 else s2.disarmRegion r.num
  let ends := s3.feed.streams.filter (fun x => x.live && r.holds x.cfg.src && (!right || (r.right 0 && !r'.right 0)))
  ends.foldl (fun a x => a.haltStream x.cfg.num 2 .revoked) s3

/-- Phase 2 has ended there. -/
def State.takePhase2 (s : State) (r : Region) : State :=
  let v := s.ams.revokes.find? (fun v => v.region == r.num)
  let s1 := s.updAms (fun m => { m with revokes := m.revokes.filter (fun x => x.region != r.num) })
  let s2 := if (v.map (·.cause)) = some 1 then s1.removeRegion r else s1
  (s2.setAll RGN.REVOKE.PHASE2 0).allTiles (fun t a => a.ev t RGN.EVENTS.REVOKE_DONE)

/-- REVOKE_RECORD -/
def execRevokeRecord (s : State) : Host.Outcome State Fault Refusal :=
  .next (s.onItem 0 0x09 (fun x a => a.following (fun z =>
    match z.regionNum (natAt x.body 0 2) with
    | some r => if natAt x.body 2 1 = 1 then z.takePhase1 r (natAt x.body 3 1) else z.takePhase2 r
    | none => z)))

/-- The state of an order as the serving unit has it. -/
def State.takeOrder (s : State) (p o st : Nat) : State :=
  match s.plan p with
  | none => s
  | some q => s.updOrder p o (fun x => { x with
      st := st % 4
      left := if st = 1 then (if x.st = 1 then x.left else q.exts x.ridx x.first x.count) else [] })

/-- ORDER_RECORD -/
def execOrderRecord (s : State) : Host.Outcome State Fault Refusal :=
  .next (s.onItem 0 0x0A (fun x a => a.following (fun z => z.takeOrder (natAt x.body 0 8) (natAt x.body 8 4) (natAt x.body 12 1))))

/-! ### Moves (R51, R55) -/

/-- An extent takes the home that the serving unit has given it, its data carried along; `none` while a frame, tokens or current images are
wanting. -/
def State.rehome (s : State) (e : Nat) (q : MoveReq) : Option State :=
  match s.homeOf e with
  | none => some s
  | some h =>
    let s1 := match s.moveOf e with
      | some m => s.dropMove m
      | none => s
    if h.tile = q.tile && h.tier = q.tier then some (s1.setHome e { h with sh := q.shared, mv := false }) else
    let m : Move := ⟨e, q, false, true, none, [], s1.bornOf e, 0, false, false, false, true, false, true⟩
    if s1.isFlip m && !s1.imagesCurrent e then none
    else match s1.reserve m with
      | none => none
      | some (f, s2) =>
        let m1 := { m with frame := some f }
        let s3 := s2.updAms (fun x => { x with moves := x.moves ++ [m1] })
        let s4 := s3.beginCommit m1 h
        if s3.mayCommit m1 && s4.canCopy m1 h then some (s4.commitMove m1 h) else none

/-- A move commits at the serving unit: so does this unit's copy, once it can; a SYNCING one whose copy is not ready carries the data now. -/
def State.takeCommit (s : State) (e : Nat) (q : MoveReq) : Option State :=
  match s.moveOf e with
  | some m =>
    if m.flipping || s.role == .standby then some ((s.updMove e (fun x => { x with commitDue := true })).tryCommit e) else s.rehome e q
  | none => s.rehome e q

/-- The request of a MOVE record. -/
def moveIn (b : List Byte) : MoveReq := ⟨natAt b 5 1, natAt b 6 1, natAt b 7 1 == 1, natAt b 8 4, natAt b 16 8⟩

/-- A move's start, commit or end at the serving unit. -/
def takeMoveItem (tile : Nat) (x : RxItem) (a : State) : Option State :=
  let e := natAt x.body 0 4
  let q := moveIn x.body
  if a.stateDue && tile != 0 then none
  else if !a.follows || (a.homeOf e).isNone then some a
  else match natAt x.body 4 1 with
    | 0 => some (a.moveRequest e q true)
    | 1 => a.takeCommit e q
    | _ => match a.moveOf e with
      | some m => some (if m.commitDue then a.updAms (fun y => { y with movePend := amapErase e y.movePend }) else a.dropMove m)
      | none => some a

/-- MOVE_RECORD -/
def execMoveRecord (tile : Nat) (s : State) : Host.Outcome State Fault Refusal :=
  onTile tile s (s.onItem tile 0x0B (takeMoveItem tile))

/-- The partner's copy of a move has reached FLIPPING. -/
def takeReadyItem (x : RxItem) (a : State) : Option State :=
  let e := natAt x.body 0 4
  if a.placing [] then some ((a.updMove e (fun m => { m with ready := true })).tryCommit e) else some a

/-- READY_RECORD -/
def execReadyRecord (tile : Nat) (s : State) : Host.Outcome State Fault Refusal := onTile tile s (s.onItem tile 0x0C takeReadyItem)

/-! ### Marks, epoch, swap (R322, R274, R293) -/

/-- A mark: the STANDBY alone takes it. -/
def takeMarkItem (tile : Nat) (x : RxItem) (a : State) : Option State :=
  if a.role == .standby then some (a.markArrives tile x.body) else some a

/-- INDEX_MARK -/
def execIndexMark (tile : Nat) (s : State) : Host.Outcome State Fault Refusal := onTile tile s (s.onItem tile 0x0D (takeMarkItem tile))

/-- EPOCH_RECORD -/
def execEpochRecord (s : State) : Host.Outcome State Fault Refusal :=
  .next (s.onItem 0 0x0E (fun x a => a.following (fun z => z.setEpoch (natAt x.body 0 8))))

/-- A swap's request at the ACTIVE, its final record at the STANDBY. -/
def takeSwapItem (x : RxItem) (a : State) : Option State :=
  if natAt x.body 0 1 = 1 && a.role == .active && a.maySwap then some a.swapLeave
  else if natAt x.body 0 1 = 2 && a.role == .standby then some (a.updTwin (fun y => { y with finalSeen := true }))
  else some a

/-- SWAP_RECORD -/
def execSwapRecord (s : State) : Host.Outcome State Fault Refusal := .next (s.onItem 0 0x0F takeSwapItem)

/-! ### STATE records (R291, Table 10.19) -/

/-- A SYNCING unit notes what the state it receives has named. -/
def State.sawState (s : State) (k n : Nat) : State :=
  if s.role == .syncing then s.updTwin (fun x => { x with seen := (k, n) :: x.seen }) else s

/-- The region of an entry. -/
def regionIn (b : List Byte) : Region :=
  { num := natAt b 8 2, base := natAt b 24 8, len := natAt b 20 4, cls := natAt b 10 1, tier := natAt b 11 1, start := natAt b 12 1,
    rights := natAt b 13 1 % 32, owner := natAt b 14 1, gen := natAt b 19 1, tag := natAt b 18 1 }

/-- A new region, without PIN, in the place of whatever overlaps it. -/
def State.placeNew (s : State) (r : Region) : State :=
  let old := s.ams.regions.filter (fun x => x.num == r.num || (decide (x.base < r.base + r.len * 2 ^ 21) && decide (r.base < x.base + x.len * 2 ^ 21)))
  (old.foldl State.removeRegion s).addRegion { r with rights := r.rights % 8 + r.rights / 16 * 16 }

/-- A region's entry: the key that a rekey will bring, an entry changed with this unit's own PIN, or a new region, whose extents take their homes
(R39); what is held of another region in its place goes. -/
def State.takeRegion (s : State) (r : Region) : State :=
  match s.regionNum r.num with
  | some x =>
    if x.base = r.base && x.len = r.len then
      (if s.ams.revokes.any (fun v => v.region == r.num && v.cause == 0 && v.phase == 0) && r.gen == (x.gen + 1) % 256 then
        s.updAms (fun m => { m with revokes := m.revokes.map (fun v => if v.region = r.num && v.cause = 0 then { v with newTag := r.tag } else v) })
      else s.updAms (fun m => { m with
        regions := m.regions.map (fun y => if y.num = r.num then
          { r with rights := (y.withRights r.rights).rights } else y)
        gens := amapInsert r.num r.gen (amapErase r.num m.gens) }))
    else s.placeNew r
  | none => s.placeNew r

/-- Home map entries from an extent on. -/
def State.takeHome (s : State) (e w : Nat) : Option State :=
  let q : MoveReq := ⟨w / 2 ^ 28 % 8, w / 2 ^ 26 % 4, w.testBit 24, 0, 0⟩
  if !w.testBit 31 || decide (s.tiles ≤ q.tile) || decide (2 < q.tier) then some s
  else match s.homeOf e with
    | none => some (s.placeExtent e q.tile q.tier)
    | some h => if h.tile = q.tile && h.tier = q.tier then some (s.setHome e { h with sh := q.shared }) else s.rehome e q

/-- A chunk of a plan file; a whole file that R41 accepts takes the place of a plan of its number. -/
def State.takePlan (s : State) (b : List Byte) : State :=
  let id := natAt b 8 8
  let o := natAt b 16 4
  let n := natAt b 20 4
  let old := match s.twin.planIn with
    | some p => if p.id = id && p.bytes.length = o then p.bytes else []
    | none => []
  if old.length != o then s else
  let bs := old ++ (b.drop 32).take (n - o)
  let s1 := s.updTwin (fun x => { x with planIn := if bs.length < n then some ⟨id, natAt b 24 1 == 1, n, bs⟩ else none })
  if bs.length < n then s1 else
  match parsePlan s1.tiles bs with
  | some p => (s1.updAms (fun m => { m with plans := m.plans.filter (fun x => x.id != p.id) ++ [{ p with active := natAt b 24 1 == 1 }] })).sawState 2 p.id
  | none => s1

/-- A chain queue, without descriptors: its CHAIN records bring them. -/
def State.takeQueue (s : State) (b : List Byte) : State :=
  let n := natAt b 8 2
  let next := ((s.chain n).map (·.nextIdx)).getD 0
  let c : Chain := ⟨n, natAt b 10 1, natAt b 11 1, natAt b 12 1 == 1, natAt b 16 4, next, [], none, 0⟩
  ((s.updNet (fun x => { x with chains := x.chains.filter (fun y => y.num != n) ++ [c] })).dropDescs n).sawState 3 n

/-- The end of the state: what it has not named goes; what each stream then brings is in step. -/
def State.endState (s : State) : State :=
  if s.role != .syncing then s else
  let named := fun (k n : Nat) => s.twin.seen.contains (k, n)
  let s1 := (s.ams.regions.filter (fun r => !named 0 r.num)).foldl State.removeRegion s
  let s2 := s1.updAms (fun m => { m with plans := m.plans.filter (fun p => named 2 p.id) })
  let s3 := (s2.net.chains.filter (fun c => !named 3 c.num)).foldl (fun a c => a.partnerDelete c.num) s2
  s3.updTwin (fun x => { x with resync := 1, seen := x.seen.filter (fun e => e.1 == 5), planIn := none })

/-- Part of the state that a resynchronisation sends. -/
def takeStateItem (tile : Nat) (x : RxItem) (a : State) : Option State :=
  if !a.follows then some a
  else if tile != 0 && a.stateDue then none
  else match natAt x.body 0 1 with
    | 0 => some ((a.takeRegion (regionIn x.body)).sawState 0 (natAt x.body 8 2))
    | 1 => (List.range (natAt x.body 12 2)).foldl (fun (z : Option State) i => z.bind (fun y =>
        y.takeHome (natAt x.body 8 4 + i) (natAt x.body (16 + 4 * i) 4))) (some a)
    | 2 => some (a.takePlan x.body)
    | 3 => some (a.takeQueue x.body)
    | _ => some a.endState

/-- STATE_RECORD -/
def execStateRecord (tile : Nat) (s : State) : Host.Outcome State Fault Refusal := onTile tile s (s.onItem tile 0x11 (takeStateItem tile))

/-! ### Commands (Table 10.14) -/

/-- TWIN_STATUS: roles, epoch, interlock levels, heartbeat paths, refusal reason, resynchronisation, divergent extents of each tile. -/
def cmdTwinStatus : Cmd := readCmd 0x0500 .reading noArgs
  (fun _ _ s => .reply s (buildWithList [(1, s.fld 0 TWA.STATUS.ROLE), (1, s.fld 0 TWA.STATUS.PARTNER_ROLE), (8, s.epoch), (1, s.fld 0 TWA.STATUS.ACTO),
    (1, s.fld 0 TWA.STATUS.ACTI), (1, b2n s.hbLvds), (1, b2n s.hbLink), (1, s.fld 0 TWA.STATUS.REFUSE), (1, s.twin.resync)] 4
    ((List.range s.tiles).map (fun t => leBytes 4 (s.divergent t).length))))

/-- TWIN_CONFIG, in force and stored; pairing is tried again, and a refused SYNCING unit settles its role again (R272). -/
def runTwinConfig (_ : Caller) (pl : List Byte) (s : State) : CmdOut :=
  let f := fieldAt twinCfgSizes pl
  let s1 := [(TWA.CTRL.PAIR_EN, f 0), (TWA.CTRL.DETECT, f 2), (TWA.CTRL.LEASE, f 3), (TWA.CTRL.HOLDOFF, f 4), (TWA.CTRL.COMEBACK_EN, f 5),
    (TWA.HELLO_WAIT.MS, f 6)].foldl (fun a e => a.config 0 e.1 e.2) s
  ⟨s1.setCfg (cfgItem 0 6) (f 1), .ok, [], fun a =>
    let b := a.tryPair
    if b.role == .syncing && a.fld 0 TWA.STATUS.REFUSE != 0 then
      b.updTwin (fun x => { x with settled := false, helloSince := b.now }) else b, none⟩

/-- TWIN_CONFIG; an ACTIVE unit in step mirrors it. -/
def cmdTwinConfig : Cmd := actCmd 0x0501 [2] .config (fun _ pl => twinCfgOk pl) runTwinConfig

/-- TWIN_CONFIG as a unit of a pair in step carries it to the other (R296): the ACTIVE holds its response for the record, the STANDBY sends the
record in its own stream. -/
def pairedTwinConfig (f : Frame) (s : State) : Cmd :=
  if !s.flag 0 TWA.STATUS.IN_STEP then cmdTwinConfig
  else if s.role == .active then { cmdTwinConfig with mirrored := true }
  else if s.role == .standby then { cmdTwinConfig with run := fun c pl a =>
    let r := runTwinConfig c pl a
    { r with after := fun z => r.after (z.mirrorCommand { f with opcode := 0x0501 } c.role c.session).2 } }
  else cmdTwinConfig

/-- TWIN_SWAP (R293) -/
def cmdTwinSwap : Cmd := actCmd 0x0502 [2] .config noArgs
  (fun _ _ s => if s.maySwap then ⟨s, .ok, [], State.beginSwap, none⟩ else .done s .stateConflict)

/-- TWIN_LEAVE, ACTIVE only: IN_STEP = 0 leaves with the next word; no resynchronisation follows of itself (R412). -/
def cmdTwinLeave : Cmd := { actCmd 0x0503 [2] .config noArgs
  (fun _ _ s => .done ((s.standAlone 9).updTwin (fun x => { x with left := true })) .ok)
  with ready := fun s _ => s.role == .active }

/-- TWIN_RESYNC, SOLO or ACTIVE only: every divergence bit; an ACTIVE unit first stands alone. -/
def cmdTwinResync : Cmd := { actCmd 0x0504 [2] .config noArgs
  (fun _ _ s =>
    let go := fun (a : State) => (a.divergeAll.updTwin (fun x => { x with left := false })).tryResync
    if s.role == .active then .done (go (s.standAlone 9)) .ok else .done (go s) .ok)
  with ready := fun s _ => s.role == .active || s.role == .solo }

/-- TWIN_FAULT_CLEAR: the check has passed for 1 s (R286). -/
def cmdTwinFaultClear : Cmd := actCmd 0x0505 [2] .config noArgs
  (fun _ _ s => if s.twin.goodSince.any (fun t => decide (t + 1000000 ≤ s.now)) then
    .done ((s.setF 0 TWA.STATUS.IFAULT 0).updTwin (fun x => { x with mismatchSince := none })) .ok else .done s .stateConflict)

/-- TWIN_FORCE_SOLO: takeover past a latched interlock fault. -/
def cmdTwinForceSolo : Cmd := actCmd 0x0506 [2] .config noArgs
  (fun _ _ s => if s.role == .standby && s.dstate == .service && s.anyIfault && s.twin.lost && s.guardMet && s.twin.leaseOk && s.streamsApplied then
    .done (s.takeOver false) .ok else .done s .stateConflict)

/-- TWIN_STATUS -/
def execTwinStatus (f : Frame) (s : State) : Host.Outcome State Fault Refusal := .next (mailbox cmdTwinStatus f s)

/-- TWIN_CONFIG -/
def execTwinConfig (f : Frame) (s : State) : Host.Outcome State Fault Refusal := .next (mailbox (pairedTwinConfig f s) f s)

/-- TWIN_SWAP -/
def execTwinSwap (f : Frame) (s : State) : Host.Outcome State Fault Refusal := .next (mailbox cmdTwinSwap f s)

/-- TWIN_LEAVE -/
def execTwinLeave (f : Frame) (s : State) : Host.Outcome State Fault Refusal := .next (mailbox cmdTwinLeave f s)

/-- TWIN_RESYNC -/
def execTwinResync (f : Frame) (s : State) : Host.Outcome State Fault Refusal := .next (mailbox cmdTwinResync f s)

/-- TWIN_FAULT_CLEAR -/
def execTwinFaultClear (f : Frame) (s : State) : Host.Outcome State Fault Refusal := .next (mailbox cmdTwinFaultClear f s)

/-- TWIN_FORCE_SOLO -/
def execTwinForceSolo (f : Frame) (s : State) : Host.Outcome State Fault Refusal := .next (mailbox cmdTwinForceSolo f s)

end Sys2Proof.Machine
end

