-- ==== Sys2Proof/Machine/Sleep.lean ====
section
/-! DEFINITION. Sleep entry (R386 to R390): POWER_SLEEP and the steps of Table 14.3. Wake stands in `Wake`. -/

namespace Sys2Proof.Machine

/-! ### The steps of entry (Table 14.3) -/

/-- Step 1 of an accepted sleep: `TW_ACTO` low, DEPART where a partner is heard; the lease and heartbeats stand still while a target is set. -/
def State.sleepBegin (s : State) (target : Nat) : State :=
  let s1 := s.driveActo false
  let s2 := if s.inPair && !s.twin.lost && s.twin.lastWord.isSome then s1.depart false else s1
  let s3 := if target = 2 then s2.setAll FRN.CTRL.PAUSE 0 else s2
  { s3 with pow := { s3.pow with target := target, entryStep := 2, stepAt := s.now, heldLate := false } }.setF 0 PWC.SLEEP.STATE (2 * target - 1)

/-- A capsule or descriptor that does not hold up the entry: a WAIT, or one whose portions all wait at the closed gate (R266). -/
def State.waitsAsleep (s : State) (e : Exec) : Bool :=
  capOp e.bytes == 6 ||
  (let ps := s.net.portions.filter (fun p => p.capsule && p.src == e.src)
   !ps.isEmpty && ps.all (fun p => p.st == .new || p.st == .waiting))

/-- Step 2: admitted portions are applied, what executes is complete, the device's own requests are acknowledged. -/
def State.sleepSettled (s : State) : Bool :=
  s.net.portions.all (fun p => p.st != .admitted) && s.net.execs.all (fun e => s.waitsAsleep e) && s.net.qps.all (fun q => q.shadow || q.sent.isEmpty)

/-- Step 3: Firn's cleaning is over: S2 waits `CLEAN_MS` at most. -/
def State.sleepCleaned (s : State) : Bool :=
  s.pow.target == 1 || s.firn.tokens.isEmpty || (s.pow.target == 2 && s.pow.heldLate)

/-- Every tile's cache is DISABLED. -/
def State.cachesOff (s : State) : Bool := s.everyTile (fun t => s.cacheIs t .disabled)

/-- What step 4 does to a tile's cache: DRAINING, or DISABLED where nothing is dirty (R81). -/
def State.sleepCache (s : State) (t : Nat) : State :=
  if !s.cacheIs t .enabled then s else if s.dirtyCache t then s.drainCache t .draining else s.cacheOff t

/-- Step 5 may run: no frequency change or repair stands, and for S2 the frames to retain lie in the retained ranks (R106, R108). -/
def State.ranksReady (s : State) : Bool :=
  s.everyTile (fun t => (List.range 3).all (fun c => (s.dmc t c).chgSet.isNone && (s.dmc t c).repair.isNone && decide ((s.dmc t c).pauseEnd ≤ s.now)) &&
    (s.pow.target != 2 || s.relocated t))

/-- Links of a tile go down: both host ports and the twin link (step 6 of S2 and S3). -/
def State.linksOff (s : State) (t : Nat) : State :=
  let s1 := (List.range 8).foldl (fun a k => a.linkDown t (k / 4) (k % 4)) s
  if s1.flag t TWL.STATUS.LINK_UP then s1.twlDown t else s1

/-- Steps 5 to 8, which nothing interrupts in the model: self-refresh, ports and lanes, clocks and rails, the new state. -/
def State.fallAsleep (s : State) : State :=
  let s1 := s.allTiles (fun t a => ((List.range 3).foldl (fun b c => b.setC t c DMC.STATUS.STATE 5) a).setFs t
    [(FED.LANES.POWERED, 0), (FED.LANES.LOCK, 0), (FED.LANES.STATUS_OK, 0)])
  match s.pow.target with
  | 1 => ((s1.allTiles (fun t a => (List.range 3).foldl (fun b c => b.setRanks t c 1) a)).setF 0 PWC.SLEEP.STATE 2).toState .s1
  | 2 =>
    let s2 := s1.allTiles (fun t a => (a.loseRanks t).linksOff t)
    ((s2.setFs 0 [(PWC.STATUS.CLK_REQ, 0), (PWC.STATUS.PG, 11), (PWC.SLEEP.STATE, 4),
      (PWC.PHASES.ON, s2.fld 0 PWC.PHASES.ON &&& 0xC3FFFF)]).railSet 600 600).toState .s2
  | _ =>
    let s2 := s1.allTiles (fun t a => (((List.range 3).foldl (fun b c => b.sleepRanks t c 0) (a.keepMeta t none)).linksOff t).setF t AON.STATUS.ARMED 0)
    ((s2.setFs 0 [(PWC.STATUS.CLK_REQ, 0), (PWC.STATUS.PG, 0), (PWC.PHASES.ON, 0), (PWC.STATUS.HU_EN, 0), (PWC.SLEEP.STATE, 0)])).toState .s3

/-- The entry stands at a step from now on. -/
def State.sleepAt (s : State) (n : Nat) : State := { s with pow := { s.pow with entryStep := n, stepAt := s.now } }

/-- One step of the entry, where it may end now. -/
def State.sleepStep (s : State) : State :=
  if s.dstate != .service || s.pow.target = 0 then s else
  match s.pow.entryStep with
  | 2 => if s.sleepSettled then (s.sleepAt 3).allTiles (fun t a => a.noteUrgent t) else s
  | 3 => if !s.sleepCleaned then s else if s.pow.target = 1 then s.sleepAt 5 else (s.sleepAt 4).allTiles (fun t a => a.sleepCache t)
  | 4 =>
    let s1 := s.allTiles (fun t a => a.sleepCache t)
    if s1.cachesOff then (s1.setAll TCH.WAYSTAT.POWERED 0).sleepAt 5 else s1
  | 5 => if s.ranksReady then s.fallAsleep else s
  | _ => s

/-- The entry goes on as far as it may. -/
def State.sleepProceed (s : State) : State := s.sleepStep.sleepStep.sleepStep.sleepStep

/-! ### The command and its time limit -/

/-- The BUSY cases of R386. -/
def State.sleepBusy (s : State) : Bool :=
  s.feed.streams.any (fun x => x.st != 1) || !s.ams.moves.isEmpty || !s.ams.movePend.isEmpty ||
  s.anyTile (fun t => (List.range 3).any (fun c => (s.dmc t c).chgSet.isSome)) || !s.ams.revokes.isEmpty || s.pow.target != 0

/-- Whether the twin role lets the unit sleep (R386). -/
def State.sleepRole (s : State) : Bool :=
  s.role == .solo || s.role == .syncing || !s.flag 0 TWA.CTRL.PAIR_EN

/-- POWER_SLEEP: TARGET 1 to 3 and the flag VOLATILE_OK; refusals in the order of R386. -/
def cmdPowerSleep : Cmd := { actCmd 0x0031 [2] .sleep
  (fun _ pl => match parse339 [1, 1] pl with
    | some [t, v] => decide (1 ≤ t) && decide (t ≤ 3) && decide (v < 2)
    | _ => false)
  (fun _ pl s =>
    let f := fieldAt [1, 1] pl
    if f 0 == 3 && f 1 == 0 && s.ams.regions.any (fun r => r.cls == 0) then .done s .stateConflict
    else if s.sleepBusy then .done s .busy
    else ⟨s, .ok, [], fun a => (a.sleepBegin (f 0)).sleepProceed, none⟩)
  with ready := fun s _ => s.dstate == .service && s.sleepRole }

/-- POWER_SLEEP -/
def execPowerSleep (f : Frame) (s : State) : Host.Outcome State Fault Refusal := .next (mailbox cmdPowerSleep f s)

/-- SLEEP_CLEAN_TIMEOUT: `PWC.SLEEP.CLEAN_MS` has passed in step 3 of an S2 entry. -/
def execSleepCleanTimeout (s : State) : Host.Outcome State Fault Refusal :=
  .next (if s.dstate == .service && s.pow.target == 2 && s.pow.entryStep == 3 &&
      decide (s.pow.stepAt + s.fld 0 PWC.SLEEP.CLEAN_MS * 1000 ≤ s.now) then
    { s with pow := { s.pow with heldLate := true } }.sleepProceed
  else s)

end Sys2Proof.Machine
end

