-- ==== Sys2Proof/Machine/View.lean ====
section
/-! DEFINITION. What a read of Control Space returns (R9, R10, R13, R352, R353, R356): the fields that show other state, readings of the
analogue monitors, the windows, and the fields that a read clears. -/

namespace Sys2Proof.Machine

/-! ### Which instance serves (R13, Table 1.1) -/

/-- Whether the instance of a register on tile t works there: package functions on tile 0 only, the OTP row on tiles 0 and 1; the event
counter of a block of which a part works there works too. -/
def regServes (t blk off : Nat) : Bool :=
  t == 0 ||
  (match blk with
   | 0x02 | 0x39 | 0x3d | 0x3f => false
   | 0x03 => decide (off < 0x10) || off == 0x24 || off == 0xffc
   | 0x04 => (decide (0x08 ≤ off) && decide (off < 0x18)) || off == 0x28 || off == 0xffc
   | 0x29 => off == 0x14 || off == 0x40 || off == 0x44 || off == 0xffc
   | 0x3b => t == 1
   | 0x3c => off == 0x0c || off == 0x20 || off == 0x48 || off == 0xffc
   | _ => true)

/-- BLOCK.ID.SERVES: a block with a part that works on tile t, AON, PWC, TWA and EVR among them (DEDUCED, log entry 35). -/
def blockServes (t blk : Nat) : Bool := t == 0 || (match blk with
  | 0x02 | 0x39 | 0x3d | 0x3f => false
  | 0x3b => t == 1
  | _ => true)

/-- Block IDs of Table 12.9. -/
def blockIds : List Nat :=
  [0x01, 0x02, 0x03, 0x04, 0x08, 0x09, 0x0A, 0x0B, 0x0C, 0x0D, 0x0E, 0x10, 0x11, 0x12, 0x13, 0x14, 0x15, 0x16, 0x17, 0x18, 0x19, 0x1A] ++
  [0x20, 0x21, 0x22, 0x23, 0x24, 0x25, 0x28, 0x29, 0x30, 0x31, 0x38, 0x39, 0x3A, 0x3B, 0x3C, 0x3D, 0x3E, 0x3F]

/-! ### Fields that show other state -/

/-- Saturation at a width. -/
def satW (w n : Nat) : Nat := min n (2 ^ w - 1)

/-- Mover, near tier and cache (Tables 2.15, 2.16, 3.9). -/
def State.viewTiers (s : State) (t : Nat) : List (Fld × Nat) :=
  let moves := s.ams.moves.filter (fun m => s.homeTile m.ext == t)
  [(MOV.STATUS.PENDING, satW 8 (s.ams.movePend.filter (fun e => s.homeTile e.1 == t)).length),
   (MOV.STATUS.WAITING, satW 8 (moves.filter (fun m => m.preparing)).length), (MOV.STATUS.ACTIVE, s.movesActive t),
   (MOV.TRIG_ARMED.ARMED, ((s.ams.plans.filter (fun p => p.active)).map (fun p => (p.orders.filter (fun o => o.st == 0)).length)).sum),
   (NTR.FRAMES.FIFO, (s.fifoFrames t).length), (NTR.FRAMES.HOME, (s.ams.homes.filter (fun e => e.2.tile == t && e.2.tier == 0)).length),
   (NTR.FRAMES.FREE, s.freeFrames t 0), (TCH.STATUS.EVB_USED, (s.evbOf t).length),
   (TCH.STATUS.MISSQ_USED, (s.cache.missq.filter (fun m => m.tile == t)).length), (TCH.GEOM.HOST_SETS, s.hostSets t),
   (TCH.GEOM.STREAM_SETS, s.streamSets t)]

/-- A DDR5 channel: queue entries of both subchannels (Table 4.12). -/
def State.viewDmc (s : State) (t c : Nat) : List (Fld × Nat) :=
  let q := (s.dmc t c).queue
  [(Fld.inst DMC.STATUS.RQ_USED c, (q.filter (fun r => !r.write)).length), (Fld.inst DMC.STATUS.WQ_USED c, (q.filter (fun r => r.write)).length)]

/-- The log entry and the table entry that `LOG_SEL` and `RET_SEL` select (Tables 5.9, 5.10); a free entry reads 0. -/
def State.logShown (s : State) (t : Nat) : List Nat :=
  match s.dec.logs.find? (fun (e : DecLog) => e.tile == t && e.ch == s.fld t DEC.LOG_SEL.CH && e.slot == s.fld t DEC.LOG_SEL.ENTRY) with
  | some e => e.words s.now
  | none => [0, 0, 0, 0]

def State.retShown (s : State) (t : Nat) : List Nat :=
  let c := s.fld t DEC.RET_SEL.CH
  let i := s.fld t DEC.RET_SEL.INDEX
  (match s.fld t DEC.RET_SEL.TABLE with
   | 0 => (s.dec.erases.find? (fun (e : DecErase) => e.tile == t && e.ch == c && e.bank.isNone && e.sub * 16 + e.rank == i)).map (fun (e : DecErase) => e.words)
   | 1 => ((s.dec.erases.filter (fun (e : DecErase) => e.tile == t && e.ch == c && e.bank.isSome))[i]?).map (fun (e : DecErase) => e.words)
   | 2 => ((s.dec.pages.filter (fun (e : DecPage) => e.tile == t))[i]?).map (fun (e : DecPage) => e.words)
   | _ => none).getD [0, 0]

/-- The integrity block (Tables 5.8 to 5.10). -/
def State.viewDec (s : State) (t : Nat) : List (Fld × Nat) :=
  [(⟨0x0b, 0x04, 0, 32⟩, s.decStatus t), (DEC.RESV.FRAME, s.decFrame), (⟨0x0b, 0x44, 0, 32⟩, (s.retShown t).getD 0 0),
   (DEC.RET_DATA1.SPARE, (s.retShown t).getD 1 0)] ++
  (List.range 4).map (fun i => (DEC.LOG_W.DATA.up (4 * i), (s.logShown t).getD i 0))

/-- The deep tier, Firn and the flash channels (Tables 6.10, 6.11, 7.9 to 7.11). -/
def State.viewDeep (s : State) (t : Nat) : List (Fld × Nat) :=
  let held := (s.firn.tokens.filter (fun k => k.tile == t)).length
  [(DTM.STATUS.MODE, s.deepMode t), (DTM.STATUS.DUMP, s.dumpCode t), (DTM.STATUS.OP_NOW, s.opNow t), (DTM.FREE.STRIPES, s.freeStripes t),
   (DTM.SPARE.BLOCKS, s.spareBlocks t), (DTM.TABLE.FRAMES, satW 16 (s.deep.tableFrames.filter (fun e => e.1 == t)).length),
   (DTM.WEAR.PE_MAX, satW 16 (s.peMax t)), (DTM.WEAR.PE_AVG, satW 16 (s.peAvg t)), (FRN.FREE.EXCESS, b2n (decide (s.pool t < held))),
   (FRN.FREE.PAGES, s.pool t - held), (FRN.STATUS.MODE, s.firnMode t), (FRN.STATUS.BUF_PAGES, s.bufPages t),
   (FRN.WAITING.REQUESTS, satW 16 (s.net.portions.filter (fun p => p.tile == t && p.st == .waiting)).length)]

def State.viewFch (s : State) (t c : Nat) : List (Fld × Nat) :=
  [(Fld.inst FCH.STATUS.BUSY c, ((List.range (s.lunsOn t c)).map (fun l => if s.lunBusy t l then 2 ^ l else 0)).sum)]

/-- The command queue (Table 9.12). -/
def State.viewHcq (s : State) (t : Nat) : List (Fld × Nat) :=
  let mine := s.net.chains.filter (fun c => c.num % s.tiles == t)
  [(HCQ.STATUS.EXECUTING, satW 16 (s.net.execs.filter (fun e => match e.src with
      | .qp n _ => qpTile n == t
      | _ => false)).length),
   (HCQ.STATUS.WAITING, satW 16 (s.net.portions.filter (fun p => p.tile == t && (p.st == .new || p.st == .waiting))).length),
   (HCQ.CHQ.HALTED, (mine.filter (fun c => c.shown == 3)).length), (HCQ.CHQ.RUNNING, (mine.filter (fun c => c.shown == 2)).length)]

/-- The mirror engine's mode: live, resynchronising and live, recording divergence. -/
def State.mirMode (s : State) : Nat :=
  match s.role with
  | .active | .standby => 1
  | .solo => if !s.inPair then 0 else if s.twin.resync = 0 then 3 else 2
  | .syncing => if s.twin.resync = 0 then 0 else 2
  | .none => 0

/-- The twin arbiter and mirror engine (Tables 10.9, 10.14). Credit granted: what is available and what is in flight. -/
def State.viewTwin (s : State) (t : Nat) : List (Fld × Nat) :=
  [(TWA.STATUS.HB_LVDS, b2n s.hbLvds), (TWA.STATUS.HB_LINK, b2n s.hbLink), (TWA.STATUS.PREF, b2n s.pow.twPref), (MIR.STATUS.MODE, s.mirMode),
   (MIR.STATUS.DIVERGENT, satW 24 (s.divergent t).length), (TWL.TX_PN_HI.PN, (s.twl t).txPn / 2 ^ 32),
   (MIR.CREDIT.GRANTED, min 65536 (s.fld t MIR.CREDIT_AVAIL.AVAILABLE + ((s.twl t).unacked.map (fun f => frameUnits f.body)).sum))]

/-- The feed and the nozzle map (Tables 11.10, 11.13). -/
def State.viewFeed (s : State) (t : Nat) : List (Fld × Nat) :=
  let w := s.streamWords (t * 32 + s.fld t FED.SSEL.SLOT)
  let bits := fun (p : FStream → Bool) => ((s.feed.streams.filter (fun x => feedTileOf x.cfg.num == t && p x)).map (fun x => 2 ^ (x.cfg.num % 32))).sum
  (List.range 5).map (fun i => (⟨0x30, 0x10 + 4 * i, 0, 32⟩, w.getD i 0)) ++
  [(NZM.BANK.ACTIVE, bits (fun x => x.bank == 1)), (NZM.PENDING.SWITCH, bits (fun x => x.switch.isSome))]

/-- Seconds until the last lockout ends (R348). -/
def State.lockoutLeft (s : State) : Nat :=
  (s.mb.lockouts.map (fun x => ceilDiv (x.2 + 60000000 - s.now) 1000000)).foldl max 0

/-- The key-slot engine: VALID slots, and the attributes of the slot shown (Table 15.6). -/
def State.viewKse (s : State) : List (Fld × Nat) :=
  let k := s.slot (s.fld 0 KSE.SLOT_SEL.SLOT)
  [(KSE.STATUS.VALID, (s.kse.slots.filter (fun e => e.2.valid)).length), (KSE.SLOT_INFO.VALID, b2n k.valid),
   (KSE.SLOT_INFO.EXHAUSTED, b2n k.exhausted), (KSE.SLOT_INFO.SIZE, b2n k.size256), (KSE.SLOT_INFO.USAGE, k.usage), (KSE.SLOT_INFO.GEN, k.gen),
   (KSE.SLOT_CTR_LO.CTR, k.ctr % 2 ^ 32), (KSE.SLOT_CTR_HI.CTR, k.ctr / 2 ^ 32)]

/-- Event recorder and time (Table 17.5). -/
def State.viewEvr (s : State) (t : Nat) : List (Fld × Nat) :=
  [(EVR.OPEN.SEQ, s.openSeq), (EVR.QUEUE.TILE0_USED, if t = 0 then s.recd.queue.length else 0),
   (EVR.QUEUE.USED, (s.recd.tileQ.filter (fun e => e.1 == t)).length), (EVR.PTIME_LO.US, s.ptime % 2 ^ 32), (EVR.PTIME_HI.US, s.ptime / 2 ^ 32),
   (EVR.CAL_LO.MS, s.ctime % 2 ^ 32), (EVR.CAL_HI.MS, s.ctime / 2 ^ 32), (EVR.CAL_HI.SET, b2n s.recd.base.isSome),
   (EVR.CAL_HI.COARSE, b2n s.recd.coarse)]

/-- The fields of a block on tile t that show other state. -/
def State.view (s : State) (t blk : Nat) : List (Fld × Nat) :=
  match blk with
  | 0x03 => [(AON.ETC_LO.TICKS, s.etc % 2 ^ 32), (AON.ETC_HI.TICKS, s.etc / 2 ^ 32)]
  | 0x08 | 0x09 | 0x0a => s.viewDmc t (blk - 8)
  | 0x0b => s.viewDec t
  | 0x0c | 0x0d | 0x0e => s.viewTiers t
  | 0x10 | 0x11 | 0x12 | 0x13 | 0x14 | 0x15 | 0x16 | 0x17 => s.viewFch t (blk - 16)
  | 0x18 | 0x19 => s.viewDeep t
  | 0x23 => [(RMA.BUF_POOL.WIN_KB, s.poolKb t)]
  | 0x25 => s.viewHcq t
  | 0x28 | 0x29 => s.viewTwin t
  | 0x30 | 0x31 => s.viewFeed t
  | 0x39 => s.viewKse
  | 0x3c => s.viewEvr t
  | 0x3d => [(TWB.STATUS.OUT_PKTS, satW 8 s.twb.outPkts.length), (TWB.STATUS.FLAGS, s.statusByte % 32), (TWB.STATUS.ADDR, s.twbAddr)]
  | 0x3f => [(RLE.LOCKOUT.REMAIN_S, satW 8 s.lockoutLeft)]
  | _ => []

/-! ### Reading -/

/-- The row of regRows that holds an offset of a block, if it has fields that are not read-only. -/
def rowOf (blk off : Nat) : Option RegRow :=
  (regRows blk).find? (fun r => decide (r.off ≤ off) && decide (off < r.off + max 1 (r.n * r.stride)) && (r.n == 1 || (off - r.off) % r.stride == 0) &&
    (r.n != 1 || off == r.off))

/-- A word with the RC fields of its register cleared (R10). -/
def clearRc (blk off : Nat) (w : Word) : Word :=
  if off = 0xffc then 0 else
  match rowOf blk off with
  | some r => (r.fields.filter (fun f => f.acc == .rc)).foldl (fun a f => wordSet a f.lo f.w 0) w
  | none => w

/-- BLOCK.ID (Table 12.10); on tiles 2 to 7 every OTP register reads 0 (R13). -/
def blockId (t blk : Nat) : Nat :=
  if blk = 0x3b && 1 < t then 0 else blk * 2 ^ 24 + 2 ^ 16 + t * 2 ^ 8 + b2n (blockServes t blk)

/-- An uncorrectable 64-bit word of the store read through the window: counted; the word reads as a free value. -/
def State.nvsUnreadable (s : State) (t : Nat) : Nat × State :=
  let (v, s1) := ((s.bump t NVS.ECC.UNCORR 1).ev t NVS.EVENTS.ECC_UNCORR).draw
  (v % 2 ^ 32, s1)

/-- A word of the store through ECC (Table 16.5). -/
def State.readNvsAt (s : State) (t a : Nat) : Nat × State :=
  if (s.array t).badWords.contains (a / 8) then s.nvsUnreadable t else (leNat (s.bytes .nvs t a 4), s)

/-- The address of a word of the selected store sector. -/
def State.nvsWinAddr (s : State) (t off : Nat) : Nat := s.fld t NVS.WIN_SEL.SECTOR * 2048 + (off - 0x2000)

/-- A word of the selected store sector; a sector that does not exist reads 0. -/
def State.readNvsWin (s : State) (t off : Nat) : Nat × State :=
  if s.nvsWinAddr t off < 0x800000 then s.readNvsAt t (s.nvsWinAddr t off) else (0, s)

/-- A read of one register of tile t (R353): its word, and the state after. -/
def State.readReg (s : State) (t blk off : Nat) : Nat × State :=
  if off = 0xff8 then (blockId t blk, s)
  else if !regServes t blk off then (if blk = 0x3b then 0 else (regResetWord blk off).toNat, s)
  else if blk = 0x3a && 0x2000 ≤ off && off < 0x2800 then s.readNvsWin t off
  else if blk = 0x3b && 0x1000 ≤ off && off < 0x2000 then
    (if (off - 0x1000) / 64 = 2 || (off - 0x1000) / 64 = 3 then 0 else leNat (s.otpBytes t (off - 0x1000) 4), s)
  else
    let s1 := s.senseReg t blk off
    let w := s1.word t blk off
    let v := ((s1.view t blk).filter (fun e => e.1.blk == blk && e.1.off == off)).foldl (fun a e => wordSet a e.1.lo e.1.w e.2) w
    (v.toNat, s1.setWord t blk off (clearRc blk off w))

end Sys2Proof.Machine
end

