-- ==== Sys2Proof/Machine/RegAccess.lean ====
section
/-! DEFINITION. Register access (R352 to R354): what a write of a register does, REG_READ, REG_WRITE, and a write by firmware. -/

namespace Sys2Proof.Machine

/-! ### Values that a field takes (R354) -/

/-- Fields with a range, their least and greatest value: a write of another value leaves the field as it is. -/
def ranged : List (Fld × Nat × Nat) :=
  [(MOV.CTRL.MAX_PAR, 1, 8), (MOV.RECOPY.MAX_PASS, 1, 15), (DMC.PAGE.POLICY, 0, 2), (DMC.SCHED.WQ_HI, 1, 64), (DMC.REF.POST_MAX, 0, 8),
   (DMC.RETRAIN.PERIOD, 8, 1023), (DEC.SCRUB.PERIOD, 1, 255), (DEC.INJ_XOR.VALUE, 1, 255), (DTM.CTRL.OP_PCT, 7, 40), (DTM.TABLE.FLUSH_MS, 10, 1000),
   (FRN.CTRL.URGENT_PCT, 5, 75), (ETH.CFG.MTU, 0, 2), (ETH.CFG.MODE, 0, 2), (ETH.PFC.WATCHDOG_MS, 1, 255), (RMA.CTRL.ERR_HOLD_S, 1, 255)] ++
  [(RMA.WIN.MAX_KB, 4, 4096), (RMA.WIN.ACTIVE_US, 1, 65535), (TWA.CTRL.DETECT, 5, 200), (TWA.CTRL.LEASE, 5, 255), (TWA.CTRL.HOLDOFF, 10, 255),
   (TWA.HELLO_WAIT.MS, 100, 60000), (MIR.BUF.KB, 1024, 16384), (FED.CTRL.ERR_TH, 1, 255), (FED.ALIGN.WIN_US, 100, 1900),
   (BST.BANK_CFG.RTEST_MOHM, 1, 65535), (BST.BANK_CFG.DELTA, 10, 100), (AON.FILTER.MAINS_US, 1, 50), (AON.TCRIT.C, 105, 125),
   (PWC.SLEEP.CLEAN_MS, 100, 60000), (NVS.WEAR_TH.PULSE_WARN, 2, 15), (EVR.CTRL.NOTIFY_SEV, 1, 5), (EVR.CTRL.WINDOW_MS, 1, 60000),
   (TWB.CFG.NOTIFY_MS, 1, 255)]

/-- The block ID of the first block of a kind (DMC0, FCH0, ETH0). -/
def kindOf (blk : Nat) : Nat :=
  if blk = 9 || blk = 10 then 8 else if 0x11 ≤ blk && blk ≤ 0x17 then 0x10 else if blk = 0x21 then 0x20 else blk

/-- Whether the field at a bit of a register takes a value, whatever the other fields hold. -/
def State.takes (s : State) (t blk off lo v : Nat) : Bool :=
  let f := fun (g : Fld) => g.blk == kindOf blk && g.off == off && g.lo == lo
  (match ranged.find? (fun e => f e.1) with
   | some (_, a, b) => decide (a ≤ v) && decide (v ≤ b)
   | none => true) &&
  (!f DMC.RETAIN.RETAINED || [0, 1, 2, 4, 8, 16].contains v) && (!f RMA.WIN.MAX_KB || v % 4 == 0) &&
  (!f DTM.CTRL.RETRY_MAX || (decide (1 ≤ v) && decide (v ≤ s.prof 0x3D 1))) &&
  (!f DTM.CTRL.OP_PCT || !decide (s.userCapAt t v < (s.reserving t).length * 2 ^ 21)) &&
  (!f TWB.CFG.HOST_ADDR || hostAddrOk s v) && (!(f DEC.RET_DATA0.ENTRY || f DEC.RET_DATA0.VALID || f DEC.RET_DATA1.SPARE) || s.dstate == .selftest)

/-- A field's value after a write of the bits of `value` where `mask` is 1, by its access type (Table 0.3, R354). -/
def State.newField (s : State) (t blk off : Nat) (old : Word) (mask value : Nat) (r : FieldRow) : Nat :=
  let o := wordField old r.lo r.w
  let m := bitsOf mask r.lo r.w
  let v := bitsOf value r.lo r.w
  match r.acc with
  | .rw => let n := (o ||| m) - m + (v &&& m); if s.takes t blk off r.lo n then n else o
  | .w1c => (o ||| (v &&& m)) - (v &&& m)
  | .rc | .wo => o

/-- The fields of a register that a write acts on. -/
def fieldsAt (blk off : Nat) : List FieldRow := ((rowOf blk off).map (fun (r : RegRow) => r.fields)).getD []

/-- Fields whose limits name another field: those of a register that do not hold together keep their old values. -/
def State.unfit (s : State) (t blk off : Nat) : List Fld :=
  let g := fun (f : Fld) => s.fld t { f with blk := blk }
  let on := fun (f : Fld) => f.blk == kindOf blk && f.off == off
  (if on DMC.SCHED.WQ_LO && g DMC.SCHED.WQ_HI ≤ g DMC.SCHED.WQ_LO then [DMC.SCHED.WQ_LO] else []) ++
  (if on DTM.GC.LO && g DTM.GC.HI ≤ g DTM.GC.LO then [DTM.GC.LO] else []) ++
  (if on TWA.CTRL.DETECT && 2 * g TWA.CTRL.DETECT < g TWA.CTRL.LEASE then [TWA.CTRL.DETECT, TWA.CTRL.LEASE] else []) ++
  (if on PWC.THERM.THROTTLE && (g PWC.THERM.THROTTLE < g PWC.THERM.WARN || s.fld 0 AON.TCRIT.C < g PWC.THERM.THROTTLE + 10) then
    [PWC.THERM.THROTTLE] else []) ++
  (if on AON.HU_THRESH.TRIP && (g AON.HU_THRESH.EMERG < 2200 || 13000 < g AON.HU_THRESH.EMERG ||
      g AON.HU_THRESH.TRIP < g AON.HU_THRESH.EMERG + 1000 || 15200 < g AON.HU_THRESH.TRIP) then [AON.HU_THRESH.TRIP, AON.HU_THRESH.EMERG] else [])

/-- The weights of a port in its ETS registers (R206). -/
def State.etsSum (s : State) (t port : Nat) : Bool :=
  etsOk (s.fld t (ETH.ETS_STRICT.STRICT.inst port)) ((List.range 8).map (fun c => s.fld t (etsFld port c)))

/-- The register as the write leaves it, with the events of a refused one: feed admission (R100), ETS weights (R206). -/
def State.putReg (s : State) (t blk off : Nat) (w : Word) : State :=
  let old := s.word t blk off
  let a := s.setWord t blk off w
  let b := (a.unfit t blk off).foldl (fun x f => x.setF t { f with blk := blk } (wordField old f.lo f.w)) a
  if kindOf blk = 0x20 && (off = ETH.ETS0.BW0.off || off = ETH.ETS1.BW4.off || off = ETH.ETS_STRICT.STRICT.off) && w != old && !b.etsSum t (blk - 0x20) then
    s.ev t (ETH.EVENTS.ETS_REFUSED.inst (blk - 0x20))
  else if kindOf blk = 8 && off = DMC.PANIC.FEED_PCT.off then
    let f := DMC.PANIC.FEED_PCT.inst (blk - 8)
    let p := b.fld t f
    if p != s.fld t f && (p < 10 || 80 < p || 3 * bFeed (s.fld t (DMC.SPEED.CUR_RATE.inst (blk - 8))) p < s.mainAdmitted t) then
      (b.setF t f (s.fld t f)).ev t (DMC.EVENTS.FEED_PCT_REFUSED.inst (blk - 8))
    else b
  else b

/-! ### What a write starts -/

/-- A word written under a mask. -/
def merged (old : Word) (mask value : Nat) : Nat := (old.toNat ||| (mask % 2 ^ 32)) - mask % 2 ^ 32 + ((value &&& mask) % 2 ^ 32)

/-- A write of a DDR5 channel register that starts something: SPEED.GO, TRN_CTL.OP, PPR.GO. Outcomes are free values (DESIGN CHOICE, log entry 6); a
write to the timing set in use is ignored (chapter 4); `none`: the register starts nothing. -/
def State.dmcStart (s : State) (t c off w : Nat) : Option State :=
  if off = DMC.SPEED.TARGET.off then
    let a := s.setC t c DMC.SPEED.TARGET (bitsOf w 4 2)
    some (if w.testBit 0 then a.requestSpeed t c (bitsOf w 4 2) else a)
  else if off = DMC.TRN_CTL.OP.off then
    if s.fldC t c DMC.TRN_CTL.BUSY != 0 then some s
    else if bitsOf w 8 4 = 0 || 4 < bitsOf w 8 4 then
      some (s.setFs t [(DMC.TRN_CTL.RANK.inst c, bitsOf w 24 4), (DMC.TRN_CTL.SUBCH.inst c, bitsOf w 23 1),
        (DMC.TRN_CTL.PATTERN.inst c, bitsOf w 12 4), (DMC.TRN_CTL.BURSTS.inst c, w)])
    else
      let (x, s1) := s.draw
      some (s1.patternRun t c w (x % 2 ^ 40) (x / 2 ^ 40))
  else if off = DMC.PPR.GO.off then
    if s.fldC t c DMC.PPR.BUSY != 0 then some s
    else if w.testBit 30 && s.dstate != .selftest then some (s.ev t (DMC.EVENTS.PPR_REFUSED.inst c))
    else if !w.testBit 0 then some (s.setPpr t c w)
    else if w.testBit 30 then
      let (x, s1) := s.draw
      some (s1.startHppr t c w (x % 3 + 1))
    else some (s.startSppr t c w none)
  else if !(s.dmc t c).trained.isEmpty && off / 64 = s.fldC t c DMC.SPEED.CUR_SET + 1 then some s
  else none

/-- A write that is an operation of its own and not only a new value: cache control (chapter 3), DDR5 channels (chapter 4), the log and the
injection register (chapter 5), the lease and the watchdog. `w`: the word as written, `mask`: its bits. -/
def State.regAction (s : State) (t blk off mask w : Nat) : Option State :=
  match kindOf blk with
  | 0x0c =>
    if off = TCH.WAYCLASS.STREAM.off then some (s.classWrite t (w % 65536))
    else if off = TCH.WAYPWR.ON.off then some (s.pwrWrite t (w % 65536))
    else if off = TCH.MAINT_CMD.OP.off then some (s.maintWrite t (bitsOf w 4 2) (bitsOf w 0 2))
    else if off = TCH.CTRL.EN.off then
      some ((s.setF t TCH.CTRL.DEEP_NOALLOC (bitsOf w 8 1)).enWrite t (w.testBit 0))
    else none
  | 0x08 => s.dmcStart t (blk - 8) off w
  | 0x0b =>
    if off = DEC.LOG_CLEAR.CH_MASK.off then some (s.clearLogs t (w &&& mask) )
    else if off = DEC.INJ_CTRL.ARM.off then some (s.writeInj t w)
    else none
  | 0x29 => if off = TWA.LEASE_KICK.KICK.off then some (if w.testBit 0 then s.leaseKick else s) else none
  | 0x3e => if off = BST.WDOG.KICK.off then some (if w.testBit 0 then s.wdogKick else s) else none
  | _ => none

/-- What follows a register's new value: lanes, ports, thresholds, Firn's mode. -/
def State.regFollow (s : State) (t blk off : Nat) (old : Word) : State :=
  match kindOf blk with
  | 0x20 => if off = ETH.CFG.MODE.off then
      s.portTake t (blk - 0x20) (wordField old ETH.CFG.MODE.lo ETH.CFG.MODE.w) (s.fld t (ETH.CFG.MODE.inst (blk - 0x20)))
        (s.fld t (ETH.CFG.LPORT_EN.inst (blk - 0x20))) else s
  | 0x03 => if off = AON.HU_THRESH.TRIP.off && s.word t blk off != old then s.recomputeCeiling 3 else s
  | 0x19 => if off = FRN.CTRL.URGENT_PCT.off then s.noteUrgent t else s
  | 0x30 => if off = FED.CTRL.EN.off then s.powerLanes t else s
  | _ => s

/-- NVS.KEY and the command registers of the store, which only the firmware writes (R354, R419). -/
def storeCommand (blk off : Nat) : Bool := blk == 0x3a && off < 0x14

/-- A write of one register of tile t: an instance that does not serve, an undefined offset and a register without fields to write ignore
it. -/
def State.writeReg (s : State) (t blk off mask value : Nat) : State :=
  if !regServes t blk off then s
  else if storeCommand blk off then s.nvsRegWrite t off (merged (s.word t blk off) mask value)
  else if off = 0xffc || off = 0xff8 then s
  else
    let old := s.word t blk off
    match s.regAction t blk off mask (merged old mask value) with
    | some x => x
    | none =>
      let w := (fieldsAt blk off).foldl (fun (a : Word) r => wordSet a r.lo r.w (s.newField t blk off old mask value r)) old
      (s.putReg t blk off w).regFollow t blk off old

/-! ### Commands (R352 to R354) -/

/-- The parts of a Control Space address. -/
def addrTile (a : Nat) : Nat := bitsOf a 28 4
def addrBlk (a : Nat) : Nat := bitsOf a 20 8
def addrOff (a : Nat) : Nat := bitsOf a 0 20

/-- Whether an address names a register: aligned, with a block of Table 12.9 on a tile that the package has, or on tile 0xF. -/
def State.addrOk (s : State) (a : Nat) : Bool :=
  a % 4 == 0 && blockIds.contains (addrBlk a) && decide (a < 2 ^ 32) && (decide (addrTile a < s.tiles) || addrTile a == 15)

/-- Registers that only a maker session reads (R353). -/
def makerOnly (a : Nat) : Bool :=
  addrBlk a == 0x39 || addrBlk a == 0x3b || (addrBlk a == 0x3a && decide (0x2000 ≤ addrOff a) && decide (addrOff a < 0x2800))

/-- Registers that REG_WRITE never writes (R354). -/
def writeRefused (a : Nat) : Bool :=
  (addrBlk a == 0x29 && addrOff a == TWA.LEASE_KICK.KICK.off) || (addrBlk a == 0x3e && addrOff a == BST.WDOG.KICK.off) ||
  storeCommand (addrBlk a) (addrOff a)

/-- The addresses that a REG_READ names. -/
def readAddrs (pl : List Byte) : List Nat := (List.range (fieldAt [4, 2] pl 1)).map (fun i => fieldAt [4, 2] pl 0 + 4 * i)

/-- The registers read in order: their words, and the state after. -/
def State.readRegs : List Nat → State → List Byte × State
  | [], s => ([], s)
  | a :: l, s =>
    let (v, s1) := s.readReg (if addrTile a = 15 then 0 else addrTile a) (addrBlk a) (addrOff a)
    let (bs, s2) := State.readRegs l s1
    (leBytes 4 v ++ bs, s2)

/-- REG_READ: ADDR, COUNT. -/
def cmdRegRead : Cmd := { readCmd 0x0900 .sys
  (fun s pl => match parse339 [4, 2] pl with
    | some [_, n] => decide (1 ≤ n) && decide (n ≤ 256) && (readAddrs pl).all s.addrOk
    | _ => false)
  (fun _ pl s =>
    let (bs, s1) := s.readRegs (readAddrs pl)
    .reply s1 (pad8 bs)) with right := fun role _ pl => role == 3 || !(readAddrs pl).any makerOnly }

/-- REG_WRITE: ADDR, MASK, VALUE; tile 0xF writes the tiles in ascending order. -/
def cmdRegWrite : Cmd := { actCmd 0x0901 [3] .firmware
  (fun s pl => match parse339 [4, 4, 4] pl with
    | some [a, _, _] => s.addrOk a
    | _ => false)
  (fun _ pl s =>
    let f := fieldAt [4, 4, 4] pl
    .done ((s.tilesOf (addrTile (f 0))).foldl (fun a t => a.writeReg t (addrBlk (f 0)) (addrOff (f 0)) (f 1) (f 2)) s) .ok) with
  right := fun _ _ pl => !writeRefused (fieldAt [4, 4, 4] pl 0) }

/-- REG_READ -/
def execRegRead (f : Frame) (s : State) : Host.Outcome State Fault Refusal := .next (mailbox cmdRegRead f s)

/-- REG_WRITE -/
def execRegWrite (f : Frame) (s : State) : Host.Outcome State Fault Refusal := .next (mailbox cmdRegWrite f s)

/-- REGISTER_WRITE: firmware writes a whole register; tile 0xF writes every tile's, and an absent tile's has no effect (R11). -/
def execRegisterWrite (tile blk off : Nat) (value : Word) (s : State) : Host.Outcome State Fault Refusal :=
  onTiles tile s (fun t a => if blockIds.contains blk then a.writeReg t blk off (2 ^ 32 - 1) value.toNat else a)

end Sys2Proof.Machine
end

