-- ==== Sys2Proof/Machine/Dispatch.lean ====
section
/-! DEFINITION. One arm for each command and event: a direct call of its meaning. -/

namespace Sys2Proof.Machine

def exec (i : Instr) (s : State) : Host.Outcome State Fault Refusal :=
  match i with
  | .vaonApplied pref adr => Sys2Proof.Machine.execVaonApplied pref adr s
  | .vaonLost => Sys2Proof.Machine.execVaonLost s
  | .vaonLow => Sys2Proof.Machine.execVaonLow s
  | .mainsOkHigh => Sys2Proof.Machine.execMainsOkHigh s
  | .mainsOkLow tile => Sys2Proof.Machine.execMainsOkLow tile s
  | .huTrip tile => Sys2Proof.Machine.execHuTrip tile s
  | .huEmerg tile => Sys2Proof.Machine.execHuEmerg tile s
  | .tripArm tile => Sys2Proof.Machine.execTripArm tile s
  | .tcrit tile => Sys2Proof.Machine.execTcrit tile s
  | .freezeNet tile => Sys2Proof.Machine.execFreezeNet tile s
  | .railFault rail => Sys2Proof.Machine.execRailFault rail s
  | .phaseFault stage short => Sys2Proof.Machine.execPhaseFault stage short s
  | .phaseShedLoad stage on => Sys2Proof.Machine.execPhaseShedLoad stage on s
  | .xtalFail => Sys2Proof.Machine.execXtalFail s
  | .wakeN low => Sys2Proof.Machine.execWakeN low s
  | .wakeTimer => Sys2Proof.Machine.execWakeTimer s
  | .thermalCheck temps => Sys2Proof.Machine.execThermalCheck temps s
  | .wdogKick => Sys2Proof.Machine.execWdogKick s
  | .wdogExpiry => Sys2Proof.Machine.execWdogExpiry s
  | .leaseKick => Sys2Proof.Machine.execLeaseKick s
  | .leaseExpired => Sys2Proof.Machine.execLeaseExpired s
  | .freezeTrigger tile source => Sys2Proof.Machine.execFreezeTrigger tile source s
  | .secondTrigger tile => Sys2Proof.Machine.execSecondTrigger tile s
  | .drainWindowEnd tile => Sys2Proof.Machine.execDrainWindowEnd tile s
  | .dumpComplete tile => Sys2Proof.Machine.execDumpComplete tile s
  | .sealVerified tile => Sys2Proof.Machine.execSealVerified tile s
  | .railsRemoved => Sys2Proof.Machine.execRailsRemoved s
  | .mainsReturn => Sys2Proof.Machine.execMainsReturn s
  | .coldBoot => Sys2Proof.Machine.execColdBoot s
  | .boot temps => Sys2Proof.Machine.execBoot temps s
  | .bootromKeyInit ok => Sys2Proof.Machine.execBootromKeyInit ok s
  | .selftestSlice tile slice => Sys2Proof.Machine.execSelftestSlice tile slice s
  | .sliceResult tile slice outcome detail => Sys2Proof.Machine.execSliceResult tile slice outcome detail s
  | .sliceBudgetExpiry tile => Sys2Proof.Machine.execSliceBudgetExpiry tile s
  | .dramTrain found compareBad bad => Sys2Proof.Machine.execDramTrain found compareBad bad s
  | .bankMeasureStart hu v1 => Sys2Proof.Machine.execBankMeasureStart hu v1 s
  | .bankWaitExpiry => Sys2Proof.Machine.execBankWaitExpiry s
  | .bankMeasureEnd t stayed => Sys2Proof.Machine.execBankMeasureEnd t stayed s
  | .restore tile rootOk metaOk lost => Sys2Proof.Machine.execRestore tile rootOk metaOk lost s
  | .releaseToService => Sys2Proof.Machine.execReleaseToService s
  | .bgRestorePage tile hard iters retry soft parity => Sys2Proof.Machine.execBgRestorePage tile hard iters retry soft parity s
  | .roleSettle => Sys2Proof.Machine.execRoleSettle s
  | .helloSend tile => Sys2Proof.Machine.execHelloSend tile s
  | .hello tile frame => Sys2Proof.Machine.execHello tile frame s
  | .heartbeatSend tile => Sys2Proof.Machine.execHeartbeatSend tile s
  | .heartbeat tile frame => Sys2Proof.Machine.execHeartbeat tile frame s
  | .heartbeatWord periods pad => Sys2Proof.Machine.execHeartbeatWord periods pad s
  | .partnerLost => Sys2Proof.Machine.execPartnerLost s
  | .pathLost => Sys2Proof.Machine.execPathLost s
  | .interlockFault => Sys2Proof.Machine.execInterlockFault s
  | .twActiChange level => Sys2Proof.Machine.execTwActiChange level s
  | .guardExpiry => Sys2Proof.Machine.execGuardExpiry s
  | .contentionBackoff => Sys2Proof.Machine.execContentionBackoff s
  | .takeover => Sys2Proof.Machine.execTakeover s
  | .twinGateChange => Sys2Proof.Machine.execTwinGateChange s
  | .mirror tile frame => Sys2Proof.Machine.execMirror tile frame s
  | .mirrorRetransmit tile => Sys2Proof.Machine.execMirrorRetransmit tile s
  | .mirrorAck tile frame => Sys2Proof.Machine.execMirrorAck tile frame s
  | .credit tile frame => Sys2Proof.Machine.execCredit tile frame s
  | .creditBooksReset tile => Sys2Proof.Machine.execCreditBooksReset tile s
  | .fetchReq tile frame => Sys2Proof.Machine.execFetchReq tile frame s
  | .fetchResp tile frame => Sys2Proof.Machine.execFetchResp tile frame s
  | .fetchTimeout tile id => Sys2Proof.Machine.execFetchTimeout tile id s
  | .portionRecord tile => Sys2Proof.Machine.execPortionRecord tile s
  | .atomicRecord tile => Sys2Proof.Machine.execAtomicRecord tile s
  | .qpCtxRecord tile => Sys2Proof.Machine.execQpCtxRecord tile s
  | .capsuleRecord tile => Sys2Proof.Machine.execCapsuleRecord tile s
  | .completionRecord tile => Sys2Proof.Machine.execCompletionRecord tile s
  | .startRecord tile => Sys2Proof.Machine.execStartRecord tile s
  | .chainRecord tile => Sys2Proof.Machine.execChainRecord tile s
  | .commandRecord => Sys2Proof.Machine.execCommandRecord s
  | .revokeRecord => Sys2Proof.Machine.execRevokeRecord s
  | .orderRecord => Sys2Proof.Machine.execOrderRecord s
  | .moveRecord tile => Sys2Proof.Machine.execMoveRecord tile s
  | .readyRecord tile => Sys2Proof.Machine.execReadyRecord tile s
  | .indexMark tile => Sys2Proof.Machine.execIndexMark tile s
  | .epochRecord => Sys2Proof.Machine.execEpochRecord s
  | .swapRecord => Sys2Proof.Machine.execSwapRecord s
  | .snapshotRecord tile => Sys2Proof.Machine.execSnapshotRecord tile s
  | .stateRecord tile => Sys2Proof.Machine.execStateRecord tile s
  | .resyncSnapshot tile => Sys2Proof.Machine.execResyncSnapshot tile s
  | .resyncComplete => Sys2Proof.Machine.execResyncComplete s
  | .comebackHoldoff => Sys2Proof.Machine.execComebackHoldoff s
  | .swapTimeout => Sys2Proof.Machine.execSwapTimeout s
  | .twinLinkDown tile => Sys2Proof.Machine.execTwinLinkDown tile s
  | .twinLinkUp tile => Sys2Proof.Machine.execTwinLinkUp tile s
  | .pnNear tile => Sys2Proof.Machine.execPnNear tile s
  | .rxNewKn tile mac kn => Sys2Proof.Machine.execRxNewKn tile mac kn s
  | .macsecVerifyFail tile replay => Sys2Proof.Machine.execMacsecVerifyFail tile replay s
  | .pairKeyTimeout tile => Sys2Proof.Machine.execPairKeyTimeout tile s
  | .ethLinkUp tile port lport => Sys2Proof.Machine.execEthLinkUp tile port lport s
  | .ethLinkDown tile port lport => Sys2Proof.Machine.execEthLinkDown tile port lport s
  | .linkDownHoldExpiry tile port lport => Sys2Proof.Machine.execLinkDownHoldExpiry tile port lport s
  | .ethFrame tile port pcp dscp info => Sys2Proof.Machine.execEthFrame tile port pcp dscp info s
  | .pfcPause tile port prio on => Sys2Proof.Machine.execPfcPause tile port prio on s
  | .pfcWatchdog tile port prio => Sys2Proof.Machine.execPfcWatchdog tile port prio s
  | .req r => Sys2Proof.Machine.execReq r s
  | .rtu qpn => Sys2Proof.Machine.execRtu qpn s
  | .connectTimeout qpn rej => Sys2Proof.Machine.execConnectTimeout qpn rej s
  | .dreq qpn => Sys2Proof.Machine.execDreq qpn s
  | .qpSettled qpn => Sys2Proof.Machine.execQpSettled qpn s
  | .errHoldExpiry qpn => Sys2Proof.Machine.execErrHoldExpiry qpn s
  | .send p => Sys2Proof.Machine.execSend p s
  | .rdmaWrite p => Sys2Proof.Machine.execRdmaWrite p s
  | .rdmaWriteImm p => Sys2Proof.Machine.execRdmaWriteImm p s
  | .rdmaReadRequest p near => Sys2Proof.Machine.execRdmaReadRequest p near s
  | .cmpSwap p => Sys2Proof.Machine.execCmpSwap p s
  | .fetchAdd p => Sys2Proof.Machine.execFetchAdd p s
  | .ackReceived p => Sys2Proof.Machine.execAckReceived p s
  | .readResponse p => Sys2Proof.Machine.execReadResponse p s
  | .cnp p => Sys2Proof.Machine.execCnp p s
  | .cnpRateRestore qpn => Sys2Proof.Machine.execCnpRateRestore qpn s
  | .ackTimeout qpn => Sys2Proof.Machine.execAckTimeout qpn s
  | .rnrTimer qpn => Sys2Proof.Machine.execRnrTimer qpn s
  | .ackSend qpn => Sys2Proof.Machine.execAckSend qpn s
  | .contextFetch qpn => Sys2Proof.Machine.execContextFetch qpn s
  | .windowRecompute tile => Sys2Proof.Machine.execWindowRecompute tile s
  | .bufBooksCheck tile => Sys2Proof.Machine.execBufBooksCheck tile s
  | .admitPortion id => Sys2Proof.Machine.execAdmitPortion id s
  | .tokenGrant tile => Sys2Proof.Machine.execTokenGrant tile s
  | .applyPortion id => Sys2Proof.Machine.execApplyPortion id s
  | .discardPortion id => Sys2Proof.Machine.execDiscardPortion id s
  | .capsulePull id => Sys2Proof.Machine.execCapsulePull id s
  | .capsuleStart qpn => Sys2Proof.Machine.execCapsuleStart qpn s
  | .capsuleWrite id => Sys2Proof.Machine.execCapsuleWrite id s
  | .capsuleRead id => Sys2Proof.Machine.execCapsuleRead id s
  | .commit id => Sys2Proof.Machine.execCommit id s
  | .copy id => Sys2Proof.Machine.execCopy id s
  | .notify id => Sys2Proof.Machine.execNotify id s
  | .wait id => Sys2Proof.Machine.execWait id s
  | .waitSatisfied id => Sys2Proof.Machine.execWaitSatisfied id s
  | .moveTrigger id => Sys2Proof.Machine.execMoveTrigger id s
  | .capsuleComplete id => Sys2Proof.Machine.execCapsuleComplete id s
  | .descriptorStart cqn => Sys2Proof.Machine.execDescriptorStart cqn s
  | .revokePhase1End => Sys2Proof.Machine.execRevokePhase1End s
  | .revokePhase2End => Sys2Proof.Machine.execRevokePhase2End s
  | .firnCapture tile near => Sys2Proof.Machine.execFirnCapture tile near s
  | .programVerified tile unit us => Sys2Proof.Machine.execProgramVerified tile unit us s
  | .firnBooksCheck tile => Sys2Proof.Machine.execFirnBooksCheck tile s
  | .firnDeepMerge tile page => Sys2Proof.Machine.execFirnDeepMerge tile page s
  | .moveRequest => Sys2Proof.Machine.execMoveRequest s
  | .moveFrameFree ext => Sys2Proof.Machine.execMoveFrameFree ext s
  | .moveCleaned ext => Sys2Proof.Machine.execMoveCleaned ext s
  | .movePassDone ext near => Sys2Proof.Machine.execMovePassDone ext near s
  | .moveCommit ext => Sys2Proof.Machine.execMoveCommit ext s
  | .homeMapApply tile ext => Sys2Proof.Machine.execHomeMapApply tile ext s
  | .forwardToHome id => Sys2Proof.Machine.execForwardToHome id s
  | .localImageWrite page => Sys2Proof.Machine.execLocalImageWrite page s
  | .orderRasterLine stream => Sys2Proof.Machine.execOrderRasterLine stream s
  | .orderChainCount cqn => Sys2Proof.Machine.execOrderChainCount cqn s
  | .cacheLookup tile n stream panic data tag => Sys2Proof.Machine.execCacheLookup tile n stream panic data tag s
  | .cacheFill tile n => Sys2Proof.Machine.execCacheFill tile n s
  | .evbWriteback tile => Sys2Proof.Machine.execEvbWriteback tile s
  | .cacheDrainDone tile => Sys2Proof.Machine.execCacheDrainDone tile s
  | .repartitionDone tile => Sys2Proof.Machine.execRepartitionDone tile s
  | .tchEnWrite tile en => Sys2Proof.Machine.execTchEnWrite tile en s
  | .tchWaypwrWrite tile value => Sys2Proof.Machine.execTchWaypwrWrite tile value s
  | .tchWayclassWrite tile value => Sys2Proof.Machine.execTchWayclassWrite tile value s
  | .wayCleanDone tile way => Sys2Proof.Machine.execWayCleanDone tile way s
  | .clean tile => Sys2Proof.Machine.execClean tile s
  | .invalidate tile => Sys2Proof.Machine.execInvalidate tile s
  | .dramRequest tile ch sub => Sys2Proof.Machine.execDramRequest tile ch sub s
  | .refreshDue tile ch rank => Sys2Proof.Machine.execRefreshDue tile ch rank s
  | .refreshDebtMax tile ch rank => Sys2Proof.Machine.execRefreshDebtMax tile ch rank s
  | .tempPoll tile ch temps mode => Sys2Proof.Machine.execTempPoll tile ch temps mode s
  | .rowIdleClose tile ch bank => Sys2Proof.Machine.execRowIdleClose tile ch bank s
  | .panicLong tile ch => Sys2Proof.Machine.execPanicLong tile ch s
  | .retrainPause tile ch => Sys2Proof.Machine.execRetrainPause tile ch s
  | .retrainForced tile ch => Sys2Proof.Machine.execRetrainForced tile ch s
  | .speedGo tile ch target => Sys2Proof.Machine.execSpeedGo tile ch target s
  | .freqChangeDone tile ch => Sys2Proof.Machine.execFreqChangeDone tile ch s
  | .trnWriteReadCompare tile ch w lanes errs => Sys2Proof.Machine.execTrnWriteReadCompare tile ch w lanes errs s
  | .trnReadCompare tile ch w lanes errs => Sys2Proof.Machine.execTrnReadCompare tile ch w lanes errs s
  | .trnCaLoopback tile ch w lanes errs => Sys2Proof.Machine.execTrnCaLoopback tile ch w lanes errs s
  | .trnWlSample tile ch w lanes errs => Sys2Proof.Machine.execTrnWlSample tile ch w lanes errs s
  | .sppr tile ch w result => Sys2Proof.Machine.execSppr tile ch w result s
  | .hppr tile ch w result => Sys2Proof.Machine.execHppr tile ch w result s
  | .dramRelocate tile => Sys2Proof.Machine.execDramRelocate tile s
  | .s2RankReturn tile compareBad bad => Sys2Proof.Machine.execS2RankReturn tile compareBad bad s
  | .decRead tile addr err bad0 bad1 parity => Sys2Proof.Machine.execDecRead tile addr err bad0 bad1 parity s
  | .firstWrite tile page => Sys2Proof.Machine.execFirstWrite tile page s
  | .frameFree tile frame => Sys2Proof.Machine.execFrameFree tile frame s
  | .ueRecovery tile addr => Sys2Proof.Machine.execUeRecovery tile addr s
  | .pageRetire tile page => Sys2Proof.Machine.execPageRetire tile page s
  | .scrubRead tile ch err => Sys2Proof.Machine.execScrubRead tile ch err s
  | .errorLogPoll tile ppr => Sys2Proof.Machine.execErrorLogPoll tile ppr s
  | .decLogClearWrite tile mask => Sys2Proof.Machine.execDecLogClearWrite tile mask s
  | .decInjArm tile v => Sys2Proof.Machine.execDecInjArm tile v s
  | .deepRead tile page hard iters retry soft parity => Sys2Proof.Machine.execDeepRead tile page hard iters retry soft parity s
  | .suspendRead tile page us busy => Sys2Proof.Machine.execSuspendRead tile page us busy s
  | .deepProgramFail tile stripe ch => Sys2Proof.Machine.execDeepProgramFail tile stripe ch s
  | .eraseFail tile stripe ch => Sys2Proof.Machine.execEraseFail tile stripe ch s
  | .gcStart tile => Sys2Proof.Machine.execGcStart tile s
  | .gcStop tile => Sys2Proof.Machine.execGcStop tile s
  | .tableFlush tile mismatch => Sys2Proof.Machine.execTableFlush tile mismatch s
  | .dumpArm tile => Sys2Proof.Machine.execDumpArm tile s
  | .previousRelease tile => Sys2Proof.Machine.execPreviousRelease tile s
  | .wearStage tile stage stripe ch tprog => Sys2Proof.Machine.execWearStage tile stage stripe ch tprog s
  | .deepFirstFormat => Sys2Proof.Machine.execDeepFirstFormat s
  | .strobeEdge tile stb => Sys2Proof.Machine.execStrobeEdge tile stb s
  | .strobeEarly tile stb => Sys2Proof.Machine.execStrobeEarly tile stb s
  | .indexPulse tile => Sys2Proof.Machine.execIndexPulse tile s
  | .prefetchDone stream bad near => Sys2Proof.Machine.execPrefetchDone stream bad near s
  | .fifoFull stream => Sys2Proof.Machine.execFifoFull stream s
  | .frameEnd stream => Sys2Proof.Machine.execFrameEnd stream s
  | .fifoBooksCheck tile => Sys2Proof.Machine.execFifoBooksCheck tile s
  | .lidSend tile => Sys2Proof.Machine.execLidSend tile s
  | .statusFrame tile lane data crc => Sys2Proof.Machine.execStatusFrame tile lane data crc s
  | .laneFailing tile lane lost => Sys2Proof.Machine.execLaneFailing tile lane lost s
  | .spareStatusOk tile => Sys2Proof.Machine.execSpareStatusOk tile s
  | .spareTimeout tile => Sys2Proof.Machine.execSpareTimeout tile s
  | .sysIdentify f => Sys2Proof.Machine.execSysIdentify f s
  | .sysState f => Sys2Proof.Machine.execSysState f s
  | .sysReset f => Sys2Proof.Machine.execSysReset f s
  | .notifySubscribe f => Sys2Proof.Machine.execNotifySubscribe f s
  | .notifyFetch f => Sys2Proof.Machine.execNotifyFetch f s
  | .sessionChallenge f => Sys2Proof.Machine.execSessionChallenge f s
  | .sessionOpen f => Sys2Proof.Machine.execSessionOpen f s
  | .sessionClose f => Sys2Proof.Machine.execSessionClose f s
  | .sessionList f => Sys2Proof.Machine.execSessionList f s
  | .regRead f => Sys2Proof.Machine.execRegRead f s
  | .regWrite f => Sys2Proof.Machine.execRegWrite f s
  | .registerWrite tile blk off value => Sys2Proof.Machine.execRegisterWrite tile blk off value s
  | .challengeExpiry id => Sys2Proof.Machine.execChallengeExpiry id s
  | .sessionIdleExpiry point => Sys2Proof.Machine.execSessionIdleExpiry point s
  | .lockoutExpiry role => Sys2Proof.Machine.execLockoutExpiry role s
  | .setEndpointId op eid => Sys2Proof.Machine.execSetEndpointId op eid s
  | .getEndpointId => Sys2Proof.Machine.execGetEndpointId s
  | .getMctpVersionSupport msgType => Sys2Proof.Machine.execGetMctpVersionSupport msgType s
  | .getMessageTypeSupport => Sys2Proof.Machine.execGetMessageTypeSupport s
  | .getVendorMessageSupport sel => Sys2Proof.Machine.execGetVendorMessageSupport sel s
  | .netStatus f => Sys2Proof.Machine.execNetStatus f s
  | .netPortSet f => Sys2Proof.Machine.execNetPortSet f s
  | .netAddrSet f => Sys2Proof.Machine.execNetAddrSet f s
  | .netDcbSet f => Sys2Proof.Machine.execNetDcbSet f s
  | .rmaConfig f => Sys2Proof.Machine.execRmaConfig f s
  | .qpList f => Sys2Proof.Machine.execQpList f s
  | .qpInfo f => Sys2Proof.Machine.execQpInfo f s
  | .qpKill f => Sys2Proof.Machine.execQpKill f s
  | .powerStatus f => Sys2Proof.Machine.execPowerStatus f s
  | .powerSleep f => Sys2Proof.Machine.execPowerSleep f s
  | .powerConfig f => Sys2Proof.Machine.execPowerConfig f s
  | .wakeTimerSet f => Sys2Proof.Machine.execWakeTimerSet f s
  | .sleepAborted => Sys2Proof.Machine.execSleepAborted s
  | .wake => Sys2Proof.Machine.execWake s
  | .twbStatus f => Sys2Proof.Machine.execTwbStatus f s
  | .twbConfig f => Sys2Proof.Machine.execTwbConfig f s
  | .regionCreate f => Sys2Proof.Machine.execRegionCreate f s
  | .regionDelete f => Sys2Proof.Machine.execRegionDelete f s
  | .regionRekey f => Sys2Proof.Machine.execRegionRekey f s
  | .regionSetFlags f => Sys2Proof.Machine.execRegionSetFlags f s
  | .regionQuery f => Sys2Proof.Machine.execRegionQuery f s
  | .regionList f => Sys2Proof.Machine.execRegionList f s
  | .chainCreate f => Sys2Proof.Machine.execChainCreate f s
  | .chainDelete f => Sys2Proof.Machine.execChainDelete f s
  | .chainReset f => Sys2Proof.Machine.execChainReset f s
  | .chainPost f => Sys2Proof.Machine.execChainPost f s
  | .chainStatus f => Sys2Proof.Machine.execChainStatus f s
  | .tierQuery f => Sys2Proof.Machine.execTierQuery f s
  | .homeQuery f => Sys2Proof.Machine.execHomeQuery f s
  | .planLoadBegin f => Sys2Proof.Machine.execPlanLoadBegin f s
  | .planLoadData f => Sys2Proof.Machine.execPlanLoadData f s
  | .planLoadEnd f => Sys2Proof.Machine.execPlanLoadEnd f s
  | .planActivate f => Sys2Proof.Machine.execPlanActivate f s
  | .planDeactivate f => Sys2Proof.Machine.execPlanDeactivate f s
  | .planUnload f => Sys2Proof.Machine.execPlanUnload f s
  | .planStatus f => Sys2Proof.Machine.execPlanStatus f s
  | .moveExtents f => Sys2Proof.Machine.execMoveExtents f s
  | .moveCancel f => Sys2Proof.Machine.execMoveCancel f s
  | .moveStatus f => Sys2Proof.Machine.execMoveStatus f s
  | .nearSizeSet f => Sys2Proof.Machine.execNearSizeSet f s
  | .cacheStatus f => Sys2Proof.Machine.execCacheStatus f s
  | .cacheConfig f => Sys2Proof.Machine.execCacheConfig f s
  | .cacheMaint f => Sys2Proof.Machine.execCacheMaint f s
  | .dramStatus f => Sys2Proof.Machine.execDramStatus f s
  | .dramSpeedSet f => Sys2Proof.Machine.execDramSpeedSet f s
  | .dramTsetWrite f => Sys2Proof.Machine.execDramTsetWrite f s
  | .dramMapSet f => Sys2Proof.Machine.execDramMapSet f s
  | .dramRetrain f => Sys2Proof.Machine.execDramRetrain f s
  | .dramTrainResults f => Sys2Proof.Machine.execDramTrainResults f s
  | .dramTrainClear f => Sys2Proof.Machine.execDramTrainClear f s
  | .dramPpr f => Sys2Proof.Machine.execDramPpr f s
  | .decStatus f => Sys2Proof.Machine.execDecStatus f s
  | .decLogRead f => Sys2Proof.Machine.execDecLogRead f s
  | .decLogClear f => Sys2Proof.Machine.execDecLogClear f s
  | .decRetire f => Sys2Proof.Machine.execDecRetire f s
  | .decPolicySet f => Sys2Proof.Machine.execDecPolicySet f s
  | .decScrubSet f => Sys2Proof.Machine.execDecScrubSet f s
  | .decInject f => Sys2Proof.Machine.execDecInject f s
  | .deepStatus f => Sys2Proof.Machine.execDeepStatus f s
  | .deepBlockInfo f => Sys2Proof.Machine.execDeepBlockInfo f s
  | .deepConfig f => Sys2Proof.Machine.execDeepConfig f s
  | .deepRetireBlock f => Sys2Proof.Machine.execDeepRetireBlock f s
  | .deepFormat f => Sys2Proof.Machine.execDeepFormat f s
  | .deepRebuild f => Sys2Proof.Machine.execDeepRebuild f s
  | .persistStatus f => Sys2Proof.Machine.execPersistStatus f s
  | .ceilingSet f => Sys2Proof.Machine.execCeilingSet f s
  | .freezePowerSet f => Sys2Proof.Machine.execFreezePowerSet f s
  | .firnConfig f => Sys2Proof.Machine.execFirnConfig f s
  | .freezeReportRead f => Sys2Proof.Machine.execFreezeReportRead f s
  | .freezeTest f => Sys2Proof.Machine.execFreezeTest f s
  | .twinStatus f => Sys2Proof.Machine.execTwinStatus f s
  | .twinConfig f => Sys2Proof.Machine.execTwinConfig f s
  | .twinSwap f => Sys2Proof.Machine.execTwinSwap f s
  | .twinLeave f => Sys2Proof.Machine.execTwinLeave f s
  | .twinResync f => Sys2Proof.Machine.execTwinResync f s
  | .twinFaultClear f => Sys2Proof.Machine.execTwinFaultClear f s
  | .twinForceSolo f => Sys2Proof.Machine.execTwinForceSolo f s
  | .feedStatus f => Sys2Proof.Machine.execFeedStatus f s
  | .feedStreamSet f => Sys2Proof.Machine.execFeedStreamSet f s
  | .feedStreamClear f => Sys2Proof.Machine.execFeedStreamClear f s
  | .feedStart f => Sys2Proof.Machine.execFeedStart f s
  | .feedStop f => Sys2Proof.Machine.execFeedStop f s
  | .feedAdmitCheck f => Sys2Proof.Machine.execFeedAdmitCheck f s
  | .feedMapLoad f => Sys2Proof.Machine.execFeedMapLoad f s
  | .feedMapSwitch f => Sys2Proof.Machine.execFeedMapSwitch f s
  | .feedLaneConfig f => Sys2Proof.Machine.execFeedLaneConfig f s
  | .feedLaneSpare f => Sys2Proof.Machine.execFeedLaneSpare f s
  | .feedLaneRestore f => Sys2Proof.Machine.execFeedLaneRestore f s
  | .eventRead f => Sys2Proof.Machine.execEventRead f s
  | .eventStatus f => Sys2Proof.Machine.execEventStatus f s
  | .eventConfig f => Sys2Proof.Machine.execEventConfig f s
  | .timeSet f => Sys2Proof.Machine.execTimeSet f s
  | .timeGet f => Sys2Proof.Machine.execTimeGet f s
  | .fwStatus f => Sys2Proof.Machine.execFwStatus f s
  | .fwUpdateBegin f => Sys2Proof.Machine.execFwUpdateBegin f s
  | .fwUpdateData f => Sys2Proof.Machine.execFwUpdateData f s
  | .fwUpdateEnd f => Sys2Proof.Machine.execFwUpdateEnd f s
  | .fwActivate f => Sys2Proof.Machine.execFwActivate f s
  | .fwCommit f => Sys2Proof.Machine.execFwCommit f s
  | .fwUpdateAbort f => Sys2Proof.Machine.execFwUpdateAbort f s
  | .fwManifestRead f => Sys2Proof.Machine.execFwManifestRead f s
  | .selftestReport f => Sys2Proof.Machine.execSelftestReport f s
  | .monitorRead f => Sys2Proof.Machine.execMonitorRead f s
  | .bankConfig f => Sys2Proof.Machine.execBankConfig f s
  | .nvStatus f => Sys2Proof.Machine.execNvStatus f s
  | .nvFactoryRead f => Sys2Proof.Machine.execNvFactoryRead f s
  | .nvFactoryWrite f => Sys2Proof.Machine.execNvFactoryWrite f s
  | .nvFactoryErase f => Sys2Proof.Machine.execNvFactoryErase f s
  | .nvScan f differ => Sys2Proof.Machine.execNvScan f differ s
  | .otpRead f => Sys2Proof.Machine.execOtpRead f s
  | .otpProgram f ok => Sys2Proof.Machine.execOtpProgram f ok s
  | .keyStatus f => Sys2Proof.Machine.execKeyStatus f s
  | .keyRoleSet f => Sys2Proof.Machine.execKeyRoleSet f s
  | .keyPairSet f => Sys2Proof.Machine.execKeyPairSet f s
  | .keyMacsecRekey f => Sys2Proof.Machine.execKeyMacsecRekey f s
  | .keySelftest f ok => Sys2Proof.Machine.execKeySelftest f ok s
  | .marginSchedule tile differ => Sys2Proof.Machine.execMarginSchedule tile differ s
  | .nvsKeyWrite tile master value late => Sys2Proof.Machine.execNvsKeyWrite tile master value late s
  | .nvsUnlockTimeout tile => Sys2Proof.Machine.execNvsUnlockTimeout tile s
  | .program tile master addr data pulses => Sys2Proof.Machine.execProgram tile master addr data pulses s
  | .erase tile master addr ok => Sys2Proof.Machine.execErase tile master addr ok s
  | .blankCheck tile master addr => Sys2Proof.Machine.execBlankCheck tile master addr s
  | .marginRead tile master addr differs => Sys2Proof.Machine.execMarginRead tile master addr differs s
  | .swap tile master addr => Sys2Proof.Machine.execSwap tile master addr s
  | .nvsOperationEnd tile => Sys2Proof.Machine.execNvsOperationEnd tile s
  | .enc submitter q => Sys2Proof.Machine.execEnc submitter q s
  | .dec submitter q => Sys2Proof.Machine.execDec submitter q s
  | .ctr submitter q => Sys2Proof.Machine.execCtr submitter q s
  | .generate submitter q => Sys2Proof.Machine.execGenerate submitter q s
  | .drbgReseed => Sys2Proof.Machine.execDrbgReseed s
  | .healthFail => Sys2Proof.Machine.execHealthFail s
  | .entropyRestart ok => Sys2Proof.Machine.execEntropyRestart ok s
  | .kseQueueCheck submitter free => Sys2Proof.Machine.execKseQueueCheck submitter free s
  | .eventArrival tile => Sys2Proof.Machine.execEventArrival tile s
  | .openWindowEnd => Sys2Proof.Machine.execOpenWindowEnd s
  | .recordCommit => Sys2Proof.Machine.execRecordCommit s
  | .blockWrite cmd bytes kHz => Sys2Proof.Machine.execBlockWrite cmd bytes kHz s
  | .blockRead done kHz => Sys2Proof.Machine.execBlockRead done kHz s
  | .readByte kHz => Sys2Proof.Machine.execReadByte kHz s
  | .addressMatchSleep x kHz => Sys2Proof.Machine.execAddressMatchSleep x kHz s
  | .hostNotify e => Sys2Proof.Machine.execHostNotify e s
  | .hostNotifyRepeat e => Sys2Proof.Machine.execHostNotifyRepeat e s
  | .arbBackoffExpiry e => Sys2Proof.Machine.execArbBackoffExpiry e s
  | .busError => Sys2Proof.Machine.execBusError s
  | .sclTimeout => Sys2Proof.Machine.execSclTimeout s
  | .busRecovery pulses => Sys2Proof.Machine.execBusRecovery pulses s
  | .linkRetired tile peer => Sys2Proof.Machine.execLinkRetired tile peer s
  | .faultEntry tile cause => Sys2Proof.Machine.execFaultEntry tile cause s
  | .wayPowerUpDone tile way => Sys2Proof.Machine.execWayPowerUpDone tile way s
  | .blockEraseDone tile stripe us => Sys2Proof.Machine.execBlockEraseDone tile stripe us s
  | .deepRebuildDone tile => Sys2Proof.Machine.execDeepRebuildDone tile s
  | .sleepCleanTimeout => Sys2Proof.Machine.execSleepCleanTimeout s
  | .hbtxWordSend => Sys2Proof.Machine.execHbtxWordSend s
  | .blockLock tile lane => Sys2Proof.Machine.execBlockLock tile lane s
  | .feedCoverTimeout stream => Sys2Proof.Machine.execFeedCoverTimeout stream s
  | .xtalOk => Sys2Proof.Machine.execXtalOk s
  | .serviceAnnounceRepeat => Sys2Proof.Machine.execServiceAnnounceRepeat s

end Sys2Proof.Machine
end

