-- ==== Sys2Proof/Machine/Tick.lean ====
section
/-! DEFINITION. What passing time alone does to an idle block (DESIGN CHOICE, log entry 5): work that waits for another to end goes on. -/

namespace Sys2Proof.Machine

/-- A channel whose retraining pause is over serves again (R103); a pattern run has come to its end (R102); a repair ends after 5 µs, one that waited
begins (R111). -/
def State.tickChannel (s : State) (t c : Nat) : State :=
  let s1 := if s.fldC t c DMC.STATUS.STATE = 4 && decide ((s.dmc t c).pauseEnd ≤ s.now) then s.setC t c DMC.STATUS.STATE 2 else s
  let s2 := (s1.endRun t c).overRepair t c
  if (s2.dmc t c).repairAt.isSome then s2 else s2.tryRepair t c

/-- A tile: its channels, a frequency change that waited (R105), a twin link without a key number (R410), table pages to flush (R148). -/
def State.tickTile (s : State) (t : Nat) : State :=
  ((((List.range 3).foldl (fun a c => a.tickChannel t c) s).beginChange t).kmOut t).flushDue t

/-- One microsecond passes: every tile, then CACHE_MAINT commands to answer (R75), a swap (R293) and a sleep entry (R387) in progress. -/
def State.tick (s : State) : State :=
  (({ s with now := s.now + 1 }.allTiles (fun t a => a.tickTile t)).answerMaint.swapProceed).sleepProceed

end Sys2Proof.Machine
end

