-- ==== Sys2Proof/Requests.lean ====
section
/-! DEFINITION. What statements need to name about commands: the mailbox request a row carries, and the units that its operands name. -/

namespace Sys2Proof.Machine

/-- The mailbox command and the request frame of a row of the mailbox groups; none for every other row. -/
def requestOf (s : State) : Instr → Option (Cmd × Frame)
  | .sysIdentify f => some ({ cmdSysIdentify with roles := [] }, f)
  | .sysState f => some ({ cmdSysState with roles := [] }, f)
  | .sysReset f => some (cmdSysReset, f)
  | .notifySubscribe f => some (cmdNotifySubscribe, f)
  | .notifyFetch f => some (cmdNotifyFetch, f)
  | .sessionChallenge f => some (cmdSessionChallenge, f)
  | .sessionOpen f => some (cmdSessionOpen, f)
  | .sessionClose f => some (cmdSessionClose, f)
  | .sessionList f => some (cmdSessionList, f)
  | .regRead f => some (cmdRegRead, f)
  | .regWrite f => some (cmdRegWrite, f)
  | .netStatus f => some (cmdNetStatus, f)
  | .netPortSet f => some (cmdNetPortSet, f)
  | .netAddrSet f => some (cmdNetAddrSet, f)
  | .netDcbSet f => some (cmdNetDcbSet, f)
  | .rmaConfig f => some (cmdRmaConfig, f)
  | .qpList f => some (cmdQpList, f)
  | .qpInfo f => some (cmdQpInfo, f)
  | .qpKill f => some (cmdQpKill, f)
  | .powerStatus f => some (cmdPowerStatus, f)
  | .powerSleep f => some (cmdPowerSleep, f)
  | .powerConfig f => some (cmdPowerConfig, f)
  | .wakeTimerSet f => some (cmdWakeTimerSet, f)
  | .twbStatus f => some (cmdTwbStatus, f)
  | .twbConfig f => some (cmdTwbConfig, f)
  | .regionCreate f => some (cmdRegionCreate, f)
  | .regionDelete f => some (cmdRegionDelete, f)
  | .regionRekey f => some (cmdRegionRekey, f)
  | .regionSetFlags f => some (if pinOnly s f.payload then cmdRegionSetPin else cmdRegionSetFlags, f)
  | .regionQuery f => some (cmdRegionQuery, f)
  | .regionList f => some (cmdRegionList, f)
  | .chainCreate f => some (cmdChainCreate, f)
  | .chainDelete f => some (cmdChainDelete, f)
  | .chainReset f => some (cmdChainReset, f)
  | .chainPost f => some (cmdChainPost, f)
  | .chainStatus f => some (cmdChainStatus, f)
  | .tierQuery f => some (cmdTierQuery, f)
  | .homeQuery f => some (cmdHomeQuery, f)
  | .planLoadBegin f => some (cmdPlanLoadBegin, f)
  | .planLoadData f => some (cmdPlanLoadData, f)
  | .planLoadEnd f => some (cmdPlanLoadEnd, f)
  | .planActivate f => some (cmdPlanActivate, f)
  | .planDeactivate f => some (cmdPlanDeactivate, f)
  | .planUnload f => some (cmdPlanUnload, f)
  | .planStatus f => some (cmdPlanStatus, f)
  | .moveExtents f => some (cmdMoveExtents, f)
  | .moveCancel f => some (cmdMoveCancel, f)
  | .moveStatus f => some (cmdMoveStatus, f)
  | .nearSizeSet f => some (cmdNearSizeSet, f)
  | .cacheStatus f => some (cmdCacheStatus, f)
  | .cacheConfig f => some (cmdCacheConfig, f)
  | .cacheMaint f => some (cmdCacheMaint, f)
  | .dramStatus f => some (cmdDramStatus, f)
  | .dramSpeedSet f => some (cmdDramSpeedSet, f)
  | .dramTsetWrite f => some (cmdDramTsetWrite, f)
  | .dramMapSet f => some (cmdDramMapSet, f)
  | .dramRetrain f => some (cmdDramRetrain, f)
  | .dramTrainResults f => some (cmdDramTrainResults, f)
  | .dramTrainClear f => some (cmdDramTrainClear, f)
  | .dramPpr f => some (cmdDramPpr, f)
  | .decStatus f => some (cmdDecStatus, f)
  | .decLogRead f => some (cmdDecLogRead, f)
  | .decLogClear f => some (cmdDecLogClear, f)
  | .decRetire f => some (cmdDecRetire, f)
  | .decPolicySet f => some (cmdDecPolicySet, f)
  | .decScrubSet f => some (cmdDecScrubSet, f)
  | .decInject f => some (cmdDecInject, f)
  | .deepStatus f => some (cmdDeepStatus, f)
  | .deepBlockInfo f => some (cmdDeepBlockInfo, f)
  | .deepConfig f => some (cmdDeepConfig, f)
  | .deepRetireBlock f => some (cmdDeepRetireBlock, f)
  | .deepFormat f => some (cmdDeepFormat, f)
  | .deepRebuild f => some (cmdDeepRebuild, f)
  | .persistStatus f => some (cmdPersistStatus, f)
  | .ceilingSet f => some (cmdCeilingSet, f)
  | .freezePowerSet f => some (cmdFreezePowerSet, f)
  | .firnConfig f => some (cmdFirnConfig, f)
  | .freezeReportRead f => some (cmdFreezeReportRead, f)
  | .freezeTest f => some (cmdFreezeTest, f)
  | .twinStatus f => some (cmdTwinStatus, f)
  | .twinConfig f => some (pairedTwinConfig f s, f)
  | .twinSwap f => some (cmdTwinSwap, f)
  | .twinLeave f => some (cmdTwinLeave, f)
  | .twinResync f => some (cmdTwinResync, f)
  | .twinFaultClear f => some (cmdTwinFaultClear, f)
  | .twinForceSolo f => some (cmdTwinForceSolo, f)
  | .feedStatus f => some (cmdFeedStatus, f)
  | .feedStreamSet f => some (cmdFeedStreamSet, f)
  | .feedStreamClear f => some (cmdFeedStreamClear, f)
  | .feedStart f => some (cmdFeedStart, f)
  | .feedStop f => some (cmdFeedStop, f)
  | .feedAdmitCheck f => some (cmdFeedAdmitCheck, f)
  | .feedMapLoad f => some (cmdFeedMapLoad, f)
  | .feedMapSwitch f => some (cmdFeedMapSwitch, f)
  | .feedLaneConfig f => some (cmdFeedLaneConfig, f)
  | .feedLaneSpare f => some (cmdFeedLaneSpare, f)
  | .feedLaneRestore f => some (cmdFeedLaneRestore, f)
  | .eventRead f => some (cmdEventRead, f)
  | .eventStatus f => some (cmdEventStatus, f)
  | .eventConfig f => some (cmdEventConfig, f)
  | .timeSet f => some (cmdTimeSet, f)
  | .timeGet f => some (cmdTimeGet, f)
  | .fwStatus f => some (cmdFwStatus, f)
  | .fwUpdateBegin f => some (cmdFwUpdateBegin, f)
  | .fwUpdateData f => some (cmdFwUpdateData, f)
  | .fwUpdateEnd f => some (cmdFwUpdateEnd, f)
  | .fwActivate f => some (cmdFwActivate, f)
  | .fwCommit f => some (cmdFwCommit, f)
  | .fwUpdateAbort f => some (cmdFwUpdateAbort, f)
  | .fwManifestRead f => some (cmdFwManifestRead, f)
  | .selftestReport f => some (cmdSelftestReport, f)
  | .monitorRead f => some (cmdMonitorRead, f)
  | .bankConfig f => some (cmdBankConfig, f)
  | .nvStatus f => some (cmdNvStatus, f)
  | .nvFactoryRead f => some (cmdNvFactoryRead, f)
  | .nvFactoryWrite f => some (cmdNvFactoryWrite, f)
  | .nvFactoryErase f => some (cmdNvFactoryErase, f)
  | .nvScan f differ => some (cmdNvScan differ, f)
  | .otpRead f => some (cmdOtpRead, f)
  | .otpProgram f ok => some (cmdOtpProgram ok, f)
  | .keyStatus f => some (cmdKeyStatus, f)
  | .keyRoleSet f => some (cmdKeyRoleSet, f)
  | .keyPairSet f => some (cmdKeyPairSet, f)
  | .keyMacsecRekey f => some (cmdKeyMacsecRekey, f)
  | .keySelftest f ok => some (cmdKeySelftest ok, f)
  | _ => none

/-- Whether the tile and the unit that a command names exist (R11, R13). -/
def unitsPresent (s : State) : Instr → Bool
  | .mainsOkLow tile => decide (tile < s.tiles)
  | .huTrip tile => decide (tile < s.tiles)
  | .huEmerg tile => decide (tile < s.tiles)
  | .tripArm tile => decide (tile < s.tiles)
  | .tcrit tile => decide (tile < s.tiles)
  | .freezeNet tile => decide (tile < s.tiles)
  | .railFault rail => decide (rail < 4)
  | .phaseFault stage _ => decide (stage < 24)
  | .phaseShedLoad stage _ => decide (stage < 24)
  | .freezeTrigger tile _ => decide (tile < s.tiles)
  | .secondTrigger tile => decide (tile < s.tiles)
  | .drainWindowEnd tile => decide (tile < s.tiles)
  | .dumpComplete tile => decide (tile < s.tiles)
  | .sealVerified tile => decide (tile < s.tiles)
  | .selftestSlice tile _ => decide (tile < s.tiles)
  | .sliceResult tile _ _ _ => decide (tile < s.tiles)
  | .sliceBudgetExpiry tile => decide (tile < s.tiles)
  | .restore tile _ _ _ => decide (tile < s.tiles)
  | .bgRestorePage tile _ _ _ _ _ => decide (tile < s.tiles)
  | .helloSend tile => decide (tile < s.tiles)
  | .hello tile _ => decide (tile < s.tiles)
  | .heartbeatSend tile => decide (tile < s.tiles)
  | .heartbeat tile _ => decide (tile < s.tiles)
  | .mirror tile _ => decide (tile < s.tiles)
  | .mirrorRetransmit tile => decide (tile < s.tiles)
  | .mirrorAck tile _ => decide (tile < s.tiles)
  | .credit tile _ => decide (tile < s.tiles)
  | .creditBooksReset tile => decide (tile < s.tiles)
  | .fetchReq tile _ => decide (tile < s.tiles)
  | .fetchResp tile _ => decide (tile < s.tiles)
  | .fetchTimeout tile _ => decide (tile < s.tiles)
  | .portionRecord tile => decide (tile < s.tiles)
  | .atomicRecord tile => decide (tile < s.tiles)
  | .qpCtxRecord tile => decide (tile < s.tiles)
  | .capsuleRecord tile => decide (tile < s.tiles)
  | .completionRecord tile => decide (tile < s.tiles)
  | .startRecord tile => decide (tile < s.tiles)
  | .chainRecord tile => decide (tile < s.tiles)
  | .moveRecord tile => decide (tile < s.tiles)
  | .readyRecord tile => decide (tile < s.tiles)
  | .indexMark tile => decide (tile < s.tiles)
  | .snapshotRecord tile => decide (tile < s.tiles)
  | .stateRecord tile => decide (tile < s.tiles)
  | .resyncSnapshot tile => decide (tile < s.tiles)
  | .twinLinkDown tile => decide (tile < s.tiles)
  | .twinLinkUp tile => decide (tile < s.tiles)
  | .pnNear tile => decide (tile < s.tiles)
  | .rxNewKn tile _ _ => decide (tile < s.tiles)
  | .macsecVerifyFail tile _ => decide (tile < s.tiles)
  | .pairKeyTimeout tile => decide (tile < s.tiles)
  | .ethLinkUp tile port lport => decide (tile < s.tiles) && decide (port < 2) && decide (lport < 4)
  | .ethLinkDown tile port lport => decide (tile < s.tiles) && decide (port < 2) && decide (lport < 4)
  | .linkDownHoldExpiry tile port lport => decide (tile < s.tiles) && decide (port < 2) && decide (lport < 4)
  | .ethFrame tile port _ _ _ => decide (tile < s.tiles) && decide (port < 2)
  | .pfcPause tile port _ _ => decide (tile < s.tiles) && decide (port < 2)
  | .pfcWatchdog tile port _ => decide (tile < s.tiles) && decide (port < 2)
  | .req r => decide (r.tile < s.tiles) && decide (r.port < 2) && decide (r.lport < 4)
  | .send p => decide (p.tile < s.tiles) && decide (p.port < 2) && decide (p.lport < 4)
  | .rdmaWrite p => decide (p.tile < s.tiles) && decide (p.port < 2) && decide (p.lport < 4)
  | .rdmaWriteImm p => decide (p.tile < s.tiles) && decide (p.port < 2) && decide (p.lport < 4)
  | .rdmaReadRequest p _ => decide (p.tile < s.tiles) && decide (p.port < 2) && decide (p.lport < 4)
  | .cmpSwap p => decide (p.tile < s.tiles) && decide (p.port < 2) && decide (p.lport < 4)
  | .fetchAdd p => decide (p.tile < s.tiles) && decide (p.port < 2) && decide (p.lport < 4)
  | .ackReceived p => decide (p.tile < s.tiles) && decide (p.port < 2) && decide (p.lport < 4)
  | .readResponse p => decide (p.tile < s.tiles) && decide (p.port < 2) && decide (p.lport < 4)
  | .cnp p => decide (p.tile < s.tiles) && decide (p.port < 2) && decide (p.lport < 4)
  | .windowRecompute tile => decide (tile < s.tiles)
  | .bufBooksCheck tile => decide (tile < s.tiles)
  | .tokenGrant tile => decide (tile < s.tiles)
  | .firnCapture tile _ => decide (tile < s.tiles)
  | .programVerified tile _ _ => decide (tile < s.tiles)
  | .firnBooksCheck tile => decide (tile < s.tiles)
  | .firnDeepMerge tile _ => decide (tile < s.tiles)
  | .homeMapApply tile _ => decide (tile < s.tiles)
  | .cacheLookup tile _ _ _ _ _ => decide (tile < s.tiles)
  | .cacheFill tile _ => decide (tile < s.tiles)
  | .evbWriteback tile => decide (tile < s.tiles)
  | .cacheDrainDone tile => decide (tile < s.tiles)
  | .repartitionDone tile => decide (tile < s.tiles)
  | .tchEnWrite tile _ => (tile == 15 || decide (tile < s.tiles))
  | .tchWaypwrWrite tile _ => (tile == 15 || decide (tile < s.tiles))
  | .tchWayclassWrite tile _ => (tile == 15 || decide (tile < s.tiles))
  | .wayCleanDone tile way => decide (tile < s.tiles) && decide (way < 16)
  | .clean tile => decide (tile < s.tiles)
  | .invalidate tile => decide (tile < s.tiles)
  | .dramRequest tile ch _ => decide (tile < s.tiles) && decide (ch < 3)
  | .refreshDue tile ch _ => decide (tile < s.tiles) && decide (ch < 3)
  | .refreshDebtMax tile ch _ => decide (tile < s.tiles) && decide (ch < 3)
  | .tempPoll tile ch _ _ => decide (tile < s.tiles) && decide (ch < 3)
  | .rowIdleClose tile ch _ => decide (tile < s.tiles) && decide (ch < 3)
  | .panicLong tile ch => decide (tile < s.tiles) && decide (ch < 3)
  | .retrainPause tile ch => decide (tile < s.tiles) && decide (ch < 3)
  | .retrainForced tile ch => decide (tile < s.tiles) && decide (ch < 3)
  | .speedGo tile ch _ => decide (tile < s.tiles) && decide (ch < 3)
  | .freqChangeDone tile ch => decide (tile < s.tiles) && decide (ch < 3)
  | .trnWriteReadCompare tile ch _ _ _ => decide (tile < s.tiles) && decide (ch < 3)
  | .trnReadCompare tile ch _ _ _ => decide (tile < s.tiles) && decide (ch < 3)
  | .trnCaLoopback tile ch _ _ _ => decide (tile < s.tiles) && decide (ch < 3)
  | .trnWlSample tile ch _ _ _ => decide (tile < s.tiles) && decide (ch < 3)
  | .sppr tile ch _ _ => decide (tile < s.tiles) && decide (ch < 3)
  | .hppr tile ch _ _ => decide (tile < s.tiles) && decide (ch < 3)
  | .dramRelocate tile => decide (tile < s.tiles)
  | .s2RankReturn tile _ _ => decide (tile < s.tiles)
  | .decRead tile _ _ _ _ _ => decide (tile < s.tiles)
  | .firstWrite tile _ => decide (tile < s.tiles)
  | .frameFree tile _ => decide (tile < s.tiles)
  | .ueRecovery tile _ => decide (tile < s.tiles)
  | .pageRetire tile _ => decide (tile < s.tiles)
  | .scrubRead tile ch _ => decide (tile < s.tiles) && decide (ch < 3)
  | .errorLogPoll tile _ => decide (tile < s.tiles)
  | .decLogClearWrite tile _ => decide (tile < s.tiles)
  | .decInjArm tile _ => decide (tile < s.tiles)
  | .deepRead tile _ _ _ _ _ _ => decide (tile < s.tiles)
  | .suspendRead tile _ _ _ => decide (tile < s.tiles)
  | .deepProgramFail tile _ ch => decide (tile < s.tiles) && decide (ch < 8)
  | .eraseFail tile _ ch => decide (tile < s.tiles) && decide (ch < 8)
  | .gcStart tile => decide (tile < s.tiles)
  | .gcStop tile => decide (tile < s.tiles)
  | .tableFlush tile _ => decide (tile < s.tiles)
  | .dumpArm tile => decide (tile < s.tiles)
  | .previousRelease tile => decide (tile < s.tiles)
  | .wearStage tile _ _ ch _ => decide (tile < s.tiles) && decide (ch < 8)
  | .strobeEdge tile stb => decide (tile < s.tiles) && decide (stb < 2)
  | .strobeEarly tile stb => decide (tile < s.tiles) && decide (stb < 2)
  | .indexPulse tile => decide (tile < s.tiles)
  | .fifoBooksCheck tile => decide (tile < s.tiles)
  | .lidSend tile => decide (tile < s.tiles)
  | .statusFrame tile lane _ _ => decide (tile < s.tiles) && decide (lane < 5)
  | .laneFailing tile lane _ => decide (tile < s.tiles) && decide (lane < 4)
  | .spareStatusOk tile => decide (tile < s.tiles)
  | .spareTimeout tile => decide (tile < s.tiles)
  | .registerWrite tile _ _ _ => (tile == 15 || decide (tile < s.tiles))
  | .marginSchedule tile _ => decide (tile < s.tiles)
  | .nvsKeyWrite tile _ _ _ => decide (tile < s.tiles)
  | .nvsUnlockTimeout tile => decide (tile < s.tiles)
  | .program tile _ _ _ _ => decide (tile < s.tiles)
  | .erase tile _ _ _ => decide (tile < s.tiles)
  | .blankCheck tile _ _ => decide (tile < s.tiles)
  | .marginRead tile _ _ _ => decide (tile < s.tiles)
  | .swap tile _ _ => decide (tile < s.tiles)
  | .nvsOperationEnd tile => decide (tile < s.tiles)
  | .kseQueueCheck submitter _ => decide (submitter < 4)
  | .eventArrival tile => decide (tile < s.tiles)
  | .linkRetired tile _ => decide (tile < s.tiles)
  | .faultEntry tile _ => decide (tile < s.tiles)
  | .wayPowerUpDone tile way => decide (tile < s.tiles) && decide (way < 16)
  | .blockEraseDone tile _ _ => decide (tile < s.tiles)
  | .deepRebuildDone tile => decide (tile < s.tiles)
  | .blockLock tile lane => decide (tile < s.tiles) && decide (lane < 5)
  | _ => true

end Sys2Proof.Machine
end

