-- ==== Sys2Proof/Safety.lean ====
section
/-! DEFINITION. What counts as a safe state and a safe step, in the terms that statements use. -/

namespace Sys2Proof.Machine

/-- Both maps of bytes are in their canonical form: memory, and the OTP row's fuses. -/
def State.canonical (s : State) : Bool := Memory.wf s.mem && amapWf (fun _ => (0 : Byte)) s.otp

/-- A fuse programmed in a stays programmed in b (R426): every OTP byte of b holds the bits of a's. -/
def FusesKept (a b : State) : Prop := ∀ c x : Nat, a.otpByte c x &&& b.otpByte c x = a.otpByte c x

/-- The board without the modules in its sockets, which may be exchanged between two start-ups (R134). -/
def Board.soldered (b : Board) : Board := { b with modules := [] }

/-- What no command changes or undoes: the waiting commands, model time, the part and its board but for the modules in its sockets; open values drawn are never drawn again;
the canonical form of memory and fuses; programmed fuses. -/
def Keeps (a b : State) : Prop :=
  (b.pending = a.pending ∧ b.now = a.now ∧ b.tiles = a.tiles ∧ b.board.soldered = a.board.soldered) ∧ a.freeCtr ≤ b.freeCtr ∧
  (a.canonical = true → b.canonical = true) ∧ FusesKept a b

/-- A next state keeps what no command changes. -/
def OutKeeps (s : State) (o : Host.Outcome State Fault Refusal) : Prop := ∀ t, o = .next t → Keeps s t

/-- Everything the device stores, holds as configuration or runs is as it was: memory, fuses, store records, homes, plans, regions, persistence, caches,
tiers, keys, feed, twin, start-up, power and Freeze. Registers, mailboxes, connections, records and outputs may differ. -/
def SameData (a b : State) : Prop :=
  b.mem = a.mem ∧ b.otp = a.otp ∧ b.nv = a.nv ∧ b.nvs = a.nvs ∧ b.ams = a.ams ∧ b.firn = a.firn ∧ b.cache = a.cache ∧ b.deep = a.deep ∧
  b.dram = a.dram ∧ b.dec = a.dec ∧ b.kse = a.kse ∧ b.feed = a.feed ∧ b.twin = a.twin ∧ b.boot = a.boot ∧ b.pow = a.pow ∧ b.frzRun = a.frzRun

end Sys2Proof.Machine
end

