-- ==== Sys2Proof/Certificates/Slice0/Obligations.lean ====
section
/-! DEFINITION. The statements for the provers. -/

open Sys2Proof Sys2Proof.Machine

/-! ### The block as a whole -/

/-- A step runs the command at the front of the queue, on the state with the queue's rest. -/
def Obligations.StepTakesFront : Prop :=
  ∀ (c : Instr) (rest : List Instr) (s : State), step { s with pending := c :: rest } = exec c { s with pending := rest }

/-- With no command waiting the block idles: one microsecond passes (DESIGN CHOICE, log entry 5), and what no command changes stands. -/
def Obligations.IdleStepPassesTime : Prop :=
  ∀ s : State, s.pending = [] →
    ∃ t, step s = .next t ∧ t.pending = [] ∧ t.now = s.now + 1 ∧ t.tiles = s.tiles ∧ t.board.soldered = s.board.soldered ∧ s.freeCtr ≤ t.freeCtr ∧
      FusesKept s t ∧ (s.canonical = true → t.canonical = true)

/-- A step takes exactly one command from the queue; it changes neither the rest of the queue, nor model time, nor the part and its board but for the modules in its sockets. -/
def Obligations.StepTakesOneCommand : Prop :=
  ∀ (c : Instr) (rest : List Instr) (s t : State), s.pending = c :: rest → step s = .next t →
    t.pending = rest ∧ t.now = s.now ∧ t.tiles = s.tiles ∧ t.board.soldered = s.board.soldered

/-- Every command of every row answers a next state; where the tile or the unit that it names does not exist, it has no effect (R11). -/
def Obligations.EveryCommandAnswers : Prop :=
  ∀ (i : Instr) (s : State), (∃ t, exec i s = .next t) ∧ (unitsPresent s i = false → exec i s = .next s)

/-- After reset: no command waits, no byte of memory is listed, no session and no QP is open, and every register reads its reset word. -/
def Obligations.ResetState : Prop :=
  State.reset.pending = [] ∧ State.reset.mem = [] ∧ State.reset.mb.sessions = [] ∧ State.reset.net.qps = [] ∧
  (∀ t blk off : Nat, State.reset.word t blk off = regResetWord blk off)

/-- The state after reset holds memory and fuses in their canonical form. -/
def Obligations.ResetCanonical : Prop := State.reset.canonical = true

/-- Every step keeps memory and fuses in their canonical form. -/
def Obligations.StepKeepsCanonical : Prop :=
  ∀ s t : State, s.canonical = true → step s = .next t → t.canonical = true

/-- No step clears a programmed fuse, of either copy. -/
def Obligations.StepKeepsFuses : Prop :=
  ∀ (s t : State) (copy a : Nat), step s = .next t → s.otpByte copy a &&& t.otpByte copy a = s.otpByte copy a

/-- No step goes back to an open value that was drawn before (DESIGN CHOICE, log entry 6). -/
def Obligations.FreeValuesStayFresh : Prop := ∀ s t : State, step s = .next t → s.freeCtr ≤ t.freeCtr

/-! ### Mailboxes -/

/-- A request that passes steps 1 to 7 of R336 executes; the exact copy of the last request has the stored response sent again. -/
def Obligations.MailboxRequestsExecute : Prop :=
  ∀ (i : Instr) (c : Cmd) (f0 f : Frame) (s : State), requestOf s i = some (c, f0) → f = { f0 with opcode := c.opcode } →
    s.pointWaits f.point = false → pointServed s.dstate f.point → s.dstate ≠ .s1 → s.dstate ≠ .s2 →
    s.pow.target = 0 →
    (∀ x, c.admission f (s.takeInput f) = .go x → exec i s = .next (c.execute f x (s.takeInput f))) ∧
    (∀ b, c.admission f (s.takeInput f) = .resend b → exec i s = .next ((s.takeInput f).respond f.point b))

/-- A request that fails a check of steps 1 to 7 has no side effect on what the device stores or does: it is noted in
MGT.LAST_REFUSE and answered with the status and EXECUTED clear. -/
def Obligations.RefusedRequestsHaveNoEffect : Prop :=
  ∀ (i : Instr) (c : Cmd) (f0 f : Frame) (s : State) (n : Nat) (st : Status), requestOf s i = some (c, f0) →
    f = { f0 with opcode := c.opcode } → s.pointWaits f.point = false →
    pointServed s.dstate f.point → s.dstate ≠ .s1 → s.dstate ≠ .s2 → s.pow.target = 0 →
    c.admission f (s.takeInput f) = .refuse n st →
    ∃ t, exec i s = .next t ∧ SameData s t ∧ t.mb.sessions = s.mb.sessions ∧
      t.fld 0 MGT.LAST_REFUSE.STATUS = st.code ∧ t.fld 0 MGT.LAST_REFUSE.POINT = f.point ∧ t.fld 0 MGT.LAST_REFUSE.STEP = n ∧
      Out.mailbox f.point (frameBytes (respFrame s f (s.namedSession f) false st [])) ∈ t.out

/-- A reading command changes no byte of memory, no fuse, no region, home, key, plan or configuration, whatever its outcome. -/
def Obligations.ReadingCommandsKeepData : Prop :=
  ∀ (i : Instr) (f : Frame) (s t : State),
    i ∈ [.netStatus f, .qpList f, .qpInfo f, .powerStatus f, .twbStatus f, .regionQuery f, .regionList f, .chainStatus f, .tierQuery f,
      .homeQuery f, .planStatus f, .moveStatus f, .cacheStatus f, .dramStatus f, .decStatus f, .decLogRead f, .deepStatus f,
      .persistStatus f, .freezeReportRead f, .twinStatus f, .feedStatus f, .feedAdmitCheck f, .fwStatus f, .fwManifestRead f,
      .selftestReport f, .monitorRead f, .nvStatus f, .otpRead f, .keyStatus f, .eventStatus f, .timeGet f] →
    s.dstate ≠ .s1 → s.dstate ≠ .s2 → s.pow.target = 0 → exec i s = .next t → SameData s t

/-- The MAC of R346: over header bytes 0x00 to 0x2F and the payload, under the session's key; 0 without a session; a request whose
MAC fails is refused at step 2. -/
def Obligations.FramesCarryMac : Prop :=
  (∀ f : Frame, (headerBytes f).length = 0x30) ∧
  (∀ (s : State) (f : Frame) (x : Session) (ex : Bool) (st : Status) (pl : List Byte),
    (respFrame s f (some x) ex st pl).mac = frameMac x.key (respFrame s f (some x) ex st pl)) ∧
  (∀ (s : State) (f : Frame) (ex : Bool) (st : Status) (pl : List Byte), (respFrame s f none ex st pl).mac = 0) ∧
  (∀ (s : State) (x : Session) (op : Nat) (pl : List Byte), (s.ntfFrame x op pl).mac = frameMac x.key (s.ntfFrame x op pl)) ∧
  (∀ (c : Cmd) (f : Frame) (s : State) (x : Session), headerStatus f = .ok → f.session ≠ 0 →
    s.mb.sessions.find? (fun y => y.point == f.point && y.id == f.session) = some x → frameMac x.key f ≠ f.mac →
    c.admission f s = .refuse 2 .deniedRole)

/-! ### Registers and events -/

/-- Hardware sets an EVENTS bit: the bit reads 1 whatever it read before, also right after a write of 1 cleared it, the block's EVT_CNT counts the setting, and
no other register of the package changes. -/
def Obligations.EventBitsAreCounted : Prop :=
  ∀ (s : State) (t : Nat) (f : Fld), f.w = 1 → f.lo < 32 → f.off < 0xffc → f.blk < 256 →
    (s.ev t f).fld t f = 1 ∧
    (s.ev t f).fld t (evtCnt f.blk) = min (s.fld t (evtCnt f.blk) + 1) (2 ^ 32 - 1) ∧
    ((s.setF t f 0).ev t f).fld t f = 1 ∧
    ((s.setF t f 0).ev t f).fld t (evtCnt f.blk) = min (s.fld t (evtCnt f.blk) + 1) (2 ^ 32 - 1) ∧
    (∀ u blk off : Nat, blk < 256 → off < 2 ^ 20 → ¬(u = t ∧ blk = f.blk ∧ (off = f.off ∨ off = 0xffc)) →
      (s.ev t f).word u blk off = s.word u blk off)

/-- A write to TCH.WAYCLASS or TCH.WAYPWR that would leave a class of the cache without a powered way that is not cleaning is ignored whole and
noted, and CACHE_CONFIG answers BAD_ARG; a write that is taken leaves each class such a way. -/
def Obligations.WayWritesKeepBothClasses : Prop :=
  (∀ (tile v : Nat) (s : State), tile < s.tiles → tile ≠ 15 → s.classOk tile (v % 65536) = false →
    ∃ t, exec (.tchWayclassWrite tile v) s = .next t ∧ t.mem = s.mem ∧ t.cache = s.cache ∧
      t.fld tile TCH.WAYCLASS.STREAM = s.fld tile TCH.WAYCLASS.STREAM ∧
      t.fld tile TCH.WAYSTAT.CLEANING = s.fld tile TCH.WAYSTAT.CLEANING ∧ t.fld tile TCH.EVENTS.WAY_REFUSED = 1) ∧
  (∀ (tile v : Nat) (s : State), tile < s.tiles → tile ≠ 15 → s.pwrOk tile (v % 65536) = false →
    ∃ t, exec (.tchWaypwrWrite tile v) s = .next t ∧ t.mem = s.mem ∧ t.cache = s.cache ∧
      t.fld tile TCH.WAYPWR.ON = s.fld tile TCH.WAYPWR.ON ∧
      t.fld tile TCH.WAYSTAT.CLEANING = s.fld tile TCH.WAYSTAT.CLEANING ∧ t.fld tile TCH.EVENTS.WAY_REFUSED = 1) ∧
  (∀ (c : Caller) (tile en na cls pwr : Nat) (s : State), tile < s.tiles → tile < 8 → en < 2 → na < 2 → cls < 65536 → pwr < 65536 →
    s.classOk tile cls = false →
    (cmdCacheConfig.run c (build339 [(1, tile), (1, en), (1, na), (2, cls), (2, pwr)]) s).status = .badArg) ∧
  (∀ (tile v : Nat) (s : State), tile < s.tiles → tile ≠ 15 → s.classOk tile (v % 65536) = true →
    ∃ t, exec (.tchWayclassWrite tile v) s = .next t ∧ t.fld tile TCH.WAYCLASS.STREAM = v % 65536 ∧
      waysKept (t.fld tile TCH.WAYCLASS.STREAM) (t.fld tile TCH.WAYSTAT.POWERED) (t.fld tile TCH.WAYSTAT.CLEANING) = true) ∧
  (∀ (tile v : Nat) (s : State), tile < s.tiles → tile ≠ 15 → s.pwrOk tile (v % 65536) = true →
    ∃ t, exec (.tchWaypwrWrite tile v) s = .next t ∧ t.fld tile TCH.WAYPWR.ON = v % 65536 ∧
      waysKept (t.fld tile TCH.WAYCLASS.STREAM) (t.fld tile TCH.WAYSTAT.POWERED) (t.fld tile TCH.WAYSTAT.CLEANING) = true)

/-! ### Main tier -/

/-- R88: the split of a tile-local address across the three channels, and that no two addresses share a place. -/
def Obligations.ChannelSplit : Prop :=
  (∀ (s : State) (t a : Nat), ∀ g, g = s.chGran t →
    channelOf g a = ((a >>> g) % 3, (((a >>> g) / 3) <<< g) ||| (a % 2 ^ g)) ∧ (s.locate t a).1 = (a >>> g) % 3) ∧
  (∀ (s : State) (t : Nat), s.fld t DMC.AMAP.CH_GRAN = 0 → 2 ^ s.chGran t = 256) ∧
  (∀ (s : State) (t : Nat), s.fld t DMC.AMAP.CH_GRAN = 1 → 2 ^ s.chGran t = 4096) ∧
  (∀ t : Nat, 2 ^ State.reset.chGran t = 256) ∧
  (∀ g a : Nat, channelBack g (channelOf g a).1 (channelOf g a).2 = a)

/-- R90: in every order of Table 4.3 the bank group that the device addresses is BG xor ROW[2:0]; BA and ROW are used as decoded. -/
def Obligations.BankGroupHash : Prop :=
  ∀ rowBits rankBits l : Nat,
    (∀ row, row = l / 2 ^ 19 % 2 ^ rowBits →
      placeOf 0 rowBits rankBits l = ⟨l / 2 ^ 6 % 2, (l / 2 ^ 7 % 8) ^^^ (row % 8), l / 2 ^ 10 % 128, l / 2 ^ 17 % 4, row, l / 2 ^ (19 + rowBits) % 2 ^ rankBits⟩ ∧
      placeOf 1 rowBits rankBits l = ⟨l / 2 ^ 6 % 2, (l / 2 ^ 14 % 8) ^^^ (row % 8), l / 2 ^ 7 % 128, l / 2 ^ 17 % 4, row, l / 2 ^ (19 + rowBits) % 2 ^ rankBits⟩) ∧
    (∀ row, row = l / 2 ^ (19 + rankBits) % 2 ^ rowBits →
      placeOf 2 rowBits rankBits l = ⟨l / 2 ^ 6 % 2, (l / 2 ^ 7 % 8) ^^^ (row % 8), l / 2 ^ 10 % 128, l / 2 ^ 17 % 4, row, l / 2 ^ 19 % 2 ^ rankBits⟩ ∧
      placeOf 3 rowBits rankBits l = ⟨l / 2 ^ 6 % 2, (l / 2 ^ 14 % 8) ^^^ (row % 8), l / 2 ^ 7 % 128, l / 2 ^ 17 % 4, row, l / 2 ^ 19 % 2 ^ rankBits⟩)

/-- Hard repair outside SELFTEST is ignored and noted. -/
def Obligations.HardRepairOnlyInSelftest : Prop :=
  ∀ (tile ch w result : Nat) (s : State), tile < s.tiles → ch < 3 → s.dstate ≠ .selftest →
    ∃ t, exec (.hppr tile ch w result) s = .next t ∧ SameData s t ∧ t.fld tile (Fld.inst DMC.EVENTS.PPR_REFUSED ch) = 1

/-- DEC_LOG_CLEAR_WRITE empties the logs of the channels in its mask and leaves every other log, every register and all memory as it is. -/
def Obligations.DecLogsCleared : Prop :=
  ∀ (tile mask : Nat) (s : State), tile < s.tiles →
    ∃ t, exec (.decLogClearWrite tile mask) s = .next t ∧ t.regs = s.regs ∧ t.mem = s.mem ∧
      (∀ e, e ∈ t.dec.logs ↔ e ∈ s.dec.logs ∧ ¬(e.tile = tile ∧ (mask % 8).testBit e.ch = true))

/-- A frame that no home and no table uses is freed: its pages read as zero, also those that a spare page serves; every other byte of every space reads
as before. -/
def Obligations.FreedFrameReadsZero : Prop :=
  ∀ (tile frame : Nat) (s : State), tile < s.tiles → tile < 8 → s.reservedFrames tile ≤ frame → ¬((s.mainUsed tile).contains frame) →
    frame < s.mainBytes / 2 ^ 21 → s.mainBytes ≤ 2 ^ 60 →
    ∃ t, exec (.frameFree tile frame) s = .next t ∧
      (∀ a < 2 ^ 21, s.physAt tile (frame * 2 ^ 21 + a) < 2 ^ 60 → t.byte .main tile (s.physAt tile (frame * 2 ^ 21 + a)) = 0) ∧
      (∀ (sp : Space) (u a : Nat),
        ¬(memKey .main tile (frame * 2 ^ 21) ≤ memKey sp u a ∧ memKey sp u a < memKey .main tile ((frame + 1) * 2 ^ 21)) →
        (∀ p ∈ s.dec.pages, p.tile = tile → p.page / 512 = frame →
          ¬(memKey .main tile (s.physAt tile (p.page * 4096)) ≤ memKey sp u a ∧
            memKey sp u a < memKey .main tile (s.physAt tile (p.page * 4096) + 4096))) →
        t.byte sp u a = s.byte sp u a)

/-! ### Nonvolatile store, keys -/

/-- A PROGRAM that an unlocked array starts, from the master that unlocked it: a word that is not erased is left unchanged and ends NOT_ERASED;
programming all ones leaves the word erased; a word that verifies within 16 pulses holds the data, and every other byte is unchanged. -/
def Obligations.StoreProgram : Prop :=
  ∀ (tile master addr data pulses : Nat) (s : State), tile < s.tiles → tile < 8 → (s.array tile).step = 2 → (s.array tile).master = master →
    addr < 0x800000 →
    ∃ t, exec (.program tile master addr data pulses) s = .next t ∧ t.flag tile NVS.CMD.BUSY ∧ (t.array tile).step = 0 ∧
      (¬(s.wordErased tile (addr / 8)) → t.mem = s.mem ∧ t.fld tile NVS.EVENTS.NOT_ERASED = 1 ∧ (t.array tile).busy = some ⟨1, addr, 2⟩) ∧
      (s.wordErased tile (addr / 8) → data = 2 ^ 64 - 1 → t.mem = s.mem ∧ (t.array tile).busy = some ⟨1, addr, 1⟩) ∧
      (s.wordErased tile (addr / 8) → data < 2 ^ 64 - 1 → pulses ≤ 16 →
        t.bytes .nvs tile (addr / 8 * 8) 8 = leBytes 8 data ∧ t.fld tile NVS.STATUS.PULSES = pulses ∧
        (t.array tile).busy = some ⟨1, addr, 1⟩) ∧
      (∀ (sp : Space) (u a : Nat), u < 256 → a < 2 ^ 60 → ¬(sp = .nvs ∧ u = tile ∧ addr / 8 * 8 ≤ a ∧ a < addr / 8 * 8 + 8) →
        t.byte sp u a = s.byte sp u a)

/-- While NVS.CMD.BUSY is 1 a write to NVS.KEY is ignored and sets KEY_FAIL; a wrong or late second key, or one from another master, locks the
array and sets KEY_FAIL; in no case does a byte of the store change. -/
def Obligations.StoreKeyFailures : Prop :=
  ∀ (tile master value : Nat) (late : Bool) (s : State), tile < s.tiles →
    (s.flag tile NVS.CMD.BUSY → ∃ t, exec (.nvsKeyWrite tile master value late) s = .next t ∧ t.nvs = s.nvs ∧ t.mem = s.mem ∧
      t.fld tile NVS.EVENTS.KEY_FAIL = 1) ∧
    (¬(s.flag tile NVS.CMD.BUSY) → (s.array tile).step = 1 → value ≠ 0x93E8 ∨ late = true ∨ (s.array tile).master ≠ master →
      ∃ t, exec (.nvsKeyWrite tile master value late) s = .next t ∧ (t.array tile).step = 0 ∧ t.mem = s.mem ∧
        t.fld tile NVS.STATUS.UNLOCKED = 0 ∧ t.fld tile NVS.EVENTS.KEY_FAIL = 1)

/-- R399: a request whose SLOT_GEN is not the slot's generation when it executes completes with STALE, whatever it asks, does nothing and
uses no counter value. -/
def Obligations.StaleKeyRequests : Prop :=
  ∀ (sub : Nat) (q : KseReq) (s : State) (i : Instr) (op : Nat), sub < 4 → (i, op) ∈ [(.enc sub q, 1), (.dec sub q, 2), (.ctr sub q, 3)] →
    s.fld 0 (kseFree sub) ≠ 0 → kseWellFormed { q with op := op } → (s.slot q.slot).valid → (s.slot q.slot).gen ≠ q.slotGen →
    ∃ t, exec i s = .next t ∧ SameData s t ∧ t.fld 0 KSE.EVENTS.STALE = 1 ∧
      t.out = .kse sub q.tag KStatus.stale.code (if q.flags.testBit 1 then (s.slot (q.dst % 64)).gen else (s.slot q.slot).gen) 0 0 :: s.out

/-- The seeds in the OTP row leave the device through no register read and no OTP_READ: two states that differ only in the bytes of SEED_DEVICE and
SEED_FACTORY answer alike. -/
def Obligations.SeedsStayInside : Prop :=
  ∀ (s s' : State) (otp : List Host.Cell), s' = { s with otp := otp } →
    (∀ copy a : Nat, copy < 2 → a < 4096 → ¬(0x80 ≤ a ∧ a < 0x100) → s'.otpByte copy a = s.otpByte copy a) →
    (∀ t blk off : Nat, off % 4 = 0 → (s'.readReg t blk off).1 = (s.readReg t blk off).1) ∧
    (∀ (c : Caller) (pl : List Byte), (cmdOtpRead.run c pl s').payload = (cmdOtpRead.run c pl s).payload)

/-! ### Events, time and the two-wire bus -/

/-- RECORD_COMMIT: the record at the head of tile 0's queue takes the next SEQ and stands in the ring slot of that SEQ; no other byte changes but those of
the sector that the record opens. -/
def Obligations.RecordCommitted : Prop :=
  ∀ (s : State) (r : EvRec) (q : List EvRec) (seq : Nat), s.ringScanned → s.recd.queue = r :: q → seq = (s.fld 0 EVR.WSEQ.SEQ + 1) % 2 ^ 32 →
    ∃ t, exec .recordCommit s = .next t ∧ t.fld 0 EVR.WSEQ.SEQ = seq ∧ t.bytes .nvs 0 (ringAddr seq) 32 = r.toBytes seq ∧
      (∀ (sp : Space) (u a : Nat), u < 256 → a < 2 ^ 60 →
        ¬(sp = .nvs ∧ u = 0 ∧ ringAddr seq ≤ a ∧ a < ringAddr seq + (if seq % 64 = 0 then 2048 else 32)) → t.byte sp u a = s.byte sp u a)

/-- An event that matches the open record is counted in it, up to 65,535, and nothing else is queued; with tile 0's queue full an event that does not match is
dropped and counted. -/
def Obligations.EventsCoalesceOrCount : Prop :=
  ∀ (tile : Nat) (e : EvRec) (s : State), tile < s.tiles → s.recd.tileQ.find? (fun x => x.1 == tile) = some (tile, e) → s.recd.lost = 0 →
    (∀ o, s.recd.openRec = some o → o.matches e (s.fld 0 EVR.CTRL.WINDOW_MS) →
      ∃ t, exec (.eventArrival tile) s = .next t ∧ t.recd.openRec = some { o with rep := min 65535 (o.rep + 1) } ∧
        t.recd.queue = s.recd.queue ∧ t.recd.tileQ = s.recd.tileQ.erase (tile, e)) ∧
    ((∀ o, s.recd.openRec = some o → o.matches e (s.fld 0 EVR.CTRL.WINDOW_MS) = false) → 4096 ≤ s.recd.queue.length →
      ∃ t, exec (.eventArrival tile) s = .next t ∧ t.recd.openRec = s.recd.openRec ∧ t.recd.queue = s.recd.queue ∧ t.recd.lost = 1 ∧
        t.fld 0 EVR.EVENTS.LOST = 1)

/-- A Block Write whose PEC, length or byte count is wrong is discarded: counted, and the message in assembly goes on undisturbed. -/
def Obligations.BadBlockWriteDiscarded : Prop :=
  ∀ (bytes : List Byte) (kHz : Nat) (s : State), s.twbAwake → s.dstate ≠ .s1 → s.pow.target = 0 → ¬(s.twb.nackUntilBoot) → s.twb.held = none →
    ¬(s.blockOk bytes) →
    ∃ t, exec (.blockWrite 0x0f bytes kHz) s = .next t ∧ SameData s t ∧ t.twb = (s.addressedAt kHz).twb ∧ t.mb = s.mb ∧
      t.fld 0 TWB.EVENTS.PEC_FAIL = 1 ∧
      t.fld 0 TWB.PEC_ERR.COUNT = min (s.fld 0 TWB.PEC_ERR.COUNT + 1) (2 ^ TWB.PEC_ERR.COUNT.w - 1)

/-! ### Network, capsules, regions -/

/-- R214: the number a REQ on port p of tile t is given holds tile, port and context index, is not 0 or 1, and no QP of the package has it; a
REQ is refused with status 3 when the tile or the package holds all the QPs it may. -/
def Obligations.QpNumbers : Prop :=
  (∀ (s : State) (t port : Nat), port < 2 → s.net.qps.length + 2 < 2 ^ 20 →
    qpTile (s.freeQpn t port) = t ∧ qpPort (s.freeQpn t port) = port ∧ 2 ≤ s.freeQpn t port ∧ s.freeQpn t port ∉ s.net.qps.map (·.qpn)) ∧
  (∀ (r : ConnectReq) (s : State), blockGood r.priv → (natAt r.priv 3 1 == 0) = r.service →
    s.fld r.tile RMA.QP_LIMIT.LIMIT ≤ (s.tileQps r.tile).length ∨ 1048576 ≤ s.connected → s.refusal r = 3) ∧
  (∀ (r : ConnectReq) (n spsn now : Nat), (newQp r n spsn now).lport = r.lport ∧ (newQp r n spsn now).qpn = n)

/-- A QP in CONNECTING for 100 ms without RTU, or refused by the host, is released: its context is FREE, every other QP and all memory is as before. -/
def Obligations.ConnectTimeoutFrees : Prop :=
  ∀ (qpn : Nat) (rej : Bool) (s : State) (q : Qp), s.qp qpn = some q → q.st = 1 → rej = true ∨ q.opened + 100000 ≤ s.now →
    ∃ t, exec (.connectTimeout qpn rej) s = .next t ∧ t.qp qpn = none ∧ (∀ m, m ≠ qpn → t.qp m = s.qp m) ∧ t.mem = s.mem ∧
      t.ams = s.ams ∧ t.firn = s.firn

/-- The layout of a region's key (Table 9.2), and the check of a key: the region of that number answers only to its present key. -/
def Obligations.RegionKeys : Prop :=
  (∀ r : Region, r.num < 2 ^ 16 → r.key < 2 ^ 32 ∧ r.key >>> 24 = r.gen % 256 ∧ (r.key >>> 16) % 256 = r.tag % 256 ∧ r.key % 2 ^ 16 = r.num) ∧
  (∀ (s : State) (r : Region) (key a n right : Nat), r.num < 2 ^ 16 → s.regionNum (key % 65536) = some r → r.num = key % 65536 →
    (∃ x, s.checkKey key a n right = .ok x) → key / 2 ^ 24 = r.gen % 256 ∧ key / 2 ^ 16 % 256 = r.tag % 256)

/-- A count C has reached V when (C − V) mod 2^32 lies between 0 and 2^31 − 1. -/
def Obligations.CountHasReached : Prop :=
  ∀ c v : Nat, c < 2 ^ 32 → v < 2 ^ 32 → (hasReached c v = true ↔ ∃ d, d < 2 ^ 31 ∧ (v + d) % 2 ^ 32 = c)

/-- While the peer pauses a priority, what would leave at it waits and nothing is dropped; the watchdog of a lossless priority records the pause and goes on obeying it. -/
def Obligations.PausesAreObeyed : Prop :=
  (∀ (tile port prio : Nat) (o : Out) (s : State), (s.fld tile (ETH.STATUS.TX_PAUSED.inst port)).testBit prio = true →
    s.xmit tile port prio o = s.updNet (fun x => { x with txq := x.txq ++ [(prioKey tile port prio, o)] })) ∧
  (∀ (tile port prio since : Nat) (s : State), tile < s.tiles → port < 2 → amapFind (prioKey tile port (prio % 8)) s.net.pausedAt = some since →
    (s.fld tile (ETH.PFC.LOSSLESS.inst port)).testBit (prio % 8) = true → since + s.fld tile (ETH.PFC.WATCHDOG_MS.inst port) * 1000 < s.now →
    ∃ t, exec (.pfcWatchdog tile port prio) s = .next t ∧ t.fld tile (ETH.EVENTS.PFC_WATCHDOG.inst port) = 1 ∧ t.net = s.net ∧ t.out = s.out ∧
      t.fld tile (ETH.STATUS.TX_PAUSED.inst port) = s.fld tile (ETH.STATUS.TX_PAUSED.inst port) ∧ t.mem = s.mem)

/-! ### Power, Freeze, twin -/

/-- VAON lost: the device is OFF, its sessions, QPs and keys in use are gone, main and near tier read as zero, and what is nonvolatile stands: fuses, the
store with its records but for the word that a PROGRAM in progress was writing, and what the deep tier holds. -/
def Obligations.PowerLossKeepsNonvolatile : Prop :=
  ∀ s : State, s.dstate ≠ .off →
    ∃ t, exec .vaonLost s = .next t ∧ t.dstate = .off ∧ t.mb.sessions = [] ∧ t.net.qps = [] ∧ t.kse = State.reset.kse ∧
      t.otp = s.otp ∧ t.nv = s.nv ∧ t.firn.deep = s.firn.deep ∧ t.firn.dumps = s.firn.dumps ∧ t.deep.flash = s.deep.flash ∧
      t.deep.bad = s.deep.bad ∧
      (∀ tile a : Nat, tile < 256 → a < 2 ^ 60 → t.byte .main tile a = 0 ∧ t.byte .near tile a = 0 ∧
        ((∀ u o, (s.array u).busy = some o → o.op = 1 →
            ¬(memKey .nvs u (o.addr / 8 * 8) ≤ memKey .nvs tile a ∧ memKey .nvs tile a < memKey .nvs u (o.addr / 8 * 8 + 8))) →
          t.byte .nvs tile a = s.byte .nvs tile a))

/-- When MAINS_OK returns during Freeze, Freeze goes on on every tile and the return is kept for the report. -/
def Obligations.FreezeOutlastsMainsReturn : Prop :=
  ∀ s : State, s.dstate = .freeze →
    ∃ t, exec .mainsReturn s = .next t ∧ t.dstate = .freeze ∧ (∀ tile, t.frz tile = s.frz tile) ∧ t.pow.mains = true ∧
      t.frzRun = { s.frzRun with mainsBack := true } ∧ t.mem = s.mem ∧ t.firn = s.firn ∧ (∀ tile < s.tiles, t.fld tile AON.STATUS.MAINS = 1)

/-- When the lease of the twin arbiter has run out: TW_ACTO falls, DEPART is sent for its time and then the heartbeats stop, the event is set, and
no data changes. -/
def Obligations.LeaseExpires : Prop :=
  ∀ s : State, s.twin.leaseOk → s.boot.handedOver → s.pow.target = 0 → s.twin.leaseAt + s.fld 0 TWA.CTRL.LEASE * 50 ≤ s.now →
    ∃ t, exec .leaseExpired s = .next t ∧ t.fld 0 TWA.STATUS.ACTO = 0 ∧ t.fld 0 TWA.STATUS.ACTO_PAD = 0 ∧ t.twin.leaseOk = false ∧
      s.now < t.twin.departUntil ∧ t.twin.silent = true ∧ t.fld 0 TWA.EVENTS.LEASE_EXPIRED = 1 ∧
      ({ t with now := t.twin.departUntil }).heartBeats = false ∧
      t.mem = s.mem ∧ t.ams = s.ams ∧ t.net = s.net ∧ t.firn = s.firn

/-- CEILING_SET takes a nonzero multiple of N × 64 MiB up to N × 12 GiB and nothing else; each tile's configured ceiling is then its N-th part, in units of
64 MiB. -/
def Obligations.CeilingSet : Prop :=
  (∀ (s : State) (m : Nat), m < 2 ^ 32 →
    (cmdCeilingSet.check s (build339 [(4, m)]) = true ↔ m ≠ 0 ∧ m % (s.tiles * 64) = 0 ∧ m ≤ s.tiles * 12288)) ∧
  (∀ (s : State) (c : Caller) (m tile : Nat), s.tiles ≤ 8 → tile < s.tiles → m < 2 ^ 32 → m ≠ 0 → m % (s.tiles * 64) = 0 → m ≤ s.tiles * 12288 →
    (cmdCeilingSet.run c (build339 [(4, m)]) s).s.fld tile FRN.CEIL.CONFIGURED * 64 = m / s.tiles)

/-- A read of a page whose born bit is 0 makes no access to the page and no check: nothing of it is asked, corrected, logged or counted. Where its extent
born bit is 0, or its frame's born-map burst is on chip, nothing changes at all; else that burst alone is fetched. -/
def Obligations.UnbornReadsTouchNoDram : Prop :=
  ∀ (tile addr f : Nat) (err : List (Nat × Nat)) (s : State), tile < s.tiles → f = addr / 2 ^ 21 → s.reservedFrames tile ≤ f → addr < s.mainBytes →
    (¬(s.dec.ext.contains (tile, f)) → exec (.decRead tile addr err false false false) s = .next s) ∧
    (s.dec.ext.contains (tile, f) → ¬(s.bornLocal tile (addr / 4096)) →
      (s.dec.bornCache.contains (tile, f) → exec (.decRead tile addr err false false false) s = .next s) ∧
      (¬(s.dec.bornCache.contains (tile, f)) → ¬(s.dec.bornBad.contains (tile, f, 0)) →
        exec (.decRead tile addr err false false false) s = .next ((s.askDram tile (s.bornAt tile f 0) false).cacheBorn tile f)))

/-- A capsule with FENCE does not start while an operation of lower position on its QP has not completed: a write or read short of its class
or its responses, a capsule waiting or still executing, a completion record still to be sent. It holds back no capsule but its own: the first one behind it that
may start does. -/
def Obligations.FenceHoldsBack : Prop :=
  ∀ (qpn : Nat) (s : State) (q : Qp) (c : QCapsule) (cs : List QCapsule), s.qp qpn = some q → q.caps = c :: cs → capFence c.bytes →
    (∃ r ∈ q.reqs, psnBefore r.psn c.psn ∧ r.kind < 2 ∧ ¬r.reached) ∨ (∃ d ∈ q.caps, psnBefore d.psn c.psn) ∨
      (∃ e ∈ s.net.execs, e.src.earlier q.qpn c.psn) ∨ q.cplQ ≠ [] →
    (cs = [] → exec (.capsuleStart qpn) s = .next s) ∧
    (∀ d, cs.find? (s.mayStart q) = some d → exec (.capsuleStart qpn) s = .next (s.startCapsule q d))

/-- An index edge less than 2 ms after the last accepted one is ignored and noted, and a strobe edge reaches a stream by its state:
none but RUNNING takes it; SKIP is decremented and nothing is sent; while a frame is still being sent the edge is counted as early. -/
def Obligations.StrobesAndIndexPulses : Prop :=
  (∀ (tile a : Nat) (s : State), tile < s.tiles → (s.ftile tile).idxAt = some a → s.now < a + 2000 →
    ∃ t, exec (.indexPulse tile) s = .next t ∧ SameData s t ∧ t.fld tile FED.EVENTS.IDX_FAST = 1) ∧
  (∀ (tile stb n : Nat) (s : State) (x : FStream), tile < s.tiles → stb < 2 → s.strobed tile stb = [n] → s.fstream n = some x →
    ∃ t, exec (.strobeEdge tile stb) s = .next t ∧
      (x.st ≠ 4 → t.fstream n = some x ∧ t.out = s.out ∧ t.regs = s.regs) ∧
      (x.st = 4 → x.skip ≠ 0 → t.fstream n = some { x with skip := x.skip - 1 } ∧ t.out = s.out ∧ t.regs = s.regs) ∧
      (x.st = 4 → x.skip = 0 → x.out.isSome → t.fstream n = some { x with early := x.early + 1 } ∧ t.out = s.out ∧
        t.fld (feedTileOf n) FED.EVENTS.STROBE_EARLY = 1 ∧
        t.fld (feedTileOf n) FED.STROBE_EARLY.COUNT = min (s.fld (feedTileOf n) FED.STROBE_EARLY.COUNT + 1) (2 ^ FED.STROBE_EARLY.COUNT.w - 1)))

/-- The twin signal line (R282, R499): 33 periods whose lengths and high times lie in the windows of Table 20.12 carry the word that was sent, so what one unit
drives the other reads; a period outside every window makes the word invalid, whatever the word's CRC, and nothing but the error count changes. -/
def Obligations.HeartbeatLineDecodes : Prop :=
  (∀ (w : Nat) (p0 : Nat × Nat) (l : List (Nat × Nat)), w < 2 ^ 32 → l.length = 32 → (∀ p ∈ p0 :: l, 900 ≤ p.1 ∧ p.1 ≤ 1100) →
    400 ≤ p0.2 ∧ p0.2 ≤ 600 →
    (∀ i p, l[i]? = some p → if w.testBit (31 - i) then 650 ≤ p.2 ∧ p.2 ≤ 850 else 150 ≤ p.2 ∧ p.2 ≤ 350) → hbDecode (p0 :: l) = some w) ∧
  (∀ w < 2 ^ 32, hbDecode (hbEncode w) = some w) ∧
  (∀ (l : List (Nat × Nat)) (p : Nat × Nat) (pad : Bool) (s : State), s.dstate ∉ [.off, .aonOnly, .s3] → p ∈ l →
    p.1 < 900 ∨ 1100 < p.1 ∨ p.2 < 150 ∨ (350 < p.2 ∧ p.2 < 400) ∨ (600 < p.2 ∧ p.2 < 650) ∨ 850 < p.2 →
    exec (.heartbeatWord l pad) s = .next (s.bump 0 TWA.HB_CRC_ERR.COUNT 1))

/-! ### Where each remaining row completes, and with which next state

Each clause names the row and its rule; its next state is stated whole, so that it is the row's frame as well. -/

/-- The rows of power and its pins complete, each with the next state stated: VAON_APPLIED, VAON_LOST, VAON_LOW, MAINS_OK_HIGH,
MAINS_OK_LOW, HU_TRIP, HU_EMERG, TRIP_ARM, TCRIT, FREEZE_NET, RAIL_FAULT, PHASE_FAULT, PHASE_SHED_LOAD, XTAL_FAIL, XTAL_OK, WAKE_N,
WAKE_TIMER, WAKE, SLEEP_ABORTED, THERMAL_CHECK, WDOG_EXPIRY. -/
def Obligations.PowerRowsComplete : Prop :=
  -- VAON_APPLIED (R342)
  (∀ (pref : Bool) (adr : Nat) (s : State), s.dstate = .off →
    ∀ s1, s1 = { s with
      regs := []
      pow := { State.reset.pow with mains := s.pow.mains, twPref := pref, twbAdr := adr % 8, vaon := true, vaonAt := s.now, railsOffAt := s.now }
      boot := { s.boot with cause := 1 }
      frzRun := { s.frzRun with resetSource := 1 } } →
    exec (.vaonApplied pref adr) s =
      .next ((((s1.setF 0 MGT.STATE.DSTATE 0).setF 0 AON.STATUS.MAINS (b2n s.pow.mains)).setF 0 TWA.STATUS.ACTI
        (s.fld 0 TWA.STATUS.ACTI)).toState .aonOnly)) ∧
  -- VAON_LOST (R342)
  (∀ (s : State), s.dstate ≠ .off →
    exec .vaonLost s =
      .next ({ s.loseVolatile with
        regs := []
        twb := State.reset.twb
        pow := { s.pow with vaon := false, huTload := false, target := 0, entryStep := 0 } }.setF 0 MGT.STATE.DSTATE 0 |>.setF 0
          TWA.STATUS.ACTI (s.fld 0 TWA.STATUS.ACTI))) ∧
  -- VAON_LOW (R383)
  (∀ (s : State), exec .vaonLow s =
      .next ({ s.evRec 0 AON.EVENTS.VAON_LOW 0 with recd := { (s.evRec 0 AON.EVENTS.VAON_LOW 0).recd with coarse := true } })) ∧
  -- MAINS_OK_HIGH (R342)
  (∀ (s : State), exec .mainsOkHigh s = .next (s.mainsUp.coldBoot)) ∧
  -- MAINS_OK_LOW (R382)
  (∀ (tile : Nat) (s : State), tile < s.tiles → exec (.mainsOkLow tile) s =
      .next (({ s with pow := { s.pow with mains := false } }.setF tile AON.STATUS.MAINS 0).ev tile AON.EVENTS.MAINS_LOW |>.freezeTrigger
        tile 1)) ∧
  -- HU_TRIP (R382)
  (∀ (tile : Nat) (s : State), tile < s.tiles → (s.setF tile AON.STATUS.ABOVE_TRIP 0).flag tile AON.STATUS.ARMED →
    exec (.huTrip tile) s = .next (((s.setF tile AON.STATUS.ABOVE_TRIP 0).ev tile AON.EVENTS.HU_TRIP).freezeTrigger tile 2)) ∧
  -- HU_EMERG (R189)
  (∀ (tile : Nat) (s : State), tile < s.tiles → ∀ s1, s1 = (s.setF tile AON.STATUS.ABOVE_EMERG 0).ev tile AON.EVENTS.HU_EMERG →
    s1.frz tile ∈ [.stopping, .draining, .dumping, .sealing] →
    exec (.huEmerg tile) s = .next ((s1.ev tile FRZ.EVENTS.COLLAPSE).setF tile FRZ.STATUS.STATE FState.collapsed.code)) ∧
  -- TRIP_ARM (R382)
  (∀ (tile : Nat) (s : State), tile < s.tiles → s.dstate ∉ [.off, .aonOnly, .s3] →
    exec (.tripArm tile) s =
      .next ((s.setFs tile [(AON.STATUS.ARMED, 1), (AON.STATUS.ABOVE_TRIP, 1), (AON.STATUS.ABOVE_EMERG, 1)]).noteUrgent tile)) ∧
  -- TCRIT (R383)
  (∀ (tile : Nat) (s : State), tile < s.tiles → exec (.tcrit tile) s =
      .next ((s.ev tile AON.EVENTS.TCRIT).freezeTrigger tile 3)) ∧
  -- FREEZE_NET (R14)
  (∀ (tile : Nat) (s : State), tile < s.tiles → (s.pow.freezeNet && s.dstate == .freeze) → (s.frz tile == .armed || s.frz tile ==
    .notArmed) → exec (.freezeNet tile) s =
      .next (s.freezeTile tile 3)) ∧
  -- RAIL_FAULT (R380)
  (∀ (rail : Nat) (s : State), rail < 4 →
    exec (.railFault rail) s =
      .next (((s.setF 0 PWC.STATUS.PG (setBit (s.fld 0 PWC.STATUS.PG) rail false)).ev 0 PWC.EVENTS.RAIL_FAULT).freezeTrigger 0 3)) ∧
  -- PHASE_FAULT (R380)
  (∀ (stage : Nat) (s : State), stage < 24 →
    ∀ s1, s1 = { s with pow := { s.pow with shed := s.pow.shed.erase stage ++ [stage] } } →
    exec (.phaseFault stage false) s =
      .next ((s1.setF 0 PWC.PHASES.ON (setBit (s1.fld 0 PWC.PHASES.ON) stage false)).evRec 0 PWC.EVENTS.PHASE_FAULT stage)) ∧
  -- PHASE_SHED_LOAD (R380)
  (∀ (stage : Nat) (s : State), stage < 24 → ¬(s.pow.shed.contains stage) →
    exec (.phaseShedLoad stage true) s = .next (s.setF 0 PWC.PHASES.ON (setBit (s.fld 0 PWC.PHASES.ON) stage true))) ∧
  -- XTAL_FAIL (R384)
  (∀ (s : State), exec .xtalFail s =
    .next ((s.setF 0 AON.STATUS.XTAL_OK 0).ev 0 AON.EVENTS.XTAL_FAIL)) ∧
  -- XTAL_OK (R384)
  (∀ (s : State), exec .xtalOk s = .next (s.setF 0 AON.STATUS.XTAL_OK 1)) ∧
  -- WAKE_N (R388)
  (∀ (s : State), exec (.wakeN true) s =
      .next ({ s with pow := { s.pow with wakeLow := true } }.setF 0 AON.STATUS.WAKE_PIN 1 |>.wakeUp 3)) ∧
  (∀ (s : State), exec (.wakeN false) s =
      .next ({ s with pow := { s.pow with wakeLow := false } }.setF 0 AON.STATUS.WAKE_PIN 0)) ∧
  -- WAKE_TIMER (R388)
  (∀ (s : State), (s.flag 0 AON.WAKE_AT_HI.EN && decide (s.fld 0 AON.WAKE_AT_LO.TICKS + s.fld 0 AON.WAKE_AT_HI.TICKS * 2 ^ 32 ≤ s.etc)) →
    exec .wakeTimer s =
      .next ((s.setF 0 AON.WAKE_AT_HI.EN 0).wakeUp 4)) ∧
  -- WAKE (R389)
  (∀ (s : State), s.dstate = .s1 → exec .wake s = .next (s.wakeUp 1)) ∧
  (∀ (s : State), s.dstate = .s2 ∨ s.dstate = .s3 → exec .wake s = .next (s.wakeUp 3)) ∧
  -- SLEEP_ABORTED (R390)
  (∀ (s : State), exec .sleepAborted s = .next (s.abortSleep)) ∧
  -- THERMAL_CHECK (R392)
  (∀ (temps : List Nat) (s : State), ∀ s0, s0 = s.allTiles (fun t a => a.setF t BST.MON.TEMP (temps.getD t 0)) →
    s0.dstate = .service → s0.pow.target = 0 → ∀ ts hot, ts = (List.range s0.tiles).map (fun t => signed16 (temps.getD t 0)) →
    hot = ts.foldl max (ts.headD 0) → hot < (s0.fld 0 PWC.THERM.WARN : Int) * 10 → (s0.throttleNext hot).1 = 0 →
    exec (.thermalCheck temps) s =
      .next ({ s0 with pow := { s0.pow with coolSince := (s0.throttleNext hot).2 } }.setThrottle 0)) ∧
  -- WDOG_EXPIRY (R376)
  (∀ (s : State), (decide (s.boot.wdog + s.wdogPeriod ≤ s.now) && s.dstate != .off && s.dstate != .aonOnly && s.dstate != .s3 && s.dstate
    != .s2 && !s.boot.romService) → exec .wdogExpiry s =
      .next (s.resetVia 5))

/-- The rows of Freeze, restore and sleep complete, each with the next state stated: FREEZE_TRIGGER, SECOND_TRIGGER, MAINS_RETURN,
DRAIN_WINDOW_END, DUMP_COMPLETE, SEAL_VERIFIED, RAILS_REMOVED, COLD_BOOT, FAULT_ENTRY, LINK_RETIRED, RESTORE, BG_RESTORE_PAGE,
SLEEP_CLEAN_TIMEOUT. -/
def Obligations.FreezeRowsComplete : Prop :=
  -- FREEZE_TRIGGER (R188)
  (∀ (tile source : Nat) (s : State), tile < s.tiles → source ∈ [1, 2, 3] →
    exec (.freezeTrigger tile source) s = .next (s.freezeTrigger tile source)) ∧
  (∀ (tile : Nat) (s : State), tile < s.tiles → s.dstate = .service →
    exec (.freezeTrigger tile 4) s =
      .next ((s.freezeTrigger 0 4).allTiles (fun t b => if b.frz t == .armed || b.frz t == .notArmed then b.freezeTile t 4 else b))) ∧
  (∀ (tile : Nat) (s : State), tile < s.tiles → exec (.freezeTrigger tile 5) s = .next (s.resetVia 4)) ∧
  (∀ (tile : Nat) (s : State), tile < s.tiles → exec (.freezeTrigger tile 6) s = .next (s.resetVia 5)) ∧
  -- SECOND_TRIGGER (R188)
  (∀ (tile : Nat) (s : State), tile < s.tiles → (s.dstate == .freeze && s.frz tile != .armed && s.frz tile != .notArmed) → exec
    (.secondTrigger tile) s =
      .next (s.ev tile FRZ.EVENTS.SECOND_TRIGGER)) ∧
  -- MAINS_RETURN (R192)
  (∀ (s : State), exec .mainsReturn s = .next (s.mainsUp)) ∧
  -- DRAIN_WINDOW_END (R189)
  (∀ (tile : Nat) (s : State), tile < s.tiles → (s.frz tile == .draining) → exec (.drainWindowEnd tile) s =
      .next (s.drainEnd tile)) ∧
  -- DUMP_COMPLETE (R189)
  (∀ (tile : Nat) (s : State), tile < s.tiles → (s.frz tile == .dumping) → exec (.dumpComplete tile) s =
      .next (s.dumpComplete tile)) ∧
  -- SEAL_VERIFIED (R189)
  (∀ (tile : Nat) (s : State), tile < s.tiles → (s.frz tile == .sealing) → exec (.sealVerified tile) s = .next (s.sealDone tile)) ∧
  -- RAILS_REMOVED (R189)
  (∀ (s : State), s.dstate = .freeze → s.mayCut → ∀ s1, s1 = s.allTiles (fun t a => a.endUnsealed t) →
    exec .railsRemoved s =
      .next { s1 with
        nv := { s1.nv with frzSeq := (s1.nv.frzSeq + 1) % 2 ^ 32 }
        frzRun := { s1.frzRun with
          pendingReport := true
          resetSource := if s1.frzRun.resetSource = 0 && s1.pow.mains then 3 else s1.frzRun.resetSource } }.railsOff) ∧
  -- COLD_BOOT (R192)
  (∀ (s : State), exec .coldBoot s = .next (s.coldBoot)) ∧
  -- FAULT_ENTRY (R22)
  (∀ (tile cause : Nat) (s : State), tile < s.tiles → (8 ≤ cause && cause < 16) → exec (.faultEntry tile cause) s =
      .next ((if cause = 9 then { s with boot := { s.boot with lost := s.boot.lost.filter (fun t => t != tile) ++ [tile] } } else
        s).enterFault cause)) ∧
  -- LINK_RETIRED (R18)
  (∀ (tile peer : Nat) (s : State), tile < s.tiles → s.hopLinks tile peer ≠ 0 →
    ∀ s1, s1 = (s.updFeed (fun f => { f with
      hops := amapSet 0 (amapSet 0 f.hops (tile * 8 + peer) (amapGet 0 f.hops (tile * 8 + peer) + 1)) (peer * 8 + tile)
        (amapGet 0 (amapSet 0 f.hops (tile * 8 + peer) (amapGet 0 f.hops (tile * 8 + peer) + 1)) (peer * 8 + tile) + 1) })).recOpen
      tile 0x01 peer → ¬(s1.meshWhole) →
    exec (.linkRetired tile peer) s = .next (s1.enterFault 8)) ∧
  -- RESTORE (R196)
  (∀ (tile : Nat) (lost : List Nat) (s : State), tile < s.tiles → s.dstate = .restore → ¬(s.boot.restored.contains tile) →
    ¬(s.deep.rebuilding.contains tile) → ¬(s.deep.rootBad.contains tile) → s.newestDump tile = none →
    exec (.restore tile true true lost) s = .next (s.restoreTile tile lost)) ∧
  -- BG_RESTORE_PAGE (R197)
  (∀ (tile : Nat) (hard : Bool) (iters retry : Nat) (soft parity : Bool) (s : State), tile < s.tiles → s.dstate = .service →
    ¬(s.pow.ranksAway.contains tile) → s.flag tile BCX.STATUS.XTS_KEY → ∀ p, s.restoreNext tile = some p → s.fld 0 PWC.THERM.LEVEL = 0 →
    ∀ h, s.homeOf (p / 512) = some h → ∀ c, bestOf (s.imagesOf p) = some c →
    exec (.bgRestorePage tile hard iters retry soft parity) s = .next (s.restoreImage tile p h c ⟨hard, iters, retry, soft, parity⟩)) ∧
  (∀ (tile : Nat) (hard : Bool) (iters retry : Nat) (soft parity : Bool) (s : State), tile < s.tiles → s.dstate = .service →
    ¬(s.pow.ranksAway.contains tile) → s.flag tile BCX.STATUS.XTS_KEY → ∀ p, s.restoreNext tile = some p → s.fld 0 PWC.THERM.LEVEL = 0 →
    bestOf (s.imagesOf p) = none →
    exec (.bgRestorePage tile hard iters retry soft parity) s = .next ((s.lostPage tile p).pageBack tile p)) ∧
  -- SLEEP_CLEAN_TIMEOUT (R387)
  (∀ (s : State), (s.dstate == .service && s.pow.target == 2 && s.pow.entryStep == 3 && decide (s.pow.stepAt + s.fld 0 PWC.SLEEP.CLEAN_MS
    * 1000 ≤ s.now)) → exec .sleepCleanTimeout s =
      .next ({ s with pow := { s.pow with heldLate := true } }.sleepProceed))

/-- The rows of start-up and self-test complete, each with the next state stated: BOOT, BOOTROM_KEY_INIT, SELFTEST_SLICE, SLICE_RESULT,
SLICE_BUDGET_EXPIRY, BANK_MEASURE_START, BANK_WAIT_EXPIRY, BANK_MEASURE_END, RELEASE_TO_SERVICE, WDOG_KICK. -/
def Obligations.StartupRowsComplete : Prop :=
  -- BOOT (R361)
  (∀ (temps : List Nat) (s : State), s.dstate = .boot → ¬(s.boot.handedOver) → ¬(s.dieWait temps) →
    exec (.boot temps) s = .next (s.bootRom.serveHeld)) ∧
  -- BOOTROM_KEY_INIT (R366)
  (∀ (ok : Bool) (s : State), (s.boot.romService && ok) → exec (.bootromKeyInit ok) s =
      .next ({ (s.deriveStoreKeys.restoreRole 2).setF 0 KSE.STATUS.ENTROPY_OK 1 with boot := { s.boot with romKeys := true } })) ∧
  -- SELFTEST_SLICE (R369)
  (∀ (tile slice : Nat) (s : State), tile < s.tiles → exec (.selftestSlice tile slice) s = .next (s.startSlice tile slice)) ∧
  -- SLICE_RESULT (R369)
  (∀ (tile slice outcome detail : Nat) (s : State), tile < s.tiles → (s.boot.running.any (fun x => x.1 == tile && x.2.1 == slice)) →
    ¬(s.sliceLate tile) → exec (.sliceResult tile slice outcome detail) s =
      .next (s.endSlice tile slice (s.sliceOutcome tile slice outcome) detail false)) ∧
  -- SLICE_BUDGET_EXPIRY (R369)
  (∀ (tile : Nat) (s : State), tile < s.tiles → ∀ x, s.boot.running.find? (fun x => x.1 == tile) = some x → s.sliceLate tile →
    exec (.sliceBudgetExpiry tile) s = .next (s.endSlice tile x.2.1 2 0 true)) ∧
  -- BANK_MEASURE_START (R371)
  (∀ (hu v1 : Nat) (s : State), s.mayMeasure → s.boot.bankRunning = none → s.fld 0 AON.HU_THRESH.TRIP + 800 ≤ hu →
    ¬(s.bankWaitFrom.any (fun w => decide (w < s.now))) → exec (.bankMeasureStart hu v1) s =
      .next ({ s with pow := { s.pow with huTload := true }, boot := { s.boot with bankRunning := some (v1, s.now) } }.setFs 0
        [(BST.BANK_V.V1_MV, v1), (BST.BANK_V.V2_MV, v1 - s.fld 0 BST.BANK_CFG.DELTA * 10)])) ∧
  -- BANK_WAIT_EXPIRY (R371)
  (∀ (s : State), s.bankWaitFrom.any (fun w => decide (w + s.fld 0 BST.BANK_CFG.WAIT_S * 1000000 ≤ s.now)) → exec .bankWaitExpiry s =
      .next ((s.ev 0 BST.EVENTS.BANK_WAIT).bankDone 0)) ∧
  -- BANK_MEASURE_END (R371)
  (∀ (t : Nat) (s : State), s.boot.bankRunning.isSome → 10000 ≤ t → t ≤ 750000 → ∀ s1, s1 = s.setF 0 BST.BANK_T.US t →
    exec (.bankMeasureEnd t true) s =
      .next (s1.bankDone (cMeas t (s.fld 0 BST.BANK_CFG.RTEST_MOHM) (s.fld 0 BST.BANK_V.V1_MV) (s.fld 0 BST.BANK_V.V2_MV)))) ∧
  -- RELEASE_TO_SERVICE (R374)
  (∀ (s : State), s.mayRelease → ∀ s0, s0 = s.updTwin (fun x => { x with helloSince := s.now }) →
    (s0.restrictedCause → exec .releaseToService s = .next (s0.toState .restricted).afterRestore) ∧
    (¬(s0.restrictedCause) → exec .releaseToService s = .next s0.enterService.afterRestore.raiseActo)) ∧
  -- WDOG_KICK (R376)
  (∀ (s : State), exec .wdogKick s = .next (s.wdogKick))

/-- The rows of pairing, roles and takeover complete, each with the next state stated: PARTNER_LOST, PATH_LOST, RESYNC_SNAPSHOT,
RESYNC_COMPLETE, TAKEOVER, SERVICE_ANNOUNCE_REPEAT, COMEBACK_HOLDOFF, SWAP_TIMEOUT, ROLE_SETTLE. -/
def Obligations.TwinRoleRowsComplete : Prop :=
  -- PARTNER_LOST (R284)
  (∀ (s : State), (!s.twin.lost && decide (s.twin.lastWordAt + s.detectUs ≤ s.now) && s.everyTile (fun t => (s.twl t).lastHb.all (fun a =>
    decide (a + s.detectUs ≤ s.now)))) → exec .partnerLost s =
      .next (s.loseOn)) ∧
  -- PATH_LOST (R284)
  (∀ (s : State), s.tiles ≠ 0 → ¬(s.twin.lost) → ¬(s.twin.pathTold) → s.twin.lastWordAt + s.detectUs ≤ s.now →
    ¬(s.everyTile (fun t => (s.twl t).lastHb.all (fun a => decide (a + s.detectUs ≤ s.now)))) →
    exec .pathLost s =
      .next (((s.updTwin (fun x => { x with pathTold := true })).evRec 0 TWA.EVENTS.PATH_LOST (b2n false)).twinFault 1 (b2n false))) ∧
  -- RESYNC_SNAPSHOT (R291)
  (∀ (tile : Nat) (s : State), tile < s.tiles → s.role = .solo → s.twin.resync ≠ 0 → s.dstate = .service →
    ∀ e es, s.divergent tile = e :: es → ∀ u, u = e * 32 + lowBit (s.divWord e) → (s.probe (u * 65536) 65536).pagesReady (u * 65536) 65536 →
    exec (.resyncSnapshot tile) s = .next ((s.probe (u * 65536) 65536).sendSnapshot tile u)) ∧
  -- RESYNC_COMPLETE (R291)
  (∀ (s : State), (s.role == .solo && s.twin.resync != 0 && s.dstate == .service && s.partnerRole == .syncing && s.everyTile (fun t =>
    (s.divergent t).isEmpty && (s.twl t).unacked.isEmpty && (s.twl t).queue.isEmpty && s.linkReady t)) → exec .resyncComplete s =
      .next (((s.updTwin (fun x => { x with diverge := [] })).setRole .active 7).advanceEpoch)) ∧
  -- TAKEOVER (R287)
  (∀ (s : State), (s.mayTakeOver) → exec .takeover s = .next (s.takeOver s.twin.finalSeen)) ∧
  -- SERVICE_ANNOUNCE_REPEAT (R287)
  (∀ (s : State), (s.twin.announceLeft != 0 && s.serving) → exec .serviceAnnounceRepeat s =
      .next (s.announce.updTwin (fun x => { x with announceLeft := x.announceLeft - 1 }))) ∧
  -- COMEBACK_HOLDOFF (R292)
  (∀ (s : State), (s.role == .standby && s.pow.twPref && s.flag 0 TWA.CTRL.COMEBACK_EN && s.maySwap && decide (s.twin.standbySince + s.fld
    0 TWA.CTRL.HOLDOFF * 1000000 ≤ s.now)) → exec .comebackHoldoff s =
      .next (s.swapAsk)) ∧
  -- SWAP_TIMEOUT (R293)
  (∀ (s : State), 2 ≤ s.twin.swap → s.twin.swapAt + s.detectUs ≤ s.now → exec .swapTimeout s = .next (s.swapDone false)) ∧
  -- ROLE_SETTLE (R294)
  (∀ (s : State), (!s.twin.settled && (s.dstate == .service || s.dstate == .restricted)) → exec .roleSettle s =
      .next (s.settleRole))

/-- The rows of the twin link, its frames and the arbiter (first part) complete, each with the next state stated: HELLO_SEND, HELLO,
HBTX_WORD_SEND, HEARTBEAT_SEND, HEARTBEAT_WORD, HEARTBEAT, CREDIT_BOOKS_RESET, CREDIT, LEASE_KICK, LEASE_EXPIRED, TW_ACTI_CHANGE,
GUARD_EXPIRY, CONTENTION_BACKOFF. -/
def Obligations.TwinLinkRowsComplete : Prop :=
  -- HELLO_SEND (R271)
  (∀ (tile : Nat) (s : State), tile < s.tiles → (s.flag tile TWL.STATUS.LINK_UP && s.flag tile BCX.STATUS.TX_SA && !s.flag tile
    TWL.STATUS.PAIRED && s.inPair) → exec (.helloSend tile) s =
      .next (s.twinSend tile 0x01 0 0 s.helloBody)) ∧
  -- HELLO (R272)
  (∀ (tile : Nat) (frame : List Byte) (s : State), tile < s.tiles →
    ∀ s1, s1 = s.twinIn tile 0x01 frame helloOk (fun f a =>
      if tile = 0 then a.updTwin (fun x => { x with peer := some (peerOf f.body), left := false }) else a) →
    s1.flag tile TWL.STATUS.LINK_UP → s1.flag tile TWL.STATUS.SECURED →
    exec (.hello tile frame) s = .next (s1.updTwl tile (fun y => { y with helloTile := namedTile tile frame })).tryPair) ∧
  -- HBTX_WORD_SEND (R282)
  (∀ (s : State), s.heartBeats → ∀ s1, s1 = s.updTwin (fun x => { x with count := (x.count + 1) % 256 }) →
    exec .hbtxWordSend s = .next ((s1.updTwin (fun x => { x with wordSent := s1.heartWord })).send (.hbWord s1.heartWord))) ∧
  -- HEARTBEAT_SEND (R282)
  (∀ (tile : Nat) (s : State), tile < s.tiles → s.heartBeats → s.flag tile TWL.STATUS.LINK_UP → s.flag tile TWL.STATUS.SECURED →
    exec (.heartbeatSend tile) s =
      .next (s.twinSend tile 0x02 0 0 (leBytes 4 s.twin.wordSent ++ leBytes 4 0 ++
        leBytes 8 ((s.cfg (cfgKey tile MIR.BUF.KB)).getD 8192 * 4 + (s.twl tile).grantTx + (s.twl tile).owed) ++
        leBytes 8 (s.twl tile).usedRx))) ∧
  -- HEARTBEAT_WORD (R282)
  (∀ (periods : List (Nat × Nat)) (word : Nat) (pad : Bool) (s : State), s.dstate ∉ [.off, .aonOnly, .s3] → hbDecode periods = some word →
    wordCrc word = word % 256 → s.wordInOrder word →
    exec (.heartbeatWord periods pad) s =
      .next ((((s.setF 0 TWA.STATUS.ACTO_PAD (b2n pad)).updTwin (fun x => { x with lastWordAt := s.now })).checkInterlock word).hearWord 0 word)) ∧
  (∀ (periods : List (Nat × Nat)) (pad : Bool) (s : State), s.dstate ∉ [.off, .aonOnly, .s3] → hbDecode periods = none →
    exec (.heartbeatWord periods pad) s = .next (s.bump 0 TWA.HB_CRC_ERR.COUNT 1)) ∧
  -- HEARTBEAT (R297)
  (∀ (tile : Nat) (frame : List Byte) (s : State), tile < s.tiles →
    exec (.heartbeat tile frame) s =
      .next (s.twinIn tile 0x02 frame (fun b => b.length == 24 && natAt b 4 4 == 0) (fun f a =>
        if wordCrc (natAt f.body 0 4) = natAt f.body 0 4 % 256 then
          (((a.updTwl tile (fun y => { y with lastHb := some a.now })).checkBooks tile (natAt f.body 8 8) (natAt f.body 16 8)).hearWord tile
            (natAt f.body 0 4))
        else ((a.updTwl tile (fun y => { y with lastHb := some a.now })).checkBooks tile (natAt f.body 8 8) (natAt f.body 16 8)).bump tile
          TWA.HB_CRC_ERR.COUNT 1))) ∧
  -- CREDIT_BOOKS_RESET (R278)
  (∀ (tile : Nat) (s : State), tile < s.tiles → (s.twl tile).booksOff → (s.twl tile).unacked = [] →
    exec (.creditBooksReset tile) s =
      .next (((s.updTwl tile (fun y => { y with booksOff := false, grantRx := y.peerGrant, usedTx := y.peerUsed })).setF tile
        MIR.CREDIT_AVAIL.AVAILABLE (min 65536 ((s.twl tile).peerGrant - (s.twl tile).peerUsed))).pump tile)) ∧
  -- CREDIT (R278)
  (∀ (tile : Nat) (frame : List Byte) (s : State), tile < s.tiles → exec (.credit tile frame) s =
      .next (s.twinIn tile 0x12 frame (fun b => b.isEmpty) (fun _ a => a))) ∧
  -- LEASE_KICK (R283)
  (∀ (s : State), exec .leaseKick s = .next (s.leaseKick)) ∧
  -- LEASE_EXPIRED (R283)
  (∀ (s : State), (s.twin.leaseOk && s.boot.handedOver && s.pow.target == 0 && decide (s.twin.leaseAt + s.fld 0 TWA.CTRL.LEASE * 50 ≤
    s.now)) → exec .leaseExpired s =
      .next ((((s.driveActo false).depart true).updTwin (fun x => { x with leaseOk := false })).ev 0 TWA.EVENTS.LEASE_EXPIRED)) ∧
  -- TW_ACTI_CHANGE (R285)
  (∀ (s : State), s.flag 0 TWA.STATUS.ACTI = false →
    exec (.twActiChange true) s = .next ((s.setF 0 TWA.STATUS.ACTI 1).updTwin (fun x => { x with actiLowSince := none })).contend) ∧
  (∀ (s : State),
    exec (.twActiChange false) s =
      .next ((s.setF 0 TWA.STATUS.ACTI 0).updTwin (fun x => { x with actiLowSince := some (x.actiLowSince.getD s.now) }))) ∧
  -- GUARD_EXPIRY (R285)
  (∀ (s : State), exec .guardExpiry s = .next (s.raiseActo)) ∧
  -- CONTENTION_BACKOFF (R285)
  (∀ (s : State), (s.twin.backoffUntil != 0 && decide (s.twin.backoffUntil ≤ s.now)) → exec .contentionBackoff s =
      .next ((s.updTwin (fun x => { x with backoffUntil := 0 })).raiseActo))

/-- The rows of the twin link, its frames and the arbiter (second part) complete, each with the next state stated: INTERLOCK_FAULT,
TWIN_GATE_CHANGE, FETCH_REQ, FETCH_RESP, FETCH_TIMEOUT, MIRROR_RETRANSMIT, MIRROR_ACK, TWIN_LINK_DOWN, TWIN_LINK_UP, PN_NEAR, RX_NEW_KN,
MACSEC_VERIFY_FAIL, PAIR_KEY_TIMEOUT. -/
def Obligations.TwinFrameRowsComplete : Prop :=
  -- INTERLOCK_FAULT (R286)
  (∀ (s : State), ∀ t, s.twin.mismatchSince = some t → (t + 100 < s.now && !s.flag 0 TWA.STATUS.IFAULT) → exec .interlockFault s =
      .next (((s.setF 0 TWA.STATUS.IFAULT 1).evRec 0 TWA.EVENTS.IFAULT 0).twinFault 0 0)) ∧
  -- TWIN_GATE_CHANGE (R24)
  (∀ (s : State),
    exec .twinGateChange s = .next (s.allTiles (fun t a => a.gateTile t (s.flag 0 TWA.STATUS.ACTO && !s.flag 0 TWA.STATUS.ACTI)))) ∧
  -- FETCH_REQ (R281)
  (∀ (tile : Nat) (frame : List Byte) (s : State), tile < s.tiles →
    exec (.fetchReq tile frame) s =
      .next (s.twinIn tile 0x20 frame
        (fun b => b.length == 16 && natAt b 0 4 != 0 && natAt b 4 4 == 0 && natAt b 8 8 % 4096 == 0 && decide (natAt b 8 8 < 2 ^ 50))
        (fun f a => (a.updTwl tile (fun y => { y with fetchIn := y.fetchIn ++ [(natAt f.body 0 4, natAt f.body 8 8)] })).answerFetches tile))) ∧
  -- FETCH_RESP (R297)
  (∀ (tile : Nat) (frame : List Byte) (s : State), tile < s.tiles →
    exec (.fetchResp tile frame) s =
      .next (s.twinIn tile 0x21 frame fetchRespOk (fun f a =>
        match (a.twl tile).fetches.find? (fun x => x.id == natAt f.body 0 4) with
        | none => a.ev tile TWL.EVENTS.FRAME_BAD
        | some x =>
          if natAt f.body 4 1 = 0 then (a.endFetch tile x.id).fetchOk tile x.page (natAt f.body 0x10 4) (f.body.drop 32)
          else (a.endFetch tile x.id).fetchFailed tile x.page))) ∧
  -- FETCH_TIMEOUT (R297)
  (∀ (tile id : Nat) (s : State), tile < s.tiles → ∀ x, (s.twl tile).fetches.find? (fun x => x.id == id) = some x → (x.born + 1000 ≤
    s.now) → exec (.fetchTimeout tile id) s =
      .next ((s.endFetch tile id).fetchFailed tile x.page)) ∧
  -- MIRROR_RETRANSMIT (R277)
  (∀ (tile : Nat) (s : State), tile < s.tiles → ∀ f fs, (s.twl tile).unacked = f :: fs → s.linkReady tile → f.sentAt + 20 ≤ s.now →
    f.sends * 20 < s.detectUs →
    exec (.mirrorRetransmit tile) s =
      .next (((s.updTwl tile (fun y => { y with unacked := { f with sentAt := s.now, sends := f.sends + 1 } :: fs })).bump tile
        TWL.RETRANSMIT.COUNT 1).twinSend tile 0x10 0 f.seq f.body)) ∧
  -- MIRROR_ACK (R276)
  (∀ (tile : Nat) (frame : List Byte) (s : State), tile < s.tiles →
    exec (.mirrorAck tile frame) s =
      .next (s.twinIn tile 0x11 frame (fun b => b.isEmpty) (fun f a =>
        if f.flags = 1 then
          a.updNet (fun x => { x with execs := x.execs.map (fun e => { e with seqs := e.seqs.filter (fun q => q != (tile, f.seq)) }) })
        else a.ackStream tile f.seq))) ∧
  -- TWIN_LINK_DOWN (R290)
  (∀ (tile : Nat) (s : State), tile < s.tiles → (s.flag tile TWL.STATUS.LINK_UP) → exec (.twinLinkDown tile) s =
      .next (s.twlDown tile)) ∧
  -- TWIN_LINK_UP (R410)
  (∀ (tile : Nat) (s : State), tile < s.tiles → pointServed s.dstate 1 → s.inPair → ¬(s.heldDown tile 2) → s.role ∉ [.active, .standby] →
    ∀ s1, s1 = (s.updTwl tile (fun _ => { TwinTile.fresh tile with
        lastHb := (s.twl tile).lastHb, upAt := s.now, heard := false, rxPend := none })).setFs tile
      [(TWL.STATUS.LINK_UP, 1), (TWL.STATUS.SECURED, 0), (TWL.STATUS.PAIRED, 0), (BCX.STATUS.RX_SA, 0)] →
    (s1.slot 7).valid →
    exec (.twinLinkUp tile) s = .next (((s1.setF tile BCX.STATUS.TX_SA 1).advanceKn tile).kmOut tile)) ∧
  -- PN_NEAR (R410)
  (∀ (tile : Nat) (s : State), tile < s.tiles → s.flag tile TWL.STATUS.LINK_UP → 2 ^ 62 ≤ (s.twl tile).txPn → exec (.pnNear tile) s =
      .next (((s.ev tile TWL.EVENTS.PN_NEAR).advanceKn tile).kmOut tile)) ∧
  -- RX_NEW_KN (R411)
  (∀ (tile mac kn : Nat) (s : State), tile < s.tiles → s.flag tile TWL.STATUS.LINK_UP → (s.slot 7).valid →
    amapGet 0 s.nv.rxMac tile = mac → kn < amapGet 0 s.nv.rxKn tile →
    exec (.rxNewKn tile mac kn) s = .next ((s.bump tile TWL.RX_REPLAY.COUNT 1).ev tile TWL.EVENTS.REPLAY)) ∧
  (∀ (tile mac kn : Nat) (s : State), tile < s.tiles → s.flag tile TWL.STATUS.LINK_UP → (s.slot 7).valid → amapGet 0 s.nv.rxMac tile ≠ mac →
    exec (.rxNewKn tile mac kn) s =
      .next (((((s.loadLinkKey tile (kn % 65536) (mac % 2 ^ 48) 6).setF tile BCX.STATUS.RX_SA 1).updTwl tile (fun y =>
        { y with rxPend := some (mac % 2 ^ 48, kn % 65536) })).bump tile BCX.RX_EARLY.COUNT 1).ev tile BCX.EVENTS.RX_NEW_KN)) ∧
  -- MACSEC_VERIFY_FAIL (R269)
  (∀ (tile : Nat) (s : State), tile < s.tiles → s.flag tile TWL.STATUS.LINK_UP →
    exec (.macsecVerifyFail tile true) s = .next ((s.bump tile TWL.RX_REPLAY.COUNT 1).ev tile TWL.EVENTS.REPLAY)) ∧
  (∀ (tile : Nat) (s : State), tile < s.tiles → s.flag tile TWL.STATUS.LINK_UP →
    exec (.macsecVerifyFail tile false) s = .next ((s.bump tile TWL.RX_ICV_FAIL.COUNT 1).ev tile TWL.EVENTS.ICV_FAIL)) ∧
  -- PAIR_KEY_TIMEOUT (R411)
  (∀ (tile : Nat) (s : State), tile < s.tiles → (s.flag tile TWL.STATUS.LINK_UP && (s.slot 7).valid && !(s.twl tile).heard && decide
    ((s.twl tile).upAt + 100000 ≤ s.now)) → s.inPair → exec (.pairKeyTimeout tile) s =
      .next (s.refusePair 8))

/-- The rows of the items of the mirror stream complete, each with the next state stated: MIRROR, PORTION_RECORD, ATOMIC_RECORD,
SNAPSHOT_RECORD, QP_CTX_RECORD, CAPSULE_RECORD, COMPLETION_RECORD, START_RECORD, CHAIN_RECORD, COMMAND_RECORD, REVOKE_RECORD, ORDER_RECORD,
MOVE_RECORD, READY_RECORD, INDEX_MARK, EPOCH_RECORD, SWAP_RECORD, STATE_RECORD. -/
def Obligations.TwinItemRowsComplete : Prop :=
  -- MIRROR (R277)
  (∀ (tile : Nat) (frame : List Byte) (s : State), tile < s.tiles → exec (.mirror tile frame) s =
      .next (s.twinIn tile 0x10 frame (fun _ => true) (fun f a => a.mirrorIn tile f))) ∧
  -- PORTION_RECORD (R298)
  (∀ (tile : Nat) (s : State), tile < s.tiles → exec (.portionRecord tile) s =
      .next (s.mirrorStep tile 0x01 (fun b => natAt b 0 8) (fun b => bytesAt b 24 (natAt b 8 4)) (fun b => natAt b 12 1 == 1))) ∧
  -- ATOMIC_RECORD (R231)
  (∀ (tile : Nat) (s : State), tile < s.tiles → exec (.atomicRecord tile) s =
      .next (s.mirrorStep tile 0x02 (fun b => natAt b 0 8) (fun b => bytesAt b 16 8) (fun _ => false))) ∧
  -- SNAPSHOT_RECORD (R291)
  (∀ (tile : Nat) (s : State), tile < s.tiles → exec (.snapshotRecord tile) s =
      .next (s.onItem tile 0x10 (fun x a => a.takeSnapshot x.body))) ∧
  -- QP_CTX_RECORD (R298)
  (∀ (tile : Nat) (s : State), tile < s.tiles → exec (.qpCtxRecord tile) s =
      .next (s.onItem tile 0x03 (fun x a => a.following (fun z => z.takeCtx x.body)))) ∧
  -- CAPSULE_RECORD (R298)
  (∀ (tile : Nat) (s : State), tile < s.tiles →
    exec (.capsuleRecord tile) s =
      .next (s.onItem tile 0x04 (fun x a => a.following (fun z => z.updQp (natAt x.body 0 4) (fun q =>
        { q with caps := q.caps ++ [⟨natAt x.body 4 4 % 2 ^ 24, bytesAt x.body 8 64⟩] }))))) ∧
  -- COMPLETION_RECORD (R298)
  (∀ (tile : Nat) (s : State), tile < s.tiles → exec (.completionRecord tile) s =
      .next (s.onItem tile 0x05 (fun x a => a.following (fun z => z.takeCompletion x.body)))) ∧
  -- START_RECORD (R265)
  (∀ (tile : Nat) (s : State), tile < s.tiles → exec (.startRecord tile) s =
      .next (s.onItem tile 0x06 (fun x a => if natAt x.body 0 1 = 1 && a.stateDue then none else a.following (fun z => z.takeStart tile
        x.last x.body)))) ∧
  -- CHAIN_RECORD (R298)
  (∀ (tile : Nat) (s : State), tile < s.tiles → exec (.chainRecord tile) s =
      .next (s.onItem tile 0x07 (fun x a => if a.stateDue then none else a.following (fun z => z.takeChain x.body)))) ∧
  -- COMMAND_RECORD (R333)
  (∀ (s : State), exec .commandRecord s = .next (s.onItem 0 0x08 takeCommandItem)) ∧
  -- REVOKE_RECORD (R298)
  (∀ (s : State),
    exec .revokeRecord s =
      .next (s.onItem 0 0x09 (fun x a => a.following (fun z =>
        match z.regionNum (natAt x.body 0 2) with
        | some r => if natAt x.body 2 1 = 1 then z.takePhase1 r (natAt x.body 3 1) else z.takePhase2 r
        | none => z)))) ∧
  -- ORDER_RECORD (R298)
  (∀ (s : State), exec .orderRecord s =
      .next (s.onItem 0 0x0A (fun x a => a.following (fun z => z.takeOrder (natAt x.body 0 8) (natAt x.body 8 4) (natAt x.body 12 1))))) ∧
  -- MOVE_RECORD (R51)
  (∀ (tile : Nat) (s : State), tile < s.tiles → exec (.moveRecord tile) s = .next (s.onItem tile 0x0B (takeMoveItem tile))) ∧
  -- READY_RECORD (R51)
  (∀ (tile : Nat) (s : State), tile < s.tiles → exec (.readyRecord tile) s = .next (s.onItem tile 0x0C takeReadyItem)) ∧
  -- INDEX_MARK (R322)
  (∀ (tile : Nat) (s : State), tile < s.tiles → exec (.indexMark tile) s = .next (s.onItem tile 0x0D (takeMarkItem tile))) ∧
  -- EPOCH_RECORD (R274)
  (∀ (s : State), exec .epochRecord s = .next (s.onItem 0 0x0E (fun x a => a.following (fun z => z.setEpoch (natAt x.body 0 8))))) ∧
  -- SWAP_RECORD (R293)
  (∀ (s : State), exec .swapRecord s = .next (s.onItem 0 0x0F takeSwapItem)) ∧
  -- STATE_RECORD (R298)
  (∀ (tile : Nat) (s : State), tile < s.tiles → exec (.stateRecord tile) s = .next (s.onItem tile 0x11 (takeStateItem tile)))

/-- The rows of the nonvolatile store and the event record complete, each with the next state stated: PROGRAM, ERASE, BLANK_CHECK,
MARGIN_READ, SWAP, NVS_OPERATION_END, NVS_KEY_WRITE, NVS_UNLOCK_TIMEOUT, MARGIN_SCHEDULE, EVENT_ARRIVAL, OPEN_WINDOW_END, RECORD_COMMIT. -/
def Obligations.StoreRowsComplete : Prop :=
  -- PROGRAM (R420)
  (∀ (tile master addr data pulses : Nat) (s : State), tile < s.tiles →
    exec (.program tile master addr data pulses) s =
      .next (s.nvsStart tile master 1 addr (fun a =>
        (((a.setF tile NVS.DATA_LO.DATA data).setF tile NVS.DATA_HI.DATA (data / 2 ^ 32)).nvsProgram tile addr data pulses)))) ∧
  -- ERASE (R415)
  (∀ (tile master addr : Nat) (ok : Bool) (s : State), tile < s.tiles → ¬(s.dstate == .freeze) → exec (.erase tile master addr ok) s =
      .next (s.nvsStart tile master 2 addr (fun a => a.nvsErase tile addr ok))) ∧
  -- BLANK_CHECK (R419)
  (∀ (tile master addr : Nat) (s : State), tile < s.tiles →
    exec (.blankCheck tile master addr) s =
      .next (s.nvsStart tile master 3 addr (fun a =>
        (a, if (List.range 256).all (fun i => a.wordErased tile (sectorOf addr * 256 + i)) &&
          !(a.array tile).halfErased.contains (sectorOf addr) then 1 else 4)))) ∧
  -- MARGIN_READ (R425)
  (∀ (tile master addr : Nat) (differs : Bool) (s : State), tile < s.tiles → exec (.marginRead tile master addr differs) s =
      .next (s.nvsStart tile master 4 addr (fun a => if differs then (a.marginFound tile (sectorOf addr), 5) else (a, 1)))) ∧
  -- SWAP (R424)
  (∀ (tile master addr : Nat) (s : State), tile < s.tiles → ¬(s.dstate == .freeze) → exec (.swap tile master addr) s =
      .next (s.nvsStart tile master 5 addr (fun a => a.swapBegin tile addr))) ∧
  -- NVS_OPERATION_END (R421)
  (∀ (tile : Nat) (s : State), tile < s.tiles → ∀ o, (s.array tile).busy = some o →
    ∀ s1, s1 = (if o.op = 5 ∧ o.result = 1 then (s.nvsSwap tile o.addr).1 else s) → exec (.nvsOperationEnd tile) s =
      .next (((s1.updArray tile (fun a => { a with busy := none })).setF tile NVS.CMD.BUSY 0).setF tile NVS.CMD.RESULT o.result)) ∧
  -- NVS_KEY_WRITE (R419)
  (∀ (tile master value : Nat) (late : Bool) (s : State), tile < s.tiles → exec (.nvsKeyWrite tile master value late) s =
      .next (s.nvsKey tile master value late)) ∧
  -- NVS_UNLOCK_TIMEOUT (R419)
  (∀ (tile : Nat) (s : State), tile < s.tiles → ((s.array tile).step = 2) → exec (.nvsUnlockTimeout tile) s =
      .next (s.nvsKeyFail tile)) ∧
  -- MARGIN_SCHEDULE (R425)
  (∀ (tile : Nat) (differ : List Nat) (s : State), tile < s.tiles → (s.dstate == .service || s.dstate == .restricted) → exec
    (.marginSchedule tile differ) s =
      .next (differ.foldl (fun a n => a.marginFound tile n) s)) ∧
  -- EVENT_ARRIVAL (R438)
  (∀ (tile : Nat) (s : State), tile < s.tiles → exec (.eventArrival tile) s = .next (s.eventArrival tile)) ∧
  -- OPEN_WINDOW_END (R442)
  (∀ (s : State) (o : EvRec), s.recd.openRec = some o → o.ptime + s.fld 0 EVR.CTRL.WINDOW_MS * 1000 ≤ s.ptime →
    exec .openWindowEnd s = .next (s.commitOpen)) ∧
  -- RECORD_COMMIT (R441)
  (∀ (s : State), s.ringScanned → exec .recordCommit s = .next (s.commitHead.reportLost))

/-- The rows of the key engine complete, each with the next state stated: ENC, DEC, CTR, GENERATE, DRBG_RESEED, HEALTH_FAIL,
ENTROPY_RESTART, KSE_QUEUE_CHECK. -/
def Obligations.KeyRowsComplete : Prop :=
  -- ENC (R396)
  (∀ (submitter : Nat) (q : KseReq) (s : State), submitter < 4 →
    exec (.enc submitter q) s = .next (s.kseRequest submitter { q with op := 1 } (fun a => a.kseBlock submitter { q with op := 1 }))) ∧
  -- DEC (R396)
  (∀ (submitter : Nat) (q : KseReq) (s : State), submitter < 4 →
    exec (.dec submitter q) s = .next (s.kseRequest submitter { q with op := 2 } (fun a => a.kseBlock submitter { q with op := 2 }))) ∧
  -- CTR (R400)
  (∀ (submitter : Nat) (q : KseReq) (s : State), submitter < 4 →
    exec (.ctr submitter q) s = .next (s.kseRequest submitter { q with op := 3 } (fun a => a.kseCtr submitter { q with op := 3 }))) ∧
  -- GENERATE (R404)
  (∀ (submitter : Nat) (q : KseReq) (s : State), submitter < 4 →
    exec (.generate submitter q) s = .next (s.kseRequest submitter { q with op := 4 } (fun a => a.kseGenerate submitter { q with op := 4 }))) ∧
  -- DRBG_RESEED (R404)
  (∀ (s : State), exec .drbgReseed s = .next ({ s with kse := { s.kse with sinceSeed := 0, seededAt := s.now } })) ∧
  -- HEALTH_FAIL (R405)
  (∀ (s : State), exec .healthFail s = .next (s.healthFail)) ∧
  -- ENTROPY_RESTART (R405)
  (∀ (s : State), ¬(s.flag 0 KSE.STATUS.ENTROPY_DEAD) → ¬(s.flag 0 KSE.STATUS.ENTROPY_OK) → (∀ x ∈ s.kse.fails, x + 10000 ≤ s.now) →
    exec (.entropyRestart true) s = .next ({ s with kse := { s.kse with sinceSeed := 0, seededAt := s.now } }.setF 0 KSE.STATUS.ENTROPY_OK 1)) ∧
  -- KSE_QUEUE_CHECK (R398)
  (∀ (submitter free : Nat) (s : State), submitter < 4 → ¬(s.fld 0 (kseFree submitter) = free) → exec (.kseQueueCheck submitter free) s =
      .next ((s.recOpen 0 0x39 submitter).setF 0 (kseFree submitter) 32))

/-- The rows of session timers, MCTP control and the two-wire bus complete, each with the next state stated: CHALLENGE_EXPIRY,
SESSION_IDLE_EXPIRY, LOCKOUT_EXPIRY, SET_ENDPOINT_ID, GET_ENDPOINT_ID, GET_MCTP_VERSION_SUPPORT, GET_MESSAGE_TYPE_SUPPORT,
GET_VENDOR_MESSAGE_SUPPORT, BLOCK_WRITE, BLOCK_READ, READ_BYTE, ADDRESS_MATCH_SLEEP, HOST_NOTIFY, HOST_NOTIFY_REPEAT, ARB_BACKOFF_EXPIRY,
BUS_ERROR, SCL_TIMEOUT, BUS_RECOVERY. -/
def Obligations.BusRowsComplete : Prop :=
  -- CHALLENGE_EXPIRY (R344)
  (∀ (id : Nat) (s : State), exec (.challengeExpiry id) s =
      .next ({ s with mb := { s.mb with challenges := s.mb.challenges.filter (fun x => x.id != id || decide (s.now < x.born + 10000000)) } })) ∧
  -- SESSION_IDLE_EXPIRY (R347)
  (∀ (point : Nat) (s : State) (x : Session), s.sessionAt point = some x → x.lastValid + 600000000 ≤ s.now →
    exec (.sessionIdleExpiry point) s = .next (s.endSession point)) ∧
  -- LOCKOUT_EXPIRY (R348)
  (∀ (role since : Nat) (s : State), (role, since) ∈ s.mb.lockouts → since + 60000000 ≤ s.now →
    exec (.lockoutExpiry role) s =
      .next ({ s with mb := { s.mb with lockouts := s.mb.lockouts.filter (fun x => x.1 != role) } }.setF 0 RLE.LOCKOUT.LOCKED
        (setBit (s.fld 0 RLE.LOCKOUT.LOCKED) (role - 1) false))) ∧
  -- SET_ENDPOINT_ID (R331)
  (∀ (op eid : Nat) (s : State), op ≤ 1 → eid ≠ 0 → eid ≠ 255 →
    exec (.setEndpointId op eid) s =
      .next ({ s with twb := { s.twb with ctl := s.twb.ctl.tail, eid := eid % 256 } }.send
        (.mctp [0x01#8, 0#8, 0#8, BitVec.ofNat 8 eid, 0#8]))) ∧
  -- GET_ENDPOINT_ID (R331)
  (∀ (s : State), exec .getEndpointId s =
      .next ({ s with twb := { s.twb with ctl := s.twb.ctl.tail } }.send (.mctp [0x02#8, 0#8, BitVec.ofNat 8 s.twb.eid, 0#8, 0#8]))) ∧
  -- GET_MCTP_VERSION_SUPPORT (R331)
  (∀ (s : State),
    exec (.getMctpVersionSupport 0xff) s =
      .next ({ s with twb := { s.twb with ctl := s.twb.ctl.tail } }.send (.mctp [0x04#8, 0#8, 1#8, 0xf1#8, 0xf3#8, 0xf1#8, 0#8]))) ∧
  -- GET_MESSAGE_TYPE_SUPPORT (R331)
  (∀ (s : State), exec .getMessageTypeSupport s =
      .next ({ s with twb := { s.twb with ctl := s.twb.ctl.tail } }.send (.mctp [0x05#8, 0#8, 1#8, 0x7f#8]))) ∧
  -- GET_VENDOR_MESSAGE_SUPPORT (R331)
  (∀ (s : State),
    exec (.getVendorMessageSupport 0) s =
      .next ({ s with twb := { s.twb with ctl := s.twb.ctl.tail } }.send
        (.mctp ([0x06#8, 0#8, 0xff#8, 1#8] ++ beBytes 4 s.enterprise ++ [0#8, 0#8])))) ∧
  -- BLOCK_WRITE (R452)
  (∀ (bytes : List Byte) (kHz : Nat) (s : State), s.twbAwake → ¬(s.twb.nackUntilBoot) → s.twb.held = none →
    exec (.blockWrite 0x0f bytes kHz) s = .next ((s.addressedAt kHz).matchWake.blockWrite bytes)) ∧
  (∀ (cmd : Nat) (bytes : List Byte) (kHz : Nat) (s : State), s.twbAwake → ¬(s.twb.nackUntilBoot) → s.twb.held = none → cmd ≠ 0x0f →
    exec (.blockWrite cmd bytes kHz) s = .next ((s.addressedAt kHz).matchWake)) ∧
  -- BLOCK_READ (R453)
  (∀ (done : Bool) (kHz : Nat) (s : State), s.twbAwake → ¬(s.twb.nackUntilBoot) → s.twb.held = none →
    ∀ s1, s1 = (s.addressedAt kHz).matchWake → s1.twb.outPkts = [] →
    exec (.blockRead done kHz) s = .next (s1.send (.twoWire (s1.readReply [])))) ∧
  (∀ (kHz : Nat) (s : State), s.twbAwake → ¬(s.twb.nackUntilBoot) → s.twb.held = none →
    ∀ s1, s1 = (s.addressedAt kHz).matchWake → ∀ p q, s1.twb.outPkts = p :: q →
    exec (.blockRead true kHz) s =
      .next ({ s1.send (.twoWire (s1.readReply p)) with twb := { (s1.send (.twoWire (s1.readReply p))).twb with outPkts := q } }.bump 0
        TWB.TX_PKTS.COUNT 1) ∧
    exec (.blockRead false kHz) s = .next (s1.send (.twoWire (s1.readReply p)))) ∧
  -- READ_BYTE (R451)
  (∀ (kHz : Nat) (s : State), s.twbAwake → ¬(s.twb.nackUntilBoot) → s.twb.held = none →
    exec (.readByte kHz) s = .next ((s.addressedAt kHz).matchWake.awakeXfer .readByte)) ∧
  -- ADDRESS_MATCH_SLEEP (R454)
  (∀ (x : SmbusXfer) (kHz : Nat) (s : State), s.dstate = .s1 → exec (.addressMatchSleep x kHz) s = .next (s.xfer x kHz)) ∧
  (∀ (x : SmbusXfer) (kHz : Nat) (s : State), s.twb.held = none → ¬(s.twb.nackUntilBoot) → s.dstate = .s2 →
    exec (.addressMatchSleep x kHz) s = .next ((((s.addressedAt kHz).sleepXfer x).ev 0 TWB.EVENTS.WAKE_MATCH).wakeUp 2).serveHeld) ∧
  (∀ (x : SmbusXfer) (kHz : Nat) (s : State), s.twb.held = none → ¬(s.twb.nackUntilBoot) → s.dstate = .s3 →
    exec (.addressMatchSleep x kHz) s = .next ((((s.addressedAt kHz).sleepXfer x).wakeUp 2).ev 0 TWB.EVENTS.WAKE_MATCH)) ∧
  (∀ (x : SmbusXfer) (kHz : Nat) (s : State), s.twb.held = none → ¬(s.twb.nackUntilBoot) → s.dstate = .aonOnly →
    exec (.addressMatchSleep x kHz) s = .next ((s.addressedAt kHz).sleepXfer x)) ∧
  -- HOST_NOTIFY (R456)
  (∀ (e : NotifyEnd) (s : State), (s.twb.due && s.twb.losses == 0) → exec (.hostNotify e) s = .next (s.hostNotify e)) ∧
  -- HOST_NOTIFY_REPEAT (R456)
  (∀ (e : NotifyEnd) (s : State), (s.twb.losses = 0) → exec (.hostNotifyRepeat e) s = .next (s.hostNotify e)) ∧
  -- ARB_BACKOFF_EXPIRY (R457)
  (∀ (e : NotifyEnd) (s : State), ¬(s.twb.losses = 0) → exec (.arbBackoffExpiry e) s = .next (s.hostNotify e)) ∧
  -- BUS_ERROR (R458)
  (∀ (s : State), s.dstate ≠ .off → exec .busError s = .next ((s.ev 0 TWB.EVENTS.BUS_ERROR).bump 0 TWB.BUS_ERR.COUNT 1)) ∧
  -- SCL_TIMEOUT (R458)
  (∀ (s : State), s.dstate ≠ .off → exec .sclTimeout s = .next (s.ev 0 TWB.EVENTS.TIMEOUT)) ∧
  -- BUS_RECOVERY (R459)
  (∀ (pulses : Nat) (s : State), s.mayNotify → pulses ≤ 9 → ∀ s1, s1 = s.send (.busClocks 100) →
    exec (.busRecovery pulses) s = .next ({ s1 with twb := { s1.twb with stuckReps := 0 } }.ev 0 TWB.EVENTS.RECOVERED)) ∧
  (∀ (pulses : Nat) (s : State), s.mayNotify → 9 < pulses → ∀ s1, s1 = s.send (.busClocks 100) →
    exec (.busRecovery pulses) s =
      .next ({ s1 with twb := { s1.twb with stuckReps := s1.twb.stuckReps + 1 } }.evRec 0 TWB.EVENTS.BUS_STUCK 0))

/-- The rows of the DRAM channels complete, each with the next state stated: SPEED_GO, FREQ_CHANGE_DONE, RETRAIN_PAUSE, RETRAIN_FORCED,
DRAM_REQUEST, REFRESH_DUE, REFRESH_DEBT_MAX, TEMP_POLL, ROW_IDLE_CLOSE, PANIC_LONG, TRN_WRITE_READ_COMPARE, TRN_READ_COMPARE,
TRN_CA_LOOPBACK, TRN_WL_SAMPLE, DRAM_TRAIN, SPPR, HPPR, DRAM_RELOCATE, S2_RANK_RETURN. -/
def Obligations.DramRowsComplete : Prop :=
  -- SPEED_GO (R105)
  (∀ (tile ch target : Nat) (s : State), tile < s.tiles → ch < 3 → exec (.speedGo tile ch target) s =
      .next ((s.setC tile ch DMC.SPEED.TARGET target).requestSpeed tile ch (target % 4))) ∧
  -- FREQ_CHANGE_DONE (R105)
  (∀ (tile ch : Nat) (s : State), tile < s.tiles → ch < 3 → exec (.freqChangeDone tile ch) s = .next (s.endChange tile ch)) ∧
  -- RETRAIN_PAUSE (R103)
  (∀ (tile ch : Nat) (s : State), tile < s.tiles → ch < 3 → exec (.retrainPause tile ch) s = .next (s.tryPause tile ch)) ∧
  -- RETRAIN_FORCED (R103)
  (∀ (tile ch : Nat) (s : State), tile < s.tiles → ch < 3 → exec (.retrainForced tile ch) s = .next (s.forcePause tile ch)) ∧
  -- DRAM_REQUEST (R95)
  (∀ (tile ch sub : Nat) (s : State), tile < s.tiles → ch < 3 → ∀ q, s.dramPick tile ch sub = .burst q →
    exec (.dramRequest tile ch sub) s = .next ((s.serveBurst tile ch q).noteDrain tile ch sub)) ∧
  -- REFRESH_DUE (R96)
  (∀ (tile ch rank : Nat) (s : State), tile < s.tiles → ch < 3 → (rank < s.lranks) → exec (.refreshDue tile ch rank) s =
      .next (s.oweRefresh tile ch rank)) ∧
  -- REFRESH_DEBT_MAX (R97)
  (∀ (tile ch rank : Nat) (s : State), tile < s.tiles → ch < 3 → (0 < s.refDebt tile ch rank && s.postMax tile ch ≤ s.refDebt tile ch
    rank) → exec (.refreshDebtMax tile ch rank) s =
      .next (s.refreshAhead tile ch rank)) ∧
  -- TEMP_POLL (R96)
  (∀ (tile ch : Nat) (temps : List Nat) (mode : Bool) (s : State), tile < s.tiles → ch < 3 → temps.foldl max 0 ≤ 85 →
    exec (.tempPoll tile ch temps mode) s =
      .next ((s.updDmc tile ch (fun x => { x with temps := temps })).setFs tile
        [(Fld.inst DMC.REF.TEMP ch, temps.foldl max 0), (Fld.inst DMC.REF.HIGH_TEMP ch, b2n mode)])) ∧
  -- ROW_IDLE_CLOSE (R93)
  (∀ (tile ch bank : Nat) (s : State), tile < s.tiles → ch < 3 → s.fldC tile ch DMC.PAGE.POLICY = 0 →
    exec (.rowIdleClose tile ch bank) s =
      .next (s.updDmc tile ch (fun x => { x with
        rows := x.rows.map (fun r =>
          if r.bank = bank && decide (s.fldC tile ch DMC.PAGE.OPEN_MAX * 5 ≤ (s.now - r.last) * 1000) &&
              !(x.queue.any (fun q => q.bankNo == bank && q.row == r.row)) then { r with isOpen := false } else r) }))) ∧
  -- PANIC_LONG (R98)
  (∀ (tile ch : Nat) (s : State), tile < s.tiles → ch < 3 → ∀ p, (s.dmc tile ch).panicAt = some p → s.panicCounts → (s.fldC tile ch DMC.PANIC.MAX_US <
    s.now - p) → exec (.panicLong tile ch) s =
      .next (s.evRec tile (Fld.inst DMC.EVENTS.PANIC_LONG ch) ch)) ∧
  -- TRN_WRITE_READ_COMPARE (R102)
  (∀ (tile ch w lanes errs : Nat) (s : State), tile < s.tiles → ch < 3 → exec (.trnWriteReadCompare tile ch w lanes errs) s =
      .next (s.patternRun tile ch w lanes errs)) ∧
  -- TRN_READ_COMPARE (R102)
  (∀ (tile ch w lanes errs : Nat) (s : State), tile < s.tiles → ch < 3 → exec (.trnReadCompare tile ch w lanes errs) s =
      .next (s.patternRun tile ch w lanes errs)) ∧
  -- TRN_CA_LOOPBACK (R102)
  (∀ (tile ch w lanes errs : Nat) (s : State), tile < s.tiles → ch < 3 → exec (.trnCaLoopback tile ch w lanes errs) s =
      .next (s.patternRun tile ch w lanes errs)) ∧
  -- TRN_WL_SAMPLE (R102)
  (∀ (tile ch w lanes errs : Nat) (s : State), tile < s.tiles → ch < 3 → exec (.trnWlSample tile ch w lanes errs) s =
      .next (s.patternRun tile ch w lanes errs)) ∧
  -- DRAM_TRAIN (R101)
  (∀ (found : List (Nat × Nat)) (compareBad bad : List Nat) (s : State), s.dstate = .selftest → ¬(s.boot.dramTrained) → s.phaseDone 1 →
    exec (.dramTrain found compareBad bad) s = .next ((s.setAll BST.STATUS.PHASE 2).trainDram found compareBad bad)) ∧
  -- SPPR (R111)
  (∀ (tile ch w result : Nat) (s : State), tile < s.tiles → ch < 3 → (s.dmc tile ch).repair = none → result ∈ [1, 2, 3] →
    exec (.sppr tile ch w (result % 3)) s = .next (s.startSppr tile ch w (some result))) ∧
  (∀ (tile ch w v at0 result : Nat) (s : State), tile < s.tiles → ch < 3 → (s.dmc tile ch).repair = some (v, none) →
    (s.dmc tile ch).repairAt = some at0 → pprPlace v = pprPlace w → result ∈ [1, 2, 3] →
    exec (.sppr tile ch w (result % 3)) s = .next (s.endRepair tile ch v result)) ∧
  -- HPPR (R112)
  (∀ (tile ch w result : Nat) (s : State), tile < s.tiles → ch < 3 → result ∈ [1, 2, 3] → exec (.hppr tile ch w (result % 3)) s =
      .next (s.startHppr tile ch w result)) ∧
  -- DRAM_RELOCATE (R108)
  (∀ (tile : Nat) (s : State), tile < s.tiles → (s.pow.target == 2 && s.pow.entryStep == 5 && s.fldC tile 0 DMC.RETAIN.ALLOWED != 0) →
    exec (.dramRelocate tile) s =
      .next (s.dramRelocate tile)) ∧
  -- S2_RANK_RETURN (R110)
  (∀ (tile : Nat) (compareBad bad : List Nat) (s : State), tile < s.tiles → s.dstate = .service → s.pow.ranksAway.contains tile →
    ∀ s1, s1 = s.ranksBack tile compareBad bad →
    (s1.dstate = .service → exec (.s2RankReturn tile compareBad bad) s =
      .next ({ s1 with pow := { s1.pow with ranksAway := s1.pow.ranksAway.erase tile } }.setF tile FRZ.STATUS.BG_RESTORE
        (b2n (s1.firn.unrestored.any (fun p => ((s1.homeOf (p / 512)).map (fun (h : Home) => h.tile)) == some tile))))) ∧
    (s1.dstate ≠ .service → exec (.s2RankReturn tile compareBad bad) s = .next s1))

/-- The rows of main-tier integrity complete, each with the next state stated: DEC_READ, FIRST_WRITE, FRAME_FREE, PAGE_RETIRE, UE_RECOVERY,
SCRUB_READ, ERROR_LOG_POLL, DEC_LOG_CLEAR_WRITE, DEC_INJ_ARM. -/
def Obligations.DecRowsComplete : Prop :=
  -- DEC_READ (R122)
  (∀ (tile addr : Nat) (err : List (Nat × Nat)) (bad0 bad1 parity : Bool) (s : State), tile < s.tiles →
    exec (.decRead tile addr err bad0 bad1 parity) s = .next (s.decRead tile addr err bad0 bad1 parity)) ∧
  -- FIRST_WRITE (R123)
  (∀ (tile page : Nat) (s : State), tile < s.tiles → ¬(s.inTest (page * 4096)) → ¬(s.bornLocal tile page) →
    ∀ e, s.extOfFrame tile (page / 512) = some e → ∀ x, (s.evbOf tile).find? (fun x => x.n / 32 == e * 512 + page % 512) = some x →
    exec (.firstWrite tile page) s = .next (s.writeBack x)) ∧
  (∀ (tile page : Nat) (s : State), tile < s.tiles → s.inTest (page * 4096) → exec (.firstWrite tile page) s = .next (s.testWrite tile page)) ∧
  -- FRAME_FREE (R124)
  (∀ (tile frame : Nat) (s : State), tile < s.tiles → ¬(frame < s.reservedFrames tile || (s.mainUsed tile).contains frame || s.mainBytes /
    2 ^ 21 ≤ frame) → exec (.frameFree tile frame) s =
      .next (s.clearFrame tile frame)) ∧
  -- PAGE_RETIRE (R135)
  (∀ (tile page : Nat) (s : State), tile < s.tiles → ∀ e, s.dec.retire.find? (fun e => e.1 == tile && e.2.1 == page) = some e → ¬(s.dstate
    == .freeze) → exec (.pageRetire tile page) s =
      .next ((s.retirePage tile page e.2.2).1)) ∧
  -- UE_RECOVERY (R131)
  (∀ (tile addr : Nat) (s : State), tile < s.tiles → (s.dec.ues.contains (tile, addr)) → exec (.ueRecovery tile addr) s =
      .next (s.ueRecover tile addr)) ∧
  -- SCRUB_READ (R133)
  (∀ (tile ch : Nat) (err : List (Nat × Nat)) (s : State), tile < s.tiles → ch < 3 → s.scrubs tile →
    ∀ l, s.scrubNext tile ch (s.scrubAt tile ch) = some l →
    exec (.scrubRead tile ch err) s =
      .next (((s.askDram tile (channelBack (s.chGran tile) ch l) false).burstRead tile (channelBack (s.chGran tile) ch l) err true).setScrub
        tile ch (l + 64))) ∧
  -- ERROR_LOG_POLL (R130)
  (∀ (tile : Nat) (ppr : List Nat) (s : State), tile < s.tiles → (s.dstate == .service || s.dstate == .restricted) → exec (.errorLogPoll
    tile ppr) s =
      .next ((List.range 3).foldl (fun a c => (a.sumModules tile c).applyPolicy tile c (some (if ppr.getD c 1 % 3 = 0 then 3 else ppr.getD c 1 % 3))) s)) ∧
  -- DEC_LOG_CLEAR_WRITE (R130)
  (∀ (tile mask : Nat) (s : State), tile < s.tiles → exec (.decLogClearWrite tile mask) s = .next (s.clearLogs tile (mask % 8))) ∧
  -- DEC_INJ_ARM (R137)
  (∀ (tile v : Nat) (s : State), tile < s.tiles → exec (.decInjArm tile v) s = .next (s.writeInj tile (v / 2 * 2 + 1)))

/-- The rows of the tier cache complete, each with the next state stated: CACHE_LOOKUP, CACHE_FILL, EVB_WRITEBACK, CLEAN, INVALIDATE,
TCH_EN_WRITE, CACHE_DRAIN_DONE, TCH_WAYPWR_WRITE, TCH_WAYCLASS_WRITE, WAY_CLEAN_DONE, WAY_POWER_UP_DONE, REPARTITION_DONE. -/
def Obligations.CacheRowsComplete : Prop :=
  -- CACHE_LOOKUP (R62)
  (∀ (tile n : Nat) (stream panic : Bool) (data tag : Nat) (s : State), tile < s.tiles → exec (.cacheLookup tile n stream panic data tag)
    s =
      .next ((s.pumpMisses tile).lookup tile n stream panic ⟨data, tag⟩)) ∧
  -- CACHE_FILL (R70)
  (∀ (tile n : Nat) (s : State), tile < s.tiles → ∀ m, s.cache.missq.find? (fun m => m.tile == tile && m.n == n) = some m → exec
    (.cacheFill tile n) s =
      .next ((s.fillEntry m).pumpMisses tile)) ∧
  -- EVB_WRITEBACK (R73)
  (∀ (tile : Nat) (s : State), tile < s.tiles → exec (.evbWriteback tile) s = .next (s.evbStep tile)) ∧
  -- CLEAN (R74)
  (∀ (tile : Nat) (s : State), tile < s.tiles → exec (.clean tile) s = .next (s.maintStep tile 1)) ∧
  -- INVALIDATE (R74)
  (∀ (tile : Nat) (s : State), tile < s.tiles → exec (.invalidate tile) s = .next (s.maintStep tile 2)) ∧
  -- TCH_EN_WRITE (R76)
  (∀ (tile : Nat) (en : Bool) (s : State), tile < s.tiles → tile ≠ 15 → exec (.tchEnWrite tile en) s = .next (s.enWrite tile en)) ∧
  -- CACHE_DRAIN_DONE (R76)
  (∀ (tile : Nat) (s : State), tile < s.tiles → (s.cacheIs tile .draining && s.cacheEmpty tile) → exec (.cacheDrainDone tile) s =
      .next (s.cacheOff tile)) ∧
  -- TCH_WAYPWR_WRITE (R77)
  (∀ (tile : Nat) (value : Nat) (s : State), tile < s.tiles → tile ≠ 15 → exec (.tchWaypwrWrite tile value) s = .next (s.pwrWrite tile (value % 65536))) ∧
  -- TCH_WAYCLASS_WRITE (R79)
  (∀ (tile : Nat) (value : Nat) (s : State), tile < s.tiles → tile ≠ 15 → exec (.tchWayclassWrite tile value) s = .next (s.classWrite tile (value % 65536))) ∧
  -- WAY_CLEAN_DONE (R77)
  (∀ (tile way : Nat) (s : State), tile < s.tiles → way < 16 → (s.fld tile TCH.WAYSTAT.CLEANING).testBit way →
    (∀ m ∈ s.cache.missq, m.tile = tile → m.way ≠ some way) → ∀ s2, s2 = s.cleanWay tile way →
    (∀ r ∈ s2.cache.ranges, r.tile = tile → r.way ≠ way) →
    exec (.wayCleanDone tile way) s =
      .next (((s2.setF tile TCH.WAYSTAT.CLEANING (setBit (s2.fld tile TCH.WAYSTAT.CLEANING) way false)).setF tile TCH.WAYSTAT.POWERED
        (setBit (s2.fld tile TCH.WAYSTAT.POWERED) way ((s2.fld tile TCH.WAYPWR.ON).testBit way))).evRec tile TCH.EVENTS.WAY_DONE way)) ∧
  -- WAY_POWER_UP_DONE (R77)
  (∀ (tile way : Nat) (s : State), tile < s.tiles → way < 16 → ((s.fld tile TCH.WAYPWR.ON).testBit way && !s.cacheIs tile .stopped) → exec
    (.wayPowerUpDone tile way) s =
      .next (s.setF tile TCH.WAYSTAT.POWERED (setBit (s.fld tile TCH.WAYSTAT.POWERED) way true))) ∧
  -- REPARTITION_DONE (R66)
  (∀ (tile : Nat) (s : State), tile < s.tiles → ∀ n, amapFind tile s.cache.repart = some n →
    s.cacheIs tile .repartitioning → ¬(s.dirtyCache tile) →
    ∀ s2, s2 = ((s.updCache (fun c => { c with
        ranges := c.ranges.filter (fun r => r.tile != tile)
        repart := amapErase tile c.repart
        plru := c.plru.filter (fun e => e.1 / 131072 != tile) })).wipe .near tile (s.fld tile NTR.SIZE.STEPS * 2 ^ 23)
          ((n - s.fld tile NTR.SIZE.STEPS) * 2 ^ 23)).setF tile NTR.SIZE.STEPS n →
    exec (.repartitionDone tile) s = .next (s2.cacheTo tile (if s.flag tile TCH.CTRL.EN then .enabled else .disabled)))

/-- The rows of the deep tier and Firn complete, each with the next state stated: DEEP_READ, SUSPEND_READ, DEEP_PROGRAM_FAIL, ERASE_FAIL,
GC_START, GC_STOP, BLOCK_ERASE_DONE, TABLE_FLUSH, DUMP_ARM, PREVIOUS_RELEASE, WEAR_STAGE, DEEP_FIRST_FORMAT, DEEP_REBUILD_DONE,
FIRN_CAPTURE, FIRN_DEEP_MERGE, PROGRAM_VERIFIED, FIRN_BOOKS_CHECK, LOCAL_IMAGE_WRITE. -/
def Obligations.DeepRowsComplete : Prop :=
  -- DEEP_READ (R152)
  (∀ (tile page : Nat) (hard : Bool) (iters retry : Nat) (soft parity : Bool) (s : State), tile < s.tiles →
    ∀ d, s.deepAt tile page = some d → s.captured tile page = none → s.flag tile BCX.STATUS.XTS_KEY →
    ∀ step, s.ladder tile ⟨hard, iters, retry, soft, parity⟩ = some step →
    exec (.deepRead tile page hard iters retry soft parity) s =
      .next (s.noteRead tile page d.stripe (cwChannel d.stripe d.idx) ⟨hard, iters, retry, soft, parity⟩ (some step))) ∧
  -- SUSPEND_READ (R154)
  (∀ (tile page us : Nat) (busy : List Nat) (s : State), tile < s.tiles → ∀ d, s.deepAt tile page = some d →
    s.lunBusy tile (s.stripeLun d.stripe) → cwChannel d.stripe d.idx ∈ busy → busy.dedup.length ≤ 2 →
    exec (.suspendRead tile page us busy) s = .next (s.suspendRead tile page us busy d)) ∧
  -- DEEP_PROGRAM_FAIL (R162)
  (∀ (tile stripe ch : Nat) (s : State), tile < s.tiles → ch < 8 → (s.stripe tile stripe).any (fun x => x.st == 1) →
    ¬(((s.ev tile (Fld.inst FCH.EVENTS.PROG_FAIL ch)).retireBlock tile stripe ch 0).firn.caps.any (fun c => c.tile == tile)) →
    exec (.deepProgramFail tile stripe ch) s = .next ((s.ev tile (Fld.inst FCH.EVENTS.PROG_FAIL ch)).retireBlock tile stripe ch 0)) ∧
  -- ERASE_FAIL (R162)
  (∀ (tile stripe ch : Nat) (s : State), tile < s.tiles → ch < 8 → ((s.stripe tile stripe).any (fun x => x.st == 3)) →
    ¬(s.memberBad tile stripe ch) → exec (.eraseFail tile stripe ch) s =
      .next ((s.ev tile (Fld.inst FCH.EVENTS.ERASE_FAIL ch)).retireBlock tile stripe ch 1)) ∧
  -- GC_START (R149)
  (∀ (tile : Nat) (s : State), tile < s.tiles → s.gcDue tile → s.dstate = .service →
    ∀ v, (s.updDeep (fun d => { d with gc := d.gc.erase tile ++ [tile] })).gcVictim tile = some v →
    exec (.gcStart tile) s = .next ((s.updDeep (fun d => { d with gc := d.gc.erase tile ++ [tile] })).collect tile v)) ∧
  -- GC_STOP (R149)
  (∀ (tile : Nat) (s : State), tile < s.tiles → (s.fld tile DTM.GC.HI < s.freeStripes tile) → exec (.gcStop tile) s =
      .next (s.updDeep (fun d => { d with gc := d.gc.erase tile }))) ∧
  -- BLOCK_ERASE_DONE (R160)
  (∀ (tile stripe us : Nat) (s : State), tile < s.tiles → ∀ x, s.stripe tile stripe = some x → x.st = 3 → x.refs = 0 → s.dstate ≠ .freeze →
    exec (.blockEraseDone tile stripe us) s = .next (s.eraseDone tile stripe us)) ∧
  -- TABLE_FLUSH (R148)
  (∀ (tile : Nat) (s : State), tile < s.tiles → s.dirtyTablesOf tile ≠ [] →
    s.flag tile BCX.STATUS.XTS_KEY → exec (.tableFlush tile false) s = .next (s.flushTables tile)) ∧
  -- DUMP_ARM (R158)
  (∀ (tile : Nat) (s : State), tile < s.tiles → s.dstate = .service → s.areaIn tile 3 = none →
    exec (.dumpArm tile) s = .next (s.armArea tile)) ∧
  -- PREVIOUS_RELEASE (R158)
  (∀ (tile : Nat) (s : State), tile < s.tiles → ∀ a, s.areaIn tile 2 = some a →
    ((s.areaIn tile 1).isSome && (s.newerSeal tile a.num || (s.areaDone tile a.num && s.boot.restored.contains tile))) →
    exec (.previousRelease tile) s =
      .next (s.releaseArea tile a)) ∧
  -- WEAR_STAGE (R163)
  (∀ (tile stage stripe ch tprog : Nat) (s : State), tile < s.tiles → ch < 8 → stage ≠ 2 → s.stageReached tile stage stripe ch →
    exec (.wearStage tile stage stripe ch tprog) s = .next (s.reportStage tile stage stripe ch)) ∧
  -- DEEP_FIRST_FORMAT (R161)
  (∀ (s : State), s.dstate = .selftest → s.deep.roots = [] →
    exec .deepFirstFormat s = .next (s.readFactory.allTiles (fun t a => a.formatTile t))) ∧
  -- DEEP_REBUILD_DONE (R148)
  (∀ (tile : Nat) (s : State), tile < s.tiles → s.deep.rebuilding.contains tile →
    exec (.deepRebuildDone tile) s =
      .next ((((s.scanHeaders tile).map (fun d => d.page / 512)).dedup).foldl (fun a e => a.dirtyTable tile e)
        ((s.updDeep (fun d => { d with rebuilding := d.rebuilding.erase tile, rootBad := d.rootBad.erase tile })).updFirn (fun f =>
          { f with deep := f.deep.filter (fun d => d.tile != tile) ++ s.scanHeaders tile })))) ∧
  -- FIRN_CAPTURE (R178)
  (∀ (tile : Nat) (near : List NearErr) (s : State), tile < s.tiles → ∀ u, s.firnNext tile = some u → s.firnRuns tile →
    exec (.firnCapture tile near) s = .next ((s.addNear near).captureUnit tile u)) ∧
  -- FIRN_DEEP_MERGE (R180)
  (∀ (tile page : Nat) (s : State), tile < s.tiles → s.firnRuns tile → (∃ r ∈ s.firn.ranges, r.tile = tile ∧ r.n / 32 = page) →
    exec (.firnDeepMerge tile page) s = .next (s.captureUnit tile (page / 16))) ∧
  -- PROGRAM_VERIFIED (R145)
  (∀ (tile unit us : Nat) (s : State), tile < s.tiles → s.flag tile BCX.STATUS.XTS_KEY →
    exec (.programVerified tile unit us) s = .next (s.programVerified tile unit us)) ∧
  -- FIRN_BOOKS_CHECK (R177)
  (∀ (tile : Nat) (s : State), tile < s.tiles →
    s.fld tile FRN.HELD.PAGES ≠ (s.firn.tokens.filter (fun k => k.tile == tile)).length →
    exec (.firnBooksCheck tile) s =
      .next ((s.evRec tile FRN.EVENTS.BOOKS 0).setF tile FRN.HELD.PAGES (s.firn.tokens.filter (fun k => k.tile == tile)).length)) ∧
  -- LOCAL_IMAGE_WRITE (R52)
  (∀ (page : Nat) (s : State), ∀ h, s.homeOf (page / 512) = some h → s.foreignCopies page ≠ [] → h.tier ≠ 2 → s.firnRuns h.tile →
    s.deepAt h.tile page = none → ∀ s0, s0 = s.probePages [page] → s0.readable [page] → s0.deepFits h.tile page 0 →
    ∀ bs s1, s0.readHome h false (page * 4096) 4096 = (bs, s1) →
    exec (.localImageWrite page) s =
      .next ((s.foreignCopies page).foldl (fun a d => a.unmapDeep d.tile page)
        (((s1.alignHead h.tile 0 1).programDeep h.tile page (s1.gen page) (s1.maskOf page) bs 0).closeRow h.tile 0)))

/-- The rows of links, connections and acknowledgements complete, each with the next state stated: ETH_LINK_UP, ETH_LINK_DOWN,
LINK_DOWN_HOLD_EXPIRY, ETH_FRAME, PFC_PAUSE, PFC_WATCHDOG, REQ, RTU, CONNECT_TIMEOUT, DREQ, QP_SETTLED, ERR_HOLD_EXPIRY, ACK_RECEIVED,
READ_RESPONSE, ACK_TIMEOUT, RNR_TIMER, CNP, CNP_RATE_RESTORE. -/
def Obligations.ConnectRowsComplete : Prop :=
  -- ETH_LINK_UP (R201)
  (∀ (tile port lport : Nat) (s : State), tile < s.tiles → port < 2 → lport < 4 → (pointServed s.dstate 1 && decide (lport < modePorts
    (s.fld tile (ETH.CFG.MODE.inst port))) && (s.fld tile (ETH.CFG.LPORT_EN.inst port)).testBit lport) → ¬(s.heldDown tile port) →
    exec (.ethLinkUp tile port lport) s =
      .next (s.linkUp tile port lport)) ∧
  -- ETH_LINK_DOWN (R215)
  (∀ (tile port lport : Nat) (s : State), tile < s.tiles → port < 2 → lport < 4 → exec (.ethLinkDown tile port lport) s =
      .next (s.linkDown tile port lport)) ∧
  -- LINK_DOWN_HOLD_EXPIRY (R215)
  (∀ (tile port lport : Nat) (s : State), tile < s.tiles → port < 2 → lport < 4 → ∀ since, amapFind (lportKey tile port lport)
    s.net.linkDown = some since → since + 2000000 < s.now → exec (.linkDownHoldExpiry tile port lport) s =
      .next (((s.boundTo tile port lport).filter (fun q => q.st == 2 || q.st == 3)).foldl (fun a q => a.qpError q.qpn 4 q.epsn) s)) ∧
  -- ETH_FRAME (R203)
  (∀ (tile port : Nat) (pcp : Option Nat) (dscp : Nat) (i : FrameInfo) (s : State), tile < s.tiles → port < 2 → s.dstate = .service →
    exec (.ethFrame tile port pcp dscp i) s = .next (s.frameIn tile port (s.framePrio tile port pcp dscp) i)) ∧
  -- PFC_PAUSE (R205)
  (∀ (tile port prio : Nat) (s : State), tile < s.tiles → port < 2 → amapFind (prioKey tile port (prio % 8)) s.net.pausedAt = none →
    ∀ s1, s1 = (s.bump tile (ETH.PFC_RX.COUNT.inst port) 1).setF tile (ETH.STATUS.TX_PAUSED.inst port)
      (setBit (s.fld tile (ETH.STATUS.TX_PAUSED.inst port)) (prio % 8) true) →
    exec (.pfcPause tile port prio true) s =
      .next (s1.updNet (fun x => { x with pausedAt := amapInsert (prioKey tile port (prio % 8)) s.now x.pausedAt }))) ∧
  -- PFC_WATCHDOG (R205)
  (∀ (tile port prio : Nat) (s : State), tile < s.tiles → port < 2 → ∀ since, amapFind (prioKey tile port (prio % 8)) s.net.pausedAt =
    some since → ((s.fld tile (ETH.PFC.LOSSLESS.inst port)).testBit (prio % 8) && decide (since + s.fld tile (ETH.PFC.WATCHDOG_MS.inst
    port) * 1000 < s.now)) → exec (.pfcWatchdog tile port prio) s =
      .next (s.evRec tile (ETH.EVENTS.PFC_WATCHDOG.inst port) prio)) ∧
  -- REQ (R213)
  (∀ (r : ConnectReq) (s : State), r.tile < s.tiles → r.port < 2 → r.lport < 4 → s.dstate ≠ .s1 → pointServed s.dstate 1 →
    (r.service → s.serving) → exec (.req r) s = .next (s.answerReq r)) ∧
  -- RTU (R215)
  (∀ (qpn : Nat) (s : State), exec (.rtu qpn) s = .next (s.toRts qpn)) ∧
  -- CONNECT_TIMEOUT (R215)
  (∀ (qpn : Nat) (rej : Bool) (s : State), ∀ q, s.qp qpn = some q → (q.st = 1 && (rej || decide (q.opened + 100000 ≤ s.now))) → exec
    (.connectTimeout qpn rej) s =
      .next (s.qpFree qpn)) ∧
  -- DREQ (R215)
  (∀ (qpn : Nat) (s : State), exec (.dreq qpn) s = .next (s.disconnect qpn)) ∧
  -- QP_SETTLED (R257)
  (∀ (qpn : Nat) (s : State), exec (.qpSettled qpn) s = .next (s.settleQp qpn)) ∧
  -- ERR_HOLD_EXPIRY (R215)
  (∀ (qpn : Nat) (s : State), ∀ q, s.qp qpn = some q → ∀ a, q.errAt = some a → (q.st = 4 && q.settled && decide (a + s.fld (qpTile qpn)
    RMA.CTRL.ERR_HOLD_S * 1000000 ≤ s.now)) → exec (.errHoldExpiry qpn) s =
      .next (s.release q false)) ∧
  -- ACK_RECEIVED (R224)
  (∀ (p : Packet) (s : State), p.tile < s.tiles → p.port < 2 → p.lport < 4 → 
    exec (.ackReceived p) s = .next (s.response p (fun a q => a.hostAck q.qpn p.psn p.imm))) ∧
  -- READ_RESPONSE (R226)
  (∀ (p : Packet) (s : State), p.tile < s.tiles → p.port < 2 → p.lport < 4 → p.opcode ∈ [0x0D, 0x0E, 0x0F, 0x10] →
    exec (.readResponse p) s = .next (s.response p (fun a q => a.readResponse q p.psn p.data))) ∧
  -- ACK_TIMEOUT (R224)
  (∀ (qpn : Nat) (s : State), ∀ q, s.qp qpn = some q → (q.st = 2 && !q.shadow && !q.rnrWait && !q.sent.isEmpty && decide (q.sentAt * 1000
    + 4096 * 2 ^ q.ackTimeout ≤ s.now * 1000)) → exec (.ackTimeout qpn) s =
      .next (s.goBack qpn)) ∧
  -- RNR_TIMER (R224)
  (∀ (qpn : Nat) (s : State), ∀ q, s.qp qpn = some q → (q.st = 2 && q.rnrWait) → exec (.rnrTimer qpn) s =
      .next ((s.resend qpn).pumpQp qpn)) ∧
  -- CNP (R207)
  (∀ (p : Packet) (s : State), p.tile < s.tiles → p.port < 2 → p.lport < 4 → 
    exec (.cnp p) s =
      .next (s.response p (fun a q =>
        if a.flag (qpTile q.qpn) RMA.CTRL.CNP_EN then
          (a.bump (qpTile q.qpn) RMA.CNP_RX.COUNT 1).updQp q.qpn (fun x => { x with rate := max 100 (x.rate / 2), cnpRxAt := some a.now })
        else a))) ∧
  -- CNP_RATE_RESTORE (R207)
  (∀ (qpn : Nat) (s : State), ∀ q, s.qp qpn = some q → ∀ a, q.cnpRxAt = some a → (a + 50 ≤ s.now) → exec (.cnpRateRestore qpn) s =
      .next (s.updQp qpn (fun x => { x with rate := min 10000 (x.rate + 500), cnpRxAt := if x.rate + 500 < 10000 then some s.now else none
        })))

/-- The rows of packets, portions and windows complete, each with the next state stated: ACK_SEND, SEND, RDMA_WRITE, RDMA_WRITE_IMM,
RDMA_READ_REQUEST, CMP_SWAP, FETCH_ADD, WINDOW_RECOMPUTE, BUF_BOOKS_CHECK, CONTEXT_FETCH, APPLY_PORTION, ADMIT_PORTION, TOKEN_GRANT,
DISCARD_PORTION. -/
def Obligations.TransportRowsComplete : Prop :=
  -- ACK_SEND (R221)
  (∀ (qpn : Nat) (s : State), exec (.ackSend qpn) s = .next (s.ackQp qpn)) ∧
  -- SEND (R225)
  (∀ (p : Packet) (s : State), p.tile < s.tiles → p.port < 2 → p.lport < 4 → p.opcode ∈ [0x00, 0x01, 0x02, 0x04] →
    exec (.send p) s = .next ((s.receive p (fun a q => a.runSend p q)).abortSleep)) ∧
  -- RDMA_WRITE (R209)
  (∀ (p : Packet) (s : State), p.tile < s.tiles → p.port < 2 → p.lport < 4 → p.opcode ∈ [0x06, 0x07, 0x08, 0x0A] →
    exec (.rdmaWrite p) s = .next ((s.receive p (fun a q => a.runWrite p q)).abortSleep)) ∧
  -- RDMA_WRITE_IMM (R210)
  (∀ (p : Packet) (s : State), p.tile < s.tiles → p.port < 2 → p.lport < 4 → p.opcode ∈ [0x09, 0x0B] →
    exec (.rdmaWriteImm p) s = .next ((s.receive p (fun a q => a.runWrite p q)).abortSleep)) ∧
  -- RDMA_READ_REQUEST (R26)
  (∀ (p : Packet) (near : List NearErr) (s : State), p.tile < s.tiles → p.port < 2 → p.lport < 4 → p.opcode = 0x0C →
    exec (.rdmaReadRequest p near) s = .next (((s.addNear near).receive p (fun a q => a.runRead p q)).abortSleep)) ∧
  -- CMP_SWAP (R231)
  (∀ (p : Packet) (s : State), p.tile < s.tiles → p.port < 2 → p.lport < 4 → p.opcode ∈ [0x13] →
    exec (.cmpSwap p) s = .next ((s.receive p (fun a q => a.runAtomic p q (.cmpSwap (p.cmp % 2 ^ 64) (p.swap % 2 ^ 64)))).abortSleep)) ∧
  -- FETCH_ADD (R231)
  (∀ (p : Packet) (s : State), p.tile < s.tiles → p.port < 2 → p.lport < 4 → p.opcode ∈ [0x14] →
    exec (.fetchAdd p) s = .next ((s.receive p (fun a q => a.runAtomic p q (.fetchAdd (p.swap % 2 ^ 64)))).abortSleep)) ∧
  -- WINDOW_RECOMPUTE (R228)
  (∀ (tile : Nat) (s : State), tile < s.tiles → ∀ qs, qs = (s.tileQps tile).filter (fun q => q.kind == 0 && q.st == 2) →
    ∀ n, n = (qs.filter s.isActive).length →
    ∀ s1, s1 = s.updNet (fun x => { x with winAt := amapInsert tile s.now (amapErase tile x.winAt) }) →
    (∀ a, amapFind tile s.net.winAt = some a → a + 100 ≤ s.now) →
    exec (.windowRecompute tile) s =
      .next (((qs.foldl (fun a q => a.setWindow q.qpn (if s.isActive q then s.windowOf tile (max 1 n) else 4096) (s.isActive q)) s1).setF tile
        RMA.ACTIVE.QPS n).rebook tile)) ∧
  -- BUF_BOOKS_CHECK (R230)
  (∀ (tile : Nat) (s : State), tile < s.tiles → ¬(s.fld tile RMA.BUF_USE.COMMITTED_KB = min 65535 (ceilDiv (s.committedBytes tile) 1024)
    && s.fld tile RMA.BUF_USE.HELD_KB = min 65535 (ceilDiv (s.heldBytes tile) 1024)) → exec (.bufBooksCheck tile) s =
      .next ((s.evRec tile RMA.EVENTS.BOOKS 0).rebook tile)) ∧
  -- CONTEXT_FETCH (R217)
  (∀ (qpn : Nat) (s : State), exec (.contextFetch qpn) s = .next (s.fetchCtx qpn)) ∧
  -- APPLY_PORTION (R168)
  (∀ (id : Nat) (s : State), ∀ p, s.portion id = some p → (p.st == .admitted && p.arrived && !s.aheadInUnit p) → ∀ s0, s0 = s.probePortion p →
    (s0.pagesReady p.addr p.len → s0.homeHas p → exec (.applyPortion id) s = .next (s0.takeEffect p)) ∧
    (¬(s0.pagesReady p.addr p.len && s0.homeHas p) → exec (.applyPortion id) s = .next s0)) ∧
  -- ADMIT_PORTION (R174)
  (∀ (id : Nat) (s : State), ∀ p, s.portion id = some p → exec (.admitPortion id) s = .next (s.askAdmit p)) ∧
  -- TOKEN_GRANT (R174)
  (∀ (tile : Nat) (s : State), tile < s.tiles → ∀ p, s.firstWaiting tile = some p → (s.mayAdmit { p with st := .new } && s.enough p) →
    exec (.tokenGrant tile) s =
      .next (s.grant p)) ∧
  -- DISCARD_PORTION (R176)
  (∀ (id : Nat) (s : State), ∀ p, s.portion id = some p → (p.st == .new || p.st == .waiting || p.st == .admitted) → s.orphan p →
    (!p.arrived || s.givesUp p) → exec (.discardPortion id) s =
      .next (s.discardPortion p))

/-- The rows of capsules and descriptors complete, each with the next state stated: CAPSULE_START, DESCRIPTOR_START, CAPSULE_WRITE,
CAPSULE_PULL, CAPSULE_READ, COMMIT, COPY, NOTIFY, WAIT, WAIT_SATISFIED, MOVE_TRIGGER, CAPSULE_COMPLETE. -/
def Obligations.CapsuleRowsComplete : Prop :=
  -- CAPSULE_START (R245)
  (∀ (qpn : Nat) (s : State), ∀ q, s.qp qpn = some q → ∀ c, q.caps.find? (s.mayStart q) = some c → exec (.capsuleStart qpn) s =
      .next (s.startCapsule q c)) ∧
  -- DESCRIPTOR_START (R260)
  (∀ (cqn : Nat) (s : State), exec (.descriptorStart cqn) s = .next (s.startDesc cqn)) ∧
  -- CAPSULE_WRITE (R247)
  (∀ (i : ExecId) (s : State), exec (.capsuleWrite i) s =
      .next (s.onExec i 1 (fun e => if e.begun || e.revoked || e.failed then s else s.layOut e))) ∧
  -- CAPSULE_PULL (R226)
  (∀ (id : Nat) (s : State), ∀ p, s.portion id = some p → ∀ e, s.net.execs.find? (fun e => e.src == p.src) = some e → (p.capsule && p.st
    == .admitted && !p.pulled && capOp e.bytes == 1 && !e.revoked && !e.failed && s.executes) → exec (.capsulePull id) s =
      .next (s.pull p e)) ∧
  -- CAPSULE_READ (R247)
  (∀ (i : ExecId) (s : State), exec (.capsuleRead i) s = .next (s.onExec i 2 (fun e => s.capRead e))) ∧
  -- COMMIT (R248)
  (∀ (i : ExecId) (s : State), exec (.commit i) s =
      .next (s.onExec i 3 (fun e => if e.begun || e.revoked then s else s.commitBegin e))) ∧
  -- COPY (R249)
  (∀ (i : ExecId) (s : State), exec (.copy i) s = .next (s.onExec i 4 (fun e => s.copyStep e))) ∧
  -- NOTIFY (R250)
  (∀ (i : ExecId) (s : State), exec (.notify i) s =
      .next (s.onExec i 5 (fun e => if s.mayEnd e then s.endCapsule e ⟨0, 0xFF, 0, 0, 0⟩ else s))) ∧
  -- WAIT (R262)
  (∀ (i : ExecId) (s : State), exec (.wait i) s = .next (s.onExec i 6 (fun e => if e.begun then s else s.tryWait e))) ∧
  -- WAIT_SATISFIED (R262)
  (∀ (i : ExecId) (s : State), exec (.waitSatisfied i) s = .next (s.onExec i 6 (fun e => if e.begun then s.tryWait e else s))) ∧
  -- MOVE_TRIGGER (R263)
  (∀ (i : ExecId) (s : State), exec (.moveTrigger i) s = .next (s.onExec i 7 (fun e => s.moveTrigger e))) ∧
  -- CAPSULE_COMPLETE (R251)
  (∀ (i : ExecId) (s : State), ∀ e, s.execOf i = some e → (s.executes && s.mayEnd e) → ∀ r, s.execEnd e = some r → exec (.capsuleComplete
    i) s =
      .next (s.endCapsule e r))

/-- The rows of revocations, orders and moves complete, each with the next state stated: REVOKE_PHASE1_END, REVOKE_PHASE2_END,
ORDER_RASTER_LINE, ORDER_CHAIN_COUNT, MOVE_REQUEST, MOVE_FRAME_FREE, MOVE_CLEANED, MOVE_PASS_DONE, MOVE_COMMIT, HOME_MAP_APPLY,
FORWARD_TO_HOME. -/
def Obligations.MoveRowsComplete : Prop :=
  -- REVOKE_PHASE1_END (R242)
  (∀ (s : State), ∀ v vs, s.ams.revokes = v :: vs → (v.phase = 1 && s.placing []) → exec .revokePhase1End s =
      .next (s.phase1End v)) ∧
  -- REVOKE_PHASE2_END (R242)
  (∀ (s : State), ∀ v vs, s.ams.revokes = v :: vs → v.phase = 2 → s.placing [] → ∀ r, s.regionNum v.region = some r → s.drained r →
    exec .revokePhase2End s = .next (s.phase2End v)) ∧
  -- ORDER_RASTER_LINE (R44)
  (∀ (stream : Nat) (s : State), ∀ n, s.linesSent stream = some n → exec (.orderRasterLine stream) s =
      .next (s.fireAll (fun o => o.trig == 1 && o.obj == stream && decide (o.value ≤ n)))) ∧
  -- ORDER_CHAIN_COUNT (R44)
  (∀ (cqn : Nat) (s : State), ∀ c, s.chain cqn = some c → exec (.orderChainCount cqn) s =
      .next (s.fireAll (fun o => o.trig == 2 && o.obj == cqn && hasReached c.count o.value))) ∧
  -- MOVE_REQUEST (R47)
  (∀ (s : State), ∀ e q l, s.ams.issued = (e, q) :: l →
    exec .moveRequest s = .next ((s.updAms (fun x => { x with issued := l })).moveRequest e q false)) ∧
  -- MOVE_FRAME_FREE (R47)
  (∀ (ext : Nat) (s : State), exec (.moveFrameFree ext) s = .next (s.tryPrepare ext)) ∧
  -- MOVE_CLEANED (R53)
  (∀ (ext : Nat) (s : State), ∀ m, s.moveOf ext = some m → (s.isFlip m && s.imagesCurrent ext) → exec (.moveCleaned ext) s =
      .next (s.tryPrepare ext)) ∧
  -- MOVE_PASS_DONE (R48)
  (∀ (ext : Nat) (near : List NearErr) (s : State), exec (.movePassDone ext near) s = .next ((s.addNear near).passDone ext)) ∧
  -- MOVE_COMMIT (R49)
  (∀ (ext : Nat) (s : State), exec (.moveCommit ext) s = .next (s.tryCommit ext)) ∧
  -- HOME_MAP_APPLY (R34)
  (∀ (tile ext : Nat) (s : State), tile < s.tiles → ∀ x, s.ams.stale.find? (fun x => x.1 == tile && x.2.1 == ext) = some x → exec
    (.homeMapApply tile ext) s =
      .next (s.updAms (fun m => { m with stale := m.stale.erase x }))) ∧
  -- FORWARD_TO_HOME (R20)
  (∀ (id : Nat) (s : State), ∀ p, s.portion id = some p → ∀ h, s.homeOf (p.addr / 2 ^ 21) = some h → (p.tile != h.tile && (p.st == .new ||
    p.st == .waiting)) → exec (.forwardToHome id) s =
      .next (s.updPortion id (fun x => { x with tile := h.tile, st := .new })))

/-- The rows of the engine feed complete, each with the next state stated: PREFETCH_DONE, FIFO_FULL, FEED_COVER_TIMEOUT, STROBE_EDGE,
STROBE_EARLY, FRAME_END, INDEX_PULSE, FIFO_BOOKS_CHECK, LID_SEND, STATUS_FRAME, LANE_FAILING, SPARE_STATUS_OK, SPARE_TIMEOUT, BLOCK_LOCK. -/
def Obligations.FeedRowsComplete : Prop :=
  -- PREFETCH_DONE (R306)
  (∀ (stream : Nat) (bad : List Nat) (near : List NearErr) (s : State), ¬(s.dstate == .freeze || s.dstate == .fault) → exec (.prefetchDone
    stream bad near) s =
      .next (s.prefetchDone stream bad near)) ∧
  -- FIFO_FULL (R301)
  (∀ (stream : Nat) (s : State), exec (.fifoFull stream) s = .next (s.fifoFull stream)) ∧
  -- FEED_COVER_TIMEOUT (R329)
  (∀ (stream : Nat) (s : State), ∀ x, s.fstream stream = some x → (x.asked.isSome && x.reported.isNone && x.startedAt + 10000 ≤ s.now) →
    exec (.feedCoverTimeout stream) s =
      .next (((s.updStream stream (fun y => { y with reported := some false })).feedFault stream 6 x.seq).answerStart stream)) ∧
  -- STROBE_EDGE (R309)
  (∀ (tile stb : Nat) (s : State), tile < s.tiles → stb < 2 → exec (.strobeEdge tile stb) s = .next (s.strobe tile stb)) ∧
  -- STROBE_EARLY (R312)
  (∀ (tile stb : Nat) (s : State), tile < s.tiles → stb < 2 → ((s.strobed tile stb).any (fun n => (s.fstream n).any (fun x => x.st == 4 &&
    x.out.isSome && x.skip == 0))) → exec (.strobeEarly tile stb) s =
      .next (s.strobe tile stb)) ∧
  -- FRAME_END (R301)
  (∀ (stream : Nat) (s : State), exec (.frameEnd stream) s = .next (s.frameEnd stream)) ∧
  -- INDEX_PULSE (R309)
  (∀ (tile : Nat) (s : State), tile < s.tiles → exec (.indexPulse tile) s = .next (s.indexPulse tile)) ∧
  -- FIFO_BOOKS_CHECK (R308)
  (∀ (tile : Nat) (s : State), tile < s.tiles → s.feed.streams.any (fun x => feedTileOf x.cfg.num == tile && x.reserved != x.flight.length) →
    exec (.fifoBooksCheck tile) s =
      .next ((s.updFeed (fun d => { d with streams := d.streams.map (fun x =>
        if feedTileOf x.cfg.num = tile then { x with reserved := x.flight.length } else x) })).evRec tile FED.EVENTS.BOOKS 0)) ∧
  -- LID_SEND (R316)
  (∀ (tile : Nat) (s : State), tile < s.tiles → exec (.lidSend tile) s =
      .next ((List.range 5).foldl (fun a l => if (a.fld tile FED.LANES.POWERED).testBit l then a.send (.feed tile l 2 (a.lid tile l)) else
        a) s)) ∧
  -- STATUS_FRAME (R317)
  (∀ (tile lane : Nat) (data : List Byte) (crc : Nat) (s : State), tile < s.tiles → lane < 5 → exec (.statusFrame tile lane data crc) s =
      .next (s.statusFrame tile lane data crc)) ∧
  -- LANE_FAILING (R318)
  (∀ (tile lane : Nat) (s : State), tile < s.tiles → lane < 4 →
    ∀ s1, s1 = s.setF tile FED.LANES.LOCK (setBit (s.fld tile FED.LANES.LOCK) lane false) →
    s1.now < (s1.ftile tile).okAt lane + 1000 → s1.laneFails tile lane →
    ¬(((s1.ev tile FED.EVENTS.LANE_FAILING).feedFault (tile * 5 + lane) 1 0).flag tile FED.CTRL.SPARE_EN) →
    exec (.laneFailing tile lane true) s = .next ((s1.ev tile FED.EVENTS.LANE_FAILING).feedFault (tile * 5 + lane) 1 0)) ∧
  -- SPARE_STATUS_OK (R318)
  (∀ (tile : Nat) (s : State), tile < s.tiles → ∀ l, (s.ftile tile).spareFor = some l → ¬((s.ftile tile).spareUp) → ¬((s.ftile tile).back) →
    (s.ftile tile).spareAt ≤ (s.ftile tile).okAt 4 → (amapFind 4 (s.ftile tile).lastOk).isSome →
    exec (.spareStatusOk tile) s = .next (((s.laneUp tile).ev tile FED.EVENTS.LANE_SPARED).feedFault (tile * 5 + l) 2 0)) ∧
  -- SPARE_TIMEOUT (R318)
  (∀ (tile : Nat) (s : State), tile < s.tiles → ∀ l, (s.ftile tile).spareFor = some l → ¬((s.ftile tile).spareUp) → ¬((s.ftile tile).back) →
    (s.ftile tile).spareAt + 1000 ≤ s.now →
    exec (.spareTimeout tile) s =
      .next ((((s.updFtile tile (fun x => { x with spareFor := none })).setFs tile
        [(FED.LANES.POWERED, setBit (s.fld tile FED.LANES.POWERED) 4 false), (FED.LANES.SPARE_FOR, 7)]).ev tile
          FED.EVENTS.SPARE_FAIL).feedFault (tile * 5 + l) 3 0)) ∧
  -- BLOCK_LOCK (R313)
  (∀ (tile lane : Nat) (s : State), tile < s.tiles → lane < 5 → exec (.blockLock tile lane) s =
      .next (s.setF tile FED.LANES.LOCK (setBit (s.fld tile FED.LANES.LOCK) lane true)))

/-- The rows of register writes complete, each with the next state stated: REGISTER_WRITE. -/
def Obligations.RegisterWriteCompletes : Prop :=
  -- REGISTER_WRITE (R354)
  (∀ (tile blk off : Nat) (value : Word) (s : State), tile < s.tiles → tile ≠ 15 → blockIds.contains blk →
    exec (.registerWrite tile blk off value) s = .next (s.writeReg tile blk off (2 ^ 32 - 1) value.toNat))
end

