-- ==== Sys2Proof/Laws/Maps.lean ====
section
/-! SUPPORT. Laws of the canonical association lists: what a key reads as after a write, and that writes keep the canonical form. -/

namespace Sys2Proof.Machine

variable {α : Type}

theorem amapFind_erase_self (k : Nat) (l : List (Nat × α)) : amapFind k (amapErase k l) = none := by
  induction l with
  | nil => rfl
  | cons e l ih =>
    obtain ⟨k', v⟩ := e
    by_cases h : k' = k
    · simpa [amapErase, h] using ih
    · simp only [amapErase, List.filter_cons, bne_iff_ne, ne_eq, h, not_false_eq_true, if_true, amapFind, if_false]
      exact ih

theorem amapFind_erase_ne {k j : Nat} (h : j ≠ k) (l : List (Nat × α)) : amapFind j (amapErase k l) = amapFind j l := by
  induction l with
  | nil => rfl
  | cons e l ih =>
    obtain ⟨k', v⟩ := e
    by_cases hk : k' = k
    · have : k' ≠ j := fun e => h (e.symm.trans hk)
      simpa [amapErase, hk, amapFind, show k ≠ j from fun e => h e.symm] using ih
    · simp only [amapErase, List.filter_cons, bne_iff_ne, ne_eq, hk, not_false_eq_true, if_true, amapFind]
      split
      · rfl
      · exact ih

theorem amapFind_insert_self (k : Nat) (v : α) (l : List (Nat × α)) (h : amapFind k l = none) :
    amapFind k (amapInsert k v l) = some v := by
  induction l with
  | nil => simp [amapInsert, amapFind]
  | cons e l ih =>
    obtain ⟨k', v'⟩ := e
    have hk : k' ≠ k := by rintro rfl; simp [amapFind] at h
    have ht : amapFind k l = none := by simpa [amapFind, hk] using h
    simp only [amapInsert]
    split
    · simp [amapFind]
    · simp [amapFind, hk, ih ht]

theorem amapFind_insert_ne {k j : Nat} (h : j ≠ k) (v : α) (l : List (Nat × α)) :
    amapFind j (amapInsert k v l) = amapFind j l := by
  induction l with
  | nil => simp [amapInsert, amapFind, Ne.symm h]
  | cons e l ih =>
    obtain ⟨k', v'⟩ := e
    simp only [amapInsert]
    split
    · simp [amapFind, Ne.symm h]
    · simp only [amapFind, ih]

variable [DecidableEq α]

/-- A key reads as what was written to it. -/
@[simp] theorem amapGet_set_self (d : α) (l : List (Nat × α)) (k : Nat) (v : α) : amapGet d (amapSet d l k v) k = v := by
  unfold amapGet amapSet
  split
  · rename_i h; simp [amapFind_erase_self, h]
  · simp [amapFind_insert_self k v _ (amapFind_erase_self k l)]

/-- A write leaves every other key as it was. -/
theorem amapGet_set_ne (d d' : α) (l : List (Nat × α)) {k j : Nat} (v : α) (h : j ≠ k) :
    amapGet d' (amapSet d l k v) j = amapGet d' l j := by
  unfold amapGet amapSet
  split
  · rw [amapFind_erase_ne h]
  · rw [amapFind_insert_ne h, amapFind_erase_ne h]

/-- The canonical form, as a property of all entries and all pairs. -/
theorem amapWf_iff (d : Nat → α) (l : List (Nat × α)) :
    amapWf d l = true ↔ l.Pairwise (fun a b => a.1 < b.1) ∧ ∀ e ∈ l, e.2 ≠ d e.1 := by
  induction l with
  | nil => simp [amapWf]
  | cons e l ih =>
    obtain ⟨k, v⟩ := e
    cases l with
    | nil => simp [amapWf]
    | cons e' l =>
      obtain ⟨k', v'⟩ := e'
      simp only [amapWf, Bool.and_eq_true, bne_iff_ne, ne_eq, decide_eq_true_eq, ih]
      constructor
      · rintro ⟨⟨hv, hk⟩, hp, hd⟩
        refine ⟨List.pairwise_cons.2 ⟨?_, hp⟩, ?_⟩
        · intro b hb
          rcases List.mem_cons.1 hb with rfl | hb
          · exact hk
          · exact lt_trans hk ((List.pairwise_cons.1 hp).1 b hb)
        · intro b hb
          rcases List.mem_cons.1 hb with rfl | hb
          · exact hv
          · exact hd b hb
      · rintro ⟨hp, hd⟩
        have := List.pairwise_cons.1 hp
        exact ⟨⟨hd (k, v) (by simp), this.1 (k', v') (by simp)⟩, this.2, fun b hb => hd b (List.mem_cons_of_mem _ hb)⟩

/-- Dropping entries keeps the canonical form. -/
theorem amapWf_filter (d : Nat → α) (p : Nat × α → Bool) (l : List (Nat × α)) (h : amapWf d l = true) :
    amapWf d (l.filter p) = true := by
  rw [amapWf_iff] at h ⊢
  exact ⟨h.1.filter p, fun e he => h.2 e (List.mem_of_mem_filter he)⟩

omit [DecidableEq α] in
theorem mem_amapInsert (k : Nat) (v : α) (l : List (Nat × α)) (e : Nat × α) (h : e ∈ amapInsert k v l) : e = (k, v) ∨ e ∈ l := by
  induction l with
  | nil => simpa [amapInsert] using h
  | cons a l ih =>
    simp only [amapInsert] at h
    split at h
    · simpa using h
    · rcases List.mem_cons.1 h with rfl | h
      · simp
      · rcases ih h with h | h
        · exact .inl h
        · exact .inr (List.mem_cons_of_mem _ h)

omit [DecidableEq α] in
theorem pairwise_amapInsert (k : Nat) (v : α) (l : List (Nat × α)) (h : l.Pairwise (fun a b => a.1 < b.1))
    (hk : ∀ e ∈ l, e.1 ≠ k) : (amapInsert k v l).Pairwise (fun a b => a.1 < b.1) := by
  induction l with
  | nil => simp [amapInsert]
  | cons a l ih =>
    simp only [amapInsert]
    have hp := List.pairwise_cons.1 h
    split
    · rename_i hlt
      refine List.pairwise_cons.2 ⟨?_, h⟩
      intro b hb
      rcases List.mem_cons.1 hb with rfl | hb
      · exact hlt
      · exact lt_trans hlt (hp.1 b hb)
    · rename_i hle
      have ha : a.1 < k := lt_of_le_of_ne (not_lt.1 hle) (hk a (by simp))
      refine List.pairwise_cons.2 ⟨?_, ih hp.2 (fun e he => hk e (List.mem_cons_of_mem _ he))⟩
      intro b hb
      rcases mem_amapInsert k v l b hb with rfl | hb
      · exact ha
      · exact hp.1 b hb

/-- A write keeps the canonical form. -/
theorem amapWf_set (d : Nat → α) (l : List (Nat × α)) (k : Nat) (v : α) (h : amapWf d l = true) :
    amapWf d (amapSet (d k) l k v) = true := by
  unfold amapSet
  split
  · exact amapWf_filter d _ l h
  · rename_i hv
    have he := amapWf_filter d (fun e => e.1 != k) l h
    rw [amapWf_iff] at he ⊢
    refine ⟨pairwise_amapInsert k v _ he.1 (fun e h => by simpa using (List.mem_filter.1 h).2), ?_⟩
    intro e h
    rcases mem_amapInsert k v _ e h with rfl | h
    · exact hv
    · exact he.2 e h

end Sys2Proof.Machine
end

