-- ==== Sys2Proof/Laws/Fields.lean ====
section
/-! SUPPORT. Laws of register words and fields: what a field reads as after a write of it, of another field of its register, of another
register. -/

namespace Sys2Proof.Machine

/-! ### Fields of a word -/

/-- A word taken apart at a field: what lies above it, the field, what lies below. -/
theorem word_parts (n lo w : Nat) : n = (n / 2 ^ (lo + w) * 2 ^ w + n / 2 ^ lo % 2 ^ w) * 2 ^ lo + n % 2 ^ lo := by
  have h1 : n / 2 ^ (lo + w) = n / 2 ^ lo / 2 ^ w := by rw [pow_add, Nat.div_div_eq_div_mul]
  rw [h1, Nat.div_add_mod', Nat.div_add_mod']

/-- What `wordSet` builds: the parts above and below with the new field. -/
theorem wordSet_toNat (x : Word) (lo w v : Nat) (h : lo + w ≤ 32) :
    (wordSet x lo w v).toNat = (x.toNat / 2 ^ (lo + w) * 2 ^ w + v % 2 ^ w) * 2 ^ lo + x.toNat % 2 ^ lo := by
  have hp := word_parts x.toNat lo w
  have hx : x.toNat < 2 ^ 32 := x.isLt
  have hv : v % 2 ^ w < 2 ^ w := Nat.mod_lt _ (by positivity)
  have hc : x.toNat % 2 ^ lo < 2 ^ lo := Nat.mod_lt _ (by positivity)
  have ha : x.toNat / 2 ^ (lo + w) + 1 ≤ 2 ^ (32 - (lo + w)) := by
    apply Nat.div_lt_of_lt_mul
    rw [← pow_add, show lo + w + (32 - (lo + w)) = 32 by omega]; exact hx
  have hk : (2 : Nat) ^ 32 = 2 ^ (32 - (lo + w)) * (2 ^ w * 2 ^ lo) := by
    rw [← pow_add, ← pow_add]; congr 1; omega
  unfold wordSet wordField
  generalize hA : x.toNat / 2 ^ (lo + w) = a at *
  generalize hB : x.toNat / 2 ^ lo % 2 ^ w = b at *
  generalize hC : x.toNat % 2 ^ lo = c at *
  have e : x.toNat - b * 2 ^ lo + v % 2 ^ w * 2 ^ lo = (a * 2 ^ w + v % 2 ^ w) * 2 ^ lo + c := by
    have : x.toNat - b * 2 ^ lo = a * 2 ^ w * 2 ^ lo + c := by rw [hp, Nat.add_mul]; omega
    rw [this, Nat.add_mul]; omega
  rw [e, BitVec.toNat_ofNat]
  apply Nat.mod_eq_of_lt
  have h1 : a * 2 ^ w + v % 2 ^ w + 1 ≤ (a + 1) * 2 ^ w := by rw [Nat.add_mul]; omega
  have h2 : (a * 2 ^ w + v % 2 ^ w + 1) * 2 ^ lo ≤ (a + 1) * 2 ^ w * 2 ^ lo := Nat.mul_le_mul_right _ h1
  have h3 : (a + 1) * 2 ^ w * 2 ^ lo ≤ 2 ^ 32 := by
    rw [hk, Nat.mul_assoc]; exact Nat.mul_le_mul_right _ ha
  calc (a * 2 ^ w + v % 2 ^ w) * 2 ^ lo + c < (a * 2 ^ w + v % 2 ^ w) * 2 ^ lo + 2 ^ lo := by omega
    _ = (a * 2 ^ w + v % 2 ^ w + 1) * 2 ^ lo := by rw [Nat.add_mul _ 1, Nat.one_mul]
    _ ≤ 2 ^ 32 := le_trans h2 h3

/-- A field reads as what was written to it. -/
theorem wordField_wordSet_self (x : Word) (lo w v : Nat) (h : lo + w ≤ 32) : wordField (wordSet x lo w v) lo w = v % 2 ^ w := by
  unfold wordField
  rw [wordSet_toNat x lo w v h, Nat.mul_comm, Nat.mul_add_div (by positivity), Nat.div_eq_of_lt (Nat.mod_lt _ (by positivity)),
    Nat.add_zero, Nat.mul_comm, Nat.mul_add_mod, Nat.mod_mod]

/-- A write of one field leaves a field apart from it. -/
theorem wordField_wordSet_ne (x : Word) (lo w v lo' w' : Nat) (h : lo + w ≤ 32) (hd : lo' + w' ≤ lo ∨ lo + w ≤ lo') :
    wordField (wordSet x lo w v) lo' w' = wordField x lo' w' := by
  unfold wordField
  rw [wordSet_toNat x lo w v h]
  rcases hd with hd | hd
  · have key : ∀ n : Nat, n / 2 ^ lo' % 2 ^ w' = n % 2 ^ lo % 2 ^ (lo' + w') / 2 ^ lo' := by
      intro n
      rw [Nat.mod_mod_of_dvd _ (pow_dvd_pow 2 hd), pow_add, Nat.mod_mul_right_div_self]
    rw [key, key x.toNat, Nat.mul_add_mod_self_right, Nat.mod_mod]
  · have key : ∀ n : Nat, n / 2 ^ lo' = n / 2 ^ (lo + w) / 2 ^ (lo' - (lo + w)) := by
      intro n
      rw [Nat.div_div_eq_div_mul, ← pow_add, show lo + w + (lo' - (lo + w)) = lo' by omega]
    rw [key, key x.toNat]
    congr 2
    have hv : v % 2 ^ w < 2 ^ w := Nat.mod_lt _ (by positivity)
    rw [pow_add, ← Nat.div_div_eq_div_mul _ (2 ^ lo) (2 ^ w), Nat.mul_comm _ (2 ^ lo), Nat.mul_add_div (by positivity),
      Nat.div_eq_of_lt (Nat.mod_lt _ (by positivity)), Nat.add_zero, Nat.mul_comm _ (2 ^ w), Nat.mul_add_div (by positivity),
      Nat.div_eq_of_lt hv, Nat.add_zero]

/-! ### Registers -/

@[simp] theorem word_setWord_self (s : State) (t b o : Nat) (v : Word) : (s.setWord t b o v).word t b o = v := by
  simp [State.setWord, State.word]

theorem word_setWord_ne (s : State) (t b o t' b' o' : Nat) (v : Word) (h : regKey t' b' o' ≠ regKey t b o) :
    (s.setWord t b o v).word t' b' o' = s.word t' b' o' := by
  unfold State.setWord State.word
  exact amapGet_set_ne _ _ _ _ h

/-- A field reads as what was written to it. -/
theorem fld_setF_self (s : State) (t : Nat) (f : Fld) (v : Nat) (h : f.lo + f.w ≤ 32) : (s.setF t f v).fld t f = v % 2 ^ f.w := by
  simp [State.setF, State.fld, wordField_wordSet_self _ _ _ _ h]

/-- A write of a field leaves the other fields of its register. -/
theorem fld_setF_other (s : State) (t : Nat) (f g : Fld) (v : Nat) (h : f.lo + f.w ≤ 32) (hb : g.blk = f.blk) (ho : g.off = f.off)
    (hd : g.lo + g.w ≤ f.lo ∨ f.lo + f.w ≤ g.lo) : (s.setF t f v).fld t g = s.fld t g := by
  simp [State.setF, State.fld, hb, ho, wordField_wordSet_ne _ _ _ _ _ _ h hd]

/-- A write of a field leaves every other register. -/
theorem fld_setF_ne (s : State) (t t' : Nat) (f g : Fld) (v : Nat) (h : regKey t' g.blk g.off ≠ regKey t f.blk f.off) :
    (s.setF t f v).fld t' g = s.fld t' g := by
  unfold State.setF State.fld
  rw [word_setWord_ne _ _ _ _ _ _ _ _ h]

theorem word_setF_ne (s : State) (t t' b o : Nat) (f : Fld) (v : Nat) (h : regKey t' b o ≠ regKey t f.blk f.off) :
    (s.setF t f v).word t' b o = s.word t' b o := word_setWord_ne _ _ _ _ _ _ _ _ h

end Sys2Proof.Machine
end

