-- ==== Sys2Proof/Laws/Keep.lean ====
section
/-! SUPPORT. What no command changes (`Keeps`): how it passes through the forms that meanings are built of. -/

namespace Sys2Proof.Machine

theorem Keeps.rfl (s : State) : Keeps s s := ⟨⟨Eq.refl _, Eq.refl _, Eq.refl _, Eq.refl _⟩, le_refl _, id, fun _ _ => BitVec.and_self⟩

theorem fusesKept_trans {a b c : State} (h : FusesKept a b) (k : FusesKept b c) : FusesKept a c := by
  intro i x
  have h1 := h i x
  have h2 := k i x
  rw [← h1, BitVec.and_assoc, h2]

theorem Keeps.trans {a b c : State} (h : Keeps a b) (k : Keeps b c) : Keeps a c := by
  obtain ⟨⟨h1, h2, h3, h4⟩, h5, h6, h7⟩ := h
  obtain ⟨⟨k1, k2, k3, k4⟩, k5, k6, k7⟩ := k
  exact ⟨⟨k1.trans h1, k2.trans h2, k3.trans h3, k4.trans h4⟩, h5.trans k5, fun x => k6 (h6 x), fusesKept_trans h7 k7⟩

/-- A state that differs in nothing that `Keeps` speaks of. -/
theorem Keeps.same {z s t : State} (h : Keeps z s) (h1 : t.pending = s.pending) (h2 : t.now = s.now) (h3 : t.tiles = s.tiles)
    (h4 : t.freeCtr = s.freeCtr) (h5 : t.mem = s.mem) (h6 : t.otp = s.otp) (h7 : t.board.soldered = s.board.soldered) : Keeps z t := by
  obtain ⟨⟨a1, a2, a3, a4⟩, a5, a6, a7⟩ := h
  refine ⟨⟨h1.trans a1, h2.trans a2, h3.trans a3, h7.trans a4⟩, h4 ▸ a5, fun x => ?_, fun c x => ?_⟩
  · have := a6 x
    unfold State.canonical at this ⊢
    rw [h5, h6]; exact this
  · have := a7 c x
    unfold State.otpByte at this ⊢
    rw [h6]; exact this

/-- A record update of any other fields. -/
theorem keeps_mk {z x : State} {regs : _} {recd mb kse nvs nv boot pow twb out ams cache firn frzRun net twin dram dec deep feed : _}
    (h : Keeps z x) :
    Keeps z ⟨x.pending, x.now, x.tiles, x.freeCtr, regs, x.mem, x.otp, recd, mb, kse, nvs, nv, boot, pow, twb, out, ams, cache, firn, frzRun, net,
      twin, x.board, dram, dec, deep, feed⟩ :=
  h.same (Eq.refl _) (Eq.refl _) (Eq.refl _) (Eq.refl _) (Eq.refl _) (Eq.refl _) (Eq.refl _)

theorem keeps_mk_iff {z x : State} {regs : _} {recd mb kse nvs nv boot pow twb out ams cache firn frzRun net twin dram dec deep feed : _} :
    Keeps z ⟨x.pending, x.now, x.tiles, x.freeCtr, regs, x.mem, x.otp, recd, mb, kse, nvs, nv, boot, pow, twb, out, ams, cache, firn, frzRun, net,
      twin, x.board, dram, dec, deep, feed⟩ ↔ Keeps z x :=
  ⟨fun h => h.same (Eq.refl _) (Eq.refl _) (Eq.refl _) (Eq.refl _) (Eq.refl _) (Eq.refl _) (Eq.refl _), keeps_mk⟩

theorem keeps_ite {z a b : State} {c : Prop} [Decidable c] (ha : Keeps z a) (hb : Keeps z b) : Keeps z (if c then a else b) := by
  split <;> assumption

theorem keeps_foldl {α : Type} {z s : State} {f : State → α → State} {l : List α} (hf : ∀ a x, Keeps z a → Keeps z (f a x)) (h : Keeps z s) :
    Keeps z (l.foldl f s) := by
  induction l generalizing s with
  | nil => exact h
  | cons x l ih => exact ih (hf s x h)

theorem ite_some_imp {c P : Prop} [Decidable c] {x : Option State} {u : State} (h : x = some u → P) : (if c then none else x) = some u → P := by
  split
  · intro e; cases e
  · exact h

theorem keeps_foldl_bind {α : Type} {z s u : State} {f : State → α → Option State} {l : List α}
    (hf : ∀ a x t, f a x = some t → Keeps z a → Keeps z t) (e : l.foldl (fun o x => o.bind (fun a => f a x)) (some s) = some u)
    (h : Keeps z s) : Keeps z u := by
  induction l generalizing s with
  | nil => cases e; exact h
  | cons x l ih =>
    simp only [List.foldl_cons, Option.bind_some] at e
    cases hx : f s x with
    | none =>
      rw [hx] at e
      have hn : ∀ l : List α, l.foldl (fun o x => o.bind (fun a => f a x)) none = none := by
        intro l; induction l with
        | nil => rfl
        | cons _ _ ih => exact ih
      rw [hn] at e; cases e
    | some t => rw [hx] at e; exact ih e (hf s x t hx h)

theorem keeps_foldl_snd {α β : Type} {z : State} {p : α × State} {f : α × State → β → α × State} {l : List β}
    (hf : ∀ a x, Keeps z a.2 → Keeps z (f a x).2) (h : Keeps z p.2) : Keeps z (l.foldl f p).2 := by
  induction l generalizing p with
  | nil => exact h
  | cons x l ih => exact ih (hf p x h)

theorem keeps_foldl_fst {α β : Type} {z : State} {p : State × α} {f : State × α → β → State × α} {l : List β}
    (hf : ∀ a x, Keeps z a.1 → Keeps z (f a x).1) (h : Keeps z p.1) : Keeps z (l.foldl f p).1 := by
  induction l generalizing p with
  | nil => exact h
  | cons x l ih => exact ih (hf p x h)

theorem keeps_snd {α : Type} {z t : State} {p : α × State} {v : α} (e : p = (v, t)) (h : Keeps z p.2) : Keeps z t := by
  subst e; exact h

theorem keeps_fst {α : Type} {z t : State} {p : State × α} {v : α} (e : p = (t, v)) (h : Keeps z p.1) : Keeps z t := by
  subst e; exact h

theorem keeps_getD {z d : State} {o : Option State} (ho : ∀ t, o = some t → Keeps z t) (hd : Keeps z d) : Keeps z (o.getD d) := by
  cases o with
  | none => exact hd
  | some t => exact ho t (Eq.refl _)

theorem keeps_iterate {z s : State} {f : State → State} {n : Nat} (hf : ∀ a, Keeps z a → Keeps z (f a)) (h : Keeps z s) :
    Keeps z (Nat.iterate f n s) := by
  induction n generalizing s with
  | zero => exact h
  | succ n ih => exact ih (hf s h)

theorem keeps_id {z s : State} (h : Keeps z s) : Keeps z (id s) := h

/-! ### The operations that write memory and fuses, and draw free values -/

/-- A change of memory that keeps its canonical form. -/
theorem keeps_mem {z s : State} {m : List Host.Cell} (h : Keeps z s) (hm : Memory.wf s.mem = true → Memory.wf m = true) :
    Keeps z { s with mem := m } := by
  refine h.trans ⟨⟨Eq.refl _, Eq.refl _, Eq.refl _, Eq.refl _⟩, le_refl _, fun x => ?_, fun _ _ => BitVec.and_self⟩
  unfold State.canonical at x ⊢
  rw [Bool.and_eq_true] at x ⊢
  exact ⟨hm x.1, x.2⟩

/-- A record update of any other fields that also takes n open values. -/
theorem keeps_mk_free {z x : State} {n : Nat} {regs : _} {recd mb kse nvs nv boot pow twb out ams cache firn frzRun net twin dram dec deep feed : _}
    (h : Keeps z x) :
    Keeps z ⟨x.pending, x.now, x.tiles, x.freeCtr + n, regs, x.mem, x.otp, recd, mb, kse, nvs, nv, boot, pow, twb, out, ams, cache, firn, frzRun,
      net, twin, x.board, dram, dec, deep, feed⟩ :=
  keeps_mk (x := { x with freeCtr := x.freeCtr + n })
    (h.trans ⟨⟨Eq.refl _, Eq.refl _, Eq.refl _, Eq.refl _⟩, Nat.le_add_right _ _, id, fun _ _ => BitVec.and_self⟩)

/-- A record update of any other fields that also drops bytes of memory. -/
theorem keeps_mk_filter {z x : State} {p : Host.Cell → Bool} {regs : _}
    {recd mb kse nvs nv boot pow twb out ams cache firn frzRun net twin dram dec deep feed : _} (h : Keeps z x) :
    Keeps z ⟨x.pending, x.now, x.tiles, x.freeCtr, regs, x.mem.filter p, x.otp, recd, mb, kse, nvs, nv, boot, pow, twb, out, ams, cache, firn,
      frzRun, net, twin, x.board, dram, dec, deep, feed⟩ :=
  keeps_mk (x := { x with mem := x.mem.filter p }) (keeps_mem h (fun y => amapWf_filter erasedByte p _ y))

theorem State.setByte_keeps {z s : State} (sp : Space) (t a : Nat) (b : Byte) (h : Keeps z s) : Keeps z (s.setByte sp t a b) := by
  unfold State.setByte
  generalize memKey sp t a = k
  exact keeps_mem h (fun x => amapWf_set erasedByte _ k _ x)

theorem State.setBytes_keeps {z s : State} (sp : Space) (t a : Nat) (bs : List Byte) (h : Keeps z s) : Keeps z (s.setBytes sp t a bs) := by
  induction bs generalizing s a with
  | nil => exact h
  | cons b bs ih => exact ih _ (State.setByte_keeps sp t a b h)

theorem State.wipe_keeps {z s : State} (sp : Space) (t a n : Nat) (h : Keeps z s) : Keeps z (s.wipe sp t a n) :=
  keeps_mem h (fun x => amapWf_filter erasedByte _ _ x)

theorem State.fuse_keeps {z s : State} (c a : Nat) (b : Byte) (h : Keeps z s) : Keeps z (s.fuse c a b) := by
  refine h.trans ⟨⟨Eq.refl _, Eq.refl _, Eq.refl _, Eq.refl _⟩, le_refl _, fun x => ?_, fun i x => ?_⟩
  · simp only [State.canonical, Bool.and_eq_true] at x ⊢
    exact ⟨x.1, amapWf_set (fun _ => (0 : Byte)) _ _ _ x.2⟩
  · simp only [State.otpByte, State.fuse]
    by_cases e : i * 4096 + x = c * 4096 + a
    · rw [e, amapGet_set_self]; ext k hk; simp; tauto
    · rw [amapGet_set_ne _ _ _ _ e, BitVec.and_self]

theorem State.fuseBytes_keeps {z s : State} (c a : Nat) (bs : List Byte) (h : Keeps z s) : Keeps z (s.fuseBytes c a bs) := by
  induction bs generalizing s a with
  | nil => exact h
  | cons b bs ih => exact ih _ (State.fuse_keeps c a b h)

theorem State.draw_keeps {z s : State} (h : Keeps z s) : Keeps z s.draw.2 :=
  h.trans ⟨⟨Eq.refl _, Eq.refl _, Eq.refl _, Eq.refl _⟩, Nat.le_succ _, id, fun _ _ => BitVec.and_self⟩

/-! ### Commands and outcomes -/

/-- A mailbox command's execution keeps, and so does what follows its response. -/
def CmdOut.Keeps (z : State) (o : CmdOut) : Prop := Machine.Keeps z o.s ∧ ∀ a, Machine.Keeps z a → Machine.Keeps z (o.after a)

/-- Every execution of a command keeps. -/
def Cmd.Keeps (c : Cmd) : Prop := ∀ z k pl s, Machine.Keeps z s → (c.run k pl s).Keeps z

theorem Cmd.mk_keeps_iff {o : Nat} {r : List Nat} {cl : CmdClass} {ac mi : Bool} {ri ck re run : _} :
    (Cmd.mk o r cl ac mi ri ck re run).Keeps ↔ ∀ z k pl s, Machine.Keeps z s → (run k pl s).Keeps z := Iff.rfl

theorem Cmd.out_keeps {c : Cmd} (hc : c.Keeps) {z s : State} {k : Caller} {pl : List Byte} (h : Machine.Keeps z s) : (c.run k pl s).Keeps z :=
  hc z k pl s h

theorem CmdOut.s_keeps {z : State} {o : CmdOut} (h : o.Keeps z) : Machine.Keeps z o.s := h.1

theorem CmdOut.after_keeps {z a : State} {o : CmdOut} (h : o.Keeps z) (ha : Machine.Keeps z a) : Machine.Keeps z (o.after a) := h.2 a ha

theorem CmdOut.done_keeps {z s : State} (st : Status) (h : Machine.Keeps z s) : (CmdOut.done s st).Keeps z := ⟨h, fun _ h => h⟩

theorem CmdOut.reply_keeps {z s : State} (pl : List Byte) (h : Machine.Keeps z s) : (CmdOut.reply s pl).Keeps z := ⟨h, fun _ h => h⟩

theorem CmdOut.mk_keeps {z s : State} {st : Status} {pl : List Byte} {f : State → State} {w : Option (Nat × Nat)} (h : Machine.Keeps z s)
    (hf : ∀ a, Machine.Keeps z a → Machine.Keeps z (f a)) : (CmdOut.mk s st pl f w).Keeps z := ⟨h, hf⟩

theorem CmdOut.mk_keeps_iff {z s : State} {st : Status} {pl : List Byte} {f : State → State} {w : Option (Nat × Nat)} :
    (CmdOut.mk s st pl f w).Keeps z ↔ Machine.Keeps z s ∧ ∀ a, Machine.Keeps z a → Machine.Keeps z (f a) := Iff.rfl

theorem CmdOut.ite_keeps {z : State} {a b : CmdOut} {c : Prop} [Decidable c] (ha : a.Keeps z) (hb : b.Keeps z) :
    (if c then a else b).Keeps z := by
  split <;> assumption

theorem outKeeps_next {z t : State} (h : Keeps z t) : OutKeeps z (.next t) := by
  intro u e; cases e; exact h

theorem outKeeps_fault {z : State} (f : Fault) : OutKeeps z (.fault f) := nomatch f

theorem outKeeps_ite {z : State} {a b : Host.Outcome State Fault Refusal} {c : Prop} [Decidable c] (ha : OutKeeps z a) (hb : OutKeeps z b) :
    OutKeeps z (if c then a else b) := by
  split <;> assumption

end Sys2Proof.Machine
end

