-- ==== Sys2Proof/Laws/KeepFlags.lean ====
section
/-! SUPPORT. What no command changes is kept by every function of `Machine/Flags.lean`. -/

set_option linter.all false

namespace Sys2Proof.Machine

theorem State.setWord_keeps {z : State} (s : State) (t blk off : Nat) (v : Word) (h_s : Machine.Keeps z s) : Machine.Keeps z (State.setWord s t blk off v) := by
  unfold State.setWord
  try dsimp only
  repeat' (first | with_reducible (first | assumption | intro _) | simp only [keeps_mk_iff])

theorem State.setF_keeps {z : State} (s : State) (t : Nat) (f : Fld) (v : Nat) (h_s : Machine.Keeps z s) : Machine.Keeps z (State.setF s t f v) := by
  unfold State.setF
  try dsimp only
  repeat' (first | with_reducible (first | assumption | intro _ | apply State.setWord_keeps))

theorem State.setFs_keeps {z : State} (s : State) (t : Nat) (l : List (Fld × Nat)) (h_s : Machine.Keeps z s) : Machine.Keeps z (State.setFs s t l) := by
  unfold State.setFs
  try dsimp only
  repeat' (first | with_reducible (first | assumption | intro _ | apply State.setF_keeps | apply keeps_foldl | apply keeps_foldl_snd | apply keeps_foldl_fst))

theorem State.bump_keeps {z : State} (s : State) (t : Nat) (f : Fld) (n : Nat) (h_s : Machine.Keeps z s) : Machine.Keeps z (State.bump s t f n) := by
  unfold State.bump
  try dsimp only
  repeat' (first | with_reducible (first | assumption | intro _ | apply State.setF_keeps))

theorem State.drop_keeps {z : State} (s : State) (t : Nat) (f : Fld) (n : Nat) (h_s : Machine.Keeps z s) : Machine.Keeps z (State.drop s t f n) := by
  unfold State.drop
  try dsimp only
  repeat' (first | with_reducible (first | assumption | intro _ | apply State.setF_keeps))

theorem State.ev_keeps {z : State} (s : State) (t : Nat) (f : Fld) (h_s : Machine.Keeps z s) : Machine.Keeps z (State.ev s t f) := by
  unfold State.ev
  try dsimp only
  repeat' (first | with_reducible (first | assumption | intro _ | apply State.bump_keeps | apply State.setF_keeps))

theorem State.allTiles_keeps {z : State} (s : State) (f : Nat → State → State) (h_s : Machine.Keeps z s) (h_f : ∀ a0 a1, Machine.Keeps z a1 → Machine.Keeps z (f a0 a1)) : Machine.Keeps z (State.allTiles s f) := by
  unfold State.allTiles
  try dsimp only
  repeat' (first | with_reducible (first | assumption | intro _ | apply h_f | apply keeps_foldl | apply keeps_foldl_snd | apply keeps_foldl_fst))

theorem State.setAll_keeps {z : State} (s : State) (f : Fld) (v : Nat) (h_s : Machine.Keeps z s) : Machine.Keeps z (State.setAll s f v) := by
  unfold State.setAll
  try dsimp only
  repeat' (first | with_reducible (first | assumption | intro _ | apply State.allTiles_keeps | apply State.setF_keeps))

theorem State.setCause_keeps {z : State} (s : State) (n : Nat) (b : Bool) (h_s : Machine.Keeps z s) : Machine.Keeps z (State.setCause s n b) := by
  unfold State.setCause
  try dsimp only
  repeat' (first | with_reducible (first | assumption | intro _ | apply State.setF_keeps))

theorem onTile_keeps {z : State} (t : Nat) (s : State) (x : State) (h_s : Machine.Keeps z s) (h_x : Machine.Keeps z x) : OutKeeps z (onTile t s x) := by
  unfold onTile
  try dsimp only
  repeat' (first | with_reducible (first | assumption | intro _ | apply keeps_ite | apply outKeeps_next | apply outKeeps_ite) | split)

theorem onUnit_keeps {z : State} (t u n : Nat) (s : State) (x : State) (h_s : Machine.Keeps z s) (h_x : Machine.Keeps z x) : OutKeeps z (onUnit t u n s x) := by
  unfold onUnit
  try dsimp only
  repeat' (first | with_reducible (first | assumption | intro _ | apply keeps_ite | apply outKeeps_next | apply outKeeps_ite) | split)

end Sys2Proof.Machine
end

