-- ==== Sys2Proof/Laws/KeepRequester.lean ====
section
/-! SUPPORT. What no command changes is kept by every function of `Machine/Requester.lean`. -/

set_option linter.all false

namespace Sys2Proof.Machine

theorem State.send_keeps {z : State} (s : State) (o : Out) (h_s : Machine.Keeps z s) : Machine.Keeps z (State.send s o) := by
  unfold State.send
  try dsimp only
  repeat' (first | with_reducible (first | assumption | intro _) | simp only [keeps_mk_iff])

theorem State.updNet_keeps {z : State} (s : State) (f : Net → Net) (h_s : Machine.Keeps z s) : Machine.Keeps z (State.updNet s f) := by
  unfold State.updNet
  try dsimp only
  repeat' (first | with_reducible (first | assumption | intro _) | simp only [keeps_mk_iff])

theorem State.updQp_keeps {z : State} (s : State) (n : Nat) (f : Qp → Qp) (h_s : Machine.Keeps z s) : Machine.Keeps z (State.updQp s n f) := by
  unfold State.updQp
  try dsimp only
  repeat' (first | with_reducible (first | assumption | intro _ | apply State.updNet_keeps | apply keeps_ite) | simp only [keeps_mk_iff] | split)

theorem State.xmit_keeps {z : State} (s : State) (t port prio : Nat) (o : Out) (h_s : Machine.Keeps z s) : Machine.Keeps z (State.xmit s t port prio o) := by
  unfold State.xmit
  try dsimp only
  repeat' (first | with_reducible (first | assumption | intro _ | apply State.bump_keeps | apply State.send_keeps | apply State.updNet_keeps | apply keeps_ite) | simp only [keeps_mk_iff] | split)

theorem State.packet_keeps {z : State} (s : State) (q : Qp) (opcode psn syn : Nat) (data : List Byte) (h_s : Machine.Keeps z s) : Machine.Keeps z (State.packet s q opcode psn syn data) := by
  unfold State.packet
  try dsimp only
  repeat' (first | with_reducible (first | assumption | intro _ | apply State.xmit_keeps | apply keeps_ite) | split)

theorem State.transmit_keeps {z : State} (s : State) (q : Qp) (p : SentPkt) (h_s : Machine.Keeps z s) : Machine.Keeps z (State.transmit s q p) := by
  unfold State.transmit
  try dsimp only
  repeat' (first | with_reducible (first | assumption | intro _ | apply State.packet_keeps | apply keeps_ite) | split)

theorem State.request_keeps {z : State} (s : State) (n : Nat) (ps : List SentPkt) (h_s : Machine.Keeps z s) : Machine.Keeps z (State.request s n ps) := by
  unfold State.request
  try dsimp only
  repeat' (first | with_reducible (first | assumption | apply ite_some_imp | intro _ | apply State.transmit_keeps | apply State.updQp_keeps | apply keeps_foldl | apply keeps_foldl_snd | apply keeps_foldl_fst | apply keeps_ite) | simp only [keeps_mk_iff] | (refine keeps_snd (by with_reducible assumption) ?_) | (refine keeps_fst (by with_reducible assumption) ?_) | split)

theorem State.sendGo_keeps {z : State} (s : State) (n : Nat) (i0 : Nat) (h_s : Machine.Keeps z s) : Machine.Keeps z (State.sendGo s n i0) := by
  induction i0 generalizing s with
  | zero => exact h_s
  | succ k ih =>
    unfold State.sendGo
    try dsimp only
    repeat' (first | with_reducible assumption | with_reducible intro _ | with_reducible apply ih | with_reducible apply State.request_keeps | with_reducible apply State.updQp_keeps | with_reducible apply keeps_ite | simp only [keeps_mk_iff] | (refine keeps_snd (by with_reducible assumption) ?_) | (refine keeps_fst (by with_reducible assumption) ?_) | split)

theorem State.pumpSend_keeps {z : State} (s : State) (n : Nat) (h_s : Machine.Keeps z s) : Machine.Keeps z (State.pumpSend s n) := by
  unfold State.pumpSend
  try dsimp only
  repeat' (first | with_reducible (first | assumption | intro _ | apply State.sendGo_keeps | apply keeps_getD))

theorem State.pointMsg_keeps {z : State} (s : State) (p : Nat) (bs : List Byte) (h_s : Machine.Keeps z s) : Machine.Keeps z (State.pointMsg s p bs) := by
  unfold State.pointMsg
  try dsimp only
  repeat' (first | with_reducible (first | assumption | apply ite_some_imp | intro _ | apply State.pumpSend_keeps | apply State.updQp_keeps) | simp only [keeps_mk_iff] | (refine keeps_snd (by with_reducible assumption) ?_) | (refine keeps_fst (by with_reducible assumption) ?_) | split)

end Sys2Proof.Machine
end

