-- ==== Sys2Proof/Laws/KeepOps.lean ====
section
/-! SUPPORT. What no command changes is kept by every function of `Machine/Ops.lean`. -/

set_option linter.all false

namespace Sys2Proof.Machine

theorem State.updArray_keeps {z : State} (s : State) (t : Nat) (f : NvsTile → NvsTile) (h_s : Machine.Keeps z s) : Machine.Keeps z (State.updArray s t f) := by
  unfold State.updArray
  try dsimp only
  repeat' (first | with_reducible (first | assumption | intro _) | simp only [keeps_mk_iff])

theorem State.eraseSectors_keeps {z : State} (s : State) (t a n : Nat) (h_s : Machine.Keeps z s) : Machine.Keeps z (State.eraseSectors s t a n) := by
  unfold State.eraseSectors
  try dsimp only
  repeat' (first | with_reducible (first | assumption | intro _ | apply State.bump_keeps | apply State.updArray_keeps | apply State.wipe_keeps | apply keeps_foldl | apply keeps_foldl_snd | apply keeps_foldl_fst) | simp only [keeps_mk_iff])

theorem State.programBytes_keeps {z : State} (s : State) (t a : Nat) (bs : List Byte) (h_s : Machine.Keeps z s) : Machine.Keeps z (State.programBytes s t a bs) := by
  unfold State.programBytes
  try dsimp only
  repeat' (first | with_reducible (first | assumption | intro _ | apply State.bump_keeps | apply State.setBytes_keeps))

theorem State.sense_keeps {z : State} (s : State) (t : Nat) (f : Fld) (h_s : Machine.Keeps z s) : Machine.Keeps z (State.sense s t f) := by
  unfold State.sense
  try dsimp only
  repeat' (first | with_reducible (first | assumption | intro _ | apply State.draw_keeps | apply State.setF_keeps) | (refine keeps_snd (by with_reducible assumption) ?_) | (refine keeps_fst (by with_reducible assumption) ?_) | split)

theorem State.senseReg_keeps {z : State} (s : State) (t blk off : Nat) (h_s : Machine.Keeps z s) : Machine.Keeps z (State.senseReg s t blk off) := by
  unfold State.senseReg
  try dsimp only
  repeat' (first | with_reducible (first | assumption | intro _ | apply State.sense_keeps | apply keeps_foldl | apply keeps_foldl_snd | apply keeps_foldl_fst))

theorem State.setCfg_keeps {z : State} (s : State) (k v : Nat) (h_s : Machine.Keeps z s) : Machine.Keeps z (State.setCfg s k v) := by
  unfold State.setCfg
  try dsimp only
  repeat' (first | with_reducible (first | assumption | intro _) | simp only [keeps_mk_iff])

theorem State.config_keeps {z : State} (s : State) (t : Nat) (f : Fld) (v : Nat) (h_s : Machine.Keeps z s) : Machine.Keeps z (State.config s t f v) := by
  unfold State.config
  try dsimp only
  repeat' (first | with_reducible (first | assumption | intro _ | apply State.setCfg_keeps | apply State.setF_keeps))

theorem State.configAll_keeps {z : State} (s : State) (f : Fld) (v : Nat) (h_s : Machine.Keeps z s) : Machine.Keeps z (State.configAll s f v) := by
  unfold State.configAll
  try dsimp only
  repeat' (first | with_reducible (first | assumption | intro _ | apply State.allTiles_keeps | apply State.config_keeps))

theorem State.loseEvent_keeps {z : State} (s : State) (t : Nat) (h_s : Machine.Keeps z s) : Machine.Keeps z (State.loseEvent s t) := by
  unfold State.loseEvent
  try dsimp only
  repeat' (first | with_reducible (first | assumption | intro _ | apply State.bump_keeps | apply State.ev_keeps) | simp only [keeps_mk_iff])

theorem State.enqueueRec_keeps {z : State} (s : State) (t : Nat) (r : EvRec) (h_s : Machine.Keeps z s) : Machine.Keeps z (State.enqueueRec s t r) := by
  unfold State.enqueueRec
  try dsimp only
  repeat' (first | with_reducible (first | assumption | intro _ | apply State.loseEvent_keeps | apply keeps_ite) | simp only [keeps_mk_iff] | split)

theorem State.named_keeps {z : State} (s : State) (t src code sev arg : Nat) (h_s : Machine.Keeps z s) : Machine.Keeps z (State.named s t src code sev arg) := by
  unfold State.named
  try dsimp only
  repeat' (first | with_reducible (first | assumption | intro _ | apply State.enqueueRec_keeps))

theorem State.evRec_keeps {z : State} (s : State) (t : Nat) (f : Fld) (arg : Nat) (h_s : Machine.Keeps z s) : Machine.Keeps z (State.evRec s t f arg) := by
  unfold State.evRec
  try dsimp only
  repeat' (first | with_reducible (first | assumption | intro _ | apply State.enqueueRec_keeps | apply State.ev_keeps))

theorem State.recOpen_keeps {z : State} (s : State) (t src arg : Nat) (h_s : Machine.Keeps z s) : Machine.Keeps z (State.recOpen s t src arg) := by
  unfold State.recOpen
  try dsimp only
  repeat' (first | with_reducible (first | assumption | intro _ | apply State.draw_keeps | apply State.enqueueRec_keeps) | (refine keeps_snd (by with_reducible assumption) ?_) | (refine keeps_fst (by with_reducible assumption) ?_) | split)

theorem State.updSession_keeps {z : State} (s : State) (p : Nat) (f : Session → Session) (h_s : Machine.Keeps z s) : Machine.Keeps z (State.updSession s p f) := by
  unfold State.updSession
  try dsimp only
  repeat' (first | with_reducible (first | assumption | intro _ | apply keeps_ite) | simp only [keeps_mk_iff] | split)

theorem State.ntfDrop_keeps {z : State} (s : State) (h_s : Machine.Keeps z s) : Machine.Keeps z (State.ntfDrop s) := by
  unfold State.ntfDrop
  try dsimp only
  repeat' (first | with_reducible (first | assumption | intro _ | apply State.bump_keeps | apply State.ev_keeps))

theorem State.deliver_keeps {z : State} (s : State) (x : Session) (opcode : Nat) (pl : List Byte) (h_s : Machine.Keeps z s) : Machine.Keeps z (State.deliver s x opcode pl) := by
  unfold State.deliver
  try dsimp only
  repeat' (first | with_reducible (first | assumption | intro _ | apply State.ntfDrop_keeps | apply State.pointMsg_keeps | apply State.send_keeps | apply State.updSession_keeps | apply keeps_ite) | simp only [keeps_mk_iff] | split)

theorem State.notifyNow_keeps {z : State} (s : State) (opcode : Nat) (pl : List Byte) (h_s : Machine.Keeps z s) : Machine.Keeps z (State.notifyNow s opcode pl) := by
  unfold State.notifyNow
  try dsimp only
  repeat' (first | with_reducible (first | assumption | intro _ | apply State.deliver_keeps | apply keeps_foldl | apply keeps_foldl_snd | apply keeps_foldl_fst))

theorem State.notify_keeps {z : State} (s : State) (opcode : Nat) (pl : List Byte) (h_s : Machine.Keeps z s) : Machine.Keeps z (State.notify s opcode pl) := by
  unfold State.notify
  try dsimp only
  repeat' (first | with_reducible (first | assumption | intro _ | apply State.notifyNow_keeps | apply keeps_ite) | simp only [keeps_mk_iff] | split)

theorem State.notifyPoint_keeps {z : State} (s : State) (p opcode : Nat) (pl : List Byte) (h_s : Machine.Keeps z s) : Machine.Keeps z (State.notifyPoint s p opcode pl) := by
  unfold State.notifyPoint
  try dsimp only
  repeat' (first | with_reducible (first | assumption | apply ite_some_imp | intro _ | apply State.deliver_keeps) | simp only [keeps_mk_iff] | (refine keeps_snd (by with_reducible assumption) ?_) | (refine keeps_fst (by with_reducible assumption) ?_) | split)

theorem State.toState_keeps {z : State} (s : State) (d : DState) (h_s : Machine.Keeps z s) : Machine.Keeps z (State.toState s d) := by
  unfold State.toState
  try dsimp only
  repeat' (first | with_reducible (first | assumption | intro _ | apply State.ev_keeps | apply State.named_keeps | apply State.notify_keeps | apply State.setF_keeps | apply keeps_ite) | split)

end Sys2Proof.Machine
end

