-- ==== Sys2Proof/Laws/KeepStream.lean ====
section
/-! SUPPORT. What no command changes is kept by every function of `Machine/Stream.lean`. -/

set_option linter.all false

namespace Sys2Proof.Machine

theorem State.updAms_keeps {z : State} (s : State) (f : Ams → Ams) (h_s : Machine.Keeps z s) : Machine.Keeps z (State.updAms s f) := by
  unfold State.updAms
  try dsimp only
  repeat' (first | with_reducible (first | assumption | intro _) | simp only [keeps_mk_iff])

theorem State.updCache_keeps {z : State} (s : State) (f : CacheSt → CacheSt) (h_s : Machine.Keeps z s) : Machine.Keeps z (State.updCache s f) := by
  unfold State.updCache
  try dsimp only
  repeat' (first | with_reducible (first | assumption | intro _) | simp only [keeps_mk_iff])

theorem State.updFirn_keeps {z : State} (s : State) (f : Firn → Firn) (h_s : Machine.Keeps z s) : Machine.Keeps z (State.updFirn s f) := by
  unfold State.updFirn
  try dsimp only
  repeat' (first | with_reducible (first | assumption | intro _) | simp only [keeps_mk_iff])

theorem State.updTwin_keeps {z : State} (s : State) (f : Twin → Twin) (h_s : Machine.Keeps z s) : Machine.Keeps z (State.updTwin s f) := by
  unfold State.updTwin
  try dsimp only
  repeat' (first | with_reducible (first | assumption | intro _) | simp only [keeps_mk_iff])

theorem State.updTwl_keeps {z : State} (s : State) (t : Nat) (f : TwinTile → TwinTile) (h_s : Machine.Keeps z s) : Machine.Keeps z (State.updTwl s t f) := by
  unfold State.updTwl
  try dsimp only
  repeat' (first | with_reducible (first | assumption | intro _) | simp only [keeps_mk_iff])

theorem State.pnSpent_keeps {z : State} (s : State) (t : Nat) (h_s : Machine.Keeps z s) : Machine.Keeps z (State.pnSpent s t) := by
  unfold State.pnSpent
  try dsimp only
  repeat' (first | with_reducible (first | assumption | intro _ | apply State.ev_keeps | apply State.setFs_keeps | apply keeps_ite) | split)

theorem State.twinSend_keeps {z : State} (s : State) (t type flags seq : Nat) (body : List Byte) (h_s : Machine.Keeps z s) : Machine.Keeps z (State.twinSend s t type flags seq body) := by
  unfold State.twinSend
  try dsimp only
  repeat' (first | with_reducible (first | assumption | intro _ | apply State.bump_keeps | apply State.pnSpent_keeps | apply State.send_keeps | apply State.updTwl_keeps | apply keeps_ite) | simp only [keeps_mk_iff] | split)

theorem State.pumpGo_keeps {z : State} (s : State) (t : Nat) (i0 : Nat) (h_s : Machine.Keeps z s) : Machine.Keeps z (State.pumpGo s t i0) := by
  induction i0 generalizing s with
  | zero => exact h_s
  | succ k ih =>
    unfold State.pumpGo
    try dsimp only
    repeat' (first | with_reducible assumption | with_reducible intro _ | with_reducible apply ih | with_reducible apply State.bump_keeps | with_reducible apply State.drop_keeps | with_reducible apply State.ev_keeps | with_reducible apply State.twinSend_keeps | with_reducible apply State.updTwl_keeps | with_reducible apply keeps_ite | simp only [keeps_mk_iff] | (refine keeps_snd (by with_reducible assumption) ?_) | (refine keeps_fst (by with_reducible assumption) ?_) | split)

theorem State.pump_keeps {z : State} (s : State) (t : Nat) (h_s : Machine.Keeps z s) : Machine.Keeps z (State.pump s t) := by
  unfold State.pump
  try dsimp only
  repeat' (first | with_reducible (first | assumption | intro _ | apply State.pumpGo_keeps))

theorem State.emit_keeps {z : State} (s : State) (t kind : Nat) (body : List Byte) (h_s : Machine.Keeps z s) : Machine.Keeps z (State.emit s t kind body).1 := by
  unfold State.emit
  try dsimp only
  repeat' (first | with_reducible (first | assumption | intro _ | apply State.pump_keeps | apply State.updTwl_keeps) | simp only [keeps_mk_iff])

theorem State.emit'_keeps {z : State} (s : State) (t kind : Nat) (body : List Byte) (h_s : Machine.Keeps z s) : Machine.Keeps z (State.emit' s t kind body) := by
  unfold State.emit'
  try dsimp only
  repeat' (first | with_reducible (first | assumption | intro _ | apply State.emit_keeps))

theorem State.mirrorItem_keeps {z : State} (s : State) (t kind : Nat) (body : List Byte) (h_s : Machine.Keeps z s) : Machine.Keeps z (State.mirrorItem s t kind body) := by
  unfold State.mirrorItem
  try dsimp only
  repeat' (first | with_reducible (first | assumption | intro _ | apply State.emit'_keeps | apply keeps_ite) | split)

theorem State.mirrorCommand_keeps {z : State} (s : State) (f : Frame) (role session : Nat) (h_s : Machine.Keeps z s) : Machine.Keeps z (State.mirrorCommand s f role session).2 := by
  unfold State.mirrorCommand
  try dsimp only
  repeat' (first | with_reducible (first | assumption | intro _ | apply State.emit_keeps) | (refine keeps_snd (by with_reducible assumption) ?_) | (refine keeps_fst (by with_reducible assumption) ?_) | split)

theorem State.setEpoch_keeps {z : State} (s : State) (e : Nat) (h_s : Machine.Keeps z s) : Machine.Keeps z (State.setEpoch s e) := by
  unfold State.setEpoch
  try dsimp only
  repeat' (first | with_reducible (first | assumption | intro _ | apply State.setFs_keeps) | simp only [keeps_mk_iff])

theorem State.advanceEpoch_keeps {z : State} (s : State) (h_s : Machine.Keeps z s) : Machine.Keeps z (State.advanceEpoch s) := by
  unfold State.advanceEpoch
  try dsimp only
  repeat' (first | with_reducible (first | assumption | intro _ | apply State.mirrorItem_keeps | apply State.setEpoch_keeps | apply keeps_getD))

theorem State.stopSending_keeps {z : State} (s : State) (h_s : Machine.Keeps z s) : Machine.Keeps z (State.stopSending s) := by
  unfold State.stopSending
  try dsimp only
  repeat' (first | with_reducible (first | assumption | intro _ | apply keeps_ite) | simp only [keeps_mk_iff] | split)

theorem State.setRole_keeps {z : State} (s : State) (r : TRole) (why : Nat) (h_s : Machine.Keeps z s) : Machine.Keeps z (State.setRole s r why) := by
  unfold State.setRole
  try dsimp only
  repeat' (first | with_reducible (first | assumption | apply ite_some_imp | intro _ | apply State.ev_keeps | apply State.named_keeps | apply State.notify_keeps | apply State.setFs_keeps | apply State.stopSending_keeps | apply keeps_ite) | simp only [keeps_mk_iff] | split)

theorem State.driveActo_keeps {z : State} (s : State) (on : Bool) (h_s : Machine.Keeps z s) : Machine.Keeps z (State.driveActo s on) := by
  unfold State.driveActo
  try dsimp only
  repeat' (first | with_reducible (first | assumption | intro _ | apply State.setFs_keeps | apply keeps_ite) | simp only [keeps_mk_iff] | split)

theorem State.depart_keeps {z : State} (s : State) (quiet : Bool) (h_s : Machine.Keeps z s) : Machine.Keeps z (State.depart s quiet) := by
  unfold State.depart
  try dsimp only
  repeat' (first | with_reducible (first | assumption | intro _) | simp only [keeps_mk_iff])

theorem State.setDiv_keeps {z : State} (s : State) (e w : Nat) (h_s : Machine.Keeps z s) : Machine.Keeps z (State.setDiv s e w) := by
  unfold State.setDiv
  try dsimp only
  repeat' (first | with_reducible (first | assumption | intro _) | simp only [keeps_mk_iff])

theorem State.divergeAll_keeps {z : State} (s : State) (h_s : Machine.Keeps z s) : Machine.Keeps z (State.divergeAll s) := by
  unfold State.divergeAll
  try dsimp only
  repeat' (first | with_reducible (first | assumption | intro _ | apply State.setDiv_keeps | apply keeps_foldl | apply keeps_foldl_snd | apply keeps_foldl_fst))

theorem State.setDivBit_keeps {z : State} (s : State) (u : Nat) (b : Bool) (h_s : Machine.Keeps z s) : Machine.Keeps z (State.setDivBit s u b) := by
  unfold State.setDivBit
  try dsimp only
  repeat' (first | with_reducible (first | assumption | intro _ | apply State.setDiv_keeps))

theorem State.sendFetch_keeps {z : State} (s : State) (t page : Nat) (h_s : Machine.Keeps z s) : Machine.Keeps z (State.sendFetch s t page) := by
  unfold State.sendFetch
  try dsimp only
  repeat' (first | with_reducible (first | assumption | intro _ | apply State.twinSend_keeps | apply State.updTwl_keeps | apply keeps_ite) | simp only [keeps_mk_iff] | split)

theorem State.newErrId_keeps {z : State} (s : State) (t : Nat) (h_s : Machine.Keeps z s) : Machine.Keeps z (State.newErrId s t).2 := by
  unfold State.newErrId
  try dsimp only
  repeat' (first | with_reducible (first | assumption | intro _ | apply State.named_keeps | apply keeps_ite) | simp only [keeps_mk_iff] | split)

theorem State.divergeUnacked_keeps {z : State} (s : State) (h_s : Machine.Keeps z s) : Machine.Keeps z (State.divergeUnacked s) := by
  unfold State.divergeUnacked
  try dsimp only
  repeat' (first | with_reducible (first | assumption | intro _ | apply State.setDivBit_keeps | apply keeps_foldl | apply keeps_foldl_snd | apply keeps_foldl_fst))

theorem State.stopResync_keeps {z : State} (s : State) (h_s : Machine.Keeps z s) : Machine.Keeps z (State.stopResync s) := by
  unfold State.stopResync
  try dsimp only
  repeat' (first | with_reducible (first | assumption | intro _ | apply State.divergeUnacked_keeps | apply State.updTwin_keeps | apply keeps_ite) | simp only [keeps_mk_iff] | split)

end Sys2Proof.Machine
end

