-- ==== Sys2Proof/Laws/KeepDramq.lean ====
section
/-! SUPPORT. What no command changes is kept by every function of `Machine/Dramq.lean`. -/

set_option linter.all false

namespace Sys2Proof.Machine

theorem State.updDmc_keeps {z : State} (s : State) (t c : Nat) (f : DramCh → DramCh) (h_s : Machine.Keeps z s) : Machine.Keeps z (State.updDmc s t c f) := by
  unfold State.updDmc
  try dsimp only
  repeat' (first | with_reducible (first | assumption | intro _) | simp only [keeps_mk_iff])

theorem State.notePanic_keeps {z : State} (s : State) (t c : Nat) (h_s : Machine.Keeps z s) : Machine.Keeps z (State.notePanic s t c) := by
  unfold State.notePanic
  try dsimp only
  repeat' (first | with_reducible (first | assumption | apply ite_some_imp | intro _ | apply State.setF_keeps | apply State.updDmc_keeps | apply keeps_getD | apply keeps_ite) | simp only [keeps_mk_iff] | split)

theorem State.serveBurst_keeps {z : State} (s : State) (t c : Nat) (q : DramReq) (h_s : Machine.Keeps z s) : Machine.Keeps z (State.serveBurst s t c q) := by
  unfold State.serveBurst
  try dsimp only
  repeat' (first | with_reducible (first | assumption | intro _ | apply State.bump_keeps | apply State.notePanic_keeps | apply State.updDmc_keeps | apply keeps_getD | apply keeps_ite) | simp only [keeps_mk_iff] | split)

theorem State.noteDrain_keeps {z : State} (s : State) (t c sub : Nat) (h_s : Machine.Keeps z s) : Machine.Keeps z (State.noteDrain s t c sub) := by
  unfold State.noteDrain
  try dsimp only
  repeat' (first | with_reducible (first | assumption | intro _ | apply State.updDmc_keeps | apply keeps_ite) | simp only [keeps_mk_iff] | split)

theorem State.pushBurst_keeps {z : State} (s : State) (t c : Nat) (q : DramReq) (h_s : Machine.Keeps z s) : Machine.Keeps z (State.pushBurst s t c q) := by
  unfold State.pushBurst
  try dsimp only
  repeat' (first | with_reducible (first | assumption | intro _ | apply State.noteDrain_keeps | apply State.notePanic_keeps | apply State.serveBurst_keeps | apply State.updDmc_keeps | apply keeps_ite) | simp only [keeps_mk_iff] | (refine keeps_snd (by with_reducible assumption) ?_) | (refine keeps_fst (by with_reducible assumption) ?_) | split)

theorem State.askDram_keeps {z : State} (s : State) (t a : Nat) (write : Bool) (h_s : Machine.Keeps z s) : Machine.Keeps z (State.askDram s t a write) := by
  unfold State.askDram
  try dsimp only
  repeat' (first | with_reducible (first | assumption | intro _ | apply State.pushBurst_keeps | apply keeps_foldl | apply keeps_foldl_snd | apply keeps_foldl_fst | apply keeps_ite) | simp only [keeps_mk_iff] | (refine keeps_snd (by with_reducible assumption) ?_) | (refine keeps_fst (by with_reducible assumption) ?_) | split)

theorem State.admitHeld_keeps {z : State} (s : State) (t c : Nat) (h_s : Machine.Keeps z s) : Machine.Keeps z (State.admitHeld s t c) := by
  unfold State.admitHeld
  try dsimp only
  repeat' (first | with_reducible (first | assumption | intro _ | apply State.pushBurst_keeps | apply State.updDmc_keeps | apply keeps_foldl | apply keeps_foldl_snd | apply keeps_foldl_fst) | simp only [keeps_mk_iff])

theorem State.markPanic_keeps {z : State} (s : State) (t a n : Nat) (on : Bool) (h_s : Machine.Keeps z s) : Machine.Keeps z (State.markPanic s t a n on) := by
  unfold State.markPanic
  try dsimp only
  repeat' (first | with_reducible (first | assumption | intro _ | apply State.notePanic_keeps | apply State.updDmc_keeps | apply keeps_foldl | apply keeps_foldl_snd | apply keeps_foldl_fst | apply keeps_ite) | simp only [keeps_mk_iff] | split)

theorem State.closeRank_keeps {z : State} (s : State) (t c r : Nat) (h_s : Machine.Keeps z s) : Machine.Keeps z (State.closeRank s t c r) := by
  unfold State.closeRank
  try dsimp only
  repeat' (first | with_reducible (first | assumption | intro _ | apply State.updDmc_keeps | apply keeps_ite) | simp only [keeps_mk_iff] | split)

theorem State.setDebt_keeps {z : State} (s : State) (t c r n : Nat) (h_s : Machine.Keeps z s) : Machine.Keeps z (State.setDebt s t c r n) := by
  unfold State.setDebt
  try dsimp only
  repeat' (first | with_reducible (first | assumption | intro _ | apply State.setF_keeps | apply State.updDmc_keeps | apply keeps_foldl | apply keeps_foldl_snd | apply keeps_foldl_fst) | simp only [keeps_mk_iff])

theorem State.refreshAhead_keeps {z : State} (s : State) (t c r : Nat) (h_s : Machine.Keeps z s) : Machine.Keeps z (State.refreshAhead s t c r) := by
  unfold State.refreshAhead
  try dsimp only
  repeat' (first | with_reducible (first | assumption | intro _ | apply State.closeRank_keeps | apply State.ev_keeps | apply State.setDebt_keeps))

theorem State.oweRefresh_keeps {z : State} (s : State) (t c r : Nat) (h_s : Machine.Keeps z s) : Machine.Keeps z (State.oweRefresh s t c r) := by
  unfold State.oweRefresh
  try dsimp only
  repeat' (first | with_reducible (first | assumption | intro _ | apply State.closeRank_keeps | apply State.ev_keeps | apply State.setDebt_keeps | apply State.updDmc_keeps | apply keeps_ite) | simp only [keeps_mk_iff] | split)

end Sys2Proof.Machine
end

