-- ==== Sys2Proof/Laws/KeepAreas.lean ====
section
/-! SUPPORT. What no command changes is kept by every function of `Machine/Areas.lean`. -/

set_option linter.all false

namespace Sys2Proof.Machine

theorem State.growTable_keeps {z u : State} {s : State} {t den : Nat} (e : State.growTable s t den = some u) (h_s : Machine.Keeps z s) : Machine.Keeps z u := by
  unfold State.growTable at e
  revert e
  try dsimp only
  repeat' (first | (refine fun (e : _ = _) => ?_; cases e; done) | (refine fun (e : _ = _) => ?_; cases e) | split | (refine fun (e : _ = _) => ?_; simp only [Option.map_eq_some_iff] at e; obtain ⟨_, _, e⟩ := e; cases e) | with_reducible (first | assumption | apply ite_some_imp | intro _ | apply keeps_ite) | simp only [keeps_mk_iff] | split)

end Sys2Proof.Machine
end

