-- ==== Sys2Proof/Laws/KeepHomes.lean ====
section
/-! SUPPORT. What no command changes is kept by every function of `Machine/Homes.lean`. -/

set_option linter.all false

namespace Sys2Proof.Machine

theorem State.setHome_keeps {z : State} (s : State) (e : Nat) (h : Home) (h_s : Machine.Keeps z s) : Machine.Keeps z (State.setHome s e h) := by
  unfold State.setHome
  try dsimp only
  repeat' (first | with_reducible (first | assumption | intro _) | simp only [keeps_mk_iff])

theorem State.lookMap_keeps {z : State} (s : State) (t e : Nat) (h_s : Machine.Keeps z s) : Machine.Keeps z (State.lookMap s t e) := by
  unfold State.lookMap
  try dsimp only
  repeat' (first | with_reducible (first | assumption | intro _ | apply State.bump_keeps | apply State.draw_keeps | apply State.updAms_keeps | apply keeps_getD | apply keeps_ite) | simp only [keeps_mk_iff] | (refine keeps_snd (by with_reducible assumption) ?_) | (refine keeps_fst (by with_reducible assumption) ?_) | split)

theorem State.noteRecopy_keeps {z : State} (s : State) (page : Nat) (h_s : Machine.Keeps z s) : Machine.Keeps z (State.noteRecopy s page) := by
  unfold State.noteRecopy
  try dsimp only
  repeat' (first | with_reducible (first | assumption | intro _ | apply keeps_ite) | simp only [keeps_mk_iff] | split)

theorem State.setBurstPoison_keeps {z : State} (s : State) (b : Nat) (id : Option Nat) (h_s : Machine.Keeps z s) : Machine.Keeps z (State.setBurstPoison s b id) := by
  unfold State.setBurstPoison
  try dsimp only
  repeat' (first | with_reducible (first | assumption | apply ite_some_imp | intro _ | apply State.updFirn_keeps | apply keeps_id) | simp only [keeps_mk_iff] | (refine keeps_snd (by with_reducible assumption) ?_) | (refine keeps_fst (by with_reducible assumption) ?_) | split)

theorem State.setPoison_keeps {z : State} (s : State) (n : Nat) (id : Option Nat) (h_s : Machine.Keeps z s) : Machine.Keeps z (State.setPoison s n id) := by
  unfold State.setPoison
  try dsimp only
  repeat' (first | with_reducible (first | assumption | intro _ | apply State.setBurstPoison_keeps | apply keeps_id))

theorem State.poisonAll_keeps {z : State} (s : State) (p id : Nat) (h_s : Machine.Keeps z s) : Machine.Keeps z (State.poisonAll s p id) := by
  unfold State.poisonAll
  try dsimp only
  repeat' (first | with_reducible (first | assumption | intro _ | apply State.setPoison_keeps | apply keeps_foldl | apply keeps_foldl_snd | apply keeps_foldl_fst | apply keeps_id))

theorem State.poisonPage_keeps {z : State} (s : State) (t p : Nat) (h_s : Machine.Keeps z s) : Machine.Keeps z (State.poisonPage s t p) := by
  unfold State.poisonPage
  try dsimp only
  repeat' (first | with_reducible (first | assumption | intro _ | apply State.newErrId_keeps | apply State.poisonAll_keeps) | (refine keeps_snd (by with_reducible assumption) ?_) | (refine keeps_fst (by with_reducible assumption) ?_) | split)

theorem State.setMask_keeps {z : State} (s : State) (p : Nat) (mask : List (Nat × Nat)) (h_s : Machine.Keeps z s) : Machine.Keeps z (State.setMask s p mask) := by
  unfold State.setMask
  try dsimp only
  repeat' (first | with_reducible (first | assumption | intro _ | apply State.setPoison_keeps | apply State.updFirn_keeps | apply keeps_foldl | apply keeps_foldl_snd | apply keeps_foldl_fst) | simp only [keeps_mk_iff])

theorem State.updDec_keeps {z : State} (s : State) (f : DecSt → DecSt) (h_s : Machine.Keeps z s) : Machine.Keeps z (State.updDec s f) := by
  unfold State.updDec
  try dsimp only
  repeat' (first | with_reducible (first | assumption | intro _) | simp only [keeps_mk_iff])

theorem State.setMainBytes_keeps {z : State} (s : State) (t a : Nat) (bs : List Byte) (h_s : Machine.Keeps z s) : Machine.Keeps z (State.setMainBytes s t a bs) := by
  unfold State.setMainBytes
  try dsimp only
  repeat' (first | with_reducible (first | assumption | intro _ | apply State.setBytes_keeps))

theorem State.wipePage_keeps {z : State} (s : State) (t page : Nat) (h_s : Machine.Keeps z s) : Machine.Keeps z (State.wipePage s t page) := by
  unfold State.wipePage
  try dsimp only
  repeat' (first | with_reducible (first | assumption | intro _ | apply State.wipe_keeps))

theorem State.clearFrame_keeps {z : State} (s : State) (t frame : Nat) (h_s : Machine.Keeps z s) : Machine.Keeps z (State.clearFrame s t frame) := by
  unfold State.clearFrame
  try dsimp only
  repeat' (first | with_reducible (first | assumption | intro _ | apply State.updDec_keeps | apply State.wipe_keeps | apply State.wipePage_keeps | apply keeps_foldl | apply keeps_foldl_snd | apply keeps_foldl_fst) | simp only [keeps_mk_iff])

end Sys2Proof.Machine
end

