-- ==== Sys2Proof/Laws/KeepIntegrity.lean ====
section
/-! SUPPORT. What no command changes is kept by every function of `Machine/Integrity.lean`. -/

set_option linter.all false

namespace Sys2Proof.Machine

theorem State.recBit_keeps {z : State} (s : State) (t : Nat) (f : Fld) (arg : Nat) (h_s : Machine.Keeps z s) : Machine.Keeps z (State.recBit s t f arg) := by
  unfold State.recBit
  try dsimp only
  repeat' (first | with_reducible (first | assumption | intro _ | apply State.enqueueRec_keeps))

theorem State.logBurst_keeps {z : State} (s : State) (t c kind : Nat) (p : Place) (a dev syms : Nat) (wb : Bool) (h_s : Machine.Keeps z s) : Machine.Keeps z (State.logBurst s t c kind p a dev syms wb) := by
  unfold State.logBurst
  try dsimp only
  repeat' (first | with_reducible (first | assumption | apply ite_some_imp | intro _ | apply State.bump_keeps | apply State.ev_keeps | apply State.updDec_keeps | apply keeps_foldl | apply keeps_foldl_snd | apply keeps_foldl_fst | apply keeps_ite) | simp only [keeps_mk_iff] | (refine keeps_snd (by with_reducible assumption) ?_) | (refine keeps_fst (by with_reducible assumption) ?_) | split)

theorem State.noteWhole_keeps {z : State} (s : State) (t c : Nat) (p : Place) (pat : List (Nat × Nat)) (erased : Option Nat) (h_s : Machine.Keeps z s) : Machine.Keeps z (State.noteWhole s t c p pat erased) := by
  unfold State.noteWhole
  try dsimp only
  repeat' (first | with_reducible (first | assumption | apply ite_some_imp | intro _ | apply State.updDec_keeps) | simp only [keeps_mk_iff] | (refine keeps_snd (by with_reducible assumption) ?_) | (refine keeps_fst (by with_reducible assumption) ?_) | split)

theorem State.setFaults_keeps {z : State} (s : State) (t a : Nat) (l : List (Nat × Nat)) (h_s : Machine.Keeps z s) : Machine.Keeps z (State.setFaults s t a l) := by
  unfold State.setFaults
  try dsimp only
  repeat' (first | with_reducible (first | assumption | intro _ | apply State.updDec_keeps) | simp only [keeps_mk_iff])

theorem State.unwild_keeps {z : State} (s : State) (t page : Nat) (written : List Nat) (h_s : Machine.Keeps z s) : Machine.Keeps z (State.unwild s t page written) := by
  unfold State.unwild
  try dsimp only
  repeat' (first | with_reducible (first | assumption | intro _ | apply State.setFaults_keeps | apply State.updDec_keeps | apply keeps_foldl | apply keeps_foldl_snd | apply keeps_foldl_fst | apply keeps_ite) | simp only [keeps_mk_iff] | split)

theorem State.storeBurst_keeps {z : State} (s : State) (t a : Nat) (bs : List Byte) (h_s : Machine.Keeps z s) : Machine.Keeps z (State.storeBurst s t a bs) := by
  unfold State.storeBurst
  try dsimp only
  repeat' (first | with_reducible (first | assumption | apply ite_some_imp | intro _ | apply State.setBytes_keeps | apply State.setFaults_keeps) | simp only [keeps_mk_iff] | (refine keeps_snd (by with_reducible assumption) ?_) | (refine keeps_fst (by with_reducible assumption) ?_) | split)

theorem State.restate_keeps {z : State} (s : State) (t a : Nat) (id : Option Nat) (bs : List Byte) (pat : List (Nat × Nat)) (h_s : Machine.Keeps z s) : Machine.Keeps z (State.restate s t a id bs pat) := by
  unfold State.restate
  try dsimp only
  repeat' (first | with_reducible (first | assumption | apply ite_some_imp | intro _ | apply State.setBurstPoison_keeps | apply State.setFaults_keeps | apply State.storeBurst_keeps | apply State.updDec_keeps | apply keeps_id) | simp only [keeps_mk_iff] | (refine keeps_snd (by with_reducible assumption) ?_) | (refine keeps_fst (by with_reducible assumption) ?_) | split)

theorem State.burstRead_keeps {z : State} (s : State) (t a : Nat) (err : List (Nat × Nat)) (scrub : Bool) (h_s : Machine.Keeps z s) : Machine.Keeps z (State.burstRead s t a err scrub) := by
  unfold State.burstRead
  try dsimp only
  repeat' (first | with_reducible (first | assumption | apply ite_some_imp | intro _ | apply State.bump_keeps | apply State.ev_keeps | apply State.logBurst_keeps | apply State.noteRecopy_keeps | apply State.noteWhole_keeps | apply State.pushBurst_keeps | apply State.restate_keeps | apply State.setF_keeps | apply State.setFaults_keeps | apply State.updDec_keeps | apply keeps_ite) | simp only [keeps_mk_iff] | (refine keeps_snd (by with_reducible assumption) ?_) | (refine keeps_fst (by with_reducible assumption) ?_) | split)

theorem State.cacheBorn_keeps {z : State} (s : State) (t frame : Nat) (h_s : Machine.Keeps z s) : Machine.Keeps z (State.cacheBorn s t frame) := by
  unfold State.cacheBorn
  try dsimp only
  repeat' (first | with_reducible (first | assumption | intro _ | apply State.updDec_keeps | apply keeps_ite) | simp only [keeps_mk_iff] | split)

theorem State.bornLost_keeps {z : State} (s : State) (t frame : Nat) (h_s : Machine.Keeps z s) : Machine.Keeps z (State.bornLost s t frame) := by
  unfold State.bornLost
  try dsimp only
  repeat' (first | with_reducible (first | assumption | intro _ | apply State.evRec_keeps | apply State.updDec_keeps | apply keeps_ite) | simp only [keeps_mk_iff] | split)

theorem State.fetchBorn_keeps {z : State} (s : State) (t frame : Nat) (h_s : Machine.Keeps z s) : Machine.Keeps z (State.fetchBorn s t frame) := by
  unfold State.fetchBorn
  try dsimp only
  repeat' (first | with_reducible (first | assumption | intro _ | apply State.askDram_keeps | apply State.bornLost_keeps | apply State.cacheBorn_keeps | apply State.ev_keeps | apply State.logBurst_keeps | apply State.updDec_keeps | apply keeps_ite) | simp only [keeps_mk_iff] | (refine keeps_snd (by with_reducible assumption) ?_) | (refine keeps_fst (by with_reducible assumption) ?_) | split)

theorem State.lookBorn_keeps {z : State} (s : State) (t page : Nat) (h_s : Machine.Keeps z s) : Machine.Keeps z (State.lookBorn s t page).2 := by
  unfold State.lookBorn
  try dsimp only
  repeat' (first | with_reducible (first | assumption | intro _ | apply State.fetchBorn_keeps | apply keeps_ite) | split)

theorem State.repairExt_keeps {z : State} (s : State) (t frame : Nat) (h_s : Machine.Keeps z s) : Machine.Keeps z (State.repairExt s t frame) := by
  unfold State.repairExt
  try dsimp only
  repeat' (first | with_reducible (first | assumption | intro _ | apply State.fetchBorn_keeps | apply State.updDec_keeps | apply keeps_ite) | simp only [keeps_mk_iff] | split)

theorem State.decBurst_keeps {z : State} (s : State) (t a : Nat) (h_s : Machine.Keeps z s) : Machine.Keeps z (State.decBurst s t a) := by
  unfold State.decBurst
  try dsimp only
  repeat' (first | with_reducible (first | assumption | intro _ | apply State.burstRead_keeps | apply keeps_ite) | split)

theorem State.decFetch_keeps {z : State} (s : State) (t a : Nat) (h_s : Machine.Keeps z s) : Machine.Keeps z (State.decFetch s t a) := by
  unfold State.decFetch
  try dsimp only
  repeat' (first | with_reducible (first | assumption | intro _ | apply State.askDram_keeps | apply State.decBurst_keeps | apply State.lookBorn_keeps | apply keeps_ite) | split)

theorem State.firstWrite_keeps {z : State} (s : State) (t page : Nat) (covered : List Nat) (h_s : Machine.Keeps z s) : Machine.Keeps z (State.firstWrite s t page covered) := by
  unfold State.firstWrite
  try dsimp only
  repeat' (first | with_reducible (first | assumption | intro _ | apply State.askDram_keeps | apply State.cacheBorn_keeps | apply State.updDec_keeps | apply State.wipePage_keeps | apply keeps_foldl | apply keeps_foldl_snd | apply keeps_foldl_fst | apply keeps_ite) | simp only [keeps_mk_iff] | split)

theorem State.decWrite_keeps {z : State} (s : State) (t a : Nat) (bs : List Byte) (h_s : Machine.Keeps z s) : Machine.Keeps z (State.decWrite s t a bs) := by
  unfold State.decWrite
  try dsimp only
  repeat' (first | with_reducible (first | assumption | intro _ | apply State.askDram_keeps | apply State.firstWrite_keeps | apply State.storeBurst_keeps | apply State.unwild_keeps | apply keeps_foldl | apply keeps_foldl_snd | apply keeps_foldl_fst | apply keeps_ite) | split)

end Sys2Proof.Machine
end

