-- ==== Sys2Proof/Laws/KeepFlash.lean ====
section
/-! SUPPORT. What no command changes is kept by every function of `Machine/Flash.lean`. -/

set_option linter.all false

namespace Sys2Proof.Machine

theorem State.updDeep_keeps {z : State} (s : State) (f : DeepSt → DeepSt) (h_s : Machine.Keeps z s) : Machine.Keeps z (State.updDeep s f) := by
  unfold State.updDeep
  try dsimp only
  repeat' (first | with_reducible (first | assumption | intro _) | simp only [keeps_mk_iff])

theorem State.nextSeq_keeps {z : State} (s : State) (t : Nat) (h_s : Machine.Keeps z s) : Machine.Keeps z (State.nextSeq s t).2 := by
  unfold State.nextSeq
  try dsimp only
  repeat' (first | with_reducible (first | assumption | intro _) | simp only [keeps_mk_iff])

theorem State.updStripe_keeps {z : State} (s : State) (t b : Nat) (f : Stripe → Stripe) (h_s : Machine.Keeps z s) : Machine.Keeps z (State.updStripe s t b f) := by
  unfold State.updStripe
  try dsimp only
  repeat' (first | with_reducible (first | assumption | intro _ | apply State.updDeep_keeps | apply keeps_getD | apply keeps_id) | simp only [keeps_mk_iff])

theorem State.putCodeword_keeps {z : State} (s : State) (t b i kind : Nat) (slc : Bool) (den page gen seq : Nat) (mask : List (Nat × Nat)) (bs : List Byte) (h_s : Machine.Keeps z s) : Machine.Keeps z (State.putCodeword s t b i kind slc den page gen seq mask bs) := by
  unfold State.putCodeword
  try dsimp only
  repeat' (first | with_reducible (first | assumption | intro _ | apply State.bump_keeps | apply State.drop_keeps | apply State.updDeep_keeps | apply keeps_foldl | apply keeps_foldl_snd | apply keeps_foldl_fst) | simp only [keeps_mk_iff])

theorem State.openHead_keeps {z : State} (s : State) (t head : Nat) (h_s : Machine.Keeps z s) : Machine.Keeps z (State.openHead s t head) := by
  unfold State.openHead
  try dsimp only
  repeat' (first | with_reducible (first | assumption | apply ite_some_imp | intro _ | apply State.updStripe_keeps | apply keeps_ite) | simp only [keeps_mk_iff] | (refine keeps_snd (by with_reducible assumption) ?_) | (refine keeps_fst (by with_reducible assumption) ?_) | split)

theorem State.endLunOp_keeps {z : State} (s : State) (t lun : Nat) (h_s : Machine.Keeps z s) : Machine.Keeps z (State.endLunOp s t lun) := by
  unfold State.endLunOp
  try dsimp only
  repeat' (first | with_reducible (first | assumption | intro _ | apply State.updDeep_keeps | apply keeps_id | apply keeps_ite) | simp only [keeps_mk_iff] | split)

theorem State.closeRow_keeps {z : State} (s : State) (t head : Nat) (h_s : Machine.Keeps z s) : Machine.Keeps z (State.closeRow s t head) := by
  unfold State.closeRow
  try dsimp only
  repeat' (first | with_reducible (first | assumption | apply ite_some_imp | intro _ | apply State.bump_keeps | apply State.endLunOp_keeps | apply State.updStripe_keeps | apply keeps_foldl | apply keeps_foldl_snd | apply keeps_foldl_fst | apply keeps_id | apply keeps_ite) | simp only [keeps_mk_iff] | (refine keeps_snd (by with_reducible assumption) ?_) | (refine keeps_fst (by with_reducible assumption) ?_) | split)

theorem State.alignHead_keeps {z : State} (s : State) (t head n : Nat) (h_s : Machine.Keeps z s) : Machine.Keeps z (State.alignHead s t head n) := by
  unfold State.alignHead
  try dsimp only
  repeat' (first | with_reducible (first | assumption | apply ite_some_imp | intro _ | apply State.closeRow_keeps | apply State.openHead_keeps | apply keeps_ite) | simp only [keeps_mk_iff] | (refine keeps_snd (by with_reducible assumption) ?_) | (refine keeps_fst (by with_reducible assumption) ?_) | split)

theorem State.logPlace_keeps {z u : State} {v w : _} {s : State} {t head : Nat} (e : State.logPlace s t head = some (v, w, u)) (h_s : Machine.Keeps z s) : Machine.Keeps z u := by
  unfold State.logPlace at e
  revert e
  try dsimp only
  repeat' (first | (refine fun (e : _ = _) => ?_; cases e; done) | (refine fun (e : _ = _) => ?_; cases e) | split | (refine fun (e : _ = _) => ?_; simp only [Option.map_eq_some_iff] at e; obtain ⟨_, _, e⟩ := e; cases e) | with_reducible (first | assumption | intro _ | apply State.bump_keeps | apply State.endLunOp_keeps | apply State.openHead_keeps | apply State.updStripe_keeps | apply keeps_foldl | apply keeps_foldl_snd | apply keeps_foldl_fst | apply keeps_id | apply keeps_ite) | simp only [keeps_mk_iff] | split)

theorem State.ensureDen_keeps {z : State} (s : State) (t e : Nat) (h_s : Machine.Keeps z s) : Machine.Keeps z (State.ensureDen s t e) := by
  unfold State.ensureDen
  try dsimp only
  repeat' (first | with_reducible (first | assumption | intro _) | (refine State.growTable_keeps (by with_reducible assumption) ?_ ) | with_reducible apply State.updFirn_keeps | with_reducible apply keeps_getD | with_reducible apply keeps_ite | simp only [keeps_mk_iff] | split)

theorem State.freeDen_keeps {z : State} (s : State) (t e : Nat) (h_s : Machine.Keeps z s) : Machine.Keeps z (State.freeDen s t e) := by
  unfold State.freeDen
  try dsimp only
  repeat' (first | with_reducible (first | assumption | apply ite_some_imp | intro _ | apply State.updFirn_keeps | apply keeps_ite) | simp only [keeps_mk_iff] | (refine keeps_snd (by with_reducible assumption) ?_) | (refine keeps_fst (by with_reducible assumption) ?_) | split)

theorem State.flushTable_keeps {z : State} (s : State) (t n : Nat) (h_s : Machine.Keeps z s) : Machine.Keeps z (State.flushTable s t n) := by
  unfold State.flushTable
  try dsimp only
  repeat' (first | with_reducible (first | assumption | apply ite_some_imp | intro _) | (refine State.logPlace_keeps (by with_reducible assumption) ?_ ) | with_reducible apply State.nextSeq_keeps | with_reducible apply State.putCodeword_keeps | with_reducible apply State.updDeep_keeps | simp only [keeps_mk_iff] | (refine keeps_snd (by with_reducible assumption) ?_) | (refine keeps_fst (by with_reducible assumption) ?_) | split)

theorem State.flushTables_keeps {z : State} (s : State) (t : Nat) (h_s : Machine.Keeps z s) : Machine.Keeps z (State.flushTables s t) := by
  unfold State.flushTables
  try dsimp only
  repeat' (first | with_reducible (first | assumption | intro _ | apply State.closeRow_keeps | apply State.flushTable_keeps | apply keeps_foldl | apply keeps_foldl_snd | apply keeps_foldl_fst))

theorem State.dirtyTable_keeps {z : State} (s : State) (t e : Nat) (h_s : Machine.Keeps z s) : Machine.Keeps z (State.dirtyTable s t e) := by
  unfold State.dirtyTable
  try dsimp only
  repeat' (first | with_reducible (first | assumption | apply ite_some_imp | intro _ | apply State.flushTables_keeps | apply State.updDeep_keeps | apply keeps_ite) | simp only [keeps_mk_iff] | (refine keeps_snd (by with_reducible assumption) ?_) | (refine keeps_fst (by with_reducible assumption) ?_) | split)

theorem State.programDeep_keeps {z : State} (s : State) (t p g : Nat) (mask : List (Nat × Nat)) (bs : List Byte) (head : Nat) (h_s : Machine.Keeps z s) : Machine.Keeps z (State.programDeep s t p g mask bs head) := by
  unfold State.programDeep
  try dsimp only
  repeat' (first | with_reducible (first | assumption | intro _ | apply State.dirtyTable_keeps | apply State.ensureDen_keeps) | (refine State.logPlace_keeps (by with_reducible assumption) ?_ ) | with_reducible apply State.nextSeq_keeps | with_reducible apply State.putCodeword_keeps | with_reducible apply State.updDeep_keeps | with_reducible apply State.updFirn_keeps | simp only [keeps_mk_iff] | (refine keeps_snd (by with_reducible assumption) ?_) | (refine keeps_fst (by with_reducible assumption) ?_) | split)

theorem State.unmapDeep_keeps {z : State} (s : State) (t p : Nat) (h_s : Machine.Keeps z s) : Machine.Keeps z (State.unmapDeep s t p) := by
  unfold State.unmapDeep
  try dsimp only
  repeat' (first | with_reducible (first | assumption | intro _ | apply State.dirtyTable_keeps | apply State.freeDen_keeps | apply State.updFirn_keeps | apply keeps_ite) | simp only [keeps_mk_iff] | split)

theorem State.relocateTable_keeps {z : State} (s : State) (t n : Nat) (h_s : Machine.Keeps z s) : Machine.Keeps z (State.relocateTable s t n) := by
  unfold State.relocateTable
  try dsimp only
  repeat' (first | with_reducible (first | assumption | intro _) | (refine State.logPlace_keeps (by with_reducible assumption) ?_ ) | with_reducible apply State.updDeep_keeps | with_reducible apply keeps_ite | simp only [keeps_mk_iff] | (refine keeps_snd (by with_reducible assumption) ?_) | (refine keeps_fst (by with_reducible assumption) ?_) | split)

theorem State.relocateDeep_keeps {z : State} (s : State) (t p : Nat) (h_s : Machine.Keeps z s) : Machine.Keeps z (State.relocateDeep s t p) := by
  unfold State.relocateDeep
  try dsimp only
  repeat' (first | with_reducible (first | assumption | intro _ | apply State.dirtyTable_keeps) | (refine State.logPlace_keeps (by with_reducible assumption) ?_ ) | with_reducible apply State.updDeep_keeps | with_reducible apply State.updFirn_keeps | with_reducible apply keeps_ite | simp only [keeps_mk_iff] | (refine keeps_snd (by with_reducible assumption) ?_) | (refine keeps_fst (by with_reducible assumption) ?_) | split)

end Sys2Proof.Machine
end

