-- ==== Sys2Proof/Laws/KeepNand.lean ====
section
/-! SUPPORT. What no command changes is kept by every function of `Machine/Nand.lean`. -/

set_option linter.all false

namespace Sys2Proof.Machine

theorem State.fromFree_keeps {z u : State} {v : _} {s : State} {t c lun plane : Nat} (e : State.fromFree s t c lun plane = some (v, u)) (h_s : Machine.Keeps z s) : Machine.Keeps z u := by
  unfold State.fromFree at e
  dsimp only at e
  split at e
  · cases e; exact h_s
  · split at e
    · cases e
    · obtain ⟨b, -, e⟩ := Option.bind_eq_some_iff.mp e
      obtain ⟨k, -, e⟩ := Option.map_eq_some_iff.mp e
      cases e
      exact State.updStripe_keeps _ _ _ _ h_s

theorem State.replaceBlock_keeps {z : State} (s : State) (t b c : Nat) (h_s : Machine.Keeps z s) : Machine.Keeps z (State.replaceBlock s t b c) := by
  unfold State.replaceBlock
  try dsimp only
  repeat' (first | with_reducible (first | assumption | apply ite_some_imp | intro _) | (refine State.fromFree_keeps (by with_reducible assumption) ?_ ) | with_reducible apply State.updDeep_keeps | simp only [keeps_mk_iff] | (refine keeps_snd (by with_reducible assumption) ?_) | (refine keeps_fst (by with_reducible assumption) ?_) | split)

theorem State.mendStripe_keeps {z : State} (s : State) (t b : Nat) (h_s : Machine.Keeps z s) : Machine.Keeps z (State.mendStripe s t b) := by
  unfold State.mendStripe
  try dsimp only
  repeat' (first | with_reducible (first | assumption | intro _ | apply State.replaceBlock_keeps | apply State.updStripe_keeps | apply keeps_foldl | apply keeps_foldl_snd | apply keeps_foldl_fst | apply keeps_ite) | simp only [keeps_mk_iff] | split)

theorem State.updBlock_keeps {z : State} (s : State) (t b c : Nat) (f : BlockStat → BlockStat) (h_s : Machine.Keeps z s) : Machine.Keeps z (State.updBlock s t b c f) := by
  unfold State.updBlock
  try dsimp only
  repeat' (first | with_reducible (first | assumption | intro _ | apply State.updDeep_keeps) | simp only [keeps_mk_iff])

theorem State.markWeak_keeps {z : State} (s : State) (t b c : Nat) (h_s : Machine.Keeps z s) : Machine.Keeps z (State.markWeak s t b c) := by
  unfold State.markWeak
  try dsimp only
  repeat' (first | with_reducible (first | assumption | intro _ | apply State.ev_keeps | apply State.updBlock_keeps | apply State.updStripe_keeps | apply keeps_ite) | simp only [keeps_mk_iff] | split)

theorem State.noteProgram_keeps {z : State} (s : State) (t b c us : Nat) (h_s : Machine.Keeps z s) : Machine.Keeps z (State.noteProgram s t b c us) := by
  unfold State.noteProgram
  try dsimp only
  repeat' (first | with_reducible (first | assumption | intro _ | apply State.ev_keeps | apply State.markWeak_keeps | apply State.updBlock_keeps | apply keeps_ite) | simp only [keeps_mk_iff] | split)

theorem State.retireBlock_keeps {z : State} (s : State) (t b c reason : Nat) (h_s : Machine.Keeps z s) : Machine.Keeps z (State.retireBlock s t b c reason) := by
  unfold State.retireBlock
  try dsimp only
  repeat' (first | with_reducible (first | assumption | intro _ | apply State.ev_keeps | apply State.mendStripe_keeps | apply State.updDeep_keeps | apply State.updStripe_keeps | apply keeps_getD) | simp only [keeps_mk_iff] | (refine keeps_snd (by with_reducible assumption) ?_) | (refine keeps_fst (by with_reducible assumption) ?_) | split)

end Sys2Proof.Machine
end

