-- ==== Sys2Proof/Laws/KeepLines.lean ====
section
/-! SUPPORT. What no command changes is kept by every function of `Machine/Lines.lean`. -/

set_option linter.all false

namespace Sys2Proof.Machine

theorem State.setHomeRange_keeps {z : State} (s : State) (h : Home) (n : Nat) (bs : List Byte) (h_s : Machine.Keeps z s) : Machine.Keeps z (State.setHomeRange s h n bs) := by
  unfold State.setHomeRange
  try dsimp only
  repeat' (first | with_reducible (first | assumption | intro _ | apply State.decWrite_keeps | apply State.noteRecopy_keeps | apply State.setBytes_keeps | apply State.updFirn_keeps) | simp only [keeps_mk_iff] | (refine keeps_snd (by with_reducible assumption) ?_) | (refine keeps_fst (by with_reducible assumption) ?_) | split)

theorem State.touchWay_keeps {z : State} (s : State) (t : Nat) (stream : Bool) (set w : Nat) (h_s : Machine.Keeps z s) : Machine.Keeps z (State.touchWay s t stream set w) := by
  unfold State.touchWay
  try dsimp only
  repeat' (first | with_reducible (first | assumption | intro _) | simp only [keeps_mk_iff])

theorem State.writeBack_keeps {z : State} (s : State) (e : EvbEntry) (h_s : Machine.Keeps z s) : Machine.Keeps z (State.writeBack s e) := by
  unfold State.writeBack
  try dsimp only
  repeat' (first | with_reducible (first | assumption | apply ite_some_imp | intro _ | apply State.bump_keeps | apply State.setHomeRange_keeps | apply keeps_ite) | simp only [keeps_mk_iff] | (refine keeps_snd (by with_reducible assumption) ?_) | (refine keeps_fst (by with_reducible assumption) ?_) | split)

theorem State.pushEvb_keeps {z : State} (s : State) (t n : Nat) (bs : List Byte) (h_s : Machine.Keeps z s) : Machine.Keeps z (State.pushEvb s t n bs) := by
  unfold State.pushEvb
  try dsimp only
  repeat' (first | with_reducible (first | assumption | intro _) | simp only [keeps_mk_iff])

theorem State.evict_keeps {z : State} (s : State) (p : CRange → Bool) (h_s : Machine.Keeps z s) : Machine.Keeps z (State.evict s p) := by
  unfold State.evict
  try dsimp only
  repeat' (first | with_reducible (first | assumption | intro _ | apply State.pushEvb_keeps | apply keeps_foldl | apply keeps_foldl_snd | apply keeps_foldl_fst) | simp only [keeps_mk_iff])

theorem State.evbStall_keeps {z : State} (s : State) (t : Nat) (h_s : Machine.Keeps z s) : Machine.Keeps z (State.evbStall s t) := by
  unfold State.evbStall
  try dsimp only
  repeat' (first | with_reducible (first | assumption | intro _ | apply State.bump_keeps | apply State.ev_keeps))

theorem State.drainEvb_keeps {z : State} (s : State) (t k : Nat) (i0 : Nat) (h_s : Machine.Keeps z s) : Machine.Keeps z (State.drainEvb s t k i0) := by
  induction i0 generalizing s with
  | zero => exact h_s
  | succ k ih =>
    unfold State.drainEvb
    try dsimp only
    repeat' (first | with_reducible assumption | with_reducible intro _ | with_reducible apply ih | with_reducible apply State.writeBack_keeps | with_reducible apply keeps_ite | simp only [keeps_mk_iff] | (refine keeps_snd (by with_reducible assumption) ?_) | (refine keeps_fst (by with_reducible assumption) ?_) | split)

theorem State.allocWay_keeps {z u : State} {v : _} {s : State} {t : Nat} {stream : Bool} {n : Nat} (e : State.allocWay s t stream n = some (v, u)) (h_s : Machine.Keeps z s) : Machine.Keeps z u := by
  unfold State.allocWay at e
  revert e
  try dsimp only
  repeat' (first | (refine fun (e : _ = _) => ?_; cases e; done) | (refine fun (e : _ = _) => ?_; cases e) | split | (refine fun (e : _ = _) => ?_; simp only [Option.map_eq_some_iff] at e; obtain ⟨_, _, e⟩ := e; cases e) | with_reducible (first | assumption | apply ite_some_imp | intro _ | apply State.drainEvb_keeps | apply State.evbStall_keeps | apply State.evict_keeps | apply keeps_ite) | simp only [keeps_mk_iff] | (refine keeps_snd (by with_reducible assumption) ?_) | (refine keeps_fst (by with_reducible assumption) ?_) | split)

theorem State.putRange_keeps {z : State} (s : State) (t : Nat) (stream : Bool) (n w : Nat) (bs : List Byte) (dirty : Bool) (h_s : Machine.Keeps z s) : Machine.Keeps z (State.putRange s t stream n w bs dirty) := by
  unfold State.putRange
  try dsimp only
  repeat' (first | with_reducible (first | assumption | intro _ | apply State.touchWay_keeps | apply State.updCache_keeps) | simp only [keeps_mk_iff])

theorem State.fill_keeps {z : State} (s : State) (t : Nat) (stream : Bool) (n : Nat) (bs : List Byte) (dirty : Bool) (h_s : Machine.Keeps z s) : Machine.Keeps z (State.fill s t stream n bs dirty) := by
  unfold State.fill
  try dsimp only
  repeat' (first | with_reducible (first | assumption | apply ite_some_imp | intro _) | (refine State.allocWay_keeps (by with_reducible assumption) ?_ ) | with_reducible apply State.putRange_keeps | with_reducible apply State.setHomeRange_keeps | with_reducible apply keeps_ite | simp only [keeps_mk_iff] | (refine keeps_snd (by with_reducible assumption) ?_) | (refine keeps_fst (by with_reducible assumption) ?_) | split)

theorem State.serve_keeps {z : State} (s : State) (t n waiters : Nat) (bs : List Byte) (h_s : Machine.Keeps z s) : Machine.Keeps z (State.serve s t n waiters bs) := by
  unfold State.serve
  try dsimp only
  repeat' (first | with_reducible (first | assumption | intro _ | apply State.send_keeps | apply keeps_getD))

theorem State.fillEntry_keeps {z : State} (s : State) (m : MissEntry) (h_s : Machine.Keeps z s) : Machine.Keeps z (State.fillEntry s m) := by
  unfold State.fillEntry
  try dsimp only
  repeat' (first | with_reducible (first | assumption | apply ite_some_imp | intro _ | apply State.putRange_keeps | apply State.serve_keeps | apply State.updCache_keeps | apply State.writeBack_keeps | apply keeps_ite) | simp only [keeps_mk_iff] | (refine keeps_snd (by with_reducible assumption) ?_) | (refine keeps_fst (by with_reducible assumption) ?_) | split)

theorem State.maintain_keeps {z : State} (s : State) (t n k : Nat) (invalidate : Bool) (h_s : Machine.Keeps z s) : Machine.Keeps z (State.maintain s t n k invalidate) := by
  unfold State.maintain
  try dsimp only
  repeat' (first | with_reducible (first | assumption | intro _ | apply State.fillEntry_keeps | apply State.pushEvb_keeps | apply State.updCache_keeps | apply State.writeBack_keeps | apply keeps_foldl | apply keeps_foldl_snd | apply keeps_foldl_fst | apply keeps_ite) | simp only [keeps_mk_iff] | split)

theorem State.runMaint_keeps {z : State} (s : State) (m : MaintOp) (h_s : Machine.Keeps z s) : Machine.Keeps z (State.runMaint s m) := by
  unfold State.runMaint
  try dsimp only
  repeat' (first | with_reducible (first | assumption | intro _ | apply State.maintain_keeps | apply State.setF_keeps | apply State.updCache_keeps | apply keeps_ite) | simp only [keeps_mk_iff] | split)

theorem State.settleRange_keeps {z : State} (s : State) (t n : Nat) (h_s : Machine.Keeps z s) : Machine.Keeps z (State.settleRange s t n) := by
  unfold State.settleRange
  try dsimp only
  repeat' (first | with_reducible (first | assumption | apply ite_some_imp | intro _ | apply State.fillEntry_keeps | apply State.runMaint_keeps) | simp only [keeps_mk_iff] | (refine keeps_snd (by with_reducible assumption) ?_) | (refine keeps_fst (by with_reducible assumption) ?_) | split)

theorem State.fetchHome_keeps {z : State} (s : State) (h : Home) (n : Nat) (h_s : Machine.Keeps z s) : Machine.Keeps z (State.fetchHome s h n) := by
  unfold State.fetchHome
  try dsimp only
  repeat' (first | with_reducible (first | assumption | intro _ | apply State.decFetch_keeps | apply keeps_ite) | split)

theorem State.readRange_keeps {z : State} (s0 : State) (h : Home) (stream : Bool) (n : Nat) (h_s0 : Machine.Keeps z s0) : Machine.Keeps z (State.readRange s0 h stream n).2 := by
  unfold State.readRange
  try dsimp only
  repeat' (first | with_reducible (first | assumption | apply ite_some_imp | intro _ | apply State.bump_keeps | apply State.fetchHome_keeps | apply State.fill_keeps | apply State.settleRange_keeps | apply State.touchWay_keeps | apply keeps_ite) | simp only [keeps_mk_iff] | (refine keeps_snd (by with_reducible assumption) ?_) | (refine keeps_fst (by with_reducible assumption) ?_) | split)

theorem State.healRange_keeps {z : State} (s : State) (h : Home) (n o len : Nat) (h_s : Machine.Keeps z s) : Machine.Keeps z (State.healRange s h n o len) := by
  unfold State.healRange
  try dsimp only
  repeat' (first | with_reducible (first | assumption | apply ite_some_imp | intro _ | apply State.setBurstPoison_keeps | apply State.setPoison_keeps | apply keeps_foldl | apply keeps_foldl_snd | apply keeps_foldl_fst | apply keeps_ite) | split)

theorem State.writeRange_keeps {z : State} (s0 : State) (h : Home) (n o : Nat) (bs : List Byte) (h_s0 : Machine.Keeps z s0) : Machine.Keeps z (State.writeRange s0 h n o bs) := by
  unfold State.writeRange
  try dsimp only
  repeat' (first | with_reducible (first | assumption | apply ite_some_imp | intro _ | apply State.bump_keeps | apply State.fetchHome_keeps | apply State.fill_keeps | apply State.healRange_keeps | apply State.setHomeRange_keeps | apply State.settleRange_keeps | apply State.touchWay_keeps | apply State.updCache_keeps | apply State.updDec_keeps | apply keeps_ite) | simp only [keeps_mk_iff] | (refine keeps_snd (by with_reducible assumption) ?_) | (refine keeps_fst (by with_reducible assumption) ?_) | split)

end Sys2Proof.Machine
end

