-- ==== Sys2Proof/Laws/KeepSpace.lean ====
section
/-! SUPPORT. What no command changes is kept by every function of `Machine/Space.lean`. -/

set_option linter.all false

namespace Sys2Proof.Machine

theorem State.readGo_keeps {z : State} (s : State) (h : Home) (stream : Bool) (i0 : Nat) (i1 : Nat) (i2 : Nat) (h_s : Machine.Keeps z s) : Machine.Keeps z (State.readGo s h stream i0 i1 i2).2 := by
  induction i0 generalizing s i1 i2 with
  | zero => exact h_s
  | succ k ih =>
    unfold State.readGo
    try dsimp only
    repeat' (first | with_reducible assumption | with_reducible intro _ | with_reducible apply ih | with_reducible apply State.readRange_keeps | with_reducible apply keeps_ite | simp only [keeps_mk_iff] | (refine keeps_snd (by with_reducible assumption) ?_) | (refine keeps_fst (by with_reducible assumption) ?_) | split)

theorem State.readHome_keeps {z : State} (s : State) (h : Home) (stream : Bool) (a n : Nat) (h_s : Machine.Keeps z s) : Machine.Keeps z (State.readHome s h stream a n).2 := by
  unfold State.readHome
  try dsimp only
  repeat' (first | with_reducible (first | assumption | intro _ | apply State.readGo_keeps))

theorem State.readAmsGo_keeps {z : State} (s : State) (via : Nat) (stream : Bool) (i0 : Nat) (i1 : Nat) (i2 : Nat) (h_s : Machine.Keeps z s) : Machine.Keeps z (State.readAmsGo s via stream i0 i1 i2).2 := by
  induction i0 generalizing s i1 i2 with
  | zero => exact h_s
  | succ k ih =>
    unfold State.readAmsGo
    try dsimp only
    repeat' (first | with_reducible assumption | with_reducible intro _ | with_reducible apply ih | with_reducible apply State.lookMap_keeps | with_reducible apply State.readHome_keeps | with_reducible apply keeps_ite | simp only [keeps_mk_iff] | (refine keeps_snd (by with_reducible assumption) ?_) | (refine keeps_fst (by with_reducible assumption) ?_) | split)

theorem State.readAms_keeps {z : State} (s : State) (via : Nat) (stream : Bool) (a n : Nat) (h_s : Machine.Keeps z s) : Machine.Keeps z (State.readAms s via stream a n).2 := by
  unfold State.readAms
  try dsimp only
  repeat' (first | with_reducible (first | assumption | intro _ | apply State.readAmsGo_keeps))

theorem State.writeGo_keeps {z : State} (s : State) (h : Home) (i0 : Nat) (i1 : Nat) (i2 : List Byte) (h_s : Machine.Keeps z s) : Machine.Keeps z (State.writeGo s h i0 i1 i2) := by
  induction i0 generalizing s i1 i2 with
  | zero => exact h_s
  | succ k ih =>
    unfold State.writeGo
    try dsimp only
    repeat' (first | with_reducible assumption | with_reducible intro _ | with_reducible apply ih | with_reducible apply State.drop_keeps | with_reducible apply State.writeRange_keeps | with_reducible apply keeps_ite | simp only [keeps_mk_iff] | (refine keeps_snd (by with_reducible assumption) ?_) | (refine keeps_fst (by with_reducible assumption) ?_) | split)

theorem State.setGen_keeps {z : State} (s : State) (p g : Nat) (h_s : Machine.Keeps z s) : Machine.Keeps z (State.setGen s p g) := by
  unfold State.setGen
  try dsimp only
  repeat' (first | with_reducible (first | assumption | intro _) | simp only [keeps_mk_iff])

theorem State.setBorn_keeps {z : State} (s : State) (p : Nat) (h_s : Machine.Keeps z s) : Machine.Keeps z (State.setBorn s p) := by
  unfold State.setBorn
  try dsimp only
  repeat' (first | with_reducible (first | assumption | intro _ | apply keeps_ite) | simp only [keeps_mk_iff] | split)

theorem State.applyBytes_keeps {z : State} (s : State) (h : Home) (a : Nat) (bs : List Byte) (h_s : Machine.Keeps z s) : Machine.Keeps z (State.applyBytes s h a bs) := by
  unfold State.applyBytes
  try dsimp only
  repeat' (first | with_reducible (first | assumption | intro _ | apply State.noteRecopy_keeps | apply State.setBorn_keeps | apply State.setGen_keeps | apply State.writeGo_keeps | apply keeps_foldl | apply keeps_foldl_snd | apply keeps_foldl_fst))

theorem State.noteUrgent_keeps {z : State} (s : State) (t : Nat) (h_s : Machine.Keeps z s) : Machine.Keeps z (State.noteUrgent s t) := by
  unfold State.noteUrgent
  try dsimp only
  repeat' (first | with_reducible (first | assumption | intro _ | apply State.ev_keeps | apply keeps_ite) | simp only [keeps_mk_iff] | split)

theorem State.updToken_keeps {z : State} (s : State) (t p : Nat) (f : Token → Token) (h_s : Machine.Keeps z s) : Machine.Keeps z (State.updToken s t p f) := by
  unfold State.updToken
  try dsimp only
  repeat' (first | with_reducible (first | assumption | intro _ | apply keeps_ite) | simp only [keeps_mk_iff] | split)

theorem State.takeToken_keeps {z : State} (s : State) (t p n : Nat) (h_s : Machine.Keeps z s) : Machine.Keeps z (State.takeToken s t p n) := by
  unfold State.takeToken
  try dsimp only
  repeat' (first | with_reducible (first | assumption | apply ite_some_imp | intro _ | apply State.bump_keeps | apply State.noteUrgent_keeps | apply State.updFirn_keeps) | simp only [keeps_mk_iff])

theorem State.returnToken_keeps {z : State} (s : State) (t p : Nat) (h_s : Machine.Keeps z s) : Machine.Keeps z (State.returnToken s t p) := by
  unfold State.returnToken
  try dsimp only
  repeat' (first | with_reducible (first | assumption | intro _ | apply State.bump_keeps | apply State.drop_keeps | apply State.noteUrgent_keeps | apply keeps_ite) | simp only [keeps_mk_iff] | split)

theorem State.grantTokens_keeps {z : State} (s : State) (t : Nat) (ps : List Nat) (h_s : Machine.Keeps z s) : Machine.Keeps z (State.grantTokens s t ps) := by
  unfold State.grantTokens
  try dsimp only
  repeat' (first | with_reducible (first | assumption | intro _ | apply State.takeToken_keeps | apply State.updToken_keeps | apply keeps_foldl | apply keeps_foldl_snd | apply keeps_foldl_fst | apply keeps_ite) | simp only [keeps_mk_iff] | split)

theorem State.settleTokens_keeps {z : State} (s : State) (t : Nat) (ps : List Nat) (h_s : Machine.Keeps z s) : Machine.Keeps z (State.settleTokens s t ps) := by
  unfold State.settleTokens
  try dsimp only
  repeat' (first | with_reducible (first | assumption | apply ite_some_imp | intro _ | apply State.returnToken_keeps | apply State.updToken_keeps | apply keeps_foldl | apply keeps_foldl_snd | apply keeps_foldl_fst | apply keeps_ite) | simp only [keeps_mk_iff] | (refine keeps_snd (by with_reducible assumption) ?_) | (refine keeps_fst (by with_reducible assumption) ?_) | split)

theorem State.forgetPage_keeps {z : State} (s : State) (p : Nat) (h_s : Machine.Keeps z s) : Machine.Keeps z (State.forgetPage s p) := by
  unfold State.forgetPage
  try dsimp only
  repeat' (first | with_reducible (first | assumption | intro _ | apply State.allTiles_keeps | apply State.freeDen_keeps | apply State.returnToken_keeps | apply State.unmapDeep_keeps | apply State.updDeep_keeps) | simp only [keeps_mk_iff])

theorem State.deepError_keeps {z : State} (s : State) (t p step id : Nat) (h_s : Machine.Keeps z s) : Machine.Keeps z (State.deepError s t p step id) := by
  unfold State.deepError
  try dsimp only
  repeat' (first | with_reducible (first | assumption | intro _ | apply State.notify_keeps | apply keeps_getD | apply keeps_id))

theorem State.ueDone_keeps {z : State} (s : State) (t a id outcome : Nat) (h_s : Machine.Keeps z s) : Machine.Keeps z (State.ueDone s t a id outcome) := by
  unfold State.ueDone
  try dsimp only
  repeat' (first | with_reducible (first | assumption | intro _ | apply State.notify_keeps | apply State.updDec_keeps | apply keeps_id | apply keeps_ite) | simp only [keeps_mk_iff] | split)

theorem State.uePoison_keeps {z : State} (s : State) (t a b : Nat) (h_s : Machine.Keeps z s) : Machine.Keeps z (State.uePoison s t a b) := by
  unfold State.uePoison
  try dsimp only
  repeat' (first | with_reducible (first | assumption | intro _ | apply State.newErrId_keeps | apply State.recBit_keeps | apply State.setBurstPoison_keeps | apply State.storeBurst_keeps | apply State.ueDone_keeps | apply State.unwild_keeps) | (refine keeps_snd (by with_reducible assumption) ?_) | (refine keeps_fst (by with_reducible assumption) ?_) | split)

theorem State.ueReload_keeps {z : State} (s : State) (t a q : Nat) (bs : List Byte) (outcome : Nat) (h_s : Machine.Keeps z s) : Machine.Keeps z (State.ueReload s t a q bs outcome) := by
  unfold State.ueReload
  try dsimp only
  repeat' (first | with_reducible (first | assumption | intro _ | apply State.decWrite_keeps | apply State.noteRecopy_keeps | apply State.ueDone_keeps | apply State.updDec_keeps) | simp only [keeps_mk_iff])

theorem State.ueRecover_keeps {z : State} (s : State) (t a : Nat) (h_s : Machine.Keeps z s) : Machine.Keeps z (State.ueRecover s t a) := by
  unfold State.ueRecover
  try dsimp only
  repeat' (first | with_reducible (first | assumption | apply ite_some_imp | intro _ | apply State.sendFetch_keeps | apply State.uePoison_keeps | apply State.ueReload_keeps | apply State.updDec_keeps | apply keeps_ite) | simp only [keeps_mk_iff] | (refine keeps_snd (by with_reducible assumption) ?_) | (refine keeps_fst (by with_reducible assumption) ?_) | split)

theorem State.clearNear_keeps {z : State} (s : State) (a n : Nat) (h_s : Machine.Keeps z s) : Machine.Keeps z (State.clearNear s a n) := by
  unfold State.clearNear
  try dsimp only
  repeat' (first | with_reducible (first | assumption | intro _ | apply State.updDec_keeps) | simp only [keeps_mk_iff])

theorem State.nearPoison_keeps {z : State} (s : State) (h : Home) (p : Nat) (h_s : Machine.Keeps z s) : Machine.Keeps z (State.nearPoison s h p) := by
  unfold State.nearPoison
  try dsimp only
  repeat' (first | with_reducible (first | assumption | intro _ | apply State.clearNear_keeps | apply State.deepError_keeps | apply State.enqueueRec_keeps | apply State.ev_keeps | apply State.newErrId_keeps | apply State.poisonAll_keeps | apply keeps_ite) | (refine keeps_snd (by with_reducible assumption) ?_) | (refine keeps_fst (by with_reducible assumption) ?_) | split)

theorem State.nearError_keeps {z : State} (s : State) (h : Home) (p : Nat) (h_s : Machine.Keeps z s) : Machine.Keeps z (State.nearError s h p) := by
  unfold State.nearError
  try dsimp only
  repeat' (first | with_reducible (first | assumption | apply ite_some_imp | intro _ | apply State.clearNear_keeps | apply State.nearPoison_keeps | apply State.sendFetch_keeps | apply State.setBytes_keeps | apply keeps_ite) | simp only [keeps_mk_iff] | (refine keeps_snd (by with_reducible assumption) ?_) | (refine keeps_fst (by with_reducible assumption) ?_) | split)

theorem State.addNear_keeps {z : State} (s : State) (l : List NearErr) (h_s : Machine.Keeps z s) : Machine.Keeps z (State.addNear s l) := by
  unfold State.addNear
  try dsimp only
  repeat' (first | with_reducible (first | assumption | intro _ | apply State.updDec_keeps) | simp only [keeps_mk_iff])

theorem State.meetNear_keeps {z : State} (s : State) (e : Nat × Bool) (h_s : Machine.Keeps z s) : Machine.Keeps z (State.meetNear s e) := by
  unfold State.meetNear
  try dsimp only
  repeat' (first | with_reducible (first | assumption | apply ite_some_imp | intro _ | apply State.bump_keeps | apply State.nearError_keeps | apply State.updDec_keeps | apply keeps_ite) | simp only [keeps_mk_iff] | (refine keeps_snd (by with_reducible assumption) ?_) | (refine keeps_fst (by with_reducible assumption) ?_) | split)

theorem State.probe_keeps {z : State} (s : State) (a n : Nat) (h_s : Machine.Keeps z s) : Machine.Keeps z (State.probe s a n) := by
  unfold State.probe
  try dsimp only
  repeat' (first | with_reducible (first | assumption | intro _ | apply State.burstRead_keeps | apply State.meetNear_keeps | apply keeps_foldl | apply keeps_foldl_snd | apply keeps_foldl_fst | apply keeps_ite) | split)

theorem State.probePages_keeps {z : State} (s : State) (ps : List Nat) (h_s : Machine.Keeps z s) : Machine.Keeps z (State.probePages s ps) := by
  unfold State.probePages
  try dsimp only
  repeat' (first | with_reducible (first | assumption | intro _ | apply State.probe_keeps | apply keeps_foldl | apply keeps_foldl_snd | apply keeps_foldl_fst))

theorem State.probeEdges_keeps {z : State} (s : State) (a n : Nat) (h_s : Machine.Keeps z s) : Machine.Keeps z (State.probeEdges s a n) := by
  unfold State.probeEdges
  try dsimp only
  repeat' (first | with_reducible (first | assumption | intro _ | apply State.probe_keeps | apply keeps_ite) | split)

end Sys2Proof.Machine
end

