-- ==== Sys2Proof/Laws/KeepRing.lean ====
section
/-! SUPPORT. What no command changes is kept by every function of `Machine/Ring.lean`. -/

set_option linter.all false

namespace Sys2Proof.Machine

theorem State.commitOpen_keeps {z : State} (s : State) (h_s : Machine.Keeps z s) : Machine.Keeps z (State.commitOpen s) := by
  unfold State.commitOpen
  try dsimp only
  repeat' (first | with_reducible (first | assumption | apply ite_some_imp | intro _) | simp only [keeps_mk_iff] | (refine keeps_snd (by with_reducible assumption) ?_) | (refine keeps_fst (by with_reducible assumption) ?_) | split)

theorem State.arrive_keeps {z : State} (s : State) (r : EvRec) (h_s : Machine.Keeps z s) : Machine.Keeps z (State.arrive s r) := by
  unfold State.arrive
  try dsimp only
  repeat' (first | with_reducible (first | assumption | apply ite_some_imp | intro _ | apply State.bump_keeps | apply State.commitOpen_keeps | apply State.loseEvent_keeps | apply keeps_ite) | simp only [keeps_mk_iff] | (refine keeps_snd (by with_reducible assumption) ?_) | (refine keeps_fst (by with_reducible assumption) ?_) | split)

theorem State.reportLost_keeps {z : State} (s : State) (h_s : Machine.Keeps z s) : Machine.Keeps z (State.reportLost s) := by
  unfold State.reportLost
  try dsimp only
  repeat' (first | with_reducible (first | assumption | intro _ | apply State.commitOpen_keeps | apply keeps_ite) | simp only [keeps_mk_iff] | split)

theorem State.program1_keeps {z : State} (s : State) (r : EvRec) (h_s : Machine.Keeps z s) : Machine.Keeps z (State.program1 s r) := by
  unfold State.program1
  try dsimp only
  repeat' (first | with_reducible (first | assumption | intro _ | apply State.bump_keeps | apply State.eraseSectors_keeps | apply State.notify_keeps | apply State.programBytes_keeps | apply State.setF_keeps | apply keeps_ite) | split)

theorem State.commitHead_keeps {z : State} (s : State) (h_s : Machine.Keeps z s) : Machine.Keeps z (State.commitHead s) := by
  unfold State.commitHead
  try dsimp only
  repeat' (first | with_reducible (first | assumption | intro _ | apply State.program1_keeps) | simp only [keeps_mk_iff] | (refine keeps_snd (by with_reducible assumption) ?_) | (refine keeps_fst (by with_reducible assumption) ?_) | split)

theorem State.commitAll_keeps {z : State}  (i0 : Nat) (i1 : State) (h_i1 : Machine.Keeps z i1) : Machine.Keeps z (State.commitAll i0 i1) := by
  induction i0 generalizing i1 with
  | zero => exact h_i1
  | succ k ih =>
    unfold State.commitAll
    try dsimp only
    repeat' (first | with_reducible assumption | with_reducible intro _ | with_reducible apply ih | with_reducible apply State.commitHead_keeps | with_reducible apply keeps_ite | simp only [keeps_mk_iff] | (refine keeps_snd (by with_reducible assumption) ?_) | (refine keeps_fst (by with_reducible assumption) ?_) | split)

theorem State.flushRing_keeps {z : State} (s : State) (h_s : Machine.Keeps z s) : Machine.Keeps z (State.flushRing s) := by
  unfold State.flushRing
  try dsimp only
  repeat' (first | with_reducible (first | assumption | intro _ | apply State.commitAll_keeps | apply State.commitOpen_keeps))

end Sys2Proof.Machine
end

