-- ==== Sys2Proof/Laws/KeepSessionOps.lean ====
section
/-! SUPPORT. What no command changes is kept by every function of `Machine/SessionOps.lean`. -/

set_option linter.all false

namespace Sys2Proof.Machine

theorem State.setSlot_keeps {z : State} (s : State) (n : Nat) (k : KeySlot) (h_s : Machine.Keeps z s) : Machine.Keeps z (State.setSlot s n k) := by
  unfold State.setSlot
  try dsimp only
  repeat' (first | with_reducible (first | assumption | intro _) | simp only [keeps_mk_iff])

theorem State.generate_keeps {z u : State} {v : _} {s : State} (e : State.generate s = some (v, u)) (h_s : Machine.Keeps z s) : Machine.Keeps z u := by
  unfold State.generate at e
  revert e
  try dsimp only
  repeat' (first | (refine fun (e : _ = _) => ?_; cases e; done) | (refine fun (e : _ = _) => ?_; cases e) | split | (refine fun (e : _ = _) => ?_; simp only [Option.map_eq_some_iff] at e; obtain ⟨_, _, e⟩ := e; cases e) | with_reducible (first | assumption | apply ite_some_imp | intro _ | apply State.bump_keeps | apply State.draw_keeps | apply keeps_ite) | simp only [keeps_mk_iff] | (refine keeps_snd (by with_reducible assumption) ?_) | (refine keeps_fst (by with_reducible assumption) ?_) | split)

theorem State.endSession_keeps {z : State} (s : State) (p : Nat) (h_s : Machine.Keeps z s) : Machine.Keeps z (State.endSession s p) := by
  unfold State.endSession
  try dsimp only
  repeat' (first | with_reducible (first | assumption | apply ite_some_imp | intro _ | apply State.setF_keeps | apply State.setSlot_keeps | apply keeps_id | apply keeps_ite) | simp only [keeps_mk_iff] | (refine keeps_snd (by with_reducible assumption) ?_) | (refine keeps_fst (by with_reducible assumption) ?_) | split)

theorem State.endRole_keeps {z : State} (s : State) (r : Nat) (h_s : Machine.Keeps z s) : Machine.Keeps z (State.endRole s r) := by
  unfold State.endRole
  try dsimp only
  repeat' (first | with_reducible (first | assumption | intro _ | apply State.endSession_keeps | apply keeps_foldl | apply keeps_foldl_snd | apply keeps_foldl_fst))

theorem State.endAllSessions_keeps {z : State} (s : State) (h_s : Machine.Keeps z s) : Machine.Keeps z (State.endAllSessions s) := by
  unfold State.endAllSessions
  try dsimp only
  repeat' (first | with_reducible (first | assumption | intro _ | apply State.endSession_keeps | apply keeps_foldl | apply keeps_foldl_snd | apply keeps_foldl_fst))

end Sys2Proof.Machine
end

