-- ==== Sys2Proof/Laws/KeepLanes.lean ====
section
/-! SUPPORT. What no command changes is kept by every function of `Machine/Lanes.lean`. -/

set_option linter.all false

namespace Sys2Proof.Machine

theorem State.linksUntrained_keeps {z : State} (s : State) (t detail : Nat) (h_s : Machine.Keeps z s) : Machine.Keeps z (State.linksUntrained s t detail) := by
  unfold State.linksUntrained
  try dsimp only
  repeat' (first | with_reducible (first | assumption | intro _ | apply State.recOpen_keeps | apply keeps_foldl | apply keeps_foldl_snd | apply keeps_foldl_fst | apply keeps_ite) | simp only [keeps_mk_iff] | split)

theorem State.updFeed_keeps {z : State} (s : State) (f : Feed → Feed) (h_s : Machine.Keeps z s) : Machine.Keeps z (State.updFeed s f) := by
  unfold State.updFeed
  try dsimp only
  repeat' (first | with_reducible (first | assumption | intro _) | simp only [keeps_mk_iff])

theorem State.updStream_keeps {z : State} (s : State) (n : Nat) (f : FStream → FStream) (h_s : Machine.Keeps z s) : Machine.Keeps z (State.updStream s n f) := by
  unfold State.updStream
  try dsimp only
  repeat' (first | with_reducible (first | assumption | intro _ | apply State.updFeed_keeps | apply keeps_ite) | simp only [keeps_mk_iff] | split)

theorem State.noteFeedBw_keeps {z : State} (s : State) (h_s : Machine.Keeps z s) : Machine.Keeps z (State.noteFeedBw s) := by
  unfold State.noteFeedBw
  try dsimp only
  repeat' (first | with_reducible (first | assumption | intro _ | apply State.allTiles_keeps | apply State.setF_keeps))

theorem State.streamEnd_keeps {z : State} (s : State) (n cause sent seq : Nat) (h_s : Machine.Keeps z s) : Machine.Keeps z (State.streamEnd s n cause sent seq) := by
  unfold State.streamEnd
  try dsimp only
  repeat' (first | with_reducible (first | assumption | intro _ | apply State.notify_keeps))

theorem State.feedFault_keeps {z : State} (s : State) (n cause seq : Nat) (h_s : Machine.Keeps z s) : Machine.Keeps z (State.feedFault s n cause seq) := by
  unfold State.feedFault
  try dsimp only
  repeat' (first | with_reducible (first | assumption | intro _ | apply State.notify_keeps))

theorem State.streamIdle_keeps {z : State} (s : State) (n cause : Nat) (h_s : Machine.Keeps z s) : Machine.Keeps z (State.streamIdle s n cause) := by
  unfold State.streamIdle
  try dsimp only
  repeat' (first | with_reducible (first | assumption | apply ite_some_imp | intro _ | apply State.noteFeedBw_keeps | apply State.streamEnd_keeps | apply State.updFeed_keeps | apply State.updStream_keeps | apply keeps_ite) | simp only [keeps_mk_iff] | (refine keeps_snd (by with_reducible assumption) ?_) | (refine keeps_fst (by with_reducible assumption) ?_) | split)

theorem State.stopStream_keeps {z : State} (s : State) (n cause : Nat) (h_s : Machine.Keeps z s) : Machine.Keeps z (State.stopStream s n cause) := by
  unfold State.stopStream
  try dsimp only
  repeat' (first | with_reducible (first | assumption | apply ite_some_imp | intro _ | apply State.streamIdle_keeps | apply State.updStream_keeps | apply keeps_ite) | simp only [keeps_mk_iff] | (refine keeps_snd (by with_reducible assumption) ?_) | (refine keeps_fst (by with_reducible assumption) ?_) | split)

theorem State.stopLanes_keeps {z : State} (s : State) (t cause : Nat) (h_s : Machine.Keeps z s) : Machine.Keeps z (State.stopLanes s t cause) := by
  unfold State.stopLanes
  try dsimp only
  repeat' (first | with_reducible (first | assumption | intro _ | apply State.setF_keeps | apply State.streamIdle_keeps | apply keeps_foldl | apply keeps_foldl_snd | apply keeps_foldl_fst))

end Sys2Proof.Machine
end

