-- ==== Sys2Proof/Laws/KeepWake.lean ====
section
/-! SUPPORT. What no command changes is kept by every function of `Machine/Wake.lean`. -/

set_option linter.all false

namespace Sys2Proof.Machine

theorem State.dropData_keeps {z : State} (s : State) (h_s : Machine.Keeps z s) : Machine.Keeps z (State.dropData s) := by
  unfold State.dropData
  try dsimp only
  repeat' (first | with_reducible (first | assumption | intro _ | apply State.drop_keeps | apply State.endSession_keeps | apply State.setF_keeps | apply State.settleTokens_keeps | apply State.updNet_keeps | apply keeps_foldl | apply keeps_foldl_snd | apply keeps_foldl_fst) | simp only [keeps_mk_iff] | (refine keeps_snd (by with_reducible assumption) ?_) | (refine keeps_fst (by with_reducible assumption) ?_) | split)

theorem State.leaveTwin_keeps {z : State} (s : State) (quiet : Bool) (h_s : Machine.Keeps z s) : Machine.Keeps z (State.leaveTwin s quiet) := by
  unfold State.leaveTwin
  try dsimp only
  repeat' (first | with_reducible (first | assumption | apply ite_some_imp | intro _ | apply State.depart_keeps | apply State.driveActo_keeps | apply State.dropData_keeps | apply State.setRole_keeps))

theorem State.enterFault_keeps {z : State} (s : State) (c : Nat) (h_s : Machine.Keeps z s) : Machine.Keeps z (State.enterFault s c) := by
  unfold State.enterFault
  try dsimp only
  repeat' (first | with_reducible (first | assumption | intro _ | apply State.allTiles_keeps | apply State.leaveTwin_keeps | apply State.setCause_keeps | apply State.stopLanes_keeps | apply State.toState_keeps) | simp only [keeps_mk_iff] | (refine keeps_snd (by with_reducible assumption) ?_) | (refine keeps_fst (by with_reducible assumption) ?_) | split)

theorem State.enterRestricted_keeps {z : State} (s : State) (h_s : Machine.Keeps z s) : Machine.Keeps z (State.enterRestricted s) := by
  unfold State.enterRestricted
  try dsimp only
  repeat' (first | with_reducible (first | assumption | intro _ | apply State.leaveTwin_keeps | apply State.toState_keeps | apply State.updTwin_keeps) | simp only [keeps_mk_iff])

theorem State.writeSelector_keeps {z : State} (s : State) (x : Selector) (h_s : Machine.Keeps z s) : Machine.Keeps z (State.writeSelector s x) := by
  unfold State.writeSelector
  try dsimp only
  repeat' (first | with_reducible (first | assumption | intro _ | apply keeps_foldl | apply keeps_foldl_snd | apply keeps_foldl_fst | apply keeps_getD) | simp only [keeps_mk_iff])

theorem State.fwChanged_keeps {z : State} (s : State) (slot comp event : Nat) (h_s : Machine.Keeps z s) : Machine.Keeps z (State.fwChanged s slot comp event) := by
  unfold State.fwChanged
  try dsimp only
  repeat' (first | with_reducible (first | assumption | intro _ | apply State.notify_keeps))

theorem State.fwCommit_keeps {z : State} (s : State) (h_s : Machine.Keeps z s) : Machine.Keeps z (State.fwCommit s) := by
  unfold State.fwCommit
  try dsimp only
  repeat' (first | with_reducible (first | assumption | intro _ | apply State.fwChanged_keeps | apply State.setFs_keeps | apply State.writeSelector_keeps) | simp only [keeps_mk_iff])

theorem State.raiseActo_keeps {z : State} (s : State) (h_s : Machine.Keeps z s) : Machine.Keeps z (State.raiseActo s) := by
  unfold State.raiseActo
  try dsimp only
  repeat' (first | with_reducible (first | assumption | intro _ | apply State.driveActo_keeps | apply keeps_ite) | split)

theorem State.enterService_keeps {z : State} (s : State) (h_s : Machine.Keeps z s) : Machine.Keeps z (State.enterService s) := by
  unfold State.enterService
  try dsimp only
  repeat' (first | with_reducible (first | assumption | intro _ | apply State.fwCommit_keeps | apply State.toState_keeps | apply keeps_ite) | split)

theorem State.setRestricted_keeps {z : State} (s : State) (c : Nat) (b : Bool) (h_s : Machine.Keeps z s) : Machine.Keeps z (State.setRestricted s c b) := by
  unfold State.setRestricted
  try dsimp only
  repeat' (first | with_reducible (first | assumption | intro _ | apply State.enterRestricted_keeps | apply State.enterService_keeps | apply State.raiseActo_keeps | apply State.setCause_keeps | apply keeps_ite) | split)

theorem State.recomputeTile_keeps {z : State} (s : State) (t : Nat) (h_s : Machine.Keeps z s) : Machine.Keeps z (State.recomputeTile s t) := by
  unfold State.recomputeTile
  try dsimp only
  repeat' (first | with_reducible (first | assumption | intro _ | apply State.ev_keeps | apply State.noteUrgent_keeps | apply State.setFs_keeps | apply keeps_ite) | split)

theorem State.recomputeCeiling_keeps {z : State} (s : State) (why : Nat) (h_s : Machine.Keeps z s) : Machine.Keeps z (State.recomputeCeiling s why) := by
  unfold State.recomputeCeiling
  try dsimp only
  repeat' (first | with_reducible (first | assumption | intro _ | apply State.allTiles_keeps | apply State.named_keeps | apply State.notify_keeps | apply State.recomputeTile_keeps | apply State.setRestricted_keeps | apply keeps_ite) | split)

theorem State.cutShort_keeps {z : State} (s : State) (t : Nat) (h_s : Machine.Keeps z s) : Machine.Keeps z (State.cutShort s t) := by
  unfold State.cutShort
  try dsimp only
  repeat' (first | with_reducible (first | assumption | apply ite_some_imp | intro _ | apply State.draw_keeps | apply State.updArray_keeps | apply State.wipe_keeps | apply keeps_ite) | simp only [keeps_mk_iff] | (refine keeps_snd (by with_reducible assumption) ?_) | (refine keeps_fst (by with_reducible assumption) ?_) | split)

theorem State.loseVolatile_keeps {z : State} (s : State) (h_s : Keeps z s) : Keeps z (State.loseVolatile s) := by
  unfold State.loseVolatile
  dsimp only
  exact keeps_mk_filter (State.allTiles_keeps _ _ (State.endAllSessions_keeps s h_s) (fun t a h => State.cutShort_keeps a t h))

theorem State.resetRegs_keeps {z : State} (s : State) (h_s : Machine.Keeps z s) : Machine.Keeps z (State.resetRegs s) := by
  unfold State.resetRegs
  try dsimp only
  repeat' (first | with_reducible (first | assumption | intro _ | apply State.setAll_keeps | apply State.setF_keeps) | simp only [keeps_mk_iff])

theorem State.enterBoot_keeps {z : State} (s : State) (cause : Nat) (h_s : Machine.Keeps z s) : Machine.Keeps z (State.enterBoot s cause) := by
  unfold State.enterBoot
  try dsimp only
  repeat' (first | with_reducible (first | assumption | apply ite_some_imp | intro _ | apply State.loseVolatile_keeps | apply State.resetRegs_keeps | apply State.setF_keeps | apply State.toState_keeps) | simp only [keeps_mk_iff])

theorem State.railsOff_keeps {z : State} (s : State) (h_s : Machine.Keeps z s) : Machine.Keeps z (State.railsOff s) := by
  unfold State.railsOff
  try dsimp only
  repeat' (first | with_reducible (first | assumption | intro _ | apply State.loseVolatile_keeps | apply State.resetRegs_keeps | apply State.setF_keeps | apply State.toState_keeps) | simp only [keeps_mk_iff])

theorem State.freezeTile_keeps {z : State} (s : State) (t src : Nat) (h_s : Machine.Keeps z s) : Machine.Keeps z (State.freezeTile s t src) := by
  unfold State.freezeTile
  try dsimp only
  repeat' (first | with_reducible (first | assumption | intro _ | apply State.ev_keeps | apply State.setF_keeps | apply State.setFs_keeps | apply keeps_ite) | simp only [keeps_mk_iff] | split)

theorem State.endPanic_keeps {z : State} (s : State) (h_s : Machine.Keeps z s) : Machine.Keeps z (State.endPanic s) := by
  unfold State.endPanic
  try dsimp only
  repeat' (first | with_reducible (first | assumption | intro _ | apply State.notePanic_keeps | apply keeps_foldl | apply keeps_foldl_snd | apply keeps_foldl_fst))

theorem State.beginFreeze_keeps {z : State} (s : State) (src : Nat) (h_s : Machine.Keeps z s) : Machine.Keeps z (State.beginFreeze s src) := by
  unfold State.beginFreeze
  try dsimp only
  repeat' (first | with_reducible (first | assumption | apply ite_some_imp | intro _ | apply State.commitOpen_keeps | apply State.endAllSessions_keeps | apply State.endPanic_keeps | apply State.leaveTwin_keeps | apply State.toState_keeps) | simp only [keeps_mk_iff])

theorem State.ranksUp_keeps {z : State} (s : State) (t : Nat) (h_s : Machine.Keeps z s) : Machine.Keeps z (State.ranksUp s t) := by
  unfold State.ranksUp
  try dsimp only
  repeat' (first | with_reducible (first | assumption | intro _ | apply State.admitHeld_keeps | apply State.setF_keeps | apply State.updDmc_keeps | apply keeps_foldl | apply keeps_foldl_snd | apply keeps_foldl_fst | apply keeps_ite) | simp only [keeps_mk_iff] | split)

theorem State.freezeTrigger_keeps {z : State} (s : State) (t src : Nat) (h_s : Machine.Keeps z s) : Machine.Keeps z (State.freezeTrigger s t src) := by
  unfold State.freezeTrigger
  try dsimp only
  repeat' (first | with_reducible (first | assumption | intro _ | apply State.allTiles_keeps | apply State.beginFreeze_keeps | apply State.freezeTile_keeps | apply State.railsOff_keeps | apply State.ranksUp_keeps | apply State.setF_keeps | apply keeps_ite) | simp only [keeps_mk_iff] | (refine keeps_snd (by with_reducible assumption) ?_) | (refine keeps_fst (by with_reducible assumption) ?_) | split)

theorem State.freezeOthers_keeps {z : State} (s : State) (h_s : Machine.Keeps z s) : Machine.Keeps z (State.freezeOthers s) := by
  unfold State.freezeOthers
  try dsimp only
  repeat' (first | with_reducible (first | assumption | intro _ | apply State.allTiles_keeps | apply State.freezeTile_keeps | apply keeps_ite) | split)

theorem State.resetVia_keeps {z : State} (s : State) (code : Nat) (h_s : Machine.Keeps z s) : Machine.Keeps z (State.resetVia s code) := by
  unfold State.resetVia
  try dsimp only
  repeat' (first | with_reducible (first | assumption | intro _ | apply State.allTiles_keeps | apply State.ev_keeps | apply State.freezeTile_keeps | apply State.freezeTrigger_keeps | apply State.railsOff_keeps | apply keeps_ite) | simp only [keeps_mk_iff] | (refine keeps_snd (by with_reducible assumption) ?_) | (refine keeps_fst (by with_reducible assumption) ?_) | split)

theorem State.resumeService_keeps {z : State} (s : State) (h_s : Machine.Keeps z s) : Machine.Keeps z (State.resumeService s) := by
  unfold State.resumeService
  try dsimp only
  repeat' (first | with_reducible (first | assumption | intro _ | apply State.allTiles_keeps | apply State.noteUrgent_keeps | apply State.notifyNow_keeps | apply State.raiseActo_keeps | apply State.setF_keeps | apply keeps_foldl | apply keeps_foldl_snd | apply keeps_foldl_fst) | simp only [keeps_mk_iff])

theorem State.cacheBack_keeps {z : State} (s : State) (t : Nat) (h_s : Machine.Keeps z s) : Machine.Keeps z (State.cacheBack s t) := by
  unfold State.cacheBack
  try dsimp only
  repeat' (first | with_reducible (first | assumption | intro _ | apply State.setFs_keeps | apply keeps_ite) | split)

theorem State.abortSleep_keeps {z : State} (s : State) (h_s : Machine.Keeps z s) : Machine.Keeps z (State.abortSleep s) := by
  unfold State.abortSleep
  try dsimp only
  repeat' (first | with_reducible (first | assumption | intro _ | apply State.allTiles_keeps | apply State.cacheBack_keeps | apply State.evRec_keeps | apply State.resumeService_keeps | apply keeps_ite) | split)

theorem State.railSet_keeps {z : State} (s : State) (core sram : Nat) (h_s : Machine.Keeps z s) : Machine.Keeps z (State.railSet s core sram) := by
  unfold State.railSet
  try dsimp only
  repeat' (first | with_reducible (first | assumption | intro _ | apply State.allTiles_keeps | apply State.setFs_keeps))

theorem State.ungate_keeps {z : State} (s : State) (h_s : Machine.Keeps z s) : Machine.Keeps z (State.ungate s) := by
  unfold State.ungate
  try dsimp only
  repeat' (first | with_reducible (first | assumption | intro _ | apply State.allTiles_keeps | apply State.ranksUp_keeps | apply State.setF_keeps | apply keeps_ite) | split)

theorem State.wakeUp_keeps {z : State} (s : State) (src : Nat) (h_s : Machine.Keeps z s) : Machine.Keeps z (State.wakeUp s src) := by
  unfold State.wakeUp
  try dsimp only
  repeat' (first | with_reducible (first | assumption | intro _ | apply State.abortSleep_keeps | apply State.allTiles_keeps | apply State.bump_keeps | apply State.cacheBack_keeps | apply State.enterBoot_keeps | apply State.enterService_keeps | apply State.railSet_keeps | apply State.resumeService_keeps | apply State.setF_keeps | apply State.setFs_keeps | apply State.ungate_keeps | apply keeps_ite) | simp only [keeps_mk_iff] | (refine keeps_snd (by with_reducible assumption) ?_) | (refine keeps_fst (by with_reducible assumption) ?_) | split)

end Sys2Proof.Machine
end

