-- ==== Sys2Proof/Laws/KeepPortion.lean ====
section
/-! SUPPORT. What no command changes is kept by every function of `Machine/Portion.lean`. -/

set_option linter.all false

namespace Sys2Proof.Machine

theorem State.mirrorQp_keeps {z : State} (s : State) (n : Nat) (h_s : Machine.Keeps z s) : Machine.Keeps z (State.mirrorQp s n) := by
  unfold State.mirrorQp
  try dsimp only
  repeat' (first | with_reducible (first | assumption | apply ite_some_imp | intro _ | apply State.mirrorItem_keeps | apply keeps_ite) | simp only [keeps_mk_iff] | (refine keeps_snd (by with_reducible assumption) ?_) | (refine keeps_fst (by with_reducible assumption) ?_) | split)

theorem State.updChain_keeps {z : State} (s : State) (n : Nat) (f : Chain → Chain) (h_s : Machine.Keeps z s) : Machine.Keeps z (State.updChain s n f) := by
  unfold State.updChain
  try dsimp only
  repeat' (first | with_reducible (first | assumption | intro _ | apply State.updNet_keeps | apply keeps_ite) | simp only [keeps_mk_iff] | split)

theorem State.countUp_keeps {z : State} (s : State) (n : Nat) (h_s : Machine.Keeps z s) : Machine.Keeps z (State.countUp s n) := by
  unfold State.countUp
  try dsimp only
  repeat' (first | with_reducible (first | assumption | apply ite_some_imp | intro _ | apply State.mirrorItem_keeps | apply State.updChain_keeps) | simp only [keeps_mk_iff] | (refine keeps_snd (by with_reducible assumption) ?_) | (refine keeps_fst (by with_reducible assumption) ?_) | split)

theorem State.updPortion_keeps {z : State} (s : State) (i : Nat) (f : Portion → Portion) (h_s : Machine.Keeps z s) : Machine.Keeps z (State.updPortion s i f) := by
  unfold State.updPortion
  try dsimp only
  repeat' (first | with_reducible (first | assumption | intro _ | apply State.updNet_keeps | apply keeps_id | apply keeps_ite) | simp only [keeps_mk_iff] | split)

theorem State.portionLast_keeps {z : State} (s : State) (p : Portion) (h_s : Machine.Keeps z s) : Machine.Keeps z (State.portionLast s p) := by
  unfold State.portionLast
  try dsimp only
  repeat' (first | with_reducible (first | assumption | intro _ | apply State.updNet_keeps | apply keeps_id) | simp only [keeps_mk_iff])

theorem State.dropPortion_keeps {z : State} (s : State) (i : Nat) (h_s : Machine.Keeps z s) : Machine.Keeps z (State.dropPortion s i) := by
  unfold State.dropPortion
  try dsimp only
  repeat' (first | with_reducible (first | assumption | intro _ | apply State.updNet_keeps | apply keeps_id) | simp only [keeps_mk_iff])

theorem State.addPortion_keeps {z : State} (s : State) (src : Src) (capsule force : Bool) (kind : PKind) (a n : Nat) (data : List Byte) (poison : List (Nat × Nat)) (h_s : Machine.Keeps z s) : Machine.Keeps z (State.addPortion s src capsule force kind a n data poison) := by
  unfold State.addPortion
  try dsimp only
  repeat' (first | with_reducible (first | assumption | apply ite_some_imp | intro _ | apply State.lookMap_keeps | apply State.updNet_keeps) | simp only [keeps_mk_iff])

theorem State.askImage_keeps {z : State} (s : State) (t page : Nat) (h_s : Machine.Keeps z s) : Machine.Keeps z (State.askImage s t page) := by
  unfold State.askImage
  try dsimp only
  repeat' (first | with_reducible (first | assumption | intro _ | apply State.addPortion_keeps))

theorem State.headPages_keeps {z : State} (s : State) (ps : List Nat) (h_s : Machine.Keeps z s) : Machine.Keeps z (State.headPages s ps) := by
  unfold State.headPages
  try dsimp only
  repeat' (first | with_reducible (first | assumption | intro _ | apply State.updFirn_keeps) | simp only [keeps_mk_iff])

theorem State.grant_keeps {z : State} (s : State) (p : Portion) (h_s : Machine.Keeps z s) : Machine.Keeps z (State.grant s p) := by
  unfold State.grant
  try dsimp only
  repeat' (first | with_reducible (first | assumption | intro _ | apply State.bump_keeps | apply State.dropPortion_keeps | apply State.grantTokens_keeps | apply State.headPages_keeps | apply State.lookMap_keeps | apply State.portionLast_keeps | apply State.takeToken_keeps | apply keeps_foldl | apply keeps_foldl_snd | apply keeps_foldl_fst | apply keeps_id | apply keeps_ite) | simp only [keeps_mk_iff] | split)

theorem State.askAdmit_keeps {z : State} (s : State) (p : Portion) (h_s : Machine.Keeps z s) : Machine.Keeps z (State.askAdmit s p) := by
  unfold State.askAdmit
  try dsimp only
  repeat' (first | with_reducible (first | assumption | intro _ | apply State.ev_keeps | apply State.grant_keeps | apply State.portionLast_keeps | apply keeps_ite) | simp only [keeps_mk_iff] | split)

theorem State.mirrorApplied_keeps {z : State} (s : State) (p : Portion) (kind : Nat) (body : List Byte) (h_s : Machine.Keeps z s) : Machine.Keeps z (State.mirrorApplied s p kind body).1 := by
  unfold State.mirrorApplied
  try dsimp only
  repeat' (first | with_reducible (first | assumption | apply ite_some_imp | intro _ | apply State.bump_keeps | apply State.emit_keeps | apply State.setDivBit_keeps | apply keeps_ite) | (refine keeps_snd (by with_reducible assumption) ?_) | (refine keeps_fst (by with_reducible assumption) ?_) | split)

theorem State.noteForce_keeps {z : State} (s : State) (p : Portion) (seq : Option Nat) (h_s : Machine.Keeps z s) : Machine.Keeps z (State.noteForce s p seq) := by
  unfold State.noteForce
  try dsimp only
  repeat' (first | with_reducible (first | assumption | intro _ | apply State.updNet_keeps | apply keeps_ite) | simp only [keeps_mk_iff] | split)

theorem State.noteLocal_keeps {z : State} (s : State) (p : Portion) (h_s : Machine.Keeps z s) : Machine.Keeps z (State.noteLocal s p) := by
  unfold State.noteLocal
  try dsimp only
  repeat' (first | with_reducible (first | assumption | apply ite_some_imp | intro _ | apply State.mirrorQp_keeps | apply State.updQp_keeps | apply keeps_ite) | simp only [keeps_mk_iff] | (refine keeps_snd (by with_reducible assumption) ?_) | (refine keeps_fst (by with_reducible assumption) ?_) | split)

theorem State.applyPortion_keeps {z : State} (s : State) (p : Portion) (h_s : Machine.Keeps z s) : Machine.Keeps z (State.applyPortion s p) := by
  unfold State.applyPortion
  try dsimp only
  repeat' (first | with_reducible (first | assumption | apply ite_some_imp | intro _ | apply State.applyBytes_keeps | apply State.mirrorApplied_keeps | apply State.noteForce_keeps | apply State.noteLocal_keeps | apply State.readHome_keeps | apply State.setPoison_keeps | apply State.settleTokens_keeps | apply State.updPortion_keeps | apply State.updQp_keeps | apply keeps_foldl | apply keeps_foldl_snd | apply keeps_foldl_fst | apply keeps_id | apply keeps_ite) | simp only [keeps_mk_iff] | (refine keeps_snd (by with_reducible assumption) ?_) | (refine keeps_fst (by with_reducible assumption) ?_) | split)

theorem State.cutReq_keeps {z : State} (s : State) (p : Portion) (h_s : Machine.Keeps z s) : Machine.Keeps z (State.cutReq s p) := by
  unfold State.cutReq
  try dsimp only
  repeat' (first | with_reducible (first | assumption | intro _ | apply State.updQp_keeps | apply keeps_ite) | simp only [keeps_mk_iff] | (refine keeps_snd (by with_reducible assumption) ?_) | (refine keeps_fst (by with_reducible assumption) ?_) | split)

theorem State.discardPortion_keeps {z : State} (s : State) (p : Portion) (h_s : Machine.Keeps z s) : Machine.Keeps z (State.discardPortion s p) := by
  unfold State.discardPortion
  try dsimp only
  repeat' (first | with_reducible (first | assumption | intro _ | apply State.cutReq_keeps | apply State.dropPortion_keeps | apply State.settleTokens_keeps | apply keeps_id | apply keeps_ite) | split)

theorem State.settleReqs_keeps {z : State} (s : State) (n : Nat) (h_s : Machine.Keeps z s) : Machine.Keeps z (State.settleReqs s n) := by
  unfold State.settleReqs
  try dsimp only
  repeat' (first | with_reducible (first | assumption | apply ite_some_imp | intro _ | apply State.countUp_keeps | apply State.updNet_keeps | apply State.updQp_keeps | apply keeps_foldl | apply keeps_foldl_snd | apply keeps_foldl_fst | apply keeps_ite) | simp only [keeps_mk_iff] | (refine keeps_snd (by with_reducible assumption) ?_) | (refine keeps_fst (by with_reducible assumption) ?_) | split)

theorem State.settleAll_keeps {z : State} (s : State) (h_s : Machine.Keeps z s) : Machine.Keeps z (State.settleAll s) := by
  unfold State.settleAll
  try dsimp only
  repeat' (first | with_reducible (first | assumption | intro _ | apply State.settleReqs_keeps | apply keeps_foldl | apply keeps_foldl_snd | apply keeps_foldl_fst))

theorem execAdmitPortion_keeps {z : State} (id : Nat) (s : State) (h_s : Machine.Keeps z s) : OutKeeps z (execAdmitPortion id s) := by
  unfold execAdmitPortion
  try dsimp only
  repeat' (first | with_reducible (first | assumption | apply ite_some_imp | intro _ | apply State.askAdmit_keeps | apply keeps_id) | simp only [keeps_mk_iff] | with_reducible apply outKeeps_next | (refine keeps_snd (by with_reducible assumption) ?_) | (refine keeps_fst (by with_reducible assumption) ?_) | split)

theorem execTokenGrant_keeps {z : State} (tile : Nat) (s : State) (h_s : Machine.Keeps z s) : OutKeeps z (execTokenGrant tile s) := by
  unfold execTokenGrant
  try dsimp only
  repeat' (first | with_reducible (first | assumption | apply ite_some_imp | intro _ | apply State.grant_keeps | apply onTile_keeps | apply keeps_ite) | simp only [keeps_mk_iff] | with_reducible apply outKeeps_next | with_reducible apply outKeeps_ite | (refine keeps_snd (by with_reducible assumption) ?_) | (refine keeps_fst (by with_reducible assumption) ?_) | split)

theorem execDiscardPortion_keeps {z : State} (id : Nat) (s : State) (h_s : Machine.Keeps z s) : OutKeeps z (execDiscardPortion id s) := by
  unfold execDiscardPortion
  try dsimp only
  repeat' (first | with_reducible (first | assumption | apply ite_some_imp | intro _ | apply State.discardPortion_keeps | apply keeps_id | apply keeps_ite) | simp only [keeps_mk_iff] | with_reducible apply outKeeps_next | with_reducible apply outKeeps_ite | (refine keeps_snd (by with_reducible assumption) ?_) | (refine keeps_fst (by with_reducible assumption) ?_) | split)

end Sys2Proof.Machine
end

