-- ==== Sys2Proof/Laws/KeepFirn.lean ====
section
/-! SUPPORT. What no command changes is kept by every function of `Machine/Firn.lean`. -/

set_option linter.all false

namespace Sys2Proof.Machine

theorem State.ackCommitted_keeps {z : State} (s : State) (t : Nat) (h_s : Machine.Keeps z s) : Machine.Keeps z (State.ackCommitted s t) := by
  unfold State.ackCommitted
  try dsimp only
  repeat' (first | with_reducible (first | assumption | intro _ | apply State.twinSend_keeps | apply State.updTwl_keeps | apply keeps_foldl | apply keeps_foldl_snd | apply keeps_foldl_fst | apply keeps_ite) | simp only [keeps_mk_iff] | split)

theorem State.capturePage_keeps {z : State} (s : State) (t p : Nat) (h_s : Machine.Keeps z s) : Machine.Keeps z (State.capturePage s t p).2 := by
  unfold State.capturePage
  try dsimp only
  repeat' (first | with_reducible (first | assumption | apply ite_some_imp | intro _ | apply State.readHome_keeps | apply State.updFirn_keeps | apply State.updToken_keeps) | simp only [keeps_mk_iff] | (refine keeps_snd (by with_reducible assumption) ?_) | (refine keeps_fst (by with_reducible assumption) ?_) | split)

theorem State.captureUnit_keeps {z : State} (s : State) (t u : Nat) (h_s : Machine.Keeps z s) : Machine.Keeps z (State.captureUnit s t u) := by
  unfold State.captureUnit
  try dsimp only
  repeat' (first | with_reducible (first | assumption | intro _ | apply State.capturePage_keeps | apply State.probePages_keeps | apply State.updFirn_keeps | apply keeps_foldl | apply keeps_foldl_snd | apply keeps_foldl_fst | apply keeps_ite) | simp only [keeps_mk_iff] | (refine keeps_snd (by with_reducible assumption) ?_) | (refine keeps_fst (by with_reducible assumption) ?_) | split)

theorem execFirnCapture_keeps {z : State} (tile : Nat) (near : List NearErr) (s : State) (h_s : Machine.Keeps z s) : OutKeeps z (execFirnCapture tile near s) := by
  unfold execFirnCapture
  try dsimp only
  repeat' (first | with_reducible (first | assumption | apply ite_some_imp | intro _ | apply State.addNear_keeps | apply State.captureUnit_keeps | apply onTile_keeps | apply keeps_ite) | simp only [keeps_mk_iff] | with_reducible apply outKeeps_next | with_reducible apply outKeeps_ite | (refine keeps_snd (by with_reducible assumption) ?_) | (refine keeps_fst (by with_reducible assumption) ?_) | split)

theorem execFirnDeepMerge_keeps {z : State} (tile page : Nat) (s : State) (h_s : Machine.Keeps z s) : OutKeeps z (execFirnDeepMerge tile page s) := by
  unfold execFirnDeepMerge
  try dsimp only
  repeat' (first | with_reducible (first | assumption | intro _ | apply State.captureUnit_keeps | apply onTile_keeps | apply keeps_ite | apply outKeeps_next | apply outKeeps_ite) | split)

theorem State.verifyPage_keeps {z : State} (s : State) (t : Nat) (c : CapPage) (h_s : Machine.Keeps z s) : Machine.Keeps z (State.verifyPage s t c) := by
  unfold State.verifyPage
  try dsimp only
  repeat' (first | with_reducible (first | assumption | apply ite_some_imp | intro _ | apply State.bump_keeps | apply State.programDeep_keeps | apply State.returnToken_keeps | apply State.updFirn_keeps | apply keeps_ite) | simp only [keeps_mk_iff] | (refine keeps_snd (by with_reducible assumption) ?_) | (refine keeps_fst (by with_reducible assumption) ?_) | split)

theorem State.programVerified_keeps {z : State} (s : State) (t u us : Nat) (h_s : Machine.Keeps z s) : Machine.Keeps z (State.programVerified s t u us) := by
  unfold State.programVerified
  try dsimp only
  repeat' (first | with_reducible (first | assumption | apply ite_some_imp | intro _ | apply State.ackCommitted_keeps | apply State.alignHead_keeps | apply State.closeRow_keeps | apply State.noteProgram_keeps | apply State.updFirn_keeps | apply State.verifyPage_keeps | apply keeps_foldl | apply keeps_foldl_snd | apply keeps_foldl_fst | apply keeps_id | apply keeps_ite) | simp only [keeps_mk_iff] | (refine keeps_snd (by with_reducible assumption) ?_) | (refine keeps_fst (by with_reducible assumption) ?_) | split)

theorem execProgramVerified_keeps {z : State} (tile unit us : Nat) (s : State) (h_s : Machine.Keeps z s) : OutKeeps z (execProgramVerified tile unit us s) := by
  unfold execProgramVerified
  try dsimp only
  repeat' (first | with_reducible (first | assumption | intro _ | apply State.ev_keeps | apply onTile_keeps | apply State.programVerified_keeps | apply keeps_ite | apply outKeeps_next | apply outKeeps_ite) | split)

theorem execFirnBooksCheck_keeps {z : State} (tile : Nat) (s : State) (h_s : Machine.Keeps z s) : OutKeeps z (execFirnBooksCheck tile s) := by
  unfold execFirnBooksCheck
  try dsimp only
  repeat' (first | with_reducible (first | assumption | intro _ | apply State.evRec_keeps | apply onTile_keeps | apply State.setF_keeps | apply keeps_ite | apply outKeeps_next | apply outKeeps_ite) | split)

theorem execLocalImageWrite_keeps {z : State} (page : Nat) (s : State) (h_s : Machine.Keeps z s) : OutKeeps z (execLocalImageWrite page s) := by
  unfold execLocalImageWrite
  try dsimp only
  repeat' (first | with_reducible (first | assumption | apply ite_some_imp | intro _ | apply State.alignHead_keeps | apply State.closeRow_keeps | apply State.probePages_keeps | apply State.programDeep_keeps | apply State.readHome_keeps | apply State.unmapDeep_keeps | apply keeps_foldl | apply keeps_foldl_snd | apply keeps_foldl_fst | apply keeps_ite) | simp only [keeps_mk_iff] | with_reducible apply outKeeps_next | with_reducible apply outKeeps_ite | (refine keeps_snd (by with_reducible assumption) ?_) | (refine keeps_fst (by with_reducible assumption) ?_) | split)

end Sys2Proof.Machine
end

