-- ==== Sys2Proof/Laws/KeepMailbox.lean ====
section
/-! SUPPORT. What no command changes is kept by every function of `Machine/Mailbox.lean`. -/

set_option linter.all false

namespace Sys2Proof.Machine

theorem State.respond_keeps {z : State} (s : State) (p : Nat) (bytes : List Byte) (h_s : Machine.Keeps z s) : Machine.Keeps z (State.respond s p bytes) := by
  unfold State.respond
  try dsimp only
  repeat' (first | with_reducible (first | assumption | intro _ | apply State.pointMsg_keeps | apply State.send_keeps | apply keeps_ite) | simp only [keeps_mk_iff] | split)

theorem State.audit_keeps {z : State} (s : State) (c : Caller) (opcode : Nat) (pl : List Byte) (denied : Bool) (h_s : Machine.Keeps z s) : Machine.Keeps z (State.audit s c opcode pl denied) := by
  unfold State.audit
  try dsimp only
  repeat' (first | with_reducible (first | assumption | intro _ | apply State.bump_keeps | apply State.enqueueRec_keeps | apply keeps_ite) | simp only [keeps_mk_iff] | split)

theorem State.refuseReq_keeps {z : State} (s : State) (f : Frame) (x : Option Session) (step : Nat) (st : Status) (h_s : Machine.Keeps z s) : Machine.Keeps z (State.refuseReq s f x step st) := by
  unfold State.refuseReq
  try dsimp only
  repeat' (first | with_reducible (first | assumption | intro _ | apply State.audit_keeps | apply State.ev_keeps | apply State.respond_keeps | apply State.setFs_keeps | apply keeps_getD | apply keeps_id | apply keeps_ite) | simp only [keeps_mk_iff] | split)

theorem State.finishCmd_keeps {z : State} (s : State) (acting mirror : Bool) (f : Frame) (x : Option (Nat × Nat)) (role : Nat) (st : Status) (pl : List Byte) (h_s : Machine.Keeps z s) : Machine.Keeps z (State.finishCmd s acting mirror f x role st pl) := by
  unfold State.finishCmd
  try dsimp only
  repeat' (first | with_reducible (first | assumption | apply ite_some_imp | intro _ | apply State.audit_keeps | apply State.ev_keeps | apply State.mirrorCommand_keeps | apply State.respond_keeps | apply State.updSession_keeps | apply keeps_getD | apply keeps_id | apply keeps_ite) | simp only [keeps_mk_iff] | (refine keeps_snd (by with_reducible assumption) ?_) | (refine keeps_fst (by with_reducible assumption) ?_) | split)

theorem State.finishWait_keeps {z : State} (s : State) (key cause : Nat) (st : Status) (pl : List Byte) (h_s : Machine.Keeps z s) : Machine.Keeps z (State.finishWait s key cause st pl) := by
  unfold State.finishWait
  try dsimp only
  repeat' (first | with_reducible (first | assumption | apply ite_some_imp | intro _ | apply State.finishCmd_keeps) | simp only [keeps_mk_iff] | (refine keeps_snd (by with_reducible assumption) ?_) | (refine keeps_fst (by with_reducible assumption) ?_) | split)

theorem State.haltStream_keeps {z : State} (s : State) (n cause : Nat) (st : Status) (h_s : Machine.Keeps z s) : Machine.Keeps z (State.haltStream s n cause st) := by
  unfold State.haltStream
  try dsimp only
  repeat' (first | with_reducible (first | assumption | intro _ | apply State.finishWait_keeps | apply State.stopStream_keeps | apply keeps_ite) | split)

theorem Cmd.execute_keeps {z : State} (c : Cmd) (f : Frame) (x : Option Session) (s : State) (h_c : c.Keeps) (h_s : Machine.Keeps z s) : Machine.Keeps z (Cmd.execute c f x s) := by
  unfold Cmd.execute
  try dsimp only
  repeat' (first | with_reducible (first | assumption | apply ite_some_imp | intro _ | apply (Cmd.out_keeps h_c) | apply State.bump_keeps | apply State.finishCmd_keeps | apply State.mirrorCommand_keeps | apply keeps_getD | apply keeps_id | apply keeps_ite) | simp only [keeps_mk_iff] | with_reducible apply Cmd.out_keeps | with_reducible apply CmdOut.s_keeps | with_reducible apply CmdOut.after_keeps | (refine keeps_snd (by with_reducible assumption) ?_) | (refine keeps_fst (by with_reducible assumption) ?_) | split)

theorem State.takeInput_keeps {z : State} (s : State) (f : Frame) (h_s : Machine.Keeps z s) : Machine.Keeps z (State.takeInput s f) := by
  unfold State.takeInput
  try dsimp only
  repeat' (first | with_reducible (first | assumption | intro _) | simp only [keeps_mk_iff])

theorem State.frameWake_keeps {z : State} (s : State) (p : Nat) (h_s : Machine.Keeps z s) : Machine.Keeps z (State.frameWake s p) := by
  unfold State.frameWake
  try dsimp only
  repeat' (first | with_reducible (first | assumption | intro _ | apply State.wakeUp_keeps | apply keeps_ite) | split)

theorem mailbox_keeps {z : State} (c : Cmd) (f0 : Frame) (s0 : State) (h_c : c.Keeps) (h_s0 : Machine.Keeps z s0) : Machine.Keeps z (mailbox c f0 s0) := by
  unfold mailbox
  try dsimp only
  repeat' (first | with_reducible (first | assumption | intro _ | apply (Cmd.out_keeps h_c) | apply State.abortSleep_keeps | apply Cmd.execute_keeps | apply State.frameWake_keeps | apply State.refuseReq_keeps | apply State.respond_keeps | apply State.takeInput_keeps | apply keeps_ite) | simp only [keeps_mk_iff] | with_reducible apply Cmd.out_keeps | with_reducible apply CmdOut.s_keeps | with_reducible apply CmdOut.after_keeps | (refine keeps_snd (by with_reducible assumption) ?_) | (refine keeps_fst (by with_reducible assumption) ?_) | split)

theorem mailboxUnknown_keeps {z : State} (f : Frame) (s0 : State) (h_s0 : Machine.Keeps z s0) : Machine.Keeps z (mailboxUnknown f s0) := by
  unfold mailboxUnknown
  try dsimp only
  repeat' (first | with_reducible (first | assumption | apply ite_some_imp | intro _ | apply State.abortSleep_keeps | apply State.frameWake_keeps | apply State.refuseReq_keeps | apply keeps_ite) | simp only [keeps_mk_iff] | (refine keeps_snd (by with_reducible assumption) ?_) | (refine keeps_fst (by with_reducible assumption) ?_) | split)

theorem readCmd_keeps (opcode : Nat) (cls : CmdClass) (check : State → List Byte → Bool) (run : Caller → List Byte → State → CmdOut)
    (h : ∀ z k pl s, Machine.Keeps z s → (run k pl s).Keeps z) : (readCmd opcode cls check run).Keeps := h

theorem actCmd_keeps (opcode : Nat) (roles : List Nat) (cls : CmdClass) (check : State → List Byte → Bool)
    (run : Caller → List Byte → State → CmdOut) (h : ∀ z k pl s, Machine.Keeps z s → (run k pl s).Keeps z) :
    (actCmd opcode roles cls check run).Keeps := h

theorem mirCmd_keeps (opcode : Nat) (roles : List Nat) (cls : CmdClass) (check : State → List Byte → Bool)
    (run : Caller → List Byte → State → CmdOut) (h : ∀ z k pl s, Machine.Keeps z s → (run k pl s).Keeps z) :
    (mirCmd opcode roles cls check run).Keeps := h

end Sys2Proof.Machine
end

