-- ==== Sys2Proof/Laws/KeepFrames.lean ====
section
/-! SUPPORT. What no command changes is kept by every function of `Machine/Frames.lean`. -/

set_option linter.all false

namespace Sys2Proof.Machine

theorem State.freeFrameBytes_keeps {z : State} (s : State) (h : Home) (h_s : Machine.Keeps z s) : Machine.Keeps z (State.freeFrameBytes s h) := by
  unfold State.freeFrameBytes
  try dsimp only
  repeat' (first | with_reducible (first | assumption | intro _ | apply State.clearFrame_keeps | apply State.wipe_keeps) | simp only [keeps_mk_iff] | (refine keeps_snd (by with_reducible assumption) ?_) | (refine keeps_fst (by with_reducible assumption) ?_) | split)

theorem State.placeExtent_keeps {z : State} (s : State) (e t tier : Nat) (h_s : Machine.Keeps z s) : Machine.Keeps z (State.placeExtent s e t tier) := by
  unfold State.placeExtent
  try dsimp only
  repeat' (first | with_reducible (first | assumption | apply ite_some_imp | intro _ | apply State.ensureDen_keeps | apply State.setHome_keeps | apply keeps_getD | apply keeps_ite) | simp only [keeps_mk_iff] | (refine keeps_snd (by with_reducible assumption) ?_) | (refine keeps_fst (by with_reducible assumption) ?_) | split)

theorem State.freeRegion_keeps {z : State} (s : State) (r : Region) (h_s : Machine.Keeps z s) : Machine.Keeps z (State.freeRegion s r) := by
  unfold State.freeRegion
  try dsimp only
  repeat' (first | with_reducible (first | assumption | apply ite_some_imp | intro _ | apply State.allTiles_keeps | apply State.forgetPage_keeps | apply State.freeDen_keeps | apply State.freeFrameBytes_keeps | apply State.setDiv_keeps | apply State.updAms_keeps | apply State.updCache_keeps | apply State.updDec_keeps | apply keeps_foldl | apply keeps_foldl_snd | apply keeps_foldl_fst) | simp only [keeps_mk_iff] | (refine keeps_snd (by with_reducible assumption) ?_) | (refine keeps_fst (by with_reducible assumption) ?_) | split)

end Sys2Proof.Machine
end

