-- ==== Sys2Proof/Laws/KeepDram.lean ====
section
/-! SUPPORT. What no command changes is kept by every function of `Machine/Dram.lean`. -/

set_option linter.all false

namespace Sys2Proof.Machine

theorem State.setC_keeps {z : State} (s : State) (t c : Nat) (f : Fld) (v : Nat) (h_s : Machine.Keeps z s) : Machine.Keeps z (State.setC s t c f v) := by
  unfold State.setC
  try dsimp only
  repeat' (first | with_reducible (first | assumption | intro _ | apply State.setF_keeps))

theorem onChannel_keeps {z : State} (t c : Nat) (s : State) (x : State) (h_s : Machine.Keeps z s) (h_x : Machine.Keeps z x) : OutKeeps z (onChannel t c s x) := by
  unfold onChannel
  try dsimp only
  repeat' (first | with_reducible (first | assumption | intro _ | apply onUnit_keeps | apply outKeeps_next))

theorem State.setRanks_keeps {z : State} (s : State) (t c v : Nat) (h_s : Machine.Keeps z s) : Machine.Keeps z (State.setRanks s t c v) := by
  unfold State.setRanks
  try dsimp only
  repeat' (first | with_reducible (first | assumption | intro _ | apply State.updDmc_keeps | apply keeps_ite) | simp only [keeps_mk_iff] | split)

theorem State.beginChange_keeps {z : State} (s : State) (t : Nat) (h_s : Machine.Keeps z s) : Machine.Keeps z (State.beginChange s t) := by
  unfold State.beginChange
  try dsimp only
  repeat' (first | with_reducible (first | assumption | apply ite_some_imp | intro _ | apply State.serveBurst_keeps | apply State.setC_keeps | apply State.setRanks_keeps | apply State.updDmc_keeps | apply keeps_foldl | apply keeps_foldl_snd | apply keeps_foldl_fst | apply keeps_ite) | simp only [keeps_mk_iff] | (refine keeps_snd (by with_reducible assumption) ?_) | (refine keeps_fst (by with_reducible assumption) ?_) | split)

theorem State.requestSpeed_keeps {z : State} (s : State) (t c x : Nat) (h_s : Machine.Keeps z s) : Machine.Keeps z (State.requestSpeed s t c x) := by
  unfold State.requestSpeed
  try dsimp only
  repeat' (first | with_reducible (first | assumption | intro _ | apply State.beginChange_keeps | apply State.ev_keeps | apply State.setC_keeps | apply State.updDmc_keeps | apply keeps_ite) | simp only [keeps_mk_iff] | split)

theorem execSpeedGo_keeps {z : State} (tile ch target : Nat) (s : State) (h_s : Machine.Keeps z s) : OutKeeps z (execSpeedGo tile ch target s) := by
  unfold execSpeedGo
  try dsimp only
  repeat' (first | with_reducible (first | assumption | intro _ | apply onChannel_keeps | apply State.requestSpeed_keeps | apply State.setC_keeps | apply outKeeps_next))

theorem State.endChange_keeps {z : State} (s : State) (t c : Nat) (h_s : Machine.Keeps z s) : Machine.Keeps z (State.endChange s t c) := by
  unfold State.endChange
  try dsimp only
  repeat' (first | with_reducible (first | assumption | apply ite_some_imp | intro _ | apply State.admitHeld_keeps | apply State.beginChange_keeps | apply State.finishWait_keeps | apply State.setFs_keeps | apply State.setRanks_keeps | apply State.updDmc_keeps | apply keeps_ite) | simp only [keeps_mk_iff] | (refine keeps_snd (by with_reducible assumption) ?_) | (refine keeps_fst (by with_reducible assumption) ?_) | split)

theorem execFreqChangeDone_keeps {z : State} (tile ch : Nat) (s : State) (h_s : Machine.Keeps z s) : OutKeeps z (execFreqChangeDone tile ch s) := by
  unfold execFreqChangeDone
  try dsimp only
  repeat' (first | with_reducible (first | assumption | intro _ | apply State.endChange_keeps | apply onChannel_keeps | apply outKeeps_next))

theorem State.adjustPhy_keeps {z : State} (s : State) (t c : Nat) (h_s : Machine.Keeps z s) : Machine.Keeps z (State.adjustPhy s t c) := by
  unfold State.adjustPhy
  try dsimp only
  repeat' (first | with_reducible (first | assumption | intro _ | apply State.draw_keeps | apply State.setC_keeps | apply keeps_foldl | apply keeps_foldl_snd | apply keeps_foldl_fst) | simp only [keeps_mk_iff] | (refine keeps_snd (by with_reducible assumption) ?_) | (refine keeps_fst (by with_reducible assumption) ?_) | split)

theorem State.pauseRefresh_keeps {z : State} (s : State) (t c r : Nat) (h_s : Machine.Keeps z s) : Machine.Keeps z (State.pauseRefresh s t c r) := by
  unfold State.pauseRefresh
  try dsimp only
  repeat' (first | with_reducible (first | assumption | intro _ | apply State.setDebt_keeps | apply State.updDmc_keeps | apply keeps_ite) | simp only [keeps_mk_iff] | split)

theorem State.takePause_keeps {z : State} (s : State) (t c : Nat) (h_s : Machine.Keeps z s) : Machine.Keeps z (State.takePause s t c) := by
  unfold State.takePause
  try dsimp only
  repeat' (first | with_reducible (first | assumption | apply ite_some_imp | intro _ | apply State.adjustPhy_keeps | apply State.bump_keeps | apply State.pauseRefresh_keeps | apply State.setC_keeps | apply State.updDmc_keeps | apply keeps_foldl | apply keeps_foldl_snd | apply keeps_foldl_fst) | simp only [keeps_mk_iff])

theorem State.tryPause_keeps {z : State} (s : State) (t c : Nat) (h_s : Machine.Keeps z s) : Machine.Keeps z (State.tryPause s t c) := by
  unfold State.tryPause
  try dsimp only
  repeat' (first | with_reducible (first | assumption | intro _ | apply State.takePause_keeps | apply State.updDmc_keeps | apply keeps_getD | apply keeps_ite) | simp only [keeps_mk_iff] | split)

theorem execRetrainPause_keeps {z : State} (tile ch : Nat) (s : State) (h_s : Machine.Keeps z s) : OutKeeps z (execRetrainPause tile ch s) := by
  unfold execRetrainPause
  try dsimp only
  repeat' (first | with_reducible (first | assumption | intro _ | apply onChannel_keeps | apply State.tryPause_keeps | apply outKeeps_next))

theorem State.forcePause_keeps {z : State} (s : State) (t c : Nat) (h_s : Machine.Keeps z s) : Machine.Keeps z (State.forcePause s t c) := by
  unfold State.forcePause
  try dsimp only
  repeat' (first | with_reducible (first | assumption | intro _ | apply State.ev_keeps | apply State.takePause_keeps | apply keeps_ite) | split)

theorem execRetrainForced_keeps {z : State} (tile ch : Nat) (s : State) (h_s : Machine.Keeps z s) : OutKeeps z (execRetrainForced tile ch s) := by
  unfold execRetrainForced
  try dsimp only
  repeat' (first | with_reducible (first | assumption | intro _ | apply State.forcePause_keeps | apply onChannel_keeps | apply outKeeps_next))

theorem execDramRequest_keeps {z : State} (tile ch sub : Nat) (s : State) (h_s : Machine.Keeps z s) : OutKeeps z (execDramRequest tile ch sub s) := by
  unfold execDramRequest
  try dsimp only
  repeat' (first | with_reducible (first | assumption | intro _ | apply State.forcePause_keeps | apply State.noteDrain_keeps | apply onChannel_keeps | apply State.refreshAhead_keeps | apply State.serveBurst_keeps) | simp only [keeps_mk_iff] | with_reducible apply outKeeps_next | (refine keeps_snd (by with_reducible assumption) ?_) | (refine keeps_fst (by with_reducible assumption) ?_) | split)

theorem execRefreshDue_keeps {z : State} (tile ch rank : Nat) (s : State) (h_s : Machine.Keeps z s) : OutKeeps z (execRefreshDue tile ch rank s) := by
  unfold execRefreshDue
  try dsimp only
  repeat' (first | with_reducible (first | assumption | intro _ | apply onChannel_keeps | apply State.oweRefresh_keeps | apply keeps_ite | apply outKeeps_next | apply outKeeps_ite) | split)

theorem execRefreshDebtMax_keeps {z : State} (tile ch rank : Nat) (s : State) (h_s : Machine.Keeps z s) : OutKeeps z (execRefreshDebtMax tile ch rank s) := by
  unfold execRefreshDebtMax
  try dsimp only
  repeat' (first | with_reducible (first | assumption | intro _ | apply onChannel_keeps | apply State.refreshAhead_keeps | apply keeps_ite | apply outKeeps_next | apply outKeeps_ite) | split)

theorem execTempPoll_keeps {z : State} (tile ch : Nat) (temps : List Nat) (mode : Bool) (s : State) (h_s : Machine.Keeps z s) : OutKeeps z (execTempPoll tile ch temps mode s) := by
  unfold execTempPoll
  try dsimp only
  repeat' (first | with_reducible (first | assumption | intro _ | apply State.ev_keeps | apply onChannel_keeps | apply State.setFs_keeps | apply State.updDmc_keeps | apply keeps_foldl | apply keeps_foldl_snd | apply keeps_foldl_fst | apply keeps_ite) | simp only [keeps_mk_iff] | with_reducible apply outKeeps_next | with_reducible apply outKeeps_ite | split)

theorem execRowIdleClose_keeps {z : State} (tile ch bank : Nat) (s : State) (h_s : Machine.Keeps z s) : OutKeeps z (execRowIdleClose tile ch bank s) := by
  unfold execRowIdleClose
  try dsimp only
  repeat' (first | with_reducible (first | assumption | intro _ | apply onChannel_keeps | apply State.updDmc_keeps | apply keeps_ite) | simp only [keeps_mk_iff] | with_reducible apply outKeeps_next | with_reducible apply outKeeps_ite | split)

theorem execPanicLong_keeps {z : State} (tile ch : Nat) (s : State) (h_s : Machine.Keeps z s) : OutKeeps z (execPanicLong tile ch s) := by
  unfold execPanicLong
  try dsimp only
  repeat' (first | with_reducible (first | assumption | apply ite_some_imp | intro _ | apply State.evRec_keeps | apply onChannel_keeps | apply keeps_ite) | simp only [keeps_mk_iff] | with_reducible apply outKeeps_next | with_reducible apply outKeeps_ite | (refine keeps_snd (by with_reducible assumption) ?_) | (refine keeps_fst (by with_reducible assumption) ?_) | split)

theorem State.patternRun_keeps {z : State} (s : State) (t c w lanes errs : Nat) (h_s : Machine.Keeps z s) : Machine.Keeps z (State.patternRun s t c w lanes errs) := by
  unfold State.patternRun
  try dsimp only
  repeat' (first | with_reducible (first | assumption | intro _ | apply State.setFs_keeps | apply State.updDmc_keeps | apply keeps_ite) | simp only [keeps_mk_iff] | split)

theorem State.endRun_keeps {z : State} (s : State) (t c : Nat) (h_s : Machine.Keeps z s) : Machine.Keeps z (State.endRun s t c) := by
  unfold State.endRun
  try dsimp only
  repeat' (first | with_reducible (first | assumption | apply ite_some_imp | intro _ | apply State.admitHeld_keeps | apply State.setFs_keeps | apply State.updDmc_keeps) | simp only [keeps_mk_iff] | (refine keeps_snd (by with_reducible assumption) ?_) | (refine keeps_fst (by with_reducible assumption) ?_) | split)

theorem execTrnWriteReadCompare_keeps {z : State} (tile ch w lanes errs : Nat) (s : State) (h_s : Machine.Keeps z s) : OutKeeps z (execTrnWriteReadCompare tile ch w lanes errs s) := by
  unfold execTrnWriteReadCompare
  try dsimp only
  repeat' (first | with_reducible (first | assumption | intro _ | apply onChannel_keeps | apply State.patternRun_keeps | apply outKeeps_next))

theorem execTrnReadCompare_keeps {z : State} (tile ch w lanes errs : Nat) (s : State) (h_s : Machine.Keeps z s) : OutKeeps z (execTrnReadCompare tile ch w lanes errs s) := by
  unfold execTrnReadCompare
  try dsimp only
  repeat' (first | with_reducible (first | assumption | intro _ | apply onChannel_keeps | apply State.patternRun_keeps | apply outKeeps_next))

theorem execTrnCaLoopback_keeps {z : State} (tile ch w lanes errs : Nat) (s : State) (h_s : Machine.Keeps z s) : OutKeeps z (execTrnCaLoopback tile ch w lanes errs s) := by
  unfold execTrnCaLoopback
  try dsimp only
  repeat' (first | with_reducible (first | assumption | intro _ | apply onChannel_keeps | apply State.patternRun_keeps | apply outKeeps_next))

theorem execTrnWlSample_keeps {z : State} (tile ch w lanes errs : Nat) (s : State) (h_s : Machine.Keeps z s) : OutKeeps z (execTrnWlSample tile ch w lanes errs s) := by
  unfold execTrnWlSample
  try dsimp only
  repeat' (first | with_reducible (first | assumption | intro _ | apply onChannel_keeps | apply State.patternRun_keeps | apply outKeeps_next))

theorem State.loadPhy_keeps {z : State} (s : State) (t c x n : Nat) (h_s : Machine.Keeps z s) : Machine.Keeps z (State.loadPhy s t c x n) := by
  unfold State.loadPhy
  try dsimp only
  repeat' (first | with_reducible (first | assumption | intro _ | apply State.setC_keeps | apply keeps_foldl | apply keeps_foldl_snd | apply keeps_foldl_fst))

theorem State.trainSet_keeps {z : State} (s : State) (t c x : Nat) (fast : Bool) (h_s : Machine.Keeps z s) : Machine.Keeps z (State.trainSet s t c x fast) := by
  unfold State.trainSet
  try dsimp only
  repeat' (first | with_reducible (first | assumption | apply ite_some_imp | intro _ | apply State.loadPhy_keeps | apply keeps_ite) | simp only [keeps_mk_iff] | with_reducible apply keeps_mk_free | (refine keeps_snd (by with_reducible assumption) ?_) | (refine keeps_fst (by with_reducible assumption) ?_) | split)

theorem State.loadSpd_keeps {z : State} (s : State) (t c : Nat) (h_s : Machine.Keeps z s) : Machine.Keeps z (State.loadSpd s t c) := by
  unfold State.loadSpd
  try dsimp only
  repeat' (first | with_reducible (first | assumption | intro _ | apply State.setFs_keeps | apply keeps_ite) | split)

theorem State.loadTsets_keeps {z : State} (s : State) (t c : Nat) (h_s : Machine.Keeps z s) : Machine.Keeps z (State.loadTsets s t c) := by
  unfold State.loadTsets
  try dsimp only
  repeat' (first | with_reducible (first | assumption | intro _ | apply State.setF_keeps | apply keeps_foldl | apply keeps_foldl_snd | apply keeps_foldl_fst | apply keeps_getD | apply keeps_ite) | split)

theorem State.trainChannel_keeps {z : State} (s : State) (t c : Nat) (fast : Bool) (h_s : Machine.Keeps z s) : Machine.Keeps z (State.trainChannel s t c fast) := by
  unfold State.trainChannel
  try dsimp only
  repeat' (first | with_reducible (first | assumption | intro _ | apply State.loadSpd_keeps | apply State.loadTsets_keeps | apply State.setFs_keeps | apply State.trainSet_keeps | apply State.updDmc_keeps | apply keeps_foldl | apply keeps_foldl_snd | apply keeps_foldl_fst) | simp only [keeps_mk_iff])

theorem State.retireRow_keeps {z : State} (s : State) (t c place : Nat) (h_s : Machine.Keeps z s) : Machine.Keeps z (State.retireRow s t c place) := by
  unfold State.retireRow
  try dsimp only
  repeat' (first | with_reducible (first | assumption | intro _ | apply State.updDec_keeps) | simp only [keeps_mk_iff])

theorem State.unlistRow_keeps {z : State} (s : State) (t c place : Nat) (h_s : Machine.Keeps z s) : Machine.Keeps z (State.unlistRow s t c place) := by
  unfold State.unlistRow
  try dsimp only
  repeat' (first | with_reducible (first | assumption | intro _) | simp only [keeps_mk_iff])

theorem State.listRow_keeps {z : State} (s : State) (t c place : Nat) (h_s : Machine.Keeps z s) : Machine.Keeps z (State.listRow s t c place) := by
  unfold State.listRow
  try dsimp only
  repeat' (first | with_reducible (first | assumption | intro _ | apply State.unlistRow_keeps) | simp only [keeps_mk_iff])

theorem State.hardRepair_keeps {z : State} (s : State) (t c place result : Nat) (h_s : Machine.Keeps z s) : Machine.Keeps z (State.hardRepair s t c place result) := by
  unfold State.hardRepair
  try dsimp only
  repeat' (first | with_reducible (first | assumption | intro _ | apply State.retireRow_keeps | apply State.setC_keeps | apply State.unlistRow_keeps | apply keeps_ite) | simp only [keeps_mk_iff] | split)

theorem State.hardRepairs_keeps {z : State} (s : State) (t c : Nat) (h_s : Machine.Keeps z s) : Machine.Keeps z (State.hardRepairs s t c) := by
  unfold State.hardRepairs
  try dsimp only
  repeat' (first | with_reducible (first | assumption | intro _ | apply State.hardRepair_keeps | apply State.unlistRow_keeps | apply keeps_foldl | apply keeps_foldl_snd | apply keeps_foldl_fst | apply keeps_ite) | split)

theorem State.dropEntries_keeps {z : State} (s : State) (t c : Nat) (h_s : Machine.Keeps z s) : Machine.Keeps z (State.dropEntries s t c) := by
  unfold State.dropEntries
  try dsimp only
  repeat' (first | with_reducible (first | assumption | intro _ | apply State.recOpen_keeps | apply State.updDec_keeps | apply keeps_ite) | simp only [keeps_mk_iff] | split)

theorem State.refit_keeps {z : State} (s : State) (l : List (Nat × Nat)) (h_s : Machine.Keeps z s) : Machine.Keeps z (State.refit s l) := by
  unfold State.refit
  apply keeps_foldl _ h_s
  intro a x h
  exact h.same (Eq.refl _) (Eq.refl _) (Eq.refl _) (Eq.refl _) (Eq.refl _) (Eq.refl _) (Eq.refl _)

theorem State.trainAll_keeps {z : State} (s : State) (cs : List (Nat × Nat)) (compareBad bad : List Nat) (h_s : Machine.Keeps z s) : Machine.Keeps z (State.trainAll s cs compareBad bad) := by
  unfold State.trainAll
  try dsimp only
  repeat' (first | with_reducible (first | assumption | intro _ | apply State.enterFault_keeps | apply State.ev_keeps | apply State.trainChannel_keeps | apply keeps_foldl | apply keeps_foldl_snd | apply keeps_foldl_fst | apply keeps_ite) | split)

theorem State.trainDram_keeps {z : State} (s : State) (found : List (Nat × Nat)) (compareBad bad : List Nat) (h_s : Machine.Keeps z s) : Machine.Keeps z (State.trainDram s found compareBad bad) := by
  unfold State.trainDram
  try dsimp only
  repeat' (first | with_reducible (first | assumption | intro _ | apply State.allTiles_keeps | apply State.dropEntries_keeps | apply State.enterFault_keeps | apply State.hardRepairs_keeps | apply State.recOpen_keeps | apply State.refit_keeps | apply State.setF_keeps | apply State.trainAll_keeps | apply keeps_foldl | apply keeps_foldl_snd | apply keeps_foldl_fst | apply keeps_ite) | simp only [keeps_mk_iff] | split)

theorem execDramTrain_keeps {z : State} (found : List (Nat × Nat)) (compareBad bad : List Nat) (s : State) (h_s : Machine.Keeps z s) : OutKeeps z (execDramTrain found compareBad bad s) := by
  unfold execDramTrain
  try dsimp only
  repeat' (first | with_reducible (first | assumption | intro _ | apply State.setAll_keeps | apply State.trainDram_keeps | apply keeps_ite | apply outKeeps_next | apply outKeeps_ite) | split)

theorem State.rewriteRow_keeps {z : State} (s : State) (t c place : Nat) (h_s : Machine.Keeps z s) : Machine.Keeps z (State.rewriteRow s t c place) := by
  unfold State.rewriteRow
  try dsimp only
  repeat' (first | with_reducible (first | assumption | apply ite_some_imp | intro _ | apply State.restate_keeps | apply keeps_foldl | apply keeps_foldl_snd | apply keeps_foldl_fst | apply keeps_ite) | simp only [keeps_mk_iff] | (refine keeps_snd (by with_reducible assumption) ?_) | (refine keeps_fst (by with_reducible assumption) ?_) | split)

theorem State.endRepair_keeps {z : State} (s : State) (t c w result : Nat) (h_s : Machine.Keeps z s) : Machine.Keeps z (State.endRepair s t c w result) := by
  unfold State.endRepair
  try dsimp only
  repeat' (first | with_reducible (first | assumption | apply ite_some_imp | intro _ | apply State.finishWait_keeps | apply State.listRow_keeps | apply State.retireRow_keeps | apply State.rewriteRow_keeps | apply State.setFs_keeps | apply State.updDmc_keeps | apply keeps_ite) | simp only [keeps_mk_iff] | split)

theorem State.tryRepair_keeps {z : State} (s : State) (t c : Nat) (h_s : Machine.Keeps z s) : Machine.Keeps z (State.tryRepair s t c) := by
  unfold State.tryRepair
  try dsimp only
  repeat' (first | with_reducible (first | assumption | intro _ | apply State.setC_keeps | apply State.updDmc_keeps | apply keeps_ite) | simp only [keeps_mk_iff] | split)

theorem State.overRepair_keeps {z : State} (s : State) (t c : Nat) (h_s : Machine.Keeps z s) : Machine.Keeps z (State.overRepair s t c) := by
  unfold State.overRepair
  try dsimp only
  repeat' (first | with_reducible (first | assumption | apply ite_some_imp | intro _ | apply State.draw_keeps | apply State.endRepair_keeps | apply keeps_ite) | simp only [keeps_mk_iff] | (refine keeps_snd (by with_reducible assumption) ?_) | (refine keeps_fst (by with_reducible assumption) ?_) | split)

theorem State.setPpr_keeps {z : State} (s : State) (t c w : Nat) (h_s : Machine.Keeps z s) : Machine.Keeps z (State.setPpr s t c w) := by
  unfold State.setPpr
  try dsimp only
  repeat' (first | with_reducible (first | assumption | intro _ | apply State.setFs_keeps))

theorem State.startSppr_keeps {z : State} (s : State) (t c w : Nat) (result : Option Nat) (h_s : Machine.Keeps z s) : Machine.Keeps z (State.startSppr s t c w result) := by
  unfold State.startSppr
  try dsimp only
  repeat' (first | with_reducible (first | assumption | intro _ | apply State.setC_keeps | apply State.setPpr_keeps | apply State.tryRepair_keeps | apply State.updDmc_keeps | apply keeps_ite) | simp only [keeps_mk_iff] | split)

theorem execSppr_keeps {z : State} (tile ch w result : Nat) (s : State) (h_s : Machine.Keeps z s) : OutKeeps z (execSppr tile ch w result s) := by
  unfold execSppr
  try dsimp only
  repeat' (first | with_reducible (first | assumption | apply ite_some_imp | intro _ | apply State.endRepair_keeps | apply onChannel_keeps | apply State.startSppr_keeps | apply keeps_ite) | simp only [keeps_mk_iff] | with_reducible apply outKeeps_next | with_reducible apply outKeeps_ite | (refine keeps_snd (by with_reducible assumption) ?_) | (refine keeps_fst (by with_reducible assumption) ?_) | split)

theorem State.startHppr_keeps {z : State} (s : State) (t c w result : Nat) (h_s : Machine.Keeps z s) : Machine.Keeps z (State.startHppr s t c w result) := by
  unfold State.startHppr
  try dsimp only
  repeat' (first | with_reducible (first | assumption | intro _ | apply State.ev_keeps | apply State.hardRepair_keeps | apply State.setPpr_keeps | apply keeps_ite) | split)

theorem execHppr_keeps {z : State} (tile ch w result : Nat) (s : State) (h_s : Machine.Keeps z s) : OutKeeps z (execHppr tile ch w result s) := by
  unfold execHppr
  try dsimp only
  repeat' (first | with_reducible (first | assumption | intro _ | apply onChannel_keeps | apply State.startHppr_keeps | apply outKeeps_next))

theorem State.relocate_keeps {z : State} (s : State) (e : Nat) (h : Home) (f : Nat) (h_s : Machine.Keeps z s) : Machine.Keeps z (State.relocate s e h f) := by
  unfold State.relocate
  try dsimp only
  repeat' (first | with_reducible (first | assumption | intro _ | apply State.decWrite_keeps | apply State.freeFrameBytes_keeps | apply State.probePages_keeps | apply State.setHome_keeps | apply keeps_foldl | apply keeps_foldl_snd | apply keeps_foldl_fst | apply keeps_ite) | simp only [keeps_mk_iff] | split)

theorem State.dramRelocate_keeps {z : State} (s : State) (t : Nat) (h_s : Machine.Keeps z s) : Machine.Keeps z (State.dramRelocate s t) := by
  unfold State.dramRelocate
  try dsimp only
  repeat' (first | with_reducible (first | assumption | apply ite_some_imp | intro _ | apply State.relocate_keeps | apply State.setC_keeps | apply keeps_foldl | apply keeps_foldl_snd | apply keeps_foldl_fst | apply keeps_ite) | simp only [keeps_mk_iff] | (refine keeps_snd (by with_reducible assumption) ?_) | (refine keeps_fst (by with_reducible assumption) ?_) | split)

theorem execDramRelocate_keeps {z : State} (tile : Nat) (s : State) (h_s : Machine.Keeps z s) : OutKeeps z (execDramRelocate tile s) := by
  unfold execDramRelocate
  try dsimp only
  repeat' (first | with_reducible (first | assumption | intro _ | apply State.dramRelocate_keeps | apply onTile_keeps | apply keeps_ite | apply outKeeps_next | apply outKeeps_ite) | split)

theorem State.sleepRanks_keeps {z : State} (s : State) (t c n : Nat) (h_s : Machine.Keeps z s) : Machine.Keeps z (State.sleepRanks s t c n) := by
  unfold State.sleepRanks
  try dsimp only
  repeat' (first | with_reducible (first | assumption | intro _ | apply State.updDmc_keeps | apply keeps_ite) | simp only [keeps_mk_iff] | split)

theorem State.loseRanks_keeps {z : State} (s : State) (t : Nat) (h_s : Machine.Keeps z s) : Machine.Keeps z (State.loseRanks s t) := by
  unfold State.loseRanks
  try dsimp only
  repeat' (first | with_reducible (first | assumption | intro _ | apply State.setRanks_keeps | apply State.sleepRanks_keeps | apply State.updDec_keeps | apply State.updFirn_keeps | apply State.wipe_keeps | apply keeps_foldl | apply keeps_foldl_snd | apply keeps_foldl_fst | apply keeps_ite) | simp only [keeps_mk_iff] | split)

theorem State.ranksBack_keeps {z : State} (s : State) (t : Nat) (compareBad bad : List Nat) (h_s : Machine.Keeps z s) : Machine.Keeps z (State.ranksBack s t compareBad bad) := by
  unfold State.ranksBack
  try dsimp only
  repeat' (first | with_reducible (first | assumption | intro _ | apply State.admitHeld_keeps | apply State.enterFault_keeps | apply State.ev_keeps | apply State.trainSet_keeps | apply State.updDmc_keeps | apply keeps_foldl | apply keeps_foldl_snd | apply keeps_foldl_fst | apply keeps_ite) | simp only [keeps_mk_iff] | split)

theorem execS2RankReturn_keeps {z : State} (tile : Nat) (compareBad bad : List Nat) (s : State) (h_s : Machine.Keeps z s) : OutKeeps z (execS2RankReturn tile compareBad bad s) := by
  unfold execS2RankReturn
  try dsimp only
  repeat' (first | with_reducible (first | assumption | intro _ | apply onTile_keeps | apply State.ranksBack_keeps | apply State.setF_keeps | apply keeps_ite) | simp only [keeps_mk_iff] | with_reducible apply outKeeps_next | with_reducible apply outKeeps_ite | split)

theorem cmdDramStatus_keeps  : (cmdDramStatus).Keeps := by
  intro z k pl s h
  unfold cmdDramStatus
  try unfold actCmd
  try unfold readCmd
  try unfold mirCmd
  try dsimp only
  repeat' (first | with_reducible (first | assumption | intro _ | apply readCmd_keeps | apply CmdOut.reply_keeps | apply keeps_getD) | simp only [keeps_mk_iff] | exact readCmd_keeps | with_reducible apply Cmd.out_keeps | with_reducible apply CmdOut.s_keeps | with_reducible apply CmdOut.after_keeps | simp only [CmdOut.mk_keeps_iff] | simp only [Cmd.mk_keeps_iff] | with_reducible apply And.intro)

theorem cmdDramSpeedSet_keeps  : (cmdDramSpeedSet).Keeps := by
  intro z k pl s h
  unfold cmdDramSpeedSet
  try unfold actCmd
  try unfold readCmd
  try unfold mirCmd
  try dsimp only
  repeat' (first | with_reducible (first | assumption | intro _ | apply actCmd_keeps | apply State.config_keeps | apply CmdOut.done_keeps | apply State.ev_keeps | apply State.requestSpeed_keeps | apply keeps_foldl | apply keeps_foldl_snd | apply keeps_foldl_fst | apply keeps_id | apply keeps_ite) | simp only [keeps_mk_iff] | exact actCmd_keeps | with_reducible apply Cmd.out_keeps | with_reducible apply CmdOut.s_keeps | with_reducible apply CmdOut.after_keeps | with_reducible apply CmdOut.ite_keeps | simp only [CmdOut.mk_keeps_iff] | simp only [Cmd.mk_keeps_iff] | with_reducible apply And.intro | (refine keeps_snd (by with_reducible assumption) ?_) | (refine keeps_fst (by with_reducible assumption) ?_) | split)

theorem cmdDramTsetWrite_keeps  : (cmdDramTsetWrite).Keeps := by
  intro z k pl s h
  unfold cmdDramTsetWrite
  try unfold actCmd
  try unfold readCmd
  try unfold mirCmd
  try dsimp only
  repeat' (first | with_reducible (first | assumption | intro _ | apply actCmd_keeps | apply State.config_keeps | apply CmdOut.done_keeps | apply State.setCfg_keeps | apply keeps_foldl | apply keeps_foldl_snd | apply keeps_foldl_fst) | simp only [keeps_mk_iff] | exact actCmd_keeps | with_reducible apply Cmd.out_keeps | with_reducible apply CmdOut.s_keeps | with_reducible apply CmdOut.after_keeps | simp only [CmdOut.mk_keeps_iff] | simp only [Cmd.mk_keeps_iff] | with_reducible apply And.intro | (refine keeps_snd (by with_reducible assumption) ?_) | (refine keeps_fst (by with_reducible assumption) ?_) | split)

theorem cmdDramMapSet_keeps  : (cmdDramMapSet).Keeps := by
  intro z k pl s h
  unfold cmdDramMapSet
  try unfold actCmd
  try unfold readCmd
  try unfold mirCmd
  try dsimp only
  repeat' (first | with_reducible (first | assumption | intro _ | apply actCmd_keeps | apply State.config_keeps | apply CmdOut.done_keeps | apply State.setCfg_keeps | apply keeps_foldl | apply keeps_foldl_snd | apply keeps_foldl_fst) | simp only [keeps_mk_iff] | exact actCmd_keeps | with_reducible apply Cmd.out_keeps | with_reducible apply CmdOut.s_keeps | with_reducible apply CmdOut.after_keeps | simp only [CmdOut.mk_keeps_iff] | simp only [Cmd.mk_keeps_iff] | with_reducible apply And.intro | (refine keeps_snd (by with_reducible assumption) ?_) | (refine keeps_fst (by with_reducible assumption) ?_) | split)

theorem cmdDramRetrain_keeps  : (cmdDramRetrain).Keeps := by
  intro z k pl s h
  unfold cmdDramRetrain
  try unfold actCmd
  try unfold readCmd
  try unfold mirCmd
  try dsimp only
  repeat' (first | with_reducible (first | assumption | intro _ | apply actCmd_keeps | apply State.config_keeps | apply CmdOut.done_keeps | apply State.updDmc_keeps | apply keeps_foldl | apply keeps_foldl_snd | apply keeps_foldl_fst) | simp only [keeps_mk_iff] | exact actCmd_keeps | with_reducible apply Cmd.out_keeps | with_reducible apply CmdOut.s_keeps | with_reducible apply CmdOut.after_keeps | simp only [CmdOut.mk_keeps_iff] | simp only [Cmd.mk_keeps_iff] | with_reducible apply And.intro | (refine keeps_snd (by with_reducible assumption) ?_) | (refine keeps_fst (by with_reducible assumption) ?_) | split)

theorem cmdDramTrainResults_keeps  : (cmdDramTrainResults).Keeps := by
  intro z k pl s h
  unfold cmdDramTrainResults
  try unfold actCmd
  try unfold readCmd
  try unfold mirCmd
  try dsimp only
  repeat' (first | with_reducible (first | assumption | apply ite_some_imp | intro _ | apply actCmd_keeps | apply CmdOut.done_keeps | apply CmdOut.reply_keeps) | simp only [keeps_mk_iff] | exact actCmd_keeps | with_reducible apply Cmd.out_keeps | with_reducible apply CmdOut.s_keeps | with_reducible apply CmdOut.after_keeps | simp only [CmdOut.mk_keeps_iff] | simp only [Cmd.mk_keeps_iff] | with_reducible apply And.intro | (refine keeps_snd (by with_reducible assumption) ?_) | (refine keeps_fst (by with_reducible assumption) ?_) | split)

theorem cmdDramTrainClear_keeps  : (cmdDramTrainClear).Keeps := by
  intro z k pl s h
  unfold cmdDramTrainClear
  try unfold actCmd
  try unfold readCmd
  try unfold mirCmd
  try dsimp only
  repeat' (first | with_reducible (first | assumption | intro _ | apply actCmd_keeps | apply State.config_keeps | apply CmdOut.done_keeps) | simp only [keeps_mk_iff] | exact actCmd_keeps | with_reducible apply Cmd.out_keeps | with_reducible apply CmdOut.s_keeps | with_reducible apply CmdOut.after_keeps | simp only [CmdOut.mk_keeps_iff] | simp only [Cmd.mk_keeps_iff] | with_reducible apply And.intro | (refine keeps_snd (by with_reducible assumption) ?_) | (refine keeps_fst (by with_reducible assumption) ?_) | split)

theorem cmdDramPpr_keeps  : (cmdDramPpr).Keeps := by
  intro z k pl s h
  unfold cmdDramPpr
  try unfold actCmd
  try unfold readCmd
  try unfold mirCmd
  try dsimp only
  repeat' (first | with_reducible (first | assumption | apply ite_some_imp | intro _ | apply actCmd_keeps | apply State.config_keeps | apply CmdOut.done_keeps | apply State.startSppr_keeps | apply keeps_id | apply keeps_ite) | simp only [keeps_mk_iff] | exact actCmd_keeps | with_reducible apply Cmd.out_keeps | with_reducible apply CmdOut.s_keeps | with_reducible apply CmdOut.after_keeps | with_reducible apply CmdOut.ite_keeps | simp only [CmdOut.mk_keeps_iff] | simp only [Cmd.mk_keeps_iff] | with_reducible apply And.intro | (refine keeps_snd (by with_reducible assumption) ?_) | (refine keeps_fst (by with_reducible assumption) ?_) | split)

theorem execDramStatus_keeps {z : State} (f : Frame) (s : State) (h_s : Machine.Keeps z s) : OutKeeps z (execDramStatus f s) := by
  unfold execDramStatus
  try dsimp only
  repeat' (first | with_reducible (first | assumption | intro _ | apply cmdDramStatus_keeps | apply mailbox_keeps) | exact cmdDramStatus_keeps | with_reducible apply outKeeps_next)

theorem execDramSpeedSet_keeps {z : State} (f : Frame) (s : State) (h_s : Machine.Keeps z s) : OutKeeps z (execDramSpeedSet f s) := by
  unfold execDramSpeedSet
  try dsimp only
  repeat' (first | with_reducible (first | assumption | intro _ | apply cmdDramSpeedSet_keeps | apply mailbox_keeps) | exact cmdDramSpeedSet_keeps | with_reducible apply outKeeps_next)

theorem execDramTsetWrite_keeps {z : State} (f : Frame) (s : State) (h_s : Machine.Keeps z s) : OutKeeps z (execDramTsetWrite f s) := by
  unfold execDramTsetWrite
  try dsimp only
  repeat' (first | with_reducible (first | assumption | intro _ | apply cmdDramTsetWrite_keeps | apply mailbox_keeps) | exact cmdDramTsetWrite_keeps | with_reducible apply outKeeps_next)

theorem execDramMapSet_keeps {z : State} (f : Frame) (s : State) (h_s : Machine.Keeps z s) : OutKeeps z (execDramMapSet f s) := by
  unfold execDramMapSet
  try dsimp only
  repeat' (first | with_reducible (first | assumption | intro _ | apply cmdDramMapSet_keeps | apply mailbox_keeps) | exact cmdDramMapSet_keeps | with_reducible apply outKeeps_next)

theorem execDramRetrain_keeps {z : State} (f : Frame) (s : State) (h_s : Machine.Keeps z s) : OutKeeps z (execDramRetrain f s) := by
  unfold execDramRetrain
  try dsimp only
  repeat' (first | with_reducible (first | assumption | intro _ | apply cmdDramRetrain_keeps | apply mailbox_keeps) | exact cmdDramRetrain_keeps | with_reducible apply outKeeps_next)

theorem execDramTrainResults_keeps {z : State} (f : Frame) (s : State) (h_s : Machine.Keeps z s) : OutKeeps z (execDramTrainResults f s) := by
  unfold execDramTrainResults
  try dsimp only
  repeat' (first | with_reducible (first | assumption | intro _ | apply cmdDramTrainResults_keeps | apply mailbox_keeps) | exact cmdDramTrainResults_keeps | with_reducible apply outKeeps_next)

theorem execDramTrainClear_keeps {z : State} (f : Frame) (s : State) (h_s : Machine.Keeps z s) : OutKeeps z (execDramTrainClear f s) := by
  unfold execDramTrainClear
  try dsimp only
  repeat' (first | with_reducible (first | assumption | intro _ | apply cmdDramTrainClear_keeps | apply mailbox_keeps) | exact cmdDramTrainClear_keeps | with_reducible apply outKeeps_next)

theorem execDramPpr_keeps {z : State} (f : Frame) (s : State) (h_s : Machine.Keeps z s) : OutKeeps z (execDramPpr f s) := by
  unfold execDramPpr
  try dsimp only
  repeat' (first | with_reducible (first | assumption | intro _ | apply cmdDramPpr_keeps | apply mailbox_keeps) | exact cmdDramPpr_keeps | with_reducible apply outKeeps_next)

end Sys2Proof.Machine
end

