-- ==== Sys2Proof/Laws/KeepDec.lean ====
section
/-! SUPPORT. What no command changes is kept by every function of `Machine/Dec.lean`. -/

set_option linter.all false

namespace Sys2Proof.Machine

theorem State.badCopies_keeps {z : State} (s : State) (t frame : Nat) (bad0 bad1 : Bool) (h_s : Machine.Keeps z s) : Machine.Keeps z (State.badCopies s t frame bad0 bad1) := by
  unfold State.badCopies
  try dsimp only
  repeat' (first | with_reducible (first | assumption | intro _ | apply State.updDec_keeps | apply keeps_ite) | simp only [keeps_mk_iff] | split)

theorem State.decRead_keeps {z : State} (s : State) (t a : Nat) (err : List (Nat × Nat)) (bad0 bad1 parity : Bool) (h_s : Machine.Keeps z s) : Machine.Keeps z (State.decRead s t a err bad0 bad1 parity) := by
  unfold State.decRead
  try dsimp only
  repeat' (first | with_reducible (first | assumption | intro _ | apply State.askDram_keeps | apply State.badCopies_keeps | apply State.burstRead_keeps | apply State.lookBorn_keeps | apply State.repairExt_keeps | apply keeps_ite) | split)

theorem execDecRead_keeps {z : State} (tile addr : Nat) (err : List (Nat × Nat)) (bad0 bad1 parity : Bool) (s : State) (h_s : Machine.Keeps z s) : OutKeeps z (execDecRead tile addr err bad0 bad1 parity s) := by
  unfold execDecRead
  try dsimp only
  repeat' (first | with_reducible (first | assumption | intro _ | apply State.decRead_keeps | apply onTile_keeps | apply outKeeps_next))

theorem State.testWrite_keeps {z : State} (s : State) (t page : Nat) (h_s : Machine.Keeps z s) : Machine.Keeps z (State.testWrite s t page) := by
  unfold State.testWrite
  try dsimp only
  repeat' (first | with_reducible (first | assumption | apply ite_some_imp | intro _ | apply State.setF_keeps | apply State.setFaults_keeps | apply State.updDec_keeps | apply keeps_ite) | simp only [keeps_mk_iff] | (refine keeps_snd (by with_reducible assumption) ?_) | (refine keeps_fst (by with_reducible assumption) ?_) | split)

theorem execFirstWrite_keeps {z : State} (tile page : Nat) (s : State) (h_s : Machine.Keeps z s) : OutKeeps z (execFirstWrite tile page s) := by
  unfold execFirstWrite
  try dsimp only
  repeat' (first | with_reducible (first | assumption | apply ite_some_imp | intro _ | apply onTile_keeps | apply State.testWrite_keeps | apply State.writeBack_keeps | apply keeps_ite) | simp only [keeps_mk_iff] | with_reducible apply outKeeps_next | with_reducible apply outKeeps_ite | (refine keeps_snd (by with_reducible assumption) ?_) | (refine keeps_fst (by with_reducible assumption) ?_) | split)

theorem execFrameFree_keeps {z : State} (tile frame : Nat) (s : State) (h_s : Machine.Keeps z s) : OutKeeps z (execFrameFree tile frame s) := by
  unfold execFrameFree
  try dsimp only
  repeat' (first | with_reducible (first | assumption | intro _ | apply State.clearFrame_keeps | apply onTile_keeps | apply keeps_ite | apply outKeeps_next | apply outKeeps_ite) | split)

theorem State.copyBursts_keeps {z : State} (s : State) (t page target : Nat) (h_s : Machine.Keeps z s) : Machine.Keeps z (State.copyBursts s t page target) := by
  unfold State.copyBursts
  try dsimp only
  repeat' (first | with_reducible (first | assumption | intro _ | apply State.askDram_keeps | apply State.decBurst_keeps | apply State.lookBorn_keeps | apply State.setBytes_keeps | apply State.setFaults_keeps | apply State.wipe_keeps | apply keeps_foldl | apply keeps_foldl_snd | apply keeps_foldl_fst | apply keeps_ite) | simp only [keeps_mk_iff] | (refine keeps_snd (by with_reducible assumption) ?_) | (refine keeps_fst (by with_reducible assumption) ?_) | split)

theorem State.retirePage_keeps {z : State} (s : State) (t page c : Nat) (h_s : Machine.Keeps z s) : Machine.Keeps z (State.retirePage s t page c).1 := by
  unfold State.retirePage
  try dsimp only
  repeat' (first | with_reducible (first | assumption | intro _ | apply State.copyBursts_keeps | apply State.ev_keeps | apply State.evRec_keeps | apply State.updDec_keeps | apply keeps_ite) | simp only [keeps_mk_iff] | split)

theorem execPageRetire_keeps {z : State} (tile page : Nat) (s : State) (h_s : Machine.Keeps z s) : OutKeeps z (execPageRetire tile page s) := by
  unfold execPageRetire
  try dsimp only
  repeat' (first | with_reducible (first | assumption | apply ite_some_imp | intro _ | apply onTile_keeps | apply State.retirePage_keeps | apply keeps_ite) | simp only [keeps_mk_iff] | with_reducible apply outKeeps_next | with_reducible apply outKeeps_ite | (refine keeps_snd (by with_reducible assumption) ?_) | (refine keeps_fst (by with_reducible assumption) ?_) | split)

theorem State.refuseDevice_keeps {z : State} (s : State) (t c sub rank : Nat) (h_s : Machine.Keeps z s) : Machine.Keeps z (State.refuseDevice s t c sub rank).1 := by
  unfold State.refuseDevice
  try dsimp only
  repeat' (first | with_reducible (first | assumption | intro _ | apply State.ev_keeps | apply State.named_keeps))

theorem State.retireDevice_keeps {z : State} (s : State) (t c sub rank dev : Nat) (h_s : Machine.Keeps z s) : Machine.Keeps z (State.retireDevice s t c sub rank dev).1 := by
  unfold State.retireDevice
  try dsimp only
  repeat' (first | with_reducible (first | assumption | apply ite_some_imp | intro _ | apply State.refuseDevice_keeps | apply State.updDec_keeps | apply keeps_ite) | simp only [keeps_mk_iff] | split)

theorem State.retireBank_keeps {z : State} (s : State) (t c sub rank bank dev : Nat) (h_s : Machine.Keeps z s) : Machine.Keeps z (State.retireBank s t c sub rank bank dev).1 := by
  unfold State.retireBank
  try dsimp only
  repeat' (first | with_reducible (first | assumption | intro _ | apply State.refuseDevice_keeps | apply State.retireDevice_keeps | apply State.updDec_keeps | apply keeps_ite) | simp only [keeps_mk_iff] | split)

theorem execUeRecovery_keeps {z : State} (tile addr : Nat) (s : State) (h_s : Machine.Keeps z s) : OutKeeps z (execUeRecovery tile addr s) := by
  unfold execUeRecovery
  try dsimp only
  repeat' (first | with_reducible (first | assumption | intro _ | apply onTile_keeps | apply State.ueRecover_keeps | apply keeps_ite | apply outKeeps_next | apply outKeeps_ite) | split)

theorem State.setScrub_keeps {z : State} (s : State) (t c l : Nat) (h_s : Machine.Keeps z s) : Machine.Keeps z (State.setScrub s t c l) := by
  unfold State.setScrub
  try dsimp only
  repeat' (first | with_reducible (first | assumption | intro _ | apply State.setF_keeps | apply State.updDec_keeps) | simp only [keeps_mk_iff])

theorem State.scrubPass_keeps {z : State} (s : State) (t c : Nat) (h_s : Machine.Keeps z s) : Machine.Keeps z (State.scrubPass s t c) := by
  unfold State.scrubPass
  try dsimp only
  repeat' (first | with_reducible (first | assumption | intro _ | apply State.bump_keeps | apply State.ev_keeps | apply State.setScrub_keeps | apply State.updDec_keeps) | simp only [keeps_mk_iff])

theorem execScrubRead_keeps {z : State} (tile ch : Nat) (err : List (Nat × Nat)) (s : State) (h_s : Machine.Keeps z s) :
    OutKeeps z (execScrubRead tile ch err s) := by
  unfold execScrubRead
  apply onChannel_keeps
  · exact h_s
  · apply keeps_ite h_s
    generalize s.scrubNext tile ch (s.scrubAt tile ch) = o
    cases o with
    | none => exact State.scrubPass_keeps s tile ch h_s
    | some l =>
      generalize channelBack (s.chGran tile) ch l = a
      exact State.setScrub_keeps _ _ _ _ (State.burstRead_keeps _ _ _ _ _ (State.askDram_keeps _ _ _ _ h_s))

theorem State.qualifyRows_keeps {z : State} (s : State) (t c : Nat) (h_s : Machine.Keeps z s) : Machine.Keeps z (State.qualifyRows s t c) := by
  unfold State.qualifyRows
  try dsimp only
  repeat' (first | with_reducible (first | assumption | intro _ | apply State.updDec_keeps | apply keeps_foldl | apply keeps_foldl_snd | apply keeps_foldl_fst) | simp only [keeps_mk_iff])

theorem State.repairRows_keeps {z : State} (s : State) (t c : Nat) (result : Option Nat) (h_s : Machine.Keeps z s) : Machine.Keeps z (State.repairRows s t c result) := by
  unfold State.repairRows
  try dsimp only
  repeat' (first | with_reducible (first | assumption | apply ite_some_imp | intro _ | apply State.startSppr_keeps | apply State.updDec_keeps | apply keeps_ite) | simp only [keeps_mk_iff] | (refine keeps_snd (by with_reducible assumption) ?_) | (refine keeps_fst (by with_reducible assumption) ?_) | split)

theorem State.applyPolicy_keeps {z : State} (s : State) (t c : Nat) (result : Option Nat) (h_s : Machine.Keeps z s) : Machine.Keeps z (State.applyPolicy s t c result) := by
  unfold State.applyPolicy
  try dsimp only
  repeat' (first | with_reducible (first | assumption | intro _ | apply State.qualifyRows_keeps | apply State.repairRows_keeps | apply State.retireBank_keeps | apply State.retireDevice_keeps | apply State.updDec_keeps | apply keeps_foldl | apply keeps_foldl_snd | apply keeps_foldl_fst) | simp only [keeps_mk_iff])

theorem State.sumModules_keeps {z : State} (s : State) (t c : Nat) (h_s : Machine.Keeps z s) : Machine.Keeps z (State.sumModules s t c) := by
  unfold State.sumModules
  try dsimp only
  repeat' (first | with_reducible (first | assumption | intro _) | simp only [keeps_mk_iff])

theorem execErrorLogPoll_keeps {z : State} (tile : Nat) (ppr : List Nat) (s : State) (h_s : Machine.Keeps z s) : OutKeeps z (execErrorLogPoll tile ppr s) := by
  unfold execErrorLogPoll
  try dsimp only
  repeat' (first | with_reducible (first | assumption | intro _ | apply State.applyPolicy_keeps | apply onTile_keeps | apply State.sumModules_keeps | apply keeps_foldl | apply keeps_foldl_snd | apply keeps_foldl_fst | apply keeps_getD | apply keeps_ite | apply outKeeps_next | apply outKeeps_ite) | split)

theorem State.clearLogs_keeps {z : State} (s : State) (t mask : Nat) (h_s : Machine.Keeps z s) : Machine.Keeps z (State.clearLogs s t mask) := by
  unfold State.clearLogs
  try dsimp only
  repeat' (first | with_reducible (first | assumption | intro _ | apply State.updDec_keeps) | simp only [keeps_mk_iff])

theorem execDecLogClearWrite_keeps {z : State} (tile mask : Nat) (s : State) (h_s : Machine.Keeps z s) : OutKeeps z (execDecLogClearWrite tile mask s) := by
  unfold execDecLogClearWrite
  try dsimp only
  repeat' (first | with_reducible (first | assumption | intro _ | apply State.clearLogs_keeps | apply onTile_keeps | apply outKeeps_next))

theorem State.writeInj_keeps {z : State} (s : State) (t v : Nat) (h_s : Machine.Keeps z s) : Machine.Keeps z (State.writeInj s t v) := by
  unfold State.writeInj
  try dsimp only
  repeat' (first | with_reducible (first | assumption | intro _ | apply State.setFs_keeps))

theorem execDecInjArm_keeps {z : State} (tile v : Nat) (s : State) (h_s : Machine.Keeps z s) : OutKeeps z (execDecInjArm tile v s) := by
  unfold execDecInjArm
  try dsimp only
  repeat' (first | with_reducible (first | assumption | intro _ | apply onTile_keeps | apply State.writeInj_keeps | apply outKeeps_next))

theorem cmdDecStatus_keeps  : (cmdDecStatus).Keeps := by
  intro z k pl s h
  unfold cmdDecStatus
  try unfold actCmd
  try unfold readCmd
  try unfold mirCmd
  try dsimp only
  repeat' (first | with_reducible (first | assumption | intro _ | apply State.drop_keeps | apply readCmd_keeps | apply CmdOut.reply_keeps) | simp only [keeps_mk_iff] | exact readCmd_keeps | with_reducible apply Cmd.out_keeps | with_reducible apply CmdOut.s_keeps | with_reducible apply CmdOut.after_keeps | simp only [CmdOut.mk_keeps_iff] | simp only [Cmd.mk_keeps_iff] | with_reducible apply And.intro | (refine keeps_snd (by with_reducible assumption) ?_) | (refine keeps_fst (by with_reducible assumption) ?_) | split)

theorem cmdDecLogRead_keeps  : (cmdDecLogRead).Keeps := by
  intro z k pl s h
  unfold cmdDecLogRead
  try unfold actCmd
  try unfold readCmd
  try unfold mirCmd
  try dsimp only
  repeat' (first | with_reducible (first | assumption | intro _ | apply readCmd_keeps | apply CmdOut.reply_keeps) | simp only [keeps_mk_iff] | exact readCmd_keeps | with_reducible apply Cmd.out_keeps | with_reducible apply CmdOut.s_keeps | with_reducible apply CmdOut.after_keeps | simp only [CmdOut.mk_keeps_iff] | simp only [Cmd.mk_keeps_iff] | with_reducible apply And.intro | (refine keeps_snd (by with_reducible assumption) ?_) | (refine keeps_fst (by with_reducible assumption) ?_) | split)

theorem cmdDecLogClear_keeps  : (cmdDecLogClear).Keeps := by
  intro z k pl s h
  unfold cmdDecLogClear
  try unfold actCmd
  try unfold readCmd
  try unfold mirCmd
  try dsimp only
  repeat' (first | with_reducible (first | assumption | intro _ | apply actCmd_keeps | apply State.clearLogs_keeps | apply State.config_keeps | apply CmdOut.done_keeps | apply keeps_foldl | apply keeps_foldl_snd | apply keeps_foldl_fst) | simp only [keeps_mk_iff] | exact actCmd_keeps | with_reducible apply Cmd.out_keeps | with_reducible apply CmdOut.s_keeps | with_reducible apply CmdOut.after_keeps | simp only [CmdOut.mk_keeps_iff] | simp only [Cmd.mk_keeps_iff] | with_reducible apply And.intro | (refine keeps_snd (by with_reducible assumption) ?_) | (refine keeps_fst (by with_reducible assumption) ?_) | split)

theorem cmdDecRetire_keeps  : (cmdDecRetire).Keeps := by
  intro z k pl s h
  unfold cmdDecRetire
  try unfold actCmd
  try unfold readCmd
  try unfold mirCmd
  try dsimp only
  repeat' (first | with_reducible (first | assumption | intro _ | apply actCmd_keeps | apply State.config_keeps | apply CmdOut.done_keeps | apply State.retireBank_keeps | apply State.retireDevice_keeps | apply State.retirePage_keeps | apply keeps_ite) | simp only [keeps_mk_iff] | exact actCmd_keeps | with_reducible apply Cmd.out_keeps | with_reducible apply CmdOut.s_keeps | with_reducible apply CmdOut.after_keeps | with_reducible apply CmdOut.ite_keeps | simp only [CmdOut.mk_keeps_iff] | simp only [Cmd.mk_keeps_iff] | with_reducible apply And.intro | (refine keeps_snd (by with_reducible assumption) ?_) | (refine keeps_fst (by with_reducible assumption) ?_) | split)

theorem cmdDecPolicySet_keeps  : (cmdDecPolicySet).Keeps := by
  intro z k pl s h
  unfold cmdDecPolicySet
  try unfold actCmd
  try unfold readCmd
  try unfold mirCmd
  try dsimp only
  repeat' (first | with_reducible (first | assumption | intro _ | apply actCmd_keeps | apply State.allTiles_keeps | apply State.config_keeps | apply CmdOut.done_keeps | apply State.setCfg_keeps) | simp only [keeps_mk_iff] | exact actCmd_keeps | with_reducible apply Cmd.out_keeps | with_reducible apply CmdOut.s_keeps | with_reducible apply CmdOut.after_keeps | simp only [CmdOut.mk_keeps_iff] | simp only [Cmd.mk_keeps_iff] | with_reducible apply And.intro | (refine keeps_snd (by with_reducible assumption) ?_) | (refine keeps_fst (by with_reducible assumption) ?_) | split)

theorem cmdDecScrubSet_keeps  : (cmdDecScrubSet).Keeps := by
  intro z k pl s h
  unfold cmdDecScrubSet
  try unfold actCmd
  try unfold readCmd
  try unfold mirCmd
  try dsimp only
  repeat' (first | with_reducible (first | assumption | intro _ | apply actCmd_keeps | apply State.config_keeps | apply State.configAll_keeps | apply CmdOut.done_keeps) | simp only [keeps_mk_iff] | exact actCmd_keeps | with_reducible apply Cmd.out_keeps | with_reducible apply CmdOut.s_keeps | with_reducible apply CmdOut.after_keeps | simp only [CmdOut.mk_keeps_iff] | simp only [Cmd.mk_keeps_iff] | with_reducible apply And.intro | (refine keeps_snd (by with_reducible assumption) ?_) | (refine keeps_fst (by with_reducible assumption) ?_) | split)

theorem cmdDecInject_keeps  : (cmdDecInject).Keeps := by
  intro z k pl s h
  unfold cmdDecInject
  try unfold actCmd
  try unfold readCmd
  try unfold mirCmd
  try dsimp only
  repeat' (first | with_reducible (first | assumption | intro _ | apply actCmd_keeps | apply CmdOut.done_keeps | apply State.setFs_keeps | apply State.writeInj_keeps) | simp only [keeps_mk_iff] | exact actCmd_keeps | with_reducible apply Cmd.out_keeps | with_reducible apply CmdOut.s_keeps | with_reducible apply CmdOut.after_keeps | simp only [CmdOut.mk_keeps_iff] | simp only [Cmd.mk_keeps_iff] | with_reducible apply And.intro | (refine keeps_snd (by with_reducible assumption) ?_) | (refine keeps_fst (by with_reducible assumption) ?_) | split)

theorem execDecStatus_keeps {z : State} (f : Frame) (s : State) (h_s : Machine.Keeps z s) : OutKeeps z (execDecStatus f s) := by
  unfold execDecStatus
  try dsimp only
  repeat' (first | with_reducible (first | assumption | intro _ | apply cmdDecStatus_keeps | apply mailbox_keeps) | exact cmdDecStatus_keeps | with_reducible apply outKeeps_next)

theorem execDecLogRead_keeps {z : State} (f : Frame) (s : State) (h_s : Machine.Keeps z s) : OutKeeps z (execDecLogRead f s) := by
  unfold execDecLogRead
  try dsimp only
  repeat' (first | with_reducible (first | assumption | intro _ | apply cmdDecLogRead_keeps | apply mailbox_keeps) | exact cmdDecLogRead_keeps | with_reducible apply outKeeps_next)

theorem execDecLogClear_keeps {z : State} (f : Frame) (s : State) (h_s : Machine.Keeps z s) : OutKeeps z (execDecLogClear f s) := by
  unfold execDecLogClear
  try dsimp only
  repeat' (first | with_reducible (first | assumption | intro _ | apply cmdDecLogClear_keeps | apply mailbox_keeps) | exact cmdDecLogClear_keeps | with_reducible apply outKeeps_next)

theorem execDecRetire_keeps {z : State} (f : Frame) (s : State) (h_s : Machine.Keeps z s) : OutKeeps z (execDecRetire f s) := by
  unfold execDecRetire
  try dsimp only
  repeat' (first | with_reducible (first | assumption | intro _ | apply cmdDecRetire_keeps | apply mailbox_keeps) | exact cmdDecRetire_keeps | with_reducible apply outKeeps_next)

theorem execDecPolicySet_keeps {z : State} (f : Frame) (s : State) (h_s : Machine.Keeps z s) : OutKeeps z (execDecPolicySet f s) := by
  unfold execDecPolicySet
  try dsimp only
  repeat' (first | with_reducible (first | assumption | intro _ | apply cmdDecPolicySet_keeps | apply mailbox_keeps) | exact cmdDecPolicySet_keeps | with_reducible apply outKeeps_next)

theorem execDecScrubSet_keeps {z : State} (f : Frame) (s : State) (h_s : Machine.Keeps z s) : OutKeeps z (execDecScrubSet f s) := by
  unfold execDecScrubSet
  try dsimp only
  repeat' (first | with_reducible (first | assumption | intro _ | apply cmdDecScrubSet_keeps | apply mailbox_keeps) | exact cmdDecScrubSet_keeps | with_reducible apply outKeeps_next)

theorem execDecInject_keeps {z : State} (f : Frame) (s : State) (h_s : Machine.Keeps z s) : OutKeeps z (execDecInject f s) := by
  unfold execDecInject
  try dsimp only
  repeat' (first | with_reducible (first | assumption | intro _ | apply cmdDecInject_keeps | apply mailbox_keeps) | exact cmdDecInject_keeps | with_reducible apply outKeeps_next)

end Sys2Proof.Machine
end

