-- ==== Sys2Proof/Laws/KeepPersist.lean ====
section
/-! SUPPORT. What no command changes is kept by every function of `Machine/Persist.lean`. -/

set_option linter.all false

namespace Sys2Proof.Machine

theorem cmdPersistStatus_keeps  : (cmdPersistStatus).Keeps := by
  intro z k pl s h
  unfold cmdPersistStatus
  try unfold actCmd
  try unfold readCmd
  try unfold mirCmd
  try dsimp only
  repeat' (first | with_reducible (first | assumption | intro _ | apply readCmd_keeps | apply CmdOut.reply_keeps) | simp only [keeps_mk_iff] | exact readCmd_keeps | with_reducible apply Cmd.out_keeps | with_reducible apply CmdOut.s_keeps | with_reducible apply CmdOut.after_keeps | simp only [CmdOut.mk_keeps_iff] | simp only [Cmd.mk_keeps_iff] | with_reducible apply And.intro)

theorem cmdCeilingSet_keeps  : (cmdCeilingSet).Keeps := by
  intro z k pl s h
  unfold cmdCeilingSet
  try unfold actCmd
  try unfold readCmd
  try unfold mirCmd
  try dsimp only
  repeat' (first | with_reducible (first | assumption | intro _ | apply actCmd_keeps | apply State.config_keeps | apply State.configAll_keeps | apply CmdOut.done_keeps | apply State.recomputeCeiling_keeps) | simp only [keeps_mk_iff] | exact actCmd_keeps | with_reducible apply Cmd.out_keeps | with_reducible apply CmdOut.s_keeps | with_reducible apply CmdOut.after_keeps | simp only [CmdOut.mk_keeps_iff] | simp only [Cmd.mk_keeps_iff] | with_reducible apply And.intro | (refine keeps_snd (by with_reducible assumption) ?_) | (refine keeps_fst (by with_reducible assumption) ?_) | split)

theorem cmdFreezePowerSet_keeps  : (cmdFreezePowerSet).Keeps := by
  intro z k pl s h
  unfold cmdFreezePowerSet
  try unfold actCmd
  try unfold readCmd
  try unfold mirCmd
  try dsimp only
  repeat' (first | with_reducible (first | assumption | intro _ | apply actCmd_keeps | apply State.config_keeps | apply State.configAll_keeps | apply CmdOut.done_keeps | apply State.recomputeCeiling_keeps) | simp only [keeps_mk_iff] | exact actCmd_keeps | with_reducible apply Cmd.out_keeps | with_reducible apply CmdOut.s_keeps | with_reducible apply CmdOut.after_keeps | simp only [CmdOut.mk_keeps_iff] | simp only [Cmd.mk_keeps_iff] | with_reducible apply And.intro | (refine keeps_snd (by with_reducible assumption) ?_) | (refine keeps_fst (by with_reducible assumption) ?_) | split)

theorem cmdFirnConfig_keeps  : (cmdFirnConfig).Keeps := by
  intro z k pl s h
  unfold cmdFirnConfig
  try unfold actCmd
  try unfold readCmd
  try unfold mirCmd
  try dsimp only
  repeat' (first | with_reducible (first | assumption | intro _ | apply actCmd_keeps | apply State.allTiles_keeps | apply State.config_keeps | apply State.configAll_keeps | apply CmdOut.done_keeps | apply State.noteUrgent_keeps) | simp only [keeps_mk_iff] | exact actCmd_keeps | with_reducible apply Cmd.out_keeps | with_reducible apply CmdOut.s_keeps | with_reducible apply CmdOut.after_keeps | simp only [CmdOut.mk_keeps_iff] | simp only [Cmd.mk_keeps_iff] | with_reducible apply And.intro | (refine keeps_snd (by with_reducible assumption) ?_) | (refine keeps_fst (by with_reducible assumption) ?_) | split)

theorem cmdFreezeReportRead_keeps  : (cmdFreezeReportRead).Keeps := by
  intro z k pl s h
  unfold cmdFreezeReportRead
  try unfold actCmd
  try unfold readCmd
  try unfold mirCmd
  try dsimp only
  repeat' (first | with_reducible (first | assumption | intro _ | apply readCmd_keeps | apply CmdOut.reply_keeps) | simp only [keeps_mk_iff] | exact readCmd_keeps | with_reducible apply Cmd.out_keeps | with_reducible apply CmdOut.s_keeps | with_reducible apply CmdOut.after_keeps | simp only [CmdOut.mk_keeps_iff] | simp only [Cmd.mk_keeps_iff] | with_reducible apply And.intro)

theorem cmdFreezeTest_keeps  : (cmdFreezeTest).Keeps := by
  intro z k pl s h
  unfold cmdFreezeTest
  try unfold actCmd
  try unfold readCmd
  try unfold mirCmd
  try dsimp only
  repeat' (first | with_reducible (first | assumption | apply ite_some_imp | intro _ | apply actCmd_keeps | apply State.allTiles_keeps | apply State.config_keeps | apply State.freezeTile_keeps | apply State.freezeTrigger_keeps | apply keeps_ite) | simp only [keeps_mk_iff] | exact actCmd_keeps | with_reducible apply Cmd.out_keeps | with_reducible apply CmdOut.s_keeps | with_reducible apply CmdOut.after_keeps | with_reducible apply CmdOut.ite_keeps | simp only [CmdOut.mk_keeps_iff] | simp only [Cmd.mk_keeps_iff] | with_reducible apply And.intro | split)

theorem execPersistStatus_keeps {z : State} (f : Frame) (s : State) (h_s : Machine.Keeps z s) : OutKeeps z (execPersistStatus f s) := by
  unfold execPersistStatus
  try dsimp only
  repeat' (first | with_reducible (first | assumption | intro _ | apply cmdPersistStatus_keeps | apply mailbox_keeps) | exact cmdPersistStatus_keeps | with_reducible apply outKeeps_next)

theorem execCeilingSet_keeps {z : State} (f : Frame) (s : State) (h_s : Machine.Keeps z s) : OutKeeps z (execCeilingSet f s) := by
  unfold execCeilingSet
  try dsimp only
  repeat' (first | with_reducible (first | assumption | intro _ | apply cmdCeilingSet_keeps | apply mailbox_keeps) | exact cmdCeilingSet_keeps | with_reducible apply outKeeps_next)

theorem execFreezePowerSet_keeps {z : State} (f : Frame) (s : State) (h_s : Machine.Keeps z s) : OutKeeps z (execFreezePowerSet f s) := by
  unfold execFreezePowerSet
  try dsimp only
  repeat' (first | with_reducible (first | assumption | intro _ | apply cmdFreezePowerSet_keeps | apply mailbox_keeps) | exact cmdFreezePowerSet_keeps | with_reducible apply outKeeps_next)

theorem execFirnConfig_keeps {z : State} (f : Frame) (s : State) (h_s : Machine.Keeps z s) : OutKeeps z (execFirnConfig f s) := by
  unfold execFirnConfig
  try dsimp only
  repeat' (first | with_reducible (first | assumption | intro _ | apply cmdFirnConfig_keeps | apply mailbox_keeps) | exact cmdFirnConfig_keeps | with_reducible apply outKeeps_next)

theorem execFreezeReportRead_keeps {z : State} (f : Frame) (s : State) (h_s : Machine.Keeps z s) : OutKeeps z (execFreezeReportRead f s) := by
  unfold execFreezeReportRead
  try dsimp only
  repeat' (first | with_reducible (first | assumption | intro _ | apply cmdFreezeReportRead_keeps | apply mailbox_keeps) | exact cmdFreezeReportRead_keeps | with_reducible apply outKeeps_next)

theorem execFreezeTest_keeps {z : State} (f : Frame) (s : State) (h_s : Machine.Keeps z s) : OutKeeps z (execFreezeTest f s) := by
  unfold execFreezeTest
  try dsimp only
  repeat' (first | with_reducible (first | assumption | intro _ | apply cmdFreezeTest_keeps | apply mailbox_keeps) | exact cmdFreezeTest_keeps | with_reducible apply outKeeps_next)

end Sys2Proof.Machine
end

