-- ==== Sys2Proof/Laws/KeepSessions.lean ====
section
/-! SUPPORT. What no command changes is kept by every function of `Machine/Sessions.lean`. -/

set_option linter.all false

namespace Sys2Proof.Machine

theorem cmdSysIdentify_keeps  : (cmdSysIdentify).Keeps := by
  intro z k pl s h
  unfold cmdSysIdentify
  try unfold actCmd
  try unfold readCmd
  try unfold mirCmd
  try dsimp only
  repeat' (first | with_reducible (first | assumption | intro _ | apply readCmd_keeps | apply CmdOut.reply_keeps) | simp only [keeps_mk_iff] | exact readCmd_keeps | with_reducible apply Cmd.out_keeps | with_reducible apply CmdOut.s_keeps | with_reducible apply CmdOut.after_keeps | simp only [CmdOut.mk_keeps_iff] | simp only [Cmd.mk_keeps_iff] | with_reducible apply And.intro)

theorem cmdSysState_keeps  : (cmdSysState).Keeps := by
  intro z k pl s h
  unfold cmdSysState
  try unfold actCmd
  try unfold readCmd
  try unfold mirCmd
  try dsimp only
  repeat' (first | with_reducible (first | assumption | intro _ | apply readCmd_keeps | apply CmdOut.reply_keeps) | simp only [keeps_mk_iff] | exact readCmd_keeps | with_reducible apply Cmd.out_keeps | with_reducible apply CmdOut.s_keeps | with_reducible apply CmdOut.after_keeps | simp only [CmdOut.mk_keeps_iff] | simp only [Cmd.mk_keeps_iff] | with_reducible apply And.intro)

theorem State.afterRestore_keeps {z : State} (s : State) (h_s : Machine.Keeps z s) : Machine.Keeps z (State.afterRestore s) := by
  unfold State.afterRestore
  try dsimp only
  repeat' (first | with_reducible (first | assumption | apply ite_some_imp | intro _ | apply State.notify_keeps | apply State.streamEnd_keeps | apply State.updFeed_keeps | apply keeps_foldl | apply keeps_foldl_snd | apply keeps_foldl_fst | apply keeps_ite) | simp only [keeps_mk_iff] | (refine keeps_snd (by with_reducible assumption) ?_) | (refine keeps_fst (by with_reducible assumption) ?_) | split)

theorem cmdNotifySubscribe_keeps  : (cmdNotifySubscribe).Keeps := by
  intro z k pl s h
  unfold cmdNotifySubscribe
  try unfold actCmd
  try unfold readCmd
  try unfold mirCmd
  try dsimp only
  repeat' (first | with_reducible (first | assumption | apply ite_some_imp | intro _ | apply State.afterRestore_keeps | apply readCmd_keeps | apply State.updSession_keeps) | simp only [keeps_mk_iff] | exact readCmd_keeps | with_reducible apply Cmd.out_keeps | with_reducible apply CmdOut.s_keeps | with_reducible apply CmdOut.after_keeps | simp only [CmdOut.mk_keeps_iff] | simp only [Cmd.mk_keeps_iff] | with_reducible apply And.intro | (refine keeps_snd (by with_reducible assumption) ?_) | (refine keeps_fst (by with_reducible assumption) ?_) | split)

theorem cmdNotifyFetch_keeps  : (cmdNotifyFetch).Keeps := by
  intro z k pl s h
  unfold cmdNotifyFetch
  try unfold actCmd
  try unfold readCmd
  try unfold mirCmd
  try dsimp only
  repeat' (first | with_reducible (first | assumption | intro _ | apply CmdOut.done_keeps | apply readCmd_keeps | apply CmdOut.reply_keeps | apply keeps_ite) | simp only [keeps_mk_iff] | exact readCmd_keeps | with_reducible apply Cmd.out_keeps | with_reducible apply CmdOut.s_keeps | with_reducible apply CmdOut.after_keeps | with_reducible apply CmdOut.ite_keeps | simp only [CmdOut.mk_keeps_iff] | simp only [Cmd.mk_keeps_iff] | with_reducible apply And.intro | (refine keeps_snd (by with_reducible assumption) ?_) | (refine keeps_fst (by with_reducible assumption) ?_) | split)

theorem cmdSessionChallenge_keeps  : (cmdSessionChallenge).Keeps := by
  intro z k pl s h
  unfold cmdSessionChallenge
  try unfold actCmd
  try unfold readCmd
  try unfold mirCmd
  try dsimp only
  repeat' (first | with_reducible (first | assumption | apply ite_some_imp | intro _ | apply CmdOut.done_keeps) | (refine State.generate_keeps (by with_reducible assumption) ?_ ) | with_reducible apply readCmd_keeps | with_reducible apply CmdOut.reply_keeps | with_reducible apply keeps_id | with_reducible apply keeps_ite | simp only [keeps_mk_iff] | exact readCmd_keeps | with_reducible apply Cmd.out_keeps | with_reducible apply CmdOut.s_keeps | with_reducible apply CmdOut.after_keeps | with_reducible apply CmdOut.ite_keeps | simp only [CmdOut.mk_keeps_iff] | simp only [Cmd.mk_keeps_iff] | with_reducible apply And.intro | (refine keeps_snd (by with_reducible assumption) ?_) | (refine keeps_fst (by with_reducible assumption) ?_) | split)

theorem State.openFailed_keeps {z : State} (s : State) (r p : Nat) (h_s : Machine.Keeps z s) : Machine.Keeps z (State.openFailed s r p) := by
  unfold State.openFailed
  try dsimp only
  repeat' (first | with_reducible (first | assumption | intro _ | apply State.bump_keeps | apply State.ev_keeps | apply State.named_keeps | apply State.setF_keeps | apply keeps_ite) | simp only [keeps_mk_iff] | split)

theorem State.takeSerial_keeps {z : State} (s : State) (h_s : Machine.Keeps z s) : Machine.Keeps z (State.takeSerial s).2 := by
  unfold State.takeSerial
  try dsimp only
  repeat' (first | with_reducible (first | assumption | intro _ | apply State.setF_keeps | apply keeps_ite) | simp only [keeps_mk_iff] | split)

theorem State.openSession_keeps {z : State} (s : State) (p role : Nat) (k : KeySlot) (nd nh : BitVec 128) (h_s : Machine.Keeps z s) : (State.openSession s p role k nd nh).Keeps z := by
  unfold State.openSession
  try dsimp only
  repeat' (first | with_reducible (first | assumption | apply ite_some_imp | intro _ | apply CmdOut.done_keeps | apply State.endSession_keeps | apply CmdOut.reply_keeps | apply State.setF_keeps | apply State.setSlot_keeps | apply State.takeSerial_keeps | apply keeps_id | apply keeps_ite) | simp only [keeps_mk_iff] | with_reducible apply Cmd.out_keeps | with_reducible apply CmdOut.s_keeps | with_reducible apply CmdOut.after_keeps | with_reducible apply CmdOut.ite_keeps | simp only [CmdOut.mk_keeps_iff] | simp only [Cmd.mk_keeps_iff] | with_reducible apply And.intro | (refine keeps_snd (by with_reducible assumption) ?_) | (refine keeps_fst (by with_reducible assumption) ?_) | split)

theorem cmdSessionOpen_keeps  : (cmdSessionOpen).Keeps := by
  intro z k pl s h
  unfold cmdSessionOpen
  try unfold actCmd
  try unfold readCmd
  try unfold mirCmd
  try dsimp only
  repeat' (first | with_reducible (first | assumption | apply ite_some_imp | intro _ | apply CmdOut.done_keeps | apply State.openFailed_keeps | apply State.openSession_keeps | apply readCmd_keeps | apply keeps_id | apply keeps_ite) | simp only [keeps_mk_iff] | exact readCmd_keeps | with_reducible apply Cmd.out_keeps | with_reducible apply CmdOut.s_keeps | with_reducible apply CmdOut.after_keeps | with_reducible apply CmdOut.ite_keeps | simp only [CmdOut.mk_keeps_iff] | simp only [Cmd.mk_keeps_iff] | with_reducible apply And.intro | (refine keeps_snd (by with_reducible assumption) ?_) | (refine keeps_fst (by with_reducible assumption) ?_) | split)

theorem cmdSessionClose_keeps  : (cmdSessionClose).Keeps := by
  intro z k pl s h
  unfold cmdSessionClose
  try unfold actCmd
  try unfold readCmd
  try unfold mirCmd
  try dsimp only
  repeat' (first | with_reducible (first | assumption | apply ite_some_imp | intro _ | apply State.endSession_keeps | apply readCmd_keeps) | simp only [keeps_mk_iff] | exact readCmd_keeps | with_reducible apply Cmd.out_keeps | with_reducible apply CmdOut.s_keeps | with_reducible apply CmdOut.after_keeps | simp only [CmdOut.mk_keeps_iff] | simp only [Cmd.mk_keeps_iff] | with_reducible apply And.intro)

theorem cmdSessionList_keeps  : (cmdSessionList).Keeps := by
  intro z k pl s h
  unfold cmdSessionList
  try unfold actCmd
  try unfold readCmd
  try unfold mirCmd
  try dsimp only
  repeat' (first | with_reducible (first | assumption | intro _ | apply readCmd_keeps | apply CmdOut.reply_keeps | apply keeps_id | apply keeps_ite) | simp only [keeps_mk_iff] | exact readCmd_keeps | with_reducible apply Cmd.out_keeps | with_reducible apply CmdOut.s_keeps | with_reducible apply CmdOut.after_keeps | with_reducible apply CmdOut.ite_keeps | simp only [CmdOut.mk_keeps_iff] | simp only [Cmd.mk_keeps_iff] | with_reducible apply And.intro | split)

theorem execSysIdentify_keeps {z : State} (f : Frame) (s : State) (h_s : Machine.Keeps z s) : OutKeeps z (execSysIdentify f s) := by
  unfold execSysIdentify
  try dsimp only
  repeat' (first | with_reducible (first | assumption | intro _ | apply cmdSysIdentify_keeps | apply mailbox_keeps) | simp only [keeps_mk_iff] | exact cmdSysIdentify_keeps | with_reducible apply outKeeps_next)

theorem execSysState_keeps {z : State} (f : Frame) (s : State) (h_s : Machine.Keeps z s) : OutKeeps z (execSysState f s) := by
  unfold execSysState
  try dsimp only
  repeat' (first | with_reducible (first | assumption | intro _ | apply cmdSysState_keeps | apply mailbox_keeps) | simp only [keeps_mk_iff] | exact cmdSysState_keeps | with_reducible apply outKeeps_next)

theorem execNotifySubscribe_keeps {z : State} (f : Frame) (s : State) (h_s : Machine.Keeps z s) : OutKeeps z (execNotifySubscribe f s) := by
  unfold execNotifySubscribe
  try dsimp only
  repeat' (first | with_reducible (first | assumption | intro _ | apply cmdNotifySubscribe_keeps | apply mailbox_keeps) | exact cmdNotifySubscribe_keeps | with_reducible apply outKeeps_next)

theorem execNotifyFetch_keeps {z : State} (f : Frame) (s : State) (h_s : Machine.Keeps z s) : OutKeeps z (execNotifyFetch f s) := by
  unfold execNotifyFetch
  try dsimp only
  repeat' (first | with_reducible (first | assumption | intro _ | apply cmdNotifyFetch_keeps | apply mailbox_keeps) | exact cmdNotifyFetch_keeps | with_reducible apply outKeeps_next)

theorem execSessionChallenge_keeps {z : State} (f : Frame) (s : State) (h_s : Machine.Keeps z s) : OutKeeps z (execSessionChallenge f s) := by
  unfold execSessionChallenge
  try dsimp only
  repeat' (first | with_reducible (first | assumption | intro _ | apply cmdSessionChallenge_keeps | apply mailbox_keeps) | exact cmdSessionChallenge_keeps | with_reducible apply outKeeps_next)

theorem execSessionOpen_keeps {z : State} (f : Frame) (s : State) (h_s : Machine.Keeps z s) : OutKeeps z (execSessionOpen f s) := by
  unfold execSessionOpen
  try dsimp only
  repeat' (first | with_reducible (first | assumption | intro _ | apply cmdSessionOpen_keeps | apply mailbox_keeps) | exact cmdSessionOpen_keeps | with_reducible apply outKeeps_next)

theorem execSessionClose_keeps {z : State} (f : Frame) (s : State) (h_s : Machine.Keeps z s) : OutKeeps z (execSessionClose f s) := by
  unfold execSessionClose
  try dsimp only
  repeat' (first | with_reducible (first | assumption | intro _ | apply cmdSessionClose_keeps | apply mailbox_keeps) | exact cmdSessionClose_keeps | with_reducible apply outKeeps_next)

theorem execSessionList_keeps {z : State} (f : Frame) (s : State) (h_s : Machine.Keeps z s) : OutKeeps z (execSessionList f s) := by
  unfold execSessionList
  try dsimp only
  repeat' (first | with_reducible (first | assumption | intro _ | apply cmdSessionList_keeps | apply mailbox_keeps) | exact cmdSessionList_keeps | with_reducible apply outKeeps_next)

theorem execChallengeExpiry_keeps {z : State} (id : Nat) (s : State) (h_s : Machine.Keeps z s) : OutKeeps z (execChallengeExpiry id s) := by
  unfold execChallengeExpiry
  try dsimp only
  repeat' (first | with_reducible (first | assumption | intro _ | apply keeps_id) | simp only [keeps_mk_iff] | with_reducible apply outKeeps_next)

theorem execSessionIdleExpiry_keeps {z : State} (point : Nat) (s : State) (h_s : Machine.Keeps z s) : OutKeeps z (execSessionIdleExpiry point s) := by
  unfold execSessionIdleExpiry
  try dsimp only
  repeat' (first | with_reducible (first | assumption | intro _ | apply State.endSession_keeps | apply keeps_ite | apply outKeeps_next | apply outKeeps_ite) | split)

theorem execLockoutExpiry_keeps {z : State} (role : Nat) (s : State) (h_s : Machine.Keeps z s) : OutKeeps z (execLockoutExpiry role s) := by
  unfold execLockoutExpiry
  try dsimp only
  repeat' (first | with_reducible (first | assumption | intro _ | apply State.setF_keeps | apply keeps_ite) | simp only [keeps_mk_iff] | with_reducible apply outKeeps_next | with_reducible apply outKeeps_ite | split)

theorem execSetEndpointId_keeps {z : State} (op : Nat) (eid : Nat) (s : State) (h_s : Machine.Keeps z s) : OutKeeps z (execSetEndpointId op eid s) := by
  unfold execSetEndpointId
  try dsimp only
  repeat' (first | with_reducible (first | assumption | intro _ | apply State.send_keeps | apply keeps_ite) | simp only [keeps_mk_iff] | with_reducible apply outKeeps_next | with_reducible apply outKeeps_ite | split)

theorem execGetEndpointId_keeps {z : State} (s : State) (h_s : Machine.Keeps z s) : OutKeeps z (execGetEndpointId s) := by
  unfold execGetEndpointId
  try dsimp only
  repeat' (first | with_reducible (first | assumption | intro _ | apply State.send_keeps) | simp only [keeps_mk_iff] | with_reducible apply outKeeps_next)

theorem execGetMctpVersionSupport_keeps {z : State} (msgType : Nat) (s : State) (h_s : Machine.Keeps z s) : OutKeeps z (execGetMctpVersionSupport msgType s) := by
  unfold execGetMctpVersionSupport
  try dsimp only
  repeat' (first | with_reducible (first | assumption | intro _ | apply State.send_keeps | apply keeps_ite) | simp only [keeps_mk_iff] | with_reducible apply outKeeps_next | with_reducible apply outKeeps_ite | split)

theorem execGetMessageTypeSupport_keeps {z : State} (s : State) (h_s : Machine.Keeps z s) : OutKeeps z (execGetMessageTypeSupport s) := by
  unfold execGetMessageTypeSupport
  try dsimp only
  repeat' (first | with_reducible (first | assumption | intro _ | apply State.send_keeps) | simp only [keeps_mk_iff] | with_reducible apply outKeeps_next)

theorem execGetVendorMessageSupport_keeps {z : State} (sel : Nat) (s : State) (h_s : Machine.Keeps z s) : OutKeeps z (execGetVendorMessageSupport sel s) := by
  unfold execGetVendorMessageSupport
  try dsimp only
  repeat' (first | with_reducible (first | assumption | intro _ | apply State.send_keeps | apply keeps_ite) | simp only [keeps_mk_iff] | with_reducible apply outKeeps_next | with_reducible apply outKeeps_ite | split)

end Sys2Proof.Machine
end

