-- ==== Sys2Proof/Laws/KeepKeySlots.lean ====
section
/-! SUPPORT. What no command changes is kept by every function of `Machine/KeySlots.lean`. -/

set_option linter.all false

namespace Sys2Proof.Machine

theorem State.writeHalf_keeps {z : State} (s : State) (d i attr : Nat) (v : BitVec 128) (h_s : Machine.Keeps z s) : Machine.Keeps z (State.writeHalf s d i attr v).2 := by
  unfold State.writeHalf
  try dsimp only
  repeat' (first | with_reducible (first | assumption | intro _ | apply State.setSlot_keeps | apply keeps_ite) | simp only [keeps_mk_iff] | split)

theorem State.loadBcx_keeps {z : State} (s : State) (t i : Nat) (v : BitVec 128) (h_s : Machine.Keeps z s) : Machine.Keeps z (State.loadBcx s t i v) := by
  unfold State.loadBcx
  try dsimp only
  repeat' (first | with_reducible (first | assumption | intro _ | apply State.setF_keeps | apply keeps_ite) | simp only [keeps_mk_iff] | split)

theorem State.route_keeps {z : State} (s : State) (q : KseReq) (v : BitVec 128) (h_s : Machine.Keeps z s) : Machine.Keeps z (State.route s q v).2.1 := by
  unfold State.route
  try dsimp only
  repeat' (first | with_reducible (first | assumption | intro _ | apply State.loadBcx_keeps | apply State.writeHalf_keeps | apply keeps_ite) | split)

theorem State.kseDone_keeps {z : State} (s : State) (sub : Nat) (q : KseReq) (st : KStatus) (counter : Nat) (v : BitVec 128) (h_s : Machine.Keeps z s) : Machine.Keeps z (State.kseDone s sub q st counter v) := by
  unfold State.kseDone
  try dsimp only
  repeat' (first | with_reducible (first | assumption | intro _ | apply State.ev_keeps | apply State.send_keeps | apply keeps_ite) | simp only [keeps_mk_iff] | (refine keeps_snd (by with_reducible assumption) ?_) | (refine keeps_fst (by with_reducible assumption) ?_) | split)

theorem State.kseRequest_keeps {z : State} (s : State) (sub : Nat) (q : KseReq) (run : State → State) (h_s : Machine.Keeps z s) (h_run : ∀ a0, Machine.Keeps z a0 → Machine.Keeps z (run a0)) : Machine.Keeps z (State.kseRequest s sub q run) := by
  unfold State.kseRequest
  try dsimp only
  repeat' (first | with_reducible (first | assumption | intro _ | apply h_run | apply State.ev_keeps | apply State.kseDone_keeps | apply keeps_ite) | split)

theorem State.kseBlock_keeps {z : State} (s : State) (sub : Nat) (q : KseReq) (h_s : Machine.Keeps z s) : Machine.Keeps z (State.kseBlock s sub q) := by
  unfold State.kseBlock
  try dsimp only
  repeat' (first | with_reducible (first | assumption | intro _ | apply State.bump_keeps | apply State.kseDone_keeps | apply State.route_keeps | apply keeps_ite) | split)

theorem State.kseCtr_keeps {z : State} (s : State) (sub : Nat) (q : KseReq) (h_s : Machine.Keeps z s) : Machine.Keeps z (State.kseCtr s sub q) := by
  unfold State.kseCtr
  try dsimp only
  repeat' (first | with_reducible (first | assumption | intro _ | apply State.bump_keeps | apply State.ev_keeps | apply State.kseDone_keeps | apply State.setSlot_keeps | apply keeps_ite) | simp only [keeps_mk_iff] | split)

theorem State.kseGenerate_keeps {z : State} (s : State) (sub : Nat) (q : KseReq) (h_s : Machine.Keeps z s) : Machine.Keeps z (State.kseGenerate s sub q) := by
  unfold State.kseGenerate
  try dsimp only
  repeat' (first | with_reducible (first | assumption | apply ite_some_imp | intro _) | (refine State.generate_keeps (by with_reducible assumption) ?_ ) | with_reducible apply State.kseDone_keeps | with_reducible apply State.route_keeps | with_reducible apply keeps_ite | simp only [keeps_mk_iff] | (refine keeps_snd (by with_reducible assumption) ?_) | (refine keeps_fst (by with_reducible assumption) ?_) | split)

theorem onSubmitter_keeps {z : State} (sub : Nat) (s x : State) (h_s : Machine.Keeps z s) (h_x : Machine.Keeps z x) : OutKeeps z (onSubmitter sub s x) := by
  unfold onSubmitter
  try dsimp only
  repeat' (first | with_reducible (first | assumption | intro _ | apply keeps_ite | apply outKeeps_next | apply outKeeps_ite) | split)

theorem execEnc_keeps {z : State} (submitter : Nat) (q : KseReq) (s : State) (h_s : Machine.Keeps z s) : OutKeeps z (execEnc submitter q s) := by
  unfold execEnc
  try dsimp only
  repeat' (first | with_reducible (first | assumption | intro _ | apply State.kseBlock_keeps | apply State.kseRequest_keeps | apply onSubmitter_keeps) | simp only [keeps_mk_iff] | with_reducible apply outKeeps_next)

theorem execDec_keeps {z : State} (submitter : Nat) (q : KseReq) (s : State) (h_s : Machine.Keeps z s) : OutKeeps z (execDec submitter q s) := by
  unfold execDec
  try dsimp only
  repeat' (first | with_reducible (first | assumption | intro _ | apply State.kseBlock_keeps | apply State.kseRequest_keeps | apply onSubmitter_keeps) | simp only [keeps_mk_iff] | with_reducible apply outKeeps_next)

theorem execCtr_keeps {z : State} (submitter : Nat) (q : KseReq) (s : State) (h_s : Machine.Keeps z s) : OutKeeps z (execCtr submitter q s) := by
  unfold execCtr
  try dsimp only
  repeat' (first | with_reducible (first | assumption | intro _ | apply State.kseCtr_keeps | apply State.kseRequest_keeps | apply onSubmitter_keeps) | simp only [keeps_mk_iff] | with_reducible apply outKeeps_next)

theorem execGenerate_keeps {z : State} (submitter : Nat) (q : KseReq) (s : State) (h_s : Machine.Keeps z s) : OutKeeps z (execGenerate submitter q s) := by
  unfold execGenerate
  try dsimp only
  repeat' (first | with_reducible (first | assumption | intro _ | apply State.kseGenerate_keeps | apply State.kseRequest_keeps | apply onSubmitter_keeps) | simp only [keeps_mk_iff] | with_reducible apply outKeeps_next)

theorem execDrbgReseed_keeps {z : State} (s : State) (h_s : Machine.Keeps z s) : OutKeeps z (execDrbgReseed s) := by
  unfold execDrbgReseed
  try dsimp only
  repeat' (first | with_reducible (first | assumption | intro _) | simp only [keeps_mk_iff] | with_reducible apply outKeeps_next)

theorem State.keyEvent_keeps {z : State} (s : State) (cause t role : Nat) (h_s : Machine.Keeps z s) : Machine.Keeps z (State.keyEvent s cause t role) := by
  unfold State.keyEvent
  try dsimp only
  repeat' (first | with_reducible (first | assumption | intro _ | apply State.notify_keeps))

theorem State.healthFail_keeps {z : State} (s : State) (h_s : Machine.Keeps z s) : Machine.Keeps z (State.healthFail s) := by
  unfold State.healthFail
  try dsimp only
  repeat' (first | with_reducible (first | assumption | intro _ | apply State.bump_keeps | apply State.evRec_keeps | apply State.keyEvent_keeps | apply State.setF_keeps | apply keeps_ite) | simp only [keeps_mk_iff] | split)

theorem execHealthFail_keeps {z : State} (s : State) (h_s : Machine.Keeps z s) : OutKeeps z (execHealthFail s) := by
  unfold execHealthFail
  try dsimp only
  repeat' (first | with_reducible (first | assumption | intro _ | apply State.healthFail_keeps | apply outKeeps_next))

theorem execEntropyRestart_keeps {z : State} (ok : Bool) (s : State) (h_s : Machine.Keeps z s) : OutKeeps z (execEntropyRestart ok s) := by
  unfold execEntropyRestart
  try dsimp only
  repeat' (first | with_reducible (first | assumption | intro _ | apply State.healthFail_keeps | apply State.setF_keeps | apply keeps_ite) | simp only [keeps_mk_iff] | with_reducible apply outKeeps_next | with_reducible apply outKeeps_ite | split)

theorem execKseQueueCheck_keeps {z : State} (submitter free : Nat) (s : State) (h_s : Machine.Keeps z s) : OutKeeps z (execKseQueueCheck submitter free s) := by
  unfold execKseQueueCheck
  try dsimp only
  repeat' (first | with_reducible (first | assumption | intro _ | apply onSubmitter_keeps | apply State.recOpen_keeps | apply State.setF_keeps | apply keeps_ite | apply outKeeps_next | apply outKeeps_ite) | split)

theorem State.loadSlot_keeps {z : State} (s : State) (n usage : Nat) (size256 : Bool) (key : BitVec 256) (h_s : Machine.Keeps z s) : Machine.Keeps z (State.loadSlot s n usage size256 key) := by
  unfold State.loadSlot
  try dsimp only
  repeat' (first | with_reducible (first | assumption | intro _ | apply State.setSlot_keeps | apply keeps_ite) | simp only [keeps_mk_iff] | split)

theorem State.deriveStoreKeys_keeps {z : State} (s : State) (h_s : Machine.Keeps z s) : Machine.Keeps z (State.deriveStoreKeys s) := by
  unfold State.deriveStoreKeys
  try dsimp only
  repeat' (first | with_reducible (first | assumption | intro _ | apply State.loadSlot_keeps))

theorem State.writeWrap_keeps {z : State} (s : State) (n : Nat) (h_s : Machine.Keeps z s) : Machine.Keeps z (State.writeWrap s n) := by
  unfold State.writeWrap
  try dsimp only
  repeat' (first | with_reducible (first | assumption | intro _ | apply keeps_foldl | apply keeps_foldl_snd | apply keeps_foldl_fst | apply keeps_ite) | simp only [keeps_mk_iff] | split)

theorem State.restoreRole_keeps {z : State} (s : State) (r : Nat) (h_s : Machine.Keeps z s) : Machine.Keeps z (State.restoreRole s r) := by
  unfold State.restoreRole
  try dsimp only
  repeat' (first | with_reducible (first | assumption | apply ite_some_imp | intro _ | apply State.loadSlot_keeps | apply State.setF_keeps) | simp only [keeps_mk_iff] | (refine keeps_snd (by with_reducible assumption) ?_) | (refine keeps_fst (by with_reducible assumption) ?_) | split)

theorem State.restorePair_keeps {z : State} (s : State) (h_s : Machine.Keeps z s) : Machine.Keeps z (State.restorePair s) := by
  unfold State.restorePair
  try dsimp only
  repeat' (first | with_reducible (first | assumption | apply ite_some_imp | intro _ | apply State.loadSlot_keeps) | simp only [keeps_mk_iff] | (refine keeps_snd (by with_reducible assumption) ?_) | (refine keeps_fst (by with_reducible assumption) ?_) | split)

theorem State.loadXts_keeps {z : State} (s : State) (t : Nat) (h_s : Machine.Keeps z s) : Machine.Keeps z (State.loadXts s t) := by
  unfold State.loadXts
  try dsimp only
  repeat' (first | with_reducible (first | assumption | intro _ | apply State.loadBcx_keeps | apply State.setF_keeps))

theorem State.loadRoots_keeps {z : State} (s : State) (h_s : Machine.Keeps z s) : Machine.Keeps z (State.loadRoots s) := by
  unfold State.loadRoots
  try dsimp only
  repeat' (first | with_reducible (first | assumption | intro _ | apply State.loadSlot_keeps))

theorem State.loadKeys_keeps {z : State} (s : State) (h_s : Machine.Keeps z s) : Machine.Keeps z (State.loadKeys s) := by
  unfold State.loadKeys
  try dsimp only
  repeat' (first | with_reducible (first | assumption | intro _ | apply State.allTiles_keeps | apply State.deriveStoreKeys_keeps | apply State.loadSlot_keeps | apply State.loadXts_keeps | apply State.restorePair_keeps | apply State.restoreRole_keeps))

theorem State.loadLinkKey_keeps {z : State} (s : State) (t kn mac reg : Nat) (h_s : Machine.Keeps z s) : Machine.Keeps z (State.loadLinkKey s t kn mac reg) := by
  unfold State.loadLinkKey
  try dsimp only
  repeat' (first | with_reducible (first | assumption | intro _ | apply State.loadBcx_keeps | apply keeps_ite) | split)

theorem State.advanceKn_keeps {z : State} (s : State) (t : Nat) (h_s : Machine.Keeps z s) : Machine.Keeps z (State.advanceKn s t) := by
  unfold State.advanceKn
  try dsimp only
  repeat' (first | with_reducible (first | assumption | intro _ | apply State.ev_keeps | apply State.keyEvent_keeps | apply State.loadLinkKey_keeps | apply State.setF_keeps | apply State.setFs_keeps | apply State.updTwl_keeps | apply keeps_ite) | simp only [keeps_mk_iff] | split)

theorem cmdKeyStatus_keeps  : (cmdKeyStatus).Keeps := by
  intro z k pl s h
  unfold cmdKeyStatus
  try unfold actCmd
  try unfold readCmd
  try unfold mirCmd
  try dsimp only
  repeat' (first | with_reducible (first | assumption | intro _ | apply readCmd_keeps | apply CmdOut.reply_keeps) | simp only [keeps_mk_iff] | exact readCmd_keeps | with_reducible apply Cmd.out_keeps | with_reducible apply CmdOut.s_keeps | with_reducible apply CmdOut.after_keeps | simp only [CmdOut.mk_keeps_iff] | simp only [Cmd.mk_keeps_iff] | with_reducible apply And.intro)

theorem cmdKeyRoleSet_keeps  : (cmdKeyRoleSet).Keeps := by
  intro z k pl s h
  unfold cmdKeyRoleSet
  try unfold actCmd
  try unfold readCmd
  try unfold mirCmd
  try dsimp only
  repeat' (first | with_reducible (first | assumption | apply ite_some_imp | intro _ | apply actCmd_keeps | apply CmdOut.done_keeps | apply State.drop_keeps | apply State.endRole_keeps | apply State.keyEvent_keeps | apply State.loadSlot_keeps | apply State.setF_keeps | apply State.writeWrap_keeps | apply keeps_ite) | simp only [keeps_mk_iff] | exact actCmd_keeps | with_reducible apply Cmd.out_keeps | with_reducible apply CmdOut.s_keeps | with_reducible apply CmdOut.after_keeps | with_reducible apply CmdOut.ite_keeps | simp only [CmdOut.mk_keeps_iff] | simp only [Cmd.mk_keeps_iff] | with_reducible apply And.intro | split)

theorem State.resecure_keeps {z : State} (s : State) (h_s : Machine.Keeps z s) : Machine.Keeps z (State.resecure s) := by
  unfold State.resecure
  try dsimp only
  repeat' (first | with_reducible (first | assumption | intro _ | apply State.advanceKn_keeps | apply State.allTiles_keeps | apply State.setFs_keeps | apply State.stopResync_keeps | apply keeps_ite) | simp only [keeps_mk_iff] | split)

theorem cmdKeyPairSet_keeps  : (cmdKeyPairSet).Keeps := by
  intro z k pl s h
  unfold cmdKeyPairSet
  try unfold actCmd
  try unfold readCmd
  try unfold mirCmd
  try dsimp only
  repeat' (first | with_reducible (first | assumption | apply ite_some_imp | intro _ | apply actCmd_keeps | apply CmdOut.done_keeps | apply State.drop_keeps | apply State.keyEvent_keeps | apply State.loadSlot_keeps | apply State.resecure_keeps | apply State.writeWrap_keeps | apply keeps_ite) | simp only [keeps_mk_iff] | exact actCmd_keeps | with_reducible apply Cmd.out_keeps | with_reducible apply CmdOut.s_keeps | with_reducible apply CmdOut.after_keeps | with_reducible apply CmdOut.ite_keeps | simp only [CmdOut.mk_keeps_iff] | simp only [Cmd.mk_keeps_iff] | with_reducible apply And.intro | split)

theorem cmdKeyMacsecRekey_keeps  : (cmdKeyMacsecRekey).Keeps := by
  intro z k pl s h
  unfold cmdKeyMacsecRekey
  try unfold actCmd
  try unfold readCmd
  try unfold mirCmd
  try dsimp only
  repeat' (first | with_reducible (first | assumption | intro _ | apply actCmd_keeps | apply State.advanceKn_keeps | apply State.allTiles_keeps | apply CmdOut.done_keeps) | simp only [keeps_mk_iff] | exact actCmd_keeps | with_reducible apply Cmd.out_keeps | with_reducible apply CmdOut.s_keeps | with_reducible apply CmdOut.after_keeps | simp only [CmdOut.mk_keeps_iff] | simp only [Cmd.mk_keeps_iff] | with_reducible apply And.intro)

theorem cmdKeySelftest_keeps (ok : Bool) : (cmdKeySelftest ok).Keeps := by
  intro z k pl s h
  unfold cmdKeySelftest
  try unfold actCmd
  try unfold readCmd
  try unfold mirCmd
  try dsimp only
  repeat' (first | with_reducible (first | assumption | apply ite_some_imp | intro _ | apply actCmd_keeps | apply CmdOut.done_keeps | apply State.enterFault_keeps | apply State.ev_keeps | apply keeps_ite) | simp only [keeps_mk_iff] | exact actCmd_keeps | with_reducible apply Cmd.out_keeps | with_reducible apply CmdOut.s_keeps | with_reducible apply CmdOut.after_keeps | with_reducible apply CmdOut.ite_keeps | simp only [CmdOut.mk_keeps_iff] | simp only [Cmd.mk_keeps_iff] | with_reducible apply And.intro | split)

theorem execKeyStatus_keeps {z : State} (f : Frame) (s : State) (h_s : Machine.Keeps z s) : OutKeeps z (execKeyStatus f s) := by
  unfold execKeyStatus
  try dsimp only
  repeat' (first | with_reducible (first | assumption | intro _ | apply cmdKeyStatus_keeps | apply mailbox_keeps) | exact cmdKeyStatus_keeps | with_reducible apply outKeeps_next)

theorem execKeyRoleSet_keeps {z : State} (f : Frame) (s : State) (h_s : Machine.Keeps z s) : OutKeeps z (execKeyRoleSet f s) := by
  unfold execKeyRoleSet
  try dsimp only
  repeat' (first | with_reducible (first | assumption | intro _ | apply cmdKeyRoleSet_keeps | apply mailbox_keeps) | exact cmdKeyRoleSet_keeps | with_reducible apply outKeeps_next)

theorem execKeyPairSet_keeps {z : State} (f : Frame) (s : State) (h_s : Machine.Keeps z s) : OutKeeps z (execKeyPairSet f s) := by
  unfold execKeyPairSet
  try dsimp only
  repeat' (first | with_reducible (first | assumption | intro _ | apply cmdKeyPairSet_keeps | apply mailbox_keeps) | exact cmdKeyPairSet_keeps | with_reducible apply outKeeps_next)

theorem execKeyMacsecRekey_keeps {z : State} (f : Frame) (s : State) (h_s : Machine.Keeps z s) : OutKeeps z (execKeyMacsecRekey f s) := by
  unfold execKeyMacsecRekey
  try dsimp only
  repeat' (first | with_reducible (first | assumption | intro _ | apply cmdKeyMacsecRekey_keeps | apply mailbox_keeps) | exact cmdKeyMacsecRekey_keeps | with_reducible apply outKeeps_next)

theorem execKeySelftest_keeps {z : State} (f : Frame) (ok : Bool) (s : State) (h_s : Machine.Keeps z s) : OutKeeps z (execKeySelftest f ok s) := by
  unfold execKeySelftest
  try dsimp only
  repeat' (first | with_reducible (first | assumption | intro _ | apply cmdKeySelftest_keeps | apply mailbox_keeps) | exact cmdKeySelftest_keeps | with_reducible apply outKeeps_next)

end Sys2Proof.Machine
end

