-- ==== Sys2Proof/Laws/KeepNvStore.lean ====
section
/-! SUPPORT. What no command changes is kept by every function of `Machine/NvStore.lean`. -/

set_option linter.all false

namespace Sys2Proof.Machine

theorem State.nvsLock_keeps {z : State} (s : State) (t : Nat) (h_s : Machine.Keeps z s) : Machine.Keeps z (State.nvsLock s t) := by
  unfold State.nvsLock
  try dsimp only
  repeat' (first | with_reducible (first | assumption | intro _ | apply State.setF_keeps | apply State.updArray_keeps) | simp only [keeps_mk_iff])

theorem State.nvsKeyFail_keeps {z : State} (s : State) (t : Nat) (h_s : Machine.Keeps z s) : Machine.Keeps z (State.nvsKeyFail s t) := by
  unfold State.nvsKeyFail
  try dsimp only
  repeat' (first | with_reducible (first | assumption | intro _ | apply State.ev_keeps | apply State.nvsLock_keeps))

theorem State.nvsKey_keeps {z : State} (s : State) (t master value : Nat) (late : Bool) (h_s : Machine.Keeps z s) : Machine.Keeps z (State.nvsKey s t master value late) := by
  unfold State.nvsKey
  try dsimp only
  repeat' (first | with_reducible (first | assumption | intro _ | apply State.ev_keeps | apply State.nvsKeyFail_keeps | apply State.setF_keeps | apply State.updArray_keeps | apply keeps_ite) | simp only [keeps_mk_iff] | split)

theorem State.nvsStart_keeps {z : State} (s : State) (t master op addr : Nat) (run : State → State × Nat) (h_s : Machine.Keeps z s) (h_run : ∀ a0, Machine.Keeps z a0 → Machine.Keeps z (run a0).1) : Machine.Keeps z (State.nvsStart s t master op addr run) := by
  unfold State.nvsStart
  try dsimp only
  repeat' (first | with_reducible (first | assumption | intro _ | apply h_run | apply State.nvsKeyFail_keeps | apply State.nvsLock_keeps | apply State.setF_keeps | apply State.updArray_keeps | apply keeps_ite) | simp only [keeps_mk_iff] | (refine keeps_snd (by with_reducible assumption) ?_) | (refine keeps_fst (by with_reducible assumption) ?_) | split)

theorem State.nvsProgram_keeps {z : State} (s : State) (t addr data pulses : Nat) (h_s : Machine.Keeps z s) : Machine.Keeps z (State.nvsProgram s t addr data pulses).1 := by
  unfold State.nvsProgram
  try dsimp only
  repeat' (first | with_reducible (first | assumption | intro _ | apply State.bump_keeps | apply State.draw_keeps | apply State.ev_keeps | apply State.evRec_keeps | apply State.setBytes_keeps | apply State.setF_keeps | apply State.updArray_keeps | apply keeps_ite) | simp only [keeps_mk_iff] | (refine keeps_snd (by with_reducible assumption) ?_) | (refine keeps_fst (by with_reducible assumption) ?_) | split)

theorem State.nvsErase_keeps {z : State} (s : State) (t addr : Nat) (ok : Bool) (h_s : Machine.Keeps z s) : Machine.Keeps z (State.nvsErase s t addr ok).1 := by
  unfold State.nvsErase
  try dsimp only
  repeat' (first | with_reducible (first | assumption | intro _ | apply State.bump_keeps | apply State.eraseSectors_keeps | apply State.ev_keeps | apply State.updArray_keeps | apply keeps_ite) | simp only [keeps_mk_iff] | split)

theorem State.nvsSwap_keeps {z : State} (s : State) (t addr : Nat) (h_s : Machine.Keeps z s) : Machine.Keeps z (State.nvsSwap s t addr).1 := by
  unfold State.nvsSwap
  try dsimp only
  repeat' (first | with_reducible (first | assumption | intro _ | apply State.ev_keeps | apply State.evRec_keeps | apply State.setF_keeps | apply State.updArray_keeps | apply State.wipe_keeps | apply keeps_foldl | apply keeps_foldl_snd | apply keeps_foldl_fst | apply keeps_ite) | simp only [keeps_mk_iff] | split)

theorem State.swapBegin_keeps {z : State} (s : State) (t addr : Nat) (h_s : Machine.Keeps z s) : Machine.Keeps z (State.swapBegin s t addr).1 := by
  unfold State.swapBegin
  try dsimp only
  repeat' (first | with_reducible (first | assumption | intro _ | apply State.nvsSwap_keeps | apply keeps_ite) | split)

theorem State.freshen_keeps {z : State} (s : State) (t a n : Nat) (erase : Bool) (h_s : Machine.Keeps z s) : Machine.Keeps z (State.freshen s t a n erase) := by
  unfold State.freshen
  try dsimp only
  repeat' (first | with_reducible (first | assumption | intro _ | apply State.nvsSwap_keeps | apply keeps_foldl | apply keeps_foldl_snd | apply keeps_foldl_fst | apply keeps_ite) | split)

theorem execProgram_keeps {z : State} (tile master addr data pulses : Nat) (s : State) (h_s : Machine.Keeps z s) : OutKeeps z (execProgram tile master addr data pulses s) := by
  unfold execProgram
  try dsimp only
  repeat' (first | with_reducible (first | assumption | intro _ | apply State.nvsProgram_keeps | apply State.nvsStart_keeps | apply onTile_keeps | apply State.setF_keeps | apply outKeeps_next))

theorem execErase_keeps {z : State} (tile master addr : Nat) (ok : Bool) (s : State) (h_s : Machine.Keeps z s) : OutKeeps z (execErase tile master addr ok s) := by
  unfold execErase
  try dsimp only
  repeat' (first | with_reducible (first | assumption | intro _ | apply State.nvsErase_keeps | apply State.nvsStart_keeps | apply onTile_keeps | apply keeps_ite | apply outKeeps_next | apply outKeeps_ite) | split)

theorem execBlankCheck_keeps {z : State} (tile master addr : Nat) (s : State) (h_s : Machine.Keeps z s) : OutKeeps z (execBlankCheck tile master addr s) := by
  unfold execBlankCheck
  try dsimp only
  repeat' (first | with_reducible (first | assumption | intro _ | apply State.nvsStart_keeps | apply onTile_keeps | apply keeps_ite | apply outKeeps_next | apply outKeeps_ite) | split)

theorem State.marginFound_keeps {z : State} (s : State) (t n : Nat) (h_s : Machine.Keeps z s) : Machine.Keeps z (State.marginFound s t n) := by
  unfold State.marginFound
  try dsimp only
  repeat' (first | with_reducible (first | assumption | intro _ | apply State.updArray_keeps) | simp only [keeps_mk_iff])

theorem execMarginRead_keeps {z : State} (tile master addr : Nat) (differs : Bool) (s : State) (h_s : Machine.Keeps z s) : OutKeeps z (execMarginRead tile master addr differs s) := by
  unfold execMarginRead
  try dsimp only
  repeat' (first | with_reducible (first | assumption | intro _ | apply State.marginFound_keeps | apply State.nvsStart_keeps | apply onTile_keeps | apply keeps_ite | apply outKeeps_next | apply outKeeps_ite) | split)

theorem execSwap_keeps {z : State} (tile master addr : Nat) (s : State) (h_s : Machine.Keeps z s) : OutKeeps z (execSwap tile master addr s) := by
  unfold execSwap
  try dsimp only
  repeat' (first | with_reducible (first | assumption | intro _ | apply State.nvsStart_keeps | apply onTile_keeps | apply State.swapBegin_keeps | apply keeps_ite | apply outKeeps_next | apply outKeeps_ite) | split)

theorem State.nvsRun_keeps {z : State} (s : State) (t op : Nat) (h_s : Machine.Keeps z s) : Machine.Keeps z (State.nvsRun s t op) := by
  unfold State.nvsRun
  try dsimp only
  repeat' (first | with_reducible (first | assumption | intro _ | apply State.draw_keeps | apply State.nvsErase_keeps | apply State.nvsProgram_keeps | apply State.nvsStart_keeps | apply State.swapBegin_keeps | apply State.updArray_keeps | apply keeps_ite) | simp only [keeps_mk_iff] | (refine keeps_snd (by with_reducible assumption) ?_) | (refine keeps_fst (by with_reducible assumption) ?_) | split)

theorem State.nvsRegWrite_keeps {z : State} (s : State) (t off w : Nat) (h_s : Machine.Keeps z s) : Machine.Keeps z (State.nvsRegWrite s t off w) := by
  unfold State.nvsRegWrite
  try dsimp only
  repeat' (first | with_reducible (first | assumption | intro _ | apply State.nvsKey_keeps | apply State.nvsRun_keeps | apply State.setF_keeps | apply State.updArray_keeps | apply keeps_ite) | simp only [keeps_mk_iff] | (refine keeps_snd (by with_reducible assumption) ?_) | (refine keeps_fst (by with_reducible assumption) ?_) | split)

theorem execNvsOperationEnd_keeps {z : State} (tile : Nat) (s0 : State) (h_s0 : Machine.Keeps z s0) : OutKeeps z (execNvsOperationEnd tile s0) := by
  unfold execNvsOperationEnd
  try dsimp only
  repeat' (first | with_reducible (first | assumption | apply ite_some_imp | intro _ | apply State.nvsSwap_keeps | apply onTile_keeps | apply State.setF_keeps | apply State.updArray_keeps | apply keeps_ite) | simp only [keeps_mk_iff] | with_reducible apply outKeeps_next | with_reducible apply outKeeps_ite | (refine keeps_snd (by with_reducible assumption) ?_) | (refine keeps_fst (by with_reducible assumption) ?_) | split)

theorem execNvsKeyWrite_keeps {z : State} (tile master value : Nat) (late : Bool) (s : State) (h_s : Machine.Keeps z s) : OutKeeps z (execNvsKeyWrite tile master value late s) := by
  unfold execNvsKeyWrite
  try dsimp only
  repeat' (first | with_reducible (first | assumption | intro _ | apply State.nvsKey_keeps | apply onTile_keeps | apply outKeeps_next))

theorem execNvsUnlockTimeout_keeps {z : State} (tile : Nat) (s : State) (h_s : Machine.Keeps z s) : OutKeeps z (execNvsUnlockTimeout tile s) := by
  unfold execNvsUnlockTimeout
  try dsimp only
  repeat' (first | with_reducible (first | assumption | intro _ | apply State.nvsKeyFail_keeps | apply onTile_keeps | apply keeps_ite | apply outKeeps_next | apply outKeeps_ite) | split)

theorem execMarginSchedule_keeps {z : State} (tile : Nat) (differ : List Nat) (s : State) (h_s : Machine.Keeps z s) : OutKeeps z (execMarginSchedule tile differ s) := by
  unfold execMarginSchedule
  try dsimp only
  repeat' (first | with_reducible (first | assumption | intro _ | apply State.marginFound_keeps | apply onTile_keeps | apply keeps_foldl | apply keeps_foldl_snd | apply keeps_foldl_fst | apply keeps_ite | apply outKeeps_next | apply outKeeps_ite) | split)

theorem cmdNvStatus_keeps  : (cmdNvStatus).Keeps := by
  intro z k pl s h
  unfold cmdNvStatus
  try unfold actCmd
  try unfold readCmd
  try unfold mirCmd
  try dsimp only
  repeat' (first | with_reducible (first | assumption | intro _ | apply readCmd_keeps | apply CmdOut.reply_keeps | apply keeps_foldl | apply keeps_foldl_snd | apply keeps_foldl_fst) | simp only [keeps_mk_iff] | exact readCmd_keeps | with_reducible apply Cmd.out_keeps | with_reducible apply CmdOut.s_keeps | with_reducible apply CmdOut.after_keeps | simp only [CmdOut.mk_keeps_iff] | simp only [Cmd.mk_keeps_iff] | with_reducible apply And.intro)

theorem cmdNvFactoryRead_keeps  : (cmdNvFactoryRead).Keeps := by
  intro z k pl s h
  unfold cmdNvFactoryRead
  try unfold actCmd
  try unfold readCmd
  try unfold mirCmd
  try dsimp only
  repeat' (first | with_reducible (first | assumption | intro _ | apply actCmd_keeps | apply State.bump_keeps | apply CmdOut.done_keeps | apply State.ev_keeps | apply CmdOut.reply_keeps | apply keeps_ite) | simp only [keeps_mk_iff] | exact actCmd_keeps | with_reducible apply Cmd.out_keeps | with_reducible apply CmdOut.s_keeps | with_reducible apply CmdOut.after_keeps | with_reducible apply CmdOut.ite_keeps | simp only [CmdOut.mk_keeps_iff] | simp only [Cmd.mk_keeps_iff] | with_reducible apply And.intro | (refine keeps_snd (by with_reducible assumption) ?_) | (refine keeps_fst (by with_reducible assumption) ?_) | split)

theorem cmdNvFactoryWrite_keeps  : (cmdNvFactoryWrite).Keeps := by
  intro z k pl s h
  unfold cmdNvFactoryWrite
  try unfold actCmd
  try unfold readCmd
  try unfold mirCmd
  try dsimp only
  repeat' (first | with_reducible (first | assumption | intro _ | apply actCmd_keeps | apply CmdOut.done_keeps | apply State.drop_keeps | apply State.ev_keeps | apply State.freshen_keeps | apply State.programBytes_keeps | apply keeps_ite) | simp only [keeps_mk_iff] | exact actCmd_keeps | with_reducible apply Cmd.out_keeps | with_reducible apply CmdOut.s_keeps | with_reducible apply CmdOut.after_keeps | with_reducible apply CmdOut.ite_keeps | simp only [CmdOut.mk_keeps_iff] | simp only [Cmd.mk_keeps_iff] | with_reducible apply And.intro | (refine keeps_snd (by with_reducible assumption) ?_) | (refine keeps_fst (by with_reducible assumption) ?_) | split)

theorem cmdNvFactoryErase_keeps  : (cmdNvFactoryErase).Keeps := by
  intro z k pl s h
  unfold cmdNvFactoryErase
  try unfold actCmd
  try unfold readCmd
  try unfold mirCmd
  try dsimp only
  repeat' (first | with_reducible (first | assumption | intro _ | apply actCmd_keeps | apply CmdOut.done_keeps | apply State.eraseSectors_keeps | apply State.freshen_keeps | apply keeps_ite) | simp only [keeps_mk_iff] | exact actCmd_keeps | with_reducible apply Cmd.out_keeps | with_reducible apply CmdOut.s_keeps | with_reducible apply CmdOut.after_keeps | with_reducible apply CmdOut.ite_keeps | simp only [CmdOut.mk_keeps_iff] | simp only [Cmd.mk_keeps_iff] | with_reducible apply And.intro | (refine keeps_snd (by with_reducible assumption) ?_) | (refine keeps_fst (by with_reducible assumption) ?_) | split)

theorem cmdNvScan_keeps (differ : List Nat) : (cmdNvScan differ).Keeps := by
  intro z k pl s h
  unfold cmdNvScan
  try unfold actCmd
  try unfold readCmd
  try unfold mirCmd
  try dsimp only
  repeat' (first | with_reducible (first | assumption | intro _ | apply actCmd_keeps | apply State.config_keeps | apply CmdOut.done_keeps | apply State.marginFound_keeps | apply keeps_foldl | apply keeps_foldl_snd | apply keeps_foldl_fst) | simp only [keeps_mk_iff] | exact actCmd_keeps | with_reducible apply Cmd.out_keeps | with_reducible apply CmdOut.s_keeps | with_reducible apply CmdOut.after_keeps | simp only [CmdOut.mk_keeps_iff] | simp only [Cmd.mk_keeps_iff] | with_reducible apply And.intro | (refine keeps_snd (by with_reducible assumption) ?_) | (refine keeps_fst (by with_reducible assumption) ?_) | split)

theorem cmdOtpRead_keeps  : (cmdOtpRead).Keeps := by
  intro z k pl s h
  unfold cmdOtpRead
  try unfold actCmd
  try unfold readCmd
  try unfold mirCmd
  try dsimp only
  repeat' (first | with_reducible (first | assumption | intro _ | apply readCmd_keeps | apply CmdOut.reply_keeps) | simp only [keeps_mk_iff] | exact readCmd_keeps | with_reducible apply Cmd.out_keeps | with_reducible apply CmdOut.s_keeps | with_reducible apply CmdOut.after_keeps | simp only [CmdOut.mk_keeps_iff] | simp only [Cmd.mk_keeps_iff] | with_reducible apply And.intro)

theorem cmdOtpProgram_keeps (ok : Bool) : (cmdOtpProgram ok).Keeps := by
  intro z k pl s h
  unfold cmdOtpProgram
  try unfold actCmd
  try unfold readCmd
  try unfold mirCmd
  try dsimp only
  repeat' (first | with_reducible (first | assumption | intro _ | apply actCmd_keeps | apply CmdOut.done_keeps | apply State.draw_keeps | apply State.drop_keeps | apply State.ev_keeps | apply State.fuseBytes_keeps | apply keeps_ite) | simp only [keeps_mk_iff] | exact actCmd_keeps | with_reducible apply Cmd.out_keeps | with_reducible apply CmdOut.s_keeps | with_reducible apply CmdOut.after_keeps | with_reducible apply CmdOut.ite_keeps | simp only [CmdOut.mk_keeps_iff] | simp only [Cmd.mk_keeps_iff] | with_reducible apply And.intro | (refine keeps_snd (by with_reducible assumption) ?_) | (refine keeps_fst (by with_reducible assumption) ?_) | split)

theorem execNvStatus_keeps {z : State} (f : Frame) (s : State) (h_s : Machine.Keeps z s) : OutKeeps z (execNvStatus f s) := by
  unfold execNvStatus
  try dsimp only
  repeat' (first | with_reducible (first | assumption | intro _ | apply cmdNvStatus_keeps | apply mailbox_keeps) | exact cmdNvStatus_keeps | with_reducible apply outKeeps_next)

theorem execNvFactoryRead_keeps {z : State} (f : Frame) (s : State) (h_s : Machine.Keeps z s) : OutKeeps z (execNvFactoryRead f s) := by
  unfold execNvFactoryRead
  try dsimp only
  repeat' (first | with_reducible (first | assumption | intro _ | apply cmdNvFactoryRead_keeps | apply mailbox_keeps) | exact cmdNvFactoryRead_keeps | with_reducible apply outKeeps_next)

theorem execNvFactoryWrite_keeps {z : State} (f : Frame) (s : State) (h_s : Machine.Keeps z s) : OutKeeps z (execNvFactoryWrite f s) := by
  unfold execNvFactoryWrite
  try dsimp only
  repeat' (first | with_reducible (first | assumption | intro _ | apply cmdNvFactoryWrite_keeps | apply mailbox_keeps) | exact cmdNvFactoryWrite_keeps | with_reducible apply outKeeps_next)

theorem execNvFactoryErase_keeps {z : State} (f : Frame) (s : State) (h_s : Machine.Keeps z s) : OutKeeps z (execNvFactoryErase f s) := by
  unfold execNvFactoryErase
  try dsimp only
  repeat' (first | with_reducible (first | assumption | intro _ | apply cmdNvFactoryErase_keeps | apply mailbox_keeps) | exact cmdNvFactoryErase_keeps | with_reducible apply outKeeps_next)

theorem execNvScan_keeps {z : State} (f : Frame) (differ : List Nat) (s : State) (h_s : Machine.Keeps z s) : OutKeeps z (execNvScan f differ s) := by
  unfold execNvScan
  try dsimp only
  repeat' (first | with_reducible (first | assumption | intro _ | apply cmdNvScan_keeps | apply mailbox_keeps) | exact cmdNvScan_keeps | with_reducible apply outKeeps_next)

theorem execOtpRead_keeps {z : State} (f : Frame) (s : State) (h_s : Machine.Keeps z s) : OutKeeps z (execOtpRead f s) := by
  unfold execOtpRead
  try dsimp only
  repeat' (first | with_reducible (first | assumption | intro _ | apply cmdOtpRead_keeps | apply mailbox_keeps) | exact cmdOtpRead_keeps | with_reducible apply outKeeps_next)

theorem execOtpProgram_keeps {z : State} (f : Frame) (ok : Bool) (s : State) (h_s : Machine.Keeps z s) : OutKeeps z (execOtpProgram f ok s) := by
  unfold execOtpProgram
  try dsimp only
  repeat' (first | with_reducible (first | assumption | intro _ | apply cmdOtpProgram_keeps | apply mailbox_keeps) | exact cmdOtpProgram_keeps | with_reducible apply outKeeps_next)

end Sys2Proof.Machine
end

