-- ==== Sys2Proof/Laws/KeepFirmware.lean ====
section
/-! SUPPORT. What no command changes is kept by every function of `Machine/Firmware.lean`. -/

set_option linter.all false

namespace Sys2Proof.Machine

theorem State.markIncomplete_keeps {z : State} (s : State) (slot : Nat) (h_s : Machine.Keeps z s) : Machine.Keeps z (State.markIncomplete s slot) := by
  unfold State.markIncomplete
  try dsimp only
  repeat' (first | with_reducible (first | assumption | intro _) | simp only [keeps_mk_iff])

theorem cmdFwStatus_keeps  : (cmdFwStatus).Keeps := by
  intro z k pl s h
  unfold cmdFwStatus
  try unfold actCmd
  try unfold readCmd
  try unfold mirCmd
  try dsimp only
  repeat' (first | with_reducible (first | assumption | intro _ | apply readCmd_keeps | apply CmdOut.reply_keeps | apply keeps_getD) | simp only [keeps_mk_iff] | exact readCmd_keeps | with_reducible apply Cmd.out_keeps | with_reducible apply CmdOut.s_keeps | with_reducible apply CmdOut.after_keeps | simp only [CmdOut.mk_keeps_iff] | simp only [Cmd.mk_keeps_iff] | with_reducible apply And.intro)

theorem cmdFwUpdateBegin_keeps  : (cmdFwUpdateBegin).Keeps := by
  intro z k pl s h
  unfold cmdFwUpdateBegin
  try unfold actCmd
  try unfold readCmd
  try unfold mirCmd
  try dsimp only
  repeat' (first | with_reducible (first | assumption | intro _ | apply actCmd_keeps | apply CmdOut.done_keeps | apply State.eraseSectors_keeps | apply State.freshen_keeps | apply State.markIncomplete_keeps | apply State.programBytes_keeps | apply keeps_ite) | simp only [keeps_mk_iff] | exact actCmd_keeps | with_reducible apply Cmd.out_keeps | with_reducible apply CmdOut.s_keeps | with_reducible apply CmdOut.after_keeps | with_reducible apply CmdOut.ite_keeps | simp only [CmdOut.mk_keeps_iff] | simp only [Cmd.mk_keeps_iff] | with_reducible apply And.intro | (refine keeps_snd (by with_reducible assumption) ?_) | (refine keeps_fst (by with_reducible assumption) ?_) | split)

theorem cmdFwUpdateData_keeps  : (cmdFwUpdateData).Keeps := by
  intro z k pl s h
  unfold cmdFwUpdateData
  try unfold actCmd
  try unfold readCmd
  try unfold mirCmd
  try dsimp only
  repeat' (first | with_reducible (first | assumption | apply ite_some_imp | intro _ | apply actCmd_keeps | apply CmdOut.done_keeps | apply State.drop_keeps | apply State.ev_keeps | apply State.freshen_keeps | apply State.programBytes_keeps | apply keeps_ite) | simp only [keeps_mk_iff] | exact actCmd_keeps | with_reducible apply Cmd.out_keeps | with_reducible apply CmdOut.s_keeps | with_reducible apply CmdOut.after_keeps | with_reducible apply CmdOut.ite_keeps | simp only [CmdOut.mk_keeps_iff] | simp only [Cmd.mk_keeps_iff] | with_reducible apply And.intro | (refine keeps_snd (by with_reducible assumption) ?_) | (refine keeps_fst (by with_reducible assumption) ?_) | split)

theorem cmdFwUpdateEnd_keeps  : (cmdFwUpdateEnd).Keeps := by
  intro z k pl s h
  unfold cmdFwUpdateEnd
  try unfold actCmd
  try unfold readCmd
  try unfold mirCmd
  try dsimp only
  repeat' (first | with_reducible (first | assumption | apply ite_some_imp | intro _ | apply actCmd_keeps | apply CmdOut.done_keeps | apply State.fwChanged_keeps | apply keeps_ite) | simp only [keeps_mk_iff] | exact actCmd_keeps | with_reducible apply Cmd.out_keeps | with_reducible apply CmdOut.s_keeps | with_reducible apply CmdOut.after_keeps | with_reducible apply CmdOut.ite_keeps | simp only [CmdOut.mk_keeps_iff] | simp only [Cmd.mk_keeps_iff] | with_reducible apply And.intro | (refine keeps_snd (by with_reducible assumption) ?_) | (refine keeps_fst (by with_reducible assumption) ?_) | split)

theorem cmdFwActivate_keeps  : (cmdFwActivate).Keeps := by
  intro z k pl s h
  unfold cmdFwActivate
  try unfold actCmd
  try unfold readCmd
  try unfold mirCmd
  try dsimp only
  repeat' (first | with_reducible (first | assumption | apply ite_some_imp | intro _ | apply actCmd_keeps | apply CmdOut.done_keeps | apply State.fwChanged_keeps | apply State.resetVia_keeps | apply State.writeSelector_keeps | apply keeps_ite) | simp only [keeps_mk_iff] | exact actCmd_keeps | with_reducible apply Cmd.out_keeps | with_reducible apply CmdOut.s_keeps | with_reducible apply CmdOut.after_keeps | with_reducible apply CmdOut.ite_keeps | simp only [CmdOut.mk_keeps_iff] | simp only [Cmd.mk_keeps_iff] | with_reducible apply And.intro | (refine keeps_snd (by with_reducible assumption) ?_) | (refine keeps_fst (by with_reducible assumption) ?_) | split)

theorem cmdFwCommit_keeps  : (cmdFwCommit).Keeps := by
  intro z k pl s h
  unfold cmdFwCommit
  try unfold actCmd
  try unfold readCmd
  try unfold mirCmd
  try dsimp only
  repeat' (first | with_reducible (first | assumption | intro _ | apply actCmd_keeps | apply CmdOut.done_keeps | apply State.fwCommit_keeps) | simp only [keeps_mk_iff] | exact actCmd_keeps | with_reducible apply Cmd.out_keeps | with_reducible apply CmdOut.s_keeps | with_reducible apply CmdOut.after_keeps | simp only [CmdOut.mk_keeps_iff] | simp only [Cmd.mk_keeps_iff] | with_reducible apply And.intro)

theorem cmdFwUpdateAbort_keeps  : (cmdFwUpdateAbort).Keeps := by
  intro z k pl s h
  unfold cmdFwUpdateAbort
  try unfold actCmd
  try unfold readCmd
  try unfold mirCmd
  try dsimp only
  repeat' (first | with_reducible (first | assumption | apply ite_some_imp | intro _ | apply actCmd_keeps | apply CmdOut.done_keeps | apply keeps_ite) | simp only [keeps_mk_iff] | exact actCmd_keeps | with_reducible apply Cmd.out_keeps | with_reducible apply CmdOut.s_keeps | with_reducible apply CmdOut.after_keeps | with_reducible apply CmdOut.ite_keeps | simp only [CmdOut.mk_keeps_iff] | simp only [Cmd.mk_keeps_iff] | with_reducible apply And.intro | (refine keeps_snd (by with_reducible assumption) ?_) | (refine keeps_fst (by with_reducible assumption) ?_) | split)

theorem cmdFwManifestRead_keeps  : (cmdFwManifestRead).Keeps := by
  intro z k pl s h
  unfold cmdFwManifestRead
  try unfold actCmd
  try unfold readCmd
  try unfold mirCmd
  try dsimp only
  repeat' (first | with_reducible (first | assumption | intro _ | apply readCmd_keeps | apply CmdOut.reply_keeps | apply keeps_ite) | simp only [keeps_mk_iff] | exact readCmd_keeps | with_reducible apply Cmd.out_keeps | with_reducible apply CmdOut.s_keeps | with_reducible apply CmdOut.after_keeps | with_reducible apply CmdOut.ite_keeps | simp only [CmdOut.mk_keeps_iff] | simp only [Cmd.mk_keeps_iff] | with_reducible apply And.intro | (refine keeps_snd (by with_reducible assumption) ?_) | (refine keeps_fst (by with_reducible assumption) ?_) | split)

theorem execFwStatus_keeps {z : State} (f : Frame) (s : State) (h_s : Machine.Keeps z s) : OutKeeps z (execFwStatus f s) := by
  unfold execFwStatus
  try dsimp only
  repeat' (first | with_reducible (first | assumption | intro _ | apply cmdFwStatus_keeps | apply mailbox_keeps) | exact cmdFwStatus_keeps | with_reducible apply outKeeps_next)

theorem execFwUpdateBegin_keeps {z : State} (f : Frame) (s : State) (h_s : Machine.Keeps z s) : OutKeeps z (execFwUpdateBegin f s) := by
  unfold execFwUpdateBegin
  try dsimp only
  repeat' (first | with_reducible (first | assumption | intro _ | apply cmdFwUpdateBegin_keeps | apply mailbox_keeps) | exact cmdFwUpdateBegin_keeps | with_reducible apply outKeeps_next)

theorem execFwUpdateData_keeps {z : State} (f : Frame) (s : State) (h_s : Machine.Keeps z s) : OutKeeps z (execFwUpdateData f s) := by
  unfold execFwUpdateData
  try dsimp only
  repeat' (first | with_reducible (first | assumption | intro _ | apply cmdFwUpdateData_keeps | apply mailbox_keeps) | exact cmdFwUpdateData_keeps | with_reducible apply outKeeps_next)

theorem execFwUpdateEnd_keeps {z : State} (f : Frame) (s : State) (h_s : Machine.Keeps z s) : OutKeeps z (execFwUpdateEnd f s) := by
  unfold execFwUpdateEnd
  try dsimp only
  repeat' (first | with_reducible (first | assumption | intro _ | apply cmdFwUpdateEnd_keeps | apply mailbox_keeps) | exact cmdFwUpdateEnd_keeps | with_reducible apply outKeeps_next)

theorem execFwActivate_keeps {z : State} (f : Frame) (s : State) (h_s : Machine.Keeps z s) : OutKeeps z (execFwActivate f s) := by
  unfold execFwActivate
  try dsimp only
  repeat' (first | with_reducible (first | assumption | intro _ | apply cmdFwActivate_keeps | apply mailbox_keeps) | exact cmdFwActivate_keeps | with_reducible apply outKeeps_next)

theorem execFwCommit_keeps {z : State} (f : Frame) (s : State) (h_s : Machine.Keeps z s) : OutKeeps z (execFwCommit f s) := by
  unfold execFwCommit
  try dsimp only
  repeat' (first | with_reducible (first | assumption | intro _ | apply cmdFwCommit_keeps | apply mailbox_keeps) | exact cmdFwCommit_keeps | with_reducible apply outKeeps_next)

theorem execFwUpdateAbort_keeps {z : State} (f : Frame) (s : State) (h_s : Machine.Keeps z s) : OutKeeps z (execFwUpdateAbort f s) := by
  unfold execFwUpdateAbort
  try dsimp only
  repeat' (first | with_reducible (first | assumption | intro _ | apply cmdFwUpdateAbort_keeps | apply mailbox_keeps) | exact cmdFwUpdateAbort_keeps | with_reducible apply outKeeps_next)

theorem execFwManifestRead_keeps {z : State} (f : Frame) (s : State) (h_s : Machine.Keeps z s) : OutKeeps z (execFwManifestRead f s) := by
  unfold execFwManifestRead
  try dsimp only
  repeat' (first | with_reducible (first | assumption | intro _ | apply cmdFwManifestRead_keeps | apply mailbox_keeps) | exact cmdFwManifestRead_keeps | with_reducible apply outKeeps_next)

end Sys2Proof.Machine
end

