-- ==== Sys2Proof/Laws/KeepDeep.lean ====
section
/-! SUPPORT. What no command changes is kept by every function of `Machine/Deep.lean`. -/

set_option linter.all false

namespace Sys2Proof.Machine

theorem State.readOthers_keeps {z : State} (s : State) (t c : Nat) (h_s : Machine.Keeps z s) : Machine.Keeps z (State.readOthers s t c) := by
  unfold State.readOthers
  try dsimp only
  repeat' (first | with_reducible (first | assumption | intro _ | apply State.bump_keeps | apply keeps_foldl | apply keeps_foldl_snd | apply keeps_foldl_fst | apply keeps_ite) | split)

theorem State.countRead_keeps {z : State} (s : State) (t b c : Nat) (x : FlashRead) (step : Option Nat) (h_s : Machine.Keeps z s) : Machine.Keeps z (State.countRead s t b c x step) := by
  unfold State.countRead
  try dsimp only
  repeat' (first | with_reducible (first | assumption | apply ite_some_imp | intro _ | apply State.bump_keeps | apply State.ev_keeps | apply State.markWeak_keeps | apply State.readOthers_keeps | apply State.updBlock_keeps | apply State.updStripe_keeps | apply keeps_getD | apply keeps_ite) | simp only [keeps_mk_iff] | (refine keeps_snd (by with_reducible assumption) ?_) | (refine keeps_fst (by with_reducible assumption) ?_) | split)

theorem State.noteRead_keeps {z : State} (s : State) (t p b c : Nat) (x : FlashRead) (step : Option Nat) (h_s : Machine.Keeps z s) : Machine.Keeps z (State.noteRead s t p b c x step) := by
  unfold State.noteRead
  try dsimp only
  repeat' (first | with_reducible (first | assumption | intro _ | apply State.countRead_keeps | apply State.relocateDeep_keeps | apply keeps_ite) | split)

theorem State.deepPoison_keeps {z : State} (s : State) (t p : Nat) (shared : Bool) (h_s : Machine.Keeps z s) : Machine.Keeps z (State.deepPoison s t p shared) := by
  unfold State.deepPoison
  try dsimp only
  repeat' (first | with_reducible (first | assumption | intro _ | apply State.bump_keeps | apply State.deepError_keeps | apply State.enqueueRec_keeps | apply State.ev_keeps | apply State.evRec_keeps | apply State.newErrId_keeps | apply State.poisonAll_keeps | apply State.unmapDeep_keeps | apply State.updDeep_keeps | apply keeps_ite) | simp only [keeps_mk_iff] | (refine keeps_snd (by with_reducible assumption) ?_) | (refine keeps_fst (by with_reducible assumption) ?_) | split)

theorem State.loseImage_keeps {z : State} (s : State) (t p : Nat) (h_s : Machine.Keeps z s) : Machine.Keeps z (State.loseImage s t p) := by
  unfold State.loseImage
  try dsimp only
  repeat' (first | with_reducible (first | assumption | apply ite_some_imp | intro _ | apply State.askImage_keeps | apply State.poisonPage_keeps | apply State.setDivBit_keeps | apply State.unmapDeep_keeps | apply State.updFirn_keeps | apply keeps_ite) | simp only [keeps_mk_iff] | (refine keeps_snd (by with_reducible assumption) ?_) | (refine keeps_fst (by with_reducible assumption) ?_) | split)

theorem State.ladderLast_keeps {z : State} (s : State) (t p : Nat) (h_s : Machine.Keeps z s) : Machine.Keeps z (State.ladderLast s t p) := by
  unfold State.ladderLast
  try dsimp only
  repeat' (first | with_reducible (first | assumption | intro _ | apply State.deepPoison_keeps | apply State.loseImage_keeps | apply keeps_ite) | split)

theorem State.ladderEnd_keeps {z : State} (s : State) (t p : Nat) (h_s : Machine.Keeps z s) : Machine.Keeps z (State.ladderEnd s t p) := by
  unfold State.ladderEnd
  try dsimp only
  repeat' (first | with_reducible (first | assumption | intro _ | apply State.ladderLast_keeps | apply State.sendFetch_keeps | apply keeps_ite) | split)

theorem State.deepFetched_keeps {z : State} (s : State) (t p : Nat) (bs : List Byte) (h_s : Machine.Keeps z s) : Machine.Keeps z (State.deepFetched s t p bs) := by
  unfold State.deepFetched
  try dsimp only
  repeat' (first | with_reducible (first | assumption | intro _ | apply State.bump_keeps | apply State.ev_keeps | apply State.programDeep_keeps | apply keeps_getD))

theorem execDeepRead_keeps {z : State} (tile page : Nat) (hard : Bool) (iters retry : Nat) (soft parity : Bool) (s : State) (h_s : Machine.Keeps z s) : OutKeeps z (execDeepRead tile page hard iters retry soft parity s) := by
  unfold execDeepRead
  try dsimp only
  repeat' (first | with_reducible (first | assumption | apply ite_some_imp | intro _ | apply State.ev_keeps | apply State.ladderEnd_keeps | apply State.noteRead_keeps | apply onTile_keeps | apply keeps_ite) | simp only [keeps_mk_iff] | with_reducible apply outKeeps_next | with_reducible apply outKeeps_ite | (refine keeps_snd (by with_reducible assumption) ?_) | (refine keeps_fst (by with_reducible assumption) ?_) | split)

theorem State.suspendRead_keeps {z : State} (s : State) (t p us : Nat) (busy : List Nat) (d : DeepPage) (h_s : Machine.Keeps z s) : Machine.Keeps z (State.suspendRead s t p us busy d) := by
  unfold State.suspendRead
  try dsimp only
  repeat' (first | with_reducible (first | assumption | intro _ | apply State.bump_keeps | apply State.ev_keeps | apply State.readOthers_keeps | apply State.updDeep_keeps | apply State.updStripe_keeps | apply keeps_ite) | simp only [keeps_mk_iff] | split)

theorem execSuspendRead_keeps {z : State} (tile page us : Nat) (busy : List Nat) (s : State) (h_s : Machine.Keeps z s) : OutKeeps z (execSuspendRead tile page us busy s) := by
  unfold execSuspendRead
  try dsimp only
  repeat' (first | with_reducible (first | assumption | apply ite_some_imp | intro _ | apply onTile_keeps | apply State.suspendRead_keeps | apply keeps_ite) | simp only [keeps_mk_iff] | with_reducible apply outKeeps_next | with_reducible apply outKeeps_ite | (refine keeps_snd (by with_reducible assumption) ?_) | (refine keeps_fst (by with_reducible assumption) ?_) | split)

theorem execDeepProgramFail_keeps {z : State} (tile stripe ch : Nat) (s : State) (h_s : Machine.Keeps z s) : OutKeeps z (execDeepProgramFail tile stripe ch s) := by
  unfold execDeepProgramFail
  try dsimp only
  repeat' (first | with_reducible (first | assumption | intro _ | apply State.ev_keeps | apply onUnit_keeps | apply State.retireBlock_keeps | apply keeps_ite | apply outKeeps_next | apply outKeeps_ite) | split)

theorem execEraseFail_keeps {z : State} (tile stripe ch : Nat) (s : State) (h_s : Machine.Keeps z s) : OutKeeps z (execEraseFail tile stripe ch s) := by
  unfold execEraseFail
  try dsimp only
  repeat' (first | with_reducible (first | assumption | intro _ | apply State.ev_keeps | apply onUnit_keeps | apply State.retireBlock_keeps | apply keeps_ite | apply outKeeps_next | apply outKeeps_ite) | split)

theorem State.collect_keeps {z : State} (s : State) (t : Nat) (v : Stripe) (h_s : Machine.Keeps z s) : Machine.Keeps z (State.collect s t v) := by
  unfold State.collect
  try dsimp only
  repeat' (first | with_reducible (first | assumption | intro _ | apply State.closeRow_keeps | apply State.relocateDeep_keeps | apply State.relocateTable_keeps | apply State.updStripe_keeps | apply keeps_foldl | apply keeps_foldl_snd | apply keeps_foldl_fst | apply keeps_id | apply keeps_ite) | simp only [keeps_mk_iff] | split)

theorem execGcStart_keeps {z : State} (tile : Nat) (s : State) (h_s : Machine.Keeps z s) : OutKeeps z (execGcStart tile s) := by
  unfold execGcStart
  try dsimp only
  repeat' (first | with_reducible (first | assumption | apply ite_some_imp | intro _ | apply State.collect_keeps | apply onTile_keeps | apply State.updDeep_keeps | apply keeps_ite) | simp only [keeps_mk_iff] | with_reducible apply outKeeps_next | with_reducible apply outKeeps_ite | (refine keeps_snd (by with_reducible assumption) ?_) | (refine keeps_fst (by with_reducible assumption) ?_) | split)

theorem execGcStop_keeps {z : State} (tile : Nat) (s : State) (h_s : Machine.Keeps z s) : OutKeeps z (execGcStop tile s) := by
  unfold execGcStop
  try dsimp only
  repeat' (first | with_reducible (first | assumption | intro _ | apply onTile_keeps | apply State.updDeep_keeps | apply keeps_ite) | simp only [keeps_mk_iff] | with_reducible apply outKeeps_next | with_reducible apply outKeeps_ite | split)

theorem State.eraseDone_keeps {z : State} (s : State) (t b us : Nat) (h_s : Machine.Keeps z s) : Machine.Keeps z (State.eraseDone s t b us) := by
  unfold State.eraseDone
  try dsimp only
  repeat' (first | with_reducible (first | assumption | intro _ | apply State.bump_keeps | apply State.endLunOp_keeps | apply State.mendStripe_keeps | apply State.updBlock_keeps | apply State.updDeep_keeps | apply State.updStripe_keeps | apply keeps_foldl | apply keeps_foldl_snd | apply keeps_foldl_fst) | simp only [keeps_mk_iff])

theorem execBlockEraseDone_keeps {z : State} (tile stripe us : Nat) (s : State) (h_s : Machine.Keeps z s) : OutKeeps z (execBlockEraseDone tile stripe us s) := by
  unfold execBlockEraseDone
  try dsimp only
  repeat' (first | with_reducible (first | assumption | apply ite_some_imp | intro _ | apply State.eraseDone_keeps | apply onTile_keeps | apply keeps_ite) | simp only [keeps_mk_iff] | with_reducible apply outKeeps_next | with_reducible apply outKeeps_ite | (refine keeps_snd (by with_reducible assumption) ?_) | (refine keeps_fst (by with_reducible assumption) ?_) | split)

theorem State.booksOff_keeps {z : State} (s : State) (t : Nat) (h_s : Machine.Keeps z s) : Machine.Keeps z (State.booksOff s t) := by
  unfold State.booksOff
  try dsimp only
  repeat' (first | with_reducible (first | assumption | intro _ | apply State.evRec_keeps))

theorem execTableFlush_keeps {z : State} (tile : Nat) (mismatch : Bool) (s : State) (h_s : Machine.Keeps z s) : OutKeeps z (execTableFlush tile mismatch s) := by
  unfold execTableFlush
  try dsimp only
  repeat' (first | with_reducible (first | assumption | intro _ | apply State.booksOff_keeps | apply State.ev_keeps | apply State.flushTables_keeps | apply onTile_keeps | apply keeps_ite | apply outKeeps_next | apply outKeeps_ite) | split)

theorem State.flushDue_keeps {z : State} (s : State) (t : Nat) (h_s : Machine.Keeps z s) : Machine.Keeps z (State.flushDue s t) := by
  unfold State.flushDue
  try dsimp only
  repeat' (first | with_reducible (first | assumption | intro _ | apply State.flushTables_keeps | apply keeps_ite) | split)

theorem State.setArmed_keeps {z : State} (s : State) (t : Nat) (h_s : Machine.Keeps z s) : Machine.Keeps z (State.setArmed s t) := by
  unfold State.setArmed
  try dsimp only
  repeat' (first | with_reducible (first | assumption | intro _ | apply State.setF_keeps | apply keeps_ite) | split)

theorem State.takeStripes_keeps {z : State} (s : State) (t st : Nat) (ids : List Nat) (h_s : Machine.Keeps z s) : Machine.Keeps z (State.takeStripes s t st ids) := by
  unfold State.takeStripes
  try dsimp only
  repeat' (first | with_reducible (first | assumption | intro _ | apply State.updDeep_keeps | apply keeps_getD | apply keeps_id) | simp only [keeps_mk_iff])

theorem State.armArea_keeps {z : State} (s : State) (t : Nat) (h_s : Machine.Keeps z s) : Machine.Keeps z (State.armArea s t) := by
  unfold State.armArea
  try dsimp only
  repeat' (first | with_reducible (first | assumption | intro _ | apply State.bump_keeps | apply State.setArmed_keeps | apply State.takeStripes_keeps | apply State.updDeep_keeps | apply keeps_foldl | apply keeps_foldl_snd | apply keeps_foldl_fst | apply keeps_ite) | simp only [keeps_mk_iff] | split)

theorem execDumpArm_keeps {z : State} (tile : Nat) (s : State) (h_s : Machine.Keeps z s) : OutKeeps z (execDumpArm tile s) := by
  unfold execDumpArm
  try dsimp only
  repeat' (first | with_reducible (first | assumption | intro _ | apply State.armArea_keeps | apply onTile_keeps | apply keeps_ite) | simp only [keeps_mk_iff] | with_reducible apply outKeeps_next | with_reducible apply outKeeps_ite | (refine keeps_snd (by with_reducible assumption) ?_) | (refine keeps_fst (by with_reducible assumption) ?_) | split)

theorem State.releaseArea_keeps {z : State} (s : State) (t : Nat) (a : DumpArea) (h_s : Machine.Keeps z s) : Machine.Keeps z (State.releaseArea s t a) := by
  unfold State.releaseArea
  try dsimp only
  repeat' (first | with_reducible (first | assumption | intro _ | apply State.bump_keeps | apply State.takeStripes_keeps | apply State.updDeep_keeps | apply State.updFirn_keeps | apply keeps_foldl | apply keeps_foldl_snd | apply keeps_foldl_fst) | simp only [keeps_mk_iff])

theorem execPreviousRelease_keeps {z : State} (tile : Nat) (s : State) (h_s : Machine.Keeps z s) : OutKeeps z (execPreviousRelease tile s) := by
  unfold execPreviousRelease
  try dsimp only
  repeat' (first | with_reducible (first | assumption | apply ite_some_imp | intro _ | apply onTile_keeps | apply State.releaseArea_keeps | apply keeps_ite) | simp only [keeps_mk_iff] | with_reducible apply outKeeps_next | with_reducible apply outKeeps_ite | (refine keeps_snd (by with_reducible assumption) ?_) | (refine keeps_fst (by with_reducible assumption) ?_) | split)

theorem State.reportStage_keeps {z : State} (s : State) (t stage b c : Nat) (h_s : Machine.Keeps z s) : Machine.Keeps z (State.reportStage s t stage b c) := by
  unfold State.reportStage
  try dsimp only
  repeat' (first | with_reducible (first | assumption | intro _ | apply State.ev_keeps | apply State.markWeak_keeps | apply State.notify_keeps | apply State.recOpen_keeps | apply State.setCause_keeps | apply State.updDeep_keeps | apply keeps_ite) | simp only [keeps_mk_iff] | split)

theorem execWearStage_keeps {z : State} (tile stage stripe ch tprog : Nat) (s : State) (h_s : Machine.Keeps z s) : OutKeeps z (execWearStage tile stage stripe ch tprog s) := by
  unfold execWearStage
  try dsimp only
  repeat' (first | with_reducible (first | assumption | intro _ | apply State.noteProgram_keeps | apply onUnit_keeps | apply State.reportStage_keeps | apply keeps_ite | apply outKeeps_next | apply outKeeps_ite) | split)

theorem State.formatTile_keeps {z : State} (s : State) (t : Nat) (h_s : Machine.Keeps z s) : Machine.Keeps z (State.formatTile s t) := by
  unfold State.formatTile
  try dsimp only
  repeat' (first | with_reducible (first | assumption | intro _ | apply State.armArea_keeps | apply State.mendStripe_keeps | apply State.takeStripes_keeps | apply State.updDeep_keeps | apply State.updFirn_keeps | apply keeps_foldl | apply keeps_foldl_snd | apply keeps_foldl_fst | apply keeps_id) | simp only [keeps_mk_iff])

theorem State.readFactory_keeps {z : State} (s : State) (h_s : Machine.Keeps z s) : Machine.Keeps z (State.readFactory s) := by
  unfold State.readFactory
  try dsimp only
  repeat' (first | with_reducible (first | assumption | intro _) | simp only [keeps_mk_iff])

theorem execDeepFirstFormat_keeps {z : State} (s : State) (h_s : Machine.Keeps z s) : OutKeeps z (execDeepFirstFormat s) := by
  unfold execDeepFirstFormat
  try dsimp only
  repeat' (first | with_reducible (first | assumption | intro _ | apply State.allTiles_keeps | apply State.enterFault_keeps | apply State.formatTile_keeps | apply State.readFactory_keeps | apply keeps_ite | apply outKeeps_next | apply outKeeps_ite) | split)

theorem State.loseRoot_keeps {z : State} (s : State) (t : Nat) (h_s : Machine.Keeps z s) : Machine.Keeps z (State.loseRoot s t) := by
  unfold State.loseRoot
  try dsimp only
  repeat' (first | with_reducible (first | assumption | intro _ | apply State.updDeep_keeps | apply State.updFirn_keeps) | simp only [keeps_mk_iff])

theorem execDeepRebuildDone_keeps {z : State} (tile : Nat) (s : State) (h_s : Machine.Keeps z s) : OutKeeps z (execDeepRebuildDone tile s) := by
  unfold execDeepRebuildDone
  try dsimp only
  repeat' (first | with_reducible (first | assumption | intro _ | apply State.dirtyTable_keeps | apply onTile_keeps | apply State.updDeep_keeps | apply State.updFirn_keeps | apply keeps_foldl | apply keeps_foldl_snd | apply keeps_foldl_fst | apply keeps_ite) | simp only [keeps_mk_iff] | with_reducible apply outKeeps_next | with_reducible apply outKeeps_ite | split)

theorem cmdDeepStatus_keeps  : (cmdDeepStatus).Keeps := by
  intro z k pl s h
  unfold cmdDeepStatus
  try unfold actCmd
  try unfold readCmd
  try unfold mirCmd
  try dsimp only
  repeat' (first | with_reducible (first | assumption | intro _ | apply readCmd_keeps | apply CmdOut.reply_keeps) | simp only [keeps_mk_iff] | exact readCmd_keeps | with_reducible apply Cmd.out_keeps | with_reducible apply CmdOut.s_keeps | with_reducible apply CmdOut.after_keeps | simp only [CmdOut.mk_keeps_iff] | simp only [Cmd.mk_keeps_iff] | with_reducible apply And.intro | (refine keeps_snd (by with_reducible assumption) ?_) | (refine keeps_fst (by with_reducible assumption) ?_) | split)

theorem cmdDeepBlockInfo_keeps  : (cmdDeepBlockInfo).Keeps := by
  intro z k pl s h
  unfold cmdDeepBlockInfo
  try unfold actCmd
  try unfold readCmd
  try unfold mirCmd
  try dsimp only
  repeat' (first | with_reducible (first | assumption | intro _ | apply readCmd_keeps | apply CmdOut.reply_keeps | apply keeps_getD | apply keeps_ite) | simp only [keeps_mk_iff] | exact readCmd_keeps | with_reducible apply Cmd.out_keeps | with_reducible apply CmdOut.s_keeps | with_reducible apply CmdOut.after_keeps | with_reducible apply CmdOut.ite_keeps | simp only [CmdOut.mk_keeps_iff] | simp only [Cmd.mk_keeps_iff] | with_reducible apply And.intro | (refine keeps_snd (by with_reducible assumption) ?_) | (refine keeps_fst (by with_reducible assumption) ?_) | split)

theorem cmdDeepConfig_keeps  : (cmdDeepConfig).Keeps := by
  intro z k pl s h
  unfold cmdDeepConfig
  try unfold actCmd
  try unfold readCmd
  try unfold mirCmd
  try dsimp only
  repeat' (first | with_reducible (first | assumption | intro _ | apply actCmd_keeps | apply State.config_keeps | apply State.configAll_keeps | apply CmdOut.done_keeps | apply keeps_foldl | apply keeps_foldl_snd | apply keeps_foldl_fst | apply keeps_ite) | simp only [keeps_mk_iff] | exact actCmd_keeps | with_reducible apply Cmd.out_keeps | with_reducible apply CmdOut.s_keeps | with_reducible apply CmdOut.after_keeps | with_reducible apply CmdOut.ite_keeps | simp only [CmdOut.mk_keeps_iff] | simp only [Cmd.mk_keeps_iff] | with_reducible apply And.intro | (refine keeps_snd (by with_reducible assumption) ?_) | (refine keeps_fst (by with_reducible assumption) ?_) | split)

theorem cmdDeepRetireBlock_keeps  : (cmdDeepRetireBlock).Keeps := by
  intro z k pl s h
  unfold cmdDeepRetireBlock
  try unfold actCmd
  try unfold readCmd
  try unfold mirCmd
  try dsimp only
  repeat' (first | with_reducible (first | assumption | apply ite_some_imp | intro _ | apply actCmd_keeps | apply State.config_keeps | apply CmdOut.done_keeps | apply State.ev_keeps | apply State.retireBlock_keeps | apply State.updDeep_keeps | apply keeps_ite) | simp only [keeps_mk_iff] | exact actCmd_keeps | with_reducible apply Cmd.out_keeps | with_reducible apply CmdOut.s_keeps | with_reducible apply CmdOut.after_keeps | with_reducible apply CmdOut.ite_keeps | simp only [CmdOut.mk_keeps_iff] | simp only [Cmd.mk_keeps_iff] | with_reducible apply And.intro | (refine keeps_snd (by with_reducible assumption) ?_) | (refine keeps_fst (by with_reducible assumption) ?_) | split)

theorem cmdDeepFormat_keeps  : (cmdDeepFormat).Keeps := by
  intro z k pl s h
  unfold cmdDeepFormat
  try unfold actCmd
  try unfold readCmd
  try unfold mirCmd
  try dsimp only
  repeat' (first | with_reducible (first | assumption | intro _ | apply actCmd_keeps | apply State.allTiles_keeps | apply CmdOut.done_keeps | apply State.formatTile_keeps | apply State.loadXts_keeps | apply State.setCause_keeps | apply State.updDeep_keeps) | simp only [keeps_mk_iff] | exact actCmd_keeps | with_reducible apply Cmd.out_keeps | with_reducible apply CmdOut.s_keeps | with_reducible apply CmdOut.after_keeps | simp only [CmdOut.mk_keeps_iff] | simp only [Cmd.mk_keeps_iff] | with_reducible apply And.intro)

theorem cmdDeepRebuild_keeps  : (cmdDeepRebuild).Keeps := by
  intro z k pl s h
  unfold cmdDeepRebuild
  try unfold actCmd
  try unfold readCmd
  try unfold mirCmd
  try dsimp only
  repeat' (first | with_reducible (first | assumption | intro _ | apply actCmd_keeps | apply CmdOut.done_keeps | apply State.updDeep_keeps) | simp only [keeps_mk_iff] | exact actCmd_keeps | with_reducible apply Cmd.out_keeps | with_reducible apply CmdOut.s_keeps | with_reducible apply CmdOut.after_keeps | simp only [CmdOut.mk_keeps_iff] | simp only [Cmd.mk_keeps_iff] | with_reducible apply And.intro | (refine keeps_snd (by with_reducible assumption) ?_) | (refine keeps_fst (by with_reducible assumption) ?_) | split)

theorem execDeepStatus_keeps {z : State} (f : Frame) (s : State) (h_s : Machine.Keeps z s) : OutKeeps z (execDeepStatus f s) := by
  unfold execDeepStatus
  try dsimp only
  repeat' (first | with_reducible (first | assumption | intro _ | apply cmdDeepStatus_keeps | apply mailbox_keeps) | exact cmdDeepStatus_keeps | with_reducible apply outKeeps_next)

theorem execDeepBlockInfo_keeps {z : State} (f : Frame) (s : State) (h_s : Machine.Keeps z s) : OutKeeps z (execDeepBlockInfo f s) := by
  unfold execDeepBlockInfo
  try dsimp only
  repeat' (first | with_reducible (first | assumption | intro _ | apply cmdDeepBlockInfo_keeps | apply mailbox_keeps) | exact cmdDeepBlockInfo_keeps | with_reducible apply outKeeps_next)

theorem execDeepConfig_keeps {z : State} (f : Frame) (s : State) (h_s : Machine.Keeps z s) : OutKeeps z (execDeepConfig f s) := by
  unfold execDeepConfig
  try dsimp only
  repeat' (first | with_reducible (first | assumption | intro _ | apply cmdDeepConfig_keeps | apply mailbox_keeps) | exact cmdDeepConfig_keeps | with_reducible apply outKeeps_next)

theorem execDeepRetireBlock_keeps {z : State} (f : Frame) (s : State) (h_s : Machine.Keeps z s) : OutKeeps z (execDeepRetireBlock f s) := by
  unfold execDeepRetireBlock
  try dsimp only
  repeat' (first | with_reducible (first | assumption | intro _ | apply cmdDeepRetireBlock_keeps | apply mailbox_keeps) | exact cmdDeepRetireBlock_keeps | with_reducible apply outKeeps_next)

theorem execDeepFormat_keeps {z : State} (f : Frame) (s : State) (h_s : Machine.Keeps z s) : OutKeeps z (execDeepFormat f s) := by
  unfold execDeepFormat
  try dsimp only
  repeat' (first | with_reducible (first | assumption | intro _ | apply cmdDeepFormat_keeps | apply mailbox_keeps) | exact cmdDeepFormat_keeps | with_reducible apply outKeeps_next)

theorem execDeepRebuild_keeps {z : State} (f : Frame) (s : State) (h_s : Machine.Keeps z s) : OutKeeps z (execDeepRebuild f s) := by
  unfold execDeepRebuild
  try dsimp only
  repeat' (first | with_reducible (first | assumption | intro _ | apply cmdDeepRebuild_keeps | apply mailbox_keeps) | exact cmdDeepRebuild_keeps | with_reducible apply outKeeps_next)

end Sys2Proof.Machine
end

