-- ==== Sys2Proof/Laws/KeepQpOps.lean ====
section
/-! SUPPORT. What no command changes is kept by every function of `Machine/QpOps.lean`. -/

set_option linter.all false

namespace Sys2Proof.Machine

theorem State.tearDown_keeps {z : State} (s : State) (n : Nat) (h_s : Machine.Keeps z s) : Machine.Keeps z (State.tearDown s n) := by
  unfold State.tearDown
  try dsimp only
  repeat' (first | with_reducible (first | assumption | intro _ | apply State.discardPortion_keeps | apply CmdOut.done_keeps | apply State.updNet_keeps | apply State.updQp_keeps | apply keeps_foldl | apply keeps_foldl_snd | apply keeps_foldl_fst | apply keeps_ite) | simp only [keeps_mk_iff] | with_reducible apply Cmd.out_keeps | with_reducible apply CmdOut.s_keeps | with_reducible apply CmdOut.after_keeps | (refine keeps_snd (by with_reducible assumption) ?_) | (refine keeps_fst (by with_reducible assumption) ?_) | split)

theorem State.dropPoint_keeps {z : State} (s : State) (q : Qp) (h_s : Machine.Keeps z s) : Machine.Keeps z (State.dropPoint s q) := by
  unfold State.dropPoint
  try dsimp only
  repeat' (first | with_reducible (first | assumption | intro _ | apply State.endSession_keeps | apply State.setF_keeps | apply keeps_ite) | split)

theorem State.qpError_keeps {z : State} (s : State) (n why psn : Nat) (h_s : Machine.Keeps z s) : Machine.Keeps z (State.qpError s n why psn) := by
  unfold State.qpError
  try dsimp only
  repeat' (first | with_reducible (first | assumption | apply ite_some_imp | intro _ | apply State.dropPoint_keeps | apply State.mirrorQp_keeps | apply State.notify_keeps | apply State.tearDown_keeps | apply State.updQp_keeps | apply keeps_ite) | simp only [keeps_mk_iff] | (refine keeps_snd (by with_reducible assumption) ?_) | (refine keeps_fst (by with_reducible assumption) ?_) | split)

theorem State.nak_keeps {z : State} (s : State) (n psn code : Nat) (h_s : Machine.Keeps z s) : Machine.Keeps z (State.nak s n psn code) := by
  unfold State.nak
  try dsimp only
  repeat' (first | with_reducible (first | assumption | apply ite_some_imp | intro _ | apply State.bump_keeps | apply State.packet_keeps | apply State.qpError_keeps | apply State.updQp_keeps | apply keeps_ite) | simp only [keeps_mk_iff] | (refine keeps_snd (by with_reducible assumption) ?_) | (refine keeps_fst (by with_reducible assumption) ?_) | split)

theorem State.takeEffect_keeps {z : State} (s : State) (p : Portion) (h_s : Machine.Keeps z s) : Machine.Keeps z (State.takeEffect s p) := by
  unfold State.takeEffect
  try dsimp only
  repeat' (first | with_reducible (first | assumption | intro _ | apply State.applyPortion_keeps | apply State.discardPortion_keeps | apply State.nak_keeps | apply State.settleAll_keeps | apply keeps_ite) | simp only [keeps_mk_iff] | (refine keeps_snd (by with_reducible assumption) ?_) | (refine keeps_fst (by with_reducible assumption) ?_) | split)

theorem State.probePortion_keeps {z : State} (s : State) (p : Portion) (h_s : Machine.Keeps z s) : Machine.Keeps z (State.probePortion s p) := by
  unfold State.probePortion
  try dsimp only
  repeat' (first | with_reducible (first | assumption | intro _ | apply State.probe_keeps | apply State.probeEdges_keeps | apply keeps_ite) | split)

theorem execApplyPortion_keeps {z : State} (id : Nat) (s : State) (h_s : Machine.Keeps z s) : OutKeeps z (execApplyPortion id s) := by
  unfold execApplyPortion
  try dsimp only
  repeat' (first | with_reducible (first | assumption | apply ite_some_imp | intro _ | apply State.probePortion_keeps | apply State.takeEffect_keeps | apply keeps_id | apply keeps_ite) | simp only [keeps_mk_iff] | with_reducible apply outKeeps_next | with_reducible apply outKeeps_ite | (refine keeps_snd (by with_reducible assumption) ?_) | (refine keeps_fst (by with_reducible assumption) ?_) | split)

theorem State.qpFree_keeps {z : State} (s : State) (n : Nat) (h_s : Machine.Keeps z s) : Machine.Keeps z (State.qpFree s n) := by
  unfold State.qpFree
  try dsimp only
  repeat' (first | with_reducible (first | assumption | apply ite_some_imp | intro _ | apply State.drop_keeps | apply State.dropPoint_keeps | apply State.mirrorQp_keeps | apply State.updNet_keeps | apply State.updQp_keeps | apply keeps_ite) | simp only [keeps_mk_iff] | (refine keeps_snd (by with_reducible assumption) ?_) | (refine keeps_fst (by with_reducible assumption) ?_) | split)

end Sys2Proof.Machine
end

