-- ==== Sys2Proof/Laws/KeepRegions.lean ====
section
/-! SUPPORT. What no command changes is kept by every function of `Machine/Regions.lean`. -/

set_option linter.all false

namespace Sys2Proof.Machine

theorem State.noteCheck_keeps {z : State} (s : State) (t key : Nat) (k : KeyCheck) (h_s : Machine.Keeps z s) : Machine.Keeps z (State.noteCheck s t key k) := by
  unfold State.noteCheck
  try dsimp only
  repeat' (first | with_reducible (first | assumption | apply ite_some_imp | intro _ | apply State.bump_keeps | apply State.ev_keeps | apply keeps_ite) | simp only [keeps_mk_iff] | (refine keeps_snd (by with_reducible assumption) ?_) | (refine keeps_fst (by with_reducible assumption) ?_) | split)

theorem State.mirrorRegion_keeps {z : State} (s : State) (n : Nat) (h_s : Machine.Keeps z s) : Machine.Keeps z (State.mirrorRegion s n) := by
  unfold State.mirrorRegion
  try dsimp only
  repeat' (first | with_reducible (first | assumption | apply ite_some_imp | intro _ | apply State.mirrorItem_keeps) | simp only [keeps_mk_iff] | (refine keeps_snd (by with_reducible assumption) ?_) | (refine keeps_fst (by with_reducible assumption) ?_) | split)

theorem State.countRegions_keeps {z : State} (s : State) (h_s : Machine.Keeps z s) : Machine.Keeps z (State.countRegions s) := by
  unfold State.countRegions
  try dsimp only
  repeat' (first | with_reducible (first | assumption | intro _ | apply State.setAll_keeps))

theorem State.addRegion_keeps {z : State} (s : State) (r : Region) (h_s : Machine.Keeps z s) : Machine.Keeps z (State.addRegion s r) := by
  unfold State.addRegion
  try dsimp only
  repeat' (first | with_reducible (first | assumption | intro _ | apply State.countRegions_keeps | apply State.placeExtent_keeps | apply State.updAms_keeps | apply keeps_foldl | apply keeps_foldl_snd | apply keeps_foldl_fst) | simp only [keeps_mk_iff])

theorem cmdRegionCreate_keeps  : (cmdRegionCreate).Keeps := by
  intro z k pl s h
  unfold cmdRegionCreate
  try unfold actCmd
  try unfold readCmd
  try unfold mirCmd
  try dsimp only
  repeat' (first | with_reducible (first | assumption | apply ite_some_imp | intro _ | apply State.addRegion_keeps | apply CmdOut.done_keeps | apply State.draw_keeps | apply mirCmd_keeps | apply State.mirrorRegion_keeps | apply keeps_getD | apply keeps_ite) | simp only [keeps_mk_iff] | exact mirCmd_keeps | with_reducible apply Cmd.out_keeps | with_reducible apply CmdOut.s_keeps | with_reducible apply CmdOut.after_keeps | with_reducible apply CmdOut.ite_keeps | simp only [CmdOut.mk_keeps_iff] | simp only [Cmd.mk_keeps_iff] | with_reducible apply And.intro | (refine keeps_snd (by with_reducible assumption) ?_) | (refine keeps_fst (by with_reducible assumption) ?_) | split)

theorem State.beginRevoke_keeps {z : State} (s : State) (h_s : Machine.Keeps z s) : Machine.Keeps z (State.beginRevoke s) := by
  unfold State.beginRevoke
  try dsimp only
  repeat' (first | with_reducible (first | assumption | intro _ | apply State.allTiles_keeps | apply State.setFs_keeps | apply State.updAms_keeps | apply keeps_ite) | simp only [keeps_mk_iff] | (refine keeps_snd (by with_reducible assumption) ?_) | (refine keeps_fst (by with_reducible assumption) ?_) | split)

theorem State.revoke_keeps {z : State} (s : State) (n cause keep : Nat) (h_s : Machine.Keeps z s) : Machine.Keeps z (State.revoke s n cause keep) := by
  unfold State.revoke
  try dsimp only
  repeat' (first | with_reducible (first | assumption | apply ite_some_imp | intro _ | apply State.beginRevoke_keeps | apply State.draw_keeps | apply State.updAms_keeps | apply keeps_ite) | simp only [keeps_mk_iff] | (refine keeps_snd (by with_reducible assumption) ?_) | (refine keeps_fst (by with_reducible assumption) ?_) | split)

theorem State.disarmRegion_keeps {z : State} (s : State) (n : Nat) (h_s : Machine.Keeps z s) : Machine.Keeps z (State.disarmRegion s n) := by
  unfold State.disarmRegion
  try dsimp only
  repeat' (first | with_reducible (first | assumption | intro _ | apply State.updAms_keeps | apply keeps_ite) | simp only [keeps_mk_iff] | split)

theorem State.moveResult_keeps {z : State} (s : State) (e order code : Nat) (h_s : Machine.Keeps z s) : Machine.Keeps z (State.moveResult s e order code) := by
  unfold State.moveResult
  try dsimp only
  repeat' (first | with_reducible (first | assumption | intro _ | apply State.notify_keeps))

theorem State.releaseDest_keeps {z : State} (s : State) (m : Move) (h_s : Machine.Keeps z s) : Machine.Keeps z (State.releaseDest s m) := by
  unfold State.releaseDest
  try dsimp only
  repeat' (first | with_reducible (first | assumption | apply ite_some_imp | intro _ | apply State.freeDen_keeps | apply State.freeFrameBytes_keeps | apply State.unmapDeep_keeps | apply keeps_foldl | apply keeps_foldl_snd | apply keeps_foldl_fst | apply keeps_ite) | simp only [keeps_mk_iff] | (refine keeps_snd (by with_reducible assumption) ?_) | (refine keeps_fst (by with_reducible assumption) ?_) | split)

theorem State.dropMove_keeps {z : State} (s : State) (m : Move) (h_s : Machine.Keeps z s) : Machine.Keeps z (State.dropMove s m) := by
  unfold State.dropMove
  try dsimp only
  repeat' (first | with_reducible (first | assumption | apply ite_some_imp | intro _ | apply State.releaseDest_keeps | apply State.setHome_keeps | apply State.updAms_keeps | apply State.updFirn_keeps) | simp only [keeps_mk_iff] | (refine keeps_snd (by with_reducible assumption) ?_) | (refine keeps_fst (by with_reducible assumption) ?_) | split)

theorem State.cancelMove_keeps {z : State} (s : State) (e : Nat) (h_s : Machine.Keeps z s) : Machine.Keeps z (State.cancelMove s e) := by
  unfold State.cancelMove
  try dsimp only
  repeat' (first | with_reducible (first | assumption | apply ite_some_imp | intro _ | apply State.dropMove_keeps | apply State.ev_keeps | apply State.mirrorItem_keeps | apply State.moveResult_keeps | apply State.updAms_keeps | apply keeps_getD | apply keeps_ite) | simp only [keeps_mk_iff] | (refine keeps_snd (by with_reducible assumption) ?_) | (refine keeps_fst (by with_reducible assumption) ?_) | split)

theorem State.meetRevoke_keeps {z : State} (s : State) (r : Region) (writes reads : Bool) (h_s : Machine.Keeps z s) : Machine.Keeps z (State.meetRevoke s r writes reads) := by
  unfold State.meetRevoke
  try dsimp only
  repeat' (first | with_reducible (first | assumption | apply ite_some_imp | intro _ | apply State.discardPortion_keeps | apply State.nak_keeps | apply State.updNet_keeps | apply keeps_foldl | apply keeps_foldl_snd | apply keeps_foldl_fst) | (refine keeps_foldl_bind ?_ (by assumption) ?_) | with_reducible apply keeps_ite | simp only [keeps_mk_iff] | (refine keeps_snd (by with_reducible assumption) ?_) | (refine keeps_fst (by with_reducible assumption) ?_) | split)

theorem State.mirrorRevoke_keeps {z : State} (s : State) (n phase gen : Nat) (h_s : Machine.Keeps z s) : Machine.Keeps z (State.mirrorRevoke s n phase gen) := by
  unfold State.mirrorRevoke
  try dsimp only
  repeat' (first | with_reducible (first | assumption | intro _ | apply State.mirrorItem_keeps))

theorem State.phase1End_keeps {z : State} (s : State) (v : Revoke) (h_s : Machine.Keeps z s) : Machine.Keeps z (State.phase1End s v) := by
  unfold State.phase1End
  try dsimp only
  repeat' (first | with_reducible (first | assumption | apply ite_some_imp | intro _ | apply State.allTiles_keeps | apply State.cancelMove_keeps | apply State.disarmRegion_keeps | apply State.haltStream_keeps | apply State.meetRevoke_keeps | apply State.mirrorRevoke_keeps | apply State.setFs_keeps | apply State.updAms_keeps | apply keeps_foldl | apply keeps_foldl_snd | apply keeps_foldl_fst | apply keeps_ite) | simp only [keeps_mk_iff] | (refine keeps_snd (by with_reducible assumption) ?_) | (refine keeps_fst (by with_reducible assumption) ?_) | split)

theorem execRevokePhase1End_keeps {z : State} (s : State) (h_s : Machine.Keeps z s) : OutKeeps z (execRevokePhase1End s) := by
  unfold execRevokePhase1End
  try dsimp only
  repeat' (first | with_reducible (first | assumption | intro _ | apply State.phase1End_keeps | apply keeps_ite) | simp only [keeps_mk_iff] | with_reducible apply outKeeps_next | with_reducible apply outKeeps_ite | (refine keeps_snd (by with_reducible assumption) ?_) | (refine keeps_fst (by with_reducible assumption) ?_) | split)

theorem State.phase2End_keeps {z : State} (s : State) (v : Revoke) (h_s : Machine.Keeps z s) : Machine.Keeps z (State.phase2End s v) := by
  unfold State.phase2End
  try dsimp only
  repeat' (first | with_reducible (first | assumption | apply ite_some_imp | intro _ | apply State.allTiles_keeps | apply State.beginRevoke_keeps | apply State.countRegions_keeps | apply State.drop_keeps | apply State.ev_keeps | apply State.finishCmd_keeps | apply State.freeRegion_keeps | apply State.mirrorRevoke_keeps | apply State.notify_keeps | apply State.setAll_keeps | apply State.updAms_keeps | apply keeps_ite) | simp only [keeps_mk_iff] | (refine keeps_snd (by with_reducible assumption) ?_) | (refine keeps_fst (by with_reducible assumption) ?_) | split)

theorem execRevokePhase2End_keeps {z : State} (s : State) (h_s : Machine.Keeps z s) : OutKeeps z (execRevokePhase2End s) := by
  unfold execRevokePhase2End
  try dsimp only
  repeat' (first | with_reducible (first | assumption | apply ite_some_imp | intro _ | apply State.phase2End_keeps | apply keeps_ite) | simp only [keeps_mk_iff] | with_reducible apply outKeeps_next | with_reducible apply outKeeps_ite | (refine keeps_snd (by with_reducible assumption) ?_) | (refine keeps_fst (by with_reducible assumption) ?_) | split)

theorem regionCmd_keeps (opcode : Nat) (sizes : List Nat) (run : Caller → List Byte → State → CmdOut) (h_run : ∀ z a0 a1 a2, Machine.Keeps z a2 → (run a0 a1 a2).Keeps z) : (regionCmd opcode sizes run).Keeps := by
  intro z k pl s h
  unfold regionCmd
  try unfold actCmd
  try unfold readCmd
  try unfold mirCmd
  try dsimp only
  repeat' (first | with_reducible (first | assumption | intro _ | apply h_run | apply mirCmd_keeps) | simp only [keeps_mk_iff] | exact mirCmd_keeps | with_reducible apply Cmd.out_keeps | with_reducible apply CmdOut.s_keeps | with_reducible apply CmdOut.after_keeps | simp only [CmdOut.mk_keeps_iff] | simp only [Cmd.mk_keeps_iff] | with_reducible apply And.intro)

theorem cmdRegionDelete_keeps  : (cmdRegionDelete).Keeps := by
  intro z k pl s h
  unfold cmdRegionDelete
  try unfold actCmd
  try unfold readCmd
  try unfold mirCmd
  try dsimp only
  repeat' (first | with_reducible (first | assumption | intro _ | apply regionCmd_keeps | apply State.revoke_keeps | apply keeps_id) | simp only [keeps_mk_iff] | exact regionCmd_keeps | with_reducible apply Cmd.out_keeps | with_reducible apply CmdOut.s_keeps | with_reducible apply CmdOut.after_keeps | simp only [CmdOut.mk_keeps_iff] | simp only [Cmd.mk_keeps_iff] | with_reducible apply And.intro)

theorem cmdRegionRekey_keeps  : (cmdRegionRekey).Keeps := by
  intro z k pl s h
  unfold cmdRegionRekey
  try unfold actCmd
  try unfold readCmd
  try unfold mirCmd
  try dsimp only
  repeat' (first | with_reducible (first | assumption | intro _ | apply State.mirrorItem_keeps | apply regionCmd_keeps | apply State.revoke_keeps) | simp only [keeps_mk_iff] | exact regionCmd_keeps | with_reducible apply Cmd.out_keeps | with_reducible apply CmdOut.s_keeps | with_reducible apply CmdOut.after_keeps | simp only [CmdOut.mk_keeps_iff] | simp only [Cmd.mk_keeps_iff] | with_reducible apply And.intro | (refine keeps_snd (by with_reducible assumption) ?_) | (refine keeps_fst (by with_reducible assumption) ?_) | split)

theorem runSetFlags_keeps {z : State} (x0 : Caller) (pl : List Byte) (s : State) (h_s : Machine.Keeps z s) : (runSetFlags x0 pl s).Keeps z := by
  unfold runSetFlags
  try dsimp only
  repeat' (first | with_reducible (first | assumption | apply ite_some_imp | intro _ | apply CmdOut.done_keeps | apply State.revoke_keeps | apply State.updAms_keeps | apply keeps_id | apply keeps_ite) | simp only [keeps_mk_iff] | with_reducible apply Cmd.out_keeps | with_reducible apply CmdOut.s_keeps | with_reducible apply CmdOut.after_keeps | with_reducible apply CmdOut.ite_keeps | simp only [CmdOut.mk_keeps_iff] | simp only [Cmd.mk_keeps_iff] | with_reducible apply And.intro | (refine keeps_snd (by with_reducible assumption) ?_) | (refine keeps_fst (by with_reducible assumption) ?_) | split)

theorem cmdRegionSetFlags_keeps  : (cmdRegionSetFlags).Keeps := by
  intro z k pl s h
  unfold cmdRegionSetFlags
  try unfold actCmd
  try unfold readCmd
  try unfold mirCmd
  try dsimp only
  repeat' (first | with_reducible (first | assumption | intro _ | apply regionCmd_keeps | apply runSetFlags_keeps) | simp only [keeps_mk_iff] | exact regionCmd_keeps | with_reducible apply Cmd.out_keeps | with_reducible apply CmdOut.s_keeps | with_reducible apply CmdOut.after_keeps | simp only [CmdOut.mk_keeps_iff] | simp only [Cmd.mk_keeps_iff] | with_reducible apply And.intro | (refine keeps_snd (by with_reducible assumption) ?_) | (refine keeps_fst (by with_reducible assumption) ?_) | split)

theorem cmdRegionSetPin_keeps  : (cmdRegionSetPin).Keeps := by
  intro z k pl s h
  unfold cmdRegionSetPin
  try unfold actCmd
  try unfold readCmd
  try unfold mirCmd
  try dsimp only
  repeat' (first | with_reducible (first | assumption | intro _ | apply cmdRegionSetFlags_keeps) | simp only [keeps_mk_iff] | exact cmdRegionSetFlags_keeps | with_reducible apply Cmd.out_keeps | with_reducible apply CmdOut.s_keeps | with_reducible apply CmdOut.after_keeps | simp only [CmdOut.mk_keeps_iff] | simp only [Cmd.mk_keeps_iff] | with_reducible apply And.intro)

theorem cmdRegionQuery_keeps  : (cmdRegionQuery).Keeps := by
  intro z k pl s h
  unfold cmdRegionQuery
  try unfold actCmd
  try unfold readCmd
  try unfold mirCmd
  try dsimp only
  repeat' (first | with_reducible (first | assumption | apply ite_some_imp | intro _ | apply CmdOut.done_keeps | apply readCmd_keeps | apply CmdOut.reply_keeps) | simp only [keeps_mk_iff] | exact readCmd_keeps | with_reducible apply Cmd.out_keeps | with_reducible apply CmdOut.s_keeps | with_reducible apply CmdOut.after_keeps | simp only [CmdOut.mk_keeps_iff] | simp only [Cmd.mk_keeps_iff] | with_reducible apply And.intro | (refine keeps_snd (by with_reducible assumption) ?_) | (refine keeps_fst (by with_reducible assumption) ?_) | split)

theorem cmdRegionList_keeps  : (cmdRegionList).Keeps := by
  intro z k pl s h
  unfold cmdRegionList
  try unfold actCmd
  try unfold readCmd
  try unfold mirCmd
  try dsimp only
  repeat' (first | with_reducible (first | assumption | intro _ | apply readCmd_keeps | apply CmdOut.reply_keeps) | simp only [keeps_mk_iff] | exact readCmd_keeps | with_reducible apply Cmd.out_keeps | with_reducible apply CmdOut.s_keeps | with_reducible apply CmdOut.after_keeps | simp only [CmdOut.mk_keeps_iff] | simp only [Cmd.mk_keeps_iff] | with_reducible apply And.intro)

theorem execRegionCreate_keeps {z : State} (f : Frame) (s : State) (h_s : Machine.Keeps z s) : OutKeeps z (execRegionCreate f s) := by
  unfold execRegionCreate
  try dsimp only
  repeat' (first | with_reducible (first | assumption | intro _ | apply cmdRegionCreate_keeps | apply mailbox_keeps) | exact cmdRegionCreate_keeps | with_reducible apply outKeeps_next)

theorem execRegionDelete_keeps {z : State} (f : Frame) (s : State) (h_s : Machine.Keeps z s) : OutKeeps z (execRegionDelete f s) := by
  unfold execRegionDelete
  try dsimp only
  repeat' (first | with_reducible (first | assumption | intro _ | apply cmdRegionDelete_keeps | apply mailbox_keeps) | exact cmdRegionDelete_keeps | with_reducible apply outKeeps_next)

theorem execRegionRekey_keeps {z : State} (f : Frame) (s : State) (h_s : Machine.Keeps z s) : OutKeeps z (execRegionRekey f s) := by
  unfold execRegionRekey
  try dsimp only
  repeat' (first | with_reducible (first | assumption | intro _ | apply cmdRegionRekey_keeps | apply mailbox_keeps) | exact cmdRegionRekey_keeps | with_reducible apply outKeeps_next)

theorem execRegionSetFlags_keeps {z : State} (f : Frame) (s : State) (h_s : Machine.Keeps z s) : OutKeeps z (execRegionSetFlags f s) := by
  unfold execRegionSetFlags
  try dsimp only
  repeat' (first | with_reducible (first | assumption | intro _ | apply cmdRegionSetFlags_keeps | apply cmdRegionSetPin_keeps | apply mailbox_keeps | apply keeps_ite) | exact cmdRegionSetFlags_keeps | exact cmdRegionSetPin_keeps | with_reducible apply outKeeps_next | with_reducible apply outKeeps_ite | split)

theorem execRegionQuery_keeps {z : State} (f : Frame) (s : State) (h_s : Machine.Keeps z s) : OutKeeps z (execRegionQuery f s) := by
  unfold execRegionQuery
  try dsimp only
  repeat' (first | with_reducible (first | assumption | intro _ | apply cmdRegionQuery_keeps | apply mailbox_keeps) | exact cmdRegionQuery_keeps | with_reducible apply outKeeps_next)

theorem execRegionList_keeps {z : State} (f : Frame) (s : State) (h_s : Machine.Keeps z s) : OutKeeps z (execRegionList f s) := by
  unfold execRegionList
  try dsimp only
  repeat' (first | with_reducible (first | assumption | intro _ | apply cmdRegionList_keeps | apply mailbox_keeps) | exact cmdRegionList_keeps | with_reducible apply outKeeps_next)

end Sys2Proof.Machine
end

