-- ==== Sys2Proof/Laws/KeepPlans.lean ====
section
/-! SUPPORT. What no command changes is kept by every function of `Machine/Plans.lean`. -/

set_option linter.all false

namespace Sys2Proof.Machine

theorem State.updPlan_keeps {z : State} (s : State) (n : Nat) (f : Plan → Plan) (h_s : Machine.Keeps z s) : Machine.Keeps z (State.updPlan s n f) := by
  unfold State.updPlan
  try dsimp only
  repeat' (first | with_reducible (first | assumption | intro _ | apply State.updAms_keeps | apply keeps_id | apply keeps_ite) | simp only [keeps_mk_iff] | split)

theorem State.updOrder_keeps {z : State} (s : State) (p o : Nat) (f : PlanOrder → PlanOrder) (h_s : Machine.Keeps z s) : Machine.Keeps z (State.updOrder s p o f) := by
  unfold State.updOrder
  try dsimp only
  repeat' (first | with_reducible (first | assumption | intro _ | apply State.updPlan_keeps | apply keeps_id | apply keeps_ite) | simp only [keeps_mk_iff] | split)

theorem State.mirrorOrder_keeps {z : State} (s : State) (p o st : Nat) (h_s : Machine.Keeps z s) : Machine.Keeps z (State.mirrorOrder s p o st) := by
  unfold State.mirrorOrder
  try dsimp only
  repeat' (first | with_reducible (first | assumption | intro _ | apply State.mirrorItem_keeps))

theorem State.issue_keeps {z : State} (s : State) (es : List Nat) (q : MoveReq) (h_s : Machine.Keeps z s) : Machine.Keeps z (State.issue s es q) := by
  unfold State.issue
  try dsimp only
  repeat' (first | with_reducible (first | assumption | intro _ | apply State.updAms_keeps | apply keeps_ite) | simp only [keeps_mk_iff] | split)

theorem State.fire_keeps {z : State} (s : State) (p : Plan) (o : PlanOrder) (es : List Nat) (h_s : Machine.Keeps z s) : Machine.Keeps z (State.fire s p o es) := by
  unfold State.fire
  try dsimp only
  repeat' (first | with_reducible (first | assumption | intro _ | apply State.issue_keeps | apply State.mirrorOrder_keeps | apply State.updOrder_keeps | apply keeps_id) | simp only [keeps_mk_iff])

theorem State.fireAll_keeps {z : State} (s : State) (p : PlanOrder → Bool) (h_s : Machine.Keeps z s) : Machine.Keeps z (State.fireAll s p) := by
  unfold State.fireAll
  try dsimp only
  repeat' (first | with_reducible (first | assumption | intro _ | apply State.fire_keeps | apply keeps_foldl | apply keeps_foldl_snd | apply keeps_foldl_fst | apply keeps_ite) | split)

theorem execOrderRasterLine_keeps {z : State} (stream : Nat) (s : State) (h_s : Machine.Keeps z s) : OutKeeps z (execOrderRasterLine stream s) := by
  unfold execOrderRasterLine
  try dsimp only
  repeat' (first | with_reducible (first | assumption | apply ite_some_imp | intro _ | apply State.fireAll_keeps) | simp only [keeps_mk_iff] | with_reducible apply outKeeps_next | (refine keeps_snd (by with_reducible assumption) ?_) | (refine keeps_fst (by with_reducible assumption) ?_) | split)

theorem execOrderChainCount_keeps {z : State} (cqn : Nat) (s : State) (h_s : Machine.Keeps z s) : OutKeeps z (execOrderChainCount cqn s) := by
  unfold execOrderChainCount
  try dsimp only
  repeat' (first | with_reducible (first | assumption | apply ite_some_imp | intro _ | apply State.fireAll_keeps) | simp only [keeps_mk_iff] | with_reducible apply outKeeps_next | (refine keeps_snd (by with_reducible assumption) ?_) | (refine keeps_fst (by with_reducible assumption) ?_) | split)

theorem cmdPlanLoadBegin_keeps  : (cmdPlanLoadBegin).Keeps := by
  intro z k pl s h
  unfold cmdPlanLoadBegin
  try unfold actCmd
  try unfold readCmd
  try unfold mirCmd
  try dsimp only
  repeat' (first | with_reducible (first | assumption | intro _ | apply CmdOut.done_keeps | apply mirCmd_keeps | apply State.updAms_keeps | apply keeps_ite) | simp only [keeps_mk_iff] | exact mirCmd_keeps | with_reducible apply Cmd.out_keeps | with_reducible apply CmdOut.s_keeps | with_reducible apply CmdOut.after_keeps | with_reducible apply CmdOut.ite_keeps | simp only [CmdOut.mk_keeps_iff] | simp only [Cmd.mk_keeps_iff] | with_reducible apply And.intro | (refine keeps_snd (by with_reducible assumption) ?_) | (refine keeps_fst (by with_reducible assumption) ?_) | split)

theorem cmdPlanLoadData_keeps  : (cmdPlanLoadData).Keeps := by
  intro z k pl s h
  unfold cmdPlanLoadData
  try unfold actCmd
  try unfold readCmd
  try unfold mirCmd
  try dsimp only
  repeat' (first | with_reducible (first | assumption | apply ite_some_imp | intro _ | apply CmdOut.done_keeps | apply State.drop_keeps | apply mirCmd_keeps | apply State.updAms_keeps) | simp only [keeps_mk_iff] | exact mirCmd_keeps | with_reducible apply Cmd.out_keeps | with_reducible apply CmdOut.s_keeps | with_reducible apply CmdOut.after_keeps | simp only [CmdOut.mk_keeps_iff] | simp only [Cmd.mk_keeps_iff] | with_reducible apply And.intro | (refine keeps_snd (by with_reducible assumption) ?_) | (refine keeps_fst (by with_reducible assumption) ?_) | split)

theorem cmdPlanLoadEnd_keeps  : (cmdPlanLoadEnd).Keeps := by
  intro z k pl s h
  unfold cmdPlanLoadEnd
  try unfold actCmd
  try unfold readCmd
  try unfold mirCmd
  try dsimp only
  repeat' (first | with_reducible (first | assumption | apply ite_some_imp | intro _ | apply CmdOut.done_keeps | apply mirCmd_keeps | apply State.updAms_keeps | apply keeps_id | apply keeps_ite) | simp only [keeps_mk_iff] | exact mirCmd_keeps | with_reducible apply Cmd.out_keeps | with_reducible apply CmdOut.s_keeps | with_reducible apply CmdOut.after_keeps | with_reducible apply CmdOut.ite_keeps | simp only [CmdOut.mk_keeps_iff] | simp only [Cmd.mk_keeps_iff] | with_reducible apply And.intro | (refine keeps_snd (by with_reducible assumption) ?_) | (refine keeps_fst (by with_reducible assumption) ?_) | split)

theorem State.activate_keeps {z : State} (s : State) (p : Plan) (h_s : Machine.Keeps z s) : Machine.Keeps z (State.activate s p) := by
  unfold State.activate
  try dsimp only
  repeat' (first | with_reducible (first | assumption | intro _ | apply State.fire_keeps | apply State.issue_keeps | apply State.updPlan_keeps | apply keeps_foldl | apply keeps_foldl_snd | apply keeps_foldl_fst | apply keeps_id | apply keeps_ite) | simp only [keeps_mk_iff] | split)

theorem planCmd_keeps (opcode : Nat) (run : Plan → State → CmdOut) (h_run : ∀ z a0 a1, Machine.Keeps z a1 → (run a0 a1).Keeps z) : (planCmd opcode run).Keeps := by
  intro z k pl s h
  unfold planCmd
  try unfold actCmd
  try unfold readCmd
  try unfold mirCmd
  try dsimp only
  repeat' (first | with_reducible (first | assumption | apply ite_some_imp | intro _ | apply h_run | apply CmdOut.done_keeps | apply mirCmd_keeps) | simp only [keeps_mk_iff] | exact mirCmd_keeps | with_reducible apply Cmd.out_keeps | with_reducible apply CmdOut.s_keeps | with_reducible apply CmdOut.after_keeps | simp only [CmdOut.mk_keeps_iff] | simp only [Cmd.mk_keeps_iff] | with_reducible apply And.intro | (refine keeps_snd (by with_reducible assumption) ?_) | (refine keeps_fst (by with_reducible assumption) ?_) | split)

theorem cmdPlanActivate_keeps  : (cmdPlanActivate).Keeps := by
  intro z k pl s h
  unfold cmdPlanActivate
  try unfold actCmd
  try unfold readCmd
  try unfold mirCmd
  try dsimp only
  repeat' (first | with_reducible (first | assumption | intro _ | apply State.activate_keeps | apply CmdOut.done_keeps | apply planCmd_keeps | apply keeps_ite) | simp only [keeps_mk_iff] | exact planCmd_keeps | with_reducible apply Cmd.out_keeps | with_reducible apply CmdOut.s_keeps | with_reducible apply CmdOut.after_keeps | with_reducible apply CmdOut.ite_keeps | simp only [CmdOut.mk_keeps_iff] | simp only [Cmd.mk_keeps_iff] | with_reducible apply And.intro | split)

theorem cmdPlanDeactivate_keeps  : (cmdPlanDeactivate).Keeps := by
  intro z k pl s h
  unfold cmdPlanDeactivate
  try unfold actCmd
  try unfold readCmd
  try unfold mirCmd
  try dsimp only
  repeat' (first | with_reducible (first | assumption | intro _ | apply CmdOut.done_keeps | apply planCmd_keeps | apply State.updPlan_keeps | apply keeps_id | apply keeps_ite) | simp only [keeps_mk_iff] | exact planCmd_keeps | with_reducible apply Cmd.out_keeps | with_reducible apply CmdOut.s_keeps | with_reducible apply CmdOut.after_keeps | with_reducible apply CmdOut.ite_keeps | simp only [CmdOut.mk_keeps_iff] | simp only [Cmd.mk_keeps_iff] | with_reducible apply And.intro | split)

theorem cmdPlanUnload_keeps  : (cmdPlanUnload).Keeps := by
  intro z k pl s h
  unfold cmdPlanUnload
  try unfold actCmd
  try unfold readCmd
  try unfold mirCmd
  try dsimp only
  repeat' (first | with_reducible (first | assumption | intro _ | apply CmdOut.done_keeps | apply planCmd_keeps | apply State.updAms_keeps | apply keeps_id | apply keeps_ite) | simp only [keeps_mk_iff] | exact planCmd_keeps | with_reducible apply Cmd.out_keeps | with_reducible apply CmdOut.s_keeps | with_reducible apply CmdOut.after_keeps | with_reducible apply CmdOut.ite_keeps | simp only [CmdOut.mk_keeps_iff] | simp only [Cmd.mk_keeps_iff] | with_reducible apply And.intro | split)

theorem cmdPlanStatus_keeps  : (cmdPlanStatus).Keeps := by
  intro z k pl s h
  unfold cmdPlanStatus
  try unfold actCmd
  try unfold readCmd
  try unfold mirCmd
  try dsimp only
  repeat' (first | with_reducible (first | assumption | apply ite_some_imp | intro _ | apply CmdOut.done_keeps | apply State.drop_keeps | apply readCmd_keeps | apply CmdOut.reply_keeps | apply keeps_id) | simp only [keeps_mk_iff] | exact readCmd_keeps | with_reducible apply Cmd.out_keeps | with_reducible apply CmdOut.s_keeps | with_reducible apply CmdOut.after_keeps | simp only [CmdOut.mk_keeps_iff] | simp only [Cmd.mk_keeps_iff] | with_reducible apply And.intro | (refine keeps_snd (by with_reducible assumption) ?_) | (refine keeps_fst (by with_reducible assumption) ?_) | split)

theorem execPlanLoadBegin_keeps {z : State} (f : Frame) (s : State) (h_s : Machine.Keeps z s) : OutKeeps z (execPlanLoadBegin f s) := by
  unfold execPlanLoadBegin
  try dsimp only
  repeat' (first | with_reducible (first | assumption | intro _ | apply cmdPlanLoadBegin_keeps | apply mailbox_keeps) | exact cmdPlanLoadBegin_keeps | with_reducible apply outKeeps_next)

theorem execPlanLoadData_keeps {z : State} (f : Frame) (s : State) (h_s : Machine.Keeps z s) : OutKeeps z (execPlanLoadData f s) := by
  unfold execPlanLoadData
  try dsimp only
  repeat' (first | with_reducible (first | assumption | intro _ | apply cmdPlanLoadData_keeps | apply mailbox_keeps) | exact cmdPlanLoadData_keeps | with_reducible apply outKeeps_next)

theorem execPlanLoadEnd_keeps {z : State} (f : Frame) (s : State) (h_s : Machine.Keeps z s) : OutKeeps z (execPlanLoadEnd f s) := by
  unfold execPlanLoadEnd
  try dsimp only
  repeat' (first | with_reducible (first | assumption | intro _ | apply cmdPlanLoadEnd_keeps | apply mailbox_keeps) | exact cmdPlanLoadEnd_keeps | with_reducible apply outKeeps_next)

theorem execPlanActivate_keeps {z : State} (f : Frame) (s : State) (h_s : Machine.Keeps z s) : OutKeeps z (execPlanActivate f s) := by
  unfold execPlanActivate
  try dsimp only
  repeat' (first | with_reducible (first | assumption | intro _ | apply cmdPlanActivate_keeps | apply mailbox_keeps) | exact cmdPlanActivate_keeps | with_reducible apply outKeeps_next)

theorem execPlanDeactivate_keeps {z : State} (f : Frame) (s : State) (h_s : Machine.Keeps z s) : OutKeeps z (execPlanDeactivate f s) := by
  unfold execPlanDeactivate
  try dsimp only
  repeat' (first | with_reducible (first | assumption | intro _ | apply cmdPlanDeactivate_keeps | apply mailbox_keeps) | exact cmdPlanDeactivate_keeps | with_reducible apply outKeeps_next)

theorem execPlanUnload_keeps {z : State} (f : Frame) (s : State) (h_s : Machine.Keeps z s) : OutKeeps z (execPlanUnload f s) := by
  unfold execPlanUnload
  try dsimp only
  repeat' (first | with_reducible (first | assumption | intro _ | apply cmdPlanUnload_keeps | apply mailbox_keeps) | exact cmdPlanUnload_keeps | with_reducible apply outKeeps_next)

theorem execPlanStatus_keeps {z : State} (f : Frame) (s : State) (h_s : Machine.Keeps z s) : OutKeeps z (execPlanStatus f s) := by
  unfold execPlanStatus
  try dsimp only
  repeat' (first | with_reducible (first | assumption | intro _ | apply cmdPlanStatus_keeps | apply mailbox_keeps) | exact cmdPlanStatus_keeps | with_reducible apply outKeeps_next)

end Sys2Proof.Machine
end

