-- ==== Sys2Proof/Laws/KeepMoves.lean ====
section
/-! SUPPORT. What no command changes is kept by every function of `Machine/Moves.lean`. -/

set_option linter.all false

namespace Sys2Proof.Machine

theorem State.updMove_keeps {z : State} (s : State) (e : Nat) (f : Move → Move) (h_s : Machine.Keeps z s) : Machine.Keeps z (State.updMove s e f) := by
  unfold State.updMove
  try dsimp only
  repeat' (first | with_reducible (first | assumption | intro _ | apply State.updAms_keeps | apply keeps_ite) | simp only [keeps_mk_iff] | split)

theorem State.orderDone_keeps {z : State} (s : State) (e : Nat) (q : MoveReq) (h_s : Machine.Keeps z s) : Machine.Keeps z (State.orderDone s e q) := by
  unfold State.orderDone
  try dsimp only
  repeat' (first | with_reducible (first | assumption | apply ite_some_imp | intro _ | apply State.mirrorOrder_keeps | apply State.updOrder_keeps | apply keeps_id | apply keeps_ite) | simp only [keeps_mk_iff] | (refine keeps_snd (by with_reducible assumption) ?_) | (refine keeps_fst (by with_reducible assumption) ?_) | split)

theorem State.moveDone_keeps {z : State} (s : State) (t e : Nat) (q : MoveReq) (partner poison : Bool) (h_s : Machine.Keeps z s) : Machine.Keeps z (State.moveDone s t e q partner poison) := by
  unfold State.moveDone
  try dsimp only
  repeat' (first | with_reducible (first | assumption | intro _ | apply State.bump_keeps | apply State.ev_keeps | apply State.moveResult_keeps | apply State.orderDone_keeps | apply keeps_ite) | split)

theorem State.putPage_keeps {z : State} (s : State) (h : Home) (p : Nat) (bs : List Byte) (h_s : Machine.Keeps z s) : Machine.Keeps z (State.putPage s h p bs) := by
  unfold State.putPage
  try dsimp only
  repeat' (first | with_reducible (first | assumption | intro _ | apply State.decWrite_keeps | apply State.programDeep_keeps | apply State.setBytes_keeps) | simp only [keeps_mk_iff] | (refine keeps_snd (by with_reducible assumption) ?_) | (refine keeps_fst (by with_reducible assumption) ?_) | split)

theorem State.copyPages_keeps {z : State} (s : State) (m : Move) (ps : List Nat) (h_s : Machine.Keeps z s) : Machine.Keeps z (State.copyPages s m ps) := by
  unfold State.copyPages
  try dsimp only
  repeat' (first | with_reducible (first | assumption | apply ite_some_imp | intro _ | apply State.closeRow_keeps | apply State.putPage_keeps | apply State.readHome_keeps | apply keeps_foldl | apply keeps_foldl_snd | apply keeps_foldl_fst | apply keeps_ite) | simp only [keeps_mk_iff] | (refine keeps_snd (by with_reducible assumption) ?_) | (refine keeps_fst (by with_reducible assumption) ?_) | split)

theorem State.reserve_keeps {z u : State} {v : _} {s : State} {m : Move} (e : State.reserve s m = some (v, u)) (h_s : Machine.Keeps z s) : Machine.Keeps z u := by
  unfold State.reserve at e
  revert e
  try dsimp only
  repeat' (first | (refine fun (e : _ = _) => ?_; cases e; done) | (refine fun (e : _ = _) => ?_; cases e) | split | (refine fun (e : _ = _) => ?_; simp only [Option.map_eq_some_iff] at e; obtain ⟨_, _, e⟩ := e; cases e) | with_reducible (first | assumption | apply ite_some_imp | intro _ | apply State.ensureDen_keeps | apply State.freeFrameBytes_keeps | apply keeps_ite) | simp only [keeps_mk_iff] | split)

theorem State.holdPath_keeps {z : State} (s : State) (m : Move) (h_s : Machine.Keeps z s) : Machine.Keeps z (State.holdPath s m) := by
  unfold State.holdPath
  try dsimp only
  repeat' (first | with_reducible (first | assumption | intro _ | apply State.recOpen_keeps | apply State.updMove_keeps | apply keeps_ite) | simp only [keeps_mk_iff] | split)

theorem State.waitSpace_keeps {z : State} (s : State) (m : Move) (h_s : Machine.Keeps z s) : Machine.Keeps z (State.waitSpace s m) := by
  unfold State.waitSpace
  try dsimp only
  repeat' (first | with_reducible (first | assumption | intro _ | apply State.ev_keeps | apply State.evRec_keeps | apply State.updMove_keeps | apply keeps_ite) | simp only [keeps_mk_iff] | split)

theorem State.reserveMove_keeps {z : State} (s : State) (m : Move) (h_s : Machine.Keeps z s) : Machine.Keeps z (State.reserveMove s m) := by
  unfold State.reserveMove
  try dsimp only
  repeat' (first | with_reducible (first | assumption | apply ite_some_imp | intro _ | apply State.holdPath_keeps | apply State.noteFeedBw_keeps) | (refine State.reserve_keeps (by with_reducible assumption) ?_ ) | with_reducible apply State.updFirn_keeps | with_reducible apply State.updMove_keeps | with_reducible apply State.waitSpace_keeps | with_reducible apply keeps_ite | simp only [keeps_mk_iff] | (refine keeps_snd (by with_reducible assumption) ?_) | (refine keeps_fst (by with_reducible assumption) ?_) | split)

theorem State.sendReady_keeps {z : State} (s : State) (m : Move) (h_s : Machine.Keeps z s) : Machine.Keeps z (State.sendReady s m) := by
  unfold State.sendReady
  try dsimp only
  repeat' (first | with_reducible (first | assumption | intro _ | apply State.emit'_keeps | apply keeps_ite) | split)

theorem State.startMove_keeps {z : State} (s : State) (m : Move) (h_s : Machine.Keeps z s) : Machine.Keeps z (State.startMove s m) := by
  unfold State.startMove
  try dsimp only
  repeat' (first | with_reducible (first | assumption | apply ite_some_imp | intro _ | apply State.sendReady_keeps | apply State.setHome_keeps | apply State.updMove_keeps | apply keeps_ite) | simp only [keeps_mk_iff] | (refine keeps_snd (by with_reducible assumption) ?_) | (refine keeps_fst (by with_reducible assumption) ?_) | split)

theorem State.tryPrepare_keeps {z : State} (s : State) (e : Nat) (h_s : Machine.Keeps z s) : Machine.Keeps z (State.tryPrepare s e) := by
  unfold State.tryPrepare
  try dsimp only
  repeat' (first | with_reducible (first | assumption | apply ite_some_imp | intro _ | apply State.reserveMove_keeps | apply State.startMove_keeps | apply keeps_ite) | simp only [keeps_mk_iff] | (refine keeps_snd (by with_reducible assumption) ?_) | (refine keeps_fst (by with_reducible assumption) ?_) | split)

theorem State.mirrorHome_keeps {z : State} (s : State) (e : Nat) (h_s : Machine.Keeps z s) : Machine.Keeps z (State.mirrorHome s e) := by
  unfold State.mirrorHome
  try dsimp only
  repeat' (first | with_reducible (first | assumption | apply ite_some_imp | intro _ | apply State.mirrorItem_keeps) | simp only [keeps_mk_iff] | (refine keeps_snd (by with_reducible assumption) ?_) | (refine keeps_fst (by with_reducible assumption) ?_) | split)

theorem State.alreadyHome_keeps {z : State} (s : State) (e : Nat) (h : Home) (q : MoveReq) (partner : Bool) (h_s : Machine.Keeps z s) : Machine.Keeps z (State.alreadyHome s e h q partner) := by
  unfold State.alreadyHome
  try dsimp only
  repeat' (first | with_reducible (first | assumption | intro _ | apply State.mirrorHome_keeps | apply State.moveDone_keeps | apply State.setHome_keeps | apply keeps_ite) | simp only [keeps_mk_iff] | split)

theorem State.pend_keeps {z : State} (s : State) (e t : Nat) (q : MoveReq) (partner : Bool) (h_s : Machine.Keeps z s) : Machine.Keeps z (State.pend s e t q partner) := by
  unfold State.pend
  try dsimp only
  repeat' (first | with_reducible (first | assumption | apply ite_some_imp | intro _ | apply State.ev_keeps | apply State.moveResult_keeps | apply State.updAms_keeps | apply keeps_ite) | simp only [keeps_mk_iff] | (refine keeps_snd (by with_reducible assumption) ?_) | (refine keeps_fst (by with_reducible assumption) ?_) | split)

theorem State.moveRequest_keeps {z : State} (s : State) (e : Nat) (q : MoveReq) (partner : Bool) (h_s : Machine.Keeps z s) : Machine.Keeps z (State.moveRequest s e q partner) := by
  unfold State.moveRequest
  try dsimp only
  repeat' (first | with_reducible (first | assumption | apply ite_some_imp | intro _ | apply State.alreadyHome_keeps | apply State.mirrorItem_keeps | apply State.moveResult_keeps | apply State.pend_keeps | apply State.tryPrepare_keeps | apply State.updAms_keeps | apply keeps_ite) | simp only [keeps_mk_iff] | (refine keeps_snd (by with_reducible assumption) ?_) | (refine keeps_fst (by with_reducible assumption) ?_) | split)

theorem execMoveRequest_keeps {z : State} (s : State) (h_s : Machine.Keeps z s) : OutKeeps z (execMoveRequest s) := by
  unfold execMoveRequest
  try dsimp only
  repeat' (first | with_reducible (first | assumption | intro _ | apply State.moveRequest_keeps | apply State.updAms_keeps) | simp only [keeps_mk_iff] | with_reducible apply outKeeps_next | (refine keeps_snd (by with_reducible assumption) ?_) | (refine keeps_fst (by with_reducible assumption) ?_) | split)

theorem execMoveFrameFree_keeps {z : State} (ext : Nat) (s : State) (h_s : Machine.Keeps z s) : OutKeeps z (execMoveFrameFree ext s) := by
  unfold execMoveFrameFree
  try dsimp only
  repeat' (first | with_reducible (first | assumption | intro _ | apply State.tryPrepare_keeps | apply outKeeps_next))

theorem execMoveCleaned_keeps {z : State} (ext : Nat) (s : State) (h_s : Machine.Keeps z s) : OutKeeps z (execMoveCleaned ext s) := by
  unfold execMoveCleaned
  try dsimp only
  repeat' (first | with_reducible (first | assumption | apply ite_some_imp | intro _ | apply State.tryPrepare_keeps | apply keeps_ite) | simp only [keeps_mk_iff] | with_reducible apply outKeeps_next | with_reducible apply outKeeps_ite | (refine keeps_snd (by with_reducible assumption) ?_) | (refine keeps_fst (by with_reducible assumption) ?_) | split)

theorem State.passDone_keeps {z : State} (s : State) (e : Nat) (h_s : Machine.Keeps z s) : Machine.Keeps z (State.passDone s e) := by
  unfold State.passDone
  try dsimp only
  repeat' (first | with_reducible (first | assumption | apply ite_some_imp | intro _ | apply State.copyPages_keeps | apply State.probePages_keeps | apply State.sendReady_keeps | apply State.updMove_keeps | apply keeps_ite) | simp only [keeps_mk_iff] | (refine keeps_snd (by with_reducible assumption) ?_) | (refine keeps_fst (by with_reducible assumption) ?_) | split)

theorem execMovePassDone_keeps {z : State} (ext : Nat) (near : List NearErr) (s : State) (h_s : Machine.Keeps z s) : OutKeeps z (execMovePassDone ext near s) := by
  unfold execMovePassDone
  try dsimp only
  repeat' (first | with_reducible (first | assumption | intro _ | apply State.addNear_keeps | apply State.passDone_keeps | apply outKeeps_next))

theorem State.cleanSource_keeps {z : State} (s : State) (e t : Nat) (h_s : Machine.Keeps z s) : Machine.Keeps z (State.cleanSource s e t) := by
  unfold State.cleanSource
  try dsimp only
  repeat' (first | with_reducible (first | assumption | intro _ | apply State.pushEvb_keeps | apply State.updCache_keeps | apply State.writeBack_keeps | apply keeps_foldl | apply keeps_foldl_snd | apply keeps_foldl_fst | apply keeps_ite) | simp only [keeps_mk_iff] | split)

theorem State.beginCommit_keeps {z : State} (s : State) (m : Move) (h : Home) (h_s : Machine.Keeps z s) : Machine.Keeps z (State.beginCommit s m h) := by
  unfold State.beginCommit
  try dsimp only
  repeat' (first | with_reducible (first | assumption | intro _ | apply State.cleanSource_keeps | apply State.probePages_keeps | apply keeps_getD))

theorem State.passTokens_keeps {z : State} (s : State) (ks : List Token) (d : Nat) (h_s : Machine.Keeps z s) : Machine.Keeps z (State.passTokens s ks d) := by
  unfold State.passTokens
  try dsimp only
  repeat' (first | with_reducible (first | assumption | intro _ | apply State.returnToken_keeps | apply State.takeToken_keeps | apply State.updToken_keeps | apply keeps_foldl | apply keeps_foldl_snd | apply keeps_foldl_fst) | simp only [keeps_mk_iff])

theorem State.settleImages_keeps {z : State} (s : State) (m : Move) (h : Home) (dirty : List Nat) (h_s : Machine.Keeps z s) : Machine.Keeps z (State.settleImages s m h dirty) := by
  unfold State.settleImages
  try dsimp only
  repeat' (first | with_reducible (first | assumption | intro _ | apply State.unmapDeep_keeps | apply State.updFirn_keeps | apply keeps_foldl | apply keeps_foldl_snd | apply keeps_foldl_fst | apply keeps_ite) | simp only [keeps_mk_iff] | split)

theorem State.commitMove_keeps {z : State} (s : State) (m : Move) (h : Home) (h_s : Machine.Keeps z s) : Machine.Keeps z (State.commitMove s m h) := by
  unfold State.commitMove
  try dsimp only
  repeat' (first | with_reducible (first | assumption | intro _ | apply State.copyPages_keeps | apply State.freeDen_keeps | apply State.freeFrameBytes_keeps | apply State.mirrorItem_keeps | apply State.passTokens_keeps | apply State.setHome_keeps | apply State.settleImages_keeps | apply State.updAms_keeps | apply State.updCache_keeps | apply State.updFirn_keeps | apply keeps_getD | apply keeps_ite) | simp only [keeps_mk_iff] | split)

theorem State.tryCommit_keeps {z : State} (s : State) (e : Nat) (h_s : Machine.Keeps z s) : Machine.Keeps z (State.tryCommit s e) := by
  unfold State.tryCommit
  try dsimp only
  repeat' (first | with_reducible (first | assumption | apply ite_some_imp | intro _ | apply State.beginCommit_keeps | apply State.commitMove_keeps | apply State.moveDone_keeps | apply State.moveRequest_keeps | apply State.noteFeedBw_keeps | apply State.updAms_keeps | apply keeps_ite) | simp only [keeps_mk_iff] | (refine keeps_snd (by with_reducible assumption) ?_) | (refine keeps_fst (by with_reducible assumption) ?_) | split)

theorem execMoveCommit_keeps {z : State} (ext : Nat) (s : State) (h_s : Machine.Keeps z s) : OutKeeps z (execMoveCommit ext s) := by
  unfold execMoveCommit
  try dsimp only
  repeat' (first | with_reducible (first | assumption | intro _ | apply State.tryCommit_keeps | apply outKeeps_next))

theorem execHomeMapApply_keeps {z : State} (tile ext : Nat) (s : State) (h_s : Machine.Keeps z s) : OutKeeps z (execHomeMapApply tile ext s) := by
  unfold execHomeMapApply
  try dsimp only
  repeat' (first | with_reducible (first | assumption | apply ite_some_imp | intro _ | apply onTile_keeps | apply State.updAms_keeps) | simp only [keeps_mk_iff] | with_reducible apply outKeeps_next | (refine keeps_snd (by with_reducible assumption) ?_) | (refine keeps_fst (by with_reducible assumption) ?_) | split)

theorem execForwardToHome_keeps {z : State} (id : Nat) (s : State) (h_s : Machine.Keeps z s) : OutKeeps z (execForwardToHome id s) := by
  unfold execForwardToHome
  try dsimp only
  repeat' (first | with_reducible (first | assumption | apply ite_some_imp | intro _ | apply State.updPortion_keeps | apply keeps_id | apply keeps_ite) | simp only [keeps_mk_iff] | with_reducible apply outKeeps_next | with_reducible apply outKeeps_ite | (refine keeps_snd (by with_reducible assumption) ?_) | (refine keeps_fst (by with_reducible assumption) ?_) | split)

theorem State.recAbandoned_keeps {z : State} (s : State) (e order : Nat) (h_s : Machine.Keeps z s) : Machine.Keeps z (State.recAbandoned s e order) := by
  unfold State.recAbandoned
  try dsimp only
  repeat' (first | with_reducible (first | assumption | intro _ | apply State.evRec_keeps))

theorem State.abandonMoves_keeps {z : State} (s : State) (h_s : Machine.Keeps z s) : Machine.Keeps z (State.abandonMoves s) := by
  unfold State.abandonMoves
  try dsimp only
  repeat' (first | with_reducible (first | assumption | intro _ | apply State.dropMove_keeps | apply State.mirrorItem_keeps | apply State.moveResult_keeps | apply State.recAbandoned_keeps | apply State.updAms_keeps | apply keeps_foldl | apply keeps_foldl_snd | apply keeps_foldl_fst | apply keeps_ite) | simp only [keeps_mk_iff] | split)

theorem State.reissueOrders_keeps {z : State} (s : State) (h_s : Machine.Keeps z s) : Machine.Keeps z (State.reissueOrders s) := by
  unfold State.reissueOrders
  try dsimp only
  repeat' (first | with_reducible (first | assumption | intro _ | apply State.issue_keeps | apply keeps_foldl | apply keeps_foldl_snd | apply keeps_foldl_fst | apply keeps_id) | simp only [keeps_mk_iff])

theorem cmdTierQuery_keeps  : (cmdTierQuery).Keeps := by
  intro z k pl s h
  unfold cmdTierQuery
  try unfold actCmd
  try unfold readCmd
  try unfold mirCmd
  try dsimp only
  repeat' (first | with_reducible (first | assumption | intro _ | apply readCmd_keeps | apply CmdOut.reply_keeps | apply keeps_ite) | simp only [keeps_mk_iff] | exact readCmd_keeps | with_reducible apply Cmd.out_keeps | with_reducible apply CmdOut.s_keeps | with_reducible apply CmdOut.after_keeps | with_reducible apply CmdOut.ite_keeps | simp only [CmdOut.mk_keeps_iff] | simp only [Cmd.mk_keeps_iff] | with_reducible apply And.intro | split)

theorem cmdHomeQuery_keeps  : (cmdHomeQuery).Keeps := by
  intro z k pl s h
  unfold cmdHomeQuery
  try unfold actCmd
  try unfold readCmd
  try unfold mirCmd
  try dsimp only
  repeat' (first | with_reducible (first | assumption | intro _ | apply readCmd_keeps | apply CmdOut.reply_keeps | apply keeps_getD) | simp only [keeps_mk_iff] | exact readCmd_keeps | with_reducible apply Cmd.out_keeps | with_reducible apply CmdOut.s_keeps | with_reducible apply CmdOut.after_keeps | simp only [CmdOut.mk_keeps_iff] | simp only [Cmd.mk_keeps_iff] | with_reducible apply And.intro | (refine keeps_snd (by with_reducible assumption) ?_) | (refine keeps_fst (by with_reducible assumption) ?_) | split)

theorem cmdMoveExtents_keeps  : (cmdMoveExtents).Keeps := by
  intro z k pl s h
  unfold cmdMoveExtents
  try unfold actCmd
  try unfold readCmd
  try unfold mirCmd
  try dsimp only
  repeat' (first | with_reducible (first | assumption | intro _ | apply CmdOut.done_keeps | apply State.issue_keeps | apply mirCmd_keeps | apply keeps_foldl | apply keeps_foldl_snd | apply keeps_foldl_fst | apply keeps_getD) | simp only [keeps_mk_iff] | exact mirCmd_keeps | with_reducible apply Cmd.out_keeps | with_reducible apply CmdOut.s_keeps | with_reducible apply CmdOut.after_keeps | simp only [CmdOut.mk_keeps_iff] | simp only [Cmd.mk_keeps_iff] | with_reducible apply And.intro | (refine keeps_snd (by with_reducible assumption) ?_) | (refine keeps_fst (by with_reducible assumption) ?_) | split)

theorem cmdMoveCancel_keeps  : (cmdMoveCancel).Keeps := by
  intro z k pl s h
  unfold cmdMoveCancel
  try unfold actCmd
  try unfold readCmd
  try unfold mirCmd
  try dsimp only
  repeat' (first | with_reducible (first | assumption | intro _ | apply State.cancelMove_keeps | apply CmdOut.done_keeps | apply mirCmd_keeps | apply keeps_foldl | apply keeps_foldl_snd | apply keeps_foldl_fst | apply keeps_ite) | simp only [keeps_mk_iff] | exact mirCmd_keeps | with_reducible apply Cmd.out_keeps | with_reducible apply CmdOut.s_keeps | with_reducible apply CmdOut.after_keeps | with_reducible apply CmdOut.ite_keeps | simp only [CmdOut.mk_keeps_iff] | simp only [Cmd.mk_keeps_iff] | with_reducible apply And.intro | (refine keeps_snd (by with_reducible assumption) ?_) | (refine keeps_fst (by with_reducible assumption) ?_) | split)

theorem cmdMoveStatus_keeps  : (cmdMoveStatus).Keeps := by
  intro z k pl s h
  unfold cmdMoveStatus
  try unfold actCmd
  try unfold readCmd
  try unfold mirCmd
  try dsimp only
  repeat' (first | with_reducible (first | assumption | apply ite_some_imp | intro _ | apply readCmd_keeps | apply CmdOut.reply_keeps | apply keeps_getD | apply keeps_ite) | simp only [keeps_mk_iff] | exact readCmd_keeps | with_reducible apply Cmd.out_keeps | with_reducible apply CmdOut.s_keeps | with_reducible apply CmdOut.after_keeps | with_reducible apply CmdOut.ite_keeps | simp only [CmdOut.mk_keeps_iff] | simp only [Cmd.mk_keeps_iff] | with_reducible apply And.intro | (refine keeps_snd (by with_reducible assumption) ?_) | (refine keeps_fst (by with_reducible assumption) ?_) | split)

theorem execTierQuery_keeps {z : State} (f : Frame) (s : State) (h_s : Machine.Keeps z s) : OutKeeps z (execTierQuery f s) := by
  unfold execTierQuery
  try dsimp only
  repeat' (first | with_reducible (first | assumption | intro _ | apply cmdTierQuery_keeps | apply mailbox_keeps) | exact cmdTierQuery_keeps | with_reducible apply outKeeps_next)

theorem execHomeQuery_keeps {z : State} (f : Frame) (s : State) (h_s : Machine.Keeps z s) : OutKeeps z (execHomeQuery f s) := by
  unfold execHomeQuery
  try dsimp only
  repeat' (first | with_reducible (first | assumption | intro _ | apply cmdHomeQuery_keeps | apply mailbox_keeps) | exact cmdHomeQuery_keeps | with_reducible apply outKeeps_next)

theorem execMoveExtents_keeps {z : State} (f : Frame) (s : State) (h_s : Machine.Keeps z s) : OutKeeps z (execMoveExtents f s) := by
  unfold execMoveExtents
  try dsimp only
  repeat' (first | with_reducible (first | assumption | intro _ | apply cmdMoveExtents_keeps | apply mailbox_keeps) | exact cmdMoveExtents_keeps | with_reducible apply outKeeps_next)

theorem execMoveCancel_keeps {z : State} (f : Frame) (s : State) (h_s : Machine.Keeps z s) : OutKeeps z (execMoveCancel f s) := by
  unfold execMoveCancel
  try dsimp only
  repeat' (first | with_reducible (first | assumption | intro _ | apply cmdMoveCancel_keeps | apply mailbox_keeps) | exact cmdMoveCancel_keeps | with_reducible apply outKeeps_next)

theorem execMoveStatus_keeps {z : State} (f : Frame) (s : State) (h_s : Machine.Keeps z s) : OutKeeps z (execMoveStatus f s) := by
  unfold execMoveStatus
  try dsimp only
  repeat' (first | with_reducible (first | assumption | intro _ | apply cmdMoveStatus_keeps | apply mailbox_keeps) | exact cmdMoveStatus_keeps | with_reducible apply outKeeps_next)

end Sys2Proof.Machine
end

