-- ==== Sys2Proof/Laws/KeepCache.lean ====
section
/-! SUPPORT. What no command changes is kept by every function of `Machine/Cache.lean`. -/

set_option linter.all false

namespace Sys2Proof.Machine

theorem State.cacheTo_keeps {z : State} (s : State) (t : Nat) (c : CState) (h_s : Machine.Keeps z s) : Machine.Keeps z (State.cacheTo s t c) := by
  unfold State.cacheTo
  try dsimp only
  repeat' (first | with_reducible (first | assumption | intro _ | apply State.setF_keeps))

theorem State.cachePoison_keeps {z : State} (s : State) (r : CRange) (h_s : Machine.Keeps z s) : Machine.Keeps z (State.cachePoison s r) := by
  unfold State.cachePoison
  try dsimp only
  repeat' (first | with_reducible (first | assumption | intro _ | apply State.bump_keeps | apply State.drainEvb_keeps | apply State.evRec_keeps | apply State.evict_keeps | apply State.poisonPage_keeps | apply keeps_ite) | split)

theorem State.cacheEcc_keeps {z : State} (s : State) (r : CRange) (e : CacheErr) (h_s : Machine.Keeps z s) : Machine.Keeps z (State.cacheEcc s r e) := by
  unfold State.cacheEcc
  try dsimp only
  repeat' (first | with_reducible (first | assumption | intro _ | apply State.bump_keeps | apply State.cachePoison_keeps | apply State.enterFault_keeps | apply State.ev_keeps | apply State.updCache_keeps | apply keeps_ite) | simp only [keeps_mk_iff] | split)

theorem State.issueMiss_keeps {z : State} (s : State) (h : Home) (m : MissEntry) (h_s : Machine.Keeps z s) : Machine.Keeps z (State.issueMiss s h m) := by
  unfold State.issueMiss
  try dsimp only
  repeat' (first | with_reducible (first | assumption | apply ite_some_imp | intro _) | (refine State.allocWay_keeps (by with_reducible assumption) ?_ ) | with_reducible apply State.evbStall_keeps | with_reducible apply State.fetchHome_keeps | with_reducible apply State.markPanic_keeps | with_reducible apply State.updCache_keeps | with_reducible apply keeps_ite | simp only [keeps_mk_iff] | (refine keeps_snd (by with_reducible assumption) ?_) | (refine keeps_fst (by with_reducible assumption) ?_) | split)

theorem State.miss_keeps {z : State} (s : State) (h : Home) (m : MissEntry) (h_s : Machine.Keeps z s) : Machine.Keeps z (State.miss s h m) := by
  unfold State.miss
  try dsimp only
  repeat' (first | with_reducible (first | assumption | apply ite_some_imp | intro _ | apply State.issueMiss_keeps | apply State.markPanic_keeps | apply State.updCache_keeps | apply keeps_ite) | simp only [keeps_mk_iff] | (refine keeps_snd (by with_reducible assumption) ?_) | (refine keeps_fst (by with_reducible assumption) ?_) | split)

theorem State.pumpMisses_keeps {z : State} (s : State) (t : Nat) (h_s : Machine.Keeps z s) : Machine.Keeps z (State.pumpMisses s t) := by
  unfold State.pumpMisses
  try dsimp only
  repeat' (first | with_reducible (first | assumption | apply ite_some_imp | intro _ | apply State.miss_keeps | apply State.serve_keeps | apply State.updCache_keeps | apply keeps_foldl | apply keeps_foldl_snd | apply keeps_foldl_fst | apply keeps_ite) | simp only [keeps_mk_iff] | (refine keeps_snd (by with_reducible assumption) ?_) | (refine keeps_fst (by with_reducible assumption) ?_) | split)

theorem State.lookup_keeps {z : State} (s : State) (t n : Nat) (stream panic : Bool) (e : CacheErr) (h_s : Machine.Keeps z s) : Machine.Keeps z (State.lookup s t n stream panic e) := by
  unfold State.lookup
  try dsimp only
  repeat' (first | with_reducible (first | assumption | apply ite_some_imp | intro _ | apply State.bump_keeps | apply State.cacheEcc_keeps | apply State.miss_keeps | apply State.touchWay_keeps | apply keeps_ite) | simp only [keeps_mk_iff] | (refine keeps_snd (by with_reducible assumption) ?_) | (refine keeps_fst (by with_reducible assumption) ?_) | split)

theorem execCacheLookup_keeps {z : State} (tile n : Nat) (stream panic : Bool) (data tag : Nat) (s : State) (h_s : Machine.Keeps z s) : OutKeeps z (execCacheLookup tile n stream panic data tag s) := by
  unfold execCacheLookup
  try dsimp only
  repeat' (first | with_reducible (first | assumption | intro _ | apply State.lookup_keeps | apply onTile_keeps | apply State.pumpMisses_keeps) | simp only [keeps_mk_iff] | with_reducible apply outKeeps_next)

theorem execCacheFill_keeps {z : State} (tile n : Nat) (s : State) (h_s : Machine.Keeps z s) : OutKeeps z (execCacheFill tile n s) := by
  unfold execCacheFill
  try dsimp only
  repeat' (first | with_reducible (first | assumption | apply ite_some_imp | intro _ | apply State.fillEntry_keeps | apply onTile_keeps | apply State.pumpMisses_keeps) | simp only [keeps_mk_iff] | with_reducible apply outKeeps_next | (refine keeps_snd (by with_reducible assumption) ?_) | (refine keeps_fst (by with_reducible assumption) ?_) | split)

theorem State.evbStep_keeps {z : State} (s : State) (t : Nat) (h_s : Machine.Keeps z s) : Machine.Keeps z (State.evbStep s t) := by
  unfold State.evbStep
  try dsimp only
  repeat' (first | with_reducible (first | assumption | apply ite_some_imp | intro _ | apply State.evict_keeps | apply State.pumpMisses_keeps | apply State.writeBack_keeps | apply keeps_ite) | simp only [keeps_mk_iff] | (refine keeps_snd (by with_reducible assumption) ?_) | (refine keeps_fst (by with_reducible assumption) ?_) | split)

theorem execEvbWriteback_keeps {z : State} (tile : Nat) (s : State) (h_s : Machine.Keeps z s) : OutKeeps z (execEvbWriteback tile s) := by
  unfold execEvbWriteback
  try dsimp only
  repeat' (first | with_reducible (first | assumption | intro _ | apply State.evbStep_keeps | apply onTile_keeps | apply outKeeps_next))

theorem State.answerMaint_keeps {z : State} (s : State) (h_s : Machine.Keeps z s) : Machine.Keeps z (State.answerMaint s) := by
  unfold State.answerMaint
  try dsimp only
  repeat' (first | with_reducible (first | assumption | intro _ | apply State.finishWait_keeps | apply keeps_foldl | apply keeps_foldl_snd | apply keeps_foldl_fst))

theorem State.maintStep_keeps {z : State} (s : State) (t op : Nat) (h_s : Machine.Keeps z s) : Machine.Keeps z (State.maintStep s t op) := by
  unfold State.maintStep
  try dsimp only
  repeat' (first | with_reducible (first | assumption | apply ite_some_imp | intro _ | apply State.answerMaint_keeps | apply State.pumpMisses_keeps | apply State.runMaint_keeps) | simp only [keeps_mk_iff] | (refine keeps_snd (by with_reducible assumption) ?_) | (refine keeps_fst (by with_reducible assumption) ?_) | split)

theorem execClean_keeps {z : State} (tile : Nat) (s : State) (h_s : Machine.Keeps z s) : OutKeeps z (execClean tile s) := by
  unfold execClean
  try dsimp only
  repeat' (first | with_reducible (first | assumption | intro _ | apply State.maintStep_keeps | apply onTile_keeps | apply outKeeps_next))

theorem execInvalidate_keeps {z : State} (tile : Nat) (s : State) (h_s : Machine.Keeps z s) : OutKeeps z (execInvalidate tile s) := by
  unfold execInvalidate
  try dsimp only
  repeat' (first | with_reducible (first | assumption | intro _ | apply State.maintStep_keeps | apply onTile_keeps | apply outKeeps_next))

theorem State.beginMaint_keeps {z : State} (s : State) (t op n k asker : Nat) (h_s : Machine.Keeps z s) : Machine.Keeps z (State.beginMaint s t op n k asker) := by
  unfold State.beginMaint
  try dsimp only
  repeat' (first | with_reducible (first | assumption | intro _ | apply State.updCache_keeps | apply keeps_id) | simp only [keeps_mk_iff])

theorem State.maintWrite_keeps {z : State} (s : State) (t scope op : Nat) (h_s : Machine.Keeps z s) : Machine.Keeps z (State.maintWrite s t scope op) := by
  unfold State.maintWrite
  try dsimp only
  repeat' (first | with_reducible (first | assumption | intro _ | apply State.beginMaint_keeps | apply State.ev_keeps | apply State.setF_keeps | apply keeps_ite) | split)

theorem State.cacheOff_keeps {z : State} (s : State) (t : Nat) (h_s : Machine.Keeps z s) : Machine.Keeps z (State.cacheOff s t) := by
  unfold State.cacheOff
  try dsimp only
  repeat' (first | with_reducible (first | assumption | intro _ | apply State.cacheTo_keeps | apply State.evRec_keeps | apply State.updCache_keeps) | simp only [keeps_mk_iff])

theorem State.drainCache_keeps {z : State} (s : State) (t : Nat) (c : CState) (h_s : Machine.Keeps z s) : Machine.Keeps z (State.drainCache s t c) := by
  unfold State.drainCache
  try dsimp only
  repeat' (first | with_reducible (first | assumption | intro _ | apply State.cacheTo_keeps | apply State.updCache_keeps) | simp only [keeps_mk_iff])

theorem State.enWrite_keeps {z : State} (s : State) (t : Nat) (on : Bool) (h_s : Machine.Keeps z s) : Machine.Keeps z (State.enWrite s t on) := by
  unfold State.enWrite
  try dsimp only
  repeat' (first | with_reducible (first | assumption | intro _ | apply State.cacheOff_keeps | apply State.cacheTo_keeps | apply State.drainCache_keeps | apply State.setF_keeps | apply keeps_ite) | split)

theorem onTiles_keeps {z : State} (t : Nat) (s : State) (f : Nat → State → State) (h_s : Machine.Keeps z s) (h_f : ∀ a0 a1, Machine.Keeps z a1 → Machine.Keeps z (f a0 a1)) : OutKeeps z (onTiles t s f) := by
  unfold onTiles
  try dsimp only
  repeat' (first | with_reducible (first | assumption | intro _ | apply h_f | apply State.allTiles_keeps | apply onTile_keeps | apply keeps_ite | apply outKeeps_next | apply outKeeps_ite) | split)

theorem execTchEnWrite_keeps {z : State} (tile : Nat) (en : Bool) (s : State) (h_s : Machine.Keeps z s) : OutKeeps z (execTchEnWrite tile en s) := by
  unfold execTchEnWrite
  try dsimp only
  repeat' (first | with_reducible (first | assumption | intro _ | apply State.enWrite_keeps | apply onTiles_keeps | apply outKeeps_next))

theorem execCacheDrainDone_keeps {z : State} (tile : Nat) (s : State) (h_s : Machine.Keeps z s) : OutKeeps z (execCacheDrainDone tile s) := by
  unfold execCacheDrainDone
  try dsimp only
  repeat' (first | with_reducible (first | assumption | intro _ | apply State.cacheOff_keeps | apply onTile_keeps | apply keeps_ite | apply outKeeps_next | apply outKeeps_ite) | split)

theorem State.wayRefused_keeps {z : State} (s : State) (t v : Nat) (h_s : Machine.Keeps z s) : Machine.Keeps z (State.wayRefused s t v) := by
  unfold State.wayRefused
  try dsimp only
  repeat' (first | with_reducible (first | assumption | intro _ | apply State.evRec_keeps))

theorem State.pwrWrite_keeps {z : State} (s : State) (t v : Nat) (h_s : Machine.Keeps z s) : Machine.Keeps z (State.pwrWrite s t v) := by
  unfold State.pwrWrite
  try dsimp only
  repeat' (first | with_reducible (first | assumption | intro _ | apply State.setF_keeps | apply State.wayRefused_keeps | apply keeps_ite) | split)

theorem State.classWrite_keeps {z : State} (s : State) (t v : Nat) (h_s : Machine.Keeps z s) : Machine.Keeps z (State.classWrite s t v) := by
  unfold State.classWrite
  try dsimp only
  repeat' (first | with_reducible (first | assumption | intro _ | apply State.setF_keeps | apply State.wayRefused_keeps | apply keeps_ite) | split)

theorem execTchWaypwrWrite_keeps {z : State} (tile value : Nat) (s : State) (h_s : Machine.Keeps z s) : OutKeeps z (execTchWaypwrWrite tile value s) := by
  unfold execTchWaypwrWrite
  try dsimp only
  repeat' (first | with_reducible (first | assumption | intro _ | apply onTiles_keeps | apply State.pwrWrite_keeps | apply outKeeps_next))

theorem execTchWayclassWrite_keeps {z : State} (tile value : Nat) (s : State) (h_s : Machine.Keeps z s) : OutKeeps z (execTchWayclassWrite tile value s) := by
  unfold execTchWayclassWrite
  try dsimp only
  repeat' (first | with_reducible (first | assumption | intro _ | apply State.classWrite_keeps | apply onTiles_keeps | apply outKeeps_next))

theorem State.cleanWay_keeps {z : State} (s : State) (t w : Nat) (h_s : Machine.Keeps z s) : Machine.Keeps z (State.cleanWay s t w) := by
  unfold State.cleanWay
  try dsimp only
  repeat' (first | with_reducible (first | assumption | intro _ | apply State.drainEvb_keeps | apply State.evict_keeps | apply keeps_foldl | apply keeps_foldl_snd | apply keeps_foldl_fst | apply keeps_ite) | split)

theorem execWayCleanDone_keeps {z : State} (tile way : Nat) (s : State) (h_s : Machine.Keeps z s) : OutKeeps z (execWayCleanDone tile way s) := by
  unfold execWayCleanDone
  try dsimp only
  repeat' (first | with_reducible (first | assumption | intro _ | apply State.cleanWay_keeps | apply State.evRec_keeps | apply onUnit_keeps | apply State.setF_keeps | apply keeps_ite | apply outKeeps_next | apply outKeeps_ite) | split)

theorem execWayPowerUpDone_keeps {z : State} (tile way : Nat) (s : State) (h_s : Machine.Keeps z s) : OutKeeps z (execWayPowerUpDone tile way s) := by
  unfold execWayPowerUpDone
  try dsimp only
  repeat' (first | with_reducible (first | assumption | intro _ | apply onUnit_keeps | apply State.setF_keeps | apply keeps_ite | apply outKeeps_next | apply outKeeps_ite) | split)

theorem State.beginRepart_keeps {z : State} (s : State) (t n : Nat) (h_s : Machine.Keeps z s) : Machine.Keeps z (State.beginRepart s t n) := by
  unfold State.beginRepart
  try dsimp only
  repeat' (first | with_reducible (first | assumption | intro _ | apply State.drainCache_keeps | apply State.updCache_keeps) | simp only [keeps_mk_iff])

theorem execRepartitionDone_keeps {z : State} (tile : Nat) (s : State) (h_s : Machine.Keeps z s) : OutKeeps z (execRepartitionDone tile s) := by
  unfold execRepartitionDone
  try dsimp only
  repeat' (first | with_reducible (first | assumption | apply ite_some_imp | intro _ | apply State.cacheTo_keeps | apply onTile_keeps | apply State.setF_keeps | apply State.updCache_keeps | apply State.wipe_keeps | apply keeps_ite) | simp only [keeps_mk_iff] | with_reducible apply outKeeps_next | with_reducible apply outKeeps_ite | (refine keeps_snd (by with_reducible assumption) ?_) | (refine keeps_fst (by with_reducible assumption) ?_) | split)

theorem cmdNearSizeSet_keeps  : (cmdNearSizeSet).Keeps := by
  intro z k pl s h
  unfold cmdNearSizeSet
  try unfold actCmd
  try unfold readCmd
  try unfold mirCmd
  try dsimp only
  repeat' (first | with_reducible (first | assumption | intro _ | apply actCmd_keeps | apply State.allTiles_keeps | apply State.beginRepart_keeps | apply State.config_keeps | apply CmdOut.done_keeps | apply State.setCfg_keeps | apply keeps_ite) | simp only [keeps_mk_iff] | exact actCmd_keeps | with_reducible apply Cmd.out_keeps | with_reducible apply CmdOut.s_keeps | with_reducible apply CmdOut.after_keeps | with_reducible apply CmdOut.ite_keeps | simp only [CmdOut.mk_keeps_iff] | simp only [Cmd.mk_keeps_iff] | with_reducible apply And.intro | (refine keeps_snd (by with_reducible assumption) ?_) | (refine keeps_fst (by with_reducible assumption) ?_) | split)

theorem State.stopCache_keeps {z : State} (s : State) (t : Nat) (h_s : Machine.Keeps z s) : Machine.Keeps z (State.stopCache s t) := by
  unfold State.stopCache
  try dsimp only
  repeat' (first | with_reducible (first | assumption | intro _ | apply State.cacheTo_keeps | apply State.updCache_keeps | apply State.writeBack_keeps | apply keeps_foldl | apply keeps_foldl_snd | apply keeps_foldl_fst) | simp only [keeps_mk_iff])

theorem State.startCache_keeps {z : State} (s : State) (t : Nat) (h_s : Machine.Keeps z s) : Machine.Keeps z (State.startCache s t) := by
  unfold State.startCache
  try dsimp only
  repeat' (first | with_reducible (first | assumption | intro _ | apply State.cacheTo_keeps | apply State.setF_keeps | apply State.updCache_keeps | apply keeps_ite) | simp only [keeps_mk_iff] | split)

theorem cmdCacheStatus_keeps  : (cmdCacheStatus).Keeps := by
  intro z k pl s h
  unfold cmdCacheStatus
  try unfold actCmd
  try unfold readCmd
  try unfold mirCmd
  try dsimp only
  repeat' (first | with_reducible (first | assumption | intro _ | apply readCmd_keeps | apply CmdOut.reply_keeps) | simp only [keeps_mk_iff] | exact readCmd_keeps | with_reducible apply Cmd.out_keeps | with_reducible apply CmdOut.s_keeps | with_reducible apply CmdOut.after_keeps | simp only [CmdOut.mk_keeps_iff] | simp only [Cmd.mk_keeps_iff] | with_reducible apply And.intro)

theorem State.cacheConfig_keeps {z u : State} {s : State} {t en na cls pwr : Nat} (e : State.cacheConfig s t en na cls pwr = some u) (h_s : Machine.Keeps z s) : Machine.Keeps z u := by
  unfold State.cacheConfig at e
  revert e
  try dsimp only
  repeat' (first | (refine fun (e : _ = _) => ?_; cases e; done) | (refine fun (e : _ = _) => ?_; cases e) | split | (refine fun (e : _ = _) => ?_; simp only [Option.map_eq_some_iff] at e; obtain ⟨_, _, e⟩ := e; cases e) | with_reducible (first | assumption | apply ite_some_imp | intro _ | apply State.classWrite_keeps | apply State.enWrite_keeps | apply State.pwrWrite_keeps | apply State.setCfg_keeps | apply State.setF_keeps | apply keeps_ite) | split)

theorem cmdCacheConfig_keeps  : (cmdCacheConfig).Keeps := by
  intro z k pl s h
  unfold cmdCacheConfig
  try unfold actCmd
  try unfold readCmd
  try unfold mirCmd
  try dsimp only
  repeat' (first | with_reducible (first | assumption | apply ite_some_imp | intro _ | apply actCmd_keeps) | (refine State.cacheConfig_keeps (by with_reducible assumption) ?_ ) | with_reducible apply State.config_keeps | with_reducible apply CmdOut.done_keeps | with_reducible apply keeps_foldl | with_reducible apply keeps_foldl_snd | with_reducible apply keeps_foldl_fst | (refine keeps_foldl_bind ?_ (by assumption) ?_) | simp only [keeps_mk_iff] | exact actCmd_keeps | with_reducible apply Cmd.out_keeps | with_reducible apply CmdOut.s_keeps | with_reducible apply CmdOut.after_keeps | simp only [CmdOut.mk_keeps_iff] | simp only [Cmd.mk_keeps_iff] | with_reducible apply And.intro | (refine keeps_snd (by with_reducible assumption) ?_) | (refine keeps_fst (by with_reducible assumption) ?_) | split)

theorem State.beginMaints_keeps {z : State} (s : State) (a n op asker : Nat) (h_s : Machine.Keeps z s) : Machine.Keeps z (State.beginMaints s a n op asker) := by
  unfold State.beginMaints
  try dsimp only
  repeat' (first | with_reducible (first | assumption | intro _ | apply State.beginMaint_keeps | apply keeps_foldl | apply keeps_foldl_snd | apply keeps_foldl_fst))

theorem cmdCacheMaint_keeps  : (cmdCacheMaint).Keeps := by
  intro z k pl s h
  unfold cmdCacheMaint
  try unfold actCmd
  try unfold readCmd
  try unfold mirCmd
  try dsimp only
  repeat' (first | with_reducible (first | assumption | intro _ | apply actCmd_keeps | apply State.beginMaints_keeps | apply State.config_keeps | apply CmdOut.done_keeps | apply State.runMaint_keeps | apply keeps_foldl | apply keeps_foldl_snd | apply keeps_foldl_fst | apply keeps_id | apply keeps_ite) | simp only [keeps_mk_iff] | exact actCmd_keeps | with_reducible apply Cmd.out_keeps | with_reducible apply CmdOut.s_keeps | with_reducible apply CmdOut.after_keeps | with_reducible apply CmdOut.ite_keeps | simp only [CmdOut.mk_keeps_iff] | simp only [Cmd.mk_keeps_iff] | with_reducible apply And.intro | (refine keeps_snd (by with_reducible assumption) ?_) | (refine keeps_fst (by with_reducible assumption) ?_) | split)

theorem execNearSizeSet_keeps {z : State} (f : Frame) (s : State) (h_s : Machine.Keeps z s) : OutKeeps z (execNearSizeSet f s) := by
  unfold execNearSizeSet
  try dsimp only
  repeat' (first | with_reducible (first | assumption | intro _ | apply cmdNearSizeSet_keeps | apply mailbox_keeps) | exact cmdNearSizeSet_keeps | with_reducible apply outKeeps_next)

theorem execCacheStatus_keeps {z : State} (f : Frame) (s : State) (h_s : Machine.Keeps z s) : OutKeeps z (execCacheStatus f s) := by
  unfold execCacheStatus
  try dsimp only
  repeat' (first | with_reducible (first | assumption | intro _ | apply cmdCacheStatus_keeps | apply mailbox_keeps) | exact cmdCacheStatus_keeps | with_reducible apply outKeeps_next)

theorem execCacheConfig_keeps {z : State} (f : Frame) (s : State) (h_s : Machine.Keeps z s) : OutKeeps z (execCacheConfig f s) := by
  unfold execCacheConfig
  try dsimp only
  repeat' (first | with_reducible (first | assumption | intro _ | apply cmdCacheConfig_keeps | apply mailbox_keeps) | exact cmdCacheConfig_keeps | with_reducible apply outKeeps_next)

theorem execCacheMaint_keeps {z : State} (f : Frame) (s : State) (h_s : Machine.Keeps z s) : OutKeeps z (execCacheMaint f s) := by
  unfold execCacheMaint
  try dsimp only
  repeat' (first | with_reducible (first | assumption | intro _ | apply cmdCacheMaint_keeps | apply mailbox_keeps) | exact cmdCacheMaint_keeps | with_reducible apply outKeeps_next)

end Sys2Proof.Machine
end

