-- ==== Sys2Proof/Laws/KeepWindows.lean ====
section
/-! SUPPORT. What no command changes is kept by every function of `Machine/Windows.lean`. -/

set_option linter.all false

namespace Sys2Proof.Machine

theorem State.keepIdle_keeps {z : State} (s : State) (t : Nat) (h_s : Machine.Keeps z s) : Machine.Keeps z (State.keepIdle s t) := by
  unfold State.keepIdle
  try dsimp only
  repeat' (first | with_reducible (first | assumption | intro _ | apply State.updNet_keeps) | simp only [keeps_mk_iff])

theorem State.rebook_keeps {z : State} (s : State) (t : Nat) (h_s : Machine.Keeps z s) : Machine.Keeps z (State.rebook s t) := by
  unfold State.rebook
  try dsimp only
  repeat' (first | with_reducible (first | assumption | intro _ | apply State.ev_keeps | apply State.keepIdle_keeps | apply State.setFs_keeps | apply keeps_ite) | split)

theorem State.flow_keeps {z : State} (s : State) (t : Nat) (h_s : Machine.Keeps z s) : Machine.Keeps z (State.flow s t) := by
  unfold State.flow
  try dsimp only
  repeat' (first | with_reducible (first | assumption | intro _ | apply State.bump_keeps | apply State.send_keeps | apply State.setF_keeps | apply keeps_foldl | apply keeps_foldl_snd | apply keeps_foldl_fst | apply keeps_ite) | split)

theorem State.fetchCtx_keeps {z : State} (s : State) (n : Nat) (h_s : Machine.Keeps z s) : Machine.Keeps z (State.fetchCtx s n) := by
  unfold State.fetchCtx
  try dsimp only
  repeat' (first | with_reducible (first | assumption | apply ite_some_imp | intro _ | apply State.bump_keeps | apply State.updQp_keeps | apply keeps_ite) | simp only [keeps_mk_iff] | (refine keeps_snd (by with_reducible assumption) ?_) | (refine keeps_fst (by with_reducible assumption) ?_) | split)

theorem State.sendWindow_keeps {z : State} (s : State) (n : Nat) (h_s : Machine.Keeps z s) : Machine.Keeps z (State.sendWindow s n) := by
  unfold State.sendWindow
  try dsimp only
  repeat' (first | with_reducible (first | assumption | apply ite_some_imp | intro _ | apply State.request_keeps | apply keeps_ite) | simp only [keeps_mk_iff] | (refine keeps_snd (by with_reducible assumption) ?_) | (refine keeps_fst (by with_reducible assumption) ?_) | split)

theorem State.setWindow_keeps {z : State} (s : State) (n w : Nat) (active : Bool) (h_s : Machine.Keeps z s) : Machine.Keeps z (State.setWindow s n w active) := by
  unfold State.setWindow
  try dsimp only
  repeat' (first | with_reducible (first | assumption | apply ite_some_imp | intro _ | apply State.mirrorQp_keeps | apply State.sendWindow_keeps | apply State.updQp_keeps | apply keeps_ite) | simp only [keeps_mk_iff] | (refine keeps_snd (by with_reducible assumption) ?_) | (refine keeps_fst (by with_reducible assumption) ?_) | split)

theorem State.windows_keeps {z : State} (s : State) (tile : Nat) (h_s : Machine.Keeps z s) : Machine.Keeps z (State.windows s tile) := by
  unfold State.windows
  try dsimp only
  repeat' (first | with_reducible (first | assumption | intro _ | apply State.rebook_keeps | apply State.setF_keeps | apply State.setWindow_keeps | apply State.updNet_keeps | apply keeps_foldl | apply keeps_foldl_snd | apply keeps_foldl_fst | apply keeps_ite) | simp only [keeps_mk_iff] | split)

theorem execWindowRecompute_keeps {z : State} (tile : Nat) (s : State) (h_s : Machine.Keeps z s) : OutKeeps z (execWindowRecompute tile s) := by
  unfold execWindowRecompute
  try dsimp only
  repeat' (first | with_reducible (first | assumption | apply ite_some_imp | intro _ | apply onTile_keeps | apply State.windows_keeps | apply keeps_ite) | simp only [keeps_mk_iff] | with_reducible apply outKeeps_next | with_reducible apply outKeeps_ite | (refine keeps_snd (by with_reducible assumption) ?_) | (refine keeps_fst (by with_reducible assumption) ?_) | split)

theorem execBufBooksCheck_keeps {z : State} (tile : Nat) (s : State) (h_s : Machine.Keeps z s) : OutKeeps z (execBufBooksCheck tile s) := by
  unfold execBufBooksCheck
  try dsimp only
  repeat' (first | with_reducible (first | assumption | intro _ | apply State.evRec_keeps | apply onTile_keeps | apply State.rebook_keeps | apply keeps_getD | apply keeps_ite | apply outKeeps_next | apply outKeeps_ite) | split)

theorem execContextFetch_keeps {z : State} (qpn : Nat) (s : State) (h_s : Machine.Keeps z s) : OutKeeps z (execContextFetch qpn s) := by
  unfold execContextFetch
  try dsimp only
  repeat' (first | with_reducible (first | assumption | intro _ | apply State.fetchCtx_keeps | apply outKeeps_next))

end Sys2Proof.Machine
end

