-- ==== Sys2Proof/Laws/KeepTransport.lean ====
section
/-! SUPPORT. What no command changes is kept by every function of `Machine/Transport.lean`. -/

set_option linter.all false

namespace Sys2Proof.Machine

theorem State.sendRead_keeps {z : State} (s : State) (q : Qp) (psn a n : Nat) (h_s : Machine.Keeps z s) : Machine.Keeps z (State.sendRead s q psn a n) := by
  unfold State.sendRead
  try dsimp only
  repeat' (first | with_reducible (first | assumption | intro _ | apply State.packet_keeps | apply State.readAms_keeps | apply keeps_foldl | apply keeps_foldl_snd | apply keeps_foldl_fst | apply keeps_ite) | simp only [keeps_mk_iff] | (refine keeps_snd (by with_reducible assumption) ?_) | (refine keeps_fst (by with_reducible assumption) ?_) | split)

theorem State.ackGo_keeps {z : State} (s : State) (n : Nat) (i0 : Nat) (i1 : Option Nat) (h_s : Machine.Keeps z s) : Machine.Keeps z (State.ackGo s n i0 i1) := by
  induction i0 generalizing s i1 with
  | zero => exact h_s
  | succ k ih =>
    unfold State.ackGo
    try dsimp only
    repeat' (first | with_reducible assumption | with_reducible intro _ | with_reducible apply ih | with_reducible apply CmdOut.done_keeps | with_reducible apply State.packet_keeps | with_reducible apply State.pend_keeps | with_reducible apply State.probe_keeps | with_reducible apply State.sendRead_keeps | with_reducible apply State.updQp_keeps | with_reducible apply keeps_ite | simp only [keeps_mk_iff] | (refine keeps_snd (by with_reducible assumption) ?_) | (refine keeps_fst (by with_reducible assumption) ?_) | split)

theorem State.ackQp_keeps {z : State} (s : State) (n : Nat) (h_s : Machine.Keeps z s) : Machine.Keeps z (State.ackQp s n) := by
  unfold State.ackQp
  try dsimp only
  repeat' (first | with_reducible (first | assumption | apply ite_some_imp | intro _ | apply State.ackGo_keeps | apply State.flow_keeps | apply State.rebook_keeps | apply keeps_ite) | simp only [keeps_mk_iff] | (refine keeps_snd (by with_reducible assumption) ?_) | (refine keeps_fst (by with_reducible assumption) ?_) | split)

theorem execAckSend_keeps {z : State} (qpn : Nat) (s : State) (h_s : Machine.Keeps z s) : OutKeeps z (execAckSend qpn s) := by
  unfold execAckSend
  try dsimp only
  repeat' (first | with_reducible (first | assumption | intro _ | apply State.ackQp_keeps | apply outKeeps_next))

theorem State.toRts_keeps {z : State} (s : State) (n : Nat) (h_s : Machine.Keeps z s) : Machine.Keeps z (State.toRts s n) := by
  unfold State.toRts
  try dsimp only
  repeat' (first | with_reducible (first | assumption | apply ite_some_imp | intro _ | apply State.mirrorQp_keeps | apply State.sendWindow_keeps | apply State.setF_keeps | apply State.updQp_keeps | apply keeps_ite) | simp only [keeps_mk_iff] | (refine keeps_snd (by with_reducible assumption) ?_) | (refine keeps_fst (by with_reducible assumption) ?_) | split)

theorem State.ecnMark_keeps {z : State} (s : State) (q : Qp) (ecn : Bool) (h_s : Machine.Keeps z s) : Machine.Keeps z (State.ecnMark s q ecn) := by
  unfold State.ecnMark
  try dsimp only
  repeat' (first | with_reducible (first | assumption | apply ite_some_imp | intro _ | apply State.bump_keeps | apply State.packet_keeps | apply State.updQp_keeps | apply keeps_ite) | simp only [keeps_mk_iff] | (refine keeps_snd (by with_reducible assumption) ?_) | (refine keeps_fst (by with_reducible assumption) ?_) | split)

theorem State.landing_keeps {z : State} (s0 : State) (p : Packet) (h_s0 : Machine.Keeps z s0) : Machine.Keeps z (State.landing s0 p).1 := by
  unfold State.landing
  try dsimp only
  repeat' (first | with_reducible (first | assumption | apply ite_some_imp | intro _ | apply State.bump_keeps | apply State.ecnMark_keeps | apply State.ev_keeps | apply State.fetchCtx_keeps | apply State.wakeUp_keeps | apply keeps_ite) | simp only [keeps_mk_iff] | (refine keeps_snd (by with_reducible assumption) ?_) | (refine keeps_fst (by with_reducible assumption) ?_) | split)

theorem State.dupAck_keeps {z : State} (s : State) (q : Qp) (psn : Nat) (h_s : Machine.Keeps z s) : Machine.Keeps z (State.dupAck s q psn) := by
  unfold State.dupAck
  try dsimp only
  repeat' (first | with_reducible (first | assumption | intro _ | apply State.bump_keeps | apply State.packet_keeps | apply keeps_ite) | split)

theorem State.duplicate_keeps {z : State} (s : State) (q : Qp) (p : Packet) (h_s : Machine.Keeps z s) : Machine.Keeps z (State.duplicate s q p) := by
  unfold State.duplicate
  try dsimp only
  repeat' (first | with_reducible (first | assumption | apply ite_some_imp | intro _ | apply State.ackQp_keeps | apply State.bump_keeps | apply State.dupAck_keeps | apply State.nak_keeps | apply State.noteCheck_keeps | apply State.packet_keeps | apply State.updQp_keeps | apply keeps_ite) | simp only [keeps_mk_iff] | (refine keeps_snd (by with_reducible assumption) ?_) | (refine keeps_fst (by with_reducible assumption) ?_) | split)

theorem State.executed_keeps {z : State} (s : State) (n : Nat) (h_s : Machine.Keeps z s) : Machine.Keeps z (State.executed s n) := by
  unfold State.executed
  try dsimp only
  repeat' (first | with_reducible (first | assumption | apply ite_some_imp | intro _ | apply State.mirrorQp_keeps | apply State.settleReqs_keeps | apply State.updQp_keeps | apply keeps_ite) | simp only [keeps_mk_iff] | (refine keeps_snd (by with_reducible assumption) ?_) | (refine keeps_fst (by with_reducible assumption) ?_) | split)

theorem State.receive_keeps {z : State} (s0 : State) (p : Packet) (run : State → Qp → Verdict) (h_s0 : Machine.Keeps z s0) (h_run : ∀ a0 a1, ∀ u, run a0 a1 = Verdict.run u → Machine.Keeps z a0 → Machine.Keeps z u) : Machine.Keeps z (State.receive s0 p run) := by
  unfold State.receive
  try dsimp only
  repeat' (first | with_reducible (first | assumption | apply ite_some_imp | intro _) | (refine h_run _ _ _ (by with_reducible assumption) ?_) | with_reducible apply State.ackQp_keeps | with_reducible apply State.bump_keeps | with_reducible apply State.duplicate_keeps | with_reducible apply State.ev_keeps | with_reducible apply State.executed_keeps | with_reducible apply State.landing_keeps | with_reducible apply State.nak_keeps | with_reducible apply State.noteCheck_keeps | with_reducible apply State.packet_keeps | with_reducible apply State.toRts_keeps | with_reducible apply keeps_ite | simp only [keeps_mk_iff] | (refine keeps_snd (by with_reducible assumption) ?_) | (refine keeps_fst (by with_reducible assumption) ?_) | split)

theorem onPacket_keeps {z : State} (p : Packet) (own : List Nat) (s : State) (x : State) (h_s : Machine.Keeps z s) (h_x : Machine.Keeps z x) : OutKeeps z (onPacket p own s x) := by
  unfold onPacket
  try dsimp only
  repeat' (first | with_reducible (first | assumption | intro _ | apply State.abortSleep_keeps | apply keeps_ite | apply outKeeps_next | apply outKeeps_ite) | split)

theorem State.addReq_keeps {z : State} (s : State) (n : Nat) (r : Req) (h_s : Machine.Keeps z s) : Machine.Keeps z (State.addReq s n r) := by
  unfold State.addReq
  try dsimp only
  repeat' (first | with_reducible (first | assumption | intro _ | apply State.updQp_keeps) | simp only [keeps_mk_iff])

theorem State.takeCapsule_keeps {z : State} (s : State) (q : Qp) (p : Packet) (h_s : Machine.Keeps z s) : Machine.Keeps z (State.takeCapsule s q p) := by
  unfold State.takeCapsule
  try dsimp only
  repeat' (first | with_reducible (first | assumption | apply ite_some_imp | intro _ | apply State.addReq_keeps | apply State.mirrorItem_keeps | apply State.updQp_keeps) | simp only [keeps_mk_iff])

theorem State.mailFrame_keeps {z : State} (s : State) (point : Nat) (fr : List Byte) (h_s : Machine.Keeps z s) : Machine.Keeps z (State.mailFrame s point fr) := by
  unfold State.mailFrame
  try dsimp only
  repeat' (first | with_reducible (first | assumption | intro _ | apply State.bump_keeps | apply State.drop_keeps | apply mailboxUnknown_keeps | apply keeps_ite) | simp only [keeps_mk_iff] | split)

theorem State.runSend_keeps {z u : State} {s : State} {p : Packet} {q : Qp} (e : State.runSend s p q = Verdict.run u) (h_s : Machine.Keeps z s) : Machine.Keeps z u := by
  unfold State.runSend at e
  revert e
  try dsimp only
  repeat' (first | (refine fun (e : _ = _) => ?_; cases e; done) | (refine fun (e : _ = _) => ?_; cases e) | split | (refine fun (e : _ = _) => ?_; simp only [Option.map_eq_some_iff] at e; obtain ⟨_, _, e⟩ := e; cases e) | with_reducible (first | assumption | apply ite_some_imp | intro _ | apply State.addReq_keeps | apply State.mailFrame_keeps | apply State.takeCapsule_keeps | apply State.updQp_keeps | apply keeps_ite) | simp only [keeps_mk_iff] | split)

theorem execSend_keeps {z : State} (p : Packet) (s : State) (h_s : Machine.Keeps z s) : OutKeeps z (execSend p s) := by
  unfold execSend
  try dsimp only
  repeat' (first | with_reducible (first | assumption | intro _ | apply onPacket_keeps | apply State.receive_keeps) | (refine State.runSend_keeps (by with_reducible assumption) ?_ ) | with_reducible apply outKeeps_next)

theorem State.fillPortions_keeps {z : State} (s : State) (n psn va got : Nat) (bs : List Byte) (h_s : Machine.Keeps z s) : Machine.Keeps z (State.fillPortions s n psn va got bs) := by
  unfold State.fillPortions
  try dsimp only
  repeat' (first | with_reducible (first | assumption | intro _ | apply State.drop_keeps | apply State.updNet_keeps | apply keeps_ite) | simp only [keeps_mk_iff] | split)

theorem State.askMessage_keeps {z : State} (s : State) (src : Src) (capsule : Bool) (h_s : Machine.Keeps z s) : Machine.Keeps z (State.askMessage s src capsule) := by
  unfold State.askMessage
  try dsimp only
  repeat' (first | with_reducible (first | assumption | apply ite_some_imp | intro _ | apply State.askAdmit_keeps | apply keeps_foldl | apply keeps_foldl_snd | apply keeps_foldl_fst | apply keeps_id) | simp only [keeps_mk_iff] | (refine keeps_snd (by with_reducible assumption) ?_) | (refine keeps_fst (by with_reducible assumption) ?_) | split)

theorem State.chargeWindow_keeps {z : State} (s : State) (n len : Nat) (h_s : Machine.Keeps z s) : Machine.Keeps z (State.chargeWindow s n len) := by
  unfold State.chargeWindow
  try dsimp only
  repeat' (first | with_reducible (first | assumption | apply ite_some_imp | intro _ | apply State.bump_keeps | apply State.ev_keeps | apply State.flow_keeps | apply State.notify_keeps | apply State.rebook_keeps | apply State.updQp_keeps | apply keeps_ite) | simp only [keeps_mk_iff] | (refine keeps_snd (by with_reducible assumption) ?_) | (refine keeps_fst (by with_reducible assumption) ?_) | split)

theorem State.writeData_keeps {z : State} (s : State) (p : Packet) (q : Qp) (r : Req) (last imm : Bool) (h_s : Machine.Keeps z s) : Machine.Keeps z (State.writeData s p q r last imm) := by
  unfold State.writeData
  try dsimp only
  repeat' (first | with_reducible (first | assumption | apply ite_some_imp | intro _ | apply State.askMessage_keeps | apply State.chargeWindow_keeps | apply State.fillPortions_keeps | apply State.updQp_keeps | apply keeps_ite) | simp only [keeps_mk_iff] | split)

theorem State.runWriteFirst_keeps {z u : State} {s : State} {p : Packet} {q : Qp} {last imm : Bool} (e : State.runWriteFirst s p q last imm = Verdict.run u) (h_s : Machine.Keeps z s) : Machine.Keeps z u := by
  unfold State.runWriteFirst at e
  revert e
  try dsimp only
  repeat' (first | (refine fun (e : _ = _) => ?_; cases e; done) | (refine fun (e : _ = _) => ?_; cases e) | split | (refine fun (e : _ = _) => ?_; simp only [Option.map_eq_some_iff] at e; obtain ⟨_, _, e⟩ := e; cases e) | with_reducible (first | assumption | apply ite_some_imp | intro _ | apply State.addPortion_keeps | apply State.addReq_keeps | apply State.writeData_keeps | apply keeps_foldl | apply keeps_foldl_snd | apply keeps_foldl_fst | apply keeps_ite) | simp only [keeps_mk_iff] | (refine keeps_snd (by with_reducible assumption) ?_) | (refine keeps_fst (by with_reducible assumption) ?_) | split)

theorem State.runWriteNext_keeps {z u : State} {s : State} {p : Packet} {q : Qp} {last imm : Bool} (e : State.runWriteNext s p q last imm = Verdict.run u) (h_s : Machine.Keeps z s) : Machine.Keeps z u := by
  unfold State.runWriteNext at e
  revert e
  try dsimp only
  repeat' (first | (refine fun (e : _ = _) => ?_; cases e; done) | (refine fun (e : _ = _) => ?_; cases e) | split | (refine fun (e : _ = _) => ?_; simp only [Option.map_eq_some_iff] at e; obtain ⟨_, _, e⟩ := e; cases e) | with_reducible (first | assumption | apply ite_some_imp | intro _ | apply State.writeData_keeps | apply keeps_ite) | simp only [keeps_mk_iff] | (refine keeps_snd (by with_reducible assumption) ?_) | (refine keeps_fst (by with_reducible assumption) ?_) | split)

theorem State.runWrite_keeps {z u : State} {s : State} {p : Packet} {q : Qp} (e : State.runWrite s p q = Verdict.run u) (h_s : Machine.Keeps z s) : Machine.Keeps z u := by
  unfold State.runWrite at e
  revert e
  try dsimp only
  repeat' (first | (refine fun (e : _ = _) => ?_; cases e; done) | (refine fun (e : _ = _) => ?_; cases e) | split | (refine fun (e : _ = _) => ?_; simp only [Option.map_eq_some_iff] at e; obtain ⟨_, _, e⟩ := e; cases e) | with_reducible (first | assumption | intro _) | (refine State.runWriteFirst_keeps (by with_reducible assumption) ?_ ) | (refine State.runWriteNext_keeps (by with_reducible assumption) ?_ ) | with_reducible apply keeps_ite | split)

theorem execRdmaWrite_keeps {z : State} (p : Packet) (s : State) (h_s : Machine.Keeps z s) : OutKeeps z (execRdmaWrite p s) := by
  unfold execRdmaWrite
  try dsimp only
  repeat' (first | with_reducible (first | assumption | intro _ | apply onPacket_keeps | apply State.receive_keeps) | (refine State.runWrite_keeps (by with_reducible assumption) ?_ ) | with_reducible apply outKeeps_next)

theorem execRdmaWriteImm_keeps {z : State} (p : Packet) (s : State) (h_s : Machine.Keeps z s) : OutKeeps z (execRdmaWriteImm p s) := by
  unfold execRdmaWriteImm
  try dsimp only
  repeat' (first | with_reducible (first | assumption | intro _ | apply onPacket_keeps | apply State.receive_keeps) | (refine State.runWrite_keeps (by with_reducible assumption) ?_ ) | with_reducible apply outKeeps_next)

theorem State.runRead_keeps {z u : State} {s : State} {p : Packet} {q : Qp} (e : State.runRead s p q = Verdict.run u) (h_s : Machine.Keeps z s) : Machine.Keeps z u := by
  unfold State.runRead at e
  revert e
  try dsimp only
  repeat' (first | (refine fun (e : _ = _) => ?_; cases e; done) | (refine fun (e : _ = _) => ?_; cases e) | split | (refine fun (e : _ = _) => ?_; simp only [Option.map_eq_some_iff] at e; obtain ⟨_, _, e⟩ := e; cases e) | with_reducible (first | assumption | apply ite_some_imp | intro _ | apply State.addReq_keeps | apply keeps_ite) | simp only [keeps_mk_iff] | (refine keeps_snd (by with_reducible assumption) ?_) | (refine keeps_fst (by with_reducible assumption) ?_) | split)

theorem execRdmaReadRequest_keeps {z : State} (p : Packet) (near : List NearErr) (s : State) (h_s : Machine.Keeps z s) : OutKeeps z (execRdmaReadRequest p near s) := by
  unfold execRdmaReadRequest
  try dsimp only
  repeat' (first | with_reducible (first | assumption | intro _ | apply State.addNear_keeps | apply onPacket_keeps | apply State.receive_keeps) | (refine State.runRead_keeps (by with_reducible assumption) ?_ ) | with_reducible apply outKeeps_next)

theorem State.runAtomic_keeps {z u : State} {s : State} {p : Packet} {q : Qp} {k : PKind} (e : State.runAtomic s p q k = Verdict.run u) (h_s : Machine.Keeps z s) : Machine.Keeps z u := by
  unfold State.runAtomic at e
  revert e
  try dsimp only
  repeat' (first | (refine fun (e : _ = _) => ?_; cases e; done) | (refine fun (e : _ = _) => ?_; cases e) | split | (refine fun (e : _ = _) => ?_; simp only [Option.map_eq_some_iff] at e; obtain ⟨_, _, e⟩ := e; cases e) | with_reducible (first | assumption | apply ite_some_imp | intro _ | apply State.addPortion_keeps | apply State.addReq_keeps | apply State.askMessage_keeps | apply keeps_ite) | simp only [keeps_mk_iff] | (refine keeps_snd (by with_reducible assumption) ?_) | (refine keeps_fst (by with_reducible assumption) ?_) | split)

theorem execCmpSwap_keeps {z : State} (p : Packet) (s : State) (h_s : Machine.Keeps z s) : OutKeeps z (execCmpSwap p s) := by
  unfold execCmpSwap
  try dsimp only
  repeat' (first | with_reducible (first | assumption | intro _ | apply onPacket_keeps | apply State.receive_keeps) | (refine State.runAtomic_keeps (by with_reducible assumption) ?_ ) | with_reducible apply outKeeps_next)

theorem execFetchAdd_keeps {z : State} (p : Packet) (s : State) (h_s : Machine.Keeps z s) : OutKeeps z (execFetchAdd p s) := by
  unfold execFetchAdd
  try dsimp only
  repeat' (first | with_reducible (first | assumption | intro _ | apply onPacket_keeps | apply State.receive_keeps) | (refine State.runAtomic_keeps (by with_reducible assumption) ?_ ) | with_reducible apply outKeeps_next)

end Sys2Proof.Machine
end

