-- ==== Sys2Proof/Laws/KeepConnect.lean ====
section
/-! SUPPORT. What no command changes is kept by every function of `Machine/Connect.lean`. -/

set_option linter.all false

namespace Sys2Proof.Machine

theorem onLport_keeps {z : State} (t port lp : Nat) (s x : State) (h_s : Machine.Keeps z s) (h_x : Machine.Keeps z x) : OutKeeps z (onLport t port lp s x) := by
  unfold onLport
  try dsimp only
  repeat' (first | with_reducible (first | assumption | intro _ | apply keeps_ite | apply outKeeps_next | apply outKeeps_ite) | split)

theorem State.netLink_keeps {z : State} (s : State) (t port lp : Nat) (up : Bool) (h_s : Machine.Keeps z s) : Machine.Keeps z (State.netLink s t port lp up) := by
  unfold State.netLink
  try dsimp only
  repeat' (first | with_reducible (first | assumption | intro _ | apply State.notify_keeps))

theorem State.lldp_keeps {z : State} (s : State) (t port lp : Nat) (h_s : Machine.Keeps z s) : Machine.Keeps z (State.lldp s t port lp) := by
  unfold State.lldp
  try dsimp only
  repeat' (first | with_reducible (first | assumption | intro _ | apply State.xmit_keeps))

theorem State.linkUp_keeps {z : State} (s : State) (t port lp : Nat) (h_s : Machine.Keeps z s) : Machine.Keeps z (State.linkUp s t port lp) := by
  unfold State.linkUp
  try dsimp only
  repeat' (first | with_reducible (first | assumption | intro _ | apply State.lldp_keeps | apply State.netLink_keeps | apply State.setF_keeps | apply State.updNet_keeps | apply keeps_ite) | simp only [keeps_mk_iff] | split)

theorem State.linkDown_keeps {z : State} (s : State) (t port lp : Nat) (h_s : Machine.Keeps z s) : Machine.Keeps z (State.linkDown s t port lp) := by
  unfold State.linkDown
  try dsimp only
  repeat' (first | with_reducible (first | assumption | intro _ | apply State.ev_keeps | apply State.netLink_keeps | apply State.setF_keeps | apply State.updNet_keeps | apply keeps_ite) | simp only [keeps_mk_iff] | split)

theorem execEthLinkUp_keeps {z : State} (tile port lport : Nat) (s : State) (h_s : Machine.Keeps z s) : OutKeeps z (execEthLinkUp tile port lport s) := by
  unfold execEthLinkUp
  try dsimp only
  repeat' (first | with_reducible (first | assumption | intro _ | apply State.linkUp_keeps | apply onLport_keeps | apply keeps_ite | apply outKeeps_next | apply outKeeps_ite) | split)

theorem execEthLinkDown_keeps {z : State} (tile port lport : Nat) (s : State) (h_s : Machine.Keeps z s) : OutKeeps z (execEthLinkDown tile port lport s) := by
  unfold execEthLinkDown
  try dsimp only
  repeat' (first | with_reducible (first | assumption | intro _ | apply State.linkDown_keeps | apply onLport_keeps | apply outKeeps_next))

theorem execLinkDownHoldExpiry_keeps {z : State} (tile port lport : Nat) (s : State) (h_s : Machine.Keeps z s) : OutKeeps z (execLinkDownHoldExpiry tile port lport s) := by
  unfold execLinkDownHoldExpiry
  try dsimp only
  repeat' (first | with_reducible (first | assumption | apply ite_some_imp | intro _ | apply State.linkDown_keeps | apply onLport_keeps | apply State.qpError_keeps | apply keeps_foldl | apply keeps_foldl_snd | apply keeps_foldl_fst | apply keeps_ite) | simp only [keeps_mk_iff] | with_reducible apply outKeeps_next | with_reducible apply outKeeps_ite | (refine keeps_snd (by with_reducible assumption) ?_) | (refine keeps_fst (by with_reducible assumption) ?_) | split)

theorem State.frameIn_keeps {z : State} (s : State) (t port prio : Nat) (i : FrameInfo) (h_s : Machine.Keeps z s) : Machine.Keeps z (State.frameIn s t port prio i) := by
  unfold State.frameIn
  try dsimp only
  repeat' (first | with_reducible (first | assumption | apply ite_some_imp | intro _ | apply State.bump_keeps | apply State.drop_keeps | apply State.ev_keeps | apply State.flow_keeps | apply State.xmit_keeps | apply keeps_ite) | simp only [keeps_mk_iff] | (refine keeps_snd (by with_reducible assumption) ?_) | (refine keeps_fst (by with_reducible assumption) ?_) | split)

theorem execEthFrame_keeps {z : State} (tile port : Nat) (pcp : Option Nat) (dscp : Nat) (i : FrameInfo) (s : State) (h_s : Machine.Keeps z s) : OutKeeps z (execEthFrame tile port pcp dscp i s) := by
  unfold execEthFrame
  try dsimp only
  repeat' (first | with_reducible (first | assumption | intro _ | apply State.frameIn_keeps | apply onUnit_keeps | apply State.wakeUp_keeps | apply keeps_ite | apply outKeeps_next | apply outKeeps_ite) | split)

theorem State.flushTx_keeps {z : State} (s : State) (k t port : Nat) (h_s : Machine.Keeps z s) : Machine.Keeps z (State.flushTx s k t port) := by
  unfold State.flushTx
  try dsimp only
  repeat' (first | with_reducible (first | assumption | intro _ | apply State.bump_keeps | apply State.send_keeps | apply State.updNet_keeps | apply keeps_foldl | apply keeps_foldl_snd | apply keeps_foldl_fst) | simp only [keeps_mk_iff])

theorem execPfcPause_keeps {z : State} (tile port prio : Nat) (on : Bool) (s : State) (h_s : Machine.Keeps z s) : OutKeeps z (execPfcPause tile port prio on s) := by
  unfold execPfcPause
  try dsimp only
  repeat' (first | with_reducible (first | assumption | intro _ | apply State.bump_keeps | apply State.flushTx_keeps | apply onUnit_keeps | apply State.setF_keeps | apply State.updNet_keeps | apply keeps_ite) | simp only [keeps_mk_iff] | with_reducible apply outKeeps_next | with_reducible apply outKeeps_ite | split)

theorem execPfcWatchdog_keeps {z : State} (tile port prio : Nat) (s : State) (h_s : Machine.Keeps z s) : OutKeeps z (execPfcWatchdog tile port prio s) := by
  unfold execPfcWatchdog
  try dsimp only
  repeat' (first | with_reducible (first | assumption | apply ite_some_imp | intro _ | apply State.evRec_keeps | apply onUnit_keeps | apply keeps_ite) | simp only [keeps_mk_iff] | with_reducible apply outKeeps_next | with_reducible apply outKeeps_ite | (refine keeps_snd (by with_reducible assumption) ?_) | (refine keeps_fst (by with_reducible assumption) ?_) | split)

theorem State.cmSend_keeps {z : State} (s : State) (t port kind : Nat) (bs : List Byte) (h_s : Machine.Keeps z s) : Machine.Keeps z (State.cmSend s t port kind bs) := by
  unfold State.cmSend
  try dsimp only
  repeat' (first | with_reducible (first | assumption | intro _ | apply State.xmit_keeps))

theorem State.answerReq_keeps {z : State} (s : State) (r : ConnectReq) (h_s : Machine.Keeps z s) : Machine.Keeps z (State.answerReq s r) := by
  unfold State.answerReq
  try dsimp only
  repeat' (first | with_reducible (first | assumption | intro _ | apply State.bump_keeps | apply State.cmSend_keeps | apply State.draw_keeps | apply State.ev_keeps | apply State.mirrorQp_keeps | apply State.updNet_keeps | apply keeps_ite) | simp only [keeps_mk_iff] | (refine keeps_snd (by with_reducible assumption) ?_) | (refine keeps_fst (by with_reducible assumption) ?_) | split)

theorem execReq_keeps {z : State} (r : ConnectReq) (s : State) (h_s : Machine.Keeps z s) : OutKeeps z (execReq r s) := by
  unfold execReq
  try dsimp only
  repeat' (first | with_reducible (first | assumption | intro _ | apply State.answerReq_keeps | apply State.bump_keeps | apply onLport_keeps | apply State.wakeUp_keeps | apply keeps_ite | apply outKeeps_next | apply outKeeps_ite) | split)

theorem execRtu_keeps {z : State} (qpn : Nat) (s : State) (h_s : Machine.Keeps z s) : OutKeeps z (execRtu qpn s) := by
  unfold execRtu
  try dsimp only
  repeat' (first | with_reducible (first | assumption | intro _ | apply State.toRts_keeps | apply outKeeps_next))

theorem execConnectTimeout_keeps {z : State} (qpn : Nat) (rej : Bool) (s : State) (h_s : Machine.Keeps z s) : OutKeeps z (execConnectTimeout qpn rej s) := by
  unfold execConnectTimeout
  try dsimp only
  repeat' (first | with_reducible (first | assumption | apply ite_some_imp | intro _ | apply State.qpFree_keeps | apply keeps_ite) | simp only [keeps_mk_iff] | with_reducible apply outKeeps_next | with_reducible apply outKeeps_ite | (refine keeps_snd (by with_reducible assumption) ?_) | (refine keeps_fst (by with_reducible assumption) ?_) | split)

theorem State.release_keeps {z : State} (s : State) (q : Qp) (drep : Bool) (h_s : Machine.Keeps z s) : Machine.Keeps z (State.release s q drep) := by
  unfold State.release
  try dsimp only
  repeat' (first | with_reducible (first | assumption | intro _ | apply State.cmSend_keeps | apply State.qpFree_keeps | apply keeps_ite) | split)

theorem State.disconnect_keeps {z : State} (s : State) (n : Nat) (h_s : Machine.Keeps z s) : Machine.Keeps z (State.disconnect s n) := by
  unfold State.disconnect
  try dsimp only
  repeat' (first | with_reducible (first | assumption | apply ite_some_imp | intro _ | apply State.dropPoint_keeps | apply State.mirrorQp_keeps | apply State.release_keeps | apply State.tearDown_keeps | apply State.updQp_keeps | apply keeps_ite) | simp only [keeps_mk_iff] | (refine keeps_snd (by with_reducible assumption) ?_) | (refine keeps_fst (by with_reducible assumption) ?_) | split)

theorem execDreq_keeps {z : State} (qpn : Nat) (s : State) (h_s : Machine.Keeps z s) : OutKeeps z (execDreq qpn s) := by
  unfold execDreq
  try dsimp only
  repeat' (first | with_reducible (first | assumption | intro _ | apply State.disconnect_keeps | apply outKeeps_next))

theorem State.settleQp_keeps {z : State} (s : State) (n : Nat) (h_s : Machine.Keeps z s) : Machine.Keeps z (State.settleQp s n) := by
  unfold State.settleQp
  try dsimp only
  repeat' (first | with_reducible (first | assumption | apply ite_some_imp | intro _ | apply State.release_keeps | apply State.updNet_keeps | apply State.updQp_keeps | apply keeps_ite) | simp only [keeps_mk_iff] | (refine keeps_snd (by with_reducible assumption) ?_) | (refine keeps_fst (by with_reducible assumption) ?_) | split)

theorem execQpSettled_keeps {z : State} (qpn : Nat) (s : State) (h_s : Machine.Keeps z s) : OutKeeps z (execQpSettled qpn s) := by
  unfold execQpSettled
  try dsimp only
  repeat' (first | with_reducible (first | assumption | intro _ | apply State.settleQp_keeps | apply outKeeps_next))

theorem execErrHoldExpiry_keeps {z : State} (qpn : Nat) (s : State) (h_s : Machine.Keeps z s) : OutKeeps z (execErrHoldExpiry qpn s) := by
  unfold execErrHoldExpiry
  try dsimp only
  repeat' (first | with_reducible (first | assumption | apply ite_some_imp | intro _ | apply State.release_keeps | apply keeps_ite) | simp only [keeps_mk_iff] | with_reducible apply outKeeps_next | with_reducible apply outKeeps_ite | (refine keeps_snd (by with_reducible assumption) ?_) | (refine keeps_fst (by with_reducible assumption) ?_) | split)

theorem State.cplGo_keeps {z : State} (s : State) (n : Nat) (i0 : Nat) (h_s : Machine.Keeps z s) : Machine.Keeps z (State.cplGo s n i0) := by
  induction i0 generalizing s with
  | zero => exact h_s
  | succ k ih =>
    unfold State.cplGo
    try dsimp only
    repeat' (first | with_reducible assumption | with_reducible intro _ | with_reducible apply ih | with_reducible apply State.mirrorItem_keeps | with_reducible apply State.mirrorQp_keeps | with_reducible apply State.request_keeps | with_reducible apply State.updQp_keeps | with_reducible apply keeps_ite | simp only [keeps_mk_iff] | (refine keeps_snd (by with_reducible assumption) ?_) | (refine keeps_fst (by with_reducible assumption) ?_) | split)

theorem State.pumpQp_keeps {z : State} (s : State) (n : Nat) (h_s : Machine.Keeps z s) : Machine.Keeps z (State.pumpQp s n) := by
  unfold State.pumpQp
  try dsimp only
  repeat' (first | with_reducible (first | assumption | apply ite_some_imp | intro _ | apply State.cplGo_keeps | apply State.pumpSend_keeps | apply keeps_ite) | simp only [keeps_mk_iff] | (refine keeps_snd (by with_reducible assumption) ?_) | (refine keeps_fst (by with_reducible assumption) ?_) | split)

theorem State.ackSent_keeps {z : State} (s : State) (n psn : Nat) (h_s : Machine.Keeps z s) : Machine.Keeps z (State.ackSent s n psn) := by
  unfold State.ackSent
  try dsimp only
  repeat' (first | with_reducible (first | assumption | apply ite_some_imp | intro _ | apply CmdOut.done_keeps | apply State.drop_keeps | apply State.mirrorQp_keeps | apply State.updNet_keeps | apply State.updQp_keeps | apply keeps_getD | apply keeps_ite) | simp only [keeps_mk_iff] | with_reducible apply Cmd.out_keeps | with_reducible apply CmdOut.s_keeps | with_reducible apply CmdOut.after_keeps | (refine keeps_snd (by with_reducible assumption) ?_) | (refine keeps_fst (by with_reducible assumption) ?_) | split)

theorem State.retriesOut_keeps {z : State} (s : State) (n psn : Nat) (h_s : Machine.Keeps z s) : Machine.Keeps z (State.retriesOut s n psn) := by
  unfold State.retriesOut
  try dsimp only
  repeat' (first | with_reducible (first | assumption | intro _ | apply State.ev_keeps | apply State.qpError_keeps))

theorem State.resend_keeps {z : State} (s : State) (n : Nat) (h_s : Machine.Keeps z s) : Machine.Keeps z (State.resend s n) := by
  unfold State.resend
  try dsimp only
  repeat' (first | with_reducible (first | assumption | apply ite_some_imp | intro _ | apply State.bump_keeps | apply State.transmit_keeps | apply State.updQp_keeps | apply keeps_foldl | apply keeps_foldl_snd | apply keeps_foldl_fst) | simp only [keeps_mk_iff] | (refine keeps_snd (by with_reducible assumption) ?_) | (refine keeps_fst (by with_reducible assumption) ?_) | split)

theorem State.goBack_keeps {z : State} (s : State) (n : Nat) (h_s : Machine.Keeps z s) : Machine.Keeps z (State.goBack s n) := by
  unfold State.goBack
  try dsimp only
  repeat' (first | with_reducible (first | assumption | apply ite_some_imp | intro _ | apply State.resend_keeps | apply State.retriesOut_keeps | apply State.updQp_keeps | apply keeps_ite) | simp only [keeps_mk_iff] | (refine keeps_snd (by with_reducible assumption) ?_) | (refine keeps_fst (by with_reducible assumption) ?_) | split)

theorem State.failAccess_keeps {z : State} (s : State) (n : Nat) (p : SentPkt) (h_s : Machine.Keeps z s) : Machine.Keeps z (State.failAccess s n p) := by
  unfold State.failAccess
  try dsimp only
  repeat' (first | with_reducible (first | assumption | intro _ | apply State.resend_keeps | apply State.updNet_keeps | apply State.updQp_keeps | apply keeps_ite) | simp only [keeps_mk_iff] | split)

theorem State.hostAck_keeps {z : State} (s : State) (n psn syn : Nat) (h_s : Machine.Keeps z s) : Machine.Keeps z (State.hostAck s n psn syn) := by
  unfold State.hostAck
  try dsimp only
  repeat' (first | with_reducible (first | assumption | apply ite_some_imp | intro _ | apply State.ackSent_keeps | apply State.failAccess_keeps | apply State.goBack_keeps | apply State.pumpQp_keeps | apply State.retriesOut_keeps | apply State.updQp_keeps | apply keeps_ite) | simp only [keeps_mk_iff] | (refine keeps_snd (by with_reducible assumption) ?_) | (refine keeps_fst (by with_reducible assumption) ?_) | split)

theorem State.response_keeps {z : State} (s0 : State) (p : Packet) (f : State → Qp → State) (h_s0 : Machine.Keeps z s0) (h_f : ∀ a0 a1, Machine.Keeps z a0 → Machine.Keeps z (f a0 a1)) : Machine.Keeps z (State.response s0 p f) := by
  unfold State.response
  try dsimp only
  repeat' (first | with_reducible (first | assumption | apply ite_some_imp | intro _ | apply h_f | apply State.landing_keeps | apply keeps_ite) | simp only [keeps_mk_iff] | (refine keeps_snd (by with_reducible assumption) ?_) | (refine keeps_fst (by with_reducible assumption) ?_) | split)

theorem execAckReceived_keeps {z : State} (p : Packet) (s : State) (h_s : Machine.Keeps z s) : OutKeeps z (execAckReceived p s) := by
  unfold execAckReceived
  try dsimp only
  repeat' (first | with_reducible (first | assumption | intro _ | apply State.hostAck_keeps | apply onPacket_keeps | apply State.response_keeps) | simp only [keeps_mk_iff] | with_reducible apply outKeeps_next)

theorem State.readResponse_keeps {z : State} (s : State) (q : Qp) (psn : Nat) (bs : List Byte) (h_s : Machine.Keeps z s) : Machine.Keeps z (State.readResponse s q psn bs) := by
  unfold State.readResponse
  try dsimp only
  repeat' (first | with_reducible (first | assumption | apply ite_some_imp | intro _ | apply State.ackSent_keeps | apply State.drop_keeps | apply State.goBack_keeps | apply State.pumpQp_keeps | apply State.updPortion_keeps | apply State.updQp_keeps | apply keeps_getD | apply keeps_ite) | simp only [keeps_mk_iff] | (refine keeps_snd (by with_reducible assumption) ?_) | (refine keeps_fst (by with_reducible assumption) ?_) | split)

theorem execReadResponse_keeps {z : State} (p : Packet) (s : State) (h_s : Machine.Keeps z s) : OutKeeps z (execReadResponse p s) := by
  unfold execReadResponse
  try dsimp only
  repeat' (first | with_reducible (first | assumption | intro _ | apply onPacket_keeps | apply State.readResponse_keeps | apply State.response_keeps | apply outKeeps_next))

theorem execAckTimeout_keeps {z : State} (qpn : Nat) (s : State) (h_s : Machine.Keeps z s) : OutKeeps z (execAckTimeout qpn s) := by
  unfold execAckTimeout
  try dsimp only
  repeat' (first | with_reducible (first | assumption | apply ite_some_imp | intro _ | apply State.goBack_keeps | apply keeps_ite) | simp only [keeps_mk_iff] | with_reducible apply outKeeps_next | with_reducible apply outKeeps_ite | (refine keeps_snd (by with_reducible assumption) ?_) | (refine keeps_fst (by with_reducible assumption) ?_) | split)

theorem execRnrTimer_keeps {z : State} (qpn : Nat) (s : State) (h_s : Machine.Keeps z s) : OutKeeps z (execRnrTimer qpn s) := by
  unfold execRnrTimer
  try dsimp only
  repeat' (first | with_reducible (first | assumption | apply ite_some_imp | intro _ | apply State.pumpQp_keeps | apply State.resend_keeps | apply keeps_ite) | simp only [keeps_mk_iff] | with_reducible apply outKeeps_next | with_reducible apply outKeeps_ite | (refine keeps_snd (by with_reducible assumption) ?_) | (refine keeps_fst (by with_reducible assumption) ?_) | split)

theorem execCnp_keeps {z : State} (p : Packet) (s : State) (h_s : Machine.Keeps z s) : OutKeeps z (execCnp p s) := by
  unfold execCnp
  try dsimp only
  repeat' (first | with_reducible (first | assumption | intro _ | apply State.bump_keeps | apply onPacket_keeps | apply State.response_keeps | apply State.updQp_keeps | apply keeps_ite) | simp only [keeps_mk_iff] | with_reducible apply outKeeps_next | with_reducible apply outKeeps_ite | split)

theorem execCnpRateRestore_keeps {z : State} (qpn : Nat) (s : State) (h_s : Machine.Keeps z s) : OutKeeps z (execCnpRateRestore qpn s) := by
  unfold execCnpRateRestore
  try dsimp only
  repeat' (first | with_reducible (first | assumption | apply ite_some_imp | intro _ | apply State.updQp_keeps | apply keeps_ite) | simp only [keeps_mk_iff] | with_reducible apply outKeeps_next | with_reducible apply outKeeps_ite | (refine keeps_snd (by with_reducible assumption) ?_) | (refine keeps_fst (by with_reducible assumption) ?_) | split)

end Sys2Proof.Machine
end

