-- ==== Sys2Proof/Laws/KeepCapsules.lean ====
section
/-! SUPPORT. What no command changes is kept by every function of `Machine/Capsules.lean`. -/

set_option linter.all false

namespace Sys2Proof.Machine

theorem State.capAccess_keeps {z : State} (s : State) (e : Exec) (h_s : Machine.Keeps z s) : Machine.Keeps z (State.capAccess s e).1 := by
  unfold State.capAccess
  try dsimp only
  repeat' (first | with_reducible (first | assumption | intro _ | apply State.noteCheck_keeps | apply keeps_ite) | simp only [keeps_mk_iff] | (refine keeps_snd (by with_reducible assumption) ?_) | (refine keeps_fst (by with_reducible assumption) ?_) | split)

theorem State.sendRecord_keeps {z : State} (s : State) (e : Exec) (rec : List Byte) (h_s : Machine.Keeps z s) : Machine.Keeps z (State.sendRecord s e rec) := by
  unfold State.sendRecord
  try dsimp only
  repeat' (first | with_reducible (first | assumption | apply ite_some_imp | intro _ | apply State.bump_keeps | apply State.deliver_keeps | apply State.pumpQp_keeps | apply State.updQp_keeps | apply keeps_id | apply keeps_ite) | simp only [keeps_mk_iff] | (refine keeps_snd (by with_reducible assumption) ?_) | (refine keeps_fst (by with_reducible assumption) ?_) | split)

theorem State.endDesc_keeps {z : State} (s : State) (c : Nat) (e : Exec) (st : Nat) (h_s : Machine.Keeps z s) : Machine.Keeps z (State.endDesc s c e st) := by
  unfold State.endDesc
  try dsimp only
  repeat' (first | with_reducible (first | assumption | apply ite_some_imp | intro _ | apply State.ev_keeps | apply State.mirrorItem_keeps | apply State.notify_keeps | apply State.updChain_keeps | apply keeps_ite) | simp only [keeps_mk_iff] | (refine keeps_snd (by with_reducible assumption) ?_) | (refine keeps_fst (by with_reducible assumption) ?_) | split)

theorem State.noteEnd_keeps {z : State} (s : State) (t st : Nat) (h_s : Machine.Keeps z s) : Machine.Keeps z (State.noteEnd s t st) := by
  unfold State.noteEnd
  try dsimp only
  repeat' (first | with_reducible (first | assumption | intro _ | apply State.bump_keeps | apply State.ev_keeps) | simp only [keeps_mk_iff] | (refine keeps_snd (by with_reducible assumption) ?_) | (refine keeps_fst (by with_reducible assumption) ?_) | split)

theorem State.endCapsule_keeps {z : State} (s : State) (e : Exec) (r : CapEnd) (h_s : Machine.Keeps z s) : Machine.Keeps z (State.endCapsule s e r) := by
  unfold State.endCapsule
  try dsimp only
  repeat' (first | with_reducible (first | assumption | intro _ | apply State.countUp_keeps | apply State.endDesc_keeps | apply State.noteEnd_keeps | apply State.sendRecord_keeps | apply State.updNet_keeps | apply keeps_ite) | simp only [keeps_mk_iff] | (refine keeps_snd (by with_reducible assumption) ?_) | (refine keeps_fst (by with_reducible assumption) ?_) | split)

theorem State.enqueueDesc_keeps {z : State} (s : State) (c enqQpn session point role : Nat) (b : List Byte) (h_s : Machine.Keeps z s) : Machine.Keeps z (State.enqueueDesc s c enqQpn session point role b) := by
  unfold State.enqueueDesc
  try dsimp only
  repeat' (first | with_reducible (first | assumption | apply ite_some_imp | intro _ | apply State.mirrorItem_keeps | apply State.updChain_keeps) | simp only [keeps_mk_iff] | (refine keeps_snd (by with_reducible assumption) ?_) | (refine keeps_fst (by with_reducible assumption) ?_) | split)

theorem State.mirrorStart_keeps {z : State} (s : State) (x : Src) (h_s : Machine.Keeps z s) : Machine.Keeps z (State.mirrorStart s x).1 := by
  unfold State.mirrorStart
  try dsimp only
  repeat' (first | with_reducible (first | assumption | intro _ | apply State.mirrorItem_keeps) | simp only [keeps_mk_iff] | (refine keeps_snd (by with_reducible assumption) ?_) | (refine keeps_fst (by with_reducible assumption) ?_) | split)

theorem State.beginExec_keeps {z : State} (s : State) (e : Exec) (h_s : Machine.Keeps z s) : Machine.Keeps z (State.beginExec s e) := by
  unfold State.beginExec
  try dsimp only
  repeat' (first | with_reducible (first | assumption | apply ite_some_imp | intro _ | apply State.capAccess_keeps | apply State.endCapsule_keeps | apply State.updNet_keeps | apply keeps_ite) | simp only [keeps_mk_iff] | (refine keeps_snd (by with_reducible assumption) ?_) | (refine keeps_fst (by with_reducible assumption) ?_) | split)

theorem State.startEnqueue_keeps {z : State} (s : State) (e : Exec) (h_s : Machine.Keeps z s) : Machine.Keeps z (State.startEnqueue s e) := by
  unfold State.startEnqueue
  try dsimp only
  repeat' (first | with_reducible (first | assumption | apply ite_some_imp | intro _ | apply State.endCapsule_keeps | apply State.enqueueDesc_keeps | apply keeps_getD | apply keeps_ite) | split)

theorem State.startCapsule_keeps {z : State} (s : State) (q : Qp) (c : QCapsule) (h_s : Machine.Keeps z s) : Machine.Keeps z (State.startCapsule s q c) := by
  unfold State.startCapsule
  try dsimp only
  repeat' (first | with_reducible (first | assumption | apply ite_some_imp | intro _ | apply State.beginExec_keeps | apply State.bump_keeps | apply State.endCapsule_keeps | apply State.mirrorStart_keeps | apply State.startEnqueue_keeps | apply State.updQp_keeps | apply keeps_ite) | simp only [keeps_mk_iff] | (refine keeps_snd (by with_reducible assumption) ?_) | (refine keeps_fst (by with_reducible assumption) ?_) | split)

theorem execCapsuleStart_keeps {z : State} (qpn : Nat) (s : State) (h_s : Machine.Keeps z s) : OutKeeps z (execCapsuleStart qpn s) := by
  unfold execCapsuleStart
  try dsimp only
  repeat' (first | with_reducible (first | assumption | apply ite_some_imp | intro _ | apply State.startCapsule_keeps) | simp only [keeps_mk_iff] | with_reducible apply outKeeps_next | (refine keeps_snd (by with_reducible assumption) ?_) | (refine keeps_fst (by with_reducible assumption) ?_) | split)

theorem State.startDesc_keeps {z : State} (s : State) (c : Nat) (h_s : Machine.Keeps z s) : Machine.Keeps z (State.startDesc s c) := by
  unfold State.startDesc
  try dsimp only
  repeat' (first | with_reducible (first | assumption | apply ite_some_imp | intro _ | apply State.beginExec_keeps | apply State.mirrorStart_keeps | apply State.updChain_keeps | apply keeps_ite) | simp only [keeps_mk_iff] | (refine keeps_snd (by with_reducible assumption) ?_) | (refine keeps_fst (by with_reducible assumption) ?_) | split)

theorem execDescriptorStart_keeps {z : State} (cqn : Nat) (s : State) (h_s : Machine.Keeps z s) : OutKeeps z (execDescriptorStart cqn s) := by
  unfold execDescriptorStart
  try dsimp only
  repeat' (first | with_reducible (first | assumption | intro _ | apply State.startDesc_keeps | apply outKeeps_next))

theorem State.updExec_keeps {z : State} (s : State) (x : Src) (f : Exec → Exec) (h_s : Machine.Keeps z s) : Machine.Keeps z (State.updExec s x f) := by
  unfold State.updExec
  try dsimp only
  repeat' (first | with_reducible (first | assumption | intro _ | apply State.updNet_keeps | apply keeps_ite) | simp only [keeps_mk_iff] | split)

theorem State.onExec_keeps {z : State} (s : State) (i : ExecId) (op : Nat) (f : Exec → State) (h_s : Machine.Keeps z s) (h_f : ∀ a0, Machine.Keeps z (f a0)) : Machine.Keeps z (State.onExec s i op f) := by
  unfold State.onExec
  try dsimp only
  repeat' (first | with_reducible (first | assumption | apply ite_some_imp | intro _ | apply h_f | apply keeps_ite) | simp only [keeps_mk_iff] | (refine keeps_snd (by with_reducible assumption) ?_) | (refine keeps_fst (by with_reducible assumption) ?_) | split)

theorem State.layOut_keeps {z : State} (s : State) (e : Exec) (h_s : Machine.Keeps z s) : Machine.Keeps z (State.layOut s e) := by
  unfold State.layOut
  try dsimp only
  repeat' (first | with_reducible (first | assumption | intro _ | apply State.addPortion_keeps | apply State.askMessage_keeps | apply State.updExec_keeps | apply keeps_foldl | apply keeps_foldl_snd | apply keeps_foldl_fst) | simp only [keeps_mk_iff])

theorem execCapsuleWrite_keeps {z : State} (i : ExecId) (s : State) (h_s : Machine.Keeps z s) : OutKeeps z (execCapsuleWrite i s) := by
  unfold execCapsuleWrite
  try dsimp only
  repeat' (first | with_reducible (first | assumption | intro _ | apply State.layOut_keeps | apply State.onExec_keeps | apply keeps_ite | apply outKeeps_next | apply outKeeps_ite) | split)

theorem State.pull_keeps {z : State} (s : State) (p : Portion) (e : Exec) (h_s : Machine.Keeps z s) : Machine.Keeps z (State.pull s p e) := by
  unfold State.pull
  try dsimp only
  repeat' (first | with_reducible (first | assumption | apply ite_some_imp | intro _ | apply State.flow_keeps | apply State.mirrorQp_keeps | apply State.rebook_keeps | apply State.request_keeps | apply State.updPortion_keeps | apply keeps_id | apply keeps_ite) | simp only [keeps_mk_iff] | (refine keeps_snd (by with_reducible assumption) ?_) | (refine keeps_fst (by with_reducible assumption) ?_) | split)

theorem execCapsulePull_keeps {z : State} (id : Nat) (s : State) (h_s : Machine.Keeps z s) : OutKeeps z (execCapsulePull id s) := by
  unfold execCapsulePull
  try dsimp only
  repeat' (first | with_reducible (first | assumption | apply ite_some_imp | intro _ | apply State.pull_keeps | apply keeps_id | apply keeps_ite) | simp only [keeps_mk_iff] | with_reducible apply outKeeps_next | with_reducible apply outKeeps_ite | (refine keeps_snd (by with_reducible assumption) ?_) | (refine keeps_fst (by with_reducible assumption) ?_) | split)

theorem State.capRead_keeps {z : State} (s0 : State) (e : Exec) (h_s0 : Machine.Keeps z s0) : Machine.Keeps z (State.capRead s0 e) := by
  unfold State.capRead
  try dsimp only
  repeat' (first | with_reducible (first | assumption | apply ite_some_imp | intro _ | apply State.mirrorQp_keeps | apply State.probe_keeps | apply State.readAms_keeps | apply State.request_keeps | apply State.updExec_keeps | apply keeps_getD | apply keeps_ite) | simp only [keeps_mk_iff] | (refine keeps_snd (by with_reducible assumption) ?_) | (refine keeps_fst (by with_reducible assumption) ?_) | split)

theorem execCapsuleRead_keeps {z : State} (i : ExecId) (s : State) (h_s : Machine.Keeps z s) : OutKeeps z (execCapsuleRead i s) := by
  unfold execCapsuleRead
  try dsimp only
  repeat' (first | with_reducible (first | assumption | intro _ | apply State.capRead_keeps | apply State.onExec_keeps | apply outKeeps_next))

theorem State.commitBegin_keeps {z : State} (s : State) (e : Exec) (h_s : Machine.Keeps z s) : Machine.Keeps z (State.commitBegin s e) := by
  unfold State.commitBegin
  try dsimp only
  repeat' (first | with_reducible (first | assumption | intro _ | apply State.headPages_keeps | apply State.updExec_keeps) | simp only [keeps_mk_iff])

theorem execCommit_keeps {z : State} (i : ExecId) (s : State) (h_s : Machine.Keeps z s) : OutKeeps z (execCommit i s) := by
  unfold execCommit
  try dsimp only
  repeat' (first | with_reducible (first | assumption | intro _ | apply State.commitBegin_keeps | apply State.onExec_keeps | apply keeps_ite | apply outKeeps_next | apply outKeeps_ite) | split)

theorem State.copyPart_keeps {z : State} (s0 : State) (e : Exec) (p : Portion) (h_s0 : Machine.Keeps z s0) : Machine.Keeps z (State.copyPart s0 e p) := by
  unfold State.copyPart
  try dsimp only
  repeat' (first | with_reducible (first | assumption | intro _ | apply State.probe_keeps | apply State.readAms_keeps | apply State.updExec_keeps | apply State.updPortion_keeps | apply keeps_id | apply keeps_ite) | simp only [keeps_mk_iff] | (refine keeps_snd (by with_reducible assumption) ?_) | (refine keeps_fst (by with_reducible assumption) ?_) | split)

theorem State.copyStep_keeps {z : State} (s : State) (e : Exec) (h_s : Machine.Keeps z s) : Machine.Keeps z (State.copyStep s e) := by
  unfold State.copyStep
  try dsimp only
  repeat' (first | with_reducible (first | assumption | intro _ | apply State.copyPart_keeps | apply State.layOut_keeps | apply keeps_foldl | apply keeps_foldl_snd | apply keeps_foldl_fst | apply keeps_ite) | split)

theorem execCopy_keeps {z : State} (i : ExecId) (s : State) (h_s : Machine.Keeps z s) : OutKeeps z (execCopy i s) := by
  unfold execCopy
  try dsimp only
  repeat' (first | with_reducible (first | assumption | intro _ | apply State.copyStep_keeps | apply State.onExec_keeps | apply outKeeps_next))

theorem execNotify_keeps {z : State} (i : ExecId) (s : State) (h_s : Machine.Keeps z s) : OutKeeps z (execNotify i s) := by
  unfold execNotify
  try dsimp only
  repeat' (first | with_reducible (first | assumption | intro _ | apply State.endCapsule_keeps | apply State.onExec_keeps | apply keeps_ite) | simp only [keeps_mk_iff] | with_reducible apply outKeeps_next | with_reducible apply outKeeps_ite | split)

theorem State.tryWait_keeps {z : State} (s : State) (e : Exec) (h_s : Machine.Keeps z s) : Machine.Keeps z (State.tryWait s e) := by
  unfold State.tryWait
  try dsimp only
  repeat' (first | with_reducible (first | assumption | apply ite_some_imp | intro _ | apply State.endCapsule_keeps | apply State.updExec_keeps) | simp only [keeps_mk_iff] | (refine keeps_snd (by with_reducible assumption) ?_) | (refine keeps_fst (by with_reducible assumption) ?_) | split)

theorem execWait_keeps {z : State} (i : ExecId) (s : State) (h_s : Machine.Keeps z s) : OutKeeps z (execWait i s) := by
  unfold execWait
  try dsimp only
  repeat' (first | with_reducible (first | assumption | intro _ | apply State.onExec_keeps | apply State.tryWait_keeps | apply keeps_ite | apply outKeeps_next | apply outKeeps_ite) | split)

theorem execWaitSatisfied_keeps {z : State} (i : ExecId) (s : State) (h_s : Machine.Keeps z s) : OutKeeps z (execWaitSatisfied i s) := by
  unfold execWaitSatisfied
  try dsimp only
  repeat' (first | with_reducible (first | assumption | intro _ | apply State.onExec_keeps | apply State.tryWait_keeps | apply keeps_ite | apply outKeeps_next | apply outKeeps_ite) | split)

theorem State.moveTrigger_keeps {z : State} (s : State) (e : Exec) (h_s : Machine.Keeps z s) : Machine.Keeps z (State.moveTrigger s e) := by
  unfold State.moveTrigger
  try dsimp only
  repeat' (first | with_reducible (first | assumption | apply ite_some_imp | intro _ | apply State.endCapsule_keeps | apply State.fire_keeps | apply keeps_id | apply keeps_ite) | simp only [keeps_mk_iff] | (refine keeps_snd (by with_reducible assumption) ?_) | (refine keeps_fst (by with_reducible assumption) ?_) | split)

theorem execMoveTrigger_keeps {z : State} (i : ExecId) (s : State) (h_s : Machine.Keeps z s) : OutKeeps z (execMoveTrigger i s) := by
  unfold execMoveTrigger
  try dsimp only
  repeat' (first | with_reducible (first | assumption | intro _ | apply State.moveTrigger_keeps | apply State.onExec_keeps | apply outKeeps_next))

theorem execCapsuleComplete_keeps {z : State} (i : ExecId) (s : State) (h_s : Machine.Keeps z s) : OutKeeps z (execCapsuleComplete i s) := by
  unfold execCapsuleComplete
  try dsimp only
  repeat' (first | with_reducible (first | assumption | apply ite_some_imp | intro _ | apply State.endCapsule_keeps | apply keeps_ite) | simp only [keeps_mk_iff] | with_reducible apply outKeeps_next | with_reducible apply outKeeps_ite | (refine keeps_snd (by with_reducible assumption) ?_) | (refine keeps_fst (by with_reducible assumption) ?_) | split)

end Sys2Proof.Machine
end

