-- ==== Sys2Proof/Laws/KeepChains.lean ====
section
/-! SUPPORT. What no command changes is kept by every function of `Machine/Chains.lean`. -/

set_option linter.all false

namespace Sys2Proof.Machine

theorem cmdChainCreate_keeps  : (cmdChainCreate).Keeps := by
  intro z k pl s h
  unfold cmdChainCreate
  try unfold actCmd
  try unfold readCmd
  try unfold mirCmd
  try dsimp only
  repeat' (first | with_reducible (first | assumption | apply ite_some_imp | intro _ | apply CmdOut.done_keeps | apply mirCmd_keeps | apply CmdOut.reply_keeps | apply State.updNet_keeps | apply keeps_foldl | apply keeps_foldl_snd | apply keeps_foldl_fst | apply keeps_ite) | simp only [keeps_mk_iff] | exact mirCmd_keeps | with_reducible apply Cmd.out_keeps | with_reducible apply CmdOut.s_keeps | with_reducible apply CmdOut.after_keeps | with_reducible apply CmdOut.ite_keeps | simp only [CmdOut.mk_keeps_iff] | simp only [Cmd.mk_keeps_iff] | with_reducible apply And.intro | (refine keeps_snd (by with_reducible assumption) ?_) | (refine keeps_fst (by with_reducible assumption) ?_) | split)

theorem State.resetDescs_keeps {z : State} (s : State) (c : Nat) (ds : List Desc) (h_s : Machine.Keeps z s) : Machine.Keeps z (State.resetDescs s c ds) := by
  unfold State.resetDescs
  try dsimp only
  repeat' (first | with_reducible (first | assumption | apply ite_some_imp | intro _ | apply State.sendRecord_keeps | apply keeps_foldl | apply keeps_foldl_snd | apply keeps_foldl_fst) | simp only [keeps_mk_iff])

theorem State.resetChain_keeps {z : State} (s : State) (c : Nat) (h_s : Machine.Keeps z s) : Machine.Keeps z (State.resetChain s c) := by
  unfold State.resetChain
  try dsimp only
  repeat' (first | with_reducible (first | assumption | apply ite_some_imp | intro _ | apply State.endCapsule_keeps | apply State.mirrorItem_keeps | apply State.resetDescs_keeps | apply State.updChain_keeps) | simp only [keeps_mk_iff] | (refine keeps_snd (by with_reducible assumption) ?_) | (refine keeps_fst (by with_reducible assumption) ?_) | split)

theorem State.deleteChain_keeps {z : State} (s : State) (c : Nat) (h_s : Machine.Keeps z s) : Machine.Keeps z (State.deleteChain s c) := by
  unfold State.deleteChain
  try dsimp only
  repeat' (first | with_reducible (first | assumption | apply ite_some_imp | intro _ | apply State.endCapsule_keeps | apply State.resetChain_keeps | apply State.updNet_keeps | apply keeps_foldl | apply keeps_foldl_snd | apply keeps_foldl_fst) | simp only [keeps_mk_iff])

theorem cmdChainDelete_keeps  : (cmdChainDelete).Keeps := by
  intro z k pl s h
  unfold cmdChainDelete
  try unfold actCmd
  try unfold readCmd
  try unfold mirCmd
  try dsimp only
  repeat' (first | with_reducible (first | assumption | intro _ | apply State.deleteChain_keeps | apply CmdOut.done_keeps | apply mirCmd_keeps) | simp only [keeps_mk_iff] | exact mirCmd_keeps | with_reducible apply Cmd.out_keeps | with_reducible apply CmdOut.s_keeps | with_reducible apply CmdOut.after_keeps | simp only [CmdOut.mk_keeps_iff] | simp only [Cmd.mk_keeps_iff] | with_reducible apply And.intro)

theorem cmdChainReset_keeps  : (cmdChainReset).Keeps := by
  intro z k pl s h
  unfold cmdChainReset
  try unfold actCmd
  try unfold readCmd
  try unfold mirCmd
  try dsimp only
  repeat' (first | with_reducible (first | assumption | intro _ | apply actCmd_keeps | apply CmdOut.done_keeps | apply State.resetChain_keeps) | simp only [keeps_mk_iff] | exact actCmd_keeps | with_reducible apply Cmd.out_keeps | with_reducible apply CmdOut.s_keeps | with_reducible apply CmdOut.after_keeps | simp only [CmdOut.mk_keeps_iff] | simp only [Cmd.mk_keeps_iff] | with_reducible apply And.intro)

theorem cmdChainPost_keeps  : (cmdChainPost).Keeps := by
  intro z k pl s h
  unfold cmdChainPost
  try unfold actCmd
  try unfold readCmd
  try unfold mirCmd
  try dsimp only
  repeat' (first | with_reducible (first | assumption | intro _ | apply actCmd_keeps | apply CmdOut.done_keeps | apply State.enqueueDesc_keeps | apply keeps_foldl | apply keeps_foldl_snd | apply keeps_foldl_fst | apply keeps_getD | apply keeps_ite) | simp only [keeps_mk_iff] | exact actCmd_keeps | with_reducible apply Cmd.out_keeps | with_reducible apply CmdOut.s_keeps | with_reducible apply CmdOut.after_keeps | with_reducible apply CmdOut.ite_keeps | simp only [CmdOut.mk_keeps_iff] | simp only [Cmd.mk_keeps_iff] | with_reducible apply And.intro | split)

theorem cmdChainStatus_keeps  : (cmdChainStatus).Keeps := by
  intro z k pl s h
  unfold cmdChainStatus
  try unfold actCmd
  try unfold readCmd
  try unfold mirCmd
  try dsimp only
  repeat' (first | with_reducible (first | assumption | apply ite_some_imp | intro _ | apply readCmd_keeps | apply CmdOut.reply_keeps) | simp only [keeps_mk_iff] | exact readCmd_keeps | with_reducible apply Cmd.out_keeps | with_reducible apply CmdOut.s_keeps | with_reducible apply CmdOut.after_keeps | simp only [CmdOut.mk_keeps_iff] | simp only [Cmd.mk_keeps_iff] | with_reducible apply And.intro | (refine keeps_snd (by with_reducible assumption) ?_) | (refine keeps_fst (by with_reducible assumption) ?_) | split)

theorem execChainCreate_keeps {z : State} (f : Frame) (s : State) (h_s : Machine.Keeps z s) : OutKeeps z (execChainCreate f s) := by
  unfold execChainCreate
  try dsimp only
  repeat' (first | with_reducible (first | assumption | intro _ | apply cmdChainCreate_keeps | apply mailbox_keeps) | exact cmdChainCreate_keeps | with_reducible apply outKeeps_next)

theorem execChainDelete_keeps {z : State} (f : Frame) (s : State) (h_s : Machine.Keeps z s) : OutKeeps z (execChainDelete f s) := by
  unfold execChainDelete
  try dsimp only
  repeat' (first | with_reducible (first | assumption | intro _ | apply cmdChainDelete_keeps | apply mailbox_keeps) | exact cmdChainDelete_keeps | with_reducible apply outKeeps_next)

theorem execChainReset_keeps {z : State} (f : Frame) (s : State) (h_s : Machine.Keeps z s) : OutKeeps z (execChainReset f s) := by
  unfold execChainReset
  try dsimp only
  repeat' (first | with_reducible (first | assumption | intro _ | apply cmdChainReset_keeps | apply mailbox_keeps) | exact cmdChainReset_keeps | with_reducible apply outKeeps_next)

theorem execChainPost_keeps {z : State} (f : Frame) (s : State) (h_s : Machine.Keeps z s) : OutKeeps z (execChainPost f s) := by
  unfold execChainPost
  try dsimp only
  repeat' (first | with_reducible (first | assumption | intro _ | apply cmdChainPost_keeps | apply mailbox_keeps) | exact cmdChainPost_keeps | with_reducible apply outKeeps_next)

theorem execChainStatus_keeps {z : State} (f : Frame) (s : State) (h_s : Machine.Keeps z s) : OutKeeps z (execChainStatus f s) := by
  unfold execChainStatus
  try dsimp only
  repeat' (first | with_reducible (first | assumption | intro _ | apply cmdChainStatus_keeps | apply mailbox_keeps) | exact cmdChainStatus_keeps | with_reducible apply outKeeps_next)

end Sys2Proof.Machine
end

