-- ==== Sys2Proof/Laws/KeepFeed.lean ====
section
/-! SUPPORT. What no command changes is kept by every function of `Machine/Feed.lean`. -/

set_option linter.all false

namespace Sys2Proof.Machine

theorem State.panicReads_keeps {z : State} (s : State) (c : StreamCfg) (i : Nat) (on : Bool) (h_s : Machine.Keeps z s) : Machine.Keeps z (State.panicReads s c i on) := by
  unfold State.panicReads
  try dsimp only
  repeat' (first | with_reducible (first | assumption | apply ite_some_imp | intro _ | apply State.markPanic_keeps | apply keeps_foldl | apply keeps_foldl_snd | apply keeps_foldl_fst | apply keeps_ite) | simp only [keeps_mk_iff] | (refine keeps_snd (by with_reducible assumption) ?_) | (refine keeps_fst (by with_reducible assumption) ?_) | split)

theorem State.setNzm_keeps {z : State} (s : State) (n b p e : Nat) (h_s : Machine.Keeps z s) : Machine.Keeps z (State.setNzm s n b p e) := by
  unfold State.setNzm
  try dsimp only
  repeat' (first | with_reducible (first | assumption | intro _ | apply State.setBytes_keeps))

theorem State.switchBank_keeps {z : State} (s : State) (n : Nat) (h_s : Machine.Keeps z s) : Machine.Keeps z (State.switchBank s n) := by
  unfold State.switchBank
  try dsimp only
  repeat' (first | with_reducible (first | assumption | apply ite_some_imp | intro _ | apply State.ev_keeps | apply State.updStream_keeps) | simp only [keeps_mk_iff])

theorem State.trySwitch_keeps {z : State} (s : State) (n : Nat) (h_s : Machine.Keeps z s) : Machine.Keeps z (State.trySwitch s n) := by
  unfold State.trySwitch
  try dsimp only
  repeat' (first | with_reducible (first | assumption | apply ite_some_imp | intro _ | apply State.switchBank_keeps | apply keeps_ite) | simp only [keeps_mk_iff] | (refine keeps_snd (by with_reducible assumption) ?_) | (refine keeps_fst (by with_reducible assumption) ?_) | split)

theorem State.prefetchDone_keeps {z : State} (s : State) (n : Nat) (bad : List Nat) (near : List NearErr) (h_s : Machine.Keeps z s) : Machine.Keeps z (State.prefetchDone s n bad near) := by
  unfold State.prefetchDone
  try dsimp only
  repeat' (first | with_reducible (first | assumption | apply ite_some_imp | intro _ | apply State.addNear_keeps | apply State.bump_keeps | apply State.ev_keeps | apply State.issue_keeps | apply State.notePanic_keeps | apply State.panicReads_keeps | apply State.probe_keeps | apply State.readAms_keeps | apply State.updStream_keeps | apply keeps_foldl | apply keeps_foldl_snd | apply keeps_foldl_fst | apply keeps_getD | apply keeps_ite) | simp only [keeps_mk_iff] | (refine keeps_snd (by with_reducible assumption) ?_) | (refine keeps_fst (by with_reducible assumption) ?_) | split)

theorem execPrefetchDone_keeps {z : State} (stream : Nat) (bad : List Nat) (near : List NearErr) (s : State) (h_s : Machine.Keeps z s) : OutKeeps z (execPrefetchDone stream bad near s) := by
  unfold execPrefetchDone
  try dsimp only
  repeat' (first | with_reducible (first | assumption | intro _ | apply State.prefetchDone_keeps | apply keeps_ite | apply outKeeps_next | exact outKeeps_fault _ | apply outKeeps_ite) | split)

theorem State.answerStart_keeps {z : State} (s : State) (n : Nat) (h_s : Machine.Keeps z s) : Machine.Keeps z (State.answerStart s n) := by
  unfold State.answerStart
  try dsimp only
  repeat' (first | with_reducible (first | assumption | apply ite_some_imp | intro _ | apply State.finishWait_keeps | apply State.updStream_keeps | apply keeps_ite) | simp only [keeps_mk_iff] | (refine keeps_snd (by with_reducible assumption) ?_) | (refine keeps_fst (by with_reducible assumption) ?_) | split)

theorem State.fifoFull_keeps {z : State} (s : State) (n : Nat) (h_s : Machine.Keeps z s) : Machine.Keeps z (State.fifoFull s n) := by
  unfold State.fifoFull
  try dsimp only
  repeat' (first | with_reducible (first | assumption | apply ite_some_imp | intro _ | apply State.answerStart_keeps | apply State.updStream_keeps | apply keeps_ite) | simp only [keeps_mk_iff] | (refine keeps_snd (by with_reducible assumption) ?_) | (refine keeps_fst (by with_reducible assumption) ?_) | split)

theorem execFifoFull_keeps {z : State} (stream : Nat) (s : State) (h_s : Machine.Keeps z s) : OutKeeps z (execFifoFull stream s) := by
  unfold execFifoFull
  try dsimp only
  repeat' (first | with_reducible (first | assumption | intro _ | apply State.fifoFull_keeps | apply outKeeps_next))

theorem State.fillStream_keeps {z : State} (s : State) (c : StreamCfg) (h_s : Machine.Keeps z s) : Machine.Keeps z (State.fillStream s c) := by
  unfold State.fillStream
  try dsimp only
  repeat' (first | with_reducible (first | assumption | apply ite_some_imp | intro _ | apply State.issue_keeps | apply State.noteFeedBw_keeps | apply State.updStream_keeps) | simp only [keeps_mk_iff])

theorem State.coverReport_keeps {z : State} (s : State) (n : Nat) (h_s : Machine.Keeps z s) : Machine.Keeps z (State.coverReport s n) := by
  unfold State.coverReport
  try dsimp only
  repeat' (first | with_reducible (first | assumption | apply ite_some_imp | intro _ | apply State.answerStart_keeps | apply State.draw_keeps | apply State.feedFault_keeps | apply State.updStream_keeps | apply keeps_ite) | simp only [keeps_mk_iff] | (refine keeps_snd (by with_reducible assumption) ?_) | (refine keeps_fst (by with_reducible assumption) ?_) | split)

theorem State.coverReports_keeps {z : State} (s : State) (seq : Nat) (h_s : Machine.Keeps z s) : Machine.Keeps z (State.coverReports s seq) := by
  unfold State.coverReports
  try dsimp only
  repeat' (first | with_reducible (first | assumption | intro _ | apply State.coverReport_keeps | apply keeps_foldl | apply keeps_foldl_snd | apply keeps_foldl_fst))

theorem execFeedCoverTimeout_keeps {z : State} (stream : Nat) (s : State) (h_s : Machine.Keeps z s) : OutKeeps z (execFeedCoverTimeout stream s) := by
  unfold execFeedCoverTimeout
  try dsimp only
  repeat' (first | with_reducible (first | assumption | apply ite_some_imp | intro _ | apply State.answerStart_keeps | apply State.feedFault_keeps | apply State.updStream_keeps | apply keeps_ite) | simp only [keeps_mk_iff] | with_reducible apply outKeeps_next | with_reducible apply outKeeps_ite | (refine keeps_snd (by with_reducible assumption) ?_) | (refine keeps_fst (by with_reducible assumption) ?_) | split)

theorem State.updFtile_keeps {z : State} (s : State) (t : Nat) (f : FeedTile → FeedTile) (h_s : Machine.Keeps z s) : Machine.Keeps z (State.updFtile s t f) := by
  unfold State.updFtile
  try dsimp only
  repeat' (first | with_reducible (first | assumption | intro _ | apply State.updFeed_keeps) | simp only [keeps_mk_iff])

theorem State.sendLine_keeps {z : State} (s : State) (n : Nat) (h_s : Machine.Keeps z s) : Machine.Keeps z (State.sendLine s n) := by
  unfold State.sendLine
  try dsimp only
  repeat' (first | with_reducible (first | assumption | apply ite_some_imp | intro _ | apply State.bump_keeps | apply State.evRec_keeps | apply State.feedFault_keeps | apply State.issue_keeps | apply State.notePanic_keeps | apply State.send_keeps | apply State.trySwitch_keeps | apply State.updStream_keeps | apply keeps_ite) | simp only [keeps_mk_iff] | (refine keeps_snd (by with_reducible assumption) ?_) | (refine keeps_fst (by with_reducible assumption) ?_) | split)

theorem State.edgeStream_keeps {z : State} (s : State) (n : Nat) (h_s : Machine.Keeps z s) : Machine.Keeps z (State.edgeStream s n) := by
  unfold State.edgeStream
  try dsimp only
  repeat' (first | with_reducible (first | assumption | apply ite_some_imp | intro _ | apply State.bump_keeps | apply State.ev_keeps | apply State.sendLine_keeps | apply State.updStream_keeps | apply keeps_ite) | simp only [keeps_mk_iff] | (refine keeps_snd (by with_reducible assumption) ?_) | (refine keeps_fst (by with_reducible assumption) ?_) | split)

theorem State.strobe_keeps {z : State} (s : State) (t stb : Nat) (h_s : Machine.Keeps z s) : Machine.Keeps z (State.strobe s t stb) := by
  unfold State.strobe
  try dsimp only
  repeat' (first | with_reducible (first | assumption | intro _ | apply State.edgeStream_keeps | apply State.updFtile_keeps | apply keeps_foldl | apply keeps_foldl_snd | apply keeps_foldl_fst | apply keeps_ite) | simp only [keeps_mk_iff] | split)

theorem execStrobeEdge_keeps {z : State} (tile stb : Nat) (s : State) (h_s : Machine.Keeps z s) : OutKeeps z (execStrobeEdge tile stb s) := by
  unfold execStrobeEdge
  try dsimp only
  repeat' (first | with_reducible (first | assumption | intro _ | apply onUnit_keeps | apply State.strobe_keeps | apply outKeeps_next))

theorem execStrobeEarly_keeps {z : State} (tile stb : Nat) (s : State) (h_s : Machine.Keeps z s) : OutKeeps z (execStrobeEarly tile stb s) := by
  unfold execStrobeEarly
  try dsimp only
  repeat' (first | with_reducible (first | assumption | intro _ | apply onUnit_keeps | apply State.strobe_keeps | apply keeps_ite | apply outKeeps_next | apply outKeeps_ite) | split)

theorem State.moveLane_keeps {z : State} (s : State) (n : Nat) (h_s : Machine.Keeps z s) : Machine.Keeps z (State.moveLane s n) := by
  unfold State.moveLane
  try dsimp only
  repeat' (first | with_reducible (first | assumption | intro _ | apply State.updStream_keeps | apply keeps_ite) | simp only [keeps_mk_iff] | split)

theorem State.laneLeft_keeps {z : State} (s : State) (t : Nat) (h_s : Machine.Keeps z s) : Machine.Keeps z (State.laneLeft s t) := by
  unfold State.laneLeft
  try dsimp only
  repeat' (first | with_reducible (first | assumption | apply ite_some_imp | intro _ | apply State.setF_keeps | apply State.updFtile_keeps | apply keeps_ite) | simp only [keeps_mk_iff] | (refine keeps_snd (by with_reducible assumption) ?_) | (refine keeps_fst (by with_reducible assumption) ?_) | split)

theorem State.frameEnd_keeps {z : State} (s : State) (n : Nat) (h_s : Machine.Keeps z s) : Machine.Keeps z (State.frameEnd s n) := by
  unfold State.frameEnd
  try dsimp only
  repeat' (first | with_reducible (first | assumption | apply ite_some_imp | intro _ | apply State.laneLeft_keeps | apply State.moveLane_keeps | apply State.sendLine_keeps | apply State.streamIdle_keeps | apply State.updStream_keeps | apply keeps_ite) | simp only [keeps_mk_iff] | (refine keeps_snd (by with_reducible assumption) ?_) | (refine keeps_fst (by with_reducible assumption) ?_) | split)

theorem execFrameEnd_keeps {z : State} (stream : Nat) (s : State) (h_s : Machine.Keeps z s) : OutKeeps z (execFrameEnd stream s) := by
  unfold execFrameEnd
  try dsimp only
  repeat' (first | with_reducible (first | assumption | intro _ | apply State.frameEnd_keeps | apply outKeeps_next))

theorem State.indexMark_keeps {z : State} (s : State) (t : Nat) (h_s : Machine.Keeps z s) : Machine.Keeps z (State.indexMark s t) := by
  unfold State.indexMark
  try dsimp only
  repeat' (first | with_reducible (first | assumption | intro _ | apply State.mirrorItem_keeps | apply keeps_ite) | split)

theorem State.indexPulse_keeps {z : State} (s : State) (t : Nat) (h_s : Machine.Keeps z s) : Machine.Keeps z (State.indexPulse s t) := by
  unfold State.indexPulse
  try dsimp only
  repeat' (first | with_reducible (first | assumption | intro _ | apply State.ev_keeps | apply State.indexMark_keeps | apply State.updFeed_keeps | apply State.updFtile_keeps | apply keeps_ite) | simp only [keeps_mk_iff] | split)

theorem execIndexPulse_keeps {z : State} (tile : Nat) (s : State) (h_s : Machine.Keeps z s) : OutKeeps z (execIndexPulse tile s) := by
  unfold execIndexPulse
  try dsimp only
  repeat' (first | with_reducible (first | assumption | intro _ | apply State.indexPulse_keeps | apply onTile_keeps | apply outKeeps_next))

theorem State.applyMark_keeps {z : State} (s : State) (t n skip seq : Nat) (h_s : Machine.Keeps z s) : Machine.Keeps z (State.applyMark s t n skip seq) := by
  unfold State.applyMark
  try dsimp only
  repeat' (first | with_reducible (first | assumption | apply ite_some_imp | intro _ | apply State.bump_keeps | apply State.evRec_keeps | apply State.feedFault_keeps | apply State.issue_keeps | apply State.trySwitch_keeps | apply State.updStream_keeps | apply keeps_ite) | simp only [keeps_mk_iff] | (refine keeps_snd (by with_reducible assumption) ?_) | (refine keeps_fst (by with_reducible assumption) ?_) | split)

theorem State.markArrives_keeps {z : State} (s : State) (t : Nat) (body : List Byte) (h_s : Machine.Keeps z s) : Machine.Keeps z (State.markArrives s t body) := by
  unfold State.markArrives
  try dsimp only
  repeat' (first | with_reducible (first | assumption | intro _ | apply State.applyMark_keeps | apply State.ev_keeps | apply State.updFtile_keeps | apply keeps_foldl | apply keeps_foldl_snd | apply keeps_foldl_fst | apply keeps_ite) | simp only [keeps_mk_iff] | split)

theorem execFifoBooksCheck_keeps {z : State} (tile : Nat) (s : State) (h_s : Machine.Keeps z s) : OutKeeps z (execFifoBooksCheck tile s) := by
  unfold execFifoBooksCheck
  try dsimp only
  repeat' (first | with_reducible (first | assumption | intro _ | apply State.evRec_keeps | apply onTile_keeps | apply State.updFeed_keeps | apply keeps_ite) | simp only [keeps_mk_iff] | with_reducible apply outKeeps_next | with_reducible apply outKeeps_ite | split)

theorem execLidSend_keeps {z : State} (tile : Nat) (s : State) (h_s : Machine.Keeps z s) : OutKeeps z (execLidSend tile s) := by
  unfold execLidSend
  try dsimp only
  repeat' (first | with_reducible (first | assumption | intro _ | apply onTile_keeps | apply State.send_keeps | apply keeps_foldl | apply keeps_foldl_snd | apply keeps_foldl_fst | apply keeps_ite | apply outKeeps_next | apply outKeeps_ite) | split)

theorem State.crossCheck_keeps {z : State} (s : State) (t lane : Nat) (d : List Byte) (h_s : Machine.Keeps z s) : Machine.Keeps z (State.crossCheck s t lane d) := by
  unfold State.crossCheck
  try dsimp only
  repeat' (first | with_reducible (first | assumption | apply ite_some_imp | intro _ | apply State.evRec_keeps | apply State.feedFault_keeps | apply keeps_foldl | apply keeps_foldl_snd | apply keeps_foldl_fst | apply keeps_ite) | simp only [keeps_mk_iff] | (refine keeps_snd (by with_reducible assumption) ?_) | (refine keeps_fst (by with_reducible assumption) ?_) | split)

theorem State.laneUp_keeps {z : State} (s : State) (t : Nat) (h_s : Machine.Keeps z s) : Machine.Keeps z (State.laneUp s t) := by
  unfold State.laneUp
  try dsimp only
  repeat' (first | with_reducible (first | assumption | intro _ | apply State.laneLeft_keeps | apply State.moveLane_keeps | apply State.updFtile_keeps | apply keeps_foldl | apply keeps_foldl_snd | apply keeps_foldl_fst) | simp only [keeps_mk_iff])

theorem State.statusFrame_keeps {z : State} (s : State) (t lane : Nat) (d : List Byte) (crc : Nat) (h_s : Machine.Keeps z s) : Machine.Keeps z (State.statusFrame s t lane d crc) := by
  unfold State.statusFrame
  try dsimp only
  repeat' (first | with_reducible (first | assumption | intro _ | apply State.bump_keeps | apply State.crossCheck_keeps | apply State.laneUp_keeps | apply State.setF_keeps | apply State.updFtile_keeps | apply keeps_ite) | simp only [keeps_mk_iff] | split)

theorem execStatusFrame_keeps {z : State} (tile lane : Nat) (data : List Byte) (crc : Nat) (s : State) (h_s : Machine.Keeps z s) : OutKeeps z (execStatusFrame tile lane data crc s) := by
  unfold execStatusFrame
  try dsimp only
  repeat' (first | with_reducible (first | assumption | intro _ | apply onUnit_keeps | apply State.statusFrame_keeps | apply outKeeps_next))

theorem State.spareLane_keeps {z : State} (s : State) (t lane : Nat) (h_s : Machine.Keeps z s) : Machine.Keeps z (State.spareLane s t lane) := by
  unfold State.spareLane
  try dsimp only
  repeat' (first | with_reducible (first | assumption | intro _ | apply State.setFs_keeps | apply State.updFtile_keeps) | simp only [keeps_mk_iff])

theorem execLaneFailing_keeps {z : State} (tile lane : Nat) (lost : Bool) (s : State) (h_s : Machine.Keeps z s) : OutKeeps z (execLaneFailing tile lane lost s) := by
  unfold execLaneFailing
  try dsimp only
  repeat' (first | with_reducible (first | assumption | intro _ | apply State.ev_keeps | apply State.feedFault_keeps | apply onUnit_keeps | apply State.setF_keeps | apply State.spareLane_keeps | apply keeps_ite | apply outKeeps_next | apply outKeeps_ite) | split)

theorem execSpareStatusOk_keeps {z : State} (tile : Nat) (s : State) (h_s : Machine.Keeps z s) : OutKeeps z (execSpareStatusOk tile s) := by
  unfold execSpareStatusOk
  try dsimp only
  repeat' (first | with_reducible (first | assumption | apply ite_some_imp | intro _ | apply State.ev_keeps | apply State.feedFault_keeps | apply State.laneUp_keeps | apply onTile_keeps | apply keeps_ite) | simp only [keeps_mk_iff] | with_reducible apply outKeeps_next | with_reducible apply outKeeps_ite | (refine keeps_snd (by with_reducible assumption) ?_) | (refine keeps_fst (by with_reducible assumption) ?_) | split)

theorem execSpareTimeout_keeps {z : State} (tile : Nat) (s : State) (h_s : Machine.Keeps z s) : OutKeeps z (execSpareTimeout tile s) := by
  unfold execSpareTimeout
  try dsimp only
  repeat' (first | with_reducible (first | assumption | apply ite_some_imp | intro _ | apply State.ev_keeps | apply State.feedFault_keeps | apply onTile_keeps | apply State.setF_keeps | apply State.setFs_keeps | apply State.updFtile_keeps | apply keeps_ite) | simp only [keeps_mk_iff] | with_reducible apply outKeeps_next | with_reducible apply outKeeps_ite | (refine keeps_snd (by with_reducible assumption) ?_) | (refine keeps_fst (by with_reducible assumption) ?_) | split)

theorem execBlockLock_keeps {z : State} (tile lane : Nat) (s : State) (h_s : Machine.Keeps z s) : OutKeeps z (execBlockLock tile lane s) := by
  unfold execBlockLock
  try dsimp only
  repeat' (first | with_reducible (first | assumption | intro _ | apply onUnit_keeps | apply State.setF_keeps | apply outKeeps_next))

theorem cmdFeedStreamSet_keeps  : (cmdFeedStreamSet).Keeps := by
  intro z k pl s h
  unfold cmdFeedStreamSet
  try unfold actCmd
  try unfold readCmd
  try unfold mirCmd
  try dsimp only
  repeat' (first | with_reducible (first | assumption | apply ite_some_imp | intro _ | apply CmdOut.done_keeps | apply mirCmd_keeps | apply State.updFeed_keeps | apply State.updStream_keeps | apply keeps_ite) | simp only [keeps_mk_iff] | exact mirCmd_keeps | with_reducible apply Cmd.out_keeps | with_reducible apply CmdOut.s_keeps | with_reducible apply CmdOut.after_keeps | with_reducible apply CmdOut.ite_keeps | simp only [CmdOut.mk_keeps_iff] | simp only [Cmd.mk_keeps_iff] | with_reducible apply And.intro | (refine keeps_snd (by with_reducible assumption) ?_) | (refine keeps_fst (by with_reducible assumption) ?_) | split)

theorem cmdFeedStreamClear_keeps  : (cmdFeedStreamClear).Keeps := by
  intro z k pl s h
  unfold cmdFeedStreamClear
  try unfold actCmd
  try unfold readCmd
  try unfold mirCmd
  try dsimp only
  repeat' (first | with_reducible (first | assumption | apply ite_some_imp | intro _ | apply CmdOut.done_keeps | apply mirCmd_keeps | apply State.updFeed_keeps | apply keeps_ite) | simp only [keeps_mk_iff] | exact mirCmd_keeps | with_reducible apply Cmd.out_keeps | with_reducible apply CmdOut.s_keeps | with_reducible apply CmdOut.after_keeps | with_reducible apply CmdOut.ite_keeps | simp only [CmdOut.mk_keeps_iff] | simp only [Cmd.mk_keeps_iff] | with_reducible apply And.intro | (refine keeps_snd (by with_reducible assumption) ?_) | (refine keeps_fst (by with_reducible assumption) ?_) | split)

theorem refuseAdmit_keeps {z : State} (s : State) (code : Nat) (st : Status) (h_s : Machine.Keeps z s) : (refuseAdmit s code st).Keeps z := by
  unfold refuseAdmit
  try dsimp only
  repeat' (first | with_reducible (first | assumption | apply ite_some_imp | intro _ | apply keeps_id) | simp only [keeps_mk_iff] | with_reducible apply Cmd.out_keeps | with_reducible apply CmdOut.s_keeps | with_reducible apply CmdOut.after_keeps | simp only [CmdOut.mk_keeps_iff] | simp only [Cmd.mk_keeps_iff] | with_reducible apply And.intro)

theorem runFeedStart_keeps {z : State} (x0 : Caller) (pl : List Byte) (s : State) (h_s : Machine.Keeps z s) : (runFeedStart x0 pl s).Keeps z := by
  unfold runFeedStart
  try dsimp only
  repeat' (first | with_reducible (first | assumption | apply ite_some_imp | intro _ | apply CmdOut.done_keeps | apply State.ev_keeps | apply State.fillStream_keeps | apply refuseAdmit_keeps | apply State.updStream_keeps | apply keeps_ite) | simp only [keeps_mk_iff] | with_reducible apply Cmd.out_keeps | with_reducible apply CmdOut.s_keeps | with_reducible apply CmdOut.after_keeps | with_reducible apply CmdOut.ite_keeps | simp only [CmdOut.mk_keeps_iff] | simp only [Cmd.mk_keeps_iff] | with_reducible apply And.intro | (refine keeps_snd (by with_reducible assumption) ?_) | (refine keeps_fst (by with_reducible assumption) ?_) | split)

theorem cmdFeedStart_keeps  : (cmdFeedStart).Keeps := by
  intro z k pl s h
  unfold cmdFeedStart
  try unfold actCmd
  try unfold readCmd
  try unfold mirCmd
  try dsimp only
  repeat' (first | with_reducible (first | assumption | intro _ | apply mirCmd_keeps | apply runFeedStart_keeps) | simp only [keeps_mk_iff] | exact mirCmd_keeps | with_reducible apply Cmd.out_keeps | with_reducible apply CmdOut.s_keeps | with_reducible apply CmdOut.after_keeps | simp only [CmdOut.mk_keeps_iff] | simp only [Cmd.mk_keeps_iff] | with_reducible apply And.intro)

theorem cmdFeedStop_keeps  : (cmdFeedStop).Keeps := by
  intro z k pl s h
  unfold cmdFeedStop
  try unfold actCmd
  try unfold readCmd
  try unfold mirCmd
  try dsimp only
  repeat' (first | with_reducible (first | assumption | apply ite_some_imp | intro _ | apply CmdOut.done_keeps | apply State.haltStream_keeps | apply mirCmd_keeps | apply keeps_ite) | simp only [keeps_mk_iff] | exact mirCmd_keeps | with_reducible apply Cmd.out_keeps | with_reducible apply CmdOut.s_keeps | with_reducible apply CmdOut.after_keeps | with_reducible apply CmdOut.ite_keeps | simp only [CmdOut.mk_keeps_iff] | simp only [Cmd.mk_keeps_iff] | with_reducible apply And.intro | (refine keeps_snd (by with_reducible assumption) ?_) | (refine keeps_fst (by with_reducible assumption) ?_) | split)

theorem cmdFeedAdmitCheck_keeps  : (cmdFeedAdmitCheck).Keeps := by
  intro z k pl s h
  unfold cmdFeedAdmitCheck
  try unfold actCmd
  try unfold readCmd
  try unfold mirCmd
  try dsimp only
  repeat' (first | with_reducible (first | assumption | apply ite_some_imp | intro _ | apply CmdOut.done_keeps | apply readCmd_keeps | apply refuseAdmit_keeps | apply CmdOut.reply_keeps | apply State.updStream_keeps) | simp only [keeps_mk_iff] | exact readCmd_keeps | with_reducible apply Cmd.out_keeps | with_reducible apply CmdOut.s_keeps | with_reducible apply CmdOut.after_keeps | simp only [CmdOut.mk_keeps_iff] | simp only [Cmd.mk_keeps_iff] | with_reducible apply And.intro | (refine keeps_snd (by with_reducible assumption) ?_) | (refine keeps_fst (by with_reducible assumption) ?_) | split)

theorem cmdFeedMapLoad_keeps  : (cmdFeedMapLoad).Keeps := by
  intro z k pl s h
  unfold cmdFeedMapLoad
  try unfold actCmd
  try unfold readCmd
  try unfold mirCmd
  try dsimp only
  repeat' (first | with_reducible (first | assumption | apply ite_some_imp | intro _ | apply CmdOut.done_keeps | apply State.drop_keeps | apply State.ev_keeps | apply mirCmd_keeps | apply State.setNzm_keeps | apply keeps_foldl | apply keeps_foldl_snd | apply keeps_foldl_fst | apply keeps_getD | apply keeps_ite) | simp only [keeps_mk_iff] | exact mirCmd_keeps | with_reducible apply Cmd.out_keeps | with_reducible apply CmdOut.s_keeps | with_reducible apply CmdOut.after_keeps | with_reducible apply CmdOut.ite_keeps | simp only [CmdOut.mk_keeps_iff] | simp only [Cmd.mk_keeps_iff] | with_reducible apply And.intro | (refine keeps_snd (by with_reducible assumption) ?_) | (refine keeps_fst (by with_reducible assumption) ?_) | split)

theorem runMapSwitch_keeps {z : State} (x0 : Caller) (pl : List Byte) (s : State) (h_s : Machine.Keeps z s) : (runMapSwitch x0 pl s).Keeps z := by
  unfold runMapSwitch
  try dsimp only
  repeat' (first | with_reducible (first | assumption | apply ite_some_imp | intro _ | apply CmdOut.done_keeps | apply State.issue_keeps | apply State.switchBank_keeps | apply State.trySwitch_keeps | apply State.updStream_keeps | apply keeps_id | apply keeps_ite) | simp only [keeps_mk_iff] | with_reducible apply Cmd.out_keeps | with_reducible apply CmdOut.s_keeps | with_reducible apply CmdOut.after_keeps | with_reducible apply CmdOut.ite_keeps | simp only [CmdOut.mk_keeps_iff] | simp only [Cmd.mk_keeps_iff] | with_reducible apply And.intro | (refine keeps_snd (by with_reducible assumption) ?_) | (refine keeps_fst (by with_reducible assumption) ?_) | split)

theorem cmdFeedMapSwitch_keeps  : (cmdFeedMapSwitch).Keeps := by
  intro z k pl s h
  unfold cmdFeedMapSwitch
  try unfold actCmd
  try unfold readCmd
  try unfold mirCmd
  try dsimp only
  repeat' (first | with_reducible (first | assumption | intro _ | apply mirCmd_keeps | apply runMapSwitch_keeps) | simp only [keeps_mk_iff] | exact mirCmd_keeps | with_reducible apply Cmd.out_keeps | with_reducible apply CmdOut.s_keeps | with_reducible apply CmdOut.after_keeps | simp only [CmdOut.mk_keeps_iff] | simp only [Cmd.mk_keeps_iff] | with_reducible apply And.intro | (refine keeps_snd (by with_reducible assumption) ?_) | (refine keeps_fst (by with_reducible assumption) ?_) | split)

theorem State.powerLanes_keeps {z : State} (s : State) (t : Nat) (h_s : Machine.Keeps z s) : Machine.Keeps z (State.powerLanes s t) := by
  unfold State.powerLanes
  try dsimp only
  repeat' (first | with_reducible (first | assumption | intro _ | apply State.setF_keeps | apply keeps_ite) | split)

theorem cmdFeedLaneConfig_keeps  : (cmdFeedLaneConfig).Keeps := by
  intro z k pl s h
  unfold cmdFeedLaneConfig
  try unfold actCmd
  try unfold readCmd
  try unfold mirCmd
  try dsimp only
  repeat' (first | with_reducible (first | assumption | intro _ | apply actCmd_keeps | apply State.allTiles_keeps | apply State.config_keeps | apply State.configAll_keeps | apply CmdOut.done_keeps | apply State.powerLanes_keeps | apply keeps_foldl | apply keeps_foldl_snd | apply keeps_foldl_fst) | simp only [keeps_mk_iff] | exact actCmd_keeps | with_reducible apply Cmd.out_keeps | with_reducible apply CmdOut.s_keeps | with_reducible apply CmdOut.after_keeps | simp only [CmdOut.mk_keeps_iff] | simp only [Cmd.mk_keeps_iff] | with_reducible apply And.intro | (refine keeps_snd (by with_reducible assumption) ?_) | (refine keeps_fst (by with_reducible assumption) ?_) | split)

theorem cmdFeedLaneSpare_keeps  : (cmdFeedLaneSpare).Keeps := by
  intro z k pl s h
  unfold cmdFeedLaneSpare
  try unfold actCmd
  try unfold readCmd
  try unfold mirCmd
  try dsimp only
  repeat' (first | with_reducible (first | assumption | intro _ | apply actCmd_keeps | apply State.config_keeps | apply CmdOut.done_keeps | apply State.spareLane_keeps | apply keeps_ite) | simp only [keeps_mk_iff] | exact actCmd_keeps | with_reducible apply Cmd.out_keeps | with_reducible apply CmdOut.s_keeps | with_reducible apply CmdOut.after_keeps | with_reducible apply CmdOut.ite_keeps | simp only [CmdOut.mk_keeps_iff] | simp only [Cmd.mk_keeps_iff] | with_reducible apply And.intro | split)

theorem cmdFeedLaneRestore_keeps  : (cmdFeedLaneRestore).Keeps := by
  intro z k pl s h
  unfold cmdFeedLaneRestore
  try unfold actCmd
  try unfold readCmd
  try unfold mirCmd
  try dsimp only
  repeat' (first | with_reducible (first | assumption | intro _ | apply actCmd_keeps | apply State.config_keeps | apply CmdOut.done_keeps | apply State.setF_keeps | apply State.updFtile_keeps | apply keeps_ite) | simp only [keeps_mk_iff] | exact actCmd_keeps | with_reducible apply Cmd.out_keeps | with_reducible apply CmdOut.s_keeps | with_reducible apply CmdOut.after_keeps | with_reducible apply CmdOut.ite_keeps | simp only [CmdOut.mk_keeps_iff] | simp only [Cmd.mk_keeps_iff] | with_reducible apply And.intro | split)

theorem cmdFeedStatus_keeps  : (cmdFeedStatus).Keeps := by
  intro z k pl s h
  unfold cmdFeedStatus
  try unfold actCmd
  try unfold readCmd
  try unfold mirCmd
  try dsimp only
  repeat' (first | with_reducible (first | assumption | intro _ | apply readCmd_keeps | apply CmdOut.reply_keeps | apply keeps_getD | apply keeps_id) | simp only [keeps_mk_iff] | exact readCmd_keeps | with_reducible apply Cmd.out_keeps | with_reducible apply CmdOut.s_keeps | with_reducible apply CmdOut.after_keeps | simp only [CmdOut.mk_keeps_iff] | simp only [Cmd.mk_keeps_iff] | with_reducible apply And.intro | (refine keeps_snd (by with_reducible assumption) ?_) | (refine keeps_fst (by with_reducible assumption) ?_) | split)

theorem execFeedStatus_keeps {z : State} (f : Frame) (s : State) (h_s : Machine.Keeps z s) : OutKeeps z (execFeedStatus f s) := by
  unfold execFeedStatus
  try dsimp only
  repeat' (first | with_reducible (first | assumption | intro _ | apply cmdFeedStatus_keeps | apply mailbox_keeps) | exact cmdFeedStatus_keeps | with_reducible apply outKeeps_next)

theorem execFeedStreamSet_keeps {z : State} (f : Frame) (s : State) (h_s : Machine.Keeps z s) : OutKeeps z (execFeedStreamSet f s) := by
  unfold execFeedStreamSet
  try dsimp only
  repeat' (first | with_reducible (first | assumption | intro _ | apply cmdFeedStreamSet_keeps | apply mailbox_keeps) | exact cmdFeedStreamSet_keeps | with_reducible apply outKeeps_next)

theorem execFeedStreamClear_keeps {z : State} (f : Frame) (s : State) (h_s : Machine.Keeps z s) : OutKeeps z (execFeedStreamClear f s) := by
  unfold execFeedStreamClear
  try dsimp only
  repeat' (first | with_reducible (first | assumption | intro _ | apply cmdFeedStreamClear_keeps | apply mailbox_keeps) | exact cmdFeedStreamClear_keeps | with_reducible apply outKeeps_next)

theorem execFeedStart_keeps {z : State} (f : Frame) (s : State) (h_s : Machine.Keeps z s) : OutKeeps z (execFeedStart f s) := by
  unfold execFeedStart
  try dsimp only
  repeat' (first | with_reducible (first | assumption | intro _ | apply cmdFeedStart_keeps | apply mailbox_keeps) | exact cmdFeedStart_keeps | with_reducible apply outKeeps_next)

theorem execFeedStop_keeps {z : State} (f : Frame) (s : State) (h_s : Machine.Keeps z s) : OutKeeps z (execFeedStop f s) := by
  unfold execFeedStop
  try dsimp only
  repeat' (first | with_reducible (first | assumption | intro _ | apply cmdFeedStop_keeps | apply mailbox_keeps) | exact cmdFeedStop_keeps | with_reducible apply outKeeps_next)

theorem execFeedAdmitCheck_keeps {z : State} (f : Frame) (s : State) (h_s : Machine.Keeps z s) : OutKeeps z (execFeedAdmitCheck f s) := by
  unfold execFeedAdmitCheck
  try dsimp only
  repeat' (first | with_reducible (first | assumption | intro _ | apply cmdFeedAdmitCheck_keeps | apply mailbox_keeps) | exact cmdFeedAdmitCheck_keeps | with_reducible apply outKeeps_next)

theorem execFeedMapLoad_keeps {z : State} (f : Frame) (s : State) (h_s : Machine.Keeps z s) : OutKeeps z (execFeedMapLoad f s) := by
  unfold execFeedMapLoad
  try dsimp only
  repeat' (first | with_reducible (first | assumption | intro _ | apply cmdFeedMapLoad_keeps | apply mailbox_keeps) | exact cmdFeedMapLoad_keeps | with_reducible apply outKeeps_next)

theorem execFeedMapSwitch_keeps {z : State} (f : Frame) (s : State) (h_s : Machine.Keeps z s) : OutKeeps z (execFeedMapSwitch f s) := by
  unfold execFeedMapSwitch
  try dsimp only
  repeat' (first | with_reducible (first | assumption | intro _ | apply cmdFeedMapSwitch_keeps | apply mailbox_keeps) | exact cmdFeedMapSwitch_keeps | with_reducible apply outKeeps_next)

theorem execFeedLaneConfig_keeps {z : State} (f : Frame) (s : State) (h_s : Machine.Keeps z s) : OutKeeps z (execFeedLaneConfig f s) := by
  unfold execFeedLaneConfig
  try dsimp only
  repeat' (first | with_reducible (first | assumption | intro _ | apply cmdFeedLaneConfig_keeps | apply mailbox_keeps) | exact cmdFeedLaneConfig_keeps | with_reducible apply outKeeps_next)

theorem execFeedLaneSpare_keeps {z : State} (f : Frame) (s : State) (h_s : Machine.Keeps z s) : OutKeeps z (execFeedLaneSpare f s) := by
  unfold execFeedLaneSpare
  try dsimp only
  repeat' (first | with_reducible (first | assumption | intro _ | apply cmdFeedLaneSpare_keeps | apply mailbox_keeps) | exact cmdFeedLaneSpare_keeps | with_reducible apply outKeeps_next)

theorem execFeedLaneRestore_keeps {z : State} (f : Frame) (s : State) (h_s : Machine.Keeps z s) : OutKeeps z (execFeedLaneRestore f s) := by
  unfold execFeedLaneRestore
  try dsimp only
  repeat' (first | with_reducible (first | assumption | intro _ | apply cmdFeedLaneRestore_keeps | apply mailbox_keeps) | exact cmdFeedLaneRestore_keeps | with_reducible apply outKeeps_next)

end Sys2Proof.Machine
end

