-- ==== Sys2Proof/Laws/KeepRecorder.lean ====
section
/-! SUPPORT. What no command changes is kept by every function of `Machine/Recorder.lean`. -/

set_option linter.all false

namespace Sys2Proof.Machine

theorem State.eventArrival_keeps {z : State} (s : State) (t : Nat) (h_s : Machine.Keeps z s) : Machine.Keeps z (State.eventArrival s t) := by
  unfold State.eventArrival
  try dsimp only
  repeat' (first | with_reducible (first | assumption | apply ite_some_imp | intro _ | apply State.arrive_keeps | apply State.reportLost_keeps) | simp only [keeps_mk_iff] | (refine keeps_snd (by with_reducible assumption) ?_) | (refine keeps_fst (by with_reducible assumption) ?_) | split)

theorem execEventArrival_keeps {z : State} (tile : Nat) (s : State) (h_s : Machine.Keeps z s) : OutKeeps z (execEventArrival tile s) := by
  unfold execEventArrival
  try dsimp only
  repeat' (first | with_reducible (first | assumption | intro _ | apply State.eventArrival_keeps | apply onTile_keeps | apply outKeeps_next))

theorem execOpenWindowEnd_keeps {z : State} (s : State) (h_s : Machine.Keeps z s) : OutKeeps z (execOpenWindowEnd s) := by
  unfold execOpenWindowEnd
  try dsimp only
  repeat' (first | with_reducible (first | assumption | intro _ | apply State.commitOpen_keeps | apply keeps_ite | apply outKeeps_next | apply outKeeps_ite) | split)

theorem execRecordCommit_keeps {z : State} (s : State) (h_s : Machine.Keeps z s) : OutKeeps z (execRecordCommit s) := by
  unfold execRecordCommit
  try dsimp only
  repeat' (first | with_reducible (first | assumption | intro _ | apply State.commitHead_keeps | apply State.reportLost_keeps | apply keeps_ite | apply outKeeps_next | apply outKeeps_ite) | split)

theorem cmdEventRead_keeps  : (cmdEventRead).Keeps := by
  intro z k pl s h
  unfold cmdEventRead
  try unfold actCmd
  try unfold readCmd
  try unfold mirCmd
  try dsimp only
  repeat' (first | with_reducible (first | assumption | intro _ | apply State.flushRing_keeps | apply readCmd_keeps | apply CmdOut.reply_keeps | apply keeps_ite) | simp only [keeps_mk_iff] | exact readCmd_keeps | with_reducible apply Cmd.out_keeps | with_reducible apply CmdOut.s_keeps | with_reducible apply CmdOut.after_keeps | with_reducible apply CmdOut.ite_keeps | simp only [CmdOut.mk_keeps_iff] | simp only [Cmd.mk_keeps_iff] | with_reducible apply And.intro | (refine keeps_snd (by with_reducible assumption) ?_) | (refine keeps_fst (by with_reducible assumption) ?_) | split)

theorem cmdEventStatus_keeps  : (cmdEventStatus).Keeps := by
  intro z k pl s h
  unfold cmdEventStatus
  try unfold actCmd
  try unfold readCmd
  try unfold mirCmd
  try dsimp only
  repeat' (first | with_reducible (first | assumption | intro _ | apply readCmd_keeps | apply CmdOut.reply_keeps) | simp only [keeps_mk_iff] | exact readCmd_keeps | with_reducible apply Cmd.out_keeps | with_reducible apply CmdOut.s_keeps | with_reducible apply CmdOut.after_keeps | simp only [CmdOut.mk_keeps_iff] | simp only [Cmd.mk_keeps_iff] | with_reducible apply And.intro)

theorem cmdEventConfig_keeps  : (cmdEventConfig).Keeps := by
  intro z k pl s h
  unfold cmdEventConfig
  try unfold actCmd
  try unfold readCmd
  try unfold mirCmd
  try dsimp only
  repeat' (first | with_reducible (first | assumption | intro _ | apply actCmd_keeps | apply State.config_keeps | apply CmdOut.done_keeps) | simp only [keeps_mk_iff] | exact actCmd_keeps | with_reducible apply Cmd.out_keeps | with_reducible apply CmdOut.s_keeps | with_reducible apply CmdOut.after_keeps | simp only [CmdOut.mk_keeps_iff] | simp only [Cmd.mk_keeps_iff] | with_reducible apply And.intro | (refine keeps_snd (by with_reducible assumption) ?_) | (refine keeps_fst (by with_reducible assumption) ?_) | split)

theorem cmdTimeSet_keeps  : (cmdTimeSet).Keeps := by
  intro z k pl s h
  unfold cmdTimeSet
  try unfold actCmd
  try unfold readCmd
  try unfold mirCmd
  try dsimp only
  repeat' (first | with_reducible (first | assumption | intro _ | apply actCmd_keeps | apply CmdOut.done_keeps) | simp only [keeps_mk_iff] | exact actCmd_keeps | with_reducible apply Cmd.out_keeps | with_reducible apply CmdOut.s_keeps | with_reducible apply CmdOut.after_keeps | simp only [CmdOut.mk_keeps_iff] | simp only [Cmd.mk_keeps_iff] | with_reducible apply And.intro | (refine keeps_snd (by with_reducible assumption) ?_) | (refine keeps_fst (by with_reducible assumption) ?_) | split)

theorem cmdTimeGet_keeps  : (cmdTimeGet).Keeps := by
  intro z k pl s h
  unfold cmdTimeGet
  try unfold actCmd
  try unfold readCmd
  try unfold mirCmd
  try dsimp only
  repeat' (first | with_reducible (first | assumption | intro _ | apply readCmd_keeps | apply CmdOut.reply_keeps) | simp only [keeps_mk_iff] | exact readCmd_keeps | with_reducible apply Cmd.out_keeps | with_reducible apply CmdOut.s_keeps | with_reducible apply CmdOut.after_keeps | simp only [CmdOut.mk_keeps_iff] | simp only [Cmd.mk_keeps_iff] | with_reducible apply And.intro)

theorem execEventRead_keeps {z : State} (f : Frame) (s : State) (h_s : Machine.Keeps z s) : OutKeeps z (execEventRead f s) := by
  unfold execEventRead
  try dsimp only
  repeat' (first | with_reducible (first | assumption | intro _ | apply cmdEventRead_keeps | apply mailbox_keeps) | exact cmdEventRead_keeps | with_reducible apply outKeeps_next)

theorem execEventStatus_keeps {z : State} (f : Frame) (s : State) (h_s : Machine.Keeps z s) : OutKeeps z (execEventStatus f s) := by
  unfold execEventStatus
  try dsimp only
  repeat' (first | with_reducible (first | assumption | intro _ | apply cmdEventStatus_keeps | apply mailbox_keeps) | exact cmdEventStatus_keeps | with_reducible apply outKeeps_next)

theorem execEventConfig_keeps {z : State} (f : Frame) (s : State) (h_s : Machine.Keeps z s) : OutKeeps z (execEventConfig f s) := by
  unfold execEventConfig
  try dsimp only
  repeat' (first | with_reducible (first | assumption | intro _ | apply cmdEventConfig_keeps | apply mailbox_keeps) | exact cmdEventConfig_keeps | with_reducible apply outKeeps_next)

theorem execTimeSet_keeps {z : State} (f : Frame) (s : State) (h_s : Machine.Keeps z s) : OutKeeps z (execTimeSet f s) := by
  unfold execTimeSet
  try dsimp only
  repeat' (first | with_reducible (first | assumption | intro _ | apply cmdTimeSet_keeps | apply mailbox_keeps) | exact cmdTimeSet_keeps | with_reducible apply outKeeps_next)

theorem execTimeGet_keeps {z : State} (f : Frame) (s : State) (h_s : Machine.Keeps z s) : OutKeeps z (execTimeGet f s) := by
  unfold execTimeGet
  try dsimp only
  repeat' (first | with_reducible (first | assumption | intro _ | apply cmdTimeGet_keeps | apply mailbox_keeps) | exact cmdTimeGet_keeps | with_reducible apply outKeeps_next)

end Sys2Proof.Machine
end

