-- ==== Sys2Proof/Laws/KeepTwoWireBus.lean ====
section
/-! SUPPORT. What no command changes is kept by every function of `Machine/TwoWireBus.lean`. -/

set_option linter.all false

namespace Sys2Proof.Machine

theorem State.mctpMessage_keeps {z : State} (s : State) (body : List Byte) (h_s : Machine.Keeps z s) : Machine.Keeps z (State.mctpMessage s body) := by
  unfold State.mctpMessage
  try dsimp only
  repeat' (first | with_reducible (first | assumption | intro _ | apply State.bump_keeps | apply State.drop_keeps | apply State.ev_keeps | apply mailboxUnknown_keeps | apply State.respond_keeps | apply keeps_ite) | simp only [keeps_mk_iff] | (refine keeps_snd (by with_reducible assumption) ?_) | (refine keeps_fst (by with_reducible assumption) ?_) | split)

theorem State.mctpPacket_keeps {z : State} (s : State) (pkt : List Byte) (h_s : Machine.Keeps z s) : Machine.Keeps z (State.mctpPacket s pkt) := by
  unfold State.mctpPacket
  try dsimp only
  repeat' (first | with_reducible (first | assumption | apply ite_some_imp | intro _ | apply State.drop_keeps | apply State.ev_keeps | apply State.mctpMessage_keeps | apply keeps_ite) | simp only [keeps_mk_iff] | (refine keeps_snd (by with_reducible assumption) ?_) | (refine keeps_fst (by with_reducible assumption) ?_) | split)

theorem State.pecFail_keeps {z : State} (s : State) (h_s : Machine.Keeps z s) : Machine.Keeps z (State.pecFail s) := by
  unfold State.pecFail
  try dsimp only
  repeat' (first | with_reducible (first | assumption | intro _ | apply State.bump_keeps | apply State.ev_keeps))

theorem State.addressedAt_keeps {z : State} (s : State) (kHz : Nat) (h_s : Machine.Keeps z s) : Machine.Keeps z (State.addressedAt s kHz) := by
  unfold State.addressedAt
  try dsimp only
  repeat' (first | with_reducible (first | assumption | intro _) | simp only [keeps_mk_iff])

theorem State.blockWrite_keeps {z : State} (s : State) (bytes : List Byte) (h_s : Machine.Keeps z s) : Machine.Keeps z (State.blockWrite s bytes) := by
  unfold State.blockWrite
  try dsimp only
  repeat' (first | with_reducible (first | assumption | intro _ | apply State.bump_keeps | apply State.drop_keeps | apply State.mctpPacket_keeps | apply State.pecFail_keeps | apply keeps_ite) | split)

theorem State.blockRead_keeps {z : State} (s : State) (done : Bool) (h_s : Machine.Keeps z s) : Machine.Keeps z (State.blockRead s done) := by
  unfold State.blockRead
  try dsimp only
  repeat' (first | with_reducible (first | assumption | intro _ | apply State.bump_keeps | apply CmdOut.done_keeps | apply State.send_keeps | apply keeps_ite) | simp only [keeps_mk_iff] | with_reducible apply Cmd.out_keeps | with_reducible apply CmdOut.s_keeps | with_reducible apply CmdOut.after_keeps | (refine keeps_snd (by with_reducible assumption) ?_) | (refine keeps_fst (by with_reducible assumption) ?_) | split)

theorem State.awakeXfer_keeps {z : State} (s : State) (x : SmbusXfer) (h_s : Machine.Keeps z s) : Machine.Keeps z (State.awakeXfer s x) := by
  unfold State.awakeXfer
  try dsimp only
  repeat' (first | with_reducible (first | assumption | intro _ | apply State.blockRead_keeps | apply State.blockWrite_keeps | apply CmdOut.done_keeps | apply State.send_keeps | apply keeps_ite) | simp only [keeps_mk_iff] | with_reducible apply Cmd.out_keeps | with_reducible apply CmdOut.s_keeps | with_reducible apply CmdOut.after_keeps | (refine keeps_snd (by with_reducible assumption) ?_) | (refine keeps_fst (by with_reducible assumption) ?_) | split)

theorem State.matchWake_keeps {z : State} (s : State) (h_s : Machine.Keeps z s) : Machine.Keeps z (State.matchWake s) := by
  unfold State.matchWake
  try dsimp only
  repeat' (first | with_reducible (first | assumption | intro _ | apply State.ev_keeps | apply State.wakeUp_keeps | apply keeps_ite) | split)

theorem State.xfer_keeps {z : State} (s : State) (x : SmbusXfer) (kHz : Nat) (h_s : Machine.Keeps z s) : Machine.Keeps z (State.xfer s x kHz) := by
  unfold State.xfer
  try dsimp only
  repeat' (first | with_reducible (first | assumption | intro _ | apply State.addressedAt_keeps | apply State.awakeXfer_keeps | apply State.matchWake_keeps | apply keeps_ite) | split)

theorem execBlockWrite_keeps {z : State} (cmd : Nat) (bytes : List Byte) (kHz : Nat) (s : State) (h_s : Machine.Keeps z s) : OutKeeps z (execBlockWrite cmd bytes kHz s) := by
  unfold execBlockWrite
  try dsimp only
  repeat' (first | with_reducible (first | assumption | intro _ | apply State.blockWrite_keeps | apply State.xfer_keeps | apply outKeeps_next))

theorem execBlockRead_keeps {z : State} (done : Bool) (kHz : Nat) (s : State) (h_s : Machine.Keeps z s) : OutKeeps z (execBlockRead done kHz s) := by
  unfold execBlockRead
  try dsimp only
  repeat' (first | with_reducible (first | assumption | intro _ | apply State.blockRead_keeps | apply CmdOut.done_keeps | apply State.xfer_keeps | apply Cmd.out_keeps | apply CmdOut.s_keeps | apply CmdOut.after_keeps | apply outKeeps_next))

theorem execReadByte_keeps {z : State} (kHz : Nat) (s : State) (h_s : Machine.Keeps z s) : OutKeeps z (execReadByte kHz s) := by
  unfold execReadByte
  try dsimp only
  repeat' (first | with_reducible (first | assumption | intro _ | apply State.xfer_keeps | apply outKeeps_next))

theorem State.serveHeld_keeps {z : State} (s : State) (h_s : Machine.Keeps z s) : Machine.Keeps z (State.serveHeld s) := by
  unfold State.serveHeld
  try dsimp only
  repeat' (first | with_reducible (first | assumption | apply ite_some_imp | intro _ | apply State.mctpPacket_keeps) | simp only [keeps_mk_iff] | (refine keeps_snd (by with_reducible assumption) ?_) | (refine keeps_fst (by with_reducible assumption) ?_) | split)

theorem State.sleepXfer_keeps {z : State} (s : State) (x : SmbusXfer) (h_s : Machine.Keeps z s) : Machine.Keeps z (State.sleepXfer s x) := by
  unfold State.sleepXfer
  try dsimp only
  repeat' (first | with_reducible (first | assumption | intro _ | apply State.blockRead_keeps | apply State.blockWrite_keeps | apply State.bump_keeps | apply State.drop_keeps | apply State.pecFail_keeps | apply State.send_keeps | apply keeps_ite) | simp only [keeps_mk_iff] | (refine keeps_snd (by with_reducible assumption) ?_) | (refine keeps_fst (by with_reducible assumption) ?_) | split)

theorem execAddressMatchSleep_keeps {z : State} (x : SmbusXfer) (kHz : Nat) (s : State) (h_s : Machine.Keeps z s) : OutKeeps z (execAddressMatchSleep x kHz s) := by
  unfold execAddressMatchSleep
  try dsimp only
  repeat' (first | with_reducible (first | assumption | intro _ | apply State.addressedAt_keeps | apply State.ev_keeps | apply State.serveHeld_keeps | apply State.sleepXfer_keeps | apply State.wakeUp_keeps | apply State.xfer_keeps | apply keeps_ite | apply outKeeps_next | apply outKeeps_ite) | split)

theorem State.hostNotify_keeps {z : State} (s : State) (e : NotifyEnd) (h_s : Machine.Keeps z s) : Machine.Keeps z (State.hostNotify s e) := by
  unfold State.hostNotify
  try dsimp only
  repeat' (first | with_reducible (first | assumption | intro _ | apply State.bump_keeps | apply State.ev_keeps | apply State.send_keeps | apply keeps_ite) | simp only [keeps_mk_iff] | (refine keeps_snd (by with_reducible assumption) ?_) | (refine keeps_fst (by with_reducible assumption) ?_) | split)

theorem execHostNotify_keeps {z : State} (e : NotifyEnd) (s : State) (h_s : Machine.Keeps z s) : OutKeeps z (execHostNotify e s) := by
  unfold execHostNotify
  try dsimp only
  repeat' (first | with_reducible (first | assumption | intro _ | apply State.hostNotify_keeps | apply keeps_ite | apply outKeeps_next | apply outKeeps_ite) | split)

theorem execHostNotifyRepeat_keeps {z : State} (e : NotifyEnd) (s : State) (h_s : Machine.Keeps z s) : OutKeeps z (execHostNotifyRepeat e s) := by
  unfold execHostNotifyRepeat
  try dsimp only
  repeat' (first | with_reducible (first | assumption | intro _ | apply State.hostNotify_keeps | apply keeps_ite | apply outKeeps_next | apply outKeeps_ite) | split)

theorem execArbBackoffExpiry_keeps {z : State} (e : NotifyEnd) (s : State) (h_s : Machine.Keeps z s) : OutKeeps z (execArbBackoffExpiry e s) := by
  unfold execArbBackoffExpiry
  try dsimp only
  repeat' (first | with_reducible (first | assumption | intro _ | apply State.hostNotify_keeps | apply keeps_ite | apply outKeeps_next | apply outKeeps_ite) | split)

theorem execBusError_keeps {z : State} (s : State) (h_s : Machine.Keeps z s) : OutKeeps z (execBusError s) := by
  unfold execBusError
  try dsimp only
  repeat' (first | with_reducible (first | assumption | intro _ | apply State.bump_keeps | apply State.ev_keeps | apply keeps_ite | apply outKeeps_next | apply outKeeps_ite) | split)

theorem execSclTimeout_keeps {z : State} (s : State) (h_s : Machine.Keeps z s) : OutKeeps z (execSclTimeout s) := by
  unfold execSclTimeout
  try dsimp only
  repeat' (first | with_reducible (first | assumption | intro _ | apply State.ev_keeps | apply keeps_ite | apply outKeeps_next | apply outKeeps_ite) | split)

theorem execBusRecovery_keeps {z : State} (pulses : Nat) (s0 : State) (h_s0 : Machine.Keeps z s0) : OutKeeps z (execBusRecovery pulses s0) := by
  unfold execBusRecovery
  try dsimp only
  repeat' (first | with_reducible (first | assumption | intro _ | apply State.ev_keeps | apply State.evRec_keeps | apply State.send_keeps | apply keeps_ite) | simp only [keeps_mk_iff] | with_reducible apply outKeeps_next | with_reducible apply outKeeps_ite | split)

theorem cmdTwbStatus_keeps  : (cmdTwbStatus).Keeps := by
  intro z k pl s h
  unfold cmdTwbStatus
  try unfold actCmd
  try unfold readCmd
  try unfold mirCmd
  try dsimp only
  repeat' (first | with_reducible (first | assumption | intro _ | apply readCmd_keeps | apply CmdOut.reply_keeps) | simp only [keeps_mk_iff] | exact readCmd_keeps | with_reducible apply Cmd.out_keeps | with_reducible apply CmdOut.s_keeps | with_reducible apply CmdOut.after_keeps | simp only [CmdOut.mk_keeps_iff] | simp only [Cmd.mk_keeps_iff] | with_reducible apply And.intro)

theorem cmdTwbConfig_keeps  : (cmdTwbConfig).Keeps := by
  intro z k pl s h
  unfold cmdTwbConfig
  try unfold actCmd
  try unfold readCmd
  try unfold mirCmd
  try dsimp only
  repeat' (first | with_reducible (first | assumption | intro _ | apply actCmd_keeps | apply State.config_keeps | apply CmdOut.done_keeps) | simp only [keeps_mk_iff] | exact actCmd_keeps | with_reducible apply Cmd.out_keeps | with_reducible apply CmdOut.s_keeps | with_reducible apply CmdOut.after_keeps | simp only [CmdOut.mk_keeps_iff] | simp only [Cmd.mk_keeps_iff] | with_reducible apply And.intro | (refine keeps_snd (by with_reducible assumption) ?_) | (refine keeps_fst (by with_reducible assumption) ?_) | split)

theorem execTwbStatus_keeps {z : State} (f : Frame) (s : State) (h_s : Machine.Keeps z s) : OutKeeps z (execTwbStatus f s) := by
  unfold execTwbStatus
  try dsimp only
  repeat' (first | with_reducible (first | assumption | intro _ | apply cmdTwbStatus_keeps | apply mailbox_keeps) | exact cmdTwbStatus_keeps | with_reducible apply outKeeps_next)

theorem execTwbConfig_keeps {z : State} (f : Frame) (s : State) (h_s : Machine.Keeps z s) : OutKeeps z (execTwbConfig f s) := by
  unfold execTwbConfig
  try dsimp only
  repeat' (first | with_reducible (first | assumption | intro _ | apply cmdTwbConfig_keeps | apply mailbox_keeps) | exact cmdTwbConfig_keeps | with_reducible apply outKeeps_next)

end Sys2Proof.Machine
end

