-- ==== Sys2Proof/Laws/KeepStartup.lean ====
section
/-! SUPPORT. What no command changes is kept by every function of `Machine/Startup.lean`. -/

set_option linter.all false

namespace Sys2Proof.Machine

theorem State.loadConfig_keeps {z : State} (s : State) (h_s : Machine.Keeps z s) : Machine.Keeps z (State.loadConfig s) := by
  unfold State.loadConfig
  try dsimp only
  repeat' (first | with_reducible (first | assumption | intro _ | apply State.allTiles_keeps | apply State.setF_keeps | apply keeps_foldl | apply keeps_foldl_snd | apply keeps_foldl_fst | apply keeps_getD | apply keeps_ite) | split)

theorem State.scanRing_keeps {z : State} (s : State) (h_s : Machine.Keeps z s) : Machine.Keeps z (State.scanRing s) := by
  unfold State.scanRing
  try dsimp only
  repeat' (first | with_reducible (first | assumption | intro _ | apply State.ev_keeps | apply State.setF_keeps | apply keeps_foldl | apply keeps_foldl_snd | apply keeps_foldl_fst | apply keeps_ite) | simp only [keeps_mk_iff] | (refine keeps_snd (by with_reducible assumption) ?_) | (refine keeps_fst (by with_reducible assumption) ?_) | split)

theorem State.openSpan_keeps {z : State} (s : State) (h_s : Machine.Keeps z s) : Machine.Keeps z (State.openSpan s) := by
  unfold State.openSpan
  try dsimp only
  repeat' (first | with_reducible (first | assumption | intro _) | simp only [keeps_mk_iff])

theorem State.readOtp_keeps {z : State} (s : State) (h_s : Machine.Keeps z s) : Machine.Keeps z (State.readOtp s) := by
  unfold State.readOtp
  try dsimp only
  repeat' (first | with_reducible (first | assumption | intro _ | apply State.evRec_keeps | apply State.setF_keeps | apply keeps_foldl | apply keeps_foldl_snd | apply keeps_foldl_fst | apply keeps_ite) | split)

theorem State.completeOtp_keeps {z : State} (s : State) (h_s : Machine.Keeps z s) : Machine.Keeps z (State.completeOtp s) := by
  unfold State.completeOtp
  try dsimp only
  repeat' (first | with_reducible (first | assumption | intro _ | apply State.ev_keeps | apply State.fuseBytes_keeps | apply keeps_foldl | apply keeps_foldl_snd | apply keeps_foldl_fst | apply keeps_ite) | split)

theorem State.trialStep_keeps {z : State} (s : State) (h_s : Machine.Keeps z s) : Machine.Keeps z (State.trialStep s).2 := by
  unfold State.trialStep
  try dsimp only
  repeat' (first | with_reducible (first | assumption | apply ite_some_imp | intro _ | apply State.ev_keeps | apply State.named_keeps | apply State.writeSelector_keeps | apply keeps_ite) | simp only [keeps_mk_iff] | (refine keeps_snd (by with_reducible assumption) ?_) | (refine keeps_fst (by with_reducible assumption) ?_) | split)

theorem State.railsUp_keeps {z : State} (s : State) (h_s : Machine.Keeps z s) : Machine.Keeps z (State.railsUp s) := by
  unfold State.railsUp
  try dsimp only
  repeat' (first | with_reducible (first | assumption | intro _ | apply State.allTiles_keeps | apply State.setFs_keeps))

theorem State.loadRma_keeps {z : State} (s : State) (t : Nat) (h_s : Machine.Keeps z s) : Machine.Keeps z (State.loadRma s t) := by
  unfold State.loadRma
  try dsimp only
  repeat' (first | with_reducible (first | assumption | apply ite_some_imp | intro _ | apply State.setCfg_keeps | apply State.setF_keeps | apply keeps_getD) | simp only [keeps_mk_iff] | (refine keeps_snd (by with_reducible assumption) ?_) | (refine keeps_fst (by with_reducible assumption) ?_) | split)

theorem State.loadStore_keeps {z : State} (s : State) (h_s : Machine.Keeps z s) : Machine.Keeps z (State.loadStore s) := by
  unfold State.loadStore
  try dsimp only
  repeat' (first | with_reducible (first | assumption | intro _ | apply State.allTiles_keeps | apply State.loadConfig_keeps | apply State.loadRma_keeps | apply State.powerLanes_keeps | apply State.setFs_keeps | apply State.updDeep_keeps | apply keeps_foldl | apply keeps_foldl_snd | apply keeps_foldl_fst | apply keeps_getD | apply keeps_ite) | simp only [keeps_mk_iff] | split)

theorem State.bootNone_keeps {z : State} (s : State) (x : Selector) (h_s : Machine.Keeps z s) : Machine.Keeps z (State.bootNone s x) := by
  unfold State.bootNone
  try dsimp only
  repeat' (first | with_reducible (first | assumption | intro _ | apply State.enterFault_keeps | apply State.openSpan_keeps | apply State.scanRing_keeps | apply State.setFs_keeps) | simp only [keeps_mk_iff])

theorem State.bootShow_keeps {z : State} (s : State) (x : Selector) (slot : Nat) (fb : Bool) (h_s : Machine.Keeps z s) : Machine.Keeps z (State.bootShow s x slot fb) := by
  unfold State.bootShow
  try dsimp only
  repeat' (first | with_reducible (first | assumption | intro _ | apply State.loadStore_keeps | apply State.recOpen_keeps | apply State.setCause_keeps | apply State.setFs_keeps | apply keeps_ite) | split)

theorem State.handOver_keeps {z : State} (s : State) (h_s : Machine.Keeps z s) : Machine.Keeps z (State.handOver s) := by
  unfold State.handOver
  try dsimp only
  repeat' (first | with_reducible (first | assumption | intro _ | apply State.updTwin_keeps) | simp only [keeps_mk_iff])

theorem State.bootWith_keeps {z : State} (s : State) (x : Selector) (blank : Bool) (h_s : Machine.Keeps z s) : Machine.Keeps z (State.bootWith s x blank) := by
  unfold State.bootWith
  try dsimp only
  repeat' (first | with_reducible (first | assumption | apply ite_some_imp | intro _ | apply State.bootNone_keeps | apply State.bootShow_keeps | apply State.completeOtp_keeps | apply State.handOver_keeps | apply State.openSpan_keeps | apply State.scanRing_keeps | apply State.toState_keeps | apply State.writeSelector_keeps | apply keeps_ite) | simp only [keeps_mk_iff] | (refine keeps_snd (by with_reducible assumption) ?_) | (refine keeps_fst (by with_reducible assumption) ?_) | split)

theorem State.bootFrom_keeps {z : State} (s : State) (blank : Bool) (h_s : Machine.Keeps z s) : Machine.Keeps z (State.bootFrom s blank) := by
  unfold State.bootFrom
  try dsimp only
  repeat' (first | with_reducible (first | assumption | intro _ | apply State.bootWith_keeps | apply State.trialStep_keeps) | (refine keeps_snd (by with_reducible assumption) ?_) | (refine keeps_fst (by with_reducible assumption) ?_) | split)

theorem State.bootRom_keeps {z : State} (s : State) (h_s : Machine.Keeps z s) : Machine.Keeps z (State.bootRom s) := by
  unfold State.bootRom
  try dsimp only
  repeat' (first | with_reducible (first | assumption | intro _ | apply State.bootFrom_keeps | apply State.loadRoots_keeps | apply State.railsUp_keeps | apply State.readOtp_keeps) | simp only [keeps_mk_iff])

theorem execBoot_keeps {z : State} (temps : List Nat) (s : State) (h_s : Machine.Keeps z s) : OutKeeps z (execBoot temps s) := by
  unfold execBoot
  try dsimp only
  repeat' (first | with_reducible (first | assumption | intro _ | apply State.bootRom_keeps | apply State.railsUp_keeps | apply State.serveHeld_keeps | apply keeps_ite) | simp only [keeps_mk_iff] | with_reducible apply outKeeps_next | with_reducible apply outKeeps_ite | split)

theorem execBootromKeyInit_keeps {z : State} (ok : Bool) (s : State) (h_s : Machine.Keeps z s) : OutKeeps z (execBootromKeyInit ok s) := by
  unfold execBootromKeyInit
  try dsimp only
  repeat' (first | with_reducible (first | assumption | intro _ | apply State.deriveStoreKeys_keeps | apply State.restoreRole_keeps | apply State.setF_keeps | apply keeps_ite) | simp only [keeps_mk_iff] | with_reducible apply outKeeps_next | with_reducible apply outKeeps_ite | split)

theorem State.startSlice_keeps {z : State} (s : State) (t n : Nat) (h_s : Machine.Keeps z s) : Machine.Keeps z (State.startSlice s t n) := by
  unfold State.startSlice
  try dsimp only
  repeat' (first | with_reducible (first | assumption | intro _ | apply State.setFs_keeps | apply keeps_ite) | simp only [keeps_mk_iff] | split)

theorem execSelftestSlice_keeps {z : State} (tile slice : Nat) (s : State) (h_s : Machine.Keeps z s) : OutKeeps z (execSelftestSlice tile slice s) := by
  unfold execSelftestSlice
  try dsimp only
  repeat' (first | with_reducible (first | assumption | intro _ | apply onTile_keeps | apply State.startSlice_keeps | apply outKeeps_next))

theorem State.sliceBit_keeps {z : State} (s : State) (t n : Nat) (lo hi : Fld) (h_s : Machine.Keeps z s) : Machine.Keeps z (State.sliceBit s t n lo hi) := by
  unfold State.sliceBit
  try dsimp only
  repeat' (first | with_reducible (first | assumption | intro _ | apply State.setF_keeps | apply keeps_ite) | split)

theorem State.flashSlice_keeps {z : State} (s : State) (t outcome detail : Nat) (h_s : Machine.Keeps z s) : Machine.Keeps z (State.flashSlice s t outcome detail) := by
  unfold State.flashSlice
  try dsimp only
  repeat' (first | with_reducible (first | assumption | apply ite_some_imp | intro _ | apply State.booksOff_keeps | apply State.ev_keeps | apply State.evRec_keeps | apply State.setF_keeps | apply State.setFs_keeps | apply keeps_foldl | apply keeps_foldl_snd | apply keeps_foldl_fst | apply keeps_getD | apply keeps_ite) | simp only [keeps_mk_iff] | (refine keeps_snd (by with_reducible assumption) ?_) | (refine keeps_fst (by with_reducible assumption) ?_) | split)

theorem State.sliceEffect_keeps {z : State} (s : State) (t n outcome detail : Nat) (h_s : Machine.Keeps z s) : Machine.Keeps z (State.sliceEffect s t n outcome detail) := by
  unfold State.sliceEffect
  try dsimp only
  repeat' (first | with_reducible (first | assumption | intro _ | apply State.eraseSectors_keeps | apply State.ev_keeps | apply State.evRec_keeps | apply State.flashSlice_keeps | apply State.linksUntrained_keeps | apply State.loadKeys_keeps | apply State.nvsSwap_keeps | apply State.recomputeCeiling_keeps | apply State.setF_keeps | apply State.setFs_keeps | apply State.spareLane_keeps | apply keeps_foldl | apply keeps_foldl_snd | apply keeps_foldl_fst | apply keeps_ite) | simp only [keeps_mk_iff] | (refine keeps_snd (by with_reducible assumption) ?_) | (refine keeps_fst (by with_reducible assumption) ?_) | split)

theorem State.endSlice_keeps {z : State} (s : State) (t n outcome detail : Nat) (late : Bool) (h_s : Machine.Keeps z s) : Machine.Keeps z (State.endSlice s t n outcome detail late) := by
  unfold State.endSlice
  try dsimp only
  repeat' (first | with_reducible (first | assumption | intro _ | apply State.bump_keeps | apply State.enterFault_keeps | apply State.ev_keeps | apply State.evRec_keeps | apply State.named_keeps | apply State.setAll_keeps | apply State.setF_keeps | apply State.sliceBit_keeps | apply State.sliceEffect_keeps | apply State.toState_keeps | apply keeps_getD | apply keeps_ite) | simp only [keeps_mk_iff] | split)

theorem execSliceResult_keeps {z : State} (tile slice outcome detail : Nat) (s : State) (h_s : Machine.Keeps z s) : OutKeeps z (execSliceResult tile slice outcome detail s) := by
  unfold execSliceResult
  try dsimp only
  repeat' (first | with_reducible (first | assumption | intro _ | apply State.endSlice_keeps | apply onTile_keeps | apply keeps_ite | apply outKeeps_next | apply outKeeps_ite) | split)

theorem execSliceBudgetExpiry_keeps {z : State} (tile : Nat) (s : State) (h_s : Machine.Keeps z s) : OutKeeps z (execSliceBudgetExpiry tile s) := by
  unfold execSliceBudgetExpiry
  try dsimp only
  repeat' (first | with_reducible (first | assumption | apply ite_some_imp | intro _ | apply State.endSlice_keeps | apply onTile_keeps | apply keeps_ite) | simp only [keeps_mk_iff] | with_reducible apply outKeeps_next | with_reducible apply outKeeps_ite | (refine keeps_snd (by with_reducible assumption) ?_) | (refine keeps_fst (by with_reducible assumption) ?_) | split)

theorem execBankMeasureStart_keeps {z : State} (hu v1 : Nat) (s0 : State) (h_s0 : Machine.Keeps z s0) : OutKeeps z (execBankMeasureStart hu v1 s0) := by
  unfold execBankMeasureStart
  try dsimp only
  repeat' (first | with_reducible (first | assumption | intro _ | apply State.ev_keeps | apply State.setFs_keeps | apply keeps_ite) | simp only [keeps_mk_iff] | with_reducible apply outKeeps_next | with_reducible apply outKeeps_ite | split)

theorem State.bankDone_keeps {z : State} (s : State) (cap : Nat) (h_s : Machine.Keeps z s) : Machine.Keeps z (State.bankDone s cap) := by
  unfold State.bankDone
  try dsimp only
  repeat' (first | with_reducible (first | assumption | apply ite_some_imp | intro _ | apply State.endSlice_keeps | apply State.ev_keeps | apply State.recomputeCeiling_keeps | apply State.setAll_keeps | apply keeps_ite) | simp only [keeps_mk_iff] | split)

theorem execBankWaitExpiry_keeps {z : State} (s : State) (h_s : Machine.Keeps z s) : OutKeeps z (execBankWaitExpiry s) := by
  unfold execBankWaitExpiry
  try dsimp only
  repeat' (first | with_reducible (first | assumption | intro _ | apply State.bankDone_keeps | apply State.ev_keeps | apply keeps_ite | apply outKeeps_next | apply outKeeps_ite) | split)

theorem execBankMeasureEnd_keeps {z : State} (t : Nat) (stayed : Bool) (s : State) (h_s : Machine.Keeps z s) : OutKeeps z (execBankMeasureEnd t stayed s) := by
  unfold execBankMeasureEnd
  try dsimp only
  repeat' (first | with_reducible (first | assumption | intro _ | apply State.bankDone_keeps | apply State.setF_keeps | apply keeps_ite | apply outKeeps_next | apply outKeeps_ite) | split)

theorem execReleaseToService_keeps {z : State} (s : State) (h_s : Machine.Keeps z s) : OutKeeps z (execReleaseToService s) := by
  unfold execReleaseToService
  try dsimp only
  repeat' (first | with_reducible (first | assumption | intro _ | apply State.afterRestore_keeps | apply State.enterService_keeps | apply State.raiseActo_keeps | apply State.toState_keeps | apply State.updTwin_keeps | apply keeps_ite) | simp only [keeps_mk_iff] | with_reducible apply outKeeps_next | with_reducible apply outKeeps_ite | split)

theorem State.wdogKick_keeps {z : State} (s : State) (h_s : Machine.Keeps z s) : Machine.Keeps z (State.wdogKick s) := by
  unfold State.wdogKick
  try dsimp only
  repeat' (first | with_reducible (first | assumption | intro _ | apply keeps_ite) | simp only [keeps_mk_iff] | split)

theorem execWdogKick_keeps {z : State} (s : State) (h_s : Machine.Keeps z s) : OutKeeps z (execWdogKick s) := by
  unfold execWdogKick
  try dsimp only
  repeat' (first | with_reducible (first | assumption | intro _ | apply State.wdogKick_keeps | apply outKeeps_next))

theorem cmdSelftestReport_keeps  : (cmdSelftestReport).Keeps := by
  intro z k pl s h
  unfold cmdSelftestReport
  try unfold actCmd
  try unfold readCmd
  try unfold mirCmd
  try dsimp only
  repeat' (first | with_reducible (first | assumption | intro _ | apply readCmd_keeps | apply CmdOut.reply_keeps) | simp only [keeps_mk_iff] | exact readCmd_keeps | with_reducible apply Cmd.out_keeps | with_reducible apply CmdOut.s_keeps | with_reducible apply CmdOut.after_keeps | simp only [CmdOut.mk_keeps_iff] | simp only [Cmd.mk_keeps_iff] | with_reducible apply And.intro)

theorem cmdMonitorRead_keeps  : (cmdMonitorRead).Keeps := by
  intro z k pl s h
  unfold cmdMonitorRead
  try unfold actCmd
  try unfold readCmd
  try unfold mirCmd
  try dsimp only
  repeat' (first | with_reducible (first | assumption | intro _ | apply State.allTiles_keeps | apply readCmd_keeps | apply CmdOut.reply_keeps | apply State.senseReg_keeps) | simp only [keeps_mk_iff] | exact readCmd_keeps | with_reducible apply Cmd.out_keeps | with_reducible apply CmdOut.s_keeps | with_reducible apply CmdOut.after_keeps | simp only [CmdOut.mk_keeps_iff] | simp only [Cmd.mk_keeps_iff] | with_reducible apply And.intro)

theorem cmdBankConfig_keeps  : (cmdBankConfig).Keeps := by
  intro z k pl s h
  unfold cmdBankConfig
  try unfold actCmd
  try unfold readCmd
  try unfold mirCmd
  try dsimp only
  repeat' (first | with_reducible (first | assumption | intro _ | apply actCmd_keeps | apply State.config_keeps | apply CmdOut.done_keeps) | simp only [keeps_mk_iff] | exact actCmd_keeps | with_reducible apply Cmd.out_keeps | with_reducible apply CmdOut.s_keeps | with_reducible apply CmdOut.after_keeps | simp only [CmdOut.mk_keeps_iff] | simp only [Cmd.mk_keeps_iff] | with_reducible apply And.intro | (refine keeps_snd (by with_reducible assumption) ?_) | (refine keeps_fst (by with_reducible assumption) ?_) | split)

theorem execSelftestReport_keeps {z : State} (f : Frame) (s : State) (h_s : Machine.Keeps z s) : OutKeeps z (execSelftestReport f s) := by
  unfold execSelftestReport
  try dsimp only
  repeat' (first | with_reducible (first | assumption | intro _ | apply cmdSelftestReport_keeps | apply mailbox_keeps) | exact cmdSelftestReport_keeps | with_reducible apply outKeeps_next)

theorem execMonitorRead_keeps {z : State} (f : Frame) (s : State) (h_s : Machine.Keeps z s) : OutKeeps z (execMonitorRead f s) := by
  unfold execMonitorRead
  try dsimp only
  repeat' (first | with_reducible (first | assumption | intro _ | apply cmdMonitorRead_keeps | apply mailbox_keeps) | exact cmdMonitorRead_keeps | with_reducible apply outKeeps_next)

theorem execBankConfig_keeps {z : State} (f : Frame) (s : State) (h_s : Machine.Keeps z s) : OutKeeps z (execBankConfig f s) := by
  unfold execBankConfig
  try dsimp only
  repeat' (first | with_reducible (first | assumption | intro _ | apply cmdBankConfig_keeps | apply mailbox_keeps) | exact cmdBankConfig_keeps | with_reducible apply outKeeps_next)

end Sys2Proof.Machine
end

