-- ==== Sys2Proof/Laws/KeepPower.lean ====
section
/-! SUPPORT. What no command changes is kept by every function of `Machine/Power.lean`. -/

set_option linter.all false

namespace Sys2Proof.Machine

theorem State.loadAon_keeps {z : State} (s : State) (h_s : Machine.Keeps z s) : Machine.Keeps z (State.loadAon s) := by
  unfold State.loadAon
  try dsimp only
  repeat' (first | with_reducible (first | assumption | intro _ | apply State.allTiles_keeps | apply State.setFs_keeps | apply keeps_getD))

theorem execVaonApplied_keeps {z : State} (pref : Bool) (adr : Nat) (s : State) (h_s : Machine.Keeps z s) : OutKeeps z (execVaonApplied pref adr s) := by
  unfold execVaonApplied
  try dsimp only
  repeat' (first | with_reducible (first | assumption | intro _ | apply State.setF_keeps | apply State.toState_keeps | apply keeps_ite) | simp only [keeps_mk_iff] | with_reducible apply outKeeps_next | with_reducible apply outKeeps_ite | split)

theorem execVaonLost_keeps {z : State} (s : State) (h_s : Machine.Keeps z s) : OutKeeps z (execVaonLost s) := by
  unfold execVaonLost
  try dsimp only
  repeat' (first | with_reducible (first | assumption | intro _ | apply State.loseVolatile_keeps | apply State.setF_keeps | apply keeps_ite) | simp only [keeps_mk_iff] | with_reducible apply outKeeps_next | with_reducible apply outKeeps_ite | split)

theorem execVaonLow_keeps {z : State} (s : State) (h_s : Machine.Keeps z s) : OutKeeps z (execVaonLow s) := by
  unfold execVaonLow
  try dsimp only
  repeat' (first | with_reducible (first | assumption | intro _ | apply State.evRec_keeps) | simp only [keeps_mk_iff] | with_reducible apply outKeeps_next)

theorem State.mainsUp_keeps {z : State} (s : State) (h_s : Machine.Keeps z s) : Machine.Keeps z (State.mainsUp s) := by
  unfold State.mainsUp
  try dsimp only
  repeat' (first | with_reducible (first | assumption | intro _ | apply State.setAll_keeps | apply keeps_ite) | simp only [keeps_mk_iff] | split)

theorem State.coldBoot_keeps {z : State} (s : State) (h_s : Machine.Keeps z s) : Machine.Keeps z (State.coldBoot s) := by
  unfold State.coldBoot
  try dsimp only
  repeat' (first | with_reducible (first | assumption | intro _ | apply State.enterBoot_keeps | apply keeps_ite) | split)

theorem execMainsOkHigh_keeps {z : State} (s : State) (h_s : Machine.Keeps z s) : OutKeeps z (execMainsOkHigh s) := by
  unfold execMainsOkHigh
  try dsimp only
  repeat' (first | with_reducible (first | assumption | intro _ | apply State.coldBoot_keeps | apply State.mainsUp_keeps | apply outKeeps_next))

theorem execMainsOkLow_keeps {z : State} (tile : Nat) (s : State) (h_s : Machine.Keeps z s) : OutKeeps z (execMainsOkLow tile s) := by
  unfold execMainsOkLow
  try dsimp only
  repeat' (first | with_reducible (first | assumption | intro _ | apply State.ev_keeps | apply State.freezeTrigger_keeps | apply onTile_keeps | apply State.setF_keeps) | simp only [keeps_mk_iff] | with_reducible apply outKeeps_next)

theorem execHuTrip_keeps {z : State} (tile : Nat) (s : State) (h_s : Machine.Keeps z s) : OutKeeps z (execHuTrip tile s) := by
  unfold execHuTrip
  try dsimp only
  repeat' (first | with_reducible (first | assumption | intro _ | apply State.ev_keeps | apply State.freezeTrigger_keeps | apply onTile_keeps | apply State.setF_keeps | apply keeps_ite | apply outKeeps_next | apply outKeeps_ite) | split)

theorem execHuEmerg_keeps {z : State} (tile : Nat) (s : State) (h_s : Machine.Keeps z s) : OutKeeps z (execHuEmerg tile s) := by
  unfold execHuEmerg
  try dsimp only
  repeat' (first | with_reducible (first | assumption | intro _ | apply State.ev_keeps | apply onTile_keeps | apply State.setF_keeps) | simp only [keeps_mk_iff] | with_reducible apply outKeeps_next | (refine keeps_snd (by with_reducible assumption) ?_) | (refine keeps_fst (by with_reducible assumption) ?_) | split)

theorem execTripArm_keeps {z : State} (tile : Nat) (s : State) (h_s : Machine.Keeps z s) : OutKeeps z (execTripArm tile s) := by
  unfold execTripArm
  try dsimp only
  repeat' (first | with_reducible (first | assumption | intro _ | apply State.noteUrgent_keeps | apply onTile_keeps | apply State.setFs_keeps) | simp only [keeps_mk_iff] | with_reducible apply outKeeps_next | (refine keeps_snd (by with_reducible assumption) ?_) | (refine keeps_fst (by with_reducible assumption) ?_) | split)

theorem execTcrit_keeps {z : State} (tile : Nat) (s : State) (h_s : Machine.Keeps z s) : OutKeeps z (execTcrit tile s) := by
  unfold execTcrit
  try dsimp only
  repeat' (first | with_reducible (first | assumption | intro _ | apply State.ev_keeps | apply State.freezeTrigger_keeps | apply onTile_keeps | apply outKeeps_next))

theorem execFreezeNet_keeps {z : State} (tile : Nat) (s : State) (h_s : Machine.Keeps z s) : OutKeeps z (execFreezeNet tile s) := by
  unfold execFreezeNet
  try dsimp only
  repeat' (first | with_reducible (first | assumption | intro _ | apply State.freezeTile_keeps | apply onTile_keeps | apply keeps_ite | apply outKeeps_next | apply outKeeps_ite) | split)

theorem execRailFault_keeps {z : State} (rail : Nat) (s : State) (h_s : Machine.Keeps z s) : OutKeeps z (execRailFault rail s) := by
  unfold execRailFault
  try dsimp only
  repeat' (first | with_reducible (first | assumption | intro _ | apply State.ev_keeps | apply State.freezeTrigger_keeps | apply State.setF_keeps | apply keeps_ite | apply outKeeps_next | apply outKeeps_ite) | split)

theorem State.setThrottle_keeps {z : State} (s : State) (l : Nat) (h_s : Machine.Keeps z s) : Machine.Keeps z (State.setThrottle s l) := by
  unfold State.setThrottle
  try dsimp only
  repeat' (first | with_reducible (first | assumption | intro _ | apply State.allTiles_keeps | apply State.ev_keeps | apply State.requestSpeed_keeps | apply State.setF_keeps | apply keeps_foldl | apply keeps_foldl_snd | apply keeps_foldl_fst | apply keeps_ite) | split)

theorem execPhaseFault_keeps {z : State} (stage : Nat) (short : Bool) (s : State) (h_s : Machine.Keeps z s) : OutKeeps z (execPhaseFault stage short s) := by
  unfold execPhaseFault
  try dsimp only
  repeat' (first | with_reducible (first | assumption | intro _ | apply State.evRec_keeps | apply State.setF_keeps | apply State.setThrottle_keeps | apply keeps_ite) | simp only [keeps_mk_iff] | with_reducible apply outKeeps_next | with_reducible apply outKeeps_ite | split)

theorem execPhaseShedLoad_keeps {z : State} (stage : Nat) (on : Bool) (s : State) (h_s : Machine.Keeps z s) : OutKeeps z (execPhaseShedLoad stage on s) := by
  unfold execPhaseShedLoad
  try dsimp only
  repeat' (first | with_reducible (first | assumption | intro _ | apply State.setF_keeps | apply keeps_ite | apply outKeeps_next | apply outKeeps_ite) | (refine keeps_snd (by with_reducible assumption) ?_) | (refine keeps_fst (by with_reducible assumption) ?_) | split)

theorem execXtalFail_keeps {z : State} (s : State) (h_s : Machine.Keeps z s) : OutKeeps z (execXtalFail s) := by
  unfold execXtalFail
  try dsimp only
  repeat' (first | with_reducible (first | assumption | intro _ | apply State.ev_keeps | apply State.setF_keeps | apply outKeeps_next))

theorem execXtalOk_keeps {z : State} (s : State) (h_s : Machine.Keeps z s) : OutKeeps z (execXtalOk s) := by
  unfold execXtalOk
  try dsimp only
  repeat' (first | with_reducible (first | assumption | intro _ | apply State.setF_keeps | apply outKeeps_next))

theorem execWakeN_keeps {z : State} (low : Bool) (s : State) (h_s : Machine.Keeps z s) : OutKeeps z (execWakeN low s) := by
  unfold execWakeN
  try dsimp only
  repeat' (first | with_reducible (first | assumption | intro _ | apply State.setF_keeps | apply State.wakeUp_keeps | apply keeps_ite) | simp only [keeps_mk_iff] | with_reducible apply outKeeps_next | with_reducible apply outKeeps_ite | split)

theorem execWakeTimer_keeps {z : State} (s : State) (h_s : Machine.Keeps z s) : OutKeeps z (execWakeTimer s) := by
  unfold execWakeTimer
  try dsimp only
  repeat' (first | with_reducible (first | assumption | intro _ | apply State.setF_keeps | apply State.wakeUp_keeps | apply keeps_ite | apply outKeeps_next | apply outKeeps_ite) | split)

theorem execWake_keeps {z : State} (s : State) (h_s : Machine.Keeps z s) : OutKeeps z (execWake s) := by
  unfold execWake
  try dsimp only
  repeat' (first | with_reducible (first | assumption | intro _ | apply State.wakeUp_keeps) | simp only [keeps_mk_iff] | with_reducible apply outKeeps_next | (refine keeps_snd (by with_reducible assumption) ?_) | (refine keeps_fst (by with_reducible assumption) ?_) | split)

theorem execSleepAborted_keeps {z : State} (s : State) (h_s : Machine.Keeps z s) : OutKeeps z (execSleepAborted s) := by
  unfold execSleepAborted
  try dsimp only
  repeat' (first | with_reducible (first | assumption | intro _ | apply State.abortSleep_keeps | apply outKeeps_next))

theorem execThermalCheck_keeps {z : State} (temps : List Nat) (s : State) (h_s : Machine.Keeps z s) : OutKeeps z (execThermalCheck temps s) := by
  unfold execThermalCheck
  try dsimp only
  repeat' (first | with_reducible (first | assumption | intro _ | apply State.allTiles_keeps | apply State.bump_keeps | apply State.evRec_keeps | apply State.setF_keeps | apply State.setThrottle_keeps | apply keeps_foldl | apply keeps_foldl_snd | apply keeps_foldl_fst | apply keeps_getD | apply keeps_ite) | simp only [keeps_mk_iff] | with_reducible apply outKeeps_next | with_reducible apply outKeeps_ite | (refine keeps_snd (by with_reducible assumption) ?_) | (refine keeps_fst (by with_reducible assumption) ?_) | split)

theorem execWdogExpiry_keeps {z : State} (s : State) (h_s : Machine.Keeps z s) : OutKeeps z (execWdogExpiry s) := by
  unfold execWdogExpiry
  try dsimp only
  repeat' (first | with_reducible (first | assumption | intro _ | apply State.resetVia_keeps | apply keeps_ite | apply outKeeps_next | apply outKeeps_ite) | split)

theorem cmdSysReset_keeps  : (cmdSysReset).Keeps := by
  intro z k pl s h
  unfold cmdSysReset
  try unfold actCmd
  try unfold readCmd
  try unfold mirCmd
  try dsimp only
  repeat' (first | with_reducible (first | assumption | apply ite_some_imp | intro _ | apply actCmd_keeps | apply State.resetVia_keeps) | simp only [keeps_mk_iff] | exact actCmd_keeps | with_reducible apply Cmd.out_keeps | with_reducible apply CmdOut.s_keeps | with_reducible apply CmdOut.after_keeps | simp only [CmdOut.mk_keeps_iff] | simp only [Cmd.mk_keeps_iff] | with_reducible apply And.intro)

theorem execSysReset_keeps {z : State} (f : Frame) (s : State) (h_s : Machine.Keeps z s) : OutKeeps z (execSysReset f s) := by
  unfold execSysReset
  try dsimp only
  repeat' (first | with_reducible (first | assumption | intro _ | apply cmdSysReset_keeps | apply mailbox_keeps) | exact cmdSysReset_keeps | with_reducible apply outKeeps_next)

theorem cmdPowerStatus_keeps  : (cmdPowerStatus).Keeps := by
  intro z k pl s h
  unfold cmdPowerStatus
  try unfold actCmd
  try unfold readCmd
  try unfold mirCmd
  try dsimp only
  repeat' (first | with_reducible (first | assumption | intro _ | apply State.allTiles_keeps | apply readCmd_keeps | apply CmdOut.reply_keeps | apply State.sense_keeps | apply keeps_foldl | apply keeps_foldl_snd | apply keeps_foldl_fst | apply keeps_ite) | simp only [keeps_mk_iff] | exact readCmd_keeps | with_reducible apply Cmd.out_keeps | with_reducible apply CmdOut.s_keeps | with_reducible apply CmdOut.after_keeps | with_reducible apply CmdOut.ite_keeps | simp only [CmdOut.mk_keeps_iff] | simp only [Cmd.mk_keeps_iff] | with_reducible apply And.intro | split)

theorem cmdPowerConfig_keeps  : (cmdPowerConfig).Keeps := by
  intro z k pl s h
  unfold cmdPowerConfig
  try unfold actCmd
  try unfold readCmd
  try unfold mirCmd
  try dsimp only
  repeat' (first | with_reducible (first | assumption | intro _ | apply actCmd_keeps | apply State.config_keeps | apply State.configAll_keeps | apply CmdOut.done_keeps | apply State.recomputeCeiling_keeps | apply keeps_ite) | simp only [keeps_mk_iff] | exact actCmd_keeps | with_reducible apply Cmd.out_keeps | with_reducible apply CmdOut.s_keeps | with_reducible apply CmdOut.after_keeps | with_reducible apply CmdOut.ite_keeps | simp only [CmdOut.mk_keeps_iff] | simp only [Cmd.mk_keeps_iff] | with_reducible apply And.intro | (refine keeps_snd (by with_reducible assumption) ?_) | (refine keeps_fst (by with_reducible assumption) ?_) | split)

theorem cmdWakeTimerSet_keeps  : (cmdWakeTimerSet).Keeps := by
  intro z k pl s h
  unfold cmdWakeTimerSet
  try unfold actCmd
  try unfold readCmd
  try unfold mirCmd
  try dsimp only
  repeat' (first | with_reducible (first | assumption | intro _ | apply actCmd_keeps | apply State.config_keeps | apply CmdOut.done_keeps | apply State.setF_keeps | apply State.setFs_keeps | apply keeps_ite) | simp only [keeps_mk_iff] | exact actCmd_keeps | with_reducible apply Cmd.out_keeps | with_reducible apply CmdOut.s_keeps | with_reducible apply CmdOut.after_keeps | with_reducible apply CmdOut.ite_keeps | simp only [CmdOut.mk_keeps_iff] | simp only [Cmd.mk_keeps_iff] | with_reducible apply And.intro | split)

theorem execPowerStatus_keeps {z : State} (f : Frame) (s : State) (h_s : Machine.Keeps z s) : OutKeeps z (execPowerStatus f s) := by
  unfold execPowerStatus
  try dsimp only
  repeat' (first | with_reducible (first | assumption | intro _ | apply cmdPowerStatus_keeps | apply mailbox_keeps) | exact cmdPowerStatus_keeps | with_reducible apply outKeeps_next)

theorem execPowerConfig_keeps {z : State} (f : Frame) (s : State) (h_s : Machine.Keeps z s) : OutKeeps z (execPowerConfig f s) := by
  unfold execPowerConfig
  try dsimp only
  repeat' (first | with_reducible (first | assumption | intro _ | apply cmdPowerConfig_keeps | apply mailbox_keeps) | exact cmdPowerConfig_keeps | with_reducible apply outKeeps_next)

theorem execWakeTimerSet_keeps {z : State} (f : Frame) (s : State) (h_s : Machine.Keeps z s) : OutKeeps z (execWakeTimerSet f s) := by
  unfold execWakeTimerSet
  try dsimp only
  repeat' (first | with_reducible (first | assumption | intro _ | apply cmdWakeTimerSet_keeps | apply mailbox_keeps) | exact cmdWakeTimerSet_keeps | with_reducible apply outKeeps_next)

end Sys2Proof.Machine
end

