-- ==== Sys2Proof/Laws/KeepFreezeRun.lean ====
section
/-! SUPPORT. What no command changes is kept by every function of `Machine/FreezeRun.lean`. -/

set_option linter.all false

namespace Sys2Proof.Machine

theorem execFreezeTrigger_keeps {z : State} (tile source : Nat) (s : State) (h_s : Machine.Keeps z s) : OutKeeps z (execFreezeTrigger tile source s) := by
  unfold execFreezeTrigger
  try dsimp only
  repeat' (first | with_reducible (first | assumption | intro _ | apply State.allTiles_keeps | apply State.freezeTile_keeps | apply State.freezeTrigger_keeps | apply onTile_keeps | apply State.resetVia_keeps | apply keeps_ite) | simp only [keeps_mk_iff] | with_reducible apply outKeeps_next | with_reducible apply outKeeps_ite | (refine keeps_snd (by with_reducible assumption) ?_) | (refine keeps_fst (by with_reducible assumption) ?_) | split)

theorem execSecondTrigger_keeps {z : State} (tile : Nat) (s : State) (h_s : Machine.Keeps z s) : OutKeeps z (execSecondTrigger tile s) := by
  unfold execSecondTrigger
  try dsimp only
  repeat' (first | with_reducible (first | assumption | intro _ | apply State.ev_keeps | apply onTile_keeps | apply keeps_ite | apply outKeeps_next | apply outKeeps_ite) | split)

theorem execMainsReturn_keeps {z : State} (s : State) (h_s : Machine.Keeps z s) : OutKeeps z (execMainsReturn s) := by
  unfold execMainsReturn
  try dsimp only
  repeat' (first | with_reducible (first | assumption | intro _ | apply State.mainsUp_keeps | apply outKeeps_next))

theorem State.drainPortions_keeps {z : State} (s : State) (t : Nat) (h_s : Machine.Keeps z s) : Machine.Keeps z (State.drainPortions s t) := by
  unfold State.drainPortions
  try dsimp only
  repeat' (first | with_reducible (first | assumption | intro _ | apply State.applyPortion_keeps | apply State.discardPortion_keeps | apply State.updNet_keeps | apply keeps_foldl | apply keeps_foldl_snd | apply keeps_foldl_fst) | simp only [keeps_mk_iff])

theorem State.stopDeep_keeps {z : State} (s : State) (t : Nat) (h_s : Machine.Keeps z s) : Machine.Keeps z (State.stopDeep s t) := by
  unfold State.stopDeep
  try dsimp only
  repeat' (first | with_reducible (first | assumption | intro _ | apply State.bump_keeps | apply State.updDeep_keeps | apply keeps_foldl | apply keeps_foldl_snd | apply keeps_foldl_fst | apply keeps_ite) | simp only [keeps_mk_iff] | split)

theorem State.dropFetches_keeps {z : State} (s : State) (t : Nat) (h_s : Machine.Keeps z s) : Machine.Keeps z (State.dropFetches s t) := by
  unfold State.dropFetches
  try dsimp only
  repeat' (first | with_reducible (first | assumption | apply ite_some_imp | intro _ | apply State.deepPoison_keeps | apply State.nearPoison_keeps | apply State.updTwl_keeps | apply keeps_foldl | apply keeps_foldl_snd | apply keeps_foldl_fst | apply keeps_ite) | simp only [keeps_mk_iff] | (refine keeps_snd (by with_reducible assumption) ?_) | (refine keeps_fst (by with_reducible assumption) ?_) | split)

theorem State.emergencyRecord_keeps {z : State} (s : State) (t : Nat) (h_s : Machine.Keeps z s) : Machine.Keeps z (State.emergencyRecord s t) := by
  unfold State.emergencyRecord
  try dsimp only
  repeat' (first | with_reducible (first | assumption | intro _ | apply keeps_ite) | simp only [keeps_mk_iff] | split)

theorem State.drainEnd_keeps {z : State} (s : State) (t : Nat) (h_s : Machine.Keeps z s) : Machine.Keeps z (State.drainEnd s t) := by
  unfold State.drainEnd
  try dsimp only
  repeat' (first | with_reducible (first | assumption | intro _ | apply State.abandonMoves_keeps | apply State.drainPortions_keeps | apply State.dropFetches_keeps | apply State.emergencyRecord_keeps | apply State.setF_keeps | apply State.setFs_keeps | apply State.stopCache_keeps | apply State.stopDeep_keeps | apply State.stopLanes_keeps) | simp only [keeps_mk_iff])

theorem execDrainWindowEnd_keeps {z : State} (tile : Nat) (s : State) (h_s : Machine.Keeps z s) : OutKeeps z (execDrainWindowEnd tile s) := by
  unfold execDrainWindowEnd
  try dsimp only
  repeat' (first | with_reducible (first | assumption | intro _ | apply State.drainEnd_keeps | apply onTile_keeps | apply keeps_ite | apply outKeeps_next | apply outKeeps_ite) | split)

theorem State.dropUes_keeps {z : State} (s : State) (t p : Nat) (h_s : Machine.Keeps z s) : Machine.Keeps z (State.dropUes s t p) := by
  unfold State.dropUes
  try dsimp only
  repeat' (first | with_reducible (first | assumption | intro _ | apply State.ueRecover_keeps | apply keeps_foldl | apply keeps_foldl_snd | apply keeps_foldl_fst))

theorem State.readDirty_keeps {z : State} (s : State) (t p : Nat) (h_s : Machine.Keeps z s) : Machine.Keeps z (State.readDirty s t p).2 := by
  unfold State.readDirty
  try dsimp only
  repeat' (first | with_reducible (first | assumption | apply ite_some_imp | intro _ | apply State.dropUes_keeps | apply State.probe_keeps | apply State.readHome_keeps) | simp only [keeps_mk_iff] | (refine keeps_snd (by with_reducible assumption) ?_) | (refine keeps_fst (by with_reducible assumption) ?_) | split)

theorem State.dumpPage_keeps {z : State} (s : State) (a : DumpArea) (p i : Nat) (h_s : Machine.Keeps z s) : Machine.Keeps z (State.dumpPage s a p i).2 := by
  unfold State.dumpPage
  try dsimp only
  repeat' (first | with_reducible (first | assumption | intro _ | apply State.nextSeq_keeps | apply State.putCodeword_keeps | apply State.readDirty_keeps | apply keeps_getD) | simp only [keeps_mk_iff] | (refine keeps_snd (by with_reducible assumption) ?_) | (refine keeps_fst (by with_reducible assumption) ?_) | split)

theorem State.programmed_keeps {z : State} (s : State) (t n : Nat) (h_s : Machine.Keeps z s) : Machine.Keeps z (State.programmed s t n) := by
  unfold State.programmed
  try dsimp only
  repeat' (first | with_reducible (first | assumption | intro _ | apply State.bump_keeps | apply keeps_foldl | apply keeps_foldl_snd | apply keeps_foldl_fst))

theorem State.writeDump_keeps {z : State} (s : State) (t : Nat) (l : List (Nat × Nat)) (h_s : Machine.Keeps z s) : Machine.Keeps z (State.writeDump s t l) := by
  unfold State.writeDump
  try dsimp only
  repeat' (first | with_reducible (first | assumption | intro _ | apply State.dumpPage_keeps | apply State.programmed_keeps | apply State.updDeep_keeps | apply State.updFirn_keeps | apply State.updStripe_keeps | apply keeps_foldl | apply keeps_foldl_snd | apply keeps_foldl_fst | apply keeps_ite) | simp only [keeps_mk_iff] | (refine keeps_snd (by with_reducible assumption) ?_) | (refine keeps_fst (by with_reducible assumption) ?_) | split)

theorem State.keepMeta_keeps {z : State} (s : State) (t : Nat) (n : Option Nat) (h_s : Machine.Keeps z s) : Machine.Keeps z (State.keepMeta s t n) := by
  unfold State.keepMeta
  try dsimp only
  repeat' (first | with_reducible (first | assumption | intro _ | apply State.updFirn_keeps | apply keeps_ite) | simp only [keeps_mk_iff] | split)

theorem State.saveMeta_keeps {z : State} (s : State) (t : Nat) (h_s : Machine.Keeps z s) : Machine.Keeps z (State.saveMeta s t) := by
  unfold State.saveMeta
  try dsimp only
  repeat' (first | with_reducible (first | assumption | intro _ | apply State.bump_keeps | apply State.keepMeta_keeps | apply State.programmed_keeps | apply State.updFirn_keeps) | simp only [keeps_mk_iff])

theorem State.dumpComplete_keeps {z : State} (s : State) (t : Nat) (h_s : Machine.Keeps z s) : Machine.Keeps z (State.dumpComplete s t) := by
  unfold State.dumpComplete
  try dsimp only
  repeat' (first | with_reducible (first | assumption | intro _ | apply State.saveMeta_keeps | apply State.setF_keeps | apply State.writeDump_keeps | apply keeps_ite) | split)

theorem execDumpComplete_keeps {z : State} (tile : Nat) (s : State) (h_s : Machine.Keeps z s) : OutKeeps z (execDumpComplete tile s) := by
  unfold execDumpComplete
  try dsimp only
  repeat' (first | with_reducible (first | assumption | intro _ | apply State.dumpComplete_keeps | apply onTile_keeps | apply keeps_ite | apply outKeeps_next | apply outKeeps_ite) | split)

theorem State.putSeal_keeps {z : State} (s : State) (t : Nat) (d : Dump) (h_s : Machine.Keeps z s) : Machine.Keeps z (State.putSeal s t d) := by
  unfold State.putSeal
  try dsimp only
  repeat' (first | with_reducible (first | assumption | apply ite_some_imp | intro _ | apply State.nextSeq_keeps | apply State.programmed_keeps | apply State.putCodeword_keeps | apply keeps_getD) | simp only [keeps_mk_iff] | (refine keeps_snd (by with_reducible assumption) ?_) | (refine keeps_fst (by with_reducible assumption) ?_) | split)

theorem State.sealDone_keeps {z : State} (s : State) (t : Nat) (h_s : Machine.Keeps z s) : Machine.Keeps z (State.sealDone s t) := by
  unfold State.sealDone
  try dsimp only
  repeat' (first | with_reducible (first | assumption | apply ite_some_imp | intro _ | apply State.putSeal_keeps | apply State.setF_keeps | apply State.updFirn_keeps | apply keeps_ite) | simp only [keeps_mk_iff] | (refine keeps_snd (by with_reducible assumption) ?_) | (refine keeps_fst (by with_reducible assumption) ?_) | split)

theorem execSealVerified_keeps {z : State} (tile : Nat) (s : State) (h_s : Machine.Keeps z s) : OutKeeps z (execSealVerified tile s) := by
  unfold execSealVerified
  try dsimp only
  repeat' (first | with_reducible (first | assumption | intro _ | apply onTile_keeps | apply State.sealDone_keeps | apply keeps_ite | apply outKeeps_next | apply outKeeps_ite) | split)

theorem State.endUnsealed_keeps {z : State} (s : State) (t : Nat) (h_s : Machine.Keeps z s) : Machine.Keeps z (State.endUnsealed s t) := by
  unfold State.endUnsealed
  try dsimp only
  repeat' (first | with_reducible (first | assumption | intro _ | apply State.draw_keeps | apply State.writeDump_keeps | apply keeps_getD | apply keeps_ite) | simp only [keeps_mk_iff] | (refine keeps_snd (by with_reducible assumption) ?_) | (refine keeps_fst (by with_reducible assumption) ?_) | split)

theorem execRailsRemoved_keeps {z : State} (s : State) (h_s : Machine.Keeps z s) : OutKeeps z (execRailsRemoved s) := by
  unfold execRailsRemoved
  try dsimp only
  repeat' (first | with_reducible (first | assumption | intro _ | apply State.allTiles_keeps | apply State.endUnsealed_keeps | apply State.railsOff_keeps | apply keeps_ite) | simp only [keeps_mk_iff] | with_reducible apply outKeeps_next | with_reducible apply outKeeps_ite | split)

theorem execColdBoot_keeps {z : State} (s : State) (h_s : Machine.Keeps z s) : OutKeeps z (execColdBoot s) := by
  unfold execColdBoot
  try dsimp only
  repeat' (first | with_reducible (first | assumption | intro _ | apply State.coldBoot_keeps | apply outKeeps_next))

theorem execFaultEntry_keeps {z : State} (tile cause : Nat) (s : State) (h_s : Machine.Keeps z s) : OutKeeps z (execFaultEntry tile cause s) := by
  unfold execFaultEntry
  try dsimp only
  repeat' (first | with_reducible (first | assumption | intro _ | apply State.enterFault_keeps | apply onTile_keeps | apply keeps_ite) | simp only [keeps_mk_iff] | with_reducible apply outKeeps_next | with_reducible apply outKeeps_ite | split)

theorem execLinkRetired_keeps {z : State} (tile peer : Nat) (s : State) (h_s : Machine.Keeps z s) : OutKeeps z (execLinkRetired tile peer s) := by
  unfold execLinkRetired
  try dsimp only
  repeat' (first | with_reducible (first | assumption | intro _ | apply State.enterFault_keeps | apply State.evRec_keeps | apply onTile_keeps | apply State.recOpen_keeps | apply State.updFeed_keeps | apply keeps_foldl | apply keeps_foldl_snd | apply keeps_foldl_fst | apply keeps_ite) | simp only [keeps_mk_iff] | with_reducible apply outKeeps_next | with_reducible apply outKeeps_ite | split)

end Sys2Proof.Machine
end

