-- ==== Sys2Proof/Laws/KeepNetwork.lean ====
section
/-! SUPPORT. What no command changes is kept by every function of `Machine/Network.lean`. -/

set_option linter.all false

namespace Sys2Proof.Machine

theorem State.portTake_keeps {z : State} (s : State) (t port old mode en : Nat) (h_s : Machine.Keeps z s) : Machine.Keeps z (State.portTake s t port old mode en) := by
  unfold State.portTake
  try dsimp only
  repeat' (first | with_reducible (first | assumption | intro _ | apply State.ev_keeps | apply State.linkDown_keeps | apply State.qpError_keeps | apply keeps_foldl | apply keeps_foldl_snd | apply keeps_foldl_fst | apply keeps_ite) | split)

theorem State.setPort_keeps {z : State} (s : State) (t port mode en mtu : Nat) (h_s : Machine.Keeps z s) : Machine.Keeps z (State.setPort s t port mode en mtu) := by
  unfold State.setPort
  try dsimp only
  repeat' (first | with_reducible (first | assumption | intro _ | apply State.config_keeps | apply State.portTake_keeps))

theorem cmdNetStatus_keeps  : (cmdNetStatus).Keeps := by
  intro z k pl s h
  unfold cmdNetStatus
  try unfold actCmd
  try unfold readCmd
  try unfold mirCmd
  try dsimp only
  repeat' (first | with_reducible (first | assumption | intro _ | apply readCmd_keeps | apply CmdOut.reply_keeps) | simp only [keeps_mk_iff] | exact readCmd_keeps | with_reducible apply Cmd.out_keeps | with_reducible apply CmdOut.s_keeps | with_reducible apply CmdOut.after_keeps | simp only [CmdOut.mk_keeps_iff] | simp only [Cmd.mk_keeps_iff] | with_reducible apply And.intro)

theorem cmdNetPortSet_keeps  : (cmdNetPortSet).Keeps := by
  intro z k pl s h
  unfold cmdNetPortSet
  try unfold actCmd
  try unfold readCmd
  try unfold mirCmd
  try dsimp only
  repeat' (first | with_reducible (first | assumption | intro _ | apply actCmd_keeps | apply State.config_keeps | apply CmdOut.done_keeps | apply State.setPort_keeps | apply keeps_ite) | simp only [keeps_mk_iff] | exact actCmd_keeps | with_reducible apply Cmd.out_keeps | with_reducible apply CmdOut.s_keeps | with_reducible apply CmdOut.after_keeps | with_reducible apply CmdOut.ite_keeps | simp only [CmdOut.mk_keeps_iff] | simp only [Cmd.mk_keeps_iff] | with_reducible apply And.intro | (refine keeps_snd (by with_reducible assumption) ?_) | (refine keeps_fst (by with_reducible assumption) ?_) | split)

theorem cmdNetAddrSet_keeps  : (cmdNetAddrSet).Keeps := by
  intro z k pl s h
  unfold cmdNetAddrSet
  try unfold actCmd
  try unfold readCmd
  try unfold mirCmd
  try dsimp only
  repeat' (first | with_reducible (first | assumption | intro _ | apply actCmd_keeps | apply State.config_keeps | apply CmdOut.done_keeps | apply State.setCfg_keeps | apply keeps_foldl | apply keeps_foldl_snd | apply keeps_foldl_fst) | simp only [keeps_mk_iff] | exact actCmd_keeps | with_reducible apply Cmd.out_keeps | with_reducible apply CmdOut.s_keeps | with_reducible apply CmdOut.after_keeps | simp only [CmdOut.mk_keeps_iff] | simp only [Cmd.mk_keeps_iff] | with_reducible apply And.intro)

theorem cmdNetDcbSet_keeps  : (cmdNetDcbSet).Keeps := by
  intro z k pl s h
  unfold cmdNetDcbSet
  try unfold actCmd
  try unfold readCmd
  try unfold mirCmd
  try dsimp only
  repeat' (first | with_reducible (first | assumption | intro _ | apply actCmd_keeps | apply State.config_keeps | apply CmdOut.done_keeps | apply keeps_foldl | apply keeps_foldl_snd | apply keeps_foldl_fst) | simp only [keeps_mk_iff] | exact actCmd_keeps | with_reducible apply Cmd.out_keeps | with_reducible apply CmdOut.s_keeps | with_reducible apply CmdOut.after_keeps | simp only [CmdOut.mk_keeps_iff] | simp only [Cmd.mk_keeps_iff] | with_reducible apply And.intro)

theorem cmdRmaConfig_keeps  : (cmdRmaConfig).Keeps := by
  intro z k pl s h
  unfold cmdRmaConfig
  try unfold actCmd
  try unfold readCmd
  try unfold mirCmd
  try dsimp only
  repeat' (first | with_reducible (first | assumption | intro _ | apply actCmd_keeps | apply State.allTiles_keeps | apply State.config_keeps | apply State.configAll_keeps | apply CmdOut.done_keeps | apply State.rebook_keeps | apply State.setCfg_keeps | apply keeps_foldl | apply keeps_foldl_snd | apply keeps_foldl_fst) | simp only [keeps_mk_iff] | exact actCmd_keeps | with_reducible apply Cmd.out_keeps | with_reducible apply CmdOut.s_keeps | with_reducible apply CmdOut.after_keeps | simp only [CmdOut.mk_keeps_iff] | simp only [Cmd.mk_keeps_iff] | with_reducible apply And.intro)

theorem cmdQpList_keeps  : (cmdQpList).Keeps := by
  intro z k pl s h
  unfold cmdQpList
  try unfold actCmd
  try unfold readCmd
  try unfold mirCmd
  try dsimp only
  repeat' (first | with_reducible (first | assumption | intro _ | apply readCmd_keeps | apply CmdOut.reply_keeps) | simp only [keeps_mk_iff] | exact readCmd_keeps | with_reducible apply Cmd.out_keeps | with_reducible apply CmdOut.s_keeps | with_reducible apply CmdOut.after_keeps | simp only [CmdOut.mk_keeps_iff] | simp only [Cmd.mk_keeps_iff] | with_reducible apply And.intro)

theorem cmdQpInfo_keeps  : (cmdQpInfo).Keeps := by
  intro z k pl s h
  unfold cmdQpInfo
  try unfold actCmd
  try unfold readCmd
  try unfold mirCmd
  try dsimp only
  repeat' (first | with_reducible (first | assumption | apply ite_some_imp | intro _ | apply CmdOut.done_keeps | apply readCmd_keeps | apply CmdOut.reply_keeps) | simp only [keeps_mk_iff] | exact readCmd_keeps | with_reducible apply Cmd.out_keeps | with_reducible apply CmdOut.s_keeps | with_reducible apply CmdOut.after_keeps | simp only [CmdOut.mk_keeps_iff] | simp only [Cmd.mk_keeps_iff] | with_reducible apply And.intro | (refine keeps_snd (by with_reducible assumption) ?_) | (refine keeps_fst (by with_reducible assumption) ?_) | split)

theorem cmdQpKill_keeps  : (cmdQpKill).Keeps := by
  intro z k pl s h
  unfold cmdQpKill
  try unfold actCmd
  try unfold readCmd
  try unfold mirCmd
  try dsimp only
  repeat' (first | with_reducible (first | assumption | intro _ | apply actCmd_keeps | apply State.config_keeps | apply CmdOut.done_keeps | apply State.qpError_keeps | apply keeps_getD) | simp only [keeps_mk_iff] | exact actCmd_keeps | with_reducible apply Cmd.out_keeps | with_reducible apply CmdOut.s_keeps | with_reducible apply CmdOut.after_keeps | simp only [CmdOut.mk_keeps_iff] | simp only [Cmd.mk_keeps_iff] | with_reducible apply And.intro)

theorem execNetStatus_keeps {z : State} (f : Frame) (s : State) (h_s : Machine.Keeps z s) : OutKeeps z (execNetStatus f s) := by
  unfold execNetStatus
  try dsimp only
  repeat' (first | with_reducible (first | assumption | intro _ | apply cmdNetStatus_keeps | apply mailbox_keeps) | exact cmdNetStatus_keeps | with_reducible apply outKeeps_next)

theorem execNetPortSet_keeps {z : State} (f : Frame) (s : State) (h_s : Machine.Keeps z s) : OutKeeps z (execNetPortSet f s) := by
  unfold execNetPortSet
  try dsimp only
  repeat' (first | with_reducible (first | assumption | intro _ | apply cmdNetPortSet_keeps | apply mailbox_keeps) | exact cmdNetPortSet_keeps | with_reducible apply outKeeps_next)

theorem execNetAddrSet_keeps {z : State} (f : Frame) (s : State) (h_s : Machine.Keeps z s) : OutKeeps z (execNetAddrSet f s) := by
  unfold execNetAddrSet
  try dsimp only
  repeat' (first | with_reducible (first | assumption | intro _ | apply cmdNetAddrSet_keeps | apply mailbox_keeps) | exact cmdNetAddrSet_keeps | with_reducible apply outKeeps_next)

theorem execNetDcbSet_keeps {z : State} (f : Frame) (s : State) (h_s : Machine.Keeps z s) : OutKeeps z (execNetDcbSet f s) := by
  unfold execNetDcbSet
  try dsimp only
  repeat' (first | with_reducible (first | assumption | intro _ | apply cmdNetDcbSet_keeps | apply mailbox_keeps) | exact cmdNetDcbSet_keeps | with_reducible apply outKeeps_next)

theorem execRmaConfig_keeps {z : State} (f : Frame) (s : State) (h_s : Machine.Keeps z s) : OutKeeps z (execRmaConfig f s) := by
  unfold execRmaConfig
  try dsimp only
  repeat' (first | with_reducible (first | assumption | intro _ | apply cmdRmaConfig_keeps | apply mailbox_keeps) | exact cmdRmaConfig_keeps | with_reducible apply outKeeps_next)

theorem execQpList_keeps {z : State} (f : Frame) (s : State) (h_s : Machine.Keeps z s) : OutKeeps z (execQpList f s) := by
  unfold execQpList
  try dsimp only
  repeat' (first | with_reducible (first | assumption | intro _ | apply cmdQpList_keeps | apply mailbox_keeps) | exact cmdQpList_keeps | with_reducible apply outKeeps_next)

theorem execQpInfo_keeps {z : State} (f : Frame) (s : State) (h_s : Machine.Keeps z s) : OutKeeps z (execQpInfo f s) := by
  unfold execQpInfo
  try dsimp only
  repeat' (first | with_reducible (first | assumption | intro _ | apply cmdQpInfo_keeps | apply mailbox_keeps) | exact cmdQpInfo_keeps | with_reducible apply outKeeps_next)

theorem execQpKill_keeps {z : State} (f : Frame) (s : State) (h_s : Machine.Keeps z s) : OutKeeps z (execQpKill f s) := by
  unfold execQpKill
  try dsimp only
  repeat' (first | with_reducible (first | assumption | intro _ | apply cmdQpKill_keeps | apply mailbox_keeps) | exact cmdQpKill_keeps | with_reducible apply outKeeps_next)

end Sys2Proof.Machine
end

