-- ==== Sys2Proof/Laws/KeepTwinRole.lean ====
section
/-! SUPPORT. What no command changes is kept by every function of `Machine/TwinRole.lean`. -/

set_option linter.all false

namespace Sys2Proof.Machine

theorem State.twinFault_keeps {z : State} (s : State) (cause code : Nat) (h_s : Machine.Keeps z s) : Machine.Keeps z (State.twinFault s cause code) := by
  unfold State.twinFault
  try dsimp only
  repeat' (first | with_reducible (first | assumption | intro _ | apply State.notify_keeps))

theorem State.dropShadow_keeps {z : State} (s : State) (n : Nat) (h_s : Machine.Keeps z s) : Machine.Keeps z (State.dropShadow s n) := by
  unfold State.dropShadow
  try dsimp only
  repeat' (first | with_reducible (first | assumption | intro _ | apply State.updNet_keeps) | simp only [keeps_mk_iff])

theorem State.releaseHeld_keeps {z : State} (s : State) (h_s : Machine.Keeps z s) : Machine.Keeps z (State.releaseHeld s) := by
  unfold State.releaseHeld
  try dsimp only
  repeat' (first | with_reducible (first | assumption | intro _ | apply State.respond_keeps | apply keeps_foldl | apply keeps_foldl_snd | apply keeps_foldl_fst) | simp only [keeps_mk_iff])

theorem State.completeAtC1_keeps {z : State} (s : State) (h_s : Machine.Keeps z s) : Machine.Keeps z (State.completeAtC1 s) := by
  unfold State.completeAtC1
  try dsimp only
  repeat' (first | with_reducible (first | assumption | intro _ | apply State.releaseHeld_keeps | apply State.settleAll_keeps | apply State.updNet_keeps | apply keeps_ite) | simp only [keeps_mk_iff] | split)

theorem State.goSolo_keeps {z : State} (s : State) (why : Nat) (h_s : Machine.Keeps z s) : Machine.Keeps z (State.goSolo s why) := by
  unfold State.goSolo
  try dsimp only
  repeat' (first | with_reducible (first | assumption | intro _ | apply State.advanceEpoch_keeps | apply State.raiseActo_keeps | apply State.setRole_keeps))

theorem State.standAlone_keeps {z : State} (s : State) (why : Nat) (h_s : Machine.Keeps z s) : Machine.Keeps z (State.standAlone s why) := by
  unfold State.standAlone
  try dsimp only
  repeat' (first | with_reducible (first | assumption | intro _ | apply State.completeAtC1_keeps | apply State.divergeUnacked_keeps | apply State.goSolo_keeps))

theorem State.silentActive_keeps {z : State} (s : State) (h_s : Machine.Keeps z s) : Machine.Keeps z (State.silentActive s) := by
  unfold State.silentActive
  try dsimp only
  repeat' (first | with_reducible (first | assumption | intro _ | apply State.evRec_keeps | apply State.twinFault_keeps | apply State.updTwin_keeps | apply keeps_ite) | simp only [keeps_mk_iff] | split)

theorem State.loseOn_keeps {z : State} (s : State) (h_s : Machine.Keeps z s) : Machine.Keeps z (State.loseOn s) := by
  unfold State.loseOn
  try dsimp only
  repeat' (first | with_reducible (first | assumption | apply ite_some_imp | intro _ | apply State.divergeAll_keeps | apply State.evRec_keeps | apply State.named_keeps | apply State.silentActive_keeps | apply State.standAlone_keeps | apply State.stopResync_keeps | apply State.updTwin_keeps | apply keeps_ite) | simp only [keeps_mk_iff] | (refine keeps_snd (by with_reducible assumption) ?_) | (refine keeps_fst (by with_reducible assumption) ?_) | split)

theorem execPartnerLost_keeps {z : State} (s : State) (h_s : Machine.Keeps z s) : OutKeeps z (execPartnerLost s) := by
  unfold execPartnerLost
  try dsimp only
  repeat' (first | with_reducible (first | assumption | intro _ | apply State.loseOn_keeps | apply keeps_ite | apply outKeeps_next | apply outKeeps_ite) | split)

theorem State.departHeard_keeps {z : State} (s : State) (t : Nat) (h_s : Machine.Keeps z s) : Machine.Keeps z (State.departHeard s t) := by
  unfold State.departHeard
  try dsimp only
  repeat' (first | with_reducible (first | assumption | intro _ | apply State.ev_keeps | apply State.loseOn_keeps | apply keeps_ite) | split)

theorem execPathLost_keeps {z : State} (s : State) (h_s : Machine.Keeps z s) : OutKeeps z (execPathLost s) := by
  unfold execPathLost
  try dsimp only
  repeat' (first | with_reducible (first | assumption | intro _ | apply State.evRec_keeps | apply State.twinFault_keeps | apply State.updTwin_keeps | apply keeps_ite) | simp only [keeps_mk_iff] | with_reducible apply outKeeps_next | with_reducible apply outKeeps_ite | split)

theorem State.sendQpState_keeps {z : State} (s : State) (q : Qp) (h_s : Machine.Keeps z s) : Machine.Keeps z (State.sendQpState s q) := by
  unfold State.sendQpState
  try dsimp only
  repeat' (first | with_reducible (first | assumption | intro _ | apply State.mirrorItem_keeps | apply State.mirrorQp_keeps | apply keeps_foldl | apply keeps_foldl_snd | apply keeps_foldl_fst) | simp only [keeps_mk_iff] | (refine keeps_snd (by with_reducible assumption) ?_) | (refine keeps_fst (by with_reducible assumption) ?_) | split)

theorem State.sendChain_keeps {z : State} (s : State) (c : Chain) (h_s : Machine.Keeps z s) : Machine.Keeps z (State.sendChain s c) := by
  unfold State.sendChain
  try dsimp only
  repeat' (first | with_reducible (first | assumption | apply ite_some_imp | intro _ | apply State.mirrorItem_keeps | apply keeps_foldl | apply keeps_foldl_snd | apply keeps_foldl_fst) | simp only [keeps_mk_iff] | (refine keeps_snd (by with_reducible assumption) ?_) | (refine keeps_fst (by with_reducible assumption) ?_) | split)

theorem State.sendPlan_keeps {z : State} (s : State) (p : Plan) (h_s : Machine.Keeps z s) : Machine.Keeps z (State.sendPlan s p) := by
  unfold State.sendPlan
  try dsimp only
  repeat' (first | with_reducible (first | assumption | intro _ | apply State.mirrorItem_keeps | apply State.mirrorOrder_keeps | apply keeps_foldl | apply keeps_foldl_snd | apply keeps_foldl_fst | apply keeps_id))

theorem State.sendPending_keeps {z : State} (s : State) (h_s : Machine.Keeps z s) : Machine.Keeps z (State.sendPending s) := by
  unfold State.sendPending
  try dsimp only
  repeat' (first | with_reducible (first | assumption | apply ite_some_imp | intro _ | apply State.mirrorCommand_keeps | apply State.mirrorItem_keeps | apply keeps_foldl | apply keeps_foldl_snd | apply keeps_foldl_fst | apply keeps_getD | apply keeps_ite) | simp only [keeps_mk_iff] | (refine keeps_snd (by with_reducible assumption) ?_) | (refine keeps_fst (by with_reducible assumption) ?_) | split)

theorem State.startResync_keeps {z : State} (s : State) (h_s : Machine.Keeps z s) : Machine.Keeps z (State.startResync s) := by
  unfold State.startResync
  try dsimp only
  repeat' (first | with_reducible (first | assumption | intro _ | apply State.mirrorHome_keeps | apply State.mirrorItem_keeps | apply State.mirrorRegion_keeps | apply State.sendChain_keeps | apply State.sendPending_keeps | apply State.sendPlan_keeps | apply State.sendQpState_keeps | apply State.updTwin_keeps | apply keeps_foldl | apply keeps_foldl_snd | apply keeps_foldl_fst) | simp only [keeps_mk_iff])

theorem State.tryResync_keeps {z : State} (s : State) (h_s : Machine.Keeps z s) : Machine.Keeps z (State.tryResync s) := by
  unfold State.tryResync
  try dsimp only
  repeat' (first | with_reducible (first | assumption | intro _ | apply State.startResync_keeps | apply keeps_ite) | split)

theorem State.sendSnapshot_keeps {z : State} (s : State) (t u : Nat) (h_s : Machine.Keeps z s) : Machine.Keeps z (State.sendSnapshot s t u) := by
  unfold State.sendSnapshot
  try dsimp only
  repeat' (first | with_reducible (first | assumption | intro _ | apply State.bump_keeps | apply State.ev_keeps | apply State.mirrorItem_keeps | apply State.readAms_keeps | apply State.setDivBit_keeps | apply keeps_ite) | (refine keeps_snd (by with_reducible assumption) ?_) | (refine keeps_fst (by with_reducible assumption) ?_) | split)

theorem execResyncSnapshot_keeps {z : State} (tile : Nat) (s : State) (h_s : Machine.Keeps z s) : OutKeeps z (execResyncSnapshot tile s) := by
  unfold execResyncSnapshot
  try dsimp only
  repeat' (first | with_reducible (first | assumption | intro _ | apply onTile_keeps | apply State.probe_keeps | apply State.sendSnapshot_keeps | apply keeps_ite) | simp only [keeps_mk_iff] | with_reducible apply outKeeps_next | with_reducible apply outKeeps_ite | (refine keeps_snd (by with_reducible assumption) ?_) | (refine keeps_fst (by with_reducible assumption) ?_) | split)

theorem execResyncComplete_keeps {z : State} (s : State) (h_s : Machine.Keeps z s) : OutKeeps z (execResyncComplete s) := by
  unfold execResyncComplete
  try dsimp only
  repeat' (first | with_reducible (first | assumption | intro _ | apply State.advanceEpoch_keeps | apply State.setRole_keeps | apply State.updTwin_keeps | apply keeps_ite) | simp only [keeps_mk_iff] | with_reducible apply outKeeps_next | with_reducible apply outKeeps_ite | split)

theorem State.goSyncing_keeps {z : State} (s : State) (why : Nat) (h_s : Machine.Keeps z s) : Machine.Keeps z (State.goSyncing s why) := by
  unfold State.goSyncing
  try dsimp only
  repeat' (first | with_reducible (first | assumption | apply ite_some_imp | intro _ | apply State.abandonMoves_keeps | apply State.dropData_keeps | apply State.setRole_keeps | apply State.updAms_keeps | apply State.updTwin_keeps) | simp only [keeps_mk_iff])

theorem State.goStandby_keeps {z : State} (s : State) (why : Nat) (h_s : Machine.Keeps z s) : Machine.Keeps z (State.goStandby s why) := by
  unfold State.goStandby
  try dsimp only
  repeat' (first | with_reducible (first | assumption | intro _ | apply State.dropShadow_keeps | apply State.setRole_keeps | apply State.updTwin_keeps | apply keeps_foldl | apply keeps_foldl_snd | apply keeps_foldl_fst | apply keeps_ite) | simp only [keeps_mk_iff] | split)

theorem State.runAgain_keeps {z : State} (s : State) (e : Exec) (h_s : Machine.Keeps z s) : Machine.Keeps z (State.runAgain s e) := by
  unfold State.runAgain
  try dsimp only
  repeat' (first | with_reducible (first | assumption | intro _ | apply State.beginExec_keeps | apply State.mirrorStart_keeps | apply State.startEnqueue_keeps | apply State.updNet_keeps | apply keeps_ite) | simp only [keeps_mk_iff] | (refine keeps_snd (by with_reducible assumption) ?_) | (refine keeps_fst (by with_reducible assumption) ?_) | split)

theorem State.resumeQp_keeps {z : State} (s : State) (q : Qp) (h_s : Machine.Keeps z s) : Machine.Keeps z (State.resumeQp s q) := by
  unfold State.resumeQp
  try dsimp only
  repeat' (first | with_reducible (first | assumption | apply ite_some_imp | intro _ | apply State.bump_keeps | apply State.mirrorQp_keeps | apply State.pumpQp_keeps | apply State.qpError_keeps | apply State.qpFree_keeps | apply State.runAgain_keeps | apply State.updQp_keeps | apply keeps_foldl | apply keeps_foldl_snd | apply keeps_foldl_fst | apply keeps_ite) | simp only [keeps_mk_iff] | split)

theorem State.announce_keeps {z : State} (s : State) (h_s : Machine.Keeps z s) : Machine.Keeps z (State.announce s) := by
  unfold State.announce
  try dsimp only
  repeat' (first | with_reducible (first | assumption | intro _ | apply State.allTiles_keeps | apply State.xmit_keeps | apply keeps_foldl | apply keeps_foldl_snd | apply keeps_foldl_fst | apply keeps_ite) | split)

theorem State.takeOver_keeps {z : State} (s : State) (inStep : Bool) (h_s : Machine.Keeps z s) : Machine.Keeps z (State.takeOver s inStep) := by
  unfold State.takeOver
  try dsimp only
  repeat' (first | with_reducible (first | assumption | apply ite_some_imp | intro _ | apply State.abandonMoves_keeps | apply State.advanceEpoch_keeps | apply State.announce_keeps | apply State.beginRevoke_keeps | apply State.bump_keeps | apply State.driveActo_keeps | apply State.reissueOrders_keeps | apply State.resumeQp_keeps | apply State.runAgain_keeps | apply State.setRole_keeps | apply State.updTwin_keeps | apply keeps_foldl | apply keeps_foldl_snd | apply keeps_foldl_fst | apply keeps_ite) | simp only [keeps_mk_iff] | split)

theorem execTakeover_keeps {z : State} (s : State) (h_s : Machine.Keeps z s) : OutKeeps z (execTakeover s) := by
  unfold execTakeover
  try dsimp only
  repeat' (first | with_reducible (first | assumption | intro _ | apply State.takeOver_keeps | apply keeps_ite | apply outKeeps_next | apply outKeeps_ite) | split)

theorem execServiceAnnounceRepeat_keeps {z : State} (s : State) (h_s : Machine.Keeps z s) : OutKeeps z (execServiceAnnounceRepeat s) := by
  unfold execServiceAnnounceRepeat
  try dsimp only
  repeat' (first | with_reducible (first | assumption | intro _ | apply State.announce_keeps | apply State.updTwin_keeps | apply keeps_ite) | simp only [keeps_mk_iff] | with_reducible apply outKeeps_next | with_reducible apply outKeeps_ite | split)

theorem State.swapProceed_keeps {z : State} (s : State) (h_s : Machine.Keeps z s) : Machine.Keeps z (State.swapProceed s) := by
  unfold State.swapProceed
  try dsimp only
  repeat' (first | with_reducible (first | assumption | intro _ | apply State.emit_keeps | apply State.mirrorQp_keeps | apply State.updTwin_keeps | apply keeps_foldl | apply keeps_foldl_snd | apply keeps_foldl_fst | apply keeps_ite) | simp only [keeps_mk_iff] | (refine keeps_snd (by with_reducible assumption) ?_) | (refine keeps_fst (by with_reducible assumption) ?_) | split)

theorem State.swapLeave_keeps {z : State} (s : State) (h_s : Machine.Keeps z s) : Machine.Keeps z (State.swapLeave s) := by
  unfold State.swapLeave
  try dsimp only
  repeat' (first | with_reducible (first | assumption | intro _ | apply State.abandonMoves_keeps | apply State.depart_keeps | apply State.driveActo_keeps | apply State.swapProceed_keeps | apply State.updTwin_keeps) | simp only [keeps_mk_iff])

theorem State.swapAsk_keeps {z : State} (s : State) (h_s : Machine.Keeps z s) : Machine.Keeps z (State.swapAsk s) := by
  unfold State.swapAsk
  try dsimp only
  repeat' (first | with_reducible (first | assumption | intro _ | apply State.emit'_keeps | apply State.updTwin_keeps) | simp only [keeps_mk_iff])

theorem State.beginSwap_keeps {z : State} (s : State) (h_s : Machine.Keeps z s) : Machine.Keeps z (State.beginSwap s) := by
  unfold State.beginSwap
  try dsimp only
  repeat' (first | with_reducible (first | assumption | intro _ | apply State.swapAsk_keeps | apply State.swapLeave_keeps | apply keeps_ite) | split)

theorem State.swapDone_keeps {z : State} (s : State) (acked : Bool) (h_s : Machine.Keeps z s) : Machine.Keeps z (State.swapDone s acked) := by
  unfold State.swapDone
  try dsimp only
  repeat' (first | with_reducible (first | assumption | intro _ | apply State.completeAtC1_keeps | apply State.dropData_keeps | apply State.goSyncing_keeps | apply State.setRole_keeps | apply State.updTwin_keeps | apply keeps_ite) | simp only [keeps_mk_iff] | split)

theorem execComebackHoldoff_keeps {z : State} (s : State) (h_s : Machine.Keeps z s) : OutKeeps z (execComebackHoldoff s) := by
  unfold execComebackHoldoff
  try dsimp only
  repeat' (first | with_reducible (first | assumption | intro _ | apply State.swapAsk_keeps | apply keeps_ite | apply outKeeps_next | apply outKeeps_ite) | split)

theorem execSwapTimeout_keeps {z : State} (s : State) (h_s : Machine.Keeps z s) : OutKeeps z (execSwapTimeout s) := by
  unfold execSwapTimeout
  try dsimp only
  repeat' (first | with_reducible (first | assumption | intro _ | apply State.swapDone_keeps | apply State.updTwin_keeps | apply keeps_ite) | simp only [keeps_mk_iff] | with_reducible apply outKeeps_next | with_reducible apply outKeeps_ite | split)

theorem State.settleAs_keeps {z : State} (s : State) (solo : Bool) (h_s : Machine.Keeps z s) : Machine.Keeps z (State.settleAs s solo) := by
  unfold State.settleAs
  try dsimp only
  repeat' (first | with_reducible (first | assumption | intro _ | apply State.goSolo_keeps | apply State.goSyncing_keeps | apply State.tryResync_keeps | apply State.updTwin_keeps | apply keeps_ite) | simp only [keeps_mk_iff] | split)

theorem State.settleSolo_keeps {z : State} (s : State) (barred : Bool) (h_s : Machine.Keeps z s) : Machine.Keeps z (State.settleSolo s barred) := by
  unfold State.settleSolo
  try dsimp only
  repeat' (first | with_reducible (first | assumption | intro _ | apply State.settleAs_keeps | apply keeps_ite) | split)

theorem State.settleRole_keeps {z : State} (s : State) (h_s : Machine.Keeps z s) : Machine.Keeps z (State.settleRole s) := by
  unfold State.settleRole
  try dsimp only
  repeat' (first | with_reducible (first | assumption | apply ite_some_imp | intro _ | apply State.settleAs_keeps | apply State.settleSolo_keeps | apply State.silentActive_keeps | apply keeps_ite) | simp only [keeps_mk_iff] | (refine keeps_snd (by with_reducible assumption) ?_) | (refine keeps_fst (by with_reducible assumption) ?_) | split)

theorem execRoleSettle_keeps {z : State} (s : State) (h_s : Machine.Keeps z s) : OutKeeps z (execRoleSettle s) := by
  unfold execRoleSettle
  try dsimp only
  repeat' (first | with_reducible (first | assumption | intro _ | apply State.settleRole_keeps | apply keeps_ite | apply outKeeps_next | apply outKeeps_ite) | split)

end Sys2Proof.Machine
end

