-- ==== Sys2Proof/Laws/KeepTwinLink.lean ====
section
/-! SUPPORT. What no command changes is kept by every function of `Machine/TwinLink.lean`. -/

set_option linter.all false

namespace Sys2Proof.Machine

theorem State.takeCredit_keeps {z : State} (s : State) (t c : Nat) (h_s : Machine.Keeps z s) : Machine.Keeps z (State.takeCredit s t c) := by
  unfold State.takeCredit
  try dsimp only
  repeat' (first | with_reducible (first | assumption | intro _ | apply State.pump_keeps | apply State.setF_keeps | apply State.updTwl_keeps | apply keeps_ite) | simp only [keeps_mk_iff] | split)

theorem State.commitRx_keeps {z : State} (s : State) (t : Nat) (h_s : Machine.Keeps z s) : Machine.Keeps z (State.commitRx s t) := by
  unfold State.commitRx
  try dsimp only
  repeat' (first | with_reducible (first | assumption | apply ite_some_imp | intro _ | apply State.setFs_keeps | apply State.updTwl_keeps) | simp only [keeps_mk_iff] | (refine keeps_snd (by with_reducible assumption) ?_) | (refine keeps_fst (by with_reducible assumption) ?_) | split)

theorem State.twinIn_keeps {z : State} (s : State) (t type : Nat) (bs : List Byte) (ok : List Byte → Bool) (k : TwinFrame → State → State) (h_s : Machine.Keeps z s) (h_k : ∀ a0 a1, Machine.Keeps z a1 → Machine.Keeps z (k a0 a1)) : Machine.Keeps z (State.twinIn s t type bs ok k) := by
  unfold State.twinIn
  try dsimp only
  repeat' (first | with_reducible (first | assumption | apply ite_some_imp | intro _ | apply h_k | apply State.bump_keeps | apply State.commitRx_keeps | apply State.ev_keeps | apply State.takeCredit_keeps | apply State.updTwl_keeps | apply keeps_ite) | simp only [keeps_mk_iff] | (refine keeps_snd (by with_reducible assumption) ?_) | (refine keeps_fst (by with_reducible assumption) ?_) | split)

theorem execHelloSend_keeps {z : State} (tile : Nat) (s : State) (h_s : Machine.Keeps z s) : OutKeeps z (execHelloSend tile s) := by
  unfold execHelloSend
  try dsimp only
  repeat' (first | with_reducible (first | assumption | intro _ | apply onTile_keeps | apply State.twinSend_keeps | apply keeps_ite | apply outKeeps_next | apply outKeeps_ite) | split)

theorem State.refusePair_keeps {z : State} (s : State) (c : Nat) (h_s : Machine.Keeps z s) : Machine.Keeps z (State.refusePair s c) := by
  unfold State.refusePair
  try dsimp only
  repeat' (first | with_reducible (first | assumption | intro _ | apply State.allTiles_keeps | apply State.evRec_keeps | apply State.goSyncing_keeps | apply State.setF_keeps | apply State.standAlone_keeps | apply State.stopResync_keeps | apply State.twinFault_keeps | apply keeps_ite) | simp only [keeps_mk_iff] | (refine keeps_snd (by with_reducible assumption) ?_) | (refine keeps_fst (by with_reducible assumption) ?_) | split)

theorem State.acceptPair_keeps {z : State} (s : State) (h_s : Machine.Keeps z s) : Machine.Keeps z (State.acceptPair s) := by
  unfold State.acceptPair
  try dsimp only
  repeat' (first | with_reducible (first | assumption | intro _ | apply State.allTiles_keeps | apply State.setF_keeps | apply State.tryResync_keeps | apply State.updTwin_keeps) | simp only [keeps_mk_iff])

theorem State.tryPair_keeps {z : State} (s : State) (h_s : Machine.Keeps z s) : Machine.Keeps z (State.tryPair s) := by
  unfold State.tryPair
  try dsimp only
  repeat' (first | with_reducible (first | assumption | apply ite_some_imp | intro _ | apply State.acceptPair_keeps | apply State.draw_keeps | apply State.refusePair_keeps | apply keeps_ite) | simp only [keeps_mk_iff] | (refine keeps_snd (by with_reducible assumption) ?_) | (refine keeps_fst (by with_reducible assumption) ?_) | split)

theorem execHello_keeps {z : State} (tile : Nat) (frame : List Byte) (s : State) (h_s : Machine.Keeps z s) : OutKeeps z (execHello tile frame s) := by
  unfold execHello
  try dsimp only
  repeat' (first | with_reducible (first | assumption | intro _ | apply onTile_keeps | apply State.tryPair_keeps | apply State.twinIn_keeps | apply State.updTwin_keeps | apply State.updTwl_keeps | apply keeps_ite) | simp only [keeps_mk_iff] | with_reducible apply outKeeps_next | with_reducible apply outKeeps_ite | split)

theorem execHbtxWordSend_keeps {z : State} (s : State) (h_s : Machine.Keeps z s) : OutKeeps z (execHbtxWordSend s) := by
  unfold execHbtxWordSend
  try dsimp only
  repeat' (first | with_reducible (first | assumption | intro _ | apply State.send_keeps | apply State.updTwin_keeps | apply keeps_ite) | simp only [keeps_mk_iff] | with_reducible apply outKeeps_next | with_reducible apply outKeeps_ite | split)

theorem execHeartbeatSend_keeps {z : State} (tile : Nat) (s : State) (h_s : Machine.Keeps z s) : OutKeeps z (execHeartbeatSend tile s) := by
  unfold execHeartbeatSend
  try dsimp only
  repeat' (first | with_reducible (first | assumption | intro _ | apply onTile_keeps | apply State.twinSend_keeps | apply keeps_getD | apply keeps_ite | apply outKeeps_next | apply outKeeps_ite) | split)

theorem State.followPartner_keeps {z : State} (s : State) (w : Nat) (h_s : Machine.Keeps z s) : Machine.Keeps z (State.followPartner s w) := by
  unfold State.followPartner
  try dsimp only
  repeat' (first | with_reducible (first | assumption | intro _ | apply State.goStandby_keeps | apply State.goSyncing_keeps | apply State.tryResync_keeps | apply keeps_ite) | simp only [keeps_mk_iff] | (refine keeps_snd (by with_reducible assumption) ?_) | (refine keeps_fst (by with_reducible assumption) ?_) | split)

theorem State.hearWord_keeps {z : State} (s : State) (t w : Nat) (h_s : Machine.Keeps z s) : Machine.Keeps z (State.hearWord s t w) := by
  unfold State.hearWord
  try dsimp only
  repeat' (first | with_reducible (first | assumption | intro _ | apply State.departHeard_keeps | apply State.followPartner_keeps | apply State.setF_keeps | apply State.updTwin_keeps | apply keeps_ite) | simp only [keeps_mk_iff] | split)

theorem State.checkInterlock_keeps {z : State} (s : State) (w : Nat) (h_s : Machine.Keeps z s) : Machine.Keeps z (State.checkInterlock s w) := by
  unfold State.checkInterlock
  try dsimp only
  repeat' (first | with_reducible (first | assumption | apply ite_some_imp | intro _ | apply State.updTwin_keeps | apply keeps_getD | apply keeps_ite) | simp only [keeps_mk_iff] | split)

theorem State.hearPin_keeps {z : State} (s : State) (w : Nat) (pad : Bool) (h_s : Machine.Keeps z s) : Machine.Keeps z (State.hearPin s w pad) := by
  unfold State.hearPin
  try dsimp only
  repeat' (first | with_reducible (first | assumption | intro _ | apply State.bump_keeps | apply State.checkInterlock_keeps | apply State.hearWord_keeps | apply State.setF_keeps | apply State.updTwin_keeps | apply keeps_ite) | simp only [keeps_mk_iff] | split)

theorem execHeartbeatWord_keeps {z : State} (periods : List (Nat × Nat)) (pad : Bool) (s : State) (h_s : Machine.Keeps z s) : OutKeeps z (execHeartbeatWord periods pad s) := by
  unfold execHeartbeatWord
  try dsimp only
  repeat' (first | with_reducible (first | assumption | apply ite_some_imp | intro _ | apply State.bump_keeps | apply State.hearPin_keeps | apply keeps_ite) | simp only [keeps_mk_iff] | with_reducible apply outKeeps_next | with_reducible apply outKeeps_ite | (refine keeps_snd (by with_reducible assumption) ?_) | (refine keeps_fst (by with_reducible assumption) ?_) | split)

theorem State.checkBooks_keeps {z : State} (s : State) (t g u : Nat) (h_s : Machine.Keeps z s) : Machine.Keeps z (State.checkBooks s t g u) := by
  unfold State.checkBooks
  try dsimp only
  repeat' (first | with_reducible (first | assumption | intro _ | apply State.booksOff_keeps | apply State.evRec_keeps | apply State.pump_keeps | apply State.setF_keeps | apply State.updTwl_keeps | apply keeps_ite) | simp only [keeps_mk_iff] | split)

theorem execHeartbeat_keeps {z : State} (tile : Nat) (frame : List Byte) (s : State) (h_s : Machine.Keeps z s) : OutKeeps z (execHeartbeat tile frame s) := by
  unfold execHeartbeat
  try dsimp only
  repeat' (first | with_reducible (first | assumption | intro _ | apply State.bump_keeps | apply State.checkBooks_keeps | apply State.hearWord_keeps | apply onTile_keeps | apply State.twinIn_keeps | apply State.updTwl_keeps | apply keeps_ite) | simp only [keeps_mk_iff] | with_reducible apply outKeeps_next | with_reducible apply outKeeps_ite | split)

theorem execCreditBooksReset_keeps {z : State} (tile : Nat) (s : State) (h_s : Machine.Keeps z s) : OutKeeps z (execCreditBooksReset tile s) := by
  unfold execCreditBooksReset
  try dsimp only
  repeat' (first | with_reducible (first | assumption | intro _ | apply State.booksOff_keeps | apply onTile_keeps | apply State.pump_keeps | apply State.setF_keeps | apply State.updTwl_keeps | apply keeps_ite) | simp only [keeps_mk_iff] | with_reducible apply outKeeps_next | with_reducible apply outKeeps_ite | split)

theorem execCredit_keeps {z : State} (tile : Nat) (frame : List Byte) (s : State) (h_s : Machine.Keeps z s) : OutKeeps z (execCredit tile frame s) := by
  unfold execCredit
  try dsimp only
  repeat' (first | with_reducible (first | assumption | intro _ | apply onTile_keeps | apply State.twinIn_keeps | apply outKeeps_next))

theorem State.leaseKick_keeps {z : State} (s : State) (h_s : Machine.Keeps z s) : Machine.Keeps z (State.leaseKick s) := by
  unfold State.leaseKick
  try dsimp only
  repeat' (first | with_reducible (first | assumption | intro _ | apply State.raiseActo_keeps | apply State.updTwin_keeps | apply keeps_ite) | simp only [keeps_mk_iff] | split)

theorem execLeaseKick_keeps {z : State} (s : State) (h_s : Machine.Keeps z s) : OutKeeps z (execLeaseKick s) := by
  unfold execLeaseKick
  try dsimp only
  repeat' (first | with_reducible (first | assumption | intro _ | apply State.leaseKick_keeps | apply outKeeps_next))

theorem execLeaseExpired_keeps {z : State} (s : State) (h_s : Machine.Keeps z s) : OutKeeps z (execLeaseExpired s) := by
  unfold execLeaseExpired
  try dsimp only
  repeat' (first | with_reducible (first | assumption | intro _ | apply State.depart_keeps | apply State.driveActo_keeps | apply State.ev_keeps | apply State.updTwin_keeps | apply keeps_ite) | simp only [keeps_mk_iff] | with_reducible apply outKeeps_next | with_reducible apply outKeeps_ite | split)

theorem State.contend_keeps {z : State} (s : State) (h_s : Machine.Keeps z s) : Machine.Keeps z (State.contend s) := by
  unfold State.contend
  try dsimp only
  repeat' (first | with_reducible (first | assumption | intro _ | apply State.driveActo_keeps | apply State.ev_keeps | apply State.standAlone_keeps | apply State.updTwin_keeps | apply keeps_ite) | simp only [keeps_mk_iff] | split)

theorem execTwActiChange_keeps {z : State} (level : Bool) (s : State) (h_s : Machine.Keeps z s) : OutKeeps z (execTwActiChange level s) := by
  unfold execTwActiChange
  try dsimp only
  repeat' (first | with_reducible (first | assumption | apply ite_some_imp | intro _ | apply State.contend_keeps | apply State.setF_keeps | apply State.updTwin_keeps | apply keeps_getD | apply keeps_ite) | simp only [keeps_mk_iff] | with_reducible apply outKeeps_next | with_reducible apply outKeeps_ite | split)

theorem execGuardExpiry_keeps {z : State} (s : State) (h_s : Machine.Keeps z s) : OutKeeps z (execGuardExpiry s) := by
  unfold execGuardExpiry
  try dsimp only
  repeat' (first | with_reducible (first | assumption | intro _ | apply State.raiseActo_keeps | apply outKeeps_next))

theorem execContentionBackoff_keeps {z : State} (s : State) (h_s : Machine.Keeps z s) : OutKeeps z (execContentionBackoff s) := by
  unfold execContentionBackoff
  try dsimp only
  repeat' (first | with_reducible (first | assumption | intro _ | apply State.raiseActo_keeps | apply State.updTwin_keeps | apply keeps_ite) | simp only [keeps_mk_iff] | with_reducible apply outKeeps_next | with_reducible apply outKeeps_ite | split)

theorem execInterlockFault_keeps {z : State} (s : State) (h_s : Machine.Keeps z s) : OutKeeps z (execInterlockFault s) := by
  unfold execInterlockFault
  try dsimp only
  repeat' (first | with_reducible (first | assumption | apply ite_some_imp | intro _ | apply State.evRec_keeps | apply State.setF_keeps | apply State.twinFault_keeps | apply keeps_ite) | simp only [keeps_mk_iff] | with_reducible apply outKeeps_next | with_reducible apply outKeeps_ite | (refine keeps_snd (by with_reducible assumption) ?_) | (refine keeps_fst (by with_reducible assumption) ?_) | split)

theorem State.gateTile_keeps {z : State} (s : State) (t : Nat) (isOpen : Bool) (h_s : Machine.Keeps z s) : Machine.Keeps z (State.gateTile s t isOpen) := by
  unfold State.gateTile
  try dsimp only
  repeat' (first | with_reducible (first | assumption | intro _ | apply State.askAdmit_keeps | apply State.bump_keeps | apply State.ev_keeps | apply State.setFs_keeps | apply State.updNet_keeps | apply keeps_foldl | apply keeps_foldl_snd | apply keeps_foldl_fst | apply keeps_ite) | simp only [keeps_mk_iff] | (refine keeps_snd (by with_reducible assumption) ?_) | (refine keeps_fst (by with_reducible assumption) ?_) | split)

theorem execTwinGateChange_keeps {z : State} (s : State) (h_s : Machine.Keeps z s) : OutKeeps z (execTwinGateChange s) := by
  unfold execTwinGateChange
  try dsimp only
  repeat' (first | with_reducible (first | assumption | intro _ | apply State.allTiles_keeps | apply State.gateTile_keeps | apply outKeeps_next))

theorem State.answerFetch_keeps {z : State} (s : State) (t id a : Nat) (h_s : Machine.Keeps z s) : Machine.Keeps z (State.answerFetch s t id a) := by
  unfold State.answerFetch
  try dsimp only
  repeat' (first | with_reducible (first | assumption | intro _ | apply State.probe_keeps | apply State.readAms_keeps | apply State.twinSend_keeps | apply keeps_id | apply keeps_ite) | (refine keeps_snd (by with_reducible assumption) ?_) | (refine keeps_fst (by with_reducible assumption) ?_) | split)

theorem State.answerFetches_keeps {z : State} (s : State) (t : Nat) (h_s : Machine.Keeps z s) : Machine.Keeps z (State.answerFetches s t) := by
  unfold State.answerFetches
  try dsimp only
  repeat' (first | with_reducible (first | assumption | intro _ | apply State.answerFetch_keeps | apply State.updTwl_keeps | apply keeps_foldl | apply keeps_foldl_snd | apply keeps_foldl_fst | apply keeps_ite) | simp only [keeps_mk_iff] | split)

theorem execFetchReq_keeps {z : State} (tile : Nat) (frame : List Byte) (s : State) (h_s : Machine.Keeps z s) : OutKeeps z (execFetchReq tile frame s) := by
  unfold execFetchReq
  try dsimp only
  repeat' (first | with_reducible (first | assumption | intro _ | apply State.answerFetches_keeps | apply onTile_keeps | apply State.twinIn_keeps | apply State.updTwl_keeps) | simp only [keeps_mk_iff] | with_reducible apply outKeeps_next)

theorem State.fetchOk_keeps {z : State} (s : State) (t p mask : Nat) (bs : List Byte) (h_s : Machine.Keeps z s) : Machine.Keeps z (State.fetchOk s t p mask bs) := by
  unfold State.fetchOk
  try dsimp only
  repeat' (first | with_reducible (first | assumption | apply ite_some_imp | intro _ | apply State.clearNear_keeps | apply State.deepFetched_keeps | apply State.setBytes_keeps | apply State.setPoison_keeps | apply State.ueReload_keeps | apply keeps_foldl | apply keeps_foldl_snd | apply keeps_foldl_fst | apply keeps_ite) | simp only [keeps_mk_iff] | (refine keeps_snd (by with_reducible assumption) ?_) | (refine keeps_fst (by with_reducible assumption) ?_) | split)

theorem State.fetchFailed_keeps {z : State} (s : State) (t p : Nat) (h_s : Machine.Keeps z s) : Machine.Keeps z (State.fetchFailed s t p) := by
  unfold State.fetchFailed
  try dsimp only
  repeat' (first | with_reducible (first | assumption | apply ite_some_imp | intro _ | apply State.ev_keeps | apply State.ladderLast_keeps | apply State.nearPoison_keeps | apply State.uePoison_keeps | apply keeps_foldl | apply keeps_foldl_snd | apply keeps_foldl_fst | apply keeps_ite) | simp only [keeps_mk_iff] | (refine keeps_snd (by with_reducible assumption) ?_) | (refine keeps_fst (by with_reducible assumption) ?_) | split)

theorem State.endFetch_keeps {z : State} (s : State) (t id : Nat) (h_s : Machine.Keeps z s) : Machine.Keeps z (State.endFetch s t id) := by
  unfold State.endFetch
  try dsimp only
  repeat' (first | with_reducible (first | assumption | intro _ | apply State.updTwl_keeps | apply keeps_id) | simp only [keeps_mk_iff])

theorem execFetchResp_keeps {z : State} (tile : Nat) (frame : List Byte) (s : State) (h_s : Machine.Keeps z s) : OutKeeps z (execFetchResp tile frame s) := by
  unfold execFetchResp
  try dsimp only
  repeat' (first | with_reducible (first | assumption | apply ite_some_imp | intro _ | apply State.drop_keeps | apply State.endFetch_keeps | apply State.ev_keeps | apply State.fetchFailed_keeps | apply State.fetchOk_keeps | apply onTile_keeps | apply State.twinIn_keeps | apply keeps_id | apply keeps_ite) | simp only [keeps_mk_iff] | with_reducible apply outKeeps_next | with_reducible apply outKeeps_ite | (refine keeps_snd (by with_reducible assumption) ?_) | (refine keeps_fst (by with_reducible assumption) ?_) | split)

theorem execFetchTimeout_keeps {z : State} (tile id : Nat) (s : State) (h_s : Machine.Keeps z s) : OutKeeps z (execFetchTimeout tile id s) := by
  unfold execFetchTimeout
  try dsimp only
  repeat' (first | with_reducible (first | assumption | apply ite_some_imp | intro _ | apply State.endFetch_keeps | apply State.fetchFailed_keeps | apply onTile_keeps | apply keeps_id | apply keeps_ite) | simp only [keeps_mk_iff] | with_reducible apply outKeeps_next | with_reducible apply outKeeps_ite | (refine keeps_snd (by with_reducible assumption) ?_) | (refine keeps_fst (by with_reducible assumption) ?_) | split)

theorem State.twlLow_keeps {z : State} (s : State) (t : Nat) (h_s : Machine.Keeps z s) : Machine.Keeps z (State.twlLow s t) := by
  unfold State.twlLow
  try dsimp only
  repeat' (first | with_reducible (first | assumption | intro _ | apply State.ev_keeps | apply State.setFs_keeps))

theorem State.downRole_keeps {z : State} (s : State) (h_s : Machine.Keeps z s) : Machine.Keeps z (State.downRole s) := by
  unfold State.downRole
  try dsimp only
  repeat' (first | with_reducible (first | assumption | apply ite_some_imp | intro _ | apply State.goSyncing_keeps | apply State.standAlone_keeps | apply State.stopResync_keeps | apply State.updTwin_keeps | apply keeps_ite) | simp only [keeps_mk_iff] | (refine keeps_snd (by with_reducible assumption) ?_) | (refine keeps_fst (by with_reducible assumption) ?_) | split)

theorem State.twlDown_keeps {z : State} (s : State) (t : Nat) (h_s : Machine.Keeps z s) : Machine.Keeps z (State.twlDown s t) := by
  unfold State.twlDown
  try dsimp only
  repeat' (first | with_reducible (first | assumption | intro _ | apply State.downRole_keeps | apply State.twlLow_keeps))

theorem execMirrorRetransmit_keeps {z : State} (tile : Nat) (s : State) (h_s : Machine.Keeps z s) : OutKeeps z (execMirrorRetransmit tile s) := by
  unfold execMirrorRetransmit
  try dsimp only
  repeat' (first | with_reducible (first | assumption | intro _ | apply State.bump_keeps | apply onTile_keeps | apply State.twinSend_keeps | apply State.twlDown_keeps | apply State.updTwl_keeps | apply keeps_ite) | simp only [keeps_mk_iff] | with_reducible apply outKeeps_next | with_reducible apply outKeeps_ite | (refine keeps_snd (by with_reducible assumption) ?_) | (refine keeps_fst (by with_reducible assumption) ?_) | split)

theorem State.ackStream_keeps {z : State} (s : State) (t n : Nat) (h_s : Machine.Keeps z s) : Machine.Keeps z (State.ackStream s t n) := by
  unfold State.ackStream
  try dsimp only
  repeat' (first | with_reducible (first | assumption | intro _ | apply State.coverReports_keeps | apply State.respond_keeps | apply State.settleAll_keeps | apply State.swapDone_keeps | apply State.swapProceed_keeps | apply State.updNet_keeps | apply State.updTwl_keeps | apply keeps_foldl | apply keeps_foldl_snd | apply keeps_foldl_fst | apply keeps_ite) | simp only [keeps_mk_iff] | split)

theorem execMirrorAck_keeps {z : State} (tile : Nat) (frame : List Byte) (s : State) (h_s : Machine.Keeps z s) : OutKeeps z (execMirrorAck tile frame s) := by
  unfold execMirrorAck
  try dsimp only
  repeat' (first | with_reducible (first | assumption | intro _ | apply State.ackStream_keeps | apply onTile_keeps | apply State.twinIn_keeps | apply State.updNet_keeps | apply keeps_ite) | simp only [keeps_mk_iff] | with_reducible apply outKeeps_next | with_reducible apply outKeeps_ite | split)

theorem execTwinLinkDown_keeps {z : State} (tile : Nat) (s : State) (h_s : Machine.Keeps z s) : OutKeeps z (execTwinLinkDown tile s) := by
  unfold execTwinLinkDown
  try dsimp only
  repeat' (first | with_reducible (first | assumption | intro _ | apply onTile_keeps | apply State.twlDown_keeps | apply keeps_ite | apply outKeeps_next | apply outKeeps_ite) | split)

theorem State.kmOut_keeps {z : State} (s : State) (t : Nat) (h_s : Machine.Keeps z s) : Machine.Keeps z (State.kmOut s t) := by
  unfold State.kmOut
  try dsimp only
  repeat' (first | with_reducible (first | assumption | intro _ | apply State.twlDown_keeps | apply keeps_ite) | split)

theorem execTwinLinkUp_keeps {z : State} (tile : Nat) (s : State) (h_s : Machine.Keeps z s) : OutKeeps z (execTwinLinkUp tile s) := by
  unfold execTwinLinkUp
  try dsimp only
  repeat' (first | with_reducible (first | assumption | apply ite_some_imp | intro _ | apply State.advanceKn_keeps | apply State.kmOut_keeps | apply onTile_keeps | apply State.refusePair_keeps | apply State.setF_keeps | apply State.setFs_keeps | apply State.updTwl_keeps | apply keeps_ite) | simp only [keeps_mk_iff] | with_reducible apply outKeeps_next | with_reducible apply outKeeps_ite | split)

theorem execPnNear_keeps {z : State} (tile : Nat) (s : State) (h_s : Machine.Keeps z s) : OutKeeps z (execPnNear tile s) := by
  unfold execPnNear
  try dsimp only
  repeat' (first | with_reducible (first | assumption | intro _ | apply State.advanceKn_keeps | apply State.ev_keeps | apply State.kmOut_keeps | apply onTile_keeps | apply keeps_ite | apply outKeeps_next | apply outKeeps_ite) | split)

theorem execRxNewKn_keeps {z : State} (tile mac kn : Nat) (s : State) (h_s : Machine.Keeps z s) : OutKeeps z (execRxNewKn tile mac kn s) := by
  unfold execRxNewKn
  try dsimp only
  repeat' (first | with_reducible (first | assumption | intro _ | apply State.bump_keeps | apply State.ev_keeps | apply State.loadLinkKey_keeps | apply onTile_keeps | apply State.setF_keeps | apply State.updTwl_keeps | apply keeps_ite) | simp only [keeps_mk_iff] | with_reducible apply outKeeps_next | with_reducible apply outKeeps_ite | split)

theorem execMacsecVerifyFail_keeps {z : State} (tile : Nat) (replay : Bool) (s : State) (h_s : Machine.Keeps z s) : OutKeeps z (execMacsecVerifyFail tile replay s) := by
  unfold execMacsecVerifyFail
  try dsimp only
  repeat' (first | with_reducible (first | assumption | intro _ | apply State.bump_keeps | apply State.ev_keeps | apply onTile_keeps | apply keeps_ite | apply outKeeps_next | apply outKeeps_ite) | split)

theorem execPairKeyTimeout_keeps {z : State} (tile : Nat) (s : State) (h_s : Machine.Keeps z s) : OutKeeps z (execPairKeyTimeout tile s) := by
  unfold execPairKeyTimeout
  try dsimp only
  repeat' (first | with_reducible (first | assumption | intro _ | apply onTile_keeps | apply State.refusePair_keeps | apply keeps_ite | apply outKeeps_next | apply outKeeps_ite) | split)

end Sys2Proof.Machine
end

