-- ==== Sys2Proof/Laws/KeepTwinItems.lean ====
section
/-! SUPPORT. What no command changes is kept by every function of `Machine/TwinItems.lean`. -/

set_option linter.all false

namespace Sys2Proof.Machine

theorem State.ackApplied_keeps {z : State} (s : State) (t : Nat) (h_s : Machine.Keeps z s) : Machine.Keeps z (State.ackApplied s t) := by
  unfold State.ackApplied
  try dsimp only
  repeat' (first | with_reducible (first | assumption | intro _ | apply State.answerFetches_keeps | apply State.twinSend_keeps | apply State.updTwl_keeps | apply keeps_ite) | simp only [keeps_mk_iff] | split)

theorem State.mirrorIn_keeps {z : State} (s : State) (t : Nat) (f : TwinFrame) (h_s : Machine.Keeps z s) : Machine.Keeps z (State.mirrorIn s t f) := by
  unfold State.mirrorIn
  try dsimp only
  repeat' (first | with_reducible (first | assumption | apply ite_some_imp | intro _ | apply State.ackApplied_keeps | apply State.ev_keeps | apply State.twinSend_keeps | apply State.twlDown_keeps | apply State.updTwl_keeps | apply keeps_ite) | simp only [keeps_mk_iff] | (refine keeps_snd (by with_reducible assumption) ?_) | (refine keeps_fst (by with_reducible assumption) ?_) | split)

theorem execMirror_keeps {z : State} (tile : Nat) (frame : List Byte) (s : State) (h_s : Machine.Keeps z s) : OutKeeps z (execMirror tile frame s) := by
  unfold execMirror
  try dsimp only
  repeat' (first | with_reducible (first | assumption | intro _ | apply State.mirrorIn_keeps | apply onTile_keeps | apply State.twinIn_keeps | apply outKeeps_next))

theorem State.popItem_keeps {z : State} (s : State) (t : Nat) (h_s : Machine.Keeps z s) : Machine.Keeps z (State.popItem s t) := by
  unfold State.popItem
  try dsimp only
  repeat' (first | with_reducible (first | assumption | intro _ | apply State.ackApplied_keeps | apply State.drop_keeps | apply State.updTwl_keeps) | simp only [keeps_mk_iff])

theorem State.onItem_keeps {z : State} (s : State) (t kind : Nat) (k : RxItem → State → Option State) (h_s : Machine.Keeps z s) (h_k : ∀ a0 a1, ∀ u, k a0 a1 = some u → Machine.Keeps z a1 → Machine.Keeps z u) : Machine.Keeps z (State.onItem s t kind k) := by
  unfold State.onItem
  try dsimp only
  repeat' (first | with_reducible (first | assumption | apply ite_some_imp | intro _) | (refine h_k _ _ _ (by with_reducible assumption) ?_) | with_reducible apply State.popItem_keeps | with_reducible apply keeps_ite | simp only [keeps_mk_iff] | (refine keeps_snd (by with_reducible assumption) ?_) | (refine keeps_fst (by with_reducible assumption) ?_) | split)

theorem State.following_keeps {z u : State} {s : State} {f : State → State} (e : State.following s f = some u) (h_s : Machine.Keeps z s) (h_f : ∀ a0, Machine.Keeps z a0 → Machine.Keeps z (f a0)) : Machine.Keeps z u := by
  unfold State.following at e
  revert e
  try dsimp only
  repeat' (first | (refine fun (e : _ = _) => ?_; cases e; done) | (refine fun (e : _ = _) => ?_; cases e) | split | (refine fun (e : _ = _) => ?_; simp only [Option.map_eq_some_iff] at e; obtain ⟨_, _, e⟩ := e; cases e) | with_reducible (first | assumption | intro _ | apply h_f | apply keeps_ite) | split)

theorem State.askC3_keeps {z : State} (s : State) (t seq : Nat) (ps : List Nat) (h_s : Machine.Keeps z s) : Machine.Keeps z (State.askC3 s t seq ps) := by
  unfold State.askC3
  try dsimp only
  repeat' (first | with_reducible (first | assumption | intro _ | apply State.ackCommitted_keeps | apply State.headPages_keeps | apply State.updTwl_keeps) | simp only [keeps_mk_iff])

theorem State.mirrorWrite_keeps {z : State} (s : State) (t : Nat) (x : RxItem) (a : Nat) (data : List Byte) (force : Bool) (h_s : Machine.Keeps z s) : Machine.Keeps z (State.mirrorWrite s t x a data force).1 := by
  unfold State.mirrorWrite
  try dsimp only
  repeat' (first | with_reducible (first | assumption | apply ite_some_imp | intro _ | apply State.addPortion_keeps | apply State.applyPortion_keeps | apply State.askAdmit_keeps | apply State.askC3_keeps | apply State.bump_keeps | apply State.dropPortion_keeps | apply State.probePortion_keeps | apply keeps_id | apply keeps_ite) | simp only [keeps_mk_iff] | (refine keeps_snd (by with_reducible assumption) ?_) | (refine keeps_fst (by with_reducible assumption) ?_) | split)

theorem State.mirrorStep_keeps {z : State} (s : State) (t kind : Nat) (addr : List Byte → Nat) (data : List Byte → List Byte) (force : List Byte → Bool) (h_s : Machine.Keeps z s) : Machine.Keeps z (State.mirrorStep s t kind addr data force) := by
  unfold State.mirrorStep
  try dsimp only
  repeat' (first | with_reducible (first | assumption | intro _ | apply State.mirrorWrite_keeps | apply State.popItem_keeps | apply keeps_ite) | simp only [keeps_mk_iff] | (refine keeps_snd (by with_reducible assumption) ?_) | (refine keeps_fst (by with_reducible assumption) ?_) | split)

theorem execPortionRecord_keeps {z : State} (tile : Nat) (s : State) (h_s : Machine.Keeps z s) : OutKeeps z (execPortionRecord tile s) := by
  unfold execPortionRecord
  try dsimp only
  repeat' (first | with_reducible (first | assumption | intro _ | apply State.mirrorStep_keeps | apply onTile_keeps | apply outKeeps_next))

theorem execAtomicRecord_keeps {z : State} (tile : Nat) (s : State) (h_s : Machine.Keeps z s) : OutKeeps z (execAtomicRecord tile s) := by
  unfold execAtomicRecord
  try dsimp only
  repeat' (first | with_reducible (first | assumption | intro _ | apply State.mirrorStep_keeps | apply onTile_keeps | apply outKeeps_next))

theorem State.takeSnapshot_keeps {z u : State} {s : State} {b : List Byte} (e : State.takeSnapshot s b = some u) (h_s : Machine.Keeps z s) : Machine.Keeps z u := by
  unfold State.takeSnapshot at e
  revert e
  try dsimp only
  repeat' (first | (refine fun (e : _ = _) => ?_; cases e; done) | (refine fun (e : _ = _) => ?_; cases e) | split | (refine fun (e : _ = _) => ?_; simp only [Option.map_eq_some_iff] at e; obtain ⟨_, _, e⟩ := e; cases e) | with_reducible (first | assumption | apply ite_some_imp | intro _ | apply State.applyBytes_keeps | apply State.forgetPage_keeps | apply State.grantTokens_keeps | apply State.setDivBit_keeps | apply State.setPoison_keeps | apply State.settleTokens_keeps | apply keeps_foldl | apply keeps_foldl_snd | apply keeps_foldl_fst | apply keeps_ite) | simp only [keeps_mk_iff] | (refine keeps_snd (by with_reducible assumption) ?_) | (refine keeps_fst (by with_reducible assumption) ?_) | split)

theorem execSnapshotRecord_keeps {z : State} (tile : Nat) (s : State) (h_s : Machine.Keeps z s) : OutKeeps z (execSnapshotRecord tile s) := by
  unfold execSnapshotRecord
  try dsimp only
  repeat' (first | with_reducible (first | assumption | intro _ | apply State.onItem_keeps | apply onTile_keeps) | (refine State.takeSnapshot_keeps (by with_reducible assumption) ?_ ) | with_reducible apply outKeeps_next)

theorem State.takeCtx_keeps {z : State} (s : State) (b : List Byte) (h_s : Machine.Keeps z s) : Machine.Keeps z (State.takeCtx s b) := by
  unfold State.takeCtx
  try dsimp only
  repeat' (first | with_reducible (first | assumption | intro _ | apply State.dropShadow_keeps | apply State.updNet_keeps | apply State.updTwin_keeps | apply keeps_getD | apply keeps_ite) | simp only [keeps_mk_iff] | split)

theorem execQpCtxRecord_keeps {z : State} (tile : Nat) (s : State) (h_s : Machine.Keeps z s) : OutKeeps z (execQpCtxRecord tile s) := by
  unfold execQpCtxRecord
  try dsimp only
  repeat' (first | with_reducible (first | assumption | intro _) | (refine State.following_keeps (by with_reducible assumption) ?_ ?_ ) | with_reducible apply State.onItem_keeps | with_reducible apply onTile_keeps | with_reducible apply State.takeCtx_keeps | with_reducible apply outKeeps_next)

theorem execCapsuleRecord_keeps {z : State} (tile : Nat) (s : State) (h_s : Machine.Keeps z s) : OutKeeps z (execCapsuleRecord tile s) := by
  unfold execCapsuleRecord
  try dsimp only
  repeat' (first | with_reducible (first | assumption | intro _) | (refine State.following_keeps (by with_reducible assumption) ?_ ?_ ) | with_reducible apply State.onItem_keeps | with_reducible apply onTile_keeps | with_reducible apply State.updQp_keeps | simp only [keeps_mk_iff] | with_reducible apply outKeeps_next)

theorem State.takeCompletion_keeps {z : State} (s : State) (b : List Byte) (h_s : Machine.Keeps z s) : Machine.Keeps z (State.takeCompletion s b) := by
  unfold State.takeCompletion
  try dsimp only
  repeat' (first | with_reducible (first | assumption | apply ite_some_imp | intro _ | apply State.updChain_keeps | apply State.updNet_keeps | apply State.updQp_keeps | apply keeps_ite) | simp only [keeps_mk_iff] | (refine keeps_snd (by with_reducible assumption) ?_) | (refine keeps_fst (by with_reducible assumption) ?_) | split)

theorem execCompletionRecord_keeps {z : State} (tile : Nat) (s : State) (h_s : Machine.Keeps z s) : OutKeeps z (execCompletionRecord tile s) := by
  unfold execCompletionRecord
  try dsimp only
  repeat' (first | with_reducible (first | assumption | intro _) | (refine State.following_keeps (by with_reducible assumption) ?_ ?_ ) | with_reducible apply State.onItem_keeps | with_reducible apply onTile_keeps | with_reducible apply State.takeCompletion_keeps | with_reducible apply outKeeps_next)

theorem State.noteStart_keeps {z : State} (s : State) (t seq : Nat) (e : Exec) (h_s : Machine.Keeps z s) : Machine.Keeps z (State.noteStart s t seq e) := by
  unfold State.noteStart
  try dsimp only
  repeat' (first | with_reducible (first | assumption | intro _ | apply State.askC3_keeps | apply State.updNet_keeps | apply keeps_ite) | simp only [keeps_mk_iff] | split)

theorem State.takeStart_keeps {z : State} (s : State) (t seq : Nat) (b : List Byte) (h_s : Machine.Keeps z s) : Machine.Keeps z (State.takeStart s t seq b) := by
  unfold State.takeStart
  try dsimp only
  repeat' (first | with_reducible (first | assumption | apply ite_some_imp | intro _ | apply State.noteStart_keeps | apply State.updChain_keeps | apply State.updNet_keeps | apply State.updQp_keeps | apply keeps_ite) | simp only [keeps_mk_iff] | (refine keeps_snd (by with_reducible assumption) ?_) | (refine keeps_fst (by with_reducible assumption) ?_) | split)

theorem execStartRecord_keeps {z : State} (tile : Nat) (s : State) (h_s : Machine.Keeps z s) : OutKeeps z (execStartRecord tile s) := by
  unfold execStartRecord
  try dsimp only
  repeat' (first | with_reducible (first | assumption | apply ite_some_imp | intro _) | (refine State.following_keeps (by with_reducible assumption) ?_ ?_ ) | with_reducible apply State.onItem_keeps | with_reducible apply onTile_keeps | with_reducible apply State.takeStart_keeps | with_reducible apply keeps_ite | with_reducible apply outKeeps_next | with_reducible apply outKeeps_ite | split)

theorem State.takeChain_keeps {z : State} (s : State) (b : List Byte) (h_s : Machine.Keeps z s) : Machine.Keeps z (State.takeChain s b) := by
  unfold State.takeChain
  try dsimp only
  repeat' (first | with_reducible (first | assumption | apply ite_some_imp | intro _ | apply State.updChain_keeps | apply State.updNet_keeps | apply keeps_ite) | simp only [keeps_mk_iff] | (refine keeps_snd (by with_reducible assumption) ?_) | (refine keeps_fst (by with_reducible assumption) ?_) | split)

theorem execChainRecord_keeps {z : State} (tile : Nat) (s : State) (h_s : Machine.Keeps z s) : OutKeeps z (execChainRecord tile s) := by
  unfold execChainRecord
  try dsimp only
  repeat' (first | with_reducible (first | assumption | apply ite_some_imp | intro _) | (refine State.following_keeps (by with_reducible assumption) ?_ ?_ ) | with_reducible apply State.onItem_keeps | with_reducible apply onTile_keeps | with_reducible apply State.takeChain_keeps | with_reducible apply keeps_ite | with_reducible apply outKeeps_next | with_reducible apply outKeeps_ite | split)

end Sys2Proof.Machine
end

