-- ==== Sys2Proof/Laws/KeepRestore.lean ====
section
/-! SUPPORT. What no command changes is kept by every function of `Machine/Restore.lean`. -/

set_option linter.all false

namespace Sys2Proof.Machine

theorem State.loadHomes_keeps {z : State} (s : State) (h_s : Machine.Keeps z s) : Machine.Keeps z (State.loadHomes s) := by
  unfold State.loadHomes
  try dsimp only
  repeat' (first | with_reducible (first | assumption | intro _ | apply State.updAms_keeps) | simp only [keeps_mk_iff])

theorem State.loadMeta_keeps {z : State} (s : State) (m : DumpMeta) (h_s : Machine.Keeps z s) : Machine.Keeps z (State.loadMeta s m) := by
  unfold State.loadMeta
  try dsimp only
  repeat' (first | with_reducible (first | assumption | apply ite_some_imp | intro _ | apply State.countRegions_keeps | apply State.loadHomes_keeps | apply State.updAms_keeps | apply State.updNet_keeps) | simp only [keeps_mk_iff])

theorem State.bringMeta_keeps {z : State} (s : State) (h_s : Machine.Keeps z s) : Machine.Keeps z (State.bringMeta s) := by
  unfold State.bringMeta
  try dsimp only
  repeat' (first | with_reducible (first | assumption | apply ite_some_imp | intro _ | apply State.loadMeta_keeps | apply keeps_ite) | simp only [keeps_mk_iff] | (refine keeps_snd (by with_reducible assumption) ?_) | (refine keeps_fst (by with_reducible assumption) ?_) | split)

theorem State.putHome_keeps {z : State} (s : State) (h : Home) (p : Nat) (bs : List Byte) (h_s : Machine.Keeps z s) : Machine.Keeps z (State.putHome s h p bs) := by
  unfold State.putHome
  try dsimp only
  repeat' (first | with_reducible (first | assumption | intro _ | apply State.putPage_keeps | apply State.updFirn_keeps | apply keeps_foldl | apply keeps_foldl_snd | apply keeps_foldl_fst | apply keeps_ite) | simp only [keeps_mk_iff] | split)

theorem State.readWord_keeps {z : State} (s : State) (c : Codeword) (h_s : Machine.Keeps z s) : Machine.Keeps z (State.readWord s c) := by
  unfold State.readWord
  try dsimp only
  repeat' (first | with_reducible (first | assumption | intro _ | apply State.bump_keeps))

theorem State.lostPage_keeps {z : State} (s : State) (t p : Nat) (h_s : Machine.Keeps z s) : Machine.Keeps z (State.lostPage s t p) := by
  unfold State.lostPage
  try dsimp only
  repeat' (first | with_reducible (first | assumption | intro _ | apply State.poisonPage_keeps | apply State.setDivBit_keeps))

theorem State.takeCopy_keeps {z : State} (s : State) (t : Nat) (h : Home) (lost : Bool) (p : Nat) (c : Copy) (h_s : Machine.Keeps z s) : Machine.Keeps z (State.takeCopy s t h lost p c) := by
  unfold State.takeCopy
  try dsimp only
  repeat' (first | with_reducible (first | assumption | apply ite_some_imp | intro _ | apply State.lostPage_keeps | apply State.putHome_keeps | apply State.readWord_keeps | apply State.setBorn_keeps | apply State.setGen_keeps | apply State.setMask_keeps | apply State.takeToken_keeps | apply State.updFirn_keeps | apply State.updToken_keeps | apply keeps_ite) | simp only [keeps_mk_iff] | (refine keeps_snd (by with_reducible assumption) ?_) | (refine keeps_fst (by with_reducible assumption) ?_) | split)

theorem State.noCopy_keeps {z : State} (s : State) (t : Nat) (h : Home) (p : Nat) (h_s : Machine.Keeps z s) : Machine.Keeps z (State.noCopy s t h p) := by
  unfold State.noCopy
  try dsimp only
  repeat' (first | with_reducible (first | assumption | apply ite_some_imp | intro _ | apply State.lostPage_keeps | apply State.poisonAll_keeps | apply State.setBorn_keeps | apply State.updFirn_keeps | apply keeps_ite) | simp only [keeps_mk_iff] | (refine keeps_snd (by with_reducible assumption) ?_) | (refine keeps_fst (by with_reducible assumption) ?_) | split)

theorem State.restorePage_keeps {z : State} (s : State) (t : Nat) (lost : List Nat) (p : Nat) (h_s : Machine.Keeps z s) : Machine.Keeps z (State.restorePage s t lost p) := by
  unfold State.restorePage
  try dsimp only
  repeat' (first | with_reducible (first | assumption | apply ite_some_imp | intro _ | apply State.lostPage_keeps | apply State.noCopy_keeps | apply State.setBorn_keeps | apply State.takeCopy_keeps | apply State.unmapDeep_keeps | apply keeps_ite) | simp only [keeps_mk_iff] | (refine keeps_snd (by with_reducible assumption) ?_) | (refine keeps_fst (by with_reducible assumption) ?_) | split)

theorem State.report_keeps {z : State} (s : State) (h_s : Machine.Keeps z s) : Machine.Keeps z (State.report s) := by
  unfold State.report
  try dsimp only
  repeat' (first | with_reducible (first | assumption | intro _ | apply State.allTiles_keeps | apply State.named_keeps | apply State.recOpen_keeps | apply State.setFs_keeps | apply keeps_getD | apply keeps_ite) | simp only [keeps_mk_iff] | split)

theorem State.ageArea_keeps {z : State} (s : State) (t : Nat) (h_s : Machine.Keeps z s) : Machine.Keeps z (State.ageArea s t) := by
  unfold State.ageArea
  try dsimp only
  repeat' (first | with_reducible (first | assumption | intro _ | apply State.updDeep_keeps | apply keeps_id | apply keeps_ite) | simp only [keeps_mk_iff] | split)

theorem State.tellAbandoned_keeps {z : State} (s : State) (h_s : Machine.Keeps z s) : Machine.Keeps z (State.tellAbandoned s) := by
  unfold State.tellAbandoned
  try dsimp only
  repeat' (first | with_reducible (first | assumption | apply ite_some_imp | intro _ | apply State.recAbandoned_keeps | apply State.updFirn_keeps | apply keeps_foldl | apply keeps_foldl_snd | apply keeps_foldl_fst) | simp only [keeps_mk_iff] | (refine keeps_snd (by with_reducible assumption) ?_) | (refine keeps_fst (by with_reducible assumption) ?_) | split)

theorem State.endRestore_keeps {z : State} (s : State) (h_s : Machine.Keeps z s) : Machine.Keeps z (State.endRestore s) := by
  unfold State.endRestore
  try dsimp only
  repeat' (first | with_reducible (first | assumption | intro _ | apply State.allTiles_keeps | apply State.divergeAll_keeps | apply State.report_keeps | apply State.setF_keeps | apply State.tellAbandoned_keeps))

theorem State.restoreTile_keeps {z : State} (s : State) (t : Nat) (lost : List Nat) (h_s : Machine.Keeps z s) : Machine.Keeps z (State.restoreTile s t lost) := by
  unfold State.restoreTile
  try dsimp only
  repeat' (first | with_reducible (first | assumption | intro _ | apply State.ageArea_keeps | apply State.armArea_keeps | apply State.bringMeta_keeps | apply State.endRestore_keeps | apply State.restorePage_keeps | apply State.startCache_keeps | apply keeps_foldl | apply keeps_foldl_snd | apply keeps_foldl_fst | apply keeps_ite) | simp only [keeps_mk_iff] | split)

theorem execRestore_keeps {z : State} (tile : Nat) (rootOk metaOk : Bool) (lost : List Nat) (s : State) (h_s : Machine.Keeps z s) : OutKeeps z (execRestore tile rootOk metaOk lost s) := by
  unfold execRestore
  try dsimp only
  repeat' (first | with_reducible (first | assumption | intro _ | apply State.enterFault_keeps | apply State.loseRoot_keeps | apply onTile_keeps | apply State.recOpen_keeps | apply State.restoreTile_keeps | apply keeps_ite | apply outKeeps_next | apply outKeeps_ite) | split)

theorem State.pageBack_keeps {z : State} (s : State) (t p : Nat) (h_s : Machine.Keeps z s) : Machine.Keeps z (State.pageBack s t p) := by
  unfold State.pageBack
  try dsimp only
  repeat' (first | with_reducible (first | assumption | intro _ | apply State.ackQp_keeps | apply State.askAdmit_keeps | apply State.setF_keeps | apply State.updFirn_keeps | apply keeps_foldl | apply keeps_foldl_snd | apply keeps_foldl_fst) | simp only [keeps_mk_iff])

theorem State.restoreImage_keeps {z : State} (s : State) (t p : Nat) (h : Home) (c : Copy) (x : FlashRead) (h_s : Machine.Keeps z s) : Machine.Keeps z (State.restoreImage s t p h c x) := by
  unfold State.restoreImage
  try dsimp only
  repeat' (first | with_reducible (first | assumption | intro _ | apply State.ladderEnd_keeps | apply State.noteRead_keeps | apply State.pageBack_keeps | apply State.putPage_keeps | apply State.setGen_keeps | apply State.setMask_keeps | apply keeps_getD | apply keeps_ite) | split)

theorem execBgRestorePage_keeps {z : State} (tile : Nat) (hard : Bool) (iters retry : Nat) (soft parity : Bool) (s : State) (h_s : Machine.Keeps z s) : OutKeeps z (execBgRestorePage tile hard iters retry soft parity s) := by
  unfold execBgRestorePage
  try dsimp only
  repeat' (first | with_reducible (first | assumption | apply ite_some_imp | intro _ | apply State.ev_keeps | apply State.lostPage_keeps | apply onTile_keeps | apply State.pageBack_keeps | apply State.restoreImage_keeps | apply keeps_ite) | simp only [keeps_mk_iff] | with_reducible apply outKeeps_next | with_reducible apply outKeeps_ite | (refine keeps_snd (by with_reducible assumption) ?_) | (refine keeps_fst (by with_reducible assumption) ?_) | split)

end Sys2Proof.Machine
end

