-- ==== Sys2Proof/Laws/KeepTwinCommands.lean ====
section
/-! SUPPORT. What no command changes is kept by every function of `Machine/TwinCommands.lean`. -/

set_option linter.all false

namespace Sys2Proof.Machine

theorem State.partnerRevoke_keeps {z : State} (s : State) (n cause keep : Nat) (h_s : Machine.Keeps z s) : Machine.Keeps z (State.partnerRevoke s n cause keep) := by
  unfold State.partnerRevoke
  try dsimp only
  repeat' (first | with_reducible (first | assumption | apply ite_some_imp | intro _ | apply State.updAms_keeps) | simp only [keeps_mk_iff] | (refine keeps_snd (by with_reducible assumption) ?_) | (refine keeps_fst (by with_reducible assumption) ?_) | split)

theorem State.partnerFlags_keeps {z : State} (s : State) (pl : List Byte) (h_s : Machine.Keeps z s) : Machine.Keeps z (State.partnerFlags s pl) := by
  unfold State.partnerFlags
  try dsimp only
  repeat' (first | with_reducible (first | assumption | apply ite_some_imp | intro _ | apply State.partnerRevoke_keeps | apply State.updAms_keeps | apply keeps_ite) | simp only [keeps_mk_iff] | (refine keeps_snd (by with_reducible assumption) ?_) | (refine keeps_fst (by with_reducible assumption) ?_) | split)

theorem State.dropDescs_keeps {z : State} (s : State) (c : Nat) (h_s : Machine.Keeps z s) : Machine.Keeps z (State.dropDescs s c) := by
  unfold State.dropDescs
  try dsimp only
  repeat' (first | with_reducible (first | assumption | intro _ | apply State.updNet_keeps) | simp only [keeps_mk_iff] | (refine keeps_snd (by with_reducible assumption) ?_) | (refine keeps_fst (by with_reducible assumption) ?_) | split)

theorem State.partnerDelete_keeps {z : State} (s : State) (c : Nat) (h_s : Machine.Keeps z s) : Machine.Keeps z (State.partnerDelete s c) := by
  unfold State.partnerDelete
  try dsimp only
  repeat' (first | with_reducible (first | assumption | intro _ | apply State.dropDescs_keeps | apply State.updNet_keeps) | simp only [keeps_mk_iff])

theorem State.setDetect_keeps {z : State} (s : State) (pl : List Byte) (h_s : Machine.Keeps z s) : Machine.Keeps z (State.setDetect s pl) := by
  unfold State.setDetect
  try dsimp only
  repeat' (first | with_reducible (first | assumption | intro _ | apply State.config_keeps))

theorem State.runAs_keeps {z : State} (s : State) (x : Cmd) (c : Caller) (pl : List Byte) (h_s : Machine.Keeps z s) (h_x : x.Keeps) : Machine.Keeps z (State.runAs s x c pl) := by
  unfold State.runAs
  try dsimp only
  repeat' (first | with_reducible (first | assumption | intro _ | apply (Cmd.out_keeps h_x) | apply keeps_ite | apply Cmd.out_keeps | apply CmdOut.s_keeps | apply CmdOut.after_keeps) | split)

theorem partnerCmds_keeps : ∀ c ∈ partnerCmds, c.Keeps := by
  intro c h
  simp only [partnerCmds, List.mem_cons, List.not_mem_nil, or_false] at h
  rcases h with h | h | h | h | h | h | h | h | h | h | h | h | h | h | h <;> subst h
  · exact cmdChainCreate_keeps
  · exact cmdPlanLoadBegin_keeps
  · exact cmdPlanLoadData_keeps
  · exact cmdPlanLoadEnd_keeps
  · exact cmdPlanActivate_keeps
  · exact cmdPlanDeactivate_keeps
  · exact cmdPlanUnload_keeps
  · exact cmdMoveExtents_keeps
  · exact cmdMoveCancel_keeps
  · exact cmdFeedStreamSet_keeps
  · exact cmdFeedStreamClear_keeps
  · exact cmdFeedStart_keeps
  · exact cmdFeedStop_keeps
  · exact cmdFeedMapLoad_keeps
  · exact cmdFeedMapSwitch_keeps

theorem State.partnerRun_keeps {z : State} (s : State) (f : Frame) (role session : Nat) (h_s : Machine.Keeps z s) :
    Machine.Keeps z (State.partnerRun s f role session) := by
  unfold State.partnerRun
  extract_lets c s1
  have h1 : Machine.Keeps z s1 := State.audit_keeps _ _ _ _ _ h_s
  clear_value s1
  refine keeps_ite (keeps_ite (State.setDetect_keeps _ _ h1) h1) (keeps_ite h1 (keeps_ite (State.partnerRevoke_keeps _ _ _ _ h1)
    (keeps_ite (State.partnerRevoke_keeps _ _ _ _ h1) (keeps_ite (State.partnerFlags_keeps _ _ h1) (keeps_ite
      (State.partnerDelete_keeps _ _ h1) ?_)))))
  split
  · rename_i x hx
    exact State.runAs_keeps _ _ _ _ h1 (partnerCmds_keeps x (List.mem_of_find?_eq_some hx))
  · exact h1

theorem takeCommandItem_keeps {z u : State} {x : RxItem} {a : State} (e : takeCommandItem x a = some u) (h_a : Machine.Keeps z a) : Machine.Keeps z u := by
  unfold takeCommandItem at e
  revert e
  try dsimp only
  repeat' (first | (refine fun (e : _ = _) => ?_; cases e; done) | (refine fun (e : _ = _) => ?_; cases e) | split | (refine fun (e : _ = _) => ?_; simp only [Option.map_eq_some_iff] at e; obtain ⟨_, _, e⟩ := e; cases e) | with_reducible (first | assumption | intro _ | apply State.drop_keeps | apply State.frameIn_keeps | apply State.partnerRun_keeps | apply keeps_ite) | split)

theorem execCommandRecord_keeps {z : State} (s : State) (h_s : Machine.Keeps z s) : OutKeeps z (execCommandRecord s) := by
  unfold execCommandRecord
  try dsimp only
  repeat' (first | with_reducible (first | assumption | intro _ | apply State.onItem_keeps) | (refine takeCommandItem_keeps (by with_reducible assumption) ?_ ) | with_reducible apply outKeeps_next)

theorem State.dropMovesIn_keeps {z : State} (s : State) (r : Region) (h_s : Machine.Keeps z s) : Machine.Keeps z (State.dropMovesIn s r) := by
  unfold State.dropMovesIn
  try dsimp only
  repeat' (first | with_reducible (first | assumption | intro _ | apply State.dropMove_keeps | apply keeps_foldl | apply keeps_foldl_snd | apply keeps_foldl_fst))

theorem State.removeRegion_keeps {z : State} (s : State) (r : Region) (h_s : Machine.Keeps z s) : Machine.Keeps z (State.removeRegion s r) := by
  unfold State.removeRegion
  try dsimp only
  repeat' (first | with_reducible (first | assumption | intro _ | apply State.countRegions_keeps | apply State.dropMovesIn_keeps | apply State.freeRegion_keeps | apply State.updAms_keeps) | simp only [keeps_mk_iff])

theorem State.takePhase1_keeps {z : State} (s : State) (r : Region) (gen : Nat) (h_s : Machine.Keeps z s) : Machine.Keeps z (State.takePhase1 s r gen) := by
  unfold State.takePhase1
  try dsimp only
  repeat' (first | with_reducible (first | assumption | intro _ | apply State.allTiles_keeps | apply State.disarmRegion_keeps | apply State.haltStream_keeps | apply State.setFs_keeps | apply State.updAms_keeps | apply keeps_foldl | apply keeps_foldl_snd | apply keeps_foldl_fst | apply keeps_getD | apply keeps_ite) | simp only [keeps_mk_iff] | split)

theorem State.takePhase2_keeps {z : State} (s : State) (r : Region) (h_s : Machine.Keeps z s) : Machine.Keeps z (State.takePhase2 s r) := by
  unfold State.takePhase2
  try dsimp only
  repeat' (first | with_reducible (first | assumption | intro _ | apply State.allTiles_keeps | apply State.ev_keeps | apply State.removeRegion_keeps | apply State.setAll_keeps | apply State.updAms_keeps | apply keeps_ite) | simp only [keeps_mk_iff] | split)

theorem execRevokeRecord_keeps {z : State} (s : State) (h_s : Machine.Keeps z s) : OutKeeps z (execRevokeRecord s) := by
  unfold execRevokeRecord
  try dsimp only
  repeat' (first | with_reducible (first | assumption | apply ite_some_imp | intro _) | (refine State.following_keeps (by with_reducible assumption) ?_ ?_ ) | with_reducible apply State.onItem_keeps | with_reducible apply State.takePhase1_keeps | with_reducible apply State.takePhase2_keeps | with_reducible apply keeps_ite | simp only [keeps_mk_iff] | with_reducible apply outKeeps_next | with_reducible apply outKeeps_ite | (refine keeps_snd (by with_reducible assumption) ?_) | (refine keeps_fst (by with_reducible assumption) ?_) | split)

theorem State.takeOrder_keeps {z : State} (s : State) (p o st : Nat) (h_s : Machine.Keeps z s) : Machine.Keeps z (State.takeOrder s p o st) := by
  unfold State.takeOrder
  try dsimp only
  repeat' (first | with_reducible (first | assumption | apply ite_some_imp | intro _ | apply State.updOrder_keeps | apply keeps_ite) | simp only [keeps_mk_iff] | (refine keeps_snd (by with_reducible assumption) ?_) | (refine keeps_fst (by with_reducible assumption) ?_) | split)

theorem execOrderRecord_keeps {z : State} (s : State) (h_s : Machine.Keeps z s) : OutKeeps z (execOrderRecord s) := by
  unfold execOrderRecord
  try dsimp only
  repeat' (first | with_reducible (first | assumption | intro _) | (refine State.following_keeps (by with_reducible assumption) ?_ ?_ ) | with_reducible apply State.onItem_keeps | with_reducible apply State.takeOrder_keeps | with_reducible apply outKeeps_next)

theorem State.rehome_keeps {z u : State} {s : State} {e : Nat} {q : MoveReq} (e : State.rehome s e q = some u) (h_s : Machine.Keeps z s) : Machine.Keeps z u := by
  unfold State.rehome at e
  revert e
  try dsimp only
  repeat' (first | (refine fun (e : _ = _) => ?_; cases e; done) | (refine fun (e : _ = _) => ?_; cases e) | split | (refine fun (e : _ = _) => ?_; simp only [Option.map_eq_some_iff] at e; obtain ⟨_, _, e⟩ := e; cases e) | with_reducible (first | assumption | apply ite_some_imp | intro _ | apply State.beginCommit_keeps | apply State.commitMove_keeps | apply State.dropMove_keeps) | (refine State.reserve_keeps (by with_reducible assumption) ?_ ) | with_reducible apply State.setHome_keeps | with_reducible apply State.updAms_keeps | with_reducible apply keeps_ite | simp only [keeps_mk_iff] | (refine keeps_snd (by with_reducible assumption) ?_) | (refine keeps_fst (by with_reducible assumption) ?_) | split)

theorem State.takeCommit_keeps {z u : State} {s : State} {e : Nat} {q : MoveReq} (e : State.takeCommit s e q = some u) (h_s : Machine.Keeps z s) : Machine.Keeps z u := by
  unfold State.takeCommit at e
  revert e
  try dsimp only
  repeat' (first | (refine fun (e : _ = _) => ?_; cases e; done) | (refine fun (e : _ = _) => ?_; cases e) | split | (refine fun (e : _ = _) => ?_; simp only [Option.map_eq_some_iff] at e; obtain ⟨_, _, e⟩ := e; cases e) | with_reducible (first | assumption | apply ite_some_imp | intro _) | (refine State.rehome_keeps (by with_reducible assumption) ?_ ) | with_reducible apply State.tryCommit_keeps | with_reducible apply State.updMove_keeps | with_reducible apply keeps_ite | simp only [keeps_mk_iff] | (refine keeps_snd (by with_reducible assumption) ?_) | (refine keeps_fst (by with_reducible assumption) ?_) | split)

theorem takeMoveItem_keeps {z u : State} {tile : Nat} {x : RxItem} {a : State} (e : takeMoveItem tile x a = some u) (h_a : Machine.Keeps z a) : Machine.Keeps z u := by
  unfold takeMoveItem at e
  revert e
  try dsimp only
  repeat' (first | (refine fun (e : _ = _) => ?_; cases e; done) | (refine fun (e : _ = _) => ?_; cases e) | split | (refine fun (e : _ = _) => ?_; simp only [Option.map_eq_some_iff] at e; obtain ⟨_, _, e⟩ := e; cases e) | with_reducible (first | assumption | apply ite_some_imp | intro _ | apply State.dropMove_keeps | apply State.moveRequest_keeps) | (refine State.takeCommit_keeps (by with_reducible assumption) ?_ ) | with_reducible apply State.updAms_keeps | with_reducible apply keeps_ite | simp only [keeps_mk_iff] | (refine keeps_snd (by with_reducible assumption) ?_) | (refine keeps_fst (by with_reducible assumption) ?_) | split)

theorem execMoveRecord_keeps {z : State} (tile : Nat) (s : State) (h_s : Machine.Keeps z s) : OutKeeps z (execMoveRecord tile s) := by
  unfold execMoveRecord
  try dsimp only
  repeat' (first | with_reducible (first | assumption | intro _ | apply State.onItem_keeps | apply onTile_keeps) | (refine takeMoveItem_keeps (by with_reducible assumption) ?_ ) | with_reducible apply outKeeps_next)

theorem takeReadyItem_keeps {z u : State} {x : RxItem} {a : State} (e : takeReadyItem x a = some u) (h_a : Machine.Keeps z a) : Machine.Keeps z u := by
  unfold takeReadyItem at e
  revert e
  try dsimp only
  repeat' (first | (refine fun (e : _ = _) => ?_; cases e; done) | (refine fun (e : _ = _) => ?_; cases e) | split | (refine fun (e : _ = _) => ?_; simp only [Option.map_eq_some_iff] at e; obtain ⟨_, _, e⟩ := e; cases e) | with_reducible (first | assumption | intro _ | apply State.tryCommit_keeps | apply State.updMove_keeps | apply keeps_ite) | simp only [keeps_mk_iff] | split)

theorem execReadyRecord_keeps {z : State} (tile : Nat) (s : State) (h_s : Machine.Keeps z s) : OutKeeps z (execReadyRecord tile s) := by
  unfold execReadyRecord
  try dsimp only
  repeat' (first | with_reducible (first | assumption | intro _ | apply State.onItem_keeps | apply onTile_keeps) | (refine takeReadyItem_keeps (by with_reducible assumption) ?_ ) | with_reducible apply outKeeps_next)

theorem takeMarkItem_keeps {z u : State} {tile : Nat} {x : RxItem} {a : State} (e : takeMarkItem tile x a = some u) (h_a : Machine.Keeps z a) : Machine.Keeps z u := by
  unfold takeMarkItem at e
  revert e
  try dsimp only
  repeat' (first | (refine fun (e : _ = _) => ?_; cases e; done) | (refine fun (e : _ = _) => ?_; cases e) | split | (refine fun (e : _ = _) => ?_; simp only [Option.map_eq_some_iff] at e; obtain ⟨_, _, e⟩ := e; cases e) | with_reducible (first | assumption | intro _ | apply State.markArrives_keeps | apply keeps_ite) | split)

theorem execIndexMark_keeps {z : State} (tile : Nat) (s : State) (h_s : Machine.Keeps z s) : OutKeeps z (execIndexMark tile s) := by
  unfold execIndexMark
  try dsimp only
  repeat' (first | with_reducible (first | assumption | intro _ | apply State.onItem_keeps | apply onTile_keeps) | (refine takeMarkItem_keeps (by with_reducible assumption) ?_ ) | with_reducible apply outKeeps_next)

theorem execEpochRecord_keeps {z : State} (s : State) (h_s : Machine.Keeps z s) : OutKeeps z (execEpochRecord s) := by
  unfold execEpochRecord
  try dsimp only
  repeat' (first | with_reducible (first | assumption | intro _) | (refine State.following_keeps (by with_reducible assumption) ?_ ?_ ) | with_reducible apply State.onItem_keeps | with_reducible apply State.setEpoch_keeps | with_reducible apply outKeeps_next)

theorem takeSwapItem_keeps {z u : State} {x : RxItem} {a : State} (e : takeSwapItem x a = some u) (h_a : Machine.Keeps z a) : Machine.Keeps z u := by
  unfold takeSwapItem at e
  revert e
  try dsimp only
  repeat' (first | (refine fun (e : _ = _) => ?_; cases e; done) | (refine fun (e : _ = _) => ?_; cases e) | split | (refine fun (e : _ = _) => ?_; simp only [Option.map_eq_some_iff] at e; obtain ⟨_, _, e⟩ := e; cases e) | with_reducible (first | assumption | intro _ | apply State.swapLeave_keeps | apply State.updTwin_keeps | apply keeps_ite) | simp only [keeps_mk_iff] | split)

theorem execSwapRecord_keeps {z : State} (s : State) (h_s : Machine.Keeps z s) : OutKeeps z (execSwapRecord s) := by
  unfold execSwapRecord
  try dsimp only
  repeat' (first | with_reducible (first | assumption | intro _ | apply State.onItem_keeps) | (refine takeSwapItem_keeps (by with_reducible assumption) ?_ ) | with_reducible apply outKeeps_next)

theorem State.sawState_keeps {z : State} (s : State) (k n : Nat) (h_s : Machine.Keeps z s) : Machine.Keeps z (State.sawState s k n) := by
  unfold State.sawState
  try dsimp only
  repeat' (first | with_reducible (first | assumption | intro _ | apply State.updTwin_keeps | apply keeps_ite) | simp only [keeps_mk_iff] | split)

theorem State.placeNew_keeps {z : State} (s : State) (r : Region) (h_s : Machine.Keeps z s) : Machine.Keeps z (State.placeNew s r) := by
  unfold State.placeNew
  try dsimp only
  repeat' (first | with_reducible (first | assumption | intro _ | apply State.addRegion_keeps | apply State.removeRegion_keeps | apply keeps_foldl | apply keeps_foldl_snd | apply keeps_foldl_fst) | simp only [keeps_mk_iff])

theorem State.takeRegion_keeps {z : State} (s : State) (r : Region) (h_s : Machine.Keeps z s) : Machine.Keeps z (State.takeRegion s r) := by
  unfold State.takeRegion
  try dsimp only
  repeat' (first | with_reducible (first | assumption | apply ite_some_imp | intro _ | apply State.placeNew_keeps | apply State.updAms_keeps | apply keeps_ite) | simp only [keeps_mk_iff] | (refine keeps_snd (by with_reducible assumption) ?_) | (refine keeps_fst (by with_reducible assumption) ?_) | split)

theorem State.takeHome_keeps {z u : State} {s : State} {e w : Nat} (e : State.takeHome s e w = some u) (h_s : Machine.Keeps z s) : Machine.Keeps z u := by
  unfold State.takeHome at e
  revert e
  try dsimp only
  repeat' (first | (refine fun (e : _ = _) => ?_; cases e; done) | (refine fun (e : _ = _) => ?_; cases e) | split | (refine fun (e : _ = _) => ?_; simp only [Option.map_eq_some_iff] at e; obtain ⟨_, _, e⟩ := e; cases e) | with_reducible (first | assumption | apply ite_some_imp | intro _ | apply State.placeExtent_keeps) | (refine State.rehome_keeps (by with_reducible assumption) ?_ ) | with_reducible apply State.setHome_keeps | with_reducible apply keeps_ite | simp only [keeps_mk_iff] | (refine keeps_snd (by with_reducible assumption) ?_) | (refine keeps_fst (by with_reducible assumption) ?_) | split)

theorem State.takePlan_keeps {z : State} (s : State) (b : List Byte) (h_s : Machine.Keeps z s) : Machine.Keeps z (State.takePlan s b) := by
  unfold State.takePlan
  try dsimp only
  repeat' (first | with_reducible (first | assumption | apply ite_some_imp | intro _ | apply State.drop_keeps | apply State.sawState_keeps | apply State.updAms_keeps | apply State.updTwin_keeps | apply keeps_id | apply keeps_ite) | simp only [keeps_mk_iff] | (refine keeps_snd (by with_reducible assumption) ?_) | (refine keeps_fst (by with_reducible assumption) ?_) | split)

theorem State.takeQueue_keeps {z : State} (s : State) (b : List Byte) (h_s : Machine.Keeps z s) : Machine.Keeps z (State.takeQueue s b) := by
  unfold State.takeQueue
  try dsimp only
  repeat' (first | with_reducible (first | assumption | apply ite_some_imp | intro _ | apply State.dropDescs_keeps | apply State.sawState_keeps | apply State.updNet_keeps | apply keeps_getD) | simp only [keeps_mk_iff])

theorem State.endState_keeps {z : State} (s : State) (h_s : Machine.Keeps z s) : Machine.Keeps z (State.endState s) := by
  unfold State.endState
  try dsimp only
  repeat' (first | with_reducible (first | assumption | apply ite_some_imp | intro _ | apply State.named_keeps | apply State.partnerDelete_keeps | apply State.removeRegion_keeps | apply State.updAms_keeps | apply State.updTwin_keeps | apply keeps_foldl | apply keeps_foldl_snd | apply keeps_foldl_fst | apply keeps_id | apply keeps_ite) | simp only [keeps_mk_iff] | split)

theorem takeStateItem_keeps {z u : State} {tile : Nat} {x : RxItem} {a : State} (e : takeStateItem tile x a = some u) (h_a : Machine.Keeps z a) : Machine.Keeps z u := by
  unfold takeStateItem at e
  revert e
  try dsimp only
  repeat' (first | (refine fun (e : _ = _) => ?_; cases e; done) | (refine fun (e : _ = _) => ?_; cases e) | split | (refine fun (e : _ = _) => ?_; simp only [Option.map_eq_some_iff] at e; obtain ⟨_, _, e⟩ := e; cases e) | with_reducible (first | assumption | apply ite_some_imp | intro _ | apply State.endState_keeps | apply State.sawState_keeps) | (refine State.takeHome_keeps (by with_reducible assumption) ?_ ) | with_reducible apply State.takePlan_keeps | with_reducible apply State.takeQueue_keeps | with_reducible apply State.takeRegion_keeps | with_reducible apply keeps_foldl | with_reducible apply keeps_foldl_snd | with_reducible apply keeps_foldl_fst | (refine keeps_foldl_bind ?_ (by assumption) ?_) | with_reducible apply keeps_ite | simp only [keeps_mk_iff] | (refine keeps_snd (by with_reducible assumption) ?_) | (refine keeps_fst (by with_reducible assumption) ?_) | split)

theorem execStateRecord_keeps {z : State} (tile : Nat) (s : State) (h_s : Machine.Keeps z s) : OutKeeps z (execStateRecord tile s) := by
  unfold execStateRecord
  try dsimp only
  repeat' (first | with_reducible (first | assumption | intro _ | apply State.onItem_keeps | apply onTile_keeps) | (refine takeStateItem_keeps (by with_reducible assumption) ?_ ) | with_reducible apply outKeeps_next)

theorem cmdTwinStatus_keeps  : (cmdTwinStatus).Keeps := by
  intro z k pl s h
  unfold cmdTwinStatus
  try unfold actCmd
  try unfold readCmd
  try unfold mirCmd
  try dsimp only
  repeat' (first | with_reducible (first | assumption | intro _ | apply readCmd_keeps | apply CmdOut.reply_keeps) | simp only [keeps_mk_iff] | exact readCmd_keeps | with_reducible apply Cmd.out_keeps | with_reducible apply CmdOut.s_keeps | with_reducible apply CmdOut.after_keeps | simp only [CmdOut.mk_keeps_iff] | simp only [Cmd.mk_keeps_iff] | with_reducible apply And.intro)

theorem runTwinConfig_keeps {z : State} (x0 : Caller) (pl : List Byte) (s : State) (h_s : Machine.Keeps z s) : (runTwinConfig x0 pl s).Keeps z := by
  unfold runTwinConfig
  try dsimp only
  repeat' (first | with_reducible (first | assumption | apply ite_some_imp | intro _ | apply State.config_keeps | apply State.setCfg_keeps | apply State.tryPair_keeps | apply State.updTwin_keeps | apply keeps_foldl | apply keeps_foldl_snd | apply keeps_foldl_fst | apply keeps_ite) | simp only [keeps_mk_iff] | with_reducible apply Cmd.out_keeps | with_reducible apply CmdOut.s_keeps | with_reducible apply CmdOut.after_keeps | with_reducible apply CmdOut.ite_keeps | simp only [CmdOut.mk_keeps_iff] | simp only [Cmd.mk_keeps_iff] | with_reducible apply And.intro | split)

theorem cmdTwinConfig_keeps  : (cmdTwinConfig).Keeps := by
  intro z k pl s h
  unfold cmdTwinConfig
  try unfold actCmd
  try unfold readCmd
  try unfold mirCmd
  try dsimp only
  repeat' (first | with_reducible (first | assumption | intro _ | apply actCmd_keeps | apply State.config_keeps | apply runTwinConfig_keeps) | simp only [keeps_mk_iff] | exact actCmd_keeps | with_reducible apply Cmd.out_keeps | with_reducible apply CmdOut.s_keeps | with_reducible apply CmdOut.after_keeps | simp only [CmdOut.mk_keeps_iff] | simp only [Cmd.mk_keeps_iff] | with_reducible apply And.intro)

theorem pairedTwinConfig_keeps (f : Frame) (s : State) (h_s : Machine.Keeps z s) : (pairedTwinConfig f s).Keeps := by
  intro z k pl s h
  unfold pairedTwinConfig
  try unfold actCmd
  try unfold readCmd
  try unfold mirCmd
  try dsimp only
  repeat' (first | with_reducible (first | assumption | intro _ | apply cmdTwinConfig_keeps | apply State.mirrorCommand_keeps | apply runTwinConfig_keeps | apply keeps_ite) | simp only [keeps_mk_iff] | exact cmdTwinConfig_keeps | with_reducible apply Cmd.out_keeps | with_reducible apply CmdOut.s_keeps | with_reducible apply CmdOut.after_keeps | with_reducible apply CmdOut.ite_keeps | simp only [CmdOut.mk_keeps_iff] | simp only [Cmd.mk_keeps_iff] | with_reducible apply And.intro | split)

theorem cmdTwinSwap_keeps  : (cmdTwinSwap).Keeps := by
  intro z k pl s h
  unfold cmdTwinSwap
  try unfold actCmd
  try unfold readCmd
  try unfold mirCmd
  try dsimp only
  repeat' (first | with_reducible (first | assumption | apply ite_some_imp | intro _ | apply actCmd_keeps | apply State.beginSwap_keeps | apply State.config_keeps | apply CmdOut.done_keeps | apply keeps_ite) | simp only [keeps_mk_iff] | exact actCmd_keeps | with_reducible apply Cmd.out_keeps | with_reducible apply CmdOut.s_keeps | with_reducible apply CmdOut.after_keeps | with_reducible apply CmdOut.ite_keeps | simp only [CmdOut.mk_keeps_iff] | simp only [Cmd.mk_keeps_iff] | with_reducible apply And.intro | split)

theorem cmdTwinLeave_keeps  : (cmdTwinLeave).Keeps := by
  intro z k pl s h
  unfold cmdTwinLeave
  try unfold actCmd
  try unfold readCmd
  try unfold mirCmd
  try dsimp only
  repeat' (first | with_reducible (first | assumption | intro _ | apply actCmd_keeps | apply State.config_keeps | apply CmdOut.done_keeps | apply State.standAlone_keeps | apply State.updTwin_keeps) | simp only [keeps_mk_iff] | exact actCmd_keeps | with_reducible apply Cmd.out_keeps | with_reducible apply CmdOut.s_keeps | with_reducible apply CmdOut.after_keeps | simp only [CmdOut.mk_keeps_iff] | simp only [Cmd.mk_keeps_iff] | with_reducible apply And.intro)

theorem cmdTwinResync_keeps  : (cmdTwinResync).Keeps := by
  intro z k pl s h
  unfold cmdTwinResync
  try unfold actCmd
  try unfold readCmd
  try unfold mirCmd
  try dsimp only
  repeat' (first | with_reducible (first | assumption | intro _ | apply actCmd_keeps | apply State.config_keeps | apply State.divergeAll_keeps | apply CmdOut.done_keeps | apply State.standAlone_keeps | apply State.tryResync_keeps | apply State.updTwin_keeps | apply keeps_ite) | simp only [keeps_mk_iff] | exact actCmd_keeps | with_reducible apply Cmd.out_keeps | with_reducible apply CmdOut.s_keeps | with_reducible apply CmdOut.after_keeps | with_reducible apply CmdOut.ite_keeps | simp only [CmdOut.mk_keeps_iff] | simp only [Cmd.mk_keeps_iff] | with_reducible apply And.intro | split)

theorem cmdTwinFaultClear_keeps  : (cmdTwinFaultClear).Keeps := by
  intro z k pl s h
  unfold cmdTwinFaultClear
  try unfold actCmd
  try unfold readCmd
  try unfold mirCmd
  try dsimp only
  repeat' (first | with_reducible (first | assumption | apply ite_some_imp | intro _ | apply actCmd_keeps | apply State.config_keeps | apply CmdOut.done_keeps | apply State.setF_keeps | apply State.updTwin_keeps | apply keeps_ite) | simp only [keeps_mk_iff] | exact actCmd_keeps | with_reducible apply Cmd.out_keeps | with_reducible apply CmdOut.s_keeps | with_reducible apply CmdOut.after_keeps | with_reducible apply CmdOut.ite_keeps | simp only [CmdOut.mk_keeps_iff] | simp only [Cmd.mk_keeps_iff] | with_reducible apply And.intro | split)

theorem cmdTwinForceSolo_keeps  : (cmdTwinForceSolo).Keeps := by
  intro z k pl s h
  unfold cmdTwinForceSolo
  try unfold actCmd
  try unfold readCmd
  try unfold mirCmd
  try dsimp only
  repeat' (first | with_reducible (first | assumption | intro _ | apply actCmd_keeps | apply State.config_keeps | apply CmdOut.done_keeps | apply State.takeOver_keeps | apply keeps_ite) | simp only [keeps_mk_iff] | exact actCmd_keeps | with_reducible apply Cmd.out_keeps | with_reducible apply CmdOut.s_keeps | with_reducible apply CmdOut.after_keeps | with_reducible apply CmdOut.ite_keeps | simp only [CmdOut.mk_keeps_iff] | simp only [Cmd.mk_keeps_iff] | with_reducible apply And.intro | split)

theorem execTwinStatus_keeps {z : State} (f : Frame) (s : State) (h_s : Machine.Keeps z s) : OutKeeps z (execTwinStatus f s) := by
  unfold execTwinStatus
  try dsimp only
  repeat' (first | with_reducible (first | assumption | intro _ | apply cmdTwinStatus_keeps | apply mailbox_keeps) | exact cmdTwinStatus_keeps | with_reducible apply outKeeps_next)

theorem execTwinConfig_keeps {z : State} (f : Frame) (s : State) (h_s : Machine.Keeps z s) : OutKeeps z (execTwinConfig f s) := by
  unfold execTwinConfig
  try dsimp only
  repeat' (first | with_reducible (first | assumption | intro _ | apply mailbox_keeps | apply pairedTwinConfig_keeps) | exact pairedTwinConfig_keeps | with_reducible apply outKeeps_next)

theorem execTwinSwap_keeps {z : State} (f : Frame) (s : State) (h_s : Machine.Keeps z s) : OutKeeps z (execTwinSwap f s) := by
  unfold execTwinSwap
  try dsimp only
  repeat' (first | with_reducible (first | assumption | intro _ | apply cmdTwinSwap_keeps | apply mailbox_keeps) | exact cmdTwinSwap_keeps | with_reducible apply outKeeps_next)

theorem execTwinLeave_keeps {z : State} (f : Frame) (s : State) (h_s : Machine.Keeps z s) : OutKeeps z (execTwinLeave f s) := by
  unfold execTwinLeave
  try dsimp only
  repeat' (first | with_reducible (first | assumption | intro _ | apply cmdTwinLeave_keeps | apply mailbox_keeps) | exact cmdTwinLeave_keeps | with_reducible apply outKeeps_next)

theorem execTwinResync_keeps {z : State} (f : Frame) (s : State) (h_s : Machine.Keeps z s) : OutKeeps z (execTwinResync f s) := by
  unfold execTwinResync
  try dsimp only
  repeat' (first | with_reducible (first | assumption | intro _ | apply cmdTwinResync_keeps | apply mailbox_keeps) | exact cmdTwinResync_keeps | with_reducible apply outKeeps_next)

theorem execTwinFaultClear_keeps {z : State} (f : Frame) (s : State) (h_s : Machine.Keeps z s) : OutKeeps z (execTwinFaultClear f s) := by
  unfold execTwinFaultClear
  try dsimp only
  repeat' (first | with_reducible (first | assumption | intro _ | apply cmdTwinFaultClear_keeps | apply mailbox_keeps) | exact cmdTwinFaultClear_keeps | with_reducible apply outKeeps_next)

theorem execTwinForceSolo_keeps {z : State} (f : Frame) (s : State) (h_s : Machine.Keeps z s) : OutKeeps z (execTwinForceSolo f s) := by
  unfold execTwinForceSolo
  try dsimp only
  repeat' (first | with_reducible (first | assumption | intro _ | apply cmdTwinForceSolo_keeps | apply mailbox_keeps) | exact cmdTwinForceSolo_keeps | with_reducible apply outKeeps_next)

end Sys2Proof.Machine
end

