-- ==== Sys2Proof/Laws/KeepSleep.lean ====
section
/-! SUPPORT. What no command changes is kept by every function of `Machine/Sleep.lean`. -/

set_option linter.all false

namespace Sys2Proof.Machine

theorem State.sleepBegin_keeps {z : State} (s : State) (target : Nat) (h_s : Machine.Keeps z s) : Machine.Keeps z (State.sleepBegin s target) := by
  unfold State.sleepBegin
  try dsimp only
  repeat' (first | with_reducible (first | assumption | intro _ | apply State.depart_keeps | apply State.driveActo_keeps | apply State.setAll_keeps | apply State.setF_keeps | apply keeps_ite) | simp only [keeps_mk_iff] | split)

theorem State.sleepCache_keeps {z : State} (s : State) (t : Nat) (h_s : Machine.Keeps z s) : Machine.Keeps z (State.sleepCache s t) := by
  unfold State.sleepCache
  try dsimp only
  repeat' (first | with_reducible (first | assumption | intro _ | apply State.cacheOff_keeps | apply State.drainCache_keeps | apply keeps_ite) | split)

theorem State.linksOff_keeps {z : State} (s : State) (t : Nat) (h_s : Machine.Keeps z s) : Machine.Keeps z (State.linksOff s t) := by
  unfold State.linksOff
  try dsimp only
  repeat' (first | with_reducible (first | assumption | intro _ | apply State.linkDown_keeps | apply State.twlDown_keeps | apply keeps_foldl | apply keeps_foldl_snd | apply keeps_foldl_fst | apply keeps_ite) | split)

theorem State.fallAsleep_keeps {z : State} (s : State) (h_s : Machine.Keeps z s) : Machine.Keeps z (State.fallAsleep s) := by
  unfold State.fallAsleep
  try dsimp only
  repeat' (first | with_reducible (first | assumption | apply ite_some_imp | intro _ | apply State.allTiles_keeps | apply State.keepMeta_keeps | apply State.linksOff_keeps | apply State.loseRanks_keeps | apply State.railSet_keeps | apply State.setC_keeps | apply State.setF_keeps | apply State.setFs_keeps | apply State.setRanks_keeps | apply State.sleepRanks_keeps | apply State.toState_keeps | apply keeps_foldl | apply keeps_foldl_snd | apply keeps_foldl_fst) | simp only [keeps_mk_iff] | (refine keeps_snd (by with_reducible assumption) ?_) | (refine keeps_fst (by with_reducible assumption) ?_) | split)

theorem State.sleepAt_keeps {z : State} (s : State) (n : Nat) (h_s : Machine.Keeps z s) : Machine.Keeps z (State.sleepAt s n) := by
  unfold State.sleepAt
  try dsimp only
  repeat' (first | with_reducible (first | assumption | intro _) | simp only [keeps_mk_iff])

theorem State.sleepStep_keeps {z : State} (s : State) (h_s : Machine.Keeps z s) : Machine.Keeps z (State.sleepStep s) := by
  unfold State.sleepStep
  try dsimp only
  repeat' (first | with_reducible (first | assumption | intro _ | apply State.allTiles_keeps | apply State.fallAsleep_keeps | apply State.noteUrgent_keeps | apply State.setAll_keeps | apply State.sleepAt_keeps | apply State.sleepCache_keeps | apply keeps_ite) | simp only [keeps_mk_iff] | (refine keeps_snd (by with_reducible assumption) ?_) | (refine keeps_fst (by with_reducible assumption) ?_) | split)

theorem State.sleepProceed_keeps {z : State} (s : State) (h_s : Machine.Keeps z s) : Machine.Keeps z (State.sleepProceed s) := by
  unfold State.sleepProceed
  try dsimp only
  repeat' (first | with_reducible (first | assumption | intro _ | apply State.sleepStep_keeps))

theorem cmdPowerSleep_keeps  : (cmdPowerSleep).Keeps := by
  intro z k pl s h
  unfold cmdPowerSleep
  try unfold actCmd
  try unfold readCmd
  try unfold mirCmd
  try dsimp only
  repeat' (first | with_reducible (first | assumption | apply ite_some_imp | intro _ | apply actCmd_keeps | apply CmdOut.done_keeps | apply State.sleepBegin_keeps | apply State.sleepProceed_keeps | apply keeps_ite) | simp only [keeps_mk_iff] | exact actCmd_keeps | with_reducible apply Cmd.out_keeps | with_reducible apply CmdOut.s_keeps | with_reducible apply CmdOut.after_keeps | with_reducible apply CmdOut.ite_keeps | simp only [CmdOut.mk_keeps_iff] | simp only [Cmd.mk_keeps_iff] | with_reducible apply And.intro | (refine keeps_snd (by with_reducible assumption) ?_) | (refine keeps_fst (by with_reducible assumption) ?_) | split)

theorem execPowerSleep_keeps {z : State} (f : Frame) (s : State) (h_s : Machine.Keeps z s) : OutKeeps z (execPowerSleep f s) := by
  unfold execPowerSleep
  try dsimp only
  repeat' (first | with_reducible (first | assumption | intro _ | apply cmdPowerSleep_keeps | apply mailbox_keeps) | exact cmdPowerSleep_keeps | with_reducible apply outKeeps_next)

theorem execSleepCleanTimeout_keeps {z : State} (s : State) (h_s : Machine.Keeps z s) : OutKeeps z (execSleepCleanTimeout s) := by
  unfold execSleepCleanTimeout
  try dsimp only
  repeat' (first | with_reducible (first | assumption | intro _ | apply State.sleepProceed_keeps | apply keeps_ite) | simp only [keeps_mk_iff] | with_reducible apply outKeeps_next | with_reducible apply outKeeps_ite | split)

end Sys2Proof.Machine
end

