-- ==== Sys2Proof/Laws/KeepView.lean ====
section
/-! SUPPORT. What no command changes is kept by every function of `Machine/View.lean`. -/

set_option linter.all false

namespace Sys2Proof.Machine

theorem State.nvsUnreadable_keeps {z : State} (s : State) (t : Nat) (h_s : Machine.Keeps z s) : Machine.Keeps z (State.nvsUnreadable s t).2 := by
  unfold State.nvsUnreadable
  try dsimp only
  repeat' (first | with_reducible (first | assumption | intro _ | apply State.bump_keeps | apply State.draw_keeps | apply State.ev_keeps) | (refine keeps_snd (by with_reducible assumption) ?_) | (refine keeps_fst (by with_reducible assumption) ?_) | split)

theorem State.readNvsAt_keeps {z : State} (s : State) (t a : Nat) (h_s : Machine.Keeps z s) : Machine.Keeps z (State.readNvsAt s t a).2 := by
  unfold State.readNvsAt
  try dsimp only
  repeat' (first | with_reducible (first | assumption | intro _ | apply State.nvsUnreadable_keeps | apply keeps_ite) | split)

theorem State.readNvsWin_keeps {z : State} (s : State) (t off : Nat) (h_s : Machine.Keeps z s) : Machine.Keeps z (State.readNvsWin s t off).2 := by
  unfold State.readNvsWin
  try dsimp only
  repeat' (first | with_reducible (first | assumption | intro _ | apply State.readNvsAt_keeps | apply keeps_ite) | split)

theorem State.readReg_keeps {z : State} (s : State) (t blk off : Nat) (h_s : Machine.Keeps z s) : Machine.Keeps z (State.readReg s t blk off).2 := by
  unfold State.readReg
  try dsimp only
  repeat' (first | with_reducible (first | assumption | intro _ | apply State.readNvsWin_keeps | apply State.senseReg_keeps | apply State.setWord_keeps | apply keeps_foldl | apply keeps_foldl_snd | apply keeps_foldl_fst | apply keeps_ite) | split)

end Sys2Proof.Machine
end

