-- ==== Sys2Proof/Laws/KeepRegAccess.lean ====
section
/-! SUPPORT. What no command changes is kept by every function of `Machine/RegAccess.lean`. -/

set_option linter.all false

namespace Sys2Proof.Machine

theorem State.putReg_keeps {z : State} (s : State) (t blk off : Nat) (w : Word) (h_s : Machine.Keeps z s) : Machine.Keeps z (State.putReg s t blk off w) := by
  unfold State.putReg
  try dsimp only
  repeat' (first | with_reducible (first | assumption | intro _ | apply State.ev_keeps | apply State.setF_keeps | apply State.setWord_keeps | apply keeps_foldl | apply keeps_foldl_snd | apply keeps_foldl_fst | apply keeps_ite) | simp only [keeps_mk_iff] | split)

theorem State.dmcStart_keeps {z u : State} {s : State} {t c off w : Nat} (e : State.dmcStart s t c off w = some u) (h_s : Machine.Keeps z s) : Machine.Keeps z u := by
  unfold State.dmcStart at e
  revert e
  try dsimp only
  repeat' (first | (refine fun (e : _ = _) => ?_; cases e; done) | (refine fun (e : _ = _) => ?_; cases e) | split | (refine fun (e : _ = _) => ?_; simp only [Option.map_eq_some_iff] at e; obtain ⟨_, _, e⟩ := e; cases e) | with_reducible (first | assumption | apply ite_some_imp | intro _ | apply State.draw_keeps | apply State.ev_keeps | apply State.patternRun_keeps | apply State.requestSpeed_keeps | apply State.setC_keeps | apply State.setFs_keeps | apply State.setPpr_keeps | apply State.startHppr_keeps | apply State.startSppr_keeps | apply keeps_ite) | (refine keeps_snd (by with_reducible assumption) ?_) | (refine keeps_fst (by with_reducible assumption) ?_) | split)

theorem State.regAction_keeps {z u : State} {s : State} {t blk off mask w : Nat} (e : State.regAction s t blk off mask w = some u) (h_s : Machine.Keeps z s) : Machine.Keeps z u := by
  unfold State.regAction at e
  revert e
  try dsimp only
  repeat' (first | (refine fun (e : _ = _) => ?_; cases e; done) | (refine fun (e : _ = _) => ?_; cases e) | split | (refine fun (e : _ = _) => ?_; simp only [Option.map_eq_some_iff] at e; obtain ⟨_, _, e⟩ := e; cases e) | with_reducible (first | assumption | apply ite_some_imp | intro _ | apply State.classWrite_keeps | apply State.clearLogs_keeps) | (refine State.dmcStart_keeps (by with_reducible assumption) ?_ ) | with_reducible apply State.enWrite_keeps | with_reducible apply State.leaseKick_keeps | with_reducible apply State.maintWrite_keeps | with_reducible apply State.pwrWrite_keeps | with_reducible apply State.setF_keeps | with_reducible apply State.wdogKick_keeps | with_reducible apply State.writeInj_keeps | with_reducible apply keeps_ite | simp only [keeps_mk_iff] | (refine keeps_snd (by with_reducible assumption) ?_) | (refine keeps_fst (by with_reducible assumption) ?_) | split)

theorem State.regFollow_keeps {z : State} (s : State) (t blk off : Nat) (old : Word) (h_s : Machine.Keeps z s) : Machine.Keeps z (State.regFollow s t blk off old) := by
  unfold State.regFollow
  try dsimp only
  repeat' (first | with_reducible (first | assumption | intro _ | apply State.noteUrgent_keeps | apply State.portTake_keeps | apply State.powerLanes_keeps | apply State.recomputeCeiling_keeps | apply keeps_ite) | simp only [keeps_mk_iff] | (refine keeps_snd (by with_reducible assumption) ?_) | (refine keeps_fst (by with_reducible assumption) ?_) | split)

theorem State.writeReg_keeps {z : State} (s : State) (t blk off mask value : Nat) (h_s : Machine.Keeps z s) : Machine.Keeps z (State.writeReg s t blk off mask value) := by
  unfold State.writeReg
  try dsimp only
  repeat' (first | with_reducible (first | assumption | apply ite_some_imp | intro _ | apply State.nvsRegWrite_keeps | apply State.putReg_keeps) | (refine State.regAction_keeps (by with_reducible assumption) ?_ ) | with_reducible apply State.regFollow_keeps | with_reducible apply keeps_foldl | with_reducible apply keeps_foldl_snd | with_reducible apply keeps_foldl_fst | with_reducible apply keeps_ite | simp only [keeps_mk_iff] | (refine keeps_snd (by with_reducible assumption) ?_) | (refine keeps_fst (by with_reducible assumption) ?_) | split)

theorem State.readRegs_keeps {z : State} (l : List Nat) (s : State) (h : Machine.Keeps z s) : Machine.Keeps z (State.readRegs l s).2 := by
  induction l generalizing s with
  | nil => exact h
  | cons a l ih => exact ih _ (State.readReg_keeps _ _ _ _ h)

theorem cmdRegRead_keeps  : (cmdRegRead).Keeps := by
  intro z k pl s h
  unfold cmdRegRead
  try unfold actCmd
  try unfold readCmd
  try unfold mirCmd
  try dsimp only
  repeat' (first | with_reducible (first | assumption | intro _ | apply readCmd_keeps | apply State.readRegs_keeps | apply CmdOut.reply_keeps) | simp only [keeps_mk_iff] | exact readCmd_keeps | with_reducible apply Cmd.out_keeps | with_reducible apply CmdOut.s_keeps | with_reducible apply CmdOut.after_keeps | simp only [CmdOut.mk_keeps_iff] | simp only [Cmd.mk_keeps_iff] | with_reducible apply And.intro | (refine keeps_snd (by with_reducible assumption) ?_) | (refine keeps_fst (by with_reducible assumption) ?_) | split)

theorem cmdRegWrite_keeps  : (cmdRegWrite).Keeps := by
  intro z k pl s h
  unfold cmdRegWrite
  try unfold actCmd
  try unfold readCmd
  try unfold mirCmd
  try dsimp only
  repeat' (first | with_reducible (first | assumption | intro _ | apply actCmd_keeps | apply CmdOut.done_keeps | apply State.writeReg_keeps | apply keeps_foldl | apply keeps_foldl_snd | apply keeps_foldl_fst) | simp only [keeps_mk_iff] | exact actCmd_keeps | with_reducible apply Cmd.out_keeps | with_reducible apply CmdOut.s_keeps | with_reducible apply CmdOut.after_keeps | simp only [CmdOut.mk_keeps_iff] | simp only [Cmd.mk_keeps_iff] | with_reducible apply And.intro | (refine keeps_snd (by with_reducible assumption) ?_) | (refine keeps_fst (by with_reducible assumption) ?_) | split)

theorem execRegRead_keeps {z : State} (f : Frame) (s : State) (h_s : Machine.Keeps z s) : OutKeeps z (execRegRead f s) := by
  unfold execRegRead
  try dsimp only
  repeat' (first | with_reducible (first | assumption | intro _ | apply cmdRegRead_keeps | apply mailbox_keeps) | exact cmdRegRead_keeps | with_reducible apply outKeeps_next)

theorem execRegWrite_keeps {z : State} (f : Frame) (s : State) (h_s : Machine.Keeps z s) : OutKeeps z (execRegWrite f s) := by
  unfold execRegWrite
  try dsimp only
  repeat' (first | with_reducible (first | assumption | intro _ | apply cmdRegWrite_keeps | apply mailbox_keeps) | exact cmdRegWrite_keeps | with_reducible apply outKeeps_next)

theorem execRegisterWrite_keeps {z : State} (tile blk off : Nat) (value : Word) (s : State) (h_s : Machine.Keeps z s) : OutKeeps z (execRegisterWrite tile blk off value s) := by
  unfold execRegisterWrite
  try dsimp only
  repeat' (first | with_reducible (first | assumption | intro _ | apply onTiles_keeps | apply State.writeReg_keeps | apply keeps_ite | apply outKeeps_next | apply outKeeps_ite) | split)

end Sys2Proof.Machine
end

