-- ==== Sys2Proof/Laws/KeepExec.lean ====
section
/-! SUPPORT. What no command changes (Safety.lean) is kept by every command. -/

namespace Sys2Proof.Machine

/-- Everything a command can do, as far as the block as a whole is concerned: it keeps what no command changes. -/
theorem exec_keeps {z : State} (i : Instr) (s : State) (h : Keeps z s) : OutKeeps z (exec i s) := by
  cases i with
  | vaonApplied pref adr => exact execVaonApplied_keeps pref adr s h
  | vaonLost => exact execVaonLost_keeps s h
  | vaonLow => exact execVaonLow_keeps s h
  | mainsOkHigh => exact execMainsOkHigh_keeps s h
  | mainsOkLow tile => exact execMainsOkLow_keeps tile s h
  | huTrip tile => exact execHuTrip_keeps tile s h
  | huEmerg tile => exact execHuEmerg_keeps tile s h
  | tripArm tile => exact execTripArm_keeps tile s h
  | tcrit tile => exact execTcrit_keeps tile s h
  | freezeNet tile => exact execFreezeNet_keeps tile s h
  | railFault rail => exact execRailFault_keeps rail s h
  | phaseFault stage short => exact execPhaseFault_keeps stage short s h
  | phaseShedLoad stage on => exact execPhaseShedLoad_keeps stage on s h
  | xtalFail => exact execXtalFail_keeps s h
  | wakeN low => exact execWakeN_keeps low s h
  | wakeTimer => exact execWakeTimer_keeps s h
  | thermalCheck temps => exact execThermalCheck_keeps temps s h
  | wdogKick => exact execWdogKick_keeps s h
  | wdogExpiry => exact execWdogExpiry_keeps s h
  | leaseKick => exact execLeaseKick_keeps s h
  | leaseExpired => exact execLeaseExpired_keeps s h
  | freezeTrigger tile source => exact execFreezeTrigger_keeps tile source s h
  | secondTrigger tile => exact execSecondTrigger_keeps tile s h
  | drainWindowEnd tile => exact execDrainWindowEnd_keeps tile s h
  | dumpComplete tile => exact execDumpComplete_keeps tile s h
  | sealVerified tile => exact execSealVerified_keeps tile s h
  | railsRemoved => exact execRailsRemoved_keeps s h
  | mainsReturn => exact execMainsReturn_keeps s h
  | coldBoot => exact execColdBoot_keeps s h
  | boot temps => exact execBoot_keeps temps s h
  | bootromKeyInit ok => exact execBootromKeyInit_keeps ok s h
  | selftestSlice tile slice => exact execSelftestSlice_keeps tile slice s h
  | sliceResult tile slice outcome detail => exact execSliceResult_keeps tile slice outcome detail s h
  | sliceBudgetExpiry tile => exact execSliceBudgetExpiry_keeps tile s h
  | dramTrain found compareBad bad => exact execDramTrain_keeps found compareBad bad s h
  | bankMeasureStart hu v1 => exact execBankMeasureStart_keeps hu v1 s h
  | bankWaitExpiry => exact execBankWaitExpiry_keeps s h
  | bankMeasureEnd t stayed => exact execBankMeasureEnd_keeps t stayed s h
  | restore tile rootOk metaOk lost => exact execRestore_keeps tile rootOk metaOk lost s h
  | releaseToService => exact execReleaseToService_keeps s h
  | bgRestorePage tile hard iters retry soft parity => exact execBgRestorePage_keeps tile hard iters retry soft parity s h
  | roleSettle => exact execRoleSettle_keeps s h
  | helloSend tile => exact execHelloSend_keeps tile s h
  | hello tile frame => exact execHello_keeps tile frame s h
  | heartbeatSend tile => exact execHeartbeatSend_keeps tile s h
  | heartbeat tile frame => exact execHeartbeat_keeps tile frame s h
  | heartbeatWord periods pad => exact execHeartbeatWord_keeps periods pad s h
  | partnerLost => exact execPartnerLost_keeps s h
  | pathLost => exact execPathLost_keeps s h
  | interlockFault => exact execInterlockFault_keeps s h
  | twActiChange level => exact execTwActiChange_keeps level s h
  | guardExpiry => exact execGuardExpiry_keeps s h
  | contentionBackoff => exact execContentionBackoff_keeps s h
  | takeover => exact execTakeover_keeps s h
  | twinGateChange => exact execTwinGateChange_keeps s h
  | mirror tile frame => exact execMirror_keeps tile frame s h
  | mirrorRetransmit tile => exact execMirrorRetransmit_keeps tile s h
  | mirrorAck tile frame => exact execMirrorAck_keeps tile frame s h
  | credit tile frame => exact execCredit_keeps tile frame s h
  | creditBooksReset tile => exact execCreditBooksReset_keeps tile s h
  | fetchReq tile frame => exact execFetchReq_keeps tile frame s h
  | fetchResp tile frame => exact execFetchResp_keeps tile frame s h
  | fetchTimeout tile id => exact execFetchTimeout_keeps tile id s h
  | portionRecord tile => exact execPortionRecord_keeps tile s h
  | atomicRecord tile => exact execAtomicRecord_keeps tile s h
  | qpCtxRecord tile => exact execQpCtxRecord_keeps tile s h
  | capsuleRecord tile => exact execCapsuleRecord_keeps tile s h
  | completionRecord tile => exact execCompletionRecord_keeps tile s h
  | startRecord tile => exact execStartRecord_keeps tile s h
  | chainRecord tile => exact execChainRecord_keeps tile s h
  | commandRecord => exact execCommandRecord_keeps s h
  | revokeRecord => exact execRevokeRecord_keeps s h
  | orderRecord => exact execOrderRecord_keeps s h
  | moveRecord tile => exact execMoveRecord_keeps tile s h
  | readyRecord tile => exact execReadyRecord_keeps tile s h
  | indexMark tile => exact execIndexMark_keeps tile s h
  | epochRecord => exact execEpochRecord_keeps s h
  | swapRecord => exact execSwapRecord_keeps s h
  | snapshotRecord tile => exact execSnapshotRecord_keeps tile s h
  | stateRecord tile => exact execStateRecord_keeps tile s h
  | resyncSnapshot tile => exact execResyncSnapshot_keeps tile s h
  | resyncComplete => exact execResyncComplete_keeps s h
  | comebackHoldoff => exact execComebackHoldoff_keeps s h
  | swapTimeout => exact execSwapTimeout_keeps s h
  | twinLinkDown tile => exact execTwinLinkDown_keeps tile s h
  | twinLinkUp tile => exact execTwinLinkUp_keeps tile s h
  | pnNear tile => exact execPnNear_keeps tile s h
  | rxNewKn tile mac kn => exact execRxNewKn_keeps tile mac kn s h
  | macsecVerifyFail tile replay => exact execMacsecVerifyFail_keeps tile replay s h
  | pairKeyTimeout tile => exact execPairKeyTimeout_keeps tile s h
  | ethLinkUp tile port lport => exact execEthLinkUp_keeps tile port lport s h
  | ethLinkDown tile port lport => exact execEthLinkDown_keeps tile port lport s h
  | linkDownHoldExpiry tile port lport => exact execLinkDownHoldExpiry_keeps tile port lport s h
  | ethFrame tile port pcp dscp info => exact execEthFrame_keeps tile port pcp dscp info s h
  | pfcPause tile port prio on => exact execPfcPause_keeps tile port prio on s h
  | pfcWatchdog tile port prio => exact execPfcWatchdog_keeps tile port prio s h
  | req r => exact execReq_keeps r s h
  | rtu qpn => exact execRtu_keeps qpn s h
  | connectTimeout qpn rej => exact execConnectTimeout_keeps qpn rej s h
  | dreq qpn => exact execDreq_keeps qpn s h
  | qpSettled qpn => exact execQpSettled_keeps qpn s h
  | errHoldExpiry qpn => exact execErrHoldExpiry_keeps qpn s h
  | send p => exact execSend_keeps p s h
  | rdmaWrite p => exact execRdmaWrite_keeps p s h
  | rdmaWriteImm p => exact execRdmaWriteImm_keeps p s h
  | rdmaReadRequest p near => exact execRdmaReadRequest_keeps p near s h
  | cmpSwap p => exact execCmpSwap_keeps p s h
  | fetchAdd p => exact execFetchAdd_keeps p s h
  | ackReceived p => exact execAckReceived_keeps p s h
  | readResponse p => exact execReadResponse_keeps p s h
  | cnp p => exact execCnp_keeps p s h
  | cnpRateRestore qpn => exact execCnpRateRestore_keeps qpn s h
  | ackTimeout qpn => exact execAckTimeout_keeps qpn s h
  | rnrTimer qpn => exact execRnrTimer_keeps qpn s h
  | ackSend qpn => exact execAckSend_keeps qpn s h
  | contextFetch qpn => exact execContextFetch_keeps qpn s h
  | windowRecompute tile => exact execWindowRecompute_keeps tile s h
  | bufBooksCheck tile => exact execBufBooksCheck_keeps tile s h
  | admitPortion id => exact execAdmitPortion_keeps id s h
  | tokenGrant tile => exact execTokenGrant_keeps tile s h
  | applyPortion id => exact execApplyPortion_keeps id s h
  | discardPortion id => exact execDiscardPortion_keeps id s h
  | capsulePull id => exact execCapsulePull_keeps id s h
  | capsuleStart qpn => exact execCapsuleStart_keeps qpn s h
  | capsuleWrite id => exact execCapsuleWrite_keeps id s h
  | capsuleRead id => exact execCapsuleRead_keeps id s h
  | commit id => exact execCommit_keeps id s h
  | copy id => exact execCopy_keeps id s h
  | notify id => exact execNotify_keeps id s h
  | wait id => exact execWait_keeps id s h
  | waitSatisfied id => exact execWaitSatisfied_keeps id s h
  | moveTrigger id => exact execMoveTrigger_keeps id s h
  | capsuleComplete id => exact execCapsuleComplete_keeps id s h
  | descriptorStart cqn => exact execDescriptorStart_keeps cqn s h
  | revokePhase1End => exact execRevokePhase1End_keeps s h
  | revokePhase2End => exact execRevokePhase2End_keeps s h
  | firnCapture tile near => exact execFirnCapture_keeps tile near s h
  | programVerified tile unit us => exact execProgramVerified_keeps tile unit us s h
  | firnBooksCheck tile => exact execFirnBooksCheck_keeps tile s h
  | firnDeepMerge tile page => exact execFirnDeepMerge_keeps tile page s h
  | moveRequest => exact execMoveRequest_keeps s h
  | moveFrameFree ext => exact execMoveFrameFree_keeps ext s h
  | moveCleaned ext => exact execMoveCleaned_keeps ext s h
  | movePassDone ext near => exact execMovePassDone_keeps ext near s h
  | moveCommit ext => exact execMoveCommit_keeps ext s h
  | homeMapApply tile ext => exact execHomeMapApply_keeps tile ext s h
  | forwardToHome id => exact execForwardToHome_keeps id s h
  | localImageWrite page => exact execLocalImageWrite_keeps page s h
  | orderRasterLine stream => exact execOrderRasterLine_keeps stream s h
  | orderChainCount cqn => exact execOrderChainCount_keeps cqn s h
  | cacheLookup tile n stream panic data tag => exact execCacheLookup_keeps tile n stream panic data tag s h
  | cacheFill tile n => exact execCacheFill_keeps tile n s h
  | evbWriteback tile => exact execEvbWriteback_keeps tile s h
  | cacheDrainDone tile => exact execCacheDrainDone_keeps tile s h
  | repartitionDone tile => exact execRepartitionDone_keeps tile s h
  | tchEnWrite tile en => exact execTchEnWrite_keeps tile en s h
  | tchWaypwrWrite tile value => exact execTchWaypwrWrite_keeps tile value s h
  | tchWayclassWrite tile value => exact execTchWayclassWrite_keeps tile value s h
  | wayCleanDone tile way => exact execWayCleanDone_keeps tile way s h
  | clean tile => exact execClean_keeps tile s h
  | invalidate tile => exact execInvalidate_keeps tile s h
  | dramRequest tile ch sub => exact execDramRequest_keeps tile ch sub s h
  | refreshDue tile ch rank => exact execRefreshDue_keeps tile ch rank s h
  | refreshDebtMax tile ch rank => exact execRefreshDebtMax_keeps tile ch rank s h
  | tempPoll tile ch temps mode => exact execTempPoll_keeps tile ch temps mode s h
  | rowIdleClose tile ch bank => exact execRowIdleClose_keeps tile ch bank s h
  | panicLong tile ch => exact execPanicLong_keeps tile ch s h
  | retrainPause tile ch => exact execRetrainPause_keeps tile ch s h
  | retrainForced tile ch => exact execRetrainForced_keeps tile ch s h
  | speedGo tile ch target => exact execSpeedGo_keeps tile ch target s h
  | freqChangeDone tile ch => exact execFreqChangeDone_keeps tile ch s h
  | trnWriteReadCompare tile ch w lanes errs => exact execTrnWriteReadCompare_keeps tile ch w lanes errs s h
  | trnReadCompare tile ch w lanes errs => exact execTrnReadCompare_keeps tile ch w lanes errs s h
  | trnCaLoopback tile ch w lanes errs => exact execTrnCaLoopback_keeps tile ch w lanes errs s h
  | trnWlSample tile ch w lanes errs => exact execTrnWlSample_keeps tile ch w lanes errs s h
  | sppr tile ch w result => exact execSppr_keeps tile ch w result s h
  | hppr tile ch w result => exact execHppr_keeps tile ch w result s h
  | dramRelocate tile => exact execDramRelocate_keeps tile s h
  | s2RankReturn tile compareBad bad => exact execS2RankReturn_keeps tile compareBad bad s h
  | decRead tile addr err bad0 bad1 parity => exact execDecRead_keeps tile addr err bad0 bad1 parity s h
  | firstWrite tile page => exact execFirstWrite_keeps tile page s h
  | frameFree tile frame => exact execFrameFree_keeps tile frame s h
  | ueRecovery tile addr => exact execUeRecovery_keeps tile addr s h
  | pageRetire tile page => exact execPageRetire_keeps tile page s h
  | scrubRead tile ch err => exact execScrubRead_keeps tile ch err s h
  | errorLogPoll tile ppr => exact execErrorLogPoll_keeps tile ppr s h
  | decLogClearWrite tile mask => exact execDecLogClearWrite_keeps tile mask s h
  | decInjArm tile v => exact execDecInjArm_keeps tile v s h
  | deepRead tile page hard iters retry soft parity => exact execDeepRead_keeps tile page hard iters retry soft parity s h
  | suspendRead tile page us busy => exact execSuspendRead_keeps tile page us busy s h
  | deepProgramFail tile stripe ch => exact execDeepProgramFail_keeps tile stripe ch s h
  | eraseFail tile stripe ch => exact execEraseFail_keeps tile stripe ch s h
  | gcStart tile => exact execGcStart_keeps tile s h
  | gcStop tile => exact execGcStop_keeps tile s h
  | tableFlush tile mismatch => exact execTableFlush_keeps tile mismatch s h
  | dumpArm tile => exact execDumpArm_keeps tile s h
  | previousRelease tile => exact execPreviousRelease_keeps tile s h
  | wearStage tile stage stripe ch tprog => exact execWearStage_keeps tile stage stripe ch tprog s h
  | deepFirstFormat => exact execDeepFirstFormat_keeps s h
  | strobeEdge tile stb => exact execStrobeEdge_keeps tile stb s h
  | strobeEarly tile stb => exact execStrobeEarly_keeps tile stb s h
  | indexPulse tile => exact execIndexPulse_keeps tile s h
  | prefetchDone stream bad near => exact execPrefetchDone_keeps stream bad near s h
  | fifoFull stream => exact execFifoFull_keeps stream s h
  | frameEnd stream => exact execFrameEnd_keeps stream s h
  | fifoBooksCheck tile => exact execFifoBooksCheck_keeps tile s h
  | lidSend tile => exact execLidSend_keeps tile s h
  | statusFrame tile lane data crc => exact execStatusFrame_keeps tile lane data crc s h
  | laneFailing tile lane lost => exact execLaneFailing_keeps tile lane lost s h
  | spareStatusOk tile => exact execSpareStatusOk_keeps tile s h
  | spareTimeout tile => exact execSpareTimeout_keeps tile s h
  | sysIdentify f => exact execSysIdentify_keeps f s h
  | sysState f => exact execSysState_keeps f s h
  | sysReset f => exact execSysReset_keeps f s h
  | notifySubscribe f => exact execNotifySubscribe_keeps f s h
  | notifyFetch f => exact execNotifyFetch_keeps f s h
  | sessionChallenge f => exact execSessionChallenge_keeps f s h
  | sessionOpen f => exact execSessionOpen_keeps f s h
  | sessionClose f => exact execSessionClose_keeps f s h
  | sessionList f => exact execSessionList_keeps f s h
  | regRead f => exact execRegRead_keeps f s h
  | regWrite f => exact execRegWrite_keeps f s h
  | registerWrite tile blk off value => exact execRegisterWrite_keeps tile blk off value s h
  | challengeExpiry id => exact execChallengeExpiry_keeps id s h
  | sessionIdleExpiry point => exact execSessionIdleExpiry_keeps point s h
  | lockoutExpiry role => exact execLockoutExpiry_keeps role s h
  | setEndpointId op eid => exact execSetEndpointId_keeps op eid s h
  | getEndpointId => exact execGetEndpointId_keeps s h
  | getMctpVersionSupport msgType => exact execGetMctpVersionSupport_keeps msgType s h
  | getMessageTypeSupport => exact execGetMessageTypeSupport_keeps s h
  | getVendorMessageSupport sel => exact execGetVendorMessageSupport_keeps sel s h
  | netStatus f => exact execNetStatus_keeps f s h
  | netPortSet f => exact execNetPortSet_keeps f s h
  | netAddrSet f => exact execNetAddrSet_keeps f s h
  | netDcbSet f => exact execNetDcbSet_keeps f s h
  | rmaConfig f => exact execRmaConfig_keeps f s h
  | qpList f => exact execQpList_keeps f s h
  | qpInfo f => exact execQpInfo_keeps f s h
  | qpKill f => exact execQpKill_keeps f s h
  | powerStatus f => exact execPowerStatus_keeps f s h
  | powerSleep f => exact execPowerSleep_keeps f s h
  | powerConfig f => exact execPowerConfig_keeps f s h
  | wakeTimerSet f => exact execWakeTimerSet_keeps f s h
  | sleepAborted => exact execSleepAborted_keeps s h
  | wake => exact execWake_keeps s h
  | twbStatus f => exact execTwbStatus_keeps f s h
  | twbConfig f => exact execTwbConfig_keeps f s h
  | regionCreate f => exact execRegionCreate_keeps f s h
  | regionDelete f => exact execRegionDelete_keeps f s h
  | regionRekey f => exact execRegionRekey_keeps f s h
  | regionSetFlags f => exact execRegionSetFlags_keeps f s h
  | regionQuery f => exact execRegionQuery_keeps f s h
  | regionList f => exact execRegionList_keeps f s h
  | chainCreate f => exact execChainCreate_keeps f s h
  | chainDelete f => exact execChainDelete_keeps f s h
  | chainReset f => exact execChainReset_keeps f s h
  | chainPost f => exact execChainPost_keeps f s h
  | chainStatus f => exact execChainStatus_keeps f s h
  | tierQuery f => exact execTierQuery_keeps f s h
  | homeQuery f => exact execHomeQuery_keeps f s h
  | planLoadBegin f => exact execPlanLoadBegin_keeps f s h
  | planLoadData f => exact execPlanLoadData_keeps f s h
  | planLoadEnd f => exact execPlanLoadEnd_keeps f s h
  | planActivate f => exact execPlanActivate_keeps f s h
  | planDeactivate f => exact execPlanDeactivate_keeps f s h
  | planUnload f => exact execPlanUnload_keeps f s h
  | planStatus f => exact execPlanStatus_keeps f s h
  | moveExtents f => exact execMoveExtents_keeps f s h
  | moveCancel f => exact execMoveCancel_keeps f s h
  | moveStatus f => exact execMoveStatus_keeps f s h
  | nearSizeSet f => exact execNearSizeSet_keeps f s h
  | cacheStatus f => exact execCacheStatus_keeps f s h
  | cacheConfig f => exact execCacheConfig_keeps f s h
  | cacheMaint f => exact execCacheMaint_keeps f s h
  | dramStatus f => exact execDramStatus_keeps f s h
  | dramSpeedSet f => exact execDramSpeedSet_keeps f s h
  | dramTsetWrite f => exact execDramTsetWrite_keeps f s h
  | dramMapSet f => exact execDramMapSet_keeps f s h
  | dramRetrain f => exact execDramRetrain_keeps f s h
  | dramTrainResults f => exact execDramTrainResults_keeps f s h
  | dramTrainClear f => exact execDramTrainClear_keeps f s h
  | dramPpr f => exact execDramPpr_keeps f s h
  | decStatus f => exact execDecStatus_keeps f s h
  | decLogRead f => exact execDecLogRead_keeps f s h
  | decLogClear f => exact execDecLogClear_keeps f s h
  | decRetire f => exact execDecRetire_keeps f s h
  | decPolicySet f => exact execDecPolicySet_keeps f s h
  | decScrubSet f => exact execDecScrubSet_keeps f s h
  | decInject f => exact execDecInject_keeps f s h
  | deepStatus f => exact execDeepStatus_keeps f s h
  | deepBlockInfo f => exact execDeepBlockInfo_keeps f s h
  | deepConfig f => exact execDeepConfig_keeps f s h
  | deepRetireBlock f => exact execDeepRetireBlock_keeps f s h
  | deepFormat f => exact execDeepFormat_keeps f s h
  | deepRebuild f => exact execDeepRebuild_keeps f s h
  | persistStatus f => exact execPersistStatus_keeps f s h
  | ceilingSet f => exact execCeilingSet_keeps f s h
  | freezePowerSet f => exact execFreezePowerSet_keeps f s h
  | firnConfig f => exact execFirnConfig_keeps f s h
  | freezeReportRead f => exact execFreezeReportRead_keeps f s h
  | freezeTest f => exact execFreezeTest_keeps f s h
  | twinStatus f => exact execTwinStatus_keeps f s h
  | twinConfig f => exact execTwinConfig_keeps f s h
  | twinSwap f => exact execTwinSwap_keeps f s h
  | twinLeave f => exact execTwinLeave_keeps f s h
  | twinResync f => exact execTwinResync_keeps f s h
  | twinFaultClear f => exact execTwinFaultClear_keeps f s h
  | twinForceSolo f => exact execTwinForceSolo_keeps f s h
  | feedStatus f => exact execFeedStatus_keeps f s h
  | feedStreamSet f => exact execFeedStreamSet_keeps f s h
  | feedStreamClear f => exact execFeedStreamClear_keeps f s h
  | feedStart f => exact execFeedStart_keeps f s h
  | feedStop f => exact execFeedStop_keeps f s h
  | feedAdmitCheck f => exact execFeedAdmitCheck_keeps f s h
  | feedMapLoad f => exact execFeedMapLoad_keeps f s h
  | feedMapSwitch f => exact execFeedMapSwitch_keeps f s h
  | feedLaneConfig f => exact execFeedLaneConfig_keeps f s h
  | feedLaneSpare f => exact execFeedLaneSpare_keeps f s h
  | feedLaneRestore f => exact execFeedLaneRestore_keeps f s h
  | eventRead f => exact execEventRead_keeps f s h
  | eventStatus f => exact execEventStatus_keeps f s h
  | eventConfig f => exact execEventConfig_keeps f s h
  | timeSet f => exact execTimeSet_keeps f s h
  | timeGet f => exact execTimeGet_keeps f s h
  | fwStatus f => exact execFwStatus_keeps f s h
  | fwUpdateBegin f => exact execFwUpdateBegin_keeps f s h
  | fwUpdateData f => exact execFwUpdateData_keeps f s h
  | fwUpdateEnd f => exact execFwUpdateEnd_keeps f s h
  | fwActivate f => exact execFwActivate_keeps f s h
  | fwCommit f => exact execFwCommit_keeps f s h
  | fwUpdateAbort f => exact execFwUpdateAbort_keeps f s h
  | fwManifestRead f => exact execFwManifestRead_keeps f s h
  | selftestReport f => exact execSelftestReport_keeps f s h
  | monitorRead f => exact execMonitorRead_keeps f s h
  | bankConfig f => exact execBankConfig_keeps f s h
  | nvStatus f => exact execNvStatus_keeps f s h
  | nvFactoryRead f => exact execNvFactoryRead_keeps f s h
  | nvFactoryWrite f => exact execNvFactoryWrite_keeps f s h
  | nvFactoryErase f => exact execNvFactoryErase_keeps f s h
  | nvScan f differ => exact execNvScan_keeps f differ s h
  | otpRead f => exact execOtpRead_keeps f s h
  | otpProgram f ok => exact execOtpProgram_keeps f ok s h
  | keyStatus f => exact execKeyStatus_keeps f s h
  | keyRoleSet f => exact execKeyRoleSet_keeps f s h
  | keyPairSet f => exact execKeyPairSet_keeps f s h
  | keyMacsecRekey f => exact execKeyMacsecRekey_keeps f s h
  | keySelftest f ok => exact execKeySelftest_keeps f ok s h
  | marginSchedule tile differ => exact execMarginSchedule_keeps tile differ s h
  | nvsKeyWrite tile master value late => exact execNvsKeyWrite_keeps tile master value late s h
  | nvsUnlockTimeout tile => exact execNvsUnlockTimeout_keeps tile s h
  | program tile master addr data pulses => exact execProgram_keeps tile master addr data pulses s h
  | erase tile master addr ok => exact execErase_keeps tile master addr ok s h
  | blankCheck tile master addr => exact execBlankCheck_keeps tile master addr s h
  | marginRead tile master addr differs => exact execMarginRead_keeps tile master addr differs s h
  | swap tile master addr => exact execSwap_keeps tile master addr s h
  | nvsOperationEnd tile => exact execNvsOperationEnd_keeps tile s h
  | enc submitter q => exact execEnc_keeps submitter q s h
  | dec submitter q => exact execDec_keeps submitter q s h
  | ctr submitter q => exact execCtr_keeps submitter q s h
  | generate submitter q => exact execGenerate_keeps submitter q s h
  | drbgReseed => exact execDrbgReseed_keeps s h
  | healthFail => exact execHealthFail_keeps s h
  | entropyRestart ok => exact execEntropyRestart_keeps ok s h
  | kseQueueCheck submitter free => exact execKseQueueCheck_keeps submitter free s h
  | eventArrival tile => exact execEventArrival_keeps tile s h
  | openWindowEnd => exact execOpenWindowEnd_keeps s h
  | recordCommit => exact execRecordCommit_keeps s h
  | blockWrite cmd bytes kHz => exact execBlockWrite_keeps cmd bytes kHz s h
  | blockRead done kHz => exact execBlockRead_keeps done kHz s h
  | readByte kHz => exact execReadByte_keeps kHz s h
  | addressMatchSleep x kHz => exact execAddressMatchSleep_keeps x kHz s h
  | hostNotify e => exact execHostNotify_keeps e s h
  | hostNotifyRepeat e => exact execHostNotifyRepeat_keeps e s h
  | arbBackoffExpiry e => exact execArbBackoffExpiry_keeps e s h
  | busError => exact execBusError_keeps s h
  | sclTimeout => exact execSclTimeout_keeps s h
  | busRecovery pulses => exact execBusRecovery_keeps pulses s h
  | linkRetired tile peer => exact execLinkRetired_keeps tile peer s h
  | faultEntry tile cause => exact execFaultEntry_keeps tile cause s h
  | wayPowerUpDone tile way => exact execWayPowerUpDone_keeps tile way s h
  | blockEraseDone tile stripe us => exact execBlockEraseDone_keeps tile stripe us s h
  | deepRebuildDone tile => exact execDeepRebuildDone_keeps tile s h
  | sleepCleanTimeout => exact execSleepCleanTimeout_keeps s h
  | hbtxWordSend => exact execHbtxWordSend_keeps s h
  | blockLock tile lane => exact execBlockLock_keeps tile lane s h
  | feedCoverTimeout stream => exact execFeedCoverTimeout_keeps stream s h
  | xtalOk => exact execXtalOk_keeps s h
  | serviceAnnounceRepeat => exact execServiceAnnounceRepeat_keeps s h

end Sys2Proof.Machine
end

