-- ==== Sys2Proof/Laws/KeepTick.lean ====
section
/-! SUPPORT. What no command changes is kept by every function of `Machine/Tick.lean`. -/

set_option linter.all false

namespace Sys2Proof.Machine

theorem State.tickChannel_keeps {z : State} (s : State) (t c : Nat) (h_s : Machine.Keeps z s) : Machine.Keeps z (State.tickChannel s t c) := by
  unfold State.tickChannel
  try dsimp only
  repeat' (first | with_reducible (first | assumption | intro _ | apply State.endRun_keeps | apply State.overRepair_keeps | apply State.setC_keeps | apply State.tryRepair_keeps | apply keeps_ite) | split)

theorem State.tickTile_keeps {z : State} (s : State) (t : Nat) (h_s : Machine.Keeps z s) : Machine.Keeps z (State.tickTile s t) := by
  unfold State.tickTile
  try dsimp only
  repeat' (first | with_reducible (first | assumption | intro _ | apply State.beginChange_keeps | apply State.flushDue_keeps | apply State.kmOut_keeps | apply State.tickChannel_keeps | apply keeps_foldl | apply keeps_foldl_snd | apply keeps_foldl_fst))

theorem State.tick_keeps {z : State} (s : State) (h_s : Machine.Keeps z { s with now := s.now + 1 }) : Machine.Keeps z s.tick :=
  State.sleepProceed_keeps _ (State.swapProceed_keeps _ (State.answerMaint_keeps _ (State.allTiles_keeps _ _ h_s (fun _ _ h => State.tickTile_keeps _ _ h))))

end Sys2Proof.Machine
end

