-- ==== Sys2Proof/Laws/Memory.lean ====
section
/-! SUPPORT. The laws of memory: a byte written reads back, every other byte of every space stands, and an erased range reads as unwritten. -/

namespace Sys2Proof.Machine

theorem Space.code_le (x : Space) : x.code ≤ 4 := by cases x <;> decide

theorem Space.code_inj {x y : Space} (h : x.code = y.code) : x = y := by cases x <;> cases y <;> first | rfl | cases h

/-- Keys of tiles and addresses of their sizes are distinct. -/
theorem memKey_inj {sp sq : Space} {t a u b : Nat} (ht : t < 256) (hu : u < 256) (ha : a < 2 ^ 60) (hb : b < 2 ^ 60)
    (h : memKey sq u b = memKey sp t a) : sq = sp ∧ u = t ∧ b = a := by
  unfold memKey at h
  have h1 := sp.code_le
  have h2 := sq.code_le
  exact ⟨Space.code_inj (by omega), by omega, by omega⟩

theorem byte_setByte_self (s : State) (sp : Space) (t a : Nat) (v : Byte) : (s.setByte sp t a v).byte sp t a = v := by
  unfold State.byte State.setByte
  exact amapGet_set_self _ _ _ _

theorem byte_setByte_ne (s : State) (sp sq : Space) (t a u b : Nat) (v : Byte) (h : memKey sq u b ≠ memKey sp t a) :
    (s.setByte sp t a v).byte sq u b = s.byte sq u b := by
  unfold State.byte State.setByte
  exact amapGet_set_ne _ _ _ _ h

/-- Bytes written leave every byte outside them. -/
theorem byte_setBytes_ne (l : List Byte) : ∀ (s : State) (sp sq : Space) (t a u b : Nat), t < 256 → u < 256 → a + l.length ≤ 2 ^ 60 →
    b < 2 ^ 60 → ¬(sq = sp ∧ u = t ∧ a ≤ b ∧ b < a + l.length) → (s.setBytes sp t a l).byte sq u b = s.byte sq u b := by
  induction l with
  | nil => intros; rfl
  | cons x l ih =>
    intro s sp sq t a u b h1 h2 h3 h4 h5
    rw [List.length_cons] at h3 h5
    unfold State.setBytes
    rw [ih _ _ _ _ _ _ _ h1 h2 (by omega) h4 (fun ⟨e1, e2, e3, e4⟩ => h5 ⟨e1, e2, by omega, by omega⟩)]
    refine byte_setByte_ne _ _ _ _ _ _ _ _ (fun e => h5 ?_)
    obtain ⟨e1, e2, e3⟩ := memKey_inj h1 h2 (by omega) h4 e
    exact ⟨e1, e2, by omega, by omega⟩

/-- Bytes written read back. -/
theorem bytes_setBytes (l : List Byte) : ∀ (s : State) (sp : Space) (t a : Nat), t < 256 → a + l.length ≤ 2 ^ 60 →
    (s.setBytes sp t a l).bytes sp t a l.length = l := by
  induction l with
  | nil => intros; rfl
  | cons x l ih =>
    intro s sp t a h1 h2
    rw [List.length_cons] at h2 ⊢
    unfold State.setBytes State.bytes
    rw [ih _ _ _ _ h1 (by omega), byte_setBytes_ne l _ sp sp t (a + 1) t a h1 h1 (by omega) (by omega) (fun e => by omega),
      byte_setByte_self]

theorem amapGet_filter_in {α : Type} (d : α) (p : Nat × α → Bool) (l : List (Nat × α)) (k : Nat) (h : ∀ v, p (k, v) = true) :
    amapGet d (l.filter p) k = amapGet d l k := by
  unfold amapGet
  congr 1
  induction l with
  | nil => rfl
  | cons e l ih =>
    obtain ⟨j, v⟩ := e
    rw [List.filter_cons]
    by_cases hj : j = k
    · subst hj; rw [if_pos (h v)]; simp [amapFind]
    · split <;> simp [amapFind, hj, ih]

theorem amapGet_filter_out {α : Type} (d : α) (p : Nat × α → Bool) (l : List (Nat × α)) (k : Nat) (h : ∀ v, p (k, v) = false) :
    amapGet d (l.filter p) k = d := by
  unfold amapGet
  have : amapFind k (l.filter p) = none := by
    induction l with
    | nil => rfl
    | cons e l ih =>
      obtain ⟨j, v⟩ := e
      rw [List.filter_cons]
      by_cases hj : j = k
      · subst hj; rw [if_neg (by simp [h v])]; exact ih
      · split
        · simp [amapFind, hj, ih]
        · exact ih
  rw [this]; rfl

/-- A wiped range reads as nothing has written it. -/
theorem byte_wipe_in (s : State) (sp : Space) (t a n b : Nat) (h1 : a ≤ b) (h2 : b < a + n) :
    (s.wipe sp t a n).byte sp t b = erasedByte (memKey sp t b) := by
  unfold State.byte State.wipe
  refine amapGet_filter_out _ _ _ _ (fun v => ?_)
  have : memKey sp t a ≤ memKey sp t b ∧ memKey sp t b < memKey sp t (a + n) := by unfold memKey; omega
  simp [this]

/-- A wiped range leaves every byte outside it. -/
theorem byte_wipe_out (s : State) (sp sq : Space) (t a n u b : Nat) (h1 : t < 256) (h2 : u < 256) (h3 : a + n ≤ 2 ^ 60) (h4 : b < 2 ^ 60)
    (h : ¬(sq = sp ∧ u = t ∧ a ≤ b ∧ b < a + n)) : (s.wipe sp t a n).byte sq u b = s.byte sq u b := by
  unfold State.byte State.wipe
  refine amapGet_filter_in _ _ _ _ (fun v => ?_)
  have : ¬(memKey sp t a ≤ memKey sq u b ∧ memKey sq u b < memKey sp t (a + n)) := by
    intro ⟨e1, e2⟩
    apply h
    unfold memKey at e1 e2
    have := sp.code_le
    have := sq.code_le
    exact ⟨Space.code_inj (by omega), by omega, by omega, by omega⟩
  simp only [Bool.not_eq_true', Bool.and_eq_false_iff, decide_eq_false_iff_not]
  omega

/-- Bytes of a state with the same memory. -/
theorem byte_congr {a b : State} (h : b.mem = a.mem) (sp : Space) (t x : Nat) : b.byte sp t x = a.byte sp t x := by
  unfold State.byte; rw [h]

end Sys2Proof.Machine
end

