-- ==== Sys2Proof/Laws/State.lean ====
section
/-! SUPPORT. What each update of the state leaves: one lemma per field per update. -/

namespace Sys2Proof.Machine

/-! ### { s with ams := v } -/

theorem State.with_ams_pending (s : State) (v : Ams) : ({ s with ams := v } : State).pending = s.pending := rfl
theorem State.with_ams_now (s : State) (v : Ams) : ({ s with ams := v } : State).now = s.now := rfl
theorem State.with_ams_tiles (s : State) (v : Ams) : ({ s with ams := v } : State).tiles = s.tiles := rfl
theorem State.with_ams_freeCtr (s : State) (v : Ams) : ({ s with ams := v } : State).freeCtr = s.freeCtr := rfl
theorem State.with_ams_regs (s : State) (v : Ams) : ({ s with ams := v } : State).regs = s.regs := rfl
theorem State.with_ams_mem (s : State) (v : Ams) : ({ s with ams := v } : State).mem = s.mem := rfl
theorem State.with_ams_otp (s : State) (v : Ams) : ({ s with ams := v } : State).otp = s.otp := rfl
theorem State.with_ams_recd (s : State) (v : Ams) : ({ s with ams := v } : State).recd = s.recd := rfl
theorem State.with_ams_mb (s : State) (v : Ams) : ({ s with ams := v } : State).mb = s.mb := rfl
theorem State.with_ams_kse (s : State) (v : Ams) : ({ s with ams := v } : State).kse = s.kse := rfl
theorem State.with_ams_nvs (s : State) (v : Ams) : ({ s with ams := v } : State).nvs = s.nvs := rfl
theorem State.with_ams_nv (s : State) (v : Ams) : ({ s with ams := v } : State).nv = s.nv := rfl
theorem State.with_ams_boot (s : State) (v : Ams) : ({ s with ams := v } : State).boot = s.boot := rfl
theorem State.with_ams_pow (s : State) (v : Ams) : ({ s with ams := v } : State).pow = s.pow := rfl
theorem State.with_ams_twb (s : State) (v : Ams) : ({ s with ams := v } : State).twb = s.twb := rfl
theorem State.with_ams_out (s : State) (v : Ams) : ({ s with ams := v } : State).out = s.out := rfl
theorem State.with_ams_cache (s : State) (v : Ams) : ({ s with ams := v } : State).cache = s.cache := rfl
theorem State.with_ams_firn (s : State) (v : Ams) : ({ s with ams := v } : State).firn = s.firn := rfl
theorem State.with_ams_frzRun (s : State) (v : Ams) : ({ s with ams := v } : State).frzRun = s.frzRun := rfl
theorem State.with_ams_net (s : State) (v : Ams) : ({ s with ams := v } : State).net = s.net := rfl
theorem State.with_ams_twin (s : State) (v : Ams) : ({ s with ams := v } : State).twin = s.twin := rfl
theorem State.with_ams_board (s : State) (v : Ams) : ({ s with ams := v } : State).board = s.board := rfl
theorem State.with_ams_dram (s : State) (v : Ams) : ({ s with ams := v } : State).dram = s.dram := rfl
theorem State.with_ams_dec (s : State) (v : Ams) : ({ s with ams := v } : State).dec = s.dec := rfl
theorem State.with_ams_deep (s : State) (v : Ams) : ({ s with ams := v } : State).deep = s.deep := rfl
theorem State.with_ams_feed (s : State) (v : Ams) : ({ s with ams := v } : State).feed = s.feed := rfl

/-! ### { s with cache := v } -/

theorem State.with_cache_pending (s : State) (v : CacheSt) : ({ s with cache := v } : State).pending = s.pending := rfl
theorem State.with_cache_now (s : State) (v : CacheSt) : ({ s with cache := v } : State).now = s.now := rfl
theorem State.with_cache_tiles (s : State) (v : CacheSt) : ({ s with cache := v } : State).tiles = s.tiles := rfl
theorem State.with_cache_freeCtr (s : State) (v : CacheSt) : ({ s with cache := v } : State).freeCtr = s.freeCtr := rfl
theorem State.with_cache_regs (s : State) (v : CacheSt) : ({ s with cache := v } : State).regs = s.regs := rfl
theorem State.with_cache_mem (s : State) (v : CacheSt) : ({ s with cache := v } : State).mem = s.mem := rfl
theorem State.with_cache_otp (s : State) (v : CacheSt) : ({ s with cache := v } : State).otp = s.otp := rfl
theorem State.with_cache_recd (s : State) (v : CacheSt) : ({ s with cache := v } : State).recd = s.recd := rfl
theorem State.with_cache_mb (s : State) (v : CacheSt) : ({ s with cache := v } : State).mb = s.mb := rfl
theorem State.with_cache_kse (s : State) (v : CacheSt) : ({ s with cache := v } : State).kse = s.kse := rfl
theorem State.with_cache_nvs (s : State) (v : CacheSt) : ({ s with cache := v } : State).nvs = s.nvs := rfl
theorem State.with_cache_nv (s : State) (v : CacheSt) : ({ s with cache := v } : State).nv = s.nv := rfl
theorem State.with_cache_boot (s : State) (v : CacheSt) : ({ s with cache := v } : State).boot = s.boot := rfl
theorem State.with_cache_pow (s : State) (v : CacheSt) : ({ s with cache := v } : State).pow = s.pow := rfl
theorem State.with_cache_twb (s : State) (v : CacheSt) : ({ s with cache := v } : State).twb = s.twb := rfl
theorem State.with_cache_out (s : State) (v : CacheSt) : ({ s with cache := v } : State).out = s.out := rfl
theorem State.with_cache_ams (s : State) (v : CacheSt) : ({ s with cache := v } : State).ams = s.ams := rfl
theorem State.with_cache_firn (s : State) (v : CacheSt) : ({ s with cache := v } : State).firn = s.firn := rfl
theorem State.with_cache_frzRun (s : State) (v : CacheSt) : ({ s with cache := v } : State).frzRun = s.frzRun := rfl
theorem State.with_cache_net (s : State) (v : CacheSt) : ({ s with cache := v } : State).net = s.net := rfl
theorem State.with_cache_twin (s : State) (v : CacheSt) : ({ s with cache := v } : State).twin = s.twin := rfl
theorem State.with_cache_board (s : State) (v : CacheSt) : ({ s with cache := v } : State).board = s.board := rfl
theorem State.with_cache_dram (s : State) (v : CacheSt) : ({ s with cache := v } : State).dram = s.dram := rfl
theorem State.with_cache_dec (s : State) (v : CacheSt) : ({ s with cache := v } : State).dec = s.dec := rfl
theorem State.with_cache_deep (s : State) (v : CacheSt) : ({ s with cache := v } : State).deep = s.deep := rfl
theorem State.with_cache_feed (s : State) (v : CacheSt) : ({ s with cache := v } : State).feed = s.feed := rfl

/-! ### { s with dec := v } -/

theorem State.with_dec_pending (s : State) (v : DecSt) : ({ s with dec := v } : State).pending = s.pending := rfl
theorem State.with_dec_now (s : State) (v : DecSt) : ({ s with dec := v } : State).now = s.now := rfl
theorem State.with_dec_tiles (s : State) (v : DecSt) : ({ s with dec := v } : State).tiles = s.tiles := rfl
theorem State.with_dec_freeCtr (s : State) (v : DecSt) : ({ s with dec := v } : State).freeCtr = s.freeCtr := rfl
theorem State.with_dec_regs (s : State) (v : DecSt) : ({ s with dec := v } : State).regs = s.regs := rfl
theorem State.with_dec_mem (s : State) (v : DecSt) : ({ s with dec := v } : State).mem = s.mem := rfl
theorem State.with_dec_otp (s : State) (v : DecSt) : ({ s with dec := v } : State).otp = s.otp := rfl
theorem State.with_dec_recd (s : State) (v : DecSt) : ({ s with dec := v } : State).recd = s.recd := rfl
theorem State.with_dec_mb (s : State) (v : DecSt) : ({ s with dec := v } : State).mb = s.mb := rfl
theorem State.with_dec_kse (s : State) (v : DecSt) : ({ s with dec := v } : State).kse = s.kse := rfl
theorem State.with_dec_nvs (s : State) (v : DecSt) : ({ s with dec := v } : State).nvs = s.nvs := rfl
theorem State.with_dec_nv (s : State) (v : DecSt) : ({ s with dec := v } : State).nv = s.nv := rfl
theorem State.with_dec_boot (s : State) (v : DecSt) : ({ s with dec := v } : State).boot = s.boot := rfl
theorem State.with_dec_pow (s : State) (v : DecSt) : ({ s with dec := v } : State).pow = s.pow := rfl
theorem State.with_dec_twb (s : State) (v : DecSt) : ({ s with dec := v } : State).twb = s.twb := rfl
theorem State.with_dec_out (s : State) (v : DecSt) : ({ s with dec := v } : State).out = s.out := rfl
theorem State.with_dec_ams (s : State) (v : DecSt) : ({ s with dec := v } : State).ams = s.ams := rfl
theorem State.with_dec_cache (s : State) (v : DecSt) : ({ s with dec := v } : State).cache = s.cache := rfl
theorem State.with_dec_firn (s : State) (v : DecSt) : ({ s with dec := v } : State).firn = s.firn := rfl
theorem State.with_dec_frzRun (s : State) (v : DecSt) : ({ s with dec := v } : State).frzRun = s.frzRun := rfl
theorem State.with_dec_net (s : State) (v : DecSt) : ({ s with dec := v } : State).net = s.net := rfl
theorem State.with_dec_twin (s : State) (v : DecSt) : ({ s with dec := v } : State).twin = s.twin := rfl
theorem State.with_dec_board (s : State) (v : DecSt) : ({ s with dec := v } : State).board = s.board := rfl
theorem State.with_dec_dram (s : State) (v : DecSt) : ({ s with dec := v } : State).dram = s.dram := rfl
theorem State.with_dec_deep (s : State) (v : DecSt) : ({ s with dec := v } : State).deep = s.deep := rfl
theorem State.with_dec_feed (s : State) (v : DecSt) : ({ s with dec := v } : State).feed = s.feed := rfl

/-! ### { s with deep := v } -/

theorem State.with_deep_pending (s : State) (v : DeepSt) : ({ s with deep := v } : State).pending = s.pending := rfl
theorem State.with_deep_now (s : State) (v : DeepSt) : ({ s with deep := v } : State).now = s.now := rfl
theorem State.with_deep_tiles (s : State) (v : DeepSt) : ({ s with deep := v } : State).tiles = s.tiles := rfl
theorem State.with_deep_freeCtr (s : State) (v : DeepSt) : ({ s with deep := v } : State).freeCtr = s.freeCtr := rfl
theorem State.with_deep_regs (s : State) (v : DeepSt) : ({ s with deep := v } : State).regs = s.regs := rfl
theorem State.with_deep_mem (s : State) (v : DeepSt) : ({ s with deep := v } : State).mem = s.mem := rfl
theorem State.with_deep_otp (s : State) (v : DeepSt) : ({ s with deep := v } : State).otp = s.otp := rfl
theorem State.with_deep_recd (s : State) (v : DeepSt) : ({ s with deep := v } : State).recd = s.recd := rfl
theorem State.with_deep_mb (s : State) (v : DeepSt) : ({ s with deep := v } : State).mb = s.mb := rfl
theorem State.with_deep_kse (s : State) (v : DeepSt) : ({ s with deep := v } : State).kse = s.kse := rfl
theorem State.with_deep_nvs (s : State) (v : DeepSt) : ({ s with deep := v } : State).nvs = s.nvs := rfl
theorem State.with_deep_nv (s : State) (v : DeepSt) : ({ s with deep := v } : State).nv = s.nv := rfl
theorem State.with_deep_boot (s : State) (v : DeepSt) : ({ s with deep := v } : State).boot = s.boot := rfl
theorem State.with_deep_pow (s : State) (v : DeepSt) : ({ s with deep := v } : State).pow = s.pow := rfl
theorem State.with_deep_twb (s : State) (v : DeepSt) : ({ s with deep := v } : State).twb = s.twb := rfl
theorem State.with_deep_out (s : State) (v : DeepSt) : ({ s with deep := v } : State).out = s.out := rfl
theorem State.with_deep_ams (s : State) (v : DeepSt) : ({ s with deep := v } : State).ams = s.ams := rfl
theorem State.with_deep_cache (s : State) (v : DeepSt) : ({ s with deep := v } : State).cache = s.cache := rfl
theorem State.with_deep_firn (s : State) (v : DeepSt) : ({ s with deep := v } : State).firn = s.firn := rfl
theorem State.with_deep_frzRun (s : State) (v : DeepSt) : ({ s with deep := v } : State).frzRun = s.frzRun := rfl
theorem State.with_deep_net (s : State) (v : DeepSt) : ({ s with deep := v } : State).net = s.net := rfl
theorem State.with_deep_twin (s : State) (v : DeepSt) : ({ s with deep := v } : State).twin = s.twin := rfl
theorem State.with_deep_board (s : State) (v : DeepSt) : ({ s with deep := v } : State).board = s.board := rfl
theorem State.with_deep_dram (s : State) (v : DeepSt) : ({ s with deep := v } : State).dram = s.dram := rfl
theorem State.with_deep_dec (s : State) (v : DeepSt) : ({ s with deep := v } : State).dec = s.dec := rfl
theorem State.with_deep_feed (s : State) (v : DeepSt) : ({ s with deep := v } : State).feed = s.feed := rfl

/-! ### { s with dram := v } -/

theorem State.with_dram_pending (s : State) (v : List DramCh) : ({ s with dram := v } : State).pending = s.pending := rfl
theorem State.with_dram_now (s : State) (v : List DramCh) : ({ s with dram := v } : State).now = s.now := rfl
theorem State.with_dram_tiles (s : State) (v : List DramCh) : ({ s with dram := v } : State).tiles = s.tiles := rfl
theorem State.with_dram_freeCtr (s : State) (v : List DramCh) : ({ s with dram := v } : State).freeCtr = s.freeCtr := rfl
theorem State.with_dram_regs (s : State) (v : List DramCh) : ({ s with dram := v } : State).regs = s.regs := rfl
theorem State.with_dram_mem (s : State) (v : List DramCh) : ({ s with dram := v } : State).mem = s.mem := rfl
theorem State.with_dram_otp (s : State) (v : List DramCh) : ({ s with dram := v } : State).otp = s.otp := rfl
theorem State.with_dram_recd (s : State) (v : List DramCh) : ({ s with dram := v } : State).recd = s.recd := rfl
theorem State.with_dram_mb (s : State) (v : List DramCh) : ({ s with dram := v } : State).mb = s.mb := rfl
theorem State.with_dram_kse (s : State) (v : List DramCh) : ({ s with dram := v } : State).kse = s.kse := rfl
theorem State.with_dram_nvs (s : State) (v : List DramCh) : ({ s with dram := v } : State).nvs = s.nvs := rfl
theorem State.with_dram_nv (s : State) (v : List DramCh) : ({ s with dram := v } : State).nv = s.nv := rfl
theorem State.with_dram_boot (s : State) (v : List DramCh) : ({ s with dram := v } : State).boot = s.boot := rfl
theorem State.with_dram_pow (s : State) (v : List DramCh) : ({ s with dram := v } : State).pow = s.pow := rfl
theorem State.with_dram_twb (s : State) (v : List DramCh) : ({ s with dram := v } : State).twb = s.twb := rfl
theorem State.with_dram_out (s : State) (v : List DramCh) : ({ s with dram := v } : State).out = s.out := rfl
theorem State.with_dram_ams (s : State) (v : List DramCh) : ({ s with dram := v } : State).ams = s.ams := rfl
theorem State.with_dram_cache (s : State) (v : List DramCh) : ({ s with dram := v } : State).cache = s.cache := rfl
theorem State.with_dram_firn (s : State) (v : List DramCh) : ({ s with dram := v } : State).firn = s.firn := rfl
theorem State.with_dram_frzRun (s : State) (v : List DramCh) : ({ s with dram := v } : State).frzRun = s.frzRun := rfl
theorem State.with_dram_net (s : State) (v : List DramCh) : ({ s with dram := v } : State).net = s.net := rfl
theorem State.with_dram_twin (s : State) (v : List DramCh) : ({ s with dram := v } : State).twin = s.twin := rfl
theorem State.with_dram_board (s : State) (v : List DramCh) : ({ s with dram := v } : State).board = s.board := rfl
theorem State.with_dram_dec (s : State) (v : List DramCh) : ({ s with dram := v } : State).dec = s.dec := rfl
theorem State.with_dram_deep (s : State) (v : List DramCh) : ({ s with dram := v } : State).deep = s.deep := rfl
theorem State.with_dram_feed (s : State) (v : List DramCh) : ({ s with dram := v } : State).feed = s.feed := rfl

/-! ### { s with feed := v } -/

theorem State.with_feed_pending (s : State) (v : Feed) : ({ s with feed := v } : State).pending = s.pending := rfl
theorem State.with_feed_now (s : State) (v : Feed) : ({ s with feed := v } : State).now = s.now := rfl
theorem State.with_feed_tiles (s : State) (v : Feed) : ({ s with feed := v } : State).tiles = s.tiles := rfl
theorem State.with_feed_freeCtr (s : State) (v : Feed) : ({ s with feed := v } : State).freeCtr = s.freeCtr := rfl
theorem State.with_feed_regs (s : State) (v : Feed) : ({ s with feed := v } : State).regs = s.regs := rfl
theorem State.with_feed_mem (s : State) (v : Feed) : ({ s with feed := v } : State).mem = s.mem := rfl
theorem State.with_feed_otp (s : State) (v : Feed) : ({ s with feed := v } : State).otp = s.otp := rfl
theorem State.with_feed_recd (s : State) (v : Feed) : ({ s with feed := v } : State).recd = s.recd := rfl
theorem State.with_feed_mb (s : State) (v : Feed) : ({ s with feed := v } : State).mb = s.mb := rfl
theorem State.with_feed_kse (s : State) (v : Feed) : ({ s with feed := v } : State).kse = s.kse := rfl
theorem State.with_feed_nvs (s : State) (v : Feed) : ({ s with feed := v } : State).nvs = s.nvs := rfl
theorem State.with_feed_nv (s : State) (v : Feed) : ({ s with feed := v } : State).nv = s.nv := rfl
theorem State.with_feed_boot (s : State) (v : Feed) : ({ s with feed := v } : State).boot = s.boot := rfl
theorem State.with_feed_pow (s : State) (v : Feed) : ({ s with feed := v } : State).pow = s.pow := rfl
theorem State.with_feed_twb (s : State) (v : Feed) : ({ s with feed := v } : State).twb = s.twb := rfl
theorem State.with_feed_out (s : State) (v : Feed) : ({ s with feed := v } : State).out = s.out := rfl
theorem State.with_feed_ams (s : State) (v : Feed) : ({ s with feed := v } : State).ams = s.ams := rfl
theorem State.with_feed_cache (s : State) (v : Feed) : ({ s with feed := v } : State).cache = s.cache := rfl
theorem State.with_feed_firn (s : State) (v : Feed) : ({ s with feed := v } : State).firn = s.firn := rfl
theorem State.with_feed_frzRun (s : State) (v : Feed) : ({ s with feed := v } : State).frzRun = s.frzRun := rfl
theorem State.with_feed_net (s : State) (v : Feed) : ({ s with feed := v } : State).net = s.net := rfl
theorem State.with_feed_twin (s : State) (v : Feed) : ({ s with feed := v } : State).twin = s.twin := rfl
theorem State.with_feed_board (s : State) (v : Feed) : ({ s with feed := v } : State).board = s.board := rfl
theorem State.with_feed_dram (s : State) (v : Feed) : ({ s with feed := v } : State).dram = s.dram := rfl
theorem State.with_feed_dec (s : State) (v : Feed) : ({ s with feed := v } : State).dec = s.dec := rfl
theorem State.with_feed_deep (s : State) (v : Feed) : ({ s with feed := v } : State).deep = s.deep := rfl

/-! ### { s with firn := v } -/

theorem State.with_firn_pending (s : State) (v : Firn) : ({ s with firn := v } : State).pending = s.pending := rfl
theorem State.with_firn_now (s : State) (v : Firn) : ({ s with firn := v } : State).now = s.now := rfl
theorem State.with_firn_tiles (s : State) (v : Firn) : ({ s with firn := v } : State).tiles = s.tiles := rfl
theorem State.with_firn_freeCtr (s : State) (v : Firn) : ({ s with firn := v } : State).freeCtr = s.freeCtr := rfl
theorem State.with_firn_regs (s : State) (v : Firn) : ({ s with firn := v } : State).regs = s.regs := rfl
theorem State.with_firn_mem (s : State) (v : Firn) : ({ s with firn := v } : State).mem = s.mem := rfl
theorem State.with_firn_otp (s : State) (v : Firn) : ({ s with firn := v } : State).otp = s.otp := rfl
theorem State.with_firn_recd (s : State) (v : Firn) : ({ s with firn := v } : State).recd = s.recd := rfl
theorem State.with_firn_mb (s : State) (v : Firn) : ({ s with firn := v } : State).mb = s.mb := rfl
theorem State.with_firn_kse (s : State) (v : Firn) : ({ s with firn := v } : State).kse = s.kse := rfl
theorem State.with_firn_nvs (s : State) (v : Firn) : ({ s with firn := v } : State).nvs = s.nvs := rfl
theorem State.with_firn_nv (s : State) (v : Firn) : ({ s with firn := v } : State).nv = s.nv := rfl
theorem State.with_firn_boot (s : State) (v : Firn) : ({ s with firn := v } : State).boot = s.boot := rfl
theorem State.with_firn_pow (s : State) (v : Firn) : ({ s with firn := v } : State).pow = s.pow := rfl
theorem State.with_firn_twb (s : State) (v : Firn) : ({ s with firn := v } : State).twb = s.twb := rfl
theorem State.with_firn_out (s : State) (v : Firn) : ({ s with firn := v } : State).out = s.out := rfl
theorem State.with_firn_ams (s : State) (v : Firn) : ({ s with firn := v } : State).ams = s.ams := rfl
theorem State.with_firn_cache (s : State) (v : Firn) : ({ s with firn := v } : State).cache = s.cache := rfl
theorem State.with_firn_frzRun (s : State) (v : Firn) : ({ s with firn := v } : State).frzRun = s.frzRun := rfl
theorem State.with_firn_net (s : State) (v : Firn) : ({ s with firn := v } : State).net = s.net := rfl
theorem State.with_firn_twin (s : State) (v : Firn) : ({ s with firn := v } : State).twin = s.twin := rfl
theorem State.with_firn_board (s : State) (v : Firn) : ({ s with firn := v } : State).board = s.board := rfl
theorem State.with_firn_dram (s : State) (v : Firn) : ({ s with firn := v } : State).dram = s.dram := rfl
theorem State.with_firn_dec (s : State) (v : Firn) : ({ s with firn := v } : State).dec = s.dec := rfl
theorem State.with_firn_deep (s : State) (v : Firn) : ({ s with firn := v } : State).deep = s.deep := rfl
theorem State.with_firn_feed (s : State) (v : Firn) : ({ s with firn := v } : State).feed = s.feed := rfl

/-! ### { s with freeCtr := v } -/

theorem State.with_freeCtr_pending (s : State) (v : Nat) : ({ s with freeCtr := v } : State).pending = s.pending := rfl
theorem State.with_freeCtr_now (s : State) (v : Nat) : ({ s with freeCtr := v } : State).now = s.now := rfl
theorem State.with_freeCtr_tiles (s : State) (v : Nat) : ({ s with freeCtr := v } : State).tiles = s.tiles := rfl
theorem State.with_freeCtr_regs (s : State) (v : Nat) : ({ s with freeCtr := v } : State).regs = s.regs := rfl
theorem State.with_freeCtr_mem (s : State) (v : Nat) : ({ s with freeCtr := v } : State).mem = s.mem := rfl
theorem State.with_freeCtr_otp (s : State) (v : Nat) : ({ s with freeCtr := v } : State).otp = s.otp := rfl
theorem State.with_freeCtr_recd (s : State) (v : Nat) : ({ s with freeCtr := v } : State).recd = s.recd := rfl
theorem State.with_freeCtr_mb (s : State) (v : Nat) : ({ s with freeCtr := v } : State).mb = s.mb := rfl
theorem State.with_freeCtr_kse (s : State) (v : Nat) : ({ s with freeCtr := v } : State).kse = s.kse := rfl
theorem State.with_freeCtr_nvs (s : State) (v : Nat) : ({ s with freeCtr := v } : State).nvs = s.nvs := rfl
theorem State.with_freeCtr_nv (s : State) (v : Nat) : ({ s with freeCtr := v } : State).nv = s.nv := rfl
theorem State.with_freeCtr_boot (s : State) (v : Nat) : ({ s with freeCtr := v } : State).boot = s.boot := rfl
theorem State.with_freeCtr_pow (s : State) (v : Nat) : ({ s with freeCtr := v } : State).pow = s.pow := rfl
theorem State.with_freeCtr_twb (s : State) (v : Nat) : ({ s with freeCtr := v } : State).twb = s.twb := rfl
theorem State.with_freeCtr_out (s : State) (v : Nat) : ({ s with freeCtr := v } : State).out = s.out := rfl
theorem State.with_freeCtr_ams (s : State) (v : Nat) : ({ s with freeCtr := v } : State).ams = s.ams := rfl
theorem State.with_freeCtr_cache (s : State) (v : Nat) : ({ s with freeCtr := v } : State).cache = s.cache := rfl
theorem State.with_freeCtr_firn (s : State) (v : Nat) : ({ s with freeCtr := v } : State).firn = s.firn := rfl
theorem State.with_freeCtr_frzRun (s : State) (v : Nat) : ({ s with freeCtr := v } : State).frzRun = s.frzRun := rfl
theorem State.with_freeCtr_net (s : State) (v : Nat) : ({ s with freeCtr := v } : State).net = s.net := rfl
theorem State.with_freeCtr_twin (s : State) (v : Nat) : ({ s with freeCtr := v } : State).twin = s.twin := rfl
theorem State.with_freeCtr_board (s : State) (v : Nat) : ({ s with freeCtr := v } : State).board = s.board := rfl
theorem State.with_freeCtr_dram (s : State) (v : Nat) : ({ s with freeCtr := v } : State).dram = s.dram := rfl
theorem State.with_freeCtr_dec (s : State) (v : Nat) : ({ s with freeCtr := v } : State).dec = s.dec := rfl
theorem State.with_freeCtr_deep (s : State) (v : Nat) : ({ s with freeCtr := v } : State).deep = s.deep := rfl
theorem State.with_freeCtr_feed (s : State) (v : Nat) : ({ s with freeCtr := v } : State).feed = s.feed := rfl

/-! ### { s with mb := v } -/

theorem State.with_mb_pending (s : State) (v : Mailboxes) : ({ s with mb := v } : State).pending = s.pending := rfl
theorem State.with_mb_now (s : State) (v : Mailboxes) : ({ s with mb := v } : State).now = s.now := rfl
theorem State.with_mb_tiles (s : State) (v : Mailboxes) : ({ s with mb := v } : State).tiles = s.tiles := rfl
theorem State.with_mb_freeCtr (s : State) (v : Mailboxes) : ({ s with mb := v } : State).freeCtr = s.freeCtr := rfl
theorem State.with_mb_regs (s : State) (v : Mailboxes) : ({ s with mb := v } : State).regs = s.regs := rfl
theorem State.with_mb_mem (s : State) (v : Mailboxes) : ({ s with mb := v } : State).mem = s.mem := rfl
theorem State.with_mb_otp (s : State) (v : Mailboxes) : ({ s with mb := v } : State).otp = s.otp := rfl
theorem State.with_mb_recd (s : State) (v : Mailboxes) : ({ s with mb := v } : State).recd = s.recd := rfl
theorem State.with_mb_kse (s : State) (v : Mailboxes) : ({ s with mb := v } : State).kse = s.kse := rfl
theorem State.with_mb_nvs (s : State) (v : Mailboxes) : ({ s with mb := v } : State).nvs = s.nvs := rfl
theorem State.with_mb_nv (s : State) (v : Mailboxes) : ({ s with mb := v } : State).nv = s.nv := rfl
theorem State.with_mb_boot (s : State) (v : Mailboxes) : ({ s with mb := v } : State).boot = s.boot := rfl
theorem State.with_mb_pow (s : State) (v : Mailboxes) : ({ s with mb := v } : State).pow = s.pow := rfl
theorem State.with_mb_twb (s : State) (v : Mailboxes) : ({ s with mb := v } : State).twb = s.twb := rfl
theorem State.with_mb_out (s : State) (v : Mailboxes) : ({ s with mb := v } : State).out = s.out := rfl
theorem State.with_mb_ams (s : State) (v : Mailboxes) : ({ s with mb := v } : State).ams = s.ams := rfl
theorem State.with_mb_cache (s : State) (v : Mailboxes) : ({ s with mb := v } : State).cache = s.cache := rfl
theorem State.with_mb_firn (s : State) (v : Mailboxes) : ({ s with mb := v } : State).firn = s.firn := rfl
theorem State.with_mb_frzRun (s : State) (v : Mailboxes) : ({ s with mb := v } : State).frzRun = s.frzRun := rfl
theorem State.with_mb_net (s : State) (v : Mailboxes) : ({ s with mb := v } : State).net = s.net := rfl
theorem State.with_mb_twin (s : State) (v : Mailboxes) : ({ s with mb := v } : State).twin = s.twin := rfl
theorem State.with_mb_board (s : State) (v : Mailboxes) : ({ s with mb := v } : State).board = s.board := rfl
theorem State.with_mb_dram (s : State) (v : Mailboxes) : ({ s with mb := v } : State).dram = s.dram := rfl
theorem State.with_mb_dec (s : State) (v : Mailboxes) : ({ s with mb := v } : State).dec = s.dec := rfl
theorem State.with_mb_deep (s : State) (v : Mailboxes) : ({ s with mb := v } : State).deep = s.deep := rfl
theorem State.with_mb_feed (s : State) (v : Mailboxes) : ({ s with mb := v } : State).feed = s.feed := rfl

/-! ### { s with mem := v } -/

theorem State.with_mem_pending (s : State) (v : List Host.Cell) : ({ s with mem := v } : State).pending = s.pending := rfl
theorem State.with_mem_now (s : State) (v : List Host.Cell) : ({ s with mem := v } : State).now = s.now := rfl
theorem State.with_mem_tiles (s : State) (v : List Host.Cell) : ({ s with mem := v } : State).tiles = s.tiles := rfl
theorem State.with_mem_freeCtr (s : State) (v : List Host.Cell) : ({ s with mem := v } : State).freeCtr = s.freeCtr := rfl
theorem State.with_mem_regs (s : State) (v : List Host.Cell) : ({ s with mem := v } : State).regs = s.regs := rfl
theorem State.with_mem_otp (s : State) (v : List Host.Cell) : ({ s with mem := v } : State).otp = s.otp := rfl
theorem State.with_mem_recd (s : State) (v : List Host.Cell) : ({ s with mem := v } : State).recd = s.recd := rfl
theorem State.with_mem_mb (s : State) (v : List Host.Cell) : ({ s with mem := v } : State).mb = s.mb := rfl
theorem State.with_mem_kse (s : State) (v : List Host.Cell) : ({ s with mem := v } : State).kse = s.kse := rfl
theorem State.with_mem_nvs (s : State) (v : List Host.Cell) : ({ s with mem := v } : State).nvs = s.nvs := rfl
theorem State.with_mem_nv (s : State) (v : List Host.Cell) : ({ s with mem := v } : State).nv = s.nv := rfl
theorem State.with_mem_boot (s : State) (v : List Host.Cell) : ({ s with mem := v } : State).boot = s.boot := rfl
theorem State.with_mem_pow (s : State) (v : List Host.Cell) : ({ s with mem := v } : State).pow = s.pow := rfl
theorem State.with_mem_twb (s : State) (v : List Host.Cell) : ({ s with mem := v } : State).twb = s.twb := rfl
theorem State.with_mem_out (s : State) (v : List Host.Cell) : ({ s with mem := v } : State).out = s.out := rfl
theorem State.with_mem_ams (s : State) (v : List Host.Cell) : ({ s with mem := v } : State).ams = s.ams := rfl
theorem State.with_mem_cache (s : State) (v : List Host.Cell) : ({ s with mem := v } : State).cache = s.cache := rfl
theorem State.with_mem_firn (s : State) (v : List Host.Cell) : ({ s with mem := v } : State).firn = s.firn := rfl
theorem State.with_mem_frzRun (s : State) (v : List Host.Cell) : ({ s with mem := v } : State).frzRun = s.frzRun := rfl
theorem State.with_mem_net (s : State) (v : List Host.Cell) : ({ s with mem := v } : State).net = s.net := rfl
theorem State.with_mem_twin (s : State) (v : List Host.Cell) : ({ s with mem := v } : State).twin = s.twin := rfl
theorem State.with_mem_board (s : State) (v : List Host.Cell) : ({ s with mem := v } : State).board = s.board := rfl
theorem State.with_mem_dram (s : State) (v : List Host.Cell) : ({ s with mem := v } : State).dram = s.dram := rfl
theorem State.with_mem_dec (s : State) (v : List Host.Cell) : ({ s with mem := v } : State).dec = s.dec := rfl
theorem State.with_mem_deep (s : State) (v : List Host.Cell) : ({ s with mem := v } : State).deep = s.deep := rfl
theorem State.with_mem_feed (s : State) (v : List Host.Cell) : ({ s with mem := v } : State).feed = s.feed := rfl

/-! ### { s with net := v } -/

theorem State.with_net_pending (s : State) (v : Net) : ({ s with net := v } : State).pending = s.pending := rfl
theorem State.with_net_now (s : State) (v : Net) : ({ s with net := v } : State).now = s.now := rfl
theorem State.with_net_tiles (s : State) (v : Net) : ({ s with net := v } : State).tiles = s.tiles := rfl
theorem State.with_net_freeCtr (s : State) (v : Net) : ({ s with net := v } : State).freeCtr = s.freeCtr := rfl
theorem State.with_net_regs (s : State) (v : Net) : ({ s with net := v } : State).regs = s.regs := rfl
theorem State.with_net_mem (s : State) (v : Net) : ({ s with net := v } : State).mem = s.mem := rfl
theorem State.with_net_otp (s : State) (v : Net) : ({ s with net := v } : State).otp = s.otp := rfl
theorem State.with_net_recd (s : State) (v : Net) : ({ s with net := v } : State).recd = s.recd := rfl
theorem State.with_net_mb (s : State) (v : Net) : ({ s with net := v } : State).mb = s.mb := rfl
theorem State.with_net_kse (s : State) (v : Net) : ({ s with net := v } : State).kse = s.kse := rfl
theorem State.with_net_nvs (s : State) (v : Net) : ({ s with net := v } : State).nvs = s.nvs := rfl
theorem State.with_net_nv (s : State) (v : Net) : ({ s with net := v } : State).nv = s.nv := rfl
theorem State.with_net_boot (s : State) (v : Net) : ({ s with net := v } : State).boot = s.boot := rfl
theorem State.with_net_pow (s : State) (v : Net) : ({ s with net := v } : State).pow = s.pow := rfl
theorem State.with_net_twb (s : State) (v : Net) : ({ s with net := v } : State).twb = s.twb := rfl
theorem State.with_net_out (s : State) (v : Net) : ({ s with net := v } : State).out = s.out := rfl
theorem State.with_net_ams (s : State) (v : Net) : ({ s with net := v } : State).ams = s.ams := rfl
theorem State.with_net_cache (s : State) (v : Net) : ({ s with net := v } : State).cache = s.cache := rfl
theorem State.with_net_firn (s : State) (v : Net) : ({ s with net := v } : State).firn = s.firn := rfl
theorem State.with_net_frzRun (s : State) (v : Net) : ({ s with net := v } : State).frzRun = s.frzRun := rfl
theorem State.with_net_twin (s : State) (v : Net) : ({ s with net := v } : State).twin = s.twin := rfl
theorem State.with_net_board (s : State) (v : Net) : ({ s with net := v } : State).board = s.board := rfl
theorem State.with_net_dram (s : State) (v : Net) : ({ s with net := v } : State).dram = s.dram := rfl
theorem State.with_net_dec (s : State) (v : Net) : ({ s with net := v } : State).dec = s.dec := rfl
theorem State.with_net_deep (s : State) (v : Net) : ({ s with net := v } : State).deep = s.deep := rfl
theorem State.with_net_feed (s : State) (v : Net) : ({ s with net := v } : State).feed = s.feed := rfl

/-! ### { s with nv := v } -/

theorem State.with_nv_pending (s : State) (v : Nv) : ({ s with nv := v } : State).pending = s.pending := rfl
theorem State.with_nv_now (s : State) (v : Nv) : ({ s with nv := v } : State).now = s.now := rfl
theorem State.with_nv_tiles (s : State) (v : Nv) : ({ s with nv := v } : State).tiles = s.tiles := rfl
theorem State.with_nv_freeCtr (s : State) (v : Nv) : ({ s with nv := v } : State).freeCtr = s.freeCtr := rfl
theorem State.with_nv_regs (s : State) (v : Nv) : ({ s with nv := v } : State).regs = s.regs := rfl
theorem State.with_nv_mem (s : State) (v : Nv) : ({ s with nv := v } : State).mem = s.mem := rfl
theorem State.with_nv_otp (s : State) (v : Nv) : ({ s with nv := v } : State).otp = s.otp := rfl
theorem State.with_nv_recd (s : State) (v : Nv) : ({ s with nv := v } : State).recd = s.recd := rfl
theorem State.with_nv_mb (s : State) (v : Nv) : ({ s with nv := v } : State).mb = s.mb := rfl
theorem State.with_nv_kse (s : State) (v : Nv) : ({ s with nv := v } : State).kse = s.kse := rfl
theorem State.with_nv_nvs (s : State) (v : Nv) : ({ s with nv := v } : State).nvs = s.nvs := rfl
theorem State.with_nv_boot (s : State) (v : Nv) : ({ s with nv := v } : State).boot = s.boot := rfl
theorem State.with_nv_pow (s : State) (v : Nv) : ({ s with nv := v } : State).pow = s.pow := rfl
theorem State.with_nv_twb (s : State) (v : Nv) : ({ s with nv := v } : State).twb = s.twb := rfl
theorem State.with_nv_out (s : State) (v : Nv) : ({ s with nv := v } : State).out = s.out := rfl
theorem State.with_nv_ams (s : State) (v : Nv) : ({ s with nv := v } : State).ams = s.ams := rfl
theorem State.with_nv_cache (s : State) (v : Nv) : ({ s with nv := v } : State).cache = s.cache := rfl
theorem State.with_nv_firn (s : State) (v : Nv) : ({ s with nv := v } : State).firn = s.firn := rfl
theorem State.with_nv_frzRun (s : State) (v : Nv) : ({ s with nv := v } : State).frzRun = s.frzRun := rfl
theorem State.with_nv_net (s : State) (v : Nv) : ({ s with nv := v } : State).net = s.net := rfl
theorem State.with_nv_twin (s : State) (v : Nv) : ({ s with nv := v } : State).twin = s.twin := rfl
theorem State.with_nv_board (s : State) (v : Nv) : ({ s with nv := v } : State).board = s.board := rfl
theorem State.with_nv_dram (s : State) (v : Nv) : ({ s with nv := v } : State).dram = s.dram := rfl
theorem State.with_nv_dec (s : State) (v : Nv) : ({ s with nv := v } : State).dec = s.dec := rfl
theorem State.with_nv_deep (s : State) (v : Nv) : ({ s with nv := v } : State).deep = s.deep := rfl
theorem State.with_nv_feed (s : State) (v : Nv) : ({ s with nv := v } : State).feed = s.feed := rfl

/-! ### { s with nvs := v } -/

theorem State.with_nvs_pending (s : State) (v : List (Nat × NvsTile)) : ({ s with nvs := v } : State).pending = s.pending := rfl
theorem State.with_nvs_now (s : State) (v : List (Nat × NvsTile)) : ({ s with nvs := v } : State).now = s.now := rfl
theorem State.with_nvs_tiles (s : State) (v : List (Nat × NvsTile)) : ({ s with nvs := v } : State).tiles = s.tiles := rfl
theorem State.with_nvs_freeCtr (s : State) (v : List (Nat × NvsTile)) : ({ s with nvs := v } : State).freeCtr = s.freeCtr := rfl
theorem State.with_nvs_regs (s : State) (v : List (Nat × NvsTile)) : ({ s with nvs := v } : State).regs = s.regs := rfl
theorem State.with_nvs_mem (s : State) (v : List (Nat × NvsTile)) : ({ s with nvs := v } : State).mem = s.mem := rfl
theorem State.with_nvs_otp (s : State) (v : List (Nat × NvsTile)) : ({ s with nvs := v } : State).otp = s.otp := rfl
theorem State.with_nvs_recd (s : State) (v : List (Nat × NvsTile)) : ({ s with nvs := v } : State).recd = s.recd := rfl
theorem State.with_nvs_mb (s : State) (v : List (Nat × NvsTile)) : ({ s with nvs := v } : State).mb = s.mb := rfl
theorem State.with_nvs_kse (s : State) (v : List (Nat × NvsTile)) : ({ s with nvs := v } : State).kse = s.kse := rfl
theorem State.with_nvs_nv (s : State) (v : List (Nat × NvsTile)) : ({ s with nvs := v } : State).nv = s.nv := rfl
theorem State.with_nvs_boot (s : State) (v : List (Nat × NvsTile)) : ({ s with nvs := v } : State).boot = s.boot := rfl
theorem State.with_nvs_pow (s : State) (v : List (Nat × NvsTile)) : ({ s with nvs := v } : State).pow = s.pow := rfl
theorem State.with_nvs_twb (s : State) (v : List (Nat × NvsTile)) : ({ s with nvs := v } : State).twb = s.twb := rfl
theorem State.with_nvs_out (s : State) (v : List (Nat × NvsTile)) : ({ s with nvs := v } : State).out = s.out := rfl
theorem State.with_nvs_ams (s : State) (v : List (Nat × NvsTile)) : ({ s with nvs := v } : State).ams = s.ams := rfl
theorem State.with_nvs_cache (s : State) (v : List (Nat × NvsTile)) : ({ s with nvs := v } : State).cache = s.cache := rfl
theorem State.with_nvs_firn (s : State) (v : List (Nat × NvsTile)) : ({ s with nvs := v } : State).firn = s.firn := rfl
theorem State.with_nvs_frzRun (s : State) (v : List (Nat × NvsTile)) : ({ s with nvs := v } : State).frzRun = s.frzRun := rfl
theorem State.with_nvs_net (s : State) (v : List (Nat × NvsTile)) : ({ s with nvs := v } : State).net = s.net := rfl
theorem State.with_nvs_twin (s : State) (v : List (Nat × NvsTile)) : ({ s with nvs := v } : State).twin = s.twin := rfl
theorem State.with_nvs_board (s : State) (v : List (Nat × NvsTile)) : ({ s with nvs := v } : State).board = s.board := rfl
theorem State.with_nvs_dram (s : State) (v : List (Nat × NvsTile)) : ({ s with nvs := v } : State).dram = s.dram := rfl
theorem State.with_nvs_dec (s : State) (v : List (Nat × NvsTile)) : ({ s with nvs := v } : State).dec = s.dec := rfl
theorem State.with_nvs_deep (s : State) (v : List (Nat × NvsTile)) : ({ s with nvs := v } : State).deep = s.deep := rfl
theorem State.with_nvs_feed (s : State) (v : List (Nat × NvsTile)) : ({ s with nvs := v } : State).feed = s.feed := rfl

/-! ### { s with otp := v } -/

theorem State.with_otp_pending (s : State) (v : List Host.Cell) : ({ s with otp := v } : State).pending = s.pending := rfl
theorem State.with_otp_now (s : State) (v : List Host.Cell) : ({ s with otp := v } : State).now = s.now := rfl
theorem State.with_otp_tiles (s : State) (v : List Host.Cell) : ({ s with otp := v } : State).tiles = s.tiles := rfl
theorem State.with_otp_freeCtr (s : State) (v : List Host.Cell) : ({ s with otp := v } : State).freeCtr = s.freeCtr := rfl
theorem State.with_otp_regs (s : State) (v : List Host.Cell) : ({ s with otp := v } : State).regs = s.regs := rfl
theorem State.with_otp_mem (s : State) (v : List Host.Cell) : ({ s with otp := v } : State).mem = s.mem := rfl
theorem State.with_otp_recd (s : State) (v : List Host.Cell) : ({ s with otp := v } : State).recd = s.recd := rfl
theorem State.with_otp_mb (s : State) (v : List Host.Cell) : ({ s with otp := v } : State).mb = s.mb := rfl
theorem State.with_otp_kse (s : State) (v : List Host.Cell) : ({ s with otp := v } : State).kse = s.kse := rfl
theorem State.with_otp_nvs (s : State) (v : List Host.Cell) : ({ s with otp := v } : State).nvs = s.nvs := rfl
theorem State.with_otp_nv (s : State) (v : List Host.Cell) : ({ s with otp := v } : State).nv = s.nv := rfl
theorem State.with_otp_boot (s : State) (v : List Host.Cell) : ({ s with otp := v } : State).boot = s.boot := rfl
theorem State.with_otp_pow (s : State) (v : List Host.Cell) : ({ s with otp := v } : State).pow = s.pow := rfl
theorem State.with_otp_twb (s : State) (v : List Host.Cell) : ({ s with otp := v } : State).twb = s.twb := rfl
theorem State.with_otp_out (s : State) (v : List Host.Cell) : ({ s with otp := v } : State).out = s.out := rfl
theorem State.with_otp_ams (s : State) (v : List Host.Cell) : ({ s with otp := v } : State).ams = s.ams := rfl
theorem State.with_otp_cache (s : State) (v : List Host.Cell) : ({ s with otp := v } : State).cache = s.cache := rfl
theorem State.with_otp_firn (s : State) (v : List Host.Cell) : ({ s with otp := v } : State).firn = s.firn := rfl
theorem State.with_otp_frzRun (s : State) (v : List Host.Cell) : ({ s with otp := v } : State).frzRun = s.frzRun := rfl
theorem State.with_otp_net (s : State) (v : List Host.Cell) : ({ s with otp := v } : State).net = s.net := rfl
theorem State.with_otp_twin (s : State) (v : List Host.Cell) : ({ s with otp := v } : State).twin = s.twin := rfl
theorem State.with_otp_board (s : State) (v : List Host.Cell) : ({ s with otp := v } : State).board = s.board := rfl
theorem State.with_otp_dram (s : State) (v : List Host.Cell) : ({ s with otp := v } : State).dram = s.dram := rfl
theorem State.with_otp_dec (s : State) (v : List Host.Cell) : ({ s with otp := v } : State).dec = s.dec := rfl
theorem State.with_otp_deep (s : State) (v : List Host.Cell) : ({ s with otp := v } : State).deep = s.deep := rfl
theorem State.with_otp_feed (s : State) (v : List Host.Cell) : ({ s with otp := v } : State).feed = s.feed := rfl

/-! ### { s with out := v } -/

theorem State.with_out_pending (s : State) (v : List Out) : ({ s with out := v } : State).pending = s.pending := rfl
theorem State.with_out_now (s : State) (v : List Out) : ({ s with out := v } : State).now = s.now := rfl
theorem State.with_out_tiles (s : State) (v : List Out) : ({ s with out := v } : State).tiles = s.tiles := rfl
theorem State.with_out_freeCtr (s : State) (v : List Out) : ({ s with out := v } : State).freeCtr = s.freeCtr := rfl
theorem State.with_out_regs (s : State) (v : List Out) : ({ s with out := v } : State).regs = s.regs := rfl
theorem State.with_out_mem (s : State) (v : List Out) : ({ s with out := v } : State).mem = s.mem := rfl
theorem State.with_out_otp (s : State) (v : List Out) : ({ s with out := v } : State).otp = s.otp := rfl
theorem State.with_out_recd (s : State) (v : List Out) : ({ s with out := v } : State).recd = s.recd := rfl
theorem State.with_out_mb (s : State) (v : List Out) : ({ s with out := v } : State).mb = s.mb := rfl
theorem State.with_out_kse (s : State) (v : List Out) : ({ s with out := v } : State).kse = s.kse := rfl
theorem State.with_out_nvs (s : State) (v : List Out) : ({ s with out := v } : State).nvs = s.nvs := rfl
theorem State.with_out_nv (s : State) (v : List Out) : ({ s with out := v } : State).nv = s.nv := rfl
theorem State.with_out_boot (s : State) (v : List Out) : ({ s with out := v } : State).boot = s.boot := rfl
theorem State.with_out_pow (s : State) (v : List Out) : ({ s with out := v } : State).pow = s.pow := rfl
theorem State.with_out_twb (s : State) (v : List Out) : ({ s with out := v } : State).twb = s.twb := rfl
theorem State.with_out_ams (s : State) (v : List Out) : ({ s with out := v } : State).ams = s.ams := rfl
theorem State.with_out_cache (s : State) (v : List Out) : ({ s with out := v } : State).cache = s.cache := rfl
theorem State.with_out_firn (s : State) (v : List Out) : ({ s with out := v } : State).firn = s.firn := rfl
theorem State.with_out_frzRun (s : State) (v : List Out) : ({ s with out := v } : State).frzRun = s.frzRun := rfl
theorem State.with_out_net (s : State) (v : List Out) : ({ s with out := v } : State).net = s.net := rfl
theorem State.with_out_twin (s : State) (v : List Out) : ({ s with out := v } : State).twin = s.twin := rfl
theorem State.with_out_board (s : State) (v : List Out) : ({ s with out := v } : State).board = s.board := rfl
theorem State.with_out_dram (s : State) (v : List Out) : ({ s with out := v } : State).dram = s.dram := rfl
theorem State.with_out_dec (s : State) (v : List Out) : ({ s with out := v } : State).dec = s.dec := rfl
theorem State.with_out_deep (s : State) (v : List Out) : ({ s with out := v } : State).deep = s.deep := rfl
theorem State.with_out_feed (s : State) (v : List Out) : ({ s with out := v } : State).feed = s.feed := rfl

/-! ### { s with regs := v } -/

theorem State.with_regs_pending (s : State) (v : List (Nat × Word)) : ({ s with regs := v } : State).pending = s.pending := rfl
theorem State.with_regs_now (s : State) (v : List (Nat × Word)) : ({ s with regs := v } : State).now = s.now := rfl
theorem State.with_regs_tiles (s : State) (v : List (Nat × Word)) : ({ s with regs := v } : State).tiles = s.tiles := rfl
theorem State.with_regs_freeCtr (s : State) (v : List (Nat × Word)) : ({ s with regs := v } : State).freeCtr = s.freeCtr := rfl
theorem State.with_regs_mem (s : State) (v : List (Nat × Word)) : ({ s with regs := v } : State).mem = s.mem := rfl
theorem State.with_regs_otp (s : State) (v : List (Nat × Word)) : ({ s with regs := v } : State).otp = s.otp := rfl
theorem State.with_regs_recd (s : State) (v : List (Nat × Word)) : ({ s with regs := v } : State).recd = s.recd := rfl
theorem State.with_regs_mb (s : State) (v : List (Nat × Word)) : ({ s with regs := v } : State).mb = s.mb := rfl
theorem State.with_regs_kse (s : State) (v : List (Nat × Word)) : ({ s with regs := v } : State).kse = s.kse := rfl
theorem State.with_regs_nvs (s : State) (v : List (Nat × Word)) : ({ s with regs := v } : State).nvs = s.nvs := rfl
theorem State.with_regs_nv (s : State) (v : List (Nat × Word)) : ({ s with regs := v } : State).nv = s.nv := rfl
theorem State.with_regs_boot (s : State) (v : List (Nat × Word)) : ({ s with regs := v } : State).boot = s.boot := rfl
theorem State.with_regs_pow (s : State) (v : List (Nat × Word)) : ({ s with regs := v } : State).pow = s.pow := rfl
theorem State.with_regs_twb (s : State) (v : List (Nat × Word)) : ({ s with regs := v } : State).twb = s.twb := rfl
theorem State.with_regs_out (s : State) (v : List (Nat × Word)) : ({ s with regs := v } : State).out = s.out := rfl
theorem State.with_regs_ams (s : State) (v : List (Nat × Word)) : ({ s with regs := v } : State).ams = s.ams := rfl
theorem State.with_regs_cache (s : State) (v : List (Nat × Word)) : ({ s with regs := v } : State).cache = s.cache := rfl
theorem State.with_regs_firn (s : State) (v : List (Nat × Word)) : ({ s with regs := v } : State).firn = s.firn := rfl
theorem State.with_regs_frzRun (s : State) (v : List (Nat × Word)) : ({ s with regs := v } : State).frzRun = s.frzRun := rfl
theorem State.with_regs_net (s : State) (v : List (Nat × Word)) : ({ s with regs := v } : State).net = s.net := rfl
theorem State.with_regs_twin (s : State) (v : List (Nat × Word)) : ({ s with regs := v } : State).twin = s.twin := rfl
theorem State.with_regs_board (s : State) (v : List (Nat × Word)) : ({ s with regs := v } : State).board = s.board := rfl
theorem State.with_regs_dram (s : State) (v : List (Nat × Word)) : ({ s with regs := v } : State).dram = s.dram := rfl
theorem State.with_regs_dec (s : State) (v : List (Nat × Word)) : ({ s with regs := v } : State).dec = s.dec := rfl
theorem State.with_regs_deep (s : State) (v : List (Nat × Word)) : ({ s with regs := v } : State).deep = s.deep := rfl
theorem State.with_regs_feed (s : State) (v : List (Nat × Word)) : ({ s with regs := v } : State).feed = s.feed := rfl

/-! ### { s with twin := v } -/

theorem State.with_twin_pending (s : State) (v : Twin) : ({ s with twin := v } : State).pending = s.pending := rfl
theorem State.with_twin_now (s : State) (v : Twin) : ({ s with twin := v } : State).now = s.now := rfl
theorem State.with_twin_tiles (s : State) (v : Twin) : ({ s with twin := v } : State).tiles = s.tiles := rfl
theorem State.with_twin_freeCtr (s : State) (v : Twin) : ({ s with twin := v } : State).freeCtr = s.freeCtr := rfl
theorem State.with_twin_regs (s : State) (v : Twin) : ({ s with twin := v } : State).regs = s.regs := rfl
theorem State.with_twin_mem (s : State) (v : Twin) : ({ s with twin := v } : State).mem = s.mem := rfl
theorem State.with_twin_otp (s : State) (v : Twin) : ({ s with twin := v } : State).otp = s.otp := rfl
theorem State.with_twin_recd (s : State) (v : Twin) : ({ s with twin := v } : State).recd = s.recd := rfl
theorem State.with_twin_mb (s : State) (v : Twin) : ({ s with twin := v } : State).mb = s.mb := rfl
theorem State.with_twin_kse (s : State) (v : Twin) : ({ s with twin := v } : State).kse = s.kse := rfl
theorem State.with_twin_nvs (s : State) (v : Twin) : ({ s with twin := v } : State).nvs = s.nvs := rfl
theorem State.with_twin_nv (s : State) (v : Twin) : ({ s with twin := v } : State).nv = s.nv := rfl
theorem State.with_twin_boot (s : State) (v : Twin) : ({ s with twin := v } : State).boot = s.boot := rfl
theorem State.with_twin_pow (s : State) (v : Twin) : ({ s with twin := v } : State).pow = s.pow := rfl
theorem State.with_twin_twb (s : State) (v : Twin) : ({ s with twin := v } : State).twb = s.twb := rfl
theorem State.with_twin_out (s : State) (v : Twin) : ({ s with twin := v } : State).out = s.out := rfl
theorem State.with_twin_ams (s : State) (v : Twin) : ({ s with twin := v } : State).ams = s.ams := rfl
theorem State.with_twin_cache (s : State) (v : Twin) : ({ s with twin := v } : State).cache = s.cache := rfl
theorem State.with_twin_firn (s : State) (v : Twin) : ({ s with twin := v } : State).firn = s.firn := rfl
theorem State.with_twin_frzRun (s : State) (v : Twin) : ({ s with twin := v } : State).frzRun = s.frzRun := rfl
theorem State.with_twin_net (s : State) (v : Twin) : ({ s with twin := v } : State).net = s.net := rfl
theorem State.with_twin_board (s : State) (v : Twin) : ({ s with twin := v } : State).board = s.board := rfl
theorem State.with_twin_dram (s : State) (v : Twin) : ({ s with twin := v } : State).dram = s.dram := rfl
theorem State.with_twin_dec (s : State) (v : Twin) : ({ s with twin := v } : State).dec = s.dec := rfl
theorem State.with_twin_deep (s : State) (v : Twin) : ({ s with twin := v } : State).deep = s.deep := rfl
theorem State.with_twin_feed (s : State) (v : Twin) : ({ s with twin := v } : State).feed = s.feed := rfl

/-! ### setWord -/

@[simp] theorem State.setWord_pending (s : State) (t blk off : Nat) (v : Word) : (s.setWord t blk off v).pending = s.pending := State.with_regs_pending ..
@[simp] theorem State.setWord_now (s : State) (t blk off : Nat) (v : Word) : (s.setWord t blk off v).now = s.now := State.with_regs_now ..
@[simp] theorem State.setWord_tiles (s : State) (t blk off : Nat) (v : Word) : (s.setWord t blk off v).tiles = s.tiles := State.with_regs_tiles ..
@[simp] theorem State.setWord_freeCtr (s : State) (t blk off : Nat) (v : Word) : (s.setWord t blk off v).freeCtr = s.freeCtr := State.with_regs_freeCtr ..
@[simp] theorem State.setWord_mem (s : State) (t blk off : Nat) (v : Word) : (s.setWord t blk off v).mem = s.mem := State.with_regs_mem ..
@[simp] theorem State.setWord_otp (s : State) (t blk off : Nat) (v : Word) : (s.setWord t blk off v).otp = s.otp := State.with_regs_otp ..
@[simp] theorem State.setWord_recd (s : State) (t blk off : Nat) (v : Word) : (s.setWord t blk off v).recd = s.recd := State.with_regs_recd ..
@[simp] theorem State.setWord_mb (s : State) (t blk off : Nat) (v : Word) : (s.setWord t blk off v).mb = s.mb := State.with_regs_mb ..
@[simp] theorem State.setWord_kse (s : State) (t blk off : Nat) (v : Word) : (s.setWord t blk off v).kse = s.kse := State.with_regs_kse ..
@[simp] theorem State.setWord_nvs (s : State) (t blk off : Nat) (v : Word) : (s.setWord t blk off v).nvs = s.nvs := State.with_regs_nvs ..
@[simp] theorem State.setWord_nv (s : State) (t blk off : Nat) (v : Word) : (s.setWord t blk off v).nv = s.nv := State.with_regs_nv ..
@[simp] theorem State.setWord_boot (s : State) (t blk off : Nat) (v : Word) : (s.setWord t blk off v).boot = s.boot := State.with_regs_boot ..
@[simp] theorem State.setWord_pow (s : State) (t blk off : Nat) (v : Word) : (s.setWord t blk off v).pow = s.pow := State.with_regs_pow ..
@[simp] theorem State.setWord_twb (s : State) (t blk off : Nat) (v : Word) : (s.setWord t blk off v).twb = s.twb := State.with_regs_twb ..
@[simp] theorem State.setWord_out (s : State) (t blk off : Nat) (v : Word) : (s.setWord t blk off v).out = s.out := State.with_regs_out ..
@[simp] theorem State.setWord_ams (s : State) (t blk off : Nat) (v : Word) : (s.setWord t blk off v).ams = s.ams := State.with_regs_ams ..
@[simp] theorem State.setWord_cache (s : State) (t blk off : Nat) (v : Word) : (s.setWord t blk off v).cache = s.cache := State.with_regs_cache ..
@[simp] theorem State.setWord_firn (s : State) (t blk off : Nat) (v : Word) : (s.setWord t blk off v).firn = s.firn := State.with_regs_firn ..
@[simp] theorem State.setWord_frzRun (s : State) (t blk off : Nat) (v : Word) : (s.setWord t blk off v).frzRun = s.frzRun := State.with_regs_frzRun ..
@[simp] theorem State.setWord_net (s : State) (t blk off : Nat) (v : Word) : (s.setWord t blk off v).net = s.net := State.with_regs_net ..
@[simp] theorem State.setWord_twin (s : State) (t blk off : Nat) (v : Word) : (s.setWord t blk off v).twin = s.twin := State.with_regs_twin ..
@[simp] theorem State.setWord_board (s : State) (t blk off : Nat) (v : Word) : (s.setWord t blk off v).board = s.board := State.with_regs_board ..
@[simp] theorem State.setWord_dram (s : State) (t blk off : Nat) (v : Word) : (s.setWord t blk off v).dram = s.dram := State.with_regs_dram ..
@[simp] theorem State.setWord_dec (s : State) (t blk off : Nat) (v : Word) : (s.setWord t blk off v).dec = s.dec := State.with_regs_dec ..
@[simp] theorem State.setWord_deep (s : State) (t blk off : Nat) (v : Word) : (s.setWord t blk off v).deep = s.deep := State.with_regs_deep ..
@[simp] theorem State.setWord_feed (s : State) (t blk off : Nat) (v : Word) : (s.setWord t blk off v).feed = s.feed := State.with_regs_feed ..

/-! ### setF -/

@[simp] theorem State.setF_pending (s : State) (t : Nat) (f : Fld) (v : Nat) : (s.setF t f v).pending = s.pending := State.setWord_pending ..
@[simp] theorem State.setF_now (s : State) (t : Nat) (f : Fld) (v : Nat) : (s.setF t f v).now = s.now := State.setWord_now ..
@[simp] theorem State.setF_tiles (s : State) (t : Nat) (f : Fld) (v : Nat) : (s.setF t f v).tiles = s.tiles := State.setWord_tiles ..
@[simp] theorem State.setF_freeCtr (s : State) (t : Nat) (f : Fld) (v : Nat) : (s.setF t f v).freeCtr = s.freeCtr := State.setWord_freeCtr ..
@[simp] theorem State.setF_mem (s : State) (t : Nat) (f : Fld) (v : Nat) : (s.setF t f v).mem = s.mem := State.setWord_mem ..
@[simp] theorem State.setF_otp (s : State) (t : Nat) (f : Fld) (v : Nat) : (s.setF t f v).otp = s.otp := State.setWord_otp ..
@[simp] theorem State.setF_recd (s : State) (t : Nat) (f : Fld) (v : Nat) : (s.setF t f v).recd = s.recd := State.setWord_recd ..
@[simp] theorem State.setF_mb (s : State) (t : Nat) (f : Fld) (v : Nat) : (s.setF t f v).mb = s.mb := State.setWord_mb ..
@[simp] theorem State.setF_kse (s : State) (t : Nat) (f : Fld) (v : Nat) : (s.setF t f v).kse = s.kse := State.setWord_kse ..
@[simp] theorem State.setF_nvs (s : State) (t : Nat) (f : Fld) (v : Nat) : (s.setF t f v).nvs = s.nvs := State.setWord_nvs ..
@[simp] theorem State.setF_nv (s : State) (t : Nat) (f : Fld) (v : Nat) : (s.setF t f v).nv = s.nv := State.setWord_nv ..
@[simp] theorem State.setF_boot (s : State) (t : Nat) (f : Fld) (v : Nat) : (s.setF t f v).boot = s.boot := State.setWord_boot ..
@[simp] theorem State.setF_pow (s : State) (t : Nat) (f : Fld) (v : Nat) : (s.setF t f v).pow = s.pow := State.setWord_pow ..
@[simp] theorem State.setF_twb (s : State) (t : Nat) (f : Fld) (v : Nat) : (s.setF t f v).twb = s.twb := State.setWord_twb ..
@[simp] theorem State.setF_out (s : State) (t : Nat) (f : Fld) (v : Nat) : (s.setF t f v).out = s.out := State.setWord_out ..
@[simp] theorem State.setF_ams (s : State) (t : Nat) (f : Fld) (v : Nat) : (s.setF t f v).ams = s.ams := State.setWord_ams ..
@[simp] theorem State.setF_cache (s : State) (t : Nat) (f : Fld) (v : Nat) : (s.setF t f v).cache = s.cache := State.setWord_cache ..
@[simp] theorem State.setF_firn (s : State) (t : Nat) (f : Fld) (v : Nat) : (s.setF t f v).firn = s.firn := State.setWord_firn ..
@[simp] theorem State.setF_frzRun (s : State) (t : Nat) (f : Fld) (v : Nat) : (s.setF t f v).frzRun = s.frzRun := State.setWord_frzRun ..
@[simp] theorem State.setF_net (s : State) (t : Nat) (f : Fld) (v : Nat) : (s.setF t f v).net = s.net := State.setWord_net ..
@[simp] theorem State.setF_twin (s : State) (t : Nat) (f : Fld) (v : Nat) : (s.setF t f v).twin = s.twin := State.setWord_twin ..
@[simp] theorem State.setF_board (s : State) (t : Nat) (f : Fld) (v : Nat) : (s.setF t f v).board = s.board := State.setWord_board ..
@[simp] theorem State.setF_dram (s : State) (t : Nat) (f : Fld) (v : Nat) : (s.setF t f v).dram = s.dram := State.setWord_dram ..
@[simp] theorem State.setF_dec (s : State) (t : Nat) (f : Fld) (v : Nat) : (s.setF t f v).dec = s.dec := State.setWord_dec ..
@[simp] theorem State.setF_deep (s : State) (t : Nat) (f : Fld) (v : Nat) : (s.setF t f v).deep = s.deep := State.setWord_deep ..
@[simp] theorem State.setF_feed (s : State) (t : Nat) (f : Fld) (v : Nat) : (s.setF t f v).feed = s.feed := State.setWord_feed ..

/-! ### bump -/

@[simp] theorem State.bump_pending (s : State) (t : Nat) (f : Fld) (n : Nat) : (s.bump t f n).pending = s.pending := State.setF_pending ..
@[simp] theorem State.bump_now (s : State) (t : Nat) (f : Fld) (n : Nat) : (s.bump t f n).now = s.now := State.setF_now ..
@[simp] theorem State.bump_tiles (s : State) (t : Nat) (f : Fld) (n : Nat) : (s.bump t f n).tiles = s.tiles := State.setF_tiles ..
@[simp] theorem State.bump_freeCtr (s : State) (t : Nat) (f : Fld) (n : Nat) : (s.bump t f n).freeCtr = s.freeCtr := State.setF_freeCtr ..
@[simp] theorem State.bump_mem (s : State) (t : Nat) (f : Fld) (n : Nat) : (s.bump t f n).mem = s.mem := State.setF_mem ..
@[simp] theorem State.bump_otp (s : State) (t : Nat) (f : Fld) (n : Nat) : (s.bump t f n).otp = s.otp := State.setF_otp ..
@[simp] theorem State.bump_recd (s : State) (t : Nat) (f : Fld) (n : Nat) : (s.bump t f n).recd = s.recd := State.setF_recd ..
@[simp] theorem State.bump_mb (s : State) (t : Nat) (f : Fld) (n : Nat) : (s.bump t f n).mb = s.mb := State.setF_mb ..
@[simp] theorem State.bump_kse (s : State) (t : Nat) (f : Fld) (n : Nat) : (s.bump t f n).kse = s.kse := State.setF_kse ..
@[simp] theorem State.bump_nvs (s : State) (t : Nat) (f : Fld) (n : Nat) : (s.bump t f n).nvs = s.nvs := State.setF_nvs ..
@[simp] theorem State.bump_nv (s : State) (t : Nat) (f : Fld) (n : Nat) : (s.bump t f n).nv = s.nv := State.setF_nv ..
@[simp] theorem State.bump_boot (s : State) (t : Nat) (f : Fld) (n : Nat) : (s.bump t f n).boot = s.boot := State.setF_boot ..
@[simp] theorem State.bump_pow (s : State) (t : Nat) (f : Fld) (n : Nat) : (s.bump t f n).pow = s.pow := State.setF_pow ..
@[simp] theorem State.bump_twb (s : State) (t : Nat) (f : Fld) (n : Nat) : (s.bump t f n).twb = s.twb := State.setF_twb ..
@[simp] theorem State.bump_out (s : State) (t : Nat) (f : Fld) (n : Nat) : (s.bump t f n).out = s.out := State.setF_out ..
@[simp] theorem State.bump_ams (s : State) (t : Nat) (f : Fld) (n : Nat) : (s.bump t f n).ams = s.ams := State.setF_ams ..
@[simp] theorem State.bump_cache (s : State) (t : Nat) (f : Fld) (n : Nat) : (s.bump t f n).cache = s.cache := State.setF_cache ..
@[simp] theorem State.bump_firn (s : State) (t : Nat) (f : Fld) (n : Nat) : (s.bump t f n).firn = s.firn := State.setF_firn ..
@[simp] theorem State.bump_frzRun (s : State) (t : Nat) (f : Fld) (n : Nat) : (s.bump t f n).frzRun = s.frzRun := State.setF_frzRun ..
@[simp] theorem State.bump_net (s : State) (t : Nat) (f : Fld) (n : Nat) : (s.bump t f n).net = s.net := State.setF_net ..
@[simp] theorem State.bump_twin (s : State) (t : Nat) (f : Fld) (n : Nat) : (s.bump t f n).twin = s.twin := State.setF_twin ..
@[simp] theorem State.bump_board (s : State) (t : Nat) (f : Fld) (n : Nat) : (s.bump t f n).board = s.board := State.setF_board ..
@[simp] theorem State.bump_dram (s : State) (t : Nat) (f : Fld) (n : Nat) : (s.bump t f n).dram = s.dram := State.setF_dram ..
@[simp] theorem State.bump_dec (s : State) (t : Nat) (f : Fld) (n : Nat) : (s.bump t f n).dec = s.dec := State.setF_dec ..
@[simp] theorem State.bump_deep (s : State) (t : Nat) (f : Fld) (n : Nat) : (s.bump t f n).deep = s.deep := State.setF_deep ..
@[simp] theorem State.bump_feed (s : State) (t : Nat) (f : Fld) (n : Nat) : (s.bump t f n).feed = s.feed := State.setF_feed ..

/-! ### drop -/

@[simp] theorem State.drop_pending (s : State) (t : Nat) (f : Fld) (n : Nat) : (s.drop t f n).pending = s.pending := State.setF_pending ..
@[simp] theorem State.drop_now (s : State) (t : Nat) (f : Fld) (n : Nat) : (s.drop t f n).now = s.now := State.setF_now ..
@[simp] theorem State.drop_tiles (s : State) (t : Nat) (f : Fld) (n : Nat) : (s.drop t f n).tiles = s.tiles := State.setF_tiles ..
@[simp] theorem State.drop_freeCtr (s : State) (t : Nat) (f : Fld) (n : Nat) : (s.drop t f n).freeCtr = s.freeCtr := State.setF_freeCtr ..
@[simp] theorem State.drop_mem (s : State) (t : Nat) (f : Fld) (n : Nat) : (s.drop t f n).mem = s.mem := State.setF_mem ..
@[simp] theorem State.drop_otp (s : State) (t : Nat) (f : Fld) (n : Nat) : (s.drop t f n).otp = s.otp := State.setF_otp ..
@[simp] theorem State.drop_recd (s : State) (t : Nat) (f : Fld) (n : Nat) : (s.drop t f n).recd = s.recd := State.setF_recd ..
@[simp] theorem State.drop_mb (s : State) (t : Nat) (f : Fld) (n : Nat) : (s.drop t f n).mb = s.mb := State.setF_mb ..
@[simp] theorem State.drop_kse (s : State) (t : Nat) (f : Fld) (n : Nat) : (s.drop t f n).kse = s.kse := State.setF_kse ..
@[simp] theorem State.drop_nvs (s : State) (t : Nat) (f : Fld) (n : Nat) : (s.drop t f n).nvs = s.nvs := State.setF_nvs ..
@[simp] theorem State.drop_nv (s : State) (t : Nat) (f : Fld) (n : Nat) : (s.drop t f n).nv = s.nv := State.setF_nv ..
@[simp] theorem State.drop_boot (s : State) (t : Nat) (f : Fld) (n : Nat) : (s.drop t f n).boot = s.boot := State.setF_boot ..
@[simp] theorem State.drop_pow (s : State) (t : Nat) (f : Fld) (n : Nat) : (s.drop t f n).pow = s.pow := State.setF_pow ..
@[simp] theorem State.drop_twb (s : State) (t : Nat) (f : Fld) (n : Nat) : (s.drop t f n).twb = s.twb := State.setF_twb ..
@[simp] theorem State.drop_out (s : State) (t : Nat) (f : Fld) (n : Nat) : (s.drop t f n).out = s.out := State.setF_out ..
@[simp] theorem State.drop_ams (s : State) (t : Nat) (f : Fld) (n : Nat) : (s.drop t f n).ams = s.ams := State.setF_ams ..
@[simp] theorem State.drop_cache (s : State) (t : Nat) (f : Fld) (n : Nat) : (s.drop t f n).cache = s.cache := State.setF_cache ..
@[simp] theorem State.drop_firn (s : State) (t : Nat) (f : Fld) (n : Nat) : (s.drop t f n).firn = s.firn := State.setF_firn ..
@[simp] theorem State.drop_frzRun (s : State) (t : Nat) (f : Fld) (n : Nat) : (s.drop t f n).frzRun = s.frzRun := State.setF_frzRun ..
@[simp] theorem State.drop_net (s : State) (t : Nat) (f : Fld) (n : Nat) : (s.drop t f n).net = s.net := State.setF_net ..
@[simp] theorem State.drop_twin (s : State) (t : Nat) (f : Fld) (n : Nat) : (s.drop t f n).twin = s.twin := State.setF_twin ..
@[simp] theorem State.drop_board (s : State) (t : Nat) (f : Fld) (n : Nat) : (s.drop t f n).board = s.board := State.setF_board ..
@[simp] theorem State.drop_dram (s : State) (t : Nat) (f : Fld) (n : Nat) : (s.drop t f n).dram = s.dram := State.setF_dram ..
@[simp] theorem State.drop_dec (s : State) (t : Nat) (f : Fld) (n : Nat) : (s.drop t f n).dec = s.dec := State.setF_dec ..
@[simp] theorem State.drop_deep (s : State) (t : Nat) (f : Fld) (n : Nat) : (s.drop t f n).deep = s.deep := State.setF_deep ..
@[simp] theorem State.drop_feed (s : State) (t : Nat) (f : Fld) (n : Nat) : (s.drop t f n).feed = s.feed := State.setF_feed ..

/-! ### ev -/

@[simp] theorem State.ev_pending (s : State) (t : Nat) (f : Fld) : (s.ev t f).pending = s.pending := (State.bump_pending ..).trans (State.setF_pending ..)
@[simp] theorem State.ev_now (s : State) (t : Nat) (f : Fld) : (s.ev t f).now = s.now := (State.bump_now ..).trans (State.setF_now ..)
@[simp] theorem State.ev_tiles (s : State) (t : Nat) (f : Fld) : (s.ev t f).tiles = s.tiles := (State.bump_tiles ..).trans (State.setF_tiles ..)
@[simp] theorem State.ev_freeCtr (s : State) (t : Nat) (f : Fld) : (s.ev t f).freeCtr = s.freeCtr := (State.bump_freeCtr ..).trans (State.setF_freeCtr ..)
@[simp] theorem State.ev_mem (s : State) (t : Nat) (f : Fld) : (s.ev t f).mem = s.mem := (State.bump_mem ..).trans (State.setF_mem ..)
@[simp] theorem State.ev_otp (s : State) (t : Nat) (f : Fld) : (s.ev t f).otp = s.otp := (State.bump_otp ..).trans (State.setF_otp ..)
@[simp] theorem State.ev_recd (s : State) (t : Nat) (f : Fld) : (s.ev t f).recd = s.recd := (State.bump_recd ..).trans (State.setF_recd ..)
@[simp] theorem State.ev_mb (s : State) (t : Nat) (f : Fld) : (s.ev t f).mb = s.mb := (State.bump_mb ..).trans (State.setF_mb ..)
@[simp] theorem State.ev_kse (s : State) (t : Nat) (f : Fld) : (s.ev t f).kse = s.kse := (State.bump_kse ..).trans (State.setF_kse ..)
@[simp] theorem State.ev_nvs (s : State) (t : Nat) (f : Fld) : (s.ev t f).nvs = s.nvs := (State.bump_nvs ..).trans (State.setF_nvs ..)
@[simp] theorem State.ev_nv (s : State) (t : Nat) (f : Fld) : (s.ev t f).nv = s.nv := (State.bump_nv ..).trans (State.setF_nv ..)
@[simp] theorem State.ev_boot (s : State) (t : Nat) (f : Fld) : (s.ev t f).boot = s.boot := (State.bump_boot ..).trans (State.setF_boot ..)
@[simp] theorem State.ev_pow (s : State) (t : Nat) (f : Fld) : (s.ev t f).pow = s.pow := (State.bump_pow ..).trans (State.setF_pow ..)
@[simp] theorem State.ev_twb (s : State) (t : Nat) (f : Fld) : (s.ev t f).twb = s.twb := (State.bump_twb ..).trans (State.setF_twb ..)
@[simp] theorem State.ev_out (s : State) (t : Nat) (f : Fld) : (s.ev t f).out = s.out := (State.bump_out ..).trans (State.setF_out ..)
@[simp] theorem State.ev_ams (s : State) (t : Nat) (f : Fld) : (s.ev t f).ams = s.ams := (State.bump_ams ..).trans (State.setF_ams ..)
@[simp] theorem State.ev_cache (s : State) (t : Nat) (f : Fld) : (s.ev t f).cache = s.cache := (State.bump_cache ..).trans (State.setF_cache ..)
@[simp] theorem State.ev_firn (s : State) (t : Nat) (f : Fld) : (s.ev t f).firn = s.firn := (State.bump_firn ..).trans (State.setF_firn ..)
@[simp] theorem State.ev_frzRun (s : State) (t : Nat) (f : Fld) : (s.ev t f).frzRun = s.frzRun := (State.bump_frzRun ..).trans (State.setF_frzRun ..)
@[simp] theorem State.ev_net (s : State) (t : Nat) (f : Fld) : (s.ev t f).net = s.net := (State.bump_net ..).trans (State.setF_net ..)
@[simp] theorem State.ev_twin (s : State) (t : Nat) (f : Fld) : (s.ev t f).twin = s.twin := (State.bump_twin ..).trans (State.setF_twin ..)
@[simp] theorem State.ev_board (s : State) (t : Nat) (f : Fld) : (s.ev t f).board = s.board := (State.bump_board ..).trans (State.setF_board ..)
@[simp] theorem State.ev_dram (s : State) (t : Nat) (f : Fld) : (s.ev t f).dram = s.dram := (State.bump_dram ..).trans (State.setF_dram ..)
@[simp] theorem State.ev_dec (s : State) (t : Nat) (f : Fld) : (s.ev t f).dec = s.dec := (State.bump_dec ..).trans (State.setF_dec ..)
@[simp] theorem State.ev_deep (s : State) (t : Nat) (f : Fld) : (s.ev t f).deep = s.deep := (State.bump_deep ..).trans (State.setF_deep ..)
@[simp] theorem State.ev_feed (s : State) (t : Nat) (f : Fld) : (s.ev t f).feed = s.feed := (State.bump_feed ..).trans (State.setF_feed ..)

/-! ### setByte -/

@[simp] theorem State.setByte_pending (s : State) (sp : Space) (t a : Nat) (b : Byte) : (s.setByte sp t a b).pending = s.pending := State.with_mem_pending ..
@[simp] theorem State.setByte_now (s : State) (sp : Space) (t a : Nat) (b : Byte) : (s.setByte sp t a b).now = s.now := State.with_mem_now ..
@[simp] theorem State.setByte_tiles (s : State) (sp : Space) (t a : Nat) (b : Byte) : (s.setByte sp t a b).tiles = s.tiles := State.with_mem_tiles ..
@[simp] theorem State.setByte_freeCtr (s : State) (sp : Space) (t a : Nat) (b : Byte) : (s.setByte sp t a b).freeCtr = s.freeCtr := State.with_mem_freeCtr ..
@[simp] theorem State.setByte_regs (s : State) (sp : Space) (t a : Nat) (b : Byte) : (s.setByte sp t a b).regs = s.regs := State.with_mem_regs ..
@[simp] theorem State.setByte_otp (s : State) (sp : Space) (t a : Nat) (b : Byte) : (s.setByte sp t a b).otp = s.otp := State.with_mem_otp ..
@[simp] theorem State.setByte_recd (s : State) (sp : Space) (t a : Nat) (b : Byte) : (s.setByte sp t a b).recd = s.recd := State.with_mem_recd ..
@[simp] theorem State.setByte_mb (s : State) (sp : Space) (t a : Nat) (b : Byte) : (s.setByte sp t a b).mb = s.mb := State.with_mem_mb ..
@[simp] theorem State.setByte_kse (s : State) (sp : Space) (t a : Nat) (b : Byte) : (s.setByte sp t a b).kse = s.kse := State.with_mem_kse ..
@[simp] theorem State.setByte_nvs (s : State) (sp : Space) (t a : Nat) (b : Byte) : (s.setByte sp t a b).nvs = s.nvs := State.with_mem_nvs ..
@[simp] theorem State.setByte_nv (s : State) (sp : Space) (t a : Nat) (b : Byte) : (s.setByte sp t a b).nv = s.nv := State.with_mem_nv ..
@[simp] theorem State.setByte_boot (s : State) (sp : Space) (t a : Nat) (b : Byte) : (s.setByte sp t a b).boot = s.boot := State.with_mem_boot ..
@[simp] theorem State.setByte_pow (s : State) (sp : Space) (t a : Nat) (b : Byte) : (s.setByte sp t a b).pow = s.pow := State.with_mem_pow ..
@[simp] theorem State.setByte_twb (s : State) (sp : Space) (t a : Nat) (b : Byte) : (s.setByte sp t a b).twb = s.twb := State.with_mem_twb ..
@[simp] theorem State.setByte_out (s : State) (sp : Space) (t a : Nat) (b : Byte) : (s.setByte sp t a b).out = s.out := State.with_mem_out ..
@[simp] theorem State.setByte_ams (s : State) (sp : Space) (t a : Nat) (b : Byte) : (s.setByte sp t a b).ams = s.ams := State.with_mem_ams ..
@[simp] theorem State.setByte_cache (s : State) (sp : Space) (t a : Nat) (b : Byte) : (s.setByte sp t a b).cache = s.cache := State.with_mem_cache ..
@[simp] theorem State.setByte_firn (s : State) (sp : Space) (t a : Nat) (b : Byte) : (s.setByte sp t a b).firn = s.firn := State.with_mem_firn ..
@[simp] theorem State.setByte_frzRun (s : State) (sp : Space) (t a : Nat) (b : Byte) : (s.setByte sp t a b).frzRun = s.frzRun := State.with_mem_frzRun ..
@[simp] theorem State.setByte_net (s : State) (sp : Space) (t a : Nat) (b : Byte) : (s.setByte sp t a b).net = s.net := State.with_mem_net ..
@[simp] theorem State.setByte_twin (s : State) (sp : Space) (t a : Nat) (b : Byte) : (s.setByte sp t a b).twin = s.twin := State.with_mem_twin ..
@[simp] theorem State.setByte_board (s : State) (sp : Space) (t a : Nat) (b : Byte) : (s.setByte sp t a b).board = s.board := State.with_mem_board ..
@[simp] theorem State.setByte_dram (s : State) (sp : Space) (t a : Nat) (b : Byte) : (s.setByte sp t a b).dram = s.dram := State.with_mem_dram ..
@[simp] theorem State.setByte_dec (s : State) (sp : Space) (t a : Nat) (b : Byte) : (s.setByte sp t a b).dec = s.dec := State.with_mem_dec ..
@[simp] theorem State.setByte_deep (s : State) (sp : Space) (t a : Nat) (b : Byte) : (s.setByte sp t a b).deep = s.deep := State.with_mem_deep ..
@[simp] theorem State.setByte_feed (s : State) (sp : Space) (t a : Nat) (b : Byte) : (s.setByte sp t a b).feed = s.feed := State.with_mem_feed ..

/-! ### wipe -/

@[simp] theorem State.wipe_pending (s : State) (sp : Space) (t a n : Nat) : (s.wipe sp t a n).pending = s.pending := State.with_mem_pending ..
@[simp] theorem State.wipe_now (s : State) (sp : Space) (t a n : Nat) : (s.wipe sp t a n).now = s.now := State.with_mem_now ..
@[simp] theorem State.wipe_tiles (s : State) (sp : Space) (t a n : Nat) : (s.wipe sp t a n).tiles = s.tiles := State.with_mem_tiles ..
@[simp] theorem State.wipe_freeCtr (s : State) (sp : Space) (t a n : Nat) : (s.wipe sp t a n).freeCtr = s.freeCtr := State.with_mem_freeCtr ..
@[simp] theorem State.wipe_regs (s : State) (sp : Space) (t a n : Nat) : (s.wipe sp t a n).regs = s.regs := State.with_mem_regs ..
@[simp] theorem State.wipe_otp (s : State) (sp : Space) (t a n : Nat) : (s.wipe sp t a n).otp = s.otp := State.with_mem_otp ..
@[simp] theorem State.wipe_recd (s : State) (sp : Space) (t a n : Nat) : (s.wipe sp t a n).recd = s.recd := State.with_mem_recd ..
@[simp] theorem State.wipe_mb (s : State) (sp : Space) (t a n : Nat) : (s.wipe sp t a n).mb = s.mb := State.with_mem_mb ..
@[simp] theorem State.wipe_kse (s : State) (sp : Space) (t a n : Nat) : (s.wipe sp t a n).kse = s.kse := State.with_mem_kse ..
@[simp] theorem State.wipe_nvs (s : State) (sp : Space) (t a n : Nat) : (s.wipe sp t a n).nvs = s.nvs := State.with_mem_nvs ..
@[simp] theorem State.wipe_nv (s : State) (sp : Space) (t a n : Nat) : (s.wipe sp t a n).nv = s.nv := State.with_mem_nv ..
@[simp] theorem State.wipe_boot (s : State) (sp : Space) (t a n : Nat) : (s.wipe sp t a n).boot = s.boot := State.with_mem_boot ..
@[simp] theorem State.wipe_pow (s : State) (sp : Space) (t a n : Nat) : (s.wipe sp t a n).pow = s.pow := State.with_mem_pow ..
@[simp] theorem State.wipe_twb (s : State) (sp : Space) (t a n : Nat) : (s.wipe sp t a n).twb = s.twb := State.with_mem_twb ..
@[simp] theorem State.wipe_out (s : State) (sp : Space) (t a n : Nat) : (s.wipe sp t a n).out = s.out := State.with_mem_out ..
@[simp] theorem State.wipe_ams (s : State) (sp : Space) (t a n : Nat) : (s.wipe sp t a n).ams = s.ams := State.with_mem_ams ..
@[simp] theorem State.wipe_cache (s : State) (sp : Space) (t a n : Nat) : (s.wipe sp t a n).cache = s.cache := State.with_mem_cache ..
@[simp] theorem State.wipe_firn (s : State) (sp : Space) (t a n : Nat) : (s.wipe sp t a n).firn = s.firn := State.with_mem_firn ..
@[simp] theorem State.wipe_frzRun (s : State) (sp : Space) (t a n : Nat) : (s.wipe sp t a n).frzRun = s.frzRun := State.with_mem_frzRun ..
@[simp] theorem State.wipe_net (s : State) (sp : Space) (t a n : Nat) : (s.wipe sp t a n).net = s.net := State.with_mem_net ..
@[simp] theorem State.wipe_twin (s : State) (sp : Space) (t a n : Nat) : (s.wipe sp t a n).twin = s.twin := State.with_mem_twin ..
@[simp] theorem State.wipe_board (s : State) (sp : Space) (t a n : Nat) : (s.wipe sp t a n).board = s.board := State.with_mem_board ..
@[simp] theorem State.wipe_dram (s : State) (sp : Space) (t a n : Nat) : (s.wipe sp t a n).dram = s.dram := State.with_mem_dram ..
@[simp] theorem State.wipe_dec (s : State) (sp : Space) (t a n : Nat) : (s.wipe sp t a n).dec = s.dec := State.with_mem_dec ..
@[simp] theorem State.wipe_deep (s : State) (sp : Space) (t a n : Nat) : (s.wipe sp t a n).deep = s.deep := State.with_mem_deep ..
@[simp] theorem State.wipe_feed (s : State) (sp : Space) (t a n : Nat) : (s.wipe sp t a n).feed = s.feed := State.with_mem_feed ..

/-! ### fuse -/

@[simp] theorem State.fuse_pending (s : State) (c a : Nat) (b : Byte) : (s.fuse c a b).pending = s.pending := State.with_otp_pending ..
@[simp] theorem State.fuse_now (s : State) (c a : Nat) (b : Byte) : (s.fuse c a b).now = s.now := State.with_otp_now ..
@[simp] theorem State.fuse_tiles (s : State) (c a : Nat) (b : Byte) : (s.fuse c a b).tiles = s.tiles := State.with_otp_tiles ..
@[simp] theorem State.fuse_freeCtr (s : State) (c a : Nat) (b : Byte) : (s.fuse c a b).freeCtr = s.freeCtr := State.with_otp_freeCtr ..
@[simp] theorem State.fuse_regs (s : State) (c a : Nat) (b : Byte) : (s.fuse c a b).regs = s.regs := State.with_otp_regs ..
@[simp] theorem State.fuse_mem (s : State) (c a : Nat) (b : Byte) : (s.fuse c a b).mem = s.mem := State.with_otp_mem ..
@[simp] theorem State.fuse_recd (s : State) (c a : Nat) (b : Byte) : (s.fuse c a b).recd = s.recd := State.with_otp_recd ..
@[simp] theorem State.fuse_mb (s : State) (c a : Nat) (b : Byte) : (s.fuse c a b).mb = s.mb := State.with_otp_mb ..
@[simp] theorem State.fuse_kse (s : State) (c a : Nat) (b : Byte) : (s.fuse c a b).kse = s.kse := State.with_otp_kse ..
@[simp] theorem State.fuse_nvs (s : State) (c a : Nat) (b : Byte) : (s.fuse c a b).nvs = s.nvs := State.with_otp_nvs ..
@[simp] theorem State.fuse_nv (s : State) (c a : Nat) (b : Byte) : (s.fuse c a b).nv = s.nv := State.with_otp_nv ..
@[simp] theorem State.fuse_boot (s : State) (c a : Nat) (b : Byte) : (s.fuse c a b).boot = s.boot := State.with_otp_boot ..
@[simp] theorem State.fuse_pow (s : State) (c a : Nat) (b : Byte) : (s.fuse c a b).pow = s.pow := State.with_otp_pow ..
@[simp] theorem State.fuse_twb (s : State) (c a : Nat) (b : Byte) : (s.fuse c a b).twb = s.twb := State.with_otp_twb ..
@[simp] theorem State.fuse_out (s : State) (c a : Nat) (b : Byte) : (s.fuse c a b).out = s.out := State.with_otp_out ..
@[simp] theorem State.fuse_ams (s : State) (c a : Nat) (b : Byte) : (s.fuse c a b).ams = s.ams := State.with_otp_ams ..
@[simp] theorem State.fuse_cache (s : State) (c a : Nat) (b : Byte) : (s.fuse c a b).cache = s.cache := State.with_otp_cache ..
@[simp] theorem State.fuse_firn (s : State) (c a : Nat) (b : Byte) : (s.fuse c a b).firn = s.firn := State.with_otp_firn ..
@[simp] theorem State.fuse_frzRun (s : State) (c a : Nat) (b : Byte) : (s.fuse c a b).frzRun = s.frzRun := State.with_otp_frzRun ..
@[simp] theorem State.fuse_net (s : State) (c a : Nat) (b : Byte) : (s.fuse c a b).net = s.net := State.with_otp_net ..
@[simp] theorem State.fuse_twin (s : State) (c a : Nat) (b : Byte) : (s.fuse c a b).twin = s.twin := State.with_otp_twin ..
@[simp] theorem State.fuse_board (s : State) (c a : Nat) (b : Byte) : (s.fuse c a b).board = s.board := State.with_otp_board ..
@[simp] theorem State.fuse_dram (s : State) (c a : Nat) (b : Byte) : (s.fuse c a b).dram = s.dram := State.with_otp_dram ..
@[simp] theorem State.fuse_dec (s : State) (c a : Nat) (b : Byte) : (s.fuse c a b).dec = s.dec := State.with_otp_dec ..
@[simp] theorem State.fuse_deep (s : State) (c a : Nat) (b : Byte) : (s.fuse c a b).deep = s.deep := State.with_otp_deep ..
@[simp] theorem State.fuse_feed (s : State) (c a : Nat) (b : Byte) : (s.fuse c a b).feed = s.feed := State.with_otp_feed ..

/-! ### setCfg -/

@[simp] theorem State.setCfg_pending (s : State) (k v : Nat) : (s.setCfg k v).pending = s.pending := State.with_nv_pending ..
@[simp] theorem State.setCfg_now (s : State) (k v : Nat) : (s.setCfg k v).now = s.now := State.with_nv_now ..
@[simp] theorem State.setCfg_tiles (s : State) (k v : Nat) : (s.setCfg k v).tiles = s.tiles := State.with_nv_tiles ..
@[simp] theorem State.setCfg_freeCtr (s : State) (k v : Nat) : (s.setCfg k v).freeCtr = s.freeCtr := State.with_nv_freeCtr ..
@[simp] theorem State.setCfg_regs (s : State) (k v : Nat) : (s.setCfg k v).regs = s.regs := State.with_nv_regs ..
@[simp] theorem State.setCfg_mem (s : State) (k v : Nat) : (s.setCfg k v).mem = s.mem := State.with_nv_mem ..
@[simp] theorem State.setCfg_otp (s : State) (k v : Nat) : (s.setCfg k v).otp = s.otp := State.with_nv_otp ..
@[simp] theorem State.setCfg_recd (s : State) (k v : Nat) : (s.setCfg k v).recd = s.recd := State.with_nv_recd ..
@[simp] theorem State.setCfg_mb (s : State) (k v : Nat) : (s.setCfg k v).mb = s.mb := State.with_nv_mb ..
@[simp] theorem State.setCfg_kse (s : State) (k v : Nat) : (s.setCfg k v).kse = s.kse := State.with_nv_kse ..
@[simp] theorem State.setCfg_nvs (s : State) (k v : Nat) : (s.setCfg k v).nvs = s.nvs := State.with_nv_nvs ..
@[simp] theorem State.setCfg_boot (s : State) (k v : Nat) : (s.setCfg k v).boot = s.boot := State.with_nv_boot ..
@[simp] theorem State.setCfg_pow (s : State) (k v : Nat) : (s.setCfg k v).pow = s.pow := State.with_nv_pow ..
@[simp] theorem State.setCfg_twb (s : State) (k v : Nat) : (s.setCfg k v).twb = s.twb := State.with_nv_twb ..
@[simp] theorem State.setCfg_out (s : State) (k v : Nat) : (s.setCfg k v).out = s.out := State.with_nv_out ..
@[simp] theorem State.setCfg_ams (s : State) (k v : Nat) : (s.setCfg k v).ams = s.ams := State.with_nv_ams ..
@[simp] theorem State.setCfg_cache (s : State) (k v : Nat) : (s.setCfg k v).cache = s.cache := State.with_nv_cache ..
@[simp] theorem State.setCfg_firn (s : State) (k v : Nat) : (s.setCfg k v).firn = s.firn := State.with_nv_firn ..
@[simp] theorem State.setCfg_frzRun (s : State) (k v : Nat) : (s.setCfg k v).frzRun = s.frzRun := State.with_nv_frzRun ..
@[simp] theorem State.setCfg_net (s : State) (k v : Nat) : (s.setCfg k v).net = s.net := State.with_nv_net ..
@[simp] theorem State.setCfg_twin (s : State) (k v : Nat) : (s.setCfg k v).twin = s.twin := State.with_nv_twin ..
@[simp] theorem State.setCfg_board (s : State) (k v : Nat) : (s.setCfg k v).board = s.board := State.with_nv_board ..
@[simp] theorem State.setCfg_dram (s : State) (k v : Nat) : (s.setCfg k v).dram = s.dram := State.with_nv_dram ..
@[simp] theorem State.setCfg_dec (s : State) (k v : Nat) : (s.setCfg k v).dec = s.dec := State.with_nv_dec ..
@[simp] theorem State.setCfg_deep (s : State) (k v : Nat) : (s.setCfg k v).deep = s.deep := State.with_nv_deep ..
@[simp] theorem State.setCfg_feed (s : State) (k v : Nat) : (s.setCfg k v).feed = s.feed := State.with_nv_feed ..

/-! ### send -/

@[simp] theorem State.send_pending (s : State) (o : Out) : (s.send o).pending = s.pending := State.with_out_pending ..
@[simp] theorem State.send_now (s : State) (o : Out) : (s.send o).now = s.now := State.with_out_now ..
@[simp] theorem State.send_tiles (s : State) (o : Out) : (s.send o).tiles = s.tiles := State.with_out_tiles ..
@[simp] theorem State.send_freeCtr (s : State) (o : Out) : (s.send o).freeCtr = s.freeCtr := State.with_out_freeCtr ..
@[simp] theorem State.send_regs (s : State) (o : Out) : (s.send o).regs = s.regs := State.with_out_regs ..
@[simp] theorem State.send_mem (s : State) (o : Out) : (s.send o).mem = s.mem := State.with_out_mem ..
@[simp] theorem State.send_otp (s : State) (o : Out) : (s.send o).otp = s.otp := State.with_out_otp ..
@[simp] theorem State.send_recd (s : State) (o : Out) : (s.send o).recd = s.recd := State.with_out_recd ..
@[simp] theorem State.send_mb (s : State) (o : Out) : (s.send o).mb = s.mb := State.with_out_mb ..
@[simp] theorem State.send_kse (s : State) (o : Out) : (s.send o).kse = s.kse := State.with_out_kse ..
@[simp] theorem State.send_nvs (s : State) (o : Out) : (s.send o).nvs = s.nvs := State.with_out_nvs ..
@[simp] theorem State.send_nv (s : State) (o : Out) : (s.send o).nv = s.nv := State.with_out_nv ..
@[simp] theorem State.send_boot (s : State) (o : Out) : (s.send o).boot = s.boot := State.with_out_boot ..
@[simp] theorem State.send_pow (s : State) (o : Out) : (s.send o).pow = s.pow := State.with_out_pow ..
@[simp] theorem State.send_twb (s : State) (o : Out) : (s.send o).twb = s.twb := State.with_out_twb ..
@[simp] theorem State.send_ams (s : State) (o : Out) : (s.send o).ams = s.ams := State.with_out_ams ..
@[simp] theorem State.send_cache (s : State) (o : Out) : (s.send o).cache = s.cache := State.with_out_cache ..
@[simp] theorem State.send_firn (s : State) (o : Out) : (s.send o).firn = s.firn := State.with_out_firn ..
@[simp] theorem State.send_frzRun (s : State) (o : Out) : (s.send o).frzRun = s.frzRun := State.with_out_frzRun ..
@[simp] theorem State.send_net (s : State) (o : Out) : (s.send o).net = s.net := State.with_out_net ..
@[simp] theorem State.send_twin (s : State) (o : Out) : (s.send o).twin = s.twin := State.with_out_twin ..
@[simp] theorem State.send_board (s : State) (o : Out) : (s.send o).board = s.board := State.with_out_board ..
@[simp] theorem State.send_dram (s : State) (o : Out) : (s.send o).dram = s.dram := State.with_out_dram ..
@[simp] theorem State.send_dec (s : State) (o : Out) : (s.send o).dec = s.dec := State.with_out_dec ..
@[simp] theorem State.send_deep (s : State) (o : Out) : (s.send o).deep = s.deep := State.with_out_deep ..
@[simp] theorem State.send_feed (s : State) (o : Out) : (s.send o).feed = s.feed := State.with_out_feed ..

/-! ### updArray -/

@[simp] theorem State.updArray_pending (s : State) (t : Nat) (f : NvsTile → NvsTile) : (s.updArray t f).pending = s.pending := State.with_nvs_pending ..
@[simp] theorem State.updArray_now (s : State) (t : Nat) (f : NvsTile → NvsTile) : (s.updArray t f).now = s.now := State.with_nvs_now ..
@[simp] theorem State.updArray_tiles (s : State) (t : Nat) (f : NvsTile → NvsTile) : (s.updArray t f).tiles = s.tiles := State.with_nvs_tiles ..
@[simp] theorem State.updArray_freeCtr (s : State) (t : Nat) (f : NvsTile → NvsTile) : (s.updArray t f).freeCtr = s.freeCtr := State.with_nvs_freeCtr ..
@[simp] theorem State.updArray_regs (s : State) (t : Nat) (f : NvsTile → NvsTile) : (s.updArray t f).regs = s.regs := State.with_nvs_regs ..
@[simp] theorem State.updArray_mem (s : State) (t : Nat) (f : NvsTile → NvsTile) : (s.updArray t f).mem = s.mem := State.with_nvs_mem ..
@[simp] theorem State.updArray_otp (s : State) (t : Nat) (f : NvsTile → NvsTile) : (s.updArray t f).otp = s.otp := State.with_nvs_otp ..
@[simp] theorem State.updArray_recd (s : State) (t : Nat) (f : NvsTile → NvsTile) : (s.updArray t f).recd = s.recd := State.with_nvs_recd ..
@[simp] theorem State.updArray_mb (s : State) (t : Nat) (f : NvsTile → NvsTile) : (s.updArray t f).mb = s.mb := State.with_nvs_mb ..
@[simp] theorem State.updArray_kse (s : State) (t : Nat) (f : NvsTile → NvsTile) : (s.updArray t f).kse = s.kse := State.with_nvs_kse ..
@[simp] theorem State.updArray_nv (s : State) (t : Nat) (f : NvsTile → NvsTile) : (s.updArray t f).nv = s.nv := State.with_nvs_nv ..
@[simp] theorem State.updArray_boot (s : State) (t : Nat) (f : NvsTile → NvsTile) : (s.updArray t f).boot = s.boot := State.with_nvs_boot ..
@[simp] theorem State.updArray_pow (s : State) (t : Nat) (f : NvsTile → NvsTile) : (s.updArray t f).pow = s.pow := State.with_nvs_pow ..
@[simp] theorem State.updArray_twb (s : State) (t : Nat) (f : NvsTile → NvsTile) : (s.updArray t f).twb = s.twb := State.with_nvs_twb ..
@[simp] theorem State.updArray_out (s : State) (t : Nat) (f : NvsTile → NvsTile) : (s.updArray t f).out = s.out := State.with_nvs_out ..
@[simp] theorem State.updArray_ams (s : State) (t : Nat) (f : NvsTile → NvsTile) : (s.updArray t f).ams = s.ams := State.with_nvs_ams ..
@[simp] theorem State.updArray_cache (s : State) (t : Nat) (f : NvsTile → NvsTile) : (s.updArray t f).cache = s.cache := State.with_nvs_cache ..
@[simp] theorem State.updArray_firn (s : State) (t : Nat) (f : NvsTile → NvsTile) : (s.updArray t f).firn = s.firn := State.with_nvs_firn ..
@[simp] theorem State.updArray_frzRun (s : State) (t : Nat) (f : NvsTile → NvsTile) : (s.updArray t f).frzRun = s.frzRun := State.with_nvs_frzRun ..
@[simp] theorem State.updArray_net (s : State) (t : Nat) (f : NvsTile → NvsTile) : (s.updArray t f).net = s.net := State.with_nvs_net ..
@[simp] theorem State.updArray_twin (s : State) (t : Nat) (f : NvsTile → NvsTile) : (s.updArray t f).twin = s.twin := State.with_nvs_twin ..
@[simp] theorem State.updArray_board (s : State) (t : Nat) (f : NvsTile → NvsTile) : (s.updArray t f).board = s.board := State.with_nvs_board ..
@[simp] theorem State.updArray_dram (s : State) (t : Nat) (f : NvsTile → NvsTile) : (s.updArray t f).dram = s.dram := State.with_nvs_dram ..
@[simp] theorem State.updArray_dec (s : State) (t : Nat) (f : NvsTile → NvsTile) : (s.updArray t f).dec = s.dec := State.with_nvs_dec ..
@[simp] theorem State.updArray_deep (s : State) (t : Nat) (f : NvsTile → NvsTile) : (s.updArray t f).deep = s.deep := State.with_nvs_deep ..
@[simp] theorem State.updArray_feed (s : State) (t : Nat) (f : NvsTile → NvsTile) : (s.updArray t f).feed = s.feed := State.with_nvs_feed ..

/-! ### updAms -/

@[simp] theorem State.updAms_pending (s : State) (f : Ams → Ams) : (s.updAms f).pending = s.pending := State.with_ams_pending ..
@[simp] theorem State.updAms_now (s : State) (f : Ams → Ams) : (s.updAms f).now = s.now := State.with_ams_now ..
@[simp] theorem State.updAms_tiles (s : State) (f : Ams → Ams) : (s.updAms f).tiles = s.tiles := State.with_ams_tiles ..
@[simp] theorem State.updAms_freeCtr (s : State) (f : Ams → Ams) : (s.updAms f).freeCtr = s.freeCtr := State.with_ams_freeCtr ..
@[simp] theorem State.updAms_regs (s : State) (f : Ams → Ams) : (s.updAms f).regs = s.regs := State.with_ams_regs ..
@[simp] theorem State.updAms_mem (s : State) (f : Ams → Ams) : (s.updAms f).mem = s.mem := State.with_ams_mem ..
@[simp] theorem State.updAms_otp (s : State) (f : Ams → Ams) : (s.updAms f).otp = s.otp := State.with_ams_otp ..
@[simp] theorem State.updAms_recd (s : State) (f : Ams → Ams) : (s.updAms f).recd = s.recd := State.with_ams_recd ..
@[simp] theorem State.updAms_mb (s : State) (f : Ams → Ams) : (s.updAms f).mb = s.mb := State.with_ams_mb ..
@[simp] theorem State.updAms_kse (s : State) (f : Ams → Ams) : (s.updAms f).kse = s.kse := State.with_ams_kse ..
@[simp] theorem State.updAms_nvs (s : State) (f : Ams → Ams) : (s.updAms f).nvs = s.nvs := State.with_ams_nvs ..
@[simp] theorem State.updAms_nv (s : State) (f : Ams → Ams) : (s.updAms f).nv = s.nv := State.with_ams_nv ..
@[simp] theorem State.updAms_boot (s : State) (f : Ams → Ams) : (s.updAms f).boot = s.boot := State.with_ams_boot ..
@[simp] theorem State.updAms_pow (s : State) (f : Ams → Ams) : (s.updAms f).pow = s.pow := State.with_ams_pow ..
@[simp] theorem State.updAms_twb (s : State) (f : Ams → Ams) : (s.updAms f).twb = s.twb := State.with_ams_twb ..
@[simp] theorem State.updAms_out (s : State) (f : Ams → Ams) : (s.updAms f).out = s.out := State.with_ams_out ..
@[simp] theorem State.updAms_cache (s : State) (f : Ams → Ams) : (s.updAms f).cache = s.cache := State.with_ams_cache ..
@[simp] theorem State.updAms_firn (s : State) (f : Ams → Ams) : (s.updAms f).firn = s.firn := State.with_ams_firn ..
@[simp] theorem State.updAms_frzRun (s : State) (f : Ams → Ams) : (s.updAms f).frzRun = s.frzRun := State.with_ams_frzRun ..
@[simp] theorem State.updAms_net (s : State) (f : Ams → Ams) : (s.updAms f).net = s.net := State.with_ams_net ..
@[simp] theorem State.updAms_twin (s : State) (f : Ams → Ams) : (s.updAms f).twin = s.twin := State.with_ams_twin ..
@[simp] theorem State.updAms_board (s : State) (f : Ams → Ams) : (s.updAms f).board = s.board := State.with_ams_board ..
@[simp] theorem State.updAms_dram (s : State) (f : Ams → Ams) : (s.updAms f).dram = s.dram := State.with_ams_dram ..
@[simp] theorem State.updAms_dec (s : State) (f : Ams → Ams) : (s.updAms f).dec = s.dec := State.with_ams_dec ..
@[simp] theorem State.updAms_deep (s : State) (f : Ams → Ams) : (s.updAms f).deep = s.deep := State.with_ams_deep ..
@[simp] theorem State.updAms_feed (s : State) (f : Ams → Ams) : (s.updAms f).feed = s.feed := State.with_ams_feed ..

/-! ### updCache -/

@[simp] theorem State.updCache_pending (s : State) (f : CacheSt → CacheSt) : (s.updCache f).pending = s.pending := State.with_cache_pending ..
@[simp] theorem State.updCache_now (s : State) (f : CacheSt → CacheSt) : (s.updCache f).now = s.now := State.with_cache_now ..
@[simp] theorem State.updCache_tiles (s : State) (f : CacheSt → CacheSt) : (s.updCache f).tiles = s.tiles := State.with_cache_tiles ..
@[simp] theorem State.updCache_freeCtr (s : State) (f : CacheSt → CacheSt) : (s.updCache f).freeCtr = s.freeCtr := State.with_cache_freeCtr ..
@[simp] theorem State.updCache_regs (s : State) (f : CacheSt → CacheSt) : (s.updCache f).regs = s.regs := State.with_cache_regs ..
@[simp] theorem State.updCache_mem (s : State) (f : CacheSt → CacheSt) : (s.updCache f).mem = s.mem := State.with_cache_mem ..
@[simp] theorem State.updCache_otp (s : State) (f : CacheSt → CacheSt) : (s.updCache f).otp = s.otp := State.with_cache_otp ..
@[simp] theorem State.updCache_recd (s : State) (f : CacheSt → CacheSt) : (s.updCache f).recd = s.recd := State.with_cache_recd ..
@[simp] theorem State.updCache_mb (s : State) (f : CacheSt → CacheSt) : (s.updCache f).mb = s.mb := State.with_cache_mb ..
@[simp] theorem State.updCache_kse (s : State) (f : CacheSt → CacheSt) : (s.updCache f).kse = s.kse := State.with_cache_kse ..
@[simp] theorem State.updCache_nvs (s : State) (f : CacheSt → CacheSt) : (s.updCache f).nvs = s.nvs := State.with_cache_nvs ..
@[simp] theorem State.updCache_nv (s : State) (f : CacheSt → CacheSt) : (s.updCache f).nv = s.nv := State.with_cache_nv ..
@[simp] theorem State.updCache_boot (s : State) (f : CacheSt → CacheSt) : (s.updCache f).boot = s.boot := State.with_cache_boot ..
@[simp] theorem State.updCache_pow (s : State) (f : CacheSt → CacheSt) : (s.updCache f).pow = s.pow := State.with_cache_pow ..
@[simp] theorem State.updCache_twb (s : State) (f : CacheSt → CacheSt) : (s.updCache f).twb = s.twb := State.with_cache_twb ..
@[simp] theorem State.updCache_out (s : State) (f : CacheSt → CacheSt) : (s.updCache f).out = s.out := State.with_cache_out ..
@[simp] theorem State.updCache_ams (s : State) (f : CacheSt → CacheSt) : (s.updCache f).ams = s.ams := State.with_cache_ams ..
@[simp] theorem State.updCache_firn (s : State) (f : CacheSt → CacheSt) : (s.updCache f).firn = s.firn := State.with_cache_firn ..
@[simp] theorem State.updCache_frzRun (s : State) (f : CacheSt → CacheSt) : (s.updCache f).frzRun = s.frzRun := State.with_cache_frzRun ..
@[simp] theorem State.updCache_net (s : State) (f : CacheSt → CacheSt) : (s.updCache f).net = s.net := State.with_cache_net ..
@[simp] theorem State.updCache_twin (s : State) (f : CacheSt → CacheSt) : (s.updCache f).twin = s.twin := State.with_cache_twin ..
@[simp] theorem State.updCache_board (s : State) (f : CacheSt → CacheSt) : (s.updCache f).board = s.board := State.with_cache_board ..
@[simp] theorem State.updCache_dram (s : State) (f : CacheSt → CacheSt) : (s.updCache f).dram = s.dram := State.with_cache_dram ..
@[simp] theorem State.updCache_dec (s : State) (f : CacheSt → CacheSt) : (s.updCache f).dec = s.dec := State.with_cache_dec ..
@[simp] theorem State.updCache_deep (s : State) (f : CacheSt → CacheSt) : (s.updCache f).deep = s.deep := State.with_cache_deep ..
@[simp] theorem State.updCache_feed (s : State) (f : CacheSt → CacheSt) : (s.updCache f).feed = s.feed := State.with_cache_feed ..

/-! ### updFirn -/

@[simp] theorem State.updFirn_pending (s : State) (f : Firn → Firn) : (s.updFirn f).pending = s.pending := State.with_firn_pending ..
@[simp] theorem State.updFirn_now (s : State) (f : Firn → Firn) : (s.updFirn f).now = s.now := State.with_firn_now ..
@[simp] theorem State.updFirn_tiles (s : State) (f : Firn → Firn) : (s.updFirn f).tiles = s.tiles := State.with_firn_tiles ..
@[simp] theorem State.updFirn_freeCtr (s : State) (f : Firn → Firn) : (s.updFirn f).freeCtr = s.freeCtr := State.with_firn_freeCtr ..
@[simp] theorem State.updFirn_regs (s : State) (f : Firn → Firn) : (s.updFirn f).regs = s.regs := State.with_firn_regs ..
@[simp] theorem State.updFirn_mem (s : State) (f : Firn → Firn) : (s.updFirn f).mem = s.mem := State.with_firn_mem ..
@[simp] theorem State.updFirn_otp (s : State) (f : Firn → Firn) : (s.updFirn f).otp = s.otp := State.with_firn_otp ..
@[simp] theorem State.updFirn_recd (s : State) (f : Firn → Firn) : (s.updFirn f).recd = s.recd := State.with_firn_recd ..
@[simp] theorem State.updFirn_mb (s : State) (f : Firn → Firn) : (s.updFirn f).mb = s.mb := State.with_firn_mb ..
@[simp] theorem State.updFirn_kse (s : State) (f : Firn → Firn) : (s.updFirn f).kse = s.kse := State.with_firn_kse ..
@[simp] theorem State.updFirn_nvs (s : State) (f : Firn → Firn) : (s.updFirn f).nvs = s.nvs := State.with_firn_nvs ..
@[simp] theorem State.updFirn_nv (s : State) (f : Firn → Firn) : (s.updFirn f).nv = s.nv := State.with_firn_nv ..
@[simp] theorem State.updFirn_boot (s : State) (f : Firn → Firn) : (s.updFirn f).boot = s.boot := State.with_firn_boot ..
@[simp] theorem State.updFirn_pow (s : State) (f : Firn → Firn) : (s.updFirn f).pow = s.pow := State.with_firn_pow ..
@[simp] theorem State.updFirn_twb (s : State) (f : Firn → Firn) : (s.updFirn f).twb = s.twb := State.with_firn_twb ..
@[simp] theorem State.updFirn_out (s : State) (f : Firn → Firn) : (s.updFirn f).out = s.out := State.with_firn_out ..
@[simp] theorem State.updFirn_ams (s : State) (f : Firn → Firn) : (s.updFirn f).ams = s.ams := State.with_firn_ams ..
@[simp] theorem State.updFirn_cache (s : State) (f : Firn → Firn) : (s.updFirn f).cache = s.cache := State.with_firn_cache ..
@[simp] theorem State.updFirn_frzRun (s : State) (f : Firn → Firn) : (s.updFirn f).frzRun = s.frzRun := State.with_firn_frzRun ..
@[simp] theorem State.updFirn_net (s : State) (f : Firn → Firn) : (s.updFirn f).net = s.net := State.with_firn_net ..
@[simp] theorem State.updFirn_twin (s : State) (f : Firn → Firn) : (s.updFirn f).twin = s.twin := State.with_firn_twin ..
@[simp] theorem State.updFirn_board (s : State) (f : Firn → Firn) : (s.updFirn f).board = s.board := State.with_firn_board ..
@[simp] theorem State.updFirn_dram (s : State) (f : Firn → Firn) : (s.updFirn f).dram = s.dram := State.with_firn_dram ..
@[simp] theorem State.updFirn_dec (s : State) (f : Firn → Firn) : (s.updFirn f).dec = s.dec := State.with_firn_dec ..
@[simp] theorem State.updFirn_deep (s : State) (f : Firn → Firn) : (s.updFirn f).deep = s.deep := State.with_firn_deep ..
@[simp] theorem State.updFirn_feed (s : State) (f : Firn → Firn) : (s.updFirn f).feed = s.feed := State.with_firn_feed ..

/-! ### updTwin -/

@[simp] theorem State.updTwin_pending (s : State) (f : Twin → Twin) : (s.updTwin f).pending = s.pending := State.with_twin_pending ..
@[simp] theorem State.updTwin_now (s : State) (f : Twin → Twin) : (s.updTwin f).now = s.now := State.with_twin_now ..
@[simp] theorem State.updTwin_tiles (s : State) (f : Twin → Twin) : (s.updTwin f).tiles = s.tiles := State.with_twin_tiles ..
@[simp] theorem State.updTwin_freeCtr (s : State) (f : Twin → Twin) : (s.updTwin f).freeCtr = s.freeCtr := State.with_twin_freeCtr ..
@[simp] theorem State.updTwin_regs (s : State) (f : Twin → Twin) : (s.updTwin f).regs = s.regs := State.with_twin_regs ..
@[simp] theorem State.updTwin_mem (s : State) (f : Twin → Twin) : (s.updTwin f).mem = s.mem := State.with_twin_mem ..
@[simp] theorem State.updTwin_otp (s : State) (f : Twin → Twin) : (s.updTwin f).otp = s.otp := State.with_twin_otp ..
@[simp] theorem State.updTwin_recd (s : State) (f : Twin → Twin) : (s.updTwin f).recd = s.recd := State.with_twin_recd ..
@[simp] theorem State.updTwin_mb (s : State) (f : Twin → Twin) : (s.updTwin f).mb = s.mb := State.with_twin_mb ..
@[simp] theorem State.updTwin_kse (s : State) (f : Twin → Twin) : (s.updTwin f).kse = s.kse := State.with_twin_kse ..
@[simp] theorem State.updTwin_nvs (s : State) (f : Twin → Twin) : (s.updTwin f).nvs = s.nvs := State.with_twin_nvs ..
@[simp] theorem State.updTwin_nv (s : State) (f : Twin → Twin) : (s.updTwin f).nv = s.nv := State.with_twin_nv ..
@[simp] theorem State.updTwin_boot (s : State) (f : Twin → Twin) : (s.updTwin f).boot = s.boot := State.with_twin_boot ..
@[simp] theorem State.updTwin_pow (s : State) (f : Twin → Twin) : (s.updTwin f).pow = s.pow := State.with_twin_pow ..
@[simp] theorem State.updTwin_twb (s : State) (f : Twin → Twin) : (s.updTwin f).twb = s.twb := State.with_twin_twb ..
@[simp] theorem State.updTwin_out (s : State) (f : Twin → Twin) : (s.updTwin f).out = s.out := State.with_twin_out ..
@[simp] theorem State.updTwin_ams (s : State) (f : Twin → Twin) : (s.updTwin f).ams = s.ams := State.with_twin_ams ..
@[simp] theorem State.updTwin_cache (s : State) (f : Twin → Twin) : (s.updTwin f).cache = s.cache := State.with_twin_cache ..
@[simp] theorem State.updTwin_firn (s : State) (f : Twin → Twin) : (s.updTwin f).firn = s.firn := State.with_twin_firn ..
@[simp] theorem State.updTwin_frzRun (s : State) (f : Twin → Twin) : (s.updTwin f).frzRun = s.frzRun := State.with_twin_frzRun ..
@[simp] theorem State.updTwin_net (s : State) (f : Twin → Twin) : (s.updTwin f).net = s.net := State.with_twin_net ..
@[simp] theorem State.updTwin_board (s : State) (f : Twin → Twin) : (s.updTwin f).board = s.board := State.with_twin_board ..
@[simp] theorem State.updTwin_dram (s : State) (f : Twin → Twin) : (s.updTwin f).dram = s.dram := State.with_twin_dram ..
@[simp] theorem State.updTwin_dec (s : State) (f : Twin → Twin) : (s.updTwin f).dec = s.dec := State.with_twin_dec ..
@[simp] theorem State.updTwin_deep (s : State) (f : Twin → Twin) : (s.updTwin f).deep = s.deep := State.with_twin_deep ..
@[simp] theorem State.updTwin_feed (s : State) (f : Twin → Twin) : (s.updTwin f).feed = s.feed := State.with_twin_feed ..

/-! ### updTwl -/

@[simp] theorem State.updTwl_pending (s : State) (t : Nat) (f : TwinTile → TwinTile) : (s.updTwl t f).pending = s.pending := State.with_twin_pending ..
@[simp] theorem State.updTwl_now (s : State) (t : Nat) (f : TwinTile → TwinTile) : (s.updTwl t f).now = s.now := State.with_twin_now ..
@[simp] theorem State.updTwl_tiles (s : State) (t : Nat) (f : TwinTile → TwinTile) : (s.updTwl t f).tiles = s.tiles := State.with_twin_tiles ..
@[simp] theorem State.updTwl_freeCtr (s : State) (t : Nat) (f : TwinTile → TwinTile) : (s.updTwl t f).freeCtr = s.freeCtr := State.with_twin_freeCtr ..
@[simp] theorem State.updTwl_regs (s : State) (t : Nat) (f : TwinTile → TwinTile) : (s.updTwl t f).regs = s.regs := State.with_twin_regs ..
@[simp] theorem State.updTwl_mem (s : State) (t : Nat) (f : TwinTile → TwinTile) : (s.updTwl t f).mem = s.mem := State.with_twin_mem ..
@[simp] theorem State.updTwl_otp (s : State) (t : Nat) (f : TwinTile → TwinTile) : (s.updTwl t f).otp = s.otp := State.with_twin_otp ..
@[simp] theorem State.updTwl_recd (s : State) (t : Nat) (f : TwinTile → TwinTile) : (s.updTwl t f).recd = s.recd := State.with_twin_recd ..
@[simp] theorem State.updTwl_mb (s : State) (t : Nat) (f : TwinTile → TwinTile) : (s.updTwl t f).mb = s.mb := State.with_twin_mb ..
@[simp] theorem State.updTwl_kse (s : State) (t : Nat) (f : TwinTile → TwinTile) : (s.updTwl t f).kse = s.kse := State.with_twin_kse ..
@[simp] theorem State.updTwl_nvs (s : State) (t : Nat) (f : TwinTile → TwinTile) : (s.updTwl t f).nvs = s.nvs := State.with_twin_nvs ..
@[simp] theorem State.updTwl_nv (s : State) (t : Nat) (f : TwinTile → TwinTile) : (s.updTwl t f).nv = s.nv := State.with_twin_nv ..
@[simp] theorem State.updTwl_boot (s : State) (t : Nat) (f : TwinTile → TwinTile) : (s.updTwl t f).boot = s.boot := State.with_twin_boot ..
@[simp] theorem State.updTwl_pow (s : State) (t : Nat) (f : TwinTile → TwinTile) : (s.updTwl t f).pow = s.pow := State.with_twin_pow ..
@[simp] theorem State.updTwl_twb (s : State) (t : Nat) (f : TwinTile → TwinTile) : (s.updTwl t f).twb = s.twb := State.with_twin_twb ..
@[simp] theorem State.updTwl_out (s : State) (t : Nat) (f : TwinTile → TwinTile) : (s.updTwl t f).out = s.out := State.with_twin_out ..
@[simp] theorem State.updTwl_ams (s : State) (t : Nat) (f : TwinTile → TwinTile) : (s.updTwl t f).ams = s.ams := State.with_twin_ams ..
@[simp] theorem State.updTwl_cache (s : State) (t : Nat) (f : TwinTile → TwinTile) : (s.updTwl t f).cache = s.cache := State.with_twin_cache ..
@[simp] theorem State.updTwl_firn (s : State) (t : Nat) (f : TwinTile → TwinTile) : (s.updTwl t f).firn = s.firn := State.with_twin_firn ..
@[simp] theorem State.updTwl_frzRun (s : State) (t : Nat) (f : TwinTile → TwinTile) : (s.updTwl t f).frzRun = s.frzRun := State.with_twin_frzRun ..
@[simp] theorem State.updTwl_net (s : State) (t : Nat) (f : TwinTile → TwinTile) : (s.updTwl t f).net = s.net := State.with_twin_net ..
@[simp] theorem State.updTwl_board (s : State) (t : Nat) (f : TwinTile → TwinTile) : (s.updTwl t f).board = s.board := State.with_twin_board ..
@[simp] theorem State.updTwl_dram (s : State) (t : Nat) (f : TwinTile → TwinTile) : (s.updTwl t f).dram = s.dram := State.with_twin_dram ..
@[simp] theorem State.updTwl_dec (s : State) (t : Nat) (f : TwinTile → TwinTile) : (s.updTwl t f).dec = s.dec := State.with_twin_dec ..
@[simp] theorem State.updTwl_deep (s : State) (t : Nat) (f : TwinTile → TwinTile) : (s.updTwl t f).deep = s.deep := State.with_twin_deep ..
@[simp] theorem State.updTwl_feed (s : State) (t : Nat) (f : TwinTile → TwinTile) : (s.updTwl t f).feed = s.feed := State.with_twin_feed ..

/-! ### updNet -/

@[simp] theorem State.updNet_pending (s : State) (f : Net → Net) : (s.updNet f).pending = s.pending := State.with_net_pending ..
@[simp] theorem State.updNet_now (s : State) (f : Net → Net) : (s.updNet f).now = s.now := State.with_net_now ..
@[simp] theorem State.updNet_tiles (s : State) (f : Net → Net) : (s.updNet f).tiles = s.tiles := State.with_net_tiles ..
@[simp] theorem State.updNet_freeCtr (s : State) (f : Net → Net) : (s.updNet f).freeCtr = s.freeCtr := State.with_net_freeCtr ..
@[simp] theorem State.updNet_regs (s : State) (f : Net → Net) : (s.updNet f).regs = s.regs := State.with_net_regs ..
@[simp] theorem State.updNet_mem (s : State) (f : Net → Net) : (s.updNet f).mem = s.mem := State.with_net_mem ..
@[simp] theorem State.updNet_otp (s : State) (f : Net → Net) : (s.updNet f).otp = s.otp := State.with_net_otp ..
@[simp] theorem State.updNet_recd (s : State) (f : Net → Net) : (s.updNet f).recd = s.recd := State.with_net_recd ..
@[simp] theorem State.updNet_mb (s : State) (f : Net → Net) : (s.updNet f).mb = s.mb := State.with_net_mb ..
@[simp] theorem State.updNet_kse (s : State) (f : Net → Net) : (s.updNet f).kse = s.kse := State.with_net_kse ..
@[simp] theorem State.updNet_nvs (s : State) (f : Net → Net) : (s.updNet f).nvs = s.nvs := State.with_net_nvs ..
@[simp] theorem State.updNet_nv (s : State) (f : Net → Net) : (s.updNet f).nv = s.nv := State.with_net_nv ..
@[simp] theorem State.updNet_boot (s : State) (f : Net → Net) : (s.updNet f).boot = s.boot := State.with_net_boot ..
@[simp] theorem State.updNet_pow (s : State) (f : Net → Net) : (s.updNet f).pow = s.pow := State.with_net_pow ..
@[simp] theorem State.updNet_twb (s : State) (f : Net → Net) : (s.updNet f).twb = s.twb := State.with_net_twb ..
@[simp] theorem State.updNet_out (s : State) (f : Net → Net) : (s.updNet f).out = s.out := State.with_net_out ..
@[simp] theorem State.updNet_ams (s : State) (f : Net → Net) : (s.updNet f).ams = s.ams := State.with_net_ams ..
@[simp] theorem State.updNet_cache (s : State) (f : Net → Net) : (s.updNet f).cache = s.cache := State.with_net_cache ..
@[simp] theorem State.updNet_firn (s : State) (f : Net → Net) : (s.updNet f).firn = s.firn := State.with_net_firn ..
@[simp] theorem State.updNet_frzRun (s : State) (f : Net → Net) : (s.updNet f).frzRun = s.frzRun := State.with_net_frzRun ..
@[simp] theorem State.updNet_twin (s : State) (f : Net → Net) : (s.updNet f).twin = s.twin := State.with_net_twin ..
@[simp] theorem State.updNet_board (s : State) (f : Net → Net) : (s.updNet f).board = s.board := State.with_net_board ..
@[simp] theorem State.updNet_dram (s : State) (f : Net → Net) : (s.updNet f).dram = s.dram := State.with_net_dram ..
@[simp] theorem State.updNet_dec (s : State) (f : Net → Net) : (s.updNet f).dec = s.dec := State.with_net_dec ..
@[simp] theorem State.updNet_deep (s : State) (f : Net → Net) : (s.updNet f).deep = s.deep := State.with_net_deep ..
@[simp] theorem State.updNet_feed (s : State) (f : Net → Net) : (s.updNet f).feed = s.feed := State.with_net_feed ..

/-! ### updDeep -/

@[simp] theorem State.updDeep_pending (s : State) (f : DeepSt → DeepSt) : (s.updDeep f).pending = s.pending := State.with_deep_pending ..
@[simp] theorem State.updDeep_now (s : State) (f : DeepSt → DeepSt) : (s.updDeep f).now = s.now := State.with_deep_now ..
@[simp] theorem State.updDeep_tiles (s : State) (f : DeepSt → DeepSt) : (s.updDeep f).tiles = s.tiles := State.with_deep_tiles ..
@[simp] theorem State.updDeep_freeCtr (s : State) (f : DeepSt → DeepSt) : (s.updDeep f).freeCtr = s.freeCtr := State.with_deep_freeCtr ..
@[simp] theorem State.updDeep_regs (s : State) (f : DeepSt → DeepSt) : (s.updDeep f).regs = s.regs := State.with_deep_regs ..
@[simp] theorem State.updDeep_mem (s : State) (f : DeepSt → DeepSt) : (s.updDeep f).mem = s.mem := State.with_deep_mem ..
@[simp] theorem State.updDeep_otp (s : State) (f : DeepSt → DeepSt) : (s.updDeep f).otp = s.otp := State.with_deep_otp ..
@[simp] theorem State.updDeep_recd (s : State) (f : DeepSt → DeepSt) : (s.updDeep f).recd = s.recd := State.with_deep_recd ..
@[simp] theorem State.updDeep_mb (s : State) (f : DeepSt → DeepSt) : (s.updDeep f).mb = s.mb := State.with_deep_mb ..
@[simp] theorem State.updDeep_kse (s : State) (f : DeepSt → DeepSt) : (s.updDeep f).kse = s.kse := State.with_deep_kse ..
@[simp] theorem State.updDeep_nvs (s : State) (f : DeepSt → DeepSt) : (s.updDeep f).nvs = s.nvs := State.with_deep_nvs ..
@[simp] theorem State.updDeep_nv (s : State) (f : DeepSt → DeepSt) : (s.updDeep f).nv = s.nv := State.with_deep_nv ..
@[simp] theorem State.updDeep_boot (s : State) (f : DeepSt → DeepSt) : (s.updDeep f).boot = s.boot := State.with_deep_boot ..
@[simp] theorem State.updDeep_pow (s : State) (f : DeepSt → DeepSt) : (s.updDeep f).pow = s.pow := State.with_deep_pow ..
@[simp] theorem State.updDeep_twb (s : State) (f : DeepSt → DeepSt) : (s.updDeep f).twb = s.twb := State.with_deep_twb ..
@[simp] theorem State.updDeep_out (s : State) (f : DeepSt → DeepSt) : (s.updDeep f).out = s.out := State.with_deep_out ..
@[simp] theorem State.updDeep_ams (s : State) (f : DeepSt → DeepSt) : (s.updDeep f).ams = s.ams := State.with_deep_ams ..
@[simp] theorem State.updDeep_cache (s : State) (f : DeepSt → DeepSt) : (s.updDeep f).cache = s.cache := State.with_deep_cache ..
@[simp] theorem State.updDeep_firn (s : State) (f : DeepSt → DeepSt) : (s.updDeep f).firn = s.firn := State.with_deep_firn ..
@[simp] theorem State.updDeep_frzRun (s : State) (f : DeepSt → DeepSt) : (s.updDeep f).frzRun = s.frzRun := State.with_deep_frzRun ..
@[simp] theorem State.updDeep_net (s : State) (f : DeepSt → DeepSt) : (s.updDeep f).net = s.net := State.with_deep_net ..
@[simp] theorem State.updDeep_twin (s : State) (f : DeepSt → DeepSt) : (s.updDeep f).twin = s.twin := State.with_deep_twin ..
@[simp] theorem State.updDeep_board (s : State) (f : DeepSt → DeepSt) : (s.updDeep f).board = s.board := State.with_deep_board ..
@[simp] theorem State.updDeep_dram (s : State) (f : DeepSt → DeepSt) : (s.updDeep f).dram = s.dram := State.with_deep_dram ..
@[simp] theorem State.updDeep_dec (s : State) (f : DeepSt → DeepSt) : (s.updDeep f).dec = s.dec := State.with_deep_dec ..
@[simp] theorem State.updDeep_feed (s : State) (f : DeepSt → DeepSt) : (s.updDeep f).feed = s.feed := State.with_deep_feed ..

/-! ### updDec -/

@[simp] theorem State.updDec_pending (s : State) (f : DecSt → DecSt) : (s.updDec f).pending = s.pending := State.with_dec_pending ..
@[simp] theorem State.updDec_now (s : State) (f : DecSt → DecSt) : (s.updDec f).now = s.now := State.with_dec_now ..
@[simp] theorem State.updDec_tiles (s : State) (f : DecSt → DecSt) : (s.updDec f).tiles = s.tiles := State.with_dec_tiles ..
@[simp] theorem State.updDec_freeCtr (s : State) (f : DecSt → DecSt) : (s.updDec f).freeCtr = s.freeCtr := State.with_dec_freeCtr ..
@[simp] theorem State.updDec_regs (s : State) (f : DecSt → DecSt) : (s.updDec f).regs = s.regs := State.with_dec_regs ..
@[simp] theorem State.updDec_mem (s : State) (f : DecSt → DecSt) : (s.updDec f).mem = s.mem := State.with_dec_mem ..
@[simp] theorem State.updDec_otp (s : State) (f : DecSt → DecSt) : (s.updDec f).otp = s.otp := State.with_dec_otp ..
@[simp] theorem State.updDec_recd (s : State) (f : DecSt → DecSt) : (s.updDec f).recd = s.recd := State.with_dec_recd ..
@[simp] theorem State.updDec_mb (s : State) (f : DecSt → DecSt) : (s.updDec f).mb = s.mb := State.with_dec_mb ..
@[simp] theorem State.updDec_kse (s : State) (f : DecSt → DecSt) : (s.updDec f).kse = s.kse := State.with_dec_kse ..
@[simp] theorem State.updDec_nvs (s : State) (f : DecSt → DecSt) : (s.updDec f).nvs = s.nvs := State.with_dec_nvs ..
@[simp] theorem State.updDec_nv (s : State) (f : DecSt → DecSt) : (s.updDec f).nv = s.nv := State.with_dec_nv ..
@[simp] theorem State.updDec_boot (s : State) (f : DecSt → DecSt) : (s.updDec f).boot = s.boot := State.with_dec_boot ..
@[simp] theorem State.updDec_pow (s : State) (f : DecSt → DecSt) : (s.updDec f).pow = s.pow := State.with_dec_pow ..
@[simp] theorem State.updDec_twb (s : State) (f : DecSt → DecSt) : (s.updDec f).twb = s.twb := State.with_dec_twb ..
@[simp] theorem State.updDec_out (s : State) (f : DecSt → DecSt) : (s.updDec f).out = s.out := State.with_dec_out ..
@[simp] theorem State.updDec_ams (s : State) (f : DecSt → DecSt) : (s.updDec f).ams = s.ams := State.with_dec_ams ..
@[simp] theorem State.updDec_cache (s : State) (f : DecSt → DecSt) : (s.updDec f).cache = s.cache := State.with_dec_cache ..
@[simp] theorem State.updDec_firn (s : State) (f : DecSt → DecSt) : (s.updDec f).firn = s.firn := State.with_dec_firn ..
@[simp] theorem State.updDec_frzRun (s : State) (f : DecSt → DecSt) : (s.updDec f).frzRun = s.frzRun := State.with_dec_frzRun ..
@[simp] theorem State.updDec_net (s : State) (f : DecSt → DecSt) : (s.updDec f).net = s.net := State.with_dec_net ..
@[simp] theorem State.updDec_twin (s : State) (f : DecSt → DecSt) : (s.updDec f).twin = s.twin := State.with_dec_twin ..
@[simp] theorem State.updDec_board (s : State) (f : DecSt → DecSt) : (s.updDec f).board = s.board := State.with_dec_board ..
@[simp] theorem State.updDec_dram (s : State) (f : DecSt → DecSt) : (s.updDec f).dram = s.dram := State.with_dec_dram ..
@[simp] theorem State.updDec_deep (s : State) (f : DecSt → DecSt) : (s.updDec f).deep = s.deep := State.with_dec_deep ..
@[simp] theorem State.updDec_feed (s : State) (f : DecSt → DecSt) : (s.updDec f).feed = s.feed := State.with_dec_feed ..

/-! ### updFeed -/

@[simp] theorem State.updFeed_pending (s : State) (f : Feed → Feed) : (s.updFeed f).pending = s.pending := State.with_feed_pending ..
@[simp] theorem State.updFeed_now (s : State) (f : Feed → Feed) : (s.updFeed f).now = s.now := State.with_feed_now ..
@[simp] theorem State.updFeed_tiles (s : State) (f : Feed → Feed) : (s.updFeed f).tiles = s.tiles := State.with_feed_tiles ..
@[simp] theorem State.updFeed_freeCtr (s : State) (f : Feed → Feed) : (s.updFeed f).freeCtr = s.freeCtr := State.with_feed_freeCtr ..
@[simp] theorem State.updFeed_regs (s : State) (f : Feed → Feed) : (s.updFeed f).regs = s.regs := State.with_feed_regs ..
@[simp] theorem State.updFeed_mem (s : State) (f : Feed → Feed) : (s.updFeed f).mem = s.mem := State.with_feed_mem ..
@[simp] theorem State.updFeed_otp (s : State) (f : Feed → Feed) : (s.updFeed f).otp = s.otp := State.with_feed_otp ..
@[simp] theorem State.updFeed_recd (s : State) (f : Feed → Feed) : (s.updFeed f).recd = s.recd := State.with_feed_recd ..
@[simp] theorem State.updFeed_mb (s : State) (f : Feed → Feed) : (s.updFeed f).mb = s.mb := State.with_feed_mb ..
@[simp] theorem State.updFeed_kse (s : State) (f : Feed → Feed) : (s.updFeed f).kse = s.kse := State.with_feed_kse ..
@[simp] theorem State.updFeed_nvs (s : State) (f : Feed → Feed) : (s.updFeed f).nvs = s.nvs := State.with_feed_nvs ..
@[simp] theorem State.updFeed_nv (s : State) (f : Feed → Feed) : (s.updFeed f).nv = s.nv := State.with_feed_nv ..
@[simp] theorem State.updFeed_boot (s : State) (f : Feed → Feed) : (s.updFeed f).boot = s.boot := State.with_feed_boot ..
@[simp] theorem State.updFeed_pow (s : State) (f : Feed → Feed) : (s.updFeed f).pow = s.pow := State.with_feed_pow ..
@[simp] theorem State.updFeed_twb (s : State) (f : Feed → Feed) : (s.updFeed f).twb = s.twb := State.with_feed_twb ..
@[simp] theorem State.updFeed_out (s : State) (f : Feed → Feed) : (s.updFeed f).out = s.out := State.with_feed_out ..
@[simp] theorem State.updFeed_ams (s : State) (f : Feed → Feed) : (s.updFeed f).ams = s.ams := State.with_feed_ams ..
@[simp] theorem State.updFeed_cache (s : State) (f : Feed → Feed) : (s.updFeed f).cache = s.cache := State.with_feed_cache ..
@[simp] theorem State.updFeed_firn (s : State) (f : Feed → Feed) : (s.updFeed f).firn = s.firn := State.with_feed_firn ..
@[simp] theorem State.updFeed_frzRun (s : State) (f : Feed → Feed) : (s.updFeed f).frzRun = s.frzRun := State.with_feed_frzRun ..
@[simp] theorem State.updFeed_net (s : State) (f : Feed → Feed) : (s.updFeed f).net = s.net := State.with_feed_net ..
@[simp] theorem State.updFeed_twin (s : State) (f : Feed → Feed) : (s.updFeed f).twin = s.twin := State.with_feed_twin ..
@[simp] theorem State.updFeed_board (s : State) (f : Feed → Feed) : (s.updFeed f).board = s.board := State.with_feed_board ..
@[simp] theorem State.updFeed_dram (s : State) (f : Feed → Feed) : (s.updFeed f).dram = s.dram := State.with_feed_dram ..
@[simp] theorem State.updFeed_dec (s : State) (f : Feed → Feed) : (s.updFeed f).dec = s.dec := State.with_feed_dec ..
@[simp] theorem State.updFeed_deep (s : State) (f : Feed → Feed) : (s.updFeed f).deep = s.deep := State.with_feed_deep ..

/-! ### updDmc -/

@[simp] theorem State.updDmc_pending (s : State) (t c : Nat) (f : DramCh → DramCh) : (s.updDmc t c f).pending = s.pending := State.with_dram_pending ..
@[simp] theorem State.updDmc_now (s : State) (t c : Nat) (f : DramCh → DramCh) : (s.updDmc t c f).now = s.now := State.with_dram_now ..
@[simp] theorem State.updDmc_tiles (s : State) (t c : Nat) (f : DramCh → DramCh) : (s.updDmc t c f).tiles = s.tiles := State.with_dram_tiles ..
@[simp] theorem State.updDmc_freeCtr (s : State) (t c : Nat) (f : DramCh → DramCh) : (s.updDmc t c f).freeCtr = s.freeCtr := State.with_dram_freeCtr ..
@[simp] theorem State.updDmc_regs (s : State) (t c : Nat) (f : DramCh → DramCh) : (s.updDmc t c f).regs = s.regs := State.with_dram_regs ..
@[simp] theorem State.updDmc_mem (s : State) (t c : Nat) (f : DramCh → DramCh) : (s.updDmc t c f).mem = s.mem := State.with_dram_mem ..
@[simp] theorem State.updDmc_otp (s : State) (t c : Nat) (f : DramCh → DramCh) : (s.updDmc t c f).otp = s.otp := State.with_dram_otp ..
@[simp] theorem State.updDmc_recd (s : State) (t c : Nat) (f : DramCh → DramCh) : (s.updDmc t c f).recd = s.recd := State.with_dram_recd ..
@[simp] theorem State.updDmc_mb (s : State) (t c : Nat) (f : DramCh → DramCh) : (s.updDmc t c f).mb = s.mb := State.with_dram_mb ..
@[simp] theorem State.updDmc_kse (s : State) (t c : Nat) (f : DramCh → DramCh) : (s.updDmc t c f).kse = s.kse := State.with_dram_kse ..
@[simp] theorem State.updDmc_nvs (s : State) (t c : Nat) (f : DramCh → DramCh) : (s.updDmc t c f).nvs = s.nvs := State.with_dram_nvs ..
@[simp] theorem State.updDmc_nv (s : State) (t c : Nat) (f : DramCh → DramCh) : (s.updDmc t c f).nv = s.nv := State.with_dram_nv ..
@[simp] theorem State.updDmc_boot (s : State) (t c : Nat) (f : DramCh → DramCh) : (s.updDmc t c f).boot = s.boot := State.with_dram_boot ..
@[simp] theorem State.updDmc_pow (s : State) (t c : Nat) (f : DramCh → DramCh) : (s.updDmc t c f).pow = s.pow := State.with_dram_pow ..
@[simp] theorem State.updDmc_twb (s : State) (t c : Nat) (f : DramCh → DramCh) : (s.updDmc t c f).twb = s.twb := State.with_dram_twb ..
@[simp] theorem State.updDmc_out (s : State) (t c : Nat) (f : DramCh → DramCh) : (s.updDmc t c f).out = s.out := State.with_dram_out ..
@[simp] theorem State.updDmc_ams (s : State) (t c : Nat) (f : DramCh → DramCh) : (s.updDmc t c f).ams = s.ams := State.with_dram_ams ..
@[simp] theorem State.updDmc_cache (s : State) (t c : Nat) (f : DramCh → DramCh) : (s.updDmc t c f).cache = s.cache := State.with_dram_cache ..
@[simp] theorem State.updDmc_firn (s : State) (t c : Nat) (f : DramCh → DramCh) : (s.updDmc t c f).firn = s.firn := State.with_dram_firn ..
@[simp] theorem State.updDmc_frzRun (s : State) (t c : Nat) (f : DramCh → DramCh) : (s.updDmc t c f).frzRun = s.frzRun := State.with_dram_frzRun ..
@[simp] theorem State.updDmc_net (s : State) (t c : Nat) (f : DramCh → DramCh) : (s.updDmc t c f).net = s.net := State.with_dram_net ..
@[simp] theorem State.updDmc_twin (s : State) (t c : Nat) (f : DramCh → DramCh) : (s.updDmc t c f).twin = s.twin := State.with_dram_twin ..
@[simp] theorem State.updDmc_board (s : State) (t c : Nat) (f : DramCh → DramCh) : (s.updDmc t c f).board = s.board := State.with_dram_board ..
@[simp] theorem State.updDmc_dec (s : State) (t c : Nat) (f : DramCh → DramCh) : (s.updDmc t c f).dec = s.dec := State.with_dram_dec ..
@[simp] theorem State.updDmc_deep (s : State) (t c : Nat) (f : DramCh → DramCh) : (s.updDmc t c f).deep = s.deep := State.with_dram_deep ..
@[simp] theorem State.updDmc_feed (s : State) (t c : Nat) (f : DramCh → DramCh) : (s.updDmc t c f).feed = s.feed := State.with_dram_feed ..

/-! ### updSession -/

@[simp] theorem State.updSession_pending (s : State) (p : Nat) (f : Session → Session) : (s.updSession p f).pending = s.pending := State.with_mb_pending ..
@[simp] theorem State.updSession_now (s : State) (p : Nat) (f : Session → Session) : (s.updSession p f).now = s.now := State.with_mb_now ..
@[simp] theorem State.updSession_tiles (s : State) (p : Nat) (f : Session → Session) : (s.updSession p f).tiles = s.tiles := State.with_mb_tiles ..
@[simp] theorem State.updSession_freeCtr (s : State) (p : Nat) (f : Session → Session) : (s.updSession p f).freeCtr = s.freeCtr := State.with_mb_freeCtr ..
@[simp] theorem State.updSession_regs (s : State) (p : Nat) (f : Session → Session) : (s.updSession p f).regs = s.regs := State.with_mb_regs ..
@[simp] theorem State.updSession_mem (s : State) (p : Nat) (f : Session → Session) : (s.updSession p f).mem = s.mem := State.with_mb_mem ..
@[simp] theorem State.updSession_otp (s : State) (p : Nat) (f : Session → Session) : (s.updSession p f).otp = s.otp := State.with_mb_otp ..
@[simp] theorem State.updSession_recd (s : State) (p : Nat) (f : Session → Session) : (s.updSession p f).recd = s.recd := State.with_mb_recd ..
@[simp] theorem State.updSession_kse (s : State) (p : Nat) (f : Session → Session) : (s.updSession p f).kse = s.kse := State.with_mb_kse ..
@[simp] theorem State.updSession_nvs (s : State) (p : Nat) (f : Session → Session) : (s.updSession p f).nvs = s.nvs := State.with_mb_nvs ..
@[simp] theorem State.updSession_nv (s : State) (p : Nat) (f : Session → Session) : (s.updSession p f).nv = s.nv := State.with_mb_nv ..
@[simp] theorem State.updSession_boot (s : State) (p : Nat) (f : Session → Session) : (s.updSession p f).boot = s.boot := State.with_mb_boot ..
@[simp] theorem State.updSession_pow (s : State) (p : Nat) (f : Session → Session) : (s.updSession p f).pow = s.pow := State.with_mb_pow ..
@[simp] theorem State.updSession_twb (s : State) (p : Nat) (f : Session → Session) : (s.updSession p f).twb = s.twb := State.with_mb_twb ..
@[simp] theorem State.updSession_out (s : State) (p : Nat) (f : Session → Session) : (s.updSession p f).out = s.out := State.with_mb_out ..
@[simp] theorem State.updSession_ams (s : State) (p : Nat) (f : Session → Session) : (s.updSession p f).ams = s.ams := State.with_mb_ams ..
@[simp] theorem State.updSession_cache (s : State) (p : Nat) (f : Session → Session) : (s.updSession p f).cache = s.cache := State.with_mb_cache ..
@[simp] theorem State.updSession_firn (s : State) (p : Nat) (f : Session → Session) : (s.updSession p f).firn = s.firn := State.with_mb_firn ..
@[simp] theorem State.updSession_frzRun (s : State) (p : Nat) (f : Session → Session) : (s.updSession p f).frzRun = s.frzRun := State.with_mb_frzRun ..
@[simp] theorem State.updSession_net (s : State) (p : Nat) (f : Session → Session) : (s.updSession p f).net = s.net := State.with_mb_net ..
@[simp] theorem State.updSession_twin (s : State) (p : Nat) (f : Session → Session) : (s.updSession p f).twin = s.twin := State.with_mb_twin ..
@[simp] theorem State.updSession_board (s : State) (p : Nat) (f : Session → Session) : (s.updSession p f).board = s.board := State.with_mb_board ..
@[simp] theorem State.updSession_dram (s : State) (p : Nat) (f : Session → Session) : (s.updSession p f).dram = s.dram := State.with_mb_dram ..
@[simp] theorem State.updSession_dec (s : State) (p : Nat) (f : Session → Session) : (s.updSession p f).dec = s.dec := State.with_mb_dec ..
@[simp] theorem State.updSession_deep (s : State) (p : Nat) (f : Session → Session) : (s.updSession p f).deep = s.deep := State.with_mb_deep ..
@[simp] theorem State.updSession_feed (s : State) (p : Nat) (f : Session → Session) : (s.updSession p f).feed = s.feed := State.with_mb_feed ..

/-! ### draw -/

@[simp] theorem State.draw_pending (s : State) : s.draw.2.pending = s.pending := State.with_freeCtr_pending ..
@[simp] theorem State.draw_now (s : State) : s.draw.2.now = s.now := State.with_freeCtr_now ..
@[simp] theorem State.draw_tiles (s : State) : s.draw.2.tiles = s.tiles := State.with_freeCtr_tiles ..
@[simp] theorem State.draw_regs (s : State) : s.draw.2.regs = s.regs := State.with_freeCtr_regs ..
@[simp] theorem State.draw_mem (s : State) : s.draw.2.mem = s.mem := State.with_freeCtr_mem ..
@[simp] theorem State.draw_otp (s : State) : s.draw.2.otp = s.otp := State.with_freeCtr_otp ..
@[simp] theorem State.draw_recd (s : State) : s.draw.2.recd = s.recd := State.with_freeCtr_recd ..
@[simp] theorem State.draw_mb (s : State) : s.draw.2.mb = s.mb := State.with_freeCtr_mb ..
@[simp] theorem State.draw_kse (s : State) : s.draw.2.kse = s.kse := State.with_freeCtr_kse ..
@[simp] theorem State.draw_nvs (s : State) : s.draw.2.nvs = s.nvs := State.with_freeCtr_nvs ..
@[simp] theorem State.draw_nv (s : State) : s.draw.2.nv = s.nv := State.with_freeCtr_nv ..
@[simp] theorem State.draw_boot (s : State) : s.draw.2.boot = s.boot := State.with_freeCtr_boot ..
@[simp] theorem State.draw_pow (s : State) : s.draw.2.pow = s.pow := State.with_freeCtr_pow ..
@[simp] theorem State.draw_twb (s : State) : s.draw.2.twb = s.twb := State.with_freeCtr_twb ..
@[simp] theorem State.draw_out (s : State) : s.draw.2.out = s.out := State.with_freeCtr_out ..
@[simp] theorem State.draw_ams (s : State) : s.draw.2.ams = s.ams := State.with_freeCtr_ams ..
@[simp] theorem State.draw_cache (s : State) : s.draw.2.cache = s.cache := State.with_freeCtr_cache ..
@[simp] theorem State.draw_firn (s : State) : s.draw.2.firn = s.firn := State.with_freeCtr_firn ..
@[simp] theorem State.draw_frzRun (s : State) : s.draw.2.frzRun = s.frzRun := State.with_freeCtr_frzRun ..
@[simp] theorem State.draw_net (s : State) : s.draw.2.net = s.net := State.with_freeCtr_net ..
@[simp] theorem State.draw_twin (s : State) : s.draw.2.twin = s.twin := State.with_freeCtr_twin ..
@[simp] theorem State.draw_board (s : State) : s.draw.2.board = s.board := State.with_freeCtr_board ..
@[simp] theorem State.draw_dram (s : State) : s.draw.2.dram = s.dram := State.with_freeCtr_dram ..
@[simp] theorem State.draw_dec (s : State) : s.draw.2.dec = s.dec := State.with_freeCtr_dec ..
@[simp] theorem State.draw_deep (s : State) : s.draw.2.deep = s.deep := State.with_freeCtr_deep ..
@[simp] theorem State.draw_feed (s : State) : s.draw.2.feed = s.feed := State.with_freeCtr_feed ..

@[simp] theorem State.draw_freeCtr (s : State) : s.draw.2.freeCtr = s.freeCtr + 1 := rfl

@[simp] theorem State.draw_fst (s : State) : s.draw.1 = Config.free s.freeCtr := rfl

end Sys2Proof.Machine
end

