-- ==== Sys2Proof/Laws/Registers.lean ====
section
/-! SUPPORT. Fields and registers after the shared register operations: events, counters, and that addresses of registers are distinct. -/

namespace Sys2Proof.Machine

/-- Addresses of registers of their sizes are distinct. -/
theorem regKey_inj {t u b c o p : Nat} (hb : b < 256) (hc : c < 256) (ho : o < 2 ^ 20) (hp : p < 2 ^ 20) (h : regKey t b o = regKey u c p) :
    t = u ∧ b = c ∧ o = p := by
  unfold regKey at h
  omega

/-- A field of one bit, set. -/
theorem fld_setF_bit (s : State) (t : Nat) (f : Fld) (h : f.w = 1) (hl : f.lo < 32) : (s.setF t f 1).fld t f = 1 := by
  rw [fld_setF_self _ _ _ _ (by omega), h]; rfl

theorem fld_bump_self (s : State) (t : Nat) (f : Fld) (n : Nat) (h : f.lo + f.w ≤ 32) :
    (s.bump t f n).fld t f = min (s.fld t f + n) (2 ^ f.w - 1) := by
  unfold State.bump
  rw [fld_setF_self _ _ _ _ h]
  have := Nat.two_pow_pos f.w
  exact Nat.mod_eq_of_lt (by omega)

theorem word_bump_ne (s : State) (t u b o : Nat) (f : Fld) (n : Nat) (h : regKey u b o ≠ regKey t f.blk f.off) :
    (s.bump t f n).word u b o = s.word u b o := word_setF_ne _ _ _ _ _ _ _ h

theorem fld_bump_ne (s : State) (t u : Nat) (f g : Fld) (n : Nat) (h : regKey u g.blk g.off ≠ regKey t f.blk f.off) :
    (s.bump t f n).fld u g = s.fld u g := fld_setF_ne _ _ _ _ _ _ h

/-- An event changes no register but its EVENTS register and the block's counter. -/
theorem word_ev_ne (s : State) (t u b o : Nat) (f : Fld) (h : regKey u b o ≠ regKey t f.blk f.off) (k : regKey u b o ≠ regKey t f.blk 0xffc) :
    (s.ev t f).word u b o = s.word u b o := by
  unfold State.ev
  rw [word_bump_ne _ _ _ _ _ _ _ k, word_setF_ne _ _ _ _ _ _ _ h]

theorem fld_ev_ne (s : State) (t u : Nat) (f g : Fld) (h : regKey u g.blk g.off ≠ regKey t f.blk f.off)
    (k : regKey u g.blk g.off ≠ regKey t f.blk 0xffc) : (s.ev t f).fld u g = s.fld u g := by
  unfold State.fld
  rw [word_ev_ne s t u g.blk g.off f h k]

/-- The bit of an event is set. -/
theorem fld_ev_self (s : State) (t : Nat) (f : Fld) (h : f.w = 1) (hl : f.lo < 32) (ho : f.off ≠ 0xffc) : (s.ev t f).fld t f = 1 := by
  unfold State.ev
  rw [fld_bump_ne _ _ _ _ _ _ (by unfold evtCnt regKey; simp only []; omega), fld_setF_bit s t f h hl]

/-- The event counter counts the setting. -/
theorem fld_ev_count (s : State) (t : Nat) (f : Fld) (ho : f.off ≠ 0xffc) :
    (s.ev t f).fld t (evtCnt f.blk) = min (s.fld t (evtCnt f.blk) + 1) (2 ^ 32 - 1) := by
  unfold State.ev
  rw [fld_bump_self _ t (evtCnt f.blk) 1 (Nat.le_refl 32), fld_setF_ne _ _ _ _ _ _ (by unfold evtCnt regKey; simp only []; omega)]
  rfl

/-- Other fields of the EVENTS register stand. -/
theorem fld_ev_other (s : State) (t : Nat) (f g : Fld) (h : f.lo + f.w ≤ 32) (hb : g.blk = f.blk) (ho : g.off = f.off) (he : f.off ≠ 0xffc)
    (hd : g.lo + g.w ≤ f.lo ∨ f.lo + f.w ≤ g.lo) : (s.ev t f).fld t g = s.fld t g := by
  unfold State.ev
  rw [fld_bump_ne _ _ _ _ _ _ (by unfold evtCnt regKey; simp only [hb, ho]; omega), fld_setF_other s t f g 1 h hb ho hd]

/-! ### What the data of the device is through the shared operations -/

theorem SameData.rfl (a : State) : SameData a a := by simp [SameData]

theorem SameData.trans {a b c : State} (h : SameData a b) (k : SameData b c) : SameData a c := by
  obtain ⟨h1, h2, h3, h4, h5, h6, h7, h8, h9, h10, h11, h12, h13, h14, h15, h16⟩ := h
  obtain ⟨k1, k2, k3, k4, k5, k6, k7, k8, k9, k10, k11, k12, k13, k14, k15, k16⟩ := k
  exact ⟨k1.trans h1, k2.trans h2, k3.trans h3, k4.trans h4, k5.trans h5, k6.trans h6, k7.trans h7, k8.trans h8, k9.trans h9, k10.trans h10,
    k11.trans h11, k12.trans h12, k13.trans h13, k14.trans h14, k15.trans h15, k16.trans h16⟩

theorem setF_sameData (s : State) (t : Nat) (f : Fld) (v : Nat) : SameData s (s.setF t f v) := by simp [SameData]
theorem bump_sameData (s : State) (t : Nat) (f : Fld) (n : Nat) : SameData s (s.bump t f n) := by simp [SameData]
theorem ev_sameData (s : State) (t : Nat) (f : Fld) : SameData s (s.ev t f) := by simp [SameData]
theorem send_sameData (s : State) (o : Out) : SameData s (s.send o) := by simp [SameData]
theorem updNet_sameData (s : State) (f : Net → Net) : SameData s (s.updNet f) := by simp [SameData]
theorem updQp_sameData (s : State) (n : Nat) (f : Qp → Qp) : SameData s (s.updQp n f) := updNet_sameData _ _

theorem enqueueRec_sameData (s : State) (t : Nat) (r : EvRec) : SameData s (s.enqueueRec t r) := by
  unfold State.enqueueRec
  split <;> simp [SameData, State.loseEvent]

theorem evRec_sameData (s : State) (t : Nat) (f : Fld) (arg : Nat) : SameData s (s.evRec t f arg) :=
  (ev_sameData s t f).trans (enqueueRec_sameData _ _ _)

theorem xmit_sameData (s : State) (t port prio : Nat) (o : Out) : SameData s (s.xmit t port prio o) := by
  unfold State.xmit
  split <;> simp [SameData]

end Sys2Proof.Machine
end

