-- ==== Sys2Proof/Laws/Units.lean ====
section
/-! SUPPORT. What the forms that name a tile or a unit answer, said once for each form: a present one runs the meaning, an absent one has no
effect (R11). -/

namespace Sys2Proof.Machine

theorem onTile_present {t : Nat} {s x : State} (h : t < s.tiles) : onTile t s x = .next x := by simp only [onTile, if_pos h]

theorem onTile_absent {t : Nat} {s x : State} (h : ¬t < s.tiles) : onTile t s x = .next s := by simp only [onTile, if_neg h]

theorem onUnit_present {t u n : Nat} {s x : State} (h : t < s.tiles) (k : u < n) : onUnit t u n s x = .next x := by
  simp only [onUnit, if_pos h, if_pos k]

theorem onUnit_absent {t u n : Nat} {s x : State} (h : ¬(t < s.tiles ∧ u < n)) : onUnit t u n s x = .next s := by
  unfold onUnit
  split
  · next ht => rw [if_neg (fun k => h ⟨ht, k⟩)]
  · rfl

theorem onChannel_present {t c : Nat} {s x : State} (h : t < s.tiles) (k : c < 3) : onChannel t c s x = .next x := onUnit_present h k

theorem onChannel_absent {t c : Nat} {s x : State} (h : ¬(t < s.tiles ∧ c < 3)) : onChannel t c s x = .next s := onUnit_absent h

theorem onLport_present {t port lp : Nat} {s x : State} (h : t < s.tiles) (k : port < 2) (l : lp < 4) : onLport t port lp s x = .next x := by
  simp only [onLport, if_pos h, decide_eq_true k, decide_eq_true l, Bool.and_self, if_true]

theorem onTiles_all {s : State} {f : Nat → State → State} : onTiles 15 s f = .next (s.allTiles f) := rfl

theorem onTiles_present {t : Nat} {s : State} {f : Nat → State → State} (h : t < s.tiles) (k : t ≠ 15) : onTiles t s f = .next (f t s) := by
  rw [onTiles, if_neg k, onTile_present h]

theorem onSubmitter_present {sub : Nat} {s x : State} (h : sub < 4) : onSubmitter sub s x = .next x := by simp only [onSubmitter, if_pos h]

/-- A packet that reaches a logical port with an opcode of the row: the meaning runs, and a request ends a sleep entry (R390). -/
theorem onPacket_present {p : Packet} {own : List Nat} {s x : State} (h : p.tile < s.tiles) (k : p.port < 2) (l : p.lport < 4)
    (o : own.contains p.opcode = true) : onPacket p own s x = .next (if isRequest p then x.abortSleep else x) := by
  simp only [onPacket, if_pos h, decide_eq_true k, decide_eq_true l, o, Bool.and_self, Bool.true_or, if_true]

end Sys2Proof.Machine
end

