-- ==== Sys2Proof/Machine/Package.lean ====
section
/-! DEFINITION. The package as the machine shows it: ball designators, tile regions and ball counts (R464 to R466), the levels of the output balls
that the state decides (R467, R468), the power stages of each rail (R488) and the board classes (R480). -/

namespace Sys2Proof.Machine

/-! ### Balls (R463 to R466) -/

/-- The alphabet of row designators (R464). -/
def rowAlphabet : List Char := ['A', 'B', 'C', 'D', 'E', 'F', 'G', 'H', 'J', 'K', 'L', 'M', 'N', 'P', 'T', 'U', 'V', 'W', 'Y']

/-- The k-th letter of the alphabet, counting from 1. -/
def rowLetter (k : Nat) : Char := rowAlphabet.getD (k - 1) 'A'

/-- The designator of row i, counting from 1 (R464). -/
def rowName (i : Nat) : List Char :=
  if i ≤ 19 then [rowLetter i] else [rowLetter ((i - 20) / 19 + 1), rowLetter ((i - 20) % 19 + 1)]

/-- The index of a letter, counting from 1. -/
def letterIndex (c : Char) : Option Nat := (rowAlphabet.findIdx? (· == c)).map (· + 1)

/-- The row that a designator names. -/
def ballRow : List Char → Option Nat
  | [a] => letterIndex a
  | [a, b] => (letterIndex a).bind (fun p => (letterIndex b).map (fun k => 19 * p + k))
  | _ => none

/-- Rows and columns of the ball array (Table 19.1), by number of tiles. -/
def ballSide (tiles : Nat) : Nat := if tiles = 2 then 55 else if tiles = 4 then 72 else 96

/-- The spine rows (Table 19.2): first and last. -/
def spineRows (tiles : Nat) : Nat × Nat := if tiles = 2 then (27, 29) else if tiles = 4 then (35, 38) else (47, 50)

/-- Columns of one tile region (Table 19.2). -/
def regionCols (tiles : Nat) : Nat := if tiles = 2 then 55 else if tiles = 4 then 36 else 24

/-- The tile that owns a ball, with its tile-local row and column (R465); none on the spine or outside the array. -/
def tileOfBall (tiles row col : Nat) : Option (Nat × Nat × Nat) :=
  let n := ballSide tiles
  let w := regionCols tiles
  if row = 0 || n < row || col = 0 || n < col then none
  else
    let t := (col - 1) / w
    let j := (col - 1) % w + 1
    if row < (spineRows tiles).1 then some (t, row, j)
    else if (spineRows tiles).2 < row then some (tiles / 2 + t, n - row + 1, j)
    else none

/-- The uses of Table 19.3 with balls per tile and on the spine; VSS by variant. -/
def ballUses (tiles : Nat) : List (Nat × Nat) :=
  [(758, 0), (0, 86), (84, 32), (20, 0), (26, 0), (12, 0), (6, 0), (0, 16), (0, 4), (0, 16),
   if tiles = 2 then (524, 11) else if tiles = 4 then (318, 134) else (198, 230)]

/-- The balls of a variant. -/
def ballTotal (tiles : Nat) : Nat := ((ballUses tiles).map (fun e => e.1 * tiles + e.2)).sum

/-! ### Levels (R467, R468) -/

/-- What an output ball shows. -/
inductive PinLevel
  | unpowered | low | high | highZ | driven
deriving DecidableEq, Repr

/-- The output balls whose level the state decides: interlock, heartbeat, hold-up, power stages, clock request, the flash enables and write
protection of tile and channel, and the lanes of the feed. -/
inductive OutPin
  | twActo | twHbtx | huEn | huTload | psEn
  | psPwm (stage : Nat)
  | clkReqN
  | nfCeN (tile channel : Nat)
  | nfWpN (tile channel : Nat)
  | feed (tile lane : Nat)
deriving DecidableEq, Repr

/-- The rails other than VAON are up and the block that owns a ball has started: BOOT and every state behind it but S2. -/
def State.ownsPins (s : State) : Bool :=
  match s.dstate with
  | .off | .aonOnly | .s2 | .s3 => false
  | _ => true

/-- A level by a Bool. -/
def PinLevel.ofBool (b : Bool) : PinLevel := if b then .high else .low

/-- The level of an output ball (Tables 19.4 and 19.5). -/
def State.pinLevel (s : State) (p : OutPin) : PinLevel :=
  if s.dstate == .off then .unpowered else
  let on := s.ownsPins
  match p with
  | .twActo => PinLevel.ofBool (on && s.flag 0 TWA.STATUS.ACTO)
  | .twHbtx => if on && s.twin.leaseOk then .driven else .highZ
  | .huEn => PinLevel.ofBool (s.flag 0 PWC.STATUS.HU_EN && s.dstate != .aonOnly && s.dstate != .s3)
  | .huTload => PinLevel.ofBool s.pow.huTload
  | .psEn => PinLevel.ofBool (s.dstate != .aonOnly && s.dstate != .s3)
  | .psPwm k => if (s.fld 0 PWC.PHASES.ON).testBit k then .driven else .highZ
  | .clkReqN => PinLevel.ofBool (!s.flag 0 PWC.STATUS.CLK_REQ)
  | .nfCeN t c => if on && s.fld t (Fld.inst FCH.STATUS.STATE c) != 0 then .driven else .high
  | .nfWpN t c => PinLevel.ofBool (on && s.fld t (Fld.inst FCH.STATUS.STATE c) != 0)
  | .feed t k => if s.dstate == .s3 || s.dstate == .aonOnly then .unpowered
    else if on && (s.fld t FED.LANES.POWERED).testBit k then .driven else .highZ

end Sys2Proof.Machine
end

