-- ==== Sys2Proof/WellFormed.lean ====
section
/-! DEFINITION. Well-formed commands: what the block's surroundings can send at all. A meaning is total on the others too. -/

namespace Sys2Proof

/-- A tile number: no variant has more than eight tiles. -/
def okTile (t : Nat) : Bool := decide (t < 8)

/-- A tile number, or 0xF for every tile (R352). -/
def okTiles (t : Nat) : Bool := decide (t < 8) || t == 15

/-- A frame (Table 12.2): a mailbox point, header fields of their sizes, at most 4,096 payload bytes. -/
def Frame.wf (f : Frame) : Bool :=
  decide (f.point < 16) && decide (f.opcode < 2 ^ 16) && decide (f.flags < 2 ^ 8) && decide (f.version < 2 ^ 8) && decide (f.tag < 2 ^ 32) &&
  decide (f.session < 2 ^ 32) && decide (f.status < 2 ^ 16) && decide (f.ctr < 2 ^ 32) && decide (f.dstate < 2 ^ 8) && decide (f.trole < 2 ^ 8) &&
  decide (f.rsv < 2 ^ 208) && decide (f.payload.length ≤ 4096)

/-- A packet (R208, R209): where it arrives, field widths of the BTH, RETH and AtomicETH, at most 4,096 payload bytes. -/
def Packet.wf (p : Packet) : Bool :=
  decide (p.tile < 8) && decide (p.port < 2) && decide (p.lport < 4) && decide (p.qpn < 2 ^ 24) && decide (p.opcode < 2 ^ 8) &&
  decide (p.psn < 2 ^ 24) && decide (p.va < 2 ^ 64) && decide (p.key < 2 ^ 32) && decide (p.len < 2 ^ 32) && decide (p.swap < 2 ^ 64) &&
  decide (p.cmp < 2 ^ 64) && decide (p.imm < 2 ^ 32) && decide (p.data.length ≤ 4096)

/-- A connection request (R213). -/
def ConnectReq.wf (r : ConnectReq) : Bool :=
  decide (r.tile < 8) && decide (r.port < 2) && decide (r.lport < 4) && decide (r.rqpn < 2 ^ 24) && decide (r.psn < 2 ^ 24) &&
  decide (r.gid < 2 ^ 128) && decide (r.retry < 8) && decide (r.rnrRetry < 8) && decide (r.ackTimeout < 32) && decide (r.priv.length ≤ 32)

/-- A key-slot engine request (Table 15.2). -/
def KseReq.wf (q : KseReq) : Bool :=
  decide (q.op < 2 ^ 8) && decide (q.slot < 2 ^ 8) && decide (q.slotGen < 2 ^ 8) && decide (q.flags < 2 ^ 8) && decide (q.src < 2 ^ 8) &&
  decide (q.dst < 2 ^ 8) && decide (q.dstTile < 2 ^ 8) && decide (q.dstAttr < 2 ^ 8) && decide (q.tag < 2 ^ 32)

/-- Whether a command is well-formed: tiles, units and fields within what the interface can carry. -/
def Instr.wf : Instr → Bool
  | .vaonApplied _ _ => true
  | .vaonLost => true
  | .vaonLow => true
  | .mainsOkHigh => true
  | .mainsOkLow tile => okTile tile
  | .huTrip tile => okTile tile
  | .huEmerg tile => okTile tile
  | .tripArm tile => okTile tile
  | .tcrit tile => okTile tile
  | .freezeNet tile => okTile tile
  | .railFault rail => decide (rail < 4)
  | .phaseFault _ _ => true
  | .phaseShedLoad _ _ => true
  | .xtalFail => true
  | .wakeN _ => true
  | .wakeTimer => true
  | .thermalCheck _ => true
  | .wdogKick => true
  | .wdogExpiry => true
  | .leaseKick => true
  | .leaseExpired => true
  | .freezeTrigger tile _ => okTile tile
  | .secondTrigger tile => okTile tile
  | .drainWindowEnd tile => okTile tile
  | .dumpComplete tile => okTile tile
  | .sealVerified tile => okTile tile
  | .railsRemoved => true
  | .mainsReturn => true
  | .coldBoot => true
  | .boot _ => true
  | .bootromKeyInit _ => true
  | .selftestSlice tile _ => okTile tile
  | .sliceResult tile _ _ _ => okTile tile
  | .sliceBudgetExpiry tile => okTile tile
  | .dramTrain _ _ _ => true
  | .bankMeasureStart _ _ => true
  | .bankWaitExpiry => true
  | .bankMeasureEnd _ _ => true
  | .restore tile _ _ _ => okTile tile
  | .releaseToService => true
  | .bgRestorePage tile _ _ _ _ _ => okTile tile
  | .roleSettle => true
  | .helloSend tile => okTile tile
  | .hello tile _ => okTile tile
  | .heartbeatSend tile => okTile tile
  | .heartbeat tile _ => okTile tile
  | .heartbeatWord _ _ => true
  | .partnerLost => true
  | .pathLost => true
  | .interlockFault => true
  | .twActiChange _ => true
  | .guardExpiry => true
  | .contentionBackoff => true
  | .takeover => true
  | .twinGateChange => true
  | .mirror tile _ => okTile tile
  | .mirrorRetransmit tile => okTile tile
  | .mirrorAck tile _ => okTile tile
  | .credit tile _ => okTile tile
  | .creditBooksReset tile => okTile tile
  | .fetchReq tile _ => okTile tile
  | .fetchResp tile _ => okTile tile
  | .fetchTimeout tile _ => okTile tile
  | .portionRecord tile => okTile tile
  | .atomicRecord tile => okTile tile
  | .qpCtxRecord tile => okTile tile
  | .capsuleRecord tile => okTile tile
  | .completionRecord tile => okTile tile
  | .startRecord tile => okTile tile
  | .chainRecord tile => okTile tile
  | .commandRecord => true
  | .revokeRecord => true
  | .orderRecord => true
  | .moveRecord tile => okTile tile
  | .readyRecord tile => okTile tile
  | .indexMark tile => okTile tile
  | .epochRecord => true
  | .swapRecord => true
  | .snapshotRecord tile => okTile tile
  | .stateRecord tile => okTile tile
  | .resyncSnapshot tile => okTile tile
  | .resyncComplete => true
  | .comebackHoldoff => true
  | .swapTimeout => true
  | .twinLinkDown tile => okTile tile
  | .twinLinkUp tile => okTile tile
  | .pnNear tile => okTile tile
  | .rxNewKn tile _ _ => okTile tile
  | .macsecVerifyFail tile _ => okTile tile
  | .pairKeyTimeout tile => okTile tile
  | .ethLinkUp tile port lport => okTile tile && decide (port < 2) && decide (lport < 4)
  | .ethLinkDown tile port lport => okTile tile && decide (port < 2) && decide (lport < 4)
  | .linkDownHoldExpiry tile port lport => okTile tile && decide (port < 2) && decide (lport < 4)
  | .ethFrame tile port _ _ _ => okTile tile && decide (port < 2)
  | .pfcPause tile port prio _ => okTile tile && decide (port < 2) && decide (prio < 8)
  | .pfcWatchdog tile port prio => okTile tile && decide (port < 2) && decide (prio < 8)
  | .req r => r.wf
  | .rtu _ => true
  | .connectTimeout _ _ => true
  | .dreq _ => true
  | .qpSettled _ => true
  | .errHoldExpiry _ => true
  | .send p => p.wf
  | .rdmaWrite p => p.wf
  | .rdmaWriteImm p => p.wf
  | .rdmaReadRequest p _ => p.wf
  | .cmpSwap p => p.wf
  | .fetchAdd p => p.wf
  | .ackReceived p => p.wf
  | .readResponse p => p.wf
  | .cnp p => p.wf
  | .cnpRateRestore _ => true
  | .ackTimeout _ => true
  | .rnrTimer _ => true
  | .ackSend _ => true
  | .contextFetch _ => true
  | .windowRecompute tile => okTile tile
  | .bufBooksCheck tile => okTile tile
  | .admitPortion _ => true
  | .tokenGrant tile => okTile tile
  | .applyPortion _ => true
  | .discardPortion _ => true
  | .capsulePull _ => true
  | .capsuleStart _ => true
  | .capsuleWrite _ => true
  | .capsuleRead _ => true
  | .commit _ => true
  | .copy _ => true
  | .notify _ => true
  | .wait _ => true
  | .waitSatisfied _ => true
  | .moveTrigger _ => true
  | .capsuleComplete _ => true
  | .descriptorStart _ => true
  | .revokePhase1End => true
  | .revokePhase2End => true
  | .firnCapture tile _ => okTile tile
  | .programVerified tile _ _ => okTile tile
  | .firnBooksCheck tile => okTile tile
  | .firnDeepMerge tile _ => okTile tile
  | .moveRequest => true
  | .moveFrameFree _ => true
  | .moveCleaned _ => true
  | .movePassDone _ _ => true
  | .moveCommit _ => true
  | .homeMapApply tile _ => okTile tile
  | .forwardToHome _ => true
  | .localImageWrite _ => true
  | .orderRasterLine stream => decide (stream < 256)
  | .orderChainCount _ => true
  | .cacheLookup tile _ _ _ _ _ => okTile tile
  | .cacheFill tile _ => okTile tile
  | .evbWriteback tile => okTile tile
  | .cacheDrainDone tile => okTile tile
  | .repartitionDone tile => okTile tile
  | .tchEnWrite tile _ => okTiles tile
  | .tchWaypwrWrite tile _ => okTiles tile
  | .tchWayclassWrite tile _ => okTiles tile
  | .wayCleanDone tile way => okTile tile && decide (way < 16)
  | .clean tile => okTile tile
  | .invalidate tile => okTile tile
  | .dramRequest tile ch _ => okTile tile && decide (ch < 3)
  | .refreshDue tile ch _ => okTile tile && decide (ch < 3)
  | .refreshDebtMax tile ch _ => okTile tile && decide (ch < 3)
  | .tempPoll tile ch _ _ => okTile tile && decide (ch < 3)
  | .rowIdleClose tile ch _ => okTile tile && decide (ch < 3)
  | .panicLong tile ch => okTile tile && decide (ch < 3)
  | .retrainPause tile ch => okTile tile && decide (ch < 3)
  | .retrainForced tile ch => okTile tile && decide (ch < 3)
  | .speedGo tile ch _ => okTile tile && decide (ch < 3)
  | .freqChangeDone tile ch => okTile tile && decide (ch < 3)
  | .trnWriteReadCompare tile ch _ _ _ => okTile tile && decide (ch < 3)
  | .trnReadCompare tile ch _ _ _ => okTile tile && decide (ch < 3)
  | .trnCaLoopback tile ch _ _ _ => okTile tile && decide (ch < 3)
  | .trnWlSample tile ch _ _ _ => okTile tile && decide (ch < 3)
  | .sppr tile ch _ _ => okTile tile && decide (ch < 3)
  | .hppr tile ch _ _ => okTile tile && decide (ch < 3)
  | .dramRelocate tile => okTile tile
  | .s2RankReturn tile _ _ => okTile tile
  | .decRead tile _ _ _ _ _ => okTile tile
  | .firstWrite tile _ => okTile tile
  | .frameFree tile _ => okTile tile
  | .ueRecovery tile _ => okTile tile
  | .pageRetire tile _ => okTile tile
  | .scrubRead tile ch _ => okTile tile && decide (ch < 3)
  | .errorLogPoll tile _ => okTile tile
  | .decLogClearWrite tile _ => okTile tile
  | .decInjArm tile _ => okTile tile
  | .deepRead tile _ _ _ _ _ _ => okTile tile
  | .suspendRead tile _ _ _ => okTile tile
  | .deepProgramFail tile _ ch => okTile tile && decide (ch < 8)
  | .eraseFail tile _ ch => okTile tile && decide (ch < 8)
  | .gcStart tile => okTile tile
  | .gcStop tile => okTile tile
  | .tableFlush tile _ => okTile tile
  | .dumpArm tile => okTile tile
  | .previousRelease tile => okTile tile
  | .wearStage tile _ _ ch _ => okTile tile && decide (ch < 8)
  | .deepFirstFormat => true
  | .strobeEdge tile stb => okTile tile && decide (stb < 2)
  | .strobeEarly tile stb => okTile tile && decide (stb < 2)
  | .indexPulse tile => okTile tile
  | .prefetchDone stream _ _ => decide (stream < 256)
  | .fifoFull stream => decide (stream < 256)
  | .frameEnd stream => decide (stream < 256)
  | .fifoBooksCheck tile => okTile tile
  | .lidSend tile => okTile tile
  | .statusFrame tile lane _ _ => okTile tile && decide (lane < 5)
  | .laneFailing tile lane _ => okTile tile && decide (lane < 4)
  | .spareStatusOk tile => okTile tile
  | .spareTimeout tile => okTile tile
  | .sysIdentify f => f.wf
  | .sysState f => f.wf
  | .sysReset f => f.wf
  | .notifySubscribe f => f.wf
  | .notifyFetch f => f.wf
  | .sessionChallenge f => f.wf
  | .sessionOpen f => f.wf
  | .sessionClose f => f.wf
  | .sessionList f => f.wf
  | .regRead f => f.wf
  | .regWrite f => f.wf
  | .registerWrite tile _ _ _ => okTiles tile
  | .challengeExpiry _ => true
  | .sessionIdleExpiry point => decide (point < 16)
  | .lockoutExpiry role => decide (role < 4)
  | .setEndpointId _ _ => true
  | .getEndpointId => true
  | .getMctpVersionSupport _ => true
  | .getMessageTypeSupport => true
  | .getVendorMessageSupport _ => true
  | .netStatus f => f.wf
  | .netPortSet f => f.wf
  | .netAddrSet f => f.wf
  | .netDcbSet f => f.wf
  | .rmaConfig f => f.wf
  | .qpList f => f.wf
  | .qpInfo f => f.wf
  | .qpKill f => f.wf
  | .powerStatus f => f.wf
  | .powerSleep f => f.wf
  | .powerConfig f => f.wf
  | .wakeTimerSet f => f.wf
  | .sleepAborted => true
  | .wake => true
  | .twbStatus f => f.wf
  | .twbConfig f => f.wf
  | .regionCreate f => f.wf
  | .regionDelete f => f.wf
  | .regionRekey f => f.wf
  | .regionSetFlags f => f.wf
  | .regionQuery f => f.wf
  | .regionList f => f.wf
  | .chainCreate f => f.wf
  | .chainDelete f => f.wf
  | .chainReset f => f.wf
  | .chainPost f => f.wf
  | .chainStatus f => f.wf
  | .tierQuery f => f.wf
  | .homeQuery f => f.wf
  | .planLoadBegin f => f.wf
  | .planLoadData f => f.wf
  | .planLoadEnd f => f.wf
  | .planActivate f => f.wf
  | .planDeactivate f => f.wf
  | .planUnload f => f.wf
  | .planStatus f => f.wf
  | .moveExtents f => f.wf
  | .moveCancel f => f.wf
  | .moveStatus f => f.wf
  | .nearSizeSet f => f.wf
  | .cacheStatus f => f.wf
  | .cacheConfig f => f.wf
  | .cacheMaint f => f.wf
  | .dramStatus f => f.wf
  | .dramSpeedSet f => f.wf
  | .dramTsetWrite f => f.wf
  | .dramMapSet f => f.wf
  | .dramRetrain f => f.wf
  | .dramTrainResults f => f.wf
  | .dramTrainClear f => f.wf
  | .dramPpr f => f.wf
  | .decStatus f => f.wf
  | .decLogRead f => f.wf
  | .decLogClear f => f.wf
  | .decRetire f => f.wf
  | .decPolicySet f => f.wf
  | .decScrubSet f => f.wf
  | .decInject f => f.wf
  | .deepStatus f => f.wf
  | .deepBlockInfo f => f.wf
  | .deepConfig f => f.wf
  | .deepRetireBlock f => f.wf
  | .deepFormat f => f.wf
  | .deepRebuild f => f.wf
  | .persistStatus f => f.wf
  | .ceilingSet f => f.wf
  | .freezePowerSet f => f.wf
  | .firnConfig f => f.wf
  | .freezeReportRead f => f.wf
  | .freezeTest f => f.wf
  | .twinStatus f => f.wf
  | .twinConfig f => f.wf
  | .twinSwap f => f.wf
  | .twinLeave f => f.wf
  | .twinResync f => f.wf
  | .twinFaultClear f => f.wf
  | .twinForceSolo f => f.wf
  | .feedStatus f => f.wf
  | .feedStreamSet f => f.wf
  | .feedStreamClear f => f.wf
  | .feedStart f => f.wf
  | .feedStop f => f.wf
  | .feedAdmitCheck f => f.wf
  | .feedMapLoad f => f.wf
  | .feedMapSwitch f => f.wf
  | .feedLaneConfig f => f.wf
  | .feedLaneSpare f => f.wf
  | .feedLaneRestore f => f.wf
  | .eventRead f => f.wf
  | .eventStatus f => f.wf
  | .eventConfig f => f.wf
  | .timeSet f => f.wf
  | .timeGet f => f.wf
  | .fwStatus f => f.wf
  | .fwUpdateBegin f => f.wf
  | .fwUpdateData f => f.wf
  | .fwUpdateEnd f => f.wf
  | .fwActivate f => f.wf
  | .fwCommit f => f.wf
  | .fwUpdateAbort f => f.wf
  | .fwManifestRead f => f.wf
  | .selftestReport f => f.wf
  | .monitorRead f => f.wf
  | .bankConfig f => f.wf
  | .nvStatus f => f.wf
  | .nvFactoryRead f => f.wf
  | .nvFactoryWrite f => f.wf
  | .nvFactoryErase f => f.wf
  | .nvScan f _ => f.wf
  | .otpRead f => f.wf
  | .otpProgram f _ => f.wf
  | .keyStatus f => f.wf
  | .keyRoleSet f => f.wf
  | .keyPairSet f => f.wf
  | .keyMacsecRekey f => f.wf
  | .keySelftest f _ => f.wf
  | .marginSchedule tile _ => okTile tile
  | .nvsKeyWrite tile _ _ _ => okTile tile
  | .nvsUnlockTimeout tile => okTile tile
  | .program tile _ _ _ _ => okTile tile
  | .erase tile _ _ _ => okTile tile
  | .blankCheck tile _ _ => okTile tile
  | .marginRead tile _ _ _ => okTile tile
  | .swap tile _ _ => okTile tile
  | .nvsOperationEnd tile => okTile tile
  | .enc submitter q => decide (submitter < 4) && q.wf
  | .dec submitter q => decide (submitter < 4) && q.wf
  | .ctr submitter q => decide (submitter < 4) && q.wf
  | .generate submitter q => decide (submitter < 4) && q.wf
  | .drbgReseed => true
  | .healthFail => true
  | .entropyRestart _ => true
  | .kseQueueCheck submitter _ => decide (submitter < 4)
  | .eventArrival tile => okTile tile
  | .openWindowEnd => true
  | .recordCommit => true
  | .blockWrite _ _ _ => true
  | .blockRead _ _ => true
  | .readByte _ => true
  | .addressMatchSleep _ _ => true
  | .hostNotify _ => true
  | .hostNotifyRepeat _ => true
  | .arbBackoffExpiry _ => true
  | .busError => true
  | .sclTimeout => true
  | .busRecovery _ => true
  | .linkRetired tile _ => okTile tile
  | .faultEntry tile _ => okTile tile
  | .wayPowerUpDone tile way => okTile tile && decide (way < 16)
  | .blockEraseDone tile _ _ => okTile tile
  | .deepRebuildDone tile => okTile tile
  | .sleepCleanTimeout => true
  | .hbtxWordSend => true
  | .blockLock tile lane => okTile tile && decide (lane < 5)
  | .feedCoverTimeout stream => decide (stream < 256)
  | .xtalOk => true
  | .serviceAnnounceRepeat => true

end Sys2Proof
end

