-- ==== Sys2Proof/Tests/Slice0.lean ====
section
/-! SUPPORT. Small states on which the statements' hypotheses hold (`witness_…`: one conjunct for each clause that asks more than an
existing tile), and small checks of the model against the spec (`test_…`). -/

namespace Sys2Proof.Tests

open Sys2Proof.Machine

/-! ### Small states -/

/-- The reset state in a device state. -/
def inState (d : DState) : State := State.reset.setF 0 MGT.STATE.DSTATE d.code

/-- A unit in service on its own, ten minutes after reset. -/
def solo : State := { (inState .service).setF 0 TWA.STATUS.ROLE TRole.solo.code with now := 600000000 }

/-- A connection request on port 1, logical port 3 of tile 7. -/
def req0 : ConnectReq := ⟨7, 1, 3, false, 9, 100, 5, 2, 7, 7, 14, 8, true, []⟩

/-- The QP 0xF00002 of that request, in RTS. -/
def qp0 : Qp := { newQp req0 0xF00002 200 0 with st := 2 }

/-- A unit with one QP. -/
def withQp (q : Qp) : State := { solo with net := { solo.net with qps := [q] } }

/-- A portion of eight bytes at tile 7. -/
def por0 (st : PState) : Portion :=
  ⟨1, 7, 0x200000, 8, .qp 0xF00002 100, .write, false, false, List.replicate 8 1, st, 0, none, false, []⟩

/-- A unit with that portion, whose extent has a main-tier home on tile 7. -/
def withPor (p : Portion) : State :=
  { withQp qp0 with
    net := { (withQp qp0).net with portions := [p] }
    ams := { solo.ams with homes := [(1, ⟨7, 1, false, false, 90000⟩)] } }

/-- A packet of an opcode to that QP. -/
def pkt (op : Nat) : Packet := ⟨7, 1, 3, false, false, 0xF00002, op, 100, 0x200000, 0, 128, 0, 0, 0, []⟩

/-- A capsule of an operation. -/
def cap (op : Nat) (fence : Bool) : List Byte := [BitVec.ofNat 8 op, if fence then 2 else 0] ++ List.replicate 62 0

/-! ### Witnesses: the block, mailboxes, registers -/

/-- A SYS_IDENTIFY frame on point 0 outside a session. -/
def ident : Frame := ⟨0, 0x0001, 0, 1, 7, 0, 0, 0, 0, 0, 0, 0, []⟩

theorem witness_StepTakesOneCommand : ∃ t, step { State.reset with pending := [.wdogKick, .vaonLow] } = .next t ∧ t.pending = [.vaonLow] :=
  ⟨_, rfl, rfl⟩

theorem witness_EveryCommandAnswers :
    unitsPresent State.reset (.speedGo 7 2 0) = true ∧ unitsPresent State.reset (.speedGo 8 2 0) = false ∧
    unitsPresent State.reset (.speedGo 7 3 0) = false := by decide

/-- A session of the operator on point 0. -/
def sess0 : Session := ⟨0, 1, 5, 0, 3, none, [], 0, 0, 0, 0⟩

/-- A frame of that session with a MAC. -/
def sframe (ctr : Nat) (m : BitVec 128) : Frame := ⟨0, 0x0001, 0, 1, 7, 5, 0, ctr, 0, 0, 0, m, []⟩

/-- The frame with the right MAC. -/
def signed (ctr : Nat) : Frame := sframe ctr (frameMac 0 (sframe ctr 0))

/-- The unit with a session, whose last request was frame 3. -/
def withSession : State := { solo with mb := { solo.mb with sessions := [{ sess0 with lastReq := some (signed 3) }] } }

theorem signed_mac (ctr : Nat) (m : BitVec 128) : frameMac 0 (sframe ctr m) = frameMac 0 (sframe ctr 0) := rfl

theorem witness_session (f : Frame) (h : f.point = 0) (k : f.session = 5) :
    (withSession.takeInput f).mb.sessions.find? (fun y => y.point == f.point && y.id == f.session) =
      some { sess0 with lastReq := some (signed 3) } := by
  rw [h, k]; rfl

theorem witness_MailboxRequestsExecute :
    requestOf solo (.sysIdentify ident) = some ({ cmdSysIdentify with roles := [] }, ident) ∧
    (solo.pointWaits ident.point = false ∧ pointServed solo.dstate ident.point = true ∧
      solo.dstate ≠ .s1 ∧ solo.dstate ≠ .s2 ∧ solo.pow.target = 0) ∧
    ({ cmdSysIdentify with roles := [] } : Cmd).admission { ident with opcode := 0 } (solo.takeInput { ident with opcode := 0 }) = .go none ∧
    ({ cmdSysState with roles := [] } : Cmd).admission (signed 3) (withSession.takeInput (signed 3)) = .resend [] := by
  refine ⟨rfl, by decide, by decide, ?_⟩
  simp only [Cmd.admission, sessionOf, witness_session _ (show (signed 3).point = 0 from rfl) (show (signed 3).session = 5 from rfl)]
  simp [headerStatus, signed, sframe, sess0, Cmd.admitIn, frameMac, headerBytes]

theorem witness_RefusedRequestsHaveNoEffect :
    ({ cmdSysIdentify with roles := [] } : Cmd).admission { ident with version := 2, opcode := 0 } (solo.takeInput { ident with version := 2, opcode := 0 }) =
      .refuse 1 .versionMismatch ∧
    requestOf solo (.sysIdentify { ident with version := 2 }) = some ({ cmdSysIdentify with roles := [] }, { ident with version := 2 }) := by
  exact ⟨by decide, rfl⟩

theorem witness_ReadingCommandsKeepData :
    solo.dstate ≠ .s1 ∧ solo.dstate ≠ .s2 ∧ solo.pow.target = 0 ∧ ∃ t, exec (.netStatus ident) solo = .next t :=
  ⟨by decide, by decide, rfl, _, rfl⟩

theorem witness_FramesCarryMac :
    headerStatus (sframe 4 0) = .ok ∧ (sframe 4 0).session ≠ 0 ∧
    frameMac 0 (sframe 4 (frameMac 0 (sframe 4 0) + 1)) ≠ (sframe 4 (frameMac 0 (sframe 4 0) + 1)).mac := by
  refine ⟨by decide, by decide, ?_⟩
  rw [signed_mac]
  show frameMac 0 (sframe 4 0) ≠ frameMac 0 (sframe 4 0) + 1
  intro h
  have : (0 : BitVec 128) = 1 := by
    have := congrArg (fun x => x - frameMac 0 (sframe 4 0)) h
    simp at this
  exact absurd this (by decide)

theorem witness_EventBitsAreCounted :
    KSE.EVENTS.STALE.w = 1 ∧ KSE.EVENTS.STALE.lo < 32 ∧ KSE.EVENTS.STALE.off < 0xffc ∧ KSE.EVENTS.STALE.blk < 256 := by decide

/-- A unit whose tile 7 has all ways powered, four of them in stream class. -/
def ways : State := solo.setFs 7 [(TCH.WAYCLASS.STREAM, 0x000F), (TCH.WAYSTAT.POWERED, 0xFFFF), (TCH.WAYPWR.ON, 0xFFFF)]

theorem witness_WayWritesKeepBothClasses :
    ways.classOk 7 (0 % 65536) = false ∧ ways.classOk 7 (65535 % 65536) = false ∧ ways.pwrOk 7 (0x000F % 65536) = false ∧
    ways.classOk 7 (0x001F % 65536) = true ∧ ways.pwrOk 7 (65535 % 65536) = true ∧ ways.pwrOk 7 (0x8001 % 65536) = true := by decide

theorem witness_BankGroupHash : ∃ row, row = (2 ^ 20 + 5) / 2 ^ 19 % 2 ^ 16 ∧ row % 8 = 2 := ⟨_, rfl, by decide⟩

theorem witness_HardRepairOnlyInSelftest : 7 < solo.tiles ∧ 2 < 3 ∧ solo.dstate ≠ .selftest := by decide

theorem witness_FreedFrameReadsZero :
    7 < solo.tiles ∧ solo.reservedFrames 7 ≤ 786431 ∧ ¬((solo.mainUsed 7).contains 786431) ∧ 786431 < solo.mainBytes / 2 ^ 21 ∧
    solo.mainBytes ≤ 2 ^ 60 ∧ solo.physAt 7 (786431 * 2 ^ 21) < 2 ^ 60 := by decide

/-- A unit whose store array on tile 7 is unlocked by master 1. -/
def unlocked : State := { solo with nvs := [(7, { NvsTile.fresh with step := 2, master := 1 })] }

/-- The same with the first word programmed. -/
def written : State := unlocked.setBytes .nvs 7 0 [1, 2, 3, 4, 5, 6, 7, 8]

/-- A store array that has had its first key. -/
def firstKey : State := { solo with nvs := [(7, { NvsTile.fresh with step := 1, master := 1 })] }

theorem witness_StoreProgram :
    7 < unlocked.tiles ∧ (unlocked.array 7).step = 2 ∧ (unlocked.array 7).master = 1 ∧ 0 < 0x800000 ∧
    ¬(written.wordErased 7 (0 / 8)) ∧ (written.array 7).step = 2 ∧ unlocked.wordErased 7 (0x7FFFF8 / 8) ∧
    2 ^ 64 - 2 < 2 ^ 64 - 1 ∧ 16 ≤ 16 := by decide

theorem witness_StoreKeyFailures :
    (solo.setF 7 NVS.CMD.BUSY 1).flag 7 NVS.CMD.BUSY ∧ ¬(firstKey.flag 7 NVS.CMD.BUSY) ∧ (firstKey.array 7).step = 1 ∧
    (0x93E9 ≠ 0x93E8 ∧ (firstKey.array 7).master ≠ 2) := by decide

/-- A unit whose key slot 9 holds a key of generation 3. -/
def keyed : State := { solo with kse := { solo.kse with slots := [(9, { KeySlot.empty with valid := true, gen := 3, halves := 1 })] } }

/-- A request that names generation 2 of that slot. -/
def oldReq : KseReq := ⟨1, 9, 2, 0, 0, 0, 0, 0, 0, 7, 0⟩

theorem witness_StaleKeyRequests :
    keyed.fld 0 (kseFree 3) ≠ 0 ∧ (kseWellFormed { oldReq with op := 1 } && kseWellFormed { oldReq with op := 2 } &&
      kseWellFormed { oldReq with op := 3 }) ∧
    (keyed.slot oldReq.slot).valid ∧ (keyed.slot oldReq.slot).gen ≠ oldReq.slotGen := by decide

theorem witness_SeedsStayInside :
    (∀ copy a : Nat, copy < 2 → a < 4096 → ¬(0x80 ≤ a ∧ a < 0x100) →
      ({ State.reset with otp := amapSet (0 : Byte) State.reset.otp 0x80 (1 : Byte) }).otpByte copy a = State.reset.otpByte copy a) ∧
    ({ State.reset with otp := amapSet (0 : Byte) State.reset.otp 0x80 (1 : Byte) }).otpByte 0 0x80 ≠ State.reset.otpByte 0 0x80 := by
  refine ⟨?_, by decide⟩
  intro copy a hc ha hn
  simp only [State.otpByte]
  rw [amapGet_set_ne]
  omega

/-- A record of tile 3. -/
def rec0 (rep : Nat) : EvRec := ⟨100, 0, false, false, false, 1, 4, 2, rep, 0, 77, false⟩

/-- A unit with a record at the head of tile 0's queue, and one arriving from tile 3 that matches the open one. -/
def recs (o : Option EvRec) (n : Nat) : State :=
  { solo with recd := { solo.recd with queue := List.replicate n (rec0 1), openRec := o, tileQ := [(3, rec0 1)] } }

theorem witness_RecordCommitted :
    (recs none 1).ringScanned ∧ (recs none 1).recd.queue = rec0 1 :: [] ∧ 64 = ((((recs none 1).setF 0 EVR.WSEQ.SEQ 63).fld 0 EVR.WSEQ.SEQ) + 1) % 2 ^ 32 := by decide

theorem witness_EventsCoalesceOrCount :
    ((recs (some (rec0 65535)) 0).recd.tileQ.find? (fun x => x.1 == 3) = some (3, rec0 1) ∧ (recs none 0).recd.lost = 0) ∧
    (rec0 65535).matches (rec0 1) ((recs (some (rec0 65535)) 0).fld 0 EVR.CTRL.WINDOW_MS) ∧
    ({ rec0 1 with arg := 78 }).matches (rec0 1) ((recs none 0).fld 0 EVR.CTRL.WINDOW_MS) = false ∧
    4096 ≤ (recs (some { rec0 1 with arg := 78 }) 4096).recd.queue.length := by
  refine ⟨by decide, by decide, by decide, ?_⟩
  show 4096 ≤ (List.replicate 4096 (rec0 1)).length
  rw [List.length_replicate]

theorem witness_BadBlockWriteDiscarded : solo.twbAwake ∧ solo.dstate ≠ .s1 ∧ solo.pow.target = 0 ∧ ¬(solo.twb.nackUntilBoot) ∧ solo.twb.held = none ∧ ¬(solo.blockOk [1, 2]) := by decide

/-- The request with a parameter block of a data QP, at the service address. -/
def req1 : ConnectReq := { req0 with service := true, priv := [0xA7, 0xB5, 1, 0, 0, 0, 0, 0] ++ leBytes 8 0x1000 ++ leBytes 16 0 }

theorem witness_QpNumbers :
    1 < 2 ∧ (withQp qp0).net.qps.length + 2 < 2 ^ 20 ∧ blockGood req1.priv ∧ (natAt req1.priv 3 1 == 0) = req1.service ∧
    ((withQp qp0).setF 7 RMA.QP_LIMIT.LIMIT 1).fld req1.tile RMA.QP_LIMIT.LIMIT ≤
      (((withQp qp0).setF 7 RMA.QP_LIMIT.LIMIT 1).tileQps req1.tile).length := by decide

theorem witness_ConnectTimeoutFrees :
    (withQp { qp0 with st := 1 }).qp 0xF00002 = some { qp0 with st := 1 } ∧ qp0.opened + 100000 ≤ solo.now := by decide

/-- A region over the extent of `por0`. -/
def reg0 : Region := ⟨9, 0x200000, 1, 0, 1, 7, 7, 0, 3, 0xA5⟩

/-- A unit with that region. -/
def withReg : State := { withPor (por0 .new) with ams := { (withPor (por0 .new)).ams with regions := [reg0] } }

theorem witness_RegionKeys :
    reg0.num < 2 ^ 16 ∧ withReg.regionNum (reg0.key % 65536) = some reg0 ∧ (∃ x, withReg.checkKey reg0.key 0x200000 128 0 = .ok x) := by
  exact ⟨by decide, by decide, reg0, by decide⟩

theorem witness_CountHasReached : hasReached 5 4294967290 = true ∧ hasReached 5 6 = false := by decide

/-- A unit whose peer has paused priority 3 on port 1 of tile 7 nine minutes ago. -/
def paused : State :=
  { solo.setFs 7 [(ETH.STATUS.TX_PAUSED.inst 1, 8), (ETH.PFC.LOSSLESS.inst 1, 8)] with
    net := { solo.net with pausedAt := [(prioKey 7 1 3, 60000000)] } }

theorem witness_PausesAreObeyed :
    (paused.fld 7 (ETH.STATUS.TX_PAUSED.inst 1)).testBit 3 = true ∧ amapFind (prioKey 7 1 (3 % 8)) paused.net.pausedAt = some 60000000 ∧
    (paused.fld 7 (ETH.PFC.LOSSLESS.inst 1)).testBit (3 % 8) = true ∧
    60000000 + paused.fld 7 (ETH.PFC.WATCHDOG_MS.inst 1) * 1000 < paused.now := by decide

theorem witness_PowerLossKeepsNonvolatile :
    State.reset.dstate ≠ .off ∧
    (let s : State := { solo with nvs := [(7, { NvsTile.fresh with busy := some ⟨1, 8, 1⟩ })] }
     s.dstate ≠ .off ∧ ¬(memKey .nvs 7 (8 / 8 * 8) ≤ memKey .nvs 7 16 ∧ memKey .nvs 7 16 < memKey .nvs 7 (8 / 8 * 8 + 8))) := by decide

theorem witness_FreezeOutlastsMainsReturn : (inState .freeze).dstate = .freeze := by decide

/-- A unit whose lease was renewed nine minutes ago. -/
def leased : State := { solo with twin := { solo.twin with leaseOk := true, leaseAt := 60000000 }, boot := { solo.boot with handedOver := true } }

theorem witness_LeaseExpires :
    leased.twin.leaseOk ∧ leased.boot.handedOver ∧ leased.pow.target = 0 ∧ leased.twin.leaseAt + leased.fld 0 TWA.CTRL.LEASE * 50 ≤ leased.now := by
  decide

theorem witness_CeilingSet :
    98304 < 2 ^ 32 ∧ solo.tiles ≤ 8 ∧ 98304 ≠ 0 ∧ 98304 % (solo.tiles * 64) = 0 ∧ 98304 ≤ solo.tiles * 12288 := by decide

/-- A unit with extent born bits, and born-map bursts on chip. -/
def bornMap (ext cached : List (Nat × Nat)) : State := { solo with dec := { solo.dec with ext := ext, bornCache := cached } }

theorem witness_UnbornReadsTouchNoDram :
    90000 = 90000 * 2 ^ 21 / 2 ^ 21 ∧ solo.reservedFrames 7 ≤ 90000 ∧ 90000 * 2 ^ 21 < solo.mainBytes ∧ ¬((bornMap [] []).dec.ext.contains (7, 90000)) ∧
    (let s := bornMap [(7, 90000)] [(7, 90000)]
     s.dec.ext.contains (7, 90000) ∧ ¬(s.bornLocal 7 (90000 * 2 ^ 21 / 4096)) ∧ s.dec.bornCache.contains (7, 90000)) ∧
    (let s := bornMap [(7, 90000)] []
     ¬(s.dec.bornCache.contains (7, 90000)) ∧ ¬(s.dec.bornBad.contains (7, 90000, 0))) := by decide

/-- The QP with a FENCE capsule behind a write that is not done. -/
def fenced : Qp := { qp0 with reqs := [⟨100, 100, 0, 0, 0, 0, 0, none, true, false, 0⟩], caps := [⟨101, cap 5 true⟩] }

/-- The same with a capsule without FENCE behind it. -/
def fenced2 : Qp := { fenced with caps := [⟨101, cap 5 true⟩, ⟨102, cap 5 false⟩] }

theorem witness_FenceHoldsBack :
    (withQp fenced).qp 0xF00002 = some fenced ∧ fenced.caps = ⟨101, cap 5 true⟩ :: [] ∧ capFence (cap 5 true) ∧
    (∃ r ∈ fenced.reqs, psnBefore r.psn 101 ∧ r.kind < 2 ∧ ¬r.reached) ∧
    ([⟨102, cap 5 false⟩] : List QCapsule).find? ((withQp fenced2).mayStart fenced2) = some ⟨102, cap 5 false⟩ := by
  exact ⟨by decide, by decide, by decide, ⟨_, List.mem_singleton.mpr rfl, by decide⟩, by decide⟩

/-- A stream on slot 0 of tile 7 and strobe input 1, sending. -/
def strm : FStream :=
  ⟨⟨224, 0, 1, 64, 16, 0x200000, 0, 64, 100, 0, 0, 8, 0⟩, 4, 7, 0, 3, 16, 8, [], 0, [], 8, some 5, false, false, 0, none,
    some (6, 6, false), 0, 0, [], none, 0, none⟩

/-- A unit with that stream, and an index pulse accepted a millisecond ago. -/
def fed (x : FStream) : State :=
  { solo with feed := { solo.feed with
    streams := [x]
    tiles := [⟨7, some (solo.now - 1000), false, 0, 0, none, 0, false, false, [], [], []⟩] } }

theorem witness_StrobesAndIndexPulses :
    ((fed strm).ftile 7).idxAt = some 599999000 ∧ (fed strm).now < 599999000 + 2000 ∧ (fed strm).strobed 7 1 = [224] ∧
    (fed strm).fstream 224 = some strm ∧ strm.st = 4 ∧ strm.skip = 0 ∧ strm.out.isSome ∧
    (fed { strm with skip := 2 }).strobed 7 1 = [224] ∧ (fed { strm with st := 3 }).strobed 7 1 = [224] := by decide

theorem witness_HeartbeatLineDecodes :
    (0x80000001 < 2 ^ 32 ∧ (hbEncode 0x80000001).tail.length = 32 ∧ hbEncode 0x80000001 = (1000, 500) :: (hbEncode 0x80000001).tail ∧
      (hbEncode 0x80000001)[1]? = some (1000, 750) ∧ (hbEncode 0x80000001)[2]? = some (1000, 250)) ∧
    hbDecode ((1100, 600) :: List.replicate 31 (900, 350) ++ [(900, 850)]) = some 1 ∧
    (solo.dstate ∉ [DState.off, .aonOnly, .s3] ∧ hbDecode ((1000, 500) :: List.replicate 31 (1000, 250) ++ [(1000, 851)]) = none) := by decide

/-! ### Witnesses: the rows of each group. A clause that asks only for an existing tile, channel or port is met at `State.reset`. -/

theorem witness_reset_tiles : 7 < State.reset.tiles ∧ State.reset.tiles ≠ 0 := by decide

/-- The unit with its host gate open on tile 7. -/
def gated (p : Portion) : State := (withPor p).setFs 7 [(HCQ.GATE.OPEN, 1)]

theorem witness_TransportRowsComplete :
    ((pkt 0x04).opcode ∈ [0x00, 0x01, 0x02, 0x04] ∧ (pkt 0x0A).opcode ∈ [0x06, 0x07, 0x08, 0x0A] ∧ (pkt 0x0B).opcode ∈ [0x09, 0x0B] ∧
      (pkt 0x0C).opcode = 0x0C ∧ (pkt 0x13).opcode ∈ [0x13] ∧ (pkt 0x14).opcode ∈ [0x14]) ∧
    (withQp { qp0 with committed := 4096 }).fld 7 RMA.BUF_USE.COMMITTED_KB ≠
      min 65535 (ceilDiv ((withQp { qp0 with committed := 4096 }).committedBytes 7) 1024) ∧
    (let s := withPor { por0 .new with data := [] }
     ∃ p, s.portion 1 = some p ∧ (p.st == .new || p.st == .waiting || p.st == .admitted) ∧ s.orphan p ∧ (!p.arrived || s.givesUp p)) ∧
    (let s := withPor (por0 .admitted)
     ∃ p, s.portion 1 = some p ∧ (p.st == .admitted && p.arrived && !s.aheadInUnit p) ∧
       (s.probePortion p).pagesReady p.addr p.len ∧ (s.probePortion p).homeHas p) ∧
    (let s : State := { withPor (por0 .admitted) with firn := { solo.firn with unrestored := [512] } }
     ∃ p, s.portion 1 = some p ∧ (p.st == .admitted && p.arrived && !s.aheadInUnit p) ∧
       ¬((s.probePortion p).pagesReady p.addr p.len && (s.probePortion p).homeHas p)) ∧
    amapFind 7 solo.net.winAt = none ∧
    (∃ p, (gated (por0 .waiting)).firstWaiting 7 = some p ∧
      (gated (por0 .waiting)).mayAdmit { p with st := .new } && (gated (por0 .waiting)).enough p) := by
  exact ⟨by decide, by decide, ⟨_, rfl, by decide⟩, ⟨_, rfl, by decide⟩, ⟨_, rfl, by decide⟩, rfl, ⟨_, rfl, by decide⟩⟩

/-- A home of extent 1 in a tier of tile 7. -/
def home1 (tier : Nat) : State := { solo with ams := { solo.ams with homes := [(1, ⟨7, tier, false, true, 90000⟩)] } }

/-- That unit with the token of page 512, taken long ago, and no token counted. -/
def tokened : State := { home1 1 with firn := { solo.firn with tokens := [⟨7, 512, 1, none, 0, 0⟩] } }

/-- The codeword of page 512. -/
def word512 : Codeword := ⟨7, 16, 0, 1, false, 0, 512, 1, 1, [], [], []⟩

/-- That unit with page 512 mapped in tile 7's deep tier, in a stripe that is full, and tile 7's deep key loaded. -/
def mapped (st tile : Nat) : State :=
  { (home1 2).setF 7 BCX.STATUS.XTS_KEY 1 with
    firn := { solo.firn with deep := [⟨tile, 512, 1, 1, 16, 0⟩] }
    deep := { solo.deep with flash := [word512], stripes := [⟨7, 16, st, 0, 1, 5, 0, false, 0⟩, ⟨7, 32, 3, 0, 1, 5, 0, false, 0⟩] } }

/-- The unit with few stripes left. -/
def short : State := { (mapped 2 7).setF 7 DTM.GC.LO 20000 with board := { solo.board with luns := 2 } }

/-- A unit with dump areas in both states, restored. -/
def areas : State :=
  { solo with
    deep := { solo.deep with areas := [⟨7, 4, 1, []⟩, ⟨7, 3, 2, []⟩] }
    boot := { solo.boot with restored := [7] } }

theorem witness_DeepRowsComplete :
    ((mapped 2 7).deepAt 7 512 = some ⟨7, 512, 1, 1, 16, 0⟩ ∧ (mapped 2 7).captured 7 512 = none ∧ (mapped 2 7).flag 7 BCX.STATUS.XTS_KEY ∧
      (mapped 2 7).ladder 7 ⟨false, 40, 9, false, true⟩ = some 4) ∧
    ((mapped 3 7).lunBusy 7 ((mapped 3 7).stripeLun 16) ∧ cwChannel 16 0 ∈ [cwChannel 16 0, 5] ∧ [cwChannel 16 0, 5].dedup.length ≤ 2) ∧
    (((mapped 1 7).stripe 7 16).any (fun x => x.st == 1) ∧
      ¬((((mapped 1 7).ev 7 (Fld.inst FCH.EVENTS.PROG_FAIL 7)).retireBlock 7 16 7 0).firn.caps.any (fun c => c.tile == 7))) ∧
    (((mapped 2 7).stripe 7 32).any (fun x => x.st == 3) ∧ ¬((mapped 2 7).memberBad 7 32 7)) ∧
    (short.gcDue 7 ∧ short.dstate = .service ∧ ((short.updDeep (fun d => { d with gc := d.gc.erase 7 ++ [7] })).gcVictim 7).isSome) ∧
    (((mapped 2 7).setF 7 DTM.GC.HI 0).fld 7 DTM.GC.HI < (mapped 2 7).freeStripes 7) ∧
    (∃ x, (mapped 2 7).stripe 7 32 = some x ∧ x.st = 3 ∧ x.refs = 0 ∧ (mapped 2 7).dstate ≠ .freeze) ∧
    (let s : State := { mapped 2 7 with deep := { solo.deep with dirtyTables := [(7 * 2 ^ 24 + 5, 1)] } }
     s.dirtyTablesOf 7 ≠ [] ∧ s.flag 7 BCX.STATUS.XTS_KEY) ∧
    (solo.dstate = .service ∧ solo.areaIn 7 3 = none) ∧
    (∃ a, areas.areaIn 7 2 = some a ∧ ((areas.areaIn 7 1).isSome && (areas.newerSeal 7 a.num || (areas.areaDone 7 a.num &&
      areas.boot.restored.contains 7)))) ∧
    ({ solo with deep := { solo.deep with bad := [⟨7, 0, 0, 0, 0, 0⟩] } }).stageReached 7 3 0 0 ∧
    ((inState .selftest).dstate = .selftest ∧ (inState .selftest).deep.roots = []) ∧
    ({ solo with deep := { solo.deep with rebuilding := [7] } }).deep.rebuilding.contains 7 := by
  exact ⟨by decide, by decide, by decide, by decide, by decide, by decide, ⟨_, rfl, by decide⟩, by decide, by decide, ⟨_, rfl, by decide⟩, by decide,
    by decide, by decide⟩

theorem witness_FirnRowsComplete :
    ((tokened.firnNext 7) = some 32 ∧ tokened.firnRuns 7) ∧
    tokened.fld 7 FRN.HELD.PAGES ≠ (tokened.firn.tokens.filter (fun k => k.tile == 7)).length ∧
    (({ home1 2 with firn := { solo.firn with ranges := [⟨7, 512 * 32, []⟩] } } : State).firnRuns 7 &&
      ({ home1 2 with firn := { solo.firn with ranges := [⟨7, 512 * 32, []⟩] } } : State).firn.ranges.any (fun r => r.tile == 7 && r.n / 32 == 512)) ∧
    (let s : State := { mapped 2 6 with ams := (home1 1).ams }
     ∃ h, s.homeOf (512 / 512) = some h ∧ s.foreignCopies 512 ≠ [] ∧ h.tier ≠ 2 ∧ s.firnRuns h.tile ∧ s.deepAt h.tile 512 = none ∧
       (s.probePages [512]).readable [512] ∧ (s.probePages [512]).deepFits h.tile 512 0) := by
  exact ⟨by decide, by decide, by decide, ⟨_, rfl, by decide⟩⟩

/-- A unit with a queued burst, an old refresh debt of rank 7 and a long panic on channel 2 of tile 7. -/
def chan (q : List DramReq) (debt : Nat) : State :=
  { solo with dram := [{ DramCh.idle 7 2 with queue := q, debts := [(7, debt)], panicAt := some 1 }] }

/-- A read burst on subchannel 1. -/
def burst : DramReq := ⟨1, 0, 0, 0, 5, 0, false, false, 0⟩

set_option maxRecDepth 4000 in
theorem witness_DramRowsComplete :
    (chan [burst] 0).dramPick 7 2 1 = .burst burst ∧ 7 < solo.lranks ∧ (0 < (chan [] 64).refDebt 7 2 7 && (chan [] 64).postMax 7 2 ≤
      (chan [] 64).refDebt 7 2 7) ∧ [85, 20].foldl max 0 ≤ 85 ∧ (solo.setF 7 (Fld.inst DMC.PAGE.POLICY 2) 0).fldC 7 2 DMC.PAGE.POLICY = 0 ∧
    (∃ p, ((chan [] 0).dmc 7 2).panicAt = some p ∧ (chan [] 0).panicCounts ∧ (chan [] 0).fldC 7 2 DMC.PANIC.MAX_US < (chan [] 0).now - p) ∧
    (let s : State := { inState .selftest with boot := { State.reset.boot with
       slices := (List.range 8).flatMap (fun t => (List.range 14).map (fun n => (t, n, 0, 0, 0))) } }
     s.dstate = .selftest ∧ ¬(s.boot.dramTrained) ∧ s.phaseDone 1) ∧
    ((solo.dmc 7 2).repair = none ∧ 3 ∈ [1, 2, 3]) ∧
    (let s : State := { solo with dram := [{ DramCh.idle 7 2 with repair := some (5, none), repairAt := some 0 }] }
     (s.dmc 7 2).repair = some (5, none) ∧ (s.dmc 7 2).repairAt = some 0 ∧ pprPlace 5 = pprPlace 5) ∧
    ({ solo.setF 7 (Fld.inst DMC.RETAIN.ALLOWED 0) 1 with pow := { solo.pow with target := 2, entryStep := 5 } } : State).fldC 7 0
      DMC.RETAIN.ALLOWED ≠ 0 ∧
    (let s : State := { solo with pow := { solo.pow with ranksAway := [7] } }
     s.dstate = .service ∧ s.pow.ranksAway.contains 7 ∧ (s.ranksBack 7 [21] []).dstate = .service ∧
       (s.ranksBack 7 [21] [21]).dstate ≠ .service) := by
  exact ⟨by decide, by decide, by decide, by decide, by decide, ⟨1, by decide, by decide⟩, by decide, by decide, by decide, by decide, by decide⟩

/-- A unit with retirements and uncorrectable bursts to do, scrubbing. -/
def decs : State :=
  { solo.setF 7 DEC.CTRL.SCRUB_EN 1 with dec := { solo.dec with retire := [(7, 90000 * 512, 2)], ues := [(7, 0x1000)] } }

theorem witness_DecRowsComplete :
    (let s : State := { home1 1 with cache := { solo.cache with evb := [⟨7, 512 * 32, List.replicate 128 1⟩] } }
     ¬(s.inTest (90000 * 512 * 4096)) ∧ ¬(s.bornLocal 7 (90000 * 512)) ∧ s.extOfFrame 7 (90000 * 512 / 512) = some 1 ∧
       ((s.evbOf 7).find? (fun x => x.n / 32 == 1 * 512 + 90000 * 512 % 512)).isSome) ∧
    solo.inTest (solo.testFrame / 4096 * 4096) ∧
    ¬(786431 < solo.reservedFrames 7 || (solo.mainUsed 7).contains 786431 || solo.mainBytes / 2 ^ 21 ≤ 786431) ∧
    (decs.dec.retire.find? (fun e => e.1 == 7 && e.2.1 == 90000 * 512) = some (7, 90000 * 512, 2) ∧ ¬(decs.dstate == .freeze)) ∧
    decs.dec.ues.contains (7, 0x1000) ∧ (decs.scrubs 7 ∧ (decs.scrubNext 7 2 (decs.scrubAt 7 2)).isSome) ∧
    (decs.dstate == .service || decs.dstate == .restricted) := by decide

/-- A unit whose tile 7 has its cache in a state. -/
def cached (c : CState) : State := ways.setF 7 TCH.STATUS.STATE c.code

theorem witness_CacheRowsComplete :
    ({ solo with cache := { solo.cache with missq := [⟨7, 5, false, false, 1, some 3⟩] } } : State).cache.missq.find? (fun m => m.tile == 7 && m.n == 5) =
      some ⟨7, 5, false, false, 1, some 3⟩ ∧
    ((cached .draining).cacheIs 7 .draining && (cached .draining).cacheEmpty 7) ∧
    (let s := ways.setF 7 TCH.WAYSTAT.CLEANING 0x8000
     (s.fld 7 TCH.WAYSTAT.CLEANING).testBit 15 ∧ s.cache.missq = [] ∧ (s.cleanWay 7 15).cache.ranges = []) ∧
    ((ways.fld 7 TCH.WAYPWR.ON).testBit 15 && !ways.cacheIs 7 .stopped) ∧
    (amapFind 7 ({ cached .repartitioning with cache := { solo.cache with repart := [(7, 3)] } }).cache.repart = some 3 ∧
      (cached .repartitioning).cacheIs 7 .repartitioning ∧ ¬((cached .repartitioning).dirtyCache 7)) := by decide

/-- A unit with a revocation in a phase at the head. -/
def revoking (phase : Nat) : State := { withReg with
  ams := { withReg.ams with
    revokes := [⟨9, 0, 7, phase, 3, 0⟩], issued := [(1, ⟨6, 1, false, 0, 0⟩)], stale := [(3, 1, ⟨7, 1, false, false, 90000⟩)]
    moves := [⟨1, ⟨7, 2, false, 0, 0⟩, false, false, none, [], [], 0, false, false, false, false, false, false⟩] }
  net := { withReg.net with portions := [], chains := [⟨2, 1, 0, false, 5, 0, [], none, 0⟩] }
  feed := (fed strm).feed }

theorem witness_MoveRowsComplete :
    (∃ v, (revoking 1).ams.revokes = v :: [] ∧ v.phase = 1 && (revoking 1).placing []) ∧
    (∃ v r, (revoking 2).ams.revokes = v :: [] ∧ v.phase = 2 ∧ (revoking 2).placing [] ∧ (revoking 2).regionNum v.region = some r ∧
      (revoking 2).drained r) ∧
    (revoking 1).linesSent 224 = some 3 ∧ ((revoking 1).chain 2).isSome ∧ (revoking 1).ams.issued ≠ [] ∧
    (∃ m, (revoking 1).moveOf 1 = some m ∧ (revoking 1).isFlip m && (revoking 1).imagesCurrent 1) ∧
    ((revoking 1).ams.stale.find? (fun x => x.1 == 3 && x.2.1 == 1)).isSome ∧
    (∃ p h, (withPor { por0 .new with tile := 3 }).portion 1 = some p ∧ (withPor { por0 .new with tile := 3 }).homeOf (p.addr / 2 ^ 21) = some h ∧
      (p.tile != h.tile && (p.st == .new || p.st == .waiting))) := by
  exact ⟨⟨_, rfl, by decide⟩, ⟨_, reg0, rfl, by decide, by decide, by decide, by decide⟩, by decide, by decide, by decide, ⟨_, rfl, by decide⟩,
    by decide, ⟨_, _, rfl, rfl, by decide⟩⟩

theorem witness_ConnectRowsComplete :
    (pointServed solo.dstate 1 && decide (0 < modePorts (solo.fld 7 (ETH.CFG.MODE.inst 1))) &&
      ((solo.setF 7 (ETH.CFG.LPORT_EN.inst 1) 1).fld 7 (ETH.CFG.LPORT_EN.inst 1)).testBit 0) ∧
    (amapFind (lportKey 7 1 3) [(lportKey 7 1 3, 597999999)] = some 597999999 ∧ 597999999 + 2000000 < solo.now) ∧ ¬(solo.heldDown 7 1) ∧
    amapFind (prioKey 7 1 (7 % 8)) solo.net.pausedAt = none ∧
    ((paused.fld 7 (ETH.PFC.LOSSLESS.inst 1)).testBit (3 % 8) && decide (60000000 + paused.fld 7 (ETH.PFC.WATCHDOG_MS.inst 1) * 1000 < paused.now)) ∧
    (solo.dstate ≠ .s1 ∧ pointServed solo.dstate 1 ∧ solo.serving) ∧
    (({ qp0 with st := 1 } : Qp).st = 1 ∧ 599900000 + 100000 ≤ solo.now) ∧
    (let q := { qp0 with st := 4, settled := true, errAt := some 1 }
     (withQp q).qp 0xF00002 = some q ∧ q.errAt = some 1 ∧
      (q.st = 4 && q.settled && decide (1 + (withQp q).fld (qpTile 0xF00002) RMA.CTRL.ERR_HOLD_S * 1000000 ≤ (withQp q).now))) ∧
    (pkt 0x10).opcode ∈ [0x0D, 0x0E, 0x0F, 0x10] ∧
    (let q := { qp0 with sent := [⟨200, 4, 0, 0, 0, [], 0⟩] }
     (withQp q).qp 0xF00002 = some q ∧ (q.st = 2 && !q.shadow && !q.rnrWait && !q.sent.isEmpty &&
      decide (q.sentAt * 1000 + 4096 * 2 ^ q.ackTimeout ≤ (withQp q).now * 1000))) ∧
    (let q := { qp0 with rnrWait := true, cnpRxAt := some 599999950 }
     (withQp q).qp 0xF00002 = some q ∧ (q.st = 2 && q.rnrWait) ∧ q.cnpRxAt = some 599999950 ∧ 599999950 + 50 ≤ (withQp q).now) := by decide

/-- A capsule of QP 0xF00002 in execution. -/
def exec0 (op : Nat) : Exec := ⟨.qp 0xF00002 100, cap op false, 0xF00002, 0, 0, true, 0, 0, false, false, [], [], true, 1⟩

/-- A unit that executes it, with the portion it pulls. -/
def executing (op : Nat) : State :=
  let s := withPor { por0 .admitted with capsule := true, data := [] }
  { s with net := { s.net with execs := [exec0 op] } }

theorem witness_CapsuleRowsComplete :
    (let q := { qp0 with caps := [⟨101, cap 5 true⟩] }
     (withQp q).qp 0xF00002 = some q ∧ (withQp q).mayStart q ⟨101, cap 5 true⟩) ∧
    (∃ p e, (executing 1).portion 1 = some p ∧ (executing 1).net.execs.find? (fun e => e.src == p.src) = some e ∧
      (p.capsule && p.st == .admitted && !p.pulled && capOp e.bytes == 1 && !e.revoked && !e.failed && (executing 1).executes)) ∧
    ((executing 2).execOf (.capsule 0xF00002 100) = some (exec0 2) ∧ ((executing 2).executes && (executing 2).mayEnd (exec0 2)) ∧
      ((executing 2).execEnd (exec0 2)).isSome) := by
  exact ⟨by decide, ⟨_, exec0 1, rfl, by decide, by decide⟩, by decide⟩

/-- A unit whose tile 7 brings up the spare for lane 3. -/
def sparing (ok : Bool) : State :=
  { solo with feed := { solo.feed with
    tiles := [⟨7, none, false, 0, 0, some 3, 599000000, false, false, if ok then [(4, 599000000)] else [], [], []⟩] } }

theorem witness_FeedRowsComplete :
    ¬(solo.dstate == .freeze || solo.dstate == .fault) ∧
    (let x := { strm with asked := some 1, startedAt := 599990000 }
     (fed x).fstream 224 = some x ∧ (x.asked.isSome && x.reported.isNone && decide (x.startedAt + 10000 ≤ (fed x).now))) ∧
    ((fed strm).strobed 7 1).any (fun n => ((fed strm).fstream n).any (fun x => x.st == 4 && x.out.isSome && x.skip == 0)) ∧
    (fed { strm with reserved := 1 }).feed.streams.any (fun x => feedTileOf x.cfg.num == 7 && x.reserved != x.flight.length) ∧
    (let s := { (sparing true).setF 7 FED.LANES.POWERED 0x1F with now := 500 }
     let s1 := s.setF 7 FED.LANES.LOCK (setBit (s.fld 7 FED.LANES.LOCK) 3 false)
     s1.now < (s1.ftile 7).okAt 3 + 1000 ∧ s1.laneFails 7 3 ∧
       ¬(((s1.ev 7 FED.EVENTS.LANE_FAILING).feedFault (7 * 5 + 3) 1 0).flag 7 FED.CTRL.SPARE_EN)) ∧
    (((sparing true).ftile 7).spareFor = some 3 ∧ ¬(((sparing true).ftile 7).spareUp) ∧ ¬(((sparing true).ftile 7).back) ∧
      ((sparing true).ftile 7).spareAt ≤ ((sparing true).ftile 7).okAt 4 ∧ (amapFind 4 ((sparing true).ftile 7).lastOk).isSome) ∧
    (((sparing false).ftile 7).spareFor = some 3 ∧ ¬(((sparing false).ftile 7).spareUp) ∧ ¬(((sparing false).ftile 7).back) ∧
      ((sparing false).ftile 7).spareAt + 1000 ≤ (sparing false).now) := by decide

theorem witness_StoreRowsComplete :
    ¬(solo.dstate == .freeze) ∧
    (let s : State := { solo with nvs := [(7, { NvsTile.fresh with busy := some ⟨1, 0, 1⟩ })] }
     (s.array 7).busy = some ⟨1, 0, 1⟩) ∧ solo.ringScanned ∧
    ((recs (some (rec0 1)) 0).recd.openRec = some (rec0 1) ∧
      (rec0 1).ptime + (recs (some (rec0 1)) 0).fld 0 EVR.CTRL.WINDOW_MS * 1000 ≤ (recs (some (rec0 1)) 0).ptime) ∧ (unlocked.array 7).step = 2 ∧ (solo.dstate == .service || solo.dstate == .restricted) := by decide

theorem witness_KeyRowsComplete :
    (¬(solo.flag 0 KSE.STATUS.ENTROPY_DEAD) ∧ ¬((solo.setF 0 KSE.STATUS.ENTROPY_OK 0).flag 0 KSE.STATUS.ENTROPY_OK) ∧
      ∀ x ∈ ({ solo with kse := { solo.kse with fails := [599990000] } } : State).kse.fails, x + 10000 ≤ solo.now) ∧
    ¬(solo.fld 0 (kseFree 3) = 31) := by decide

theorem witness_BusRowsComplete :
    (withSession.sessionAt 0).isSome ∧ (1, 5) ∈ ({ solo with mb := { solo.mb with lockouts := [(1, 5)] } } : State).mb.lockouts ∧
    (1 ≤ 1 ∧ 254 ≠ 0 ∧ 254 ≠ 255) ∧
    (solo.twbAwake ∧ ¬(solo.twb.nackUntilBoot) ∧ solo.twb.held = none ∧ (solo.addressedAt 1001).matchWake.twb.outPkts = []) ∧
    (let s : State := { solo.setF 0 TWB.CFG.NOTIFY_EN 1 with twb := { solo.twb with outPkts := [[1]], due := true } }
     s.twbAwake ∧ ¬(s.twb.nackUntilBoot) ∧ s.twb.held = none ∧ (s.addressedAt 399).matchWake.twb.outPkts = [1] :: [] ∧
       (s.twb.due && s.twb.losses == 0) ∧ s.mayNotify) ∧
    ((inState .s1).dstate = .s1 ∧ (inState .s2).dstate = .s2 ∧ (inState .s3).dstate = .s3 ∧ (inState .aonOnly).dstate = .aonOnly ∧
      (inState .s3).twb.held = none ∧ ¬((inState .aonOnly).twb.nackUntilBoot)) ∧
    ¬(({ solo with twb := { solo.twb with losses := 1 } } : State).twb.losses = 0) ∧ 9 ≤ 9 ∧ 9 < 10 := by decide

theorem witness_RegisterWriteCompletes : 7 < solo.tiles ∧ 7 ≠ 15 ∧ blockIds.contains KSE.EVENTS.STALE.blk := by decide

/-- A unit in SELFTEST with a slice running on tile 0. -/
def testing (slice : Nat) : State :=
  { inState .selftest with
    boot := { State.reset.boot with
      running := [(0, slice, 0)]
      bankRunning := if slice = 16 then none else some (0, 0)
      romService := true }
    pow := { State.reset.pow with mains := true } }

/-- A unit whose freeze engines are all in a state. -/
def engines (f : FState) (s : State) : State := (List.range 8).foldl (fun a t => a.setF t FRZ.STATUS.STATE f.code) s

/-- A unit in RESTORE whose tiles are restored and armed, with a cause that restricts it. -/
def ready : State :=
  { engines .armed ((inState .restore).setF 0 MGT.STATE.CAUSE 1) with boot := { State.reset.boot with restored := List.range 8 } }

theorem witness_StartupRowsComplete :
    (State.reset.dstate = .boot ∧ ¬(State.reset.boot.handedOver) ∧ ¬(State.reset.dieWait (List.replicate 8 250))) ∧
    ((testing 16).boot.romService && true) ∧
    ((testing 3).boot.running.any (fun x => x.1 == 0 && x.2.1 == 3) ∧ ¬((testing 3).sliceLate 0)) ∧
    (let s : State := { testing 4 with now := 1200001 }
     s.boot.running.find? (fun x => x.1 == 0) = some (0, 4, 0) ∧ s.sliceLate 0) ∧
    ((testing 16).mayMeasure ∧ (testing 16).boot.bankRunning = none ∧ (testing 16).fld 0 AON.HU_THRESH.TRIP + 800 ≤ 60000 ∧
      ¬((testing 16).bankWaitFrom.any (fun w => decide (w < (testing 16).now)))) ∧
    (let s : State := { testing 16 with now := 4294967295000000 }
     s.bankWaitFrom.any (fun w => decide (w + s.fld 0 BST.BANK_CFG.WAIT_S * 1000000 ≤ s.now))) ∧
    (testing 3).boot.bankRunning.isSome ∧ (10000 ≤ 10000 ∧ 750000 ≤ 750000) ∧
    (ready.mayRelease ∧ (ready.updTwin (fun x => { x with helloSince := ready.now })).restrictedCause) ∧
    (let s := ready.setF 0 MGT.STATE.CAUSE 0
     s.mayRelease ∧ ¬((s.updTwin (fun x => { x with helloSince := s.now })).restrictedCause)) := by decide

theorem witness_PowerRowsComplete :
    (inState .off).dstate = .off ∧ solo.dstate ≠ .off ∧
    ((solo.setF 7 AON.STATUS.ARMED 1).setF 7 AON.STATUS.ABOVE_TRIP 0).flag 7 AON.STATUS.ARMED ∧
    (let s := (inState .freeze).setF 7 FRZ.STATUS.STATE FState.sealing.code
     let s1 := (s.setF 7 AON.STATUS.ABOVE_EMERG 0).ev 7 AON.EVENTS.HU_EMERG
     s1.frz 7 ∈ [FState.stopping, .draining, .dumping, .sealing]) ∧ solo.dstate ∉ [DState.off, .aonOnly, .s3] ∧
    (let s : State := { inState .freeze with pow := { State.reset.pow with freezeNet := true } }
     (s.pow.freezeNet && s.dstate == .freeze) ∧ (s.frz 7 == .armed || s.frz 7 == .notArmed)) ∧
    ¬(solo.pow.shed.contains 23) ∧
    (let s := solo.setF 0 AON.WAKE_AT_HI.EN 1
     (s.flag 0 AON.WAKE_AT_HI.EN && decide (s.fld 0 AON.WAKE_AT_LO.TICKS + s.fld 0 AON.WAKE_AT_HI.TICKS * 2 ^ 32 ≤ s.etc))) ∧
    ((inState .s1).dstate = .s1 ∧ (inState .s2).dstate = .s2 ∧ (inState .s3).dstate = .s3) ∧
    (decide (solo.boot.wdog + solo.wdogPeriod ≤ solo.now) && solo.dstate != .off && solo.dstate != .aonOnly && solo.dstate != .s3 &&
      solo.dstate != .s2) ∧
    (let s := (solo.setFs 0 [(PWC.THERM.WARN, 95), (PWC.THERM.THROTTLE, 100)]).allTiles (fun t a => a.setF t BST.MON.TEMP ([949, 0, 0, 0, 0, 0, 0, 100].getD t 0))
     s.dstate = .service ∧ s.pow.target = 0 ∧ (949 : Int) < (s.fld 0 PWC.THERM.WARN : Int) * 10 ∧ (s.throttleNext 949).1 = 0) := by decide

/-- A unit in FREEZE with every tile in a state of the engine. -/
def freezing (f : FState) : State := engines f (inState .freeze)

theorem witness_FreezeRowsComplete :
    (3 ∈ [1, 2, 3] ∧ solo.dstate = .service) ∧
    ((freezing .draining).dstate == .freeze && (freezing .draining).frz 7 != .armed && (freezing .draining).frz 7 != .notArmed) ∧
    (freezing .draining).frz 7 == .draining ∧ (freezing .dumping).frz 7 == .dumping ∧ (freezing .sealing).frz 7 == .sealing ∧
    ((freezing .sealed).dstate = .freeze ∧ (freezing .sealed).mayCut) ∧ (8 ≤ 15 ∧ 15 < 16) ∧
    ((solo.updFeed (fun f => { f with hops := [(31, 1), (59, 1)] })).hopLinks 7 3 ≠ 0 ∧
      ¬((solo.updFeed (fun f => { f with hops := [(31, 2), (59, 2)] })).recOpen 7 0x01 3).meshWhole) ∧
    (let s := inState .restore
     s.dstate = .restore ∧ ¬(s.boot.restored.contains 7) ∧ ¬(s.deep.rebuilding.contains 7) ∧ ¬(s.deep.rootBad.contains 7) ∧
       s.newestDump 7 = none) ∧
    (let s : State := { (mapped 2 7).setF 0 PWC.THERM.LEVEL 0 with firn := { (mapped 2 7).firn with unrestored := [512] } }
     s.dstate = .service ∧ ¬(s.pow.ranksAway.contains 7) ∧ s.flag 7 BCX.STATUS.XTS_KEY ∧ s.restoreNext 7 = some 512 ∧
       s.fld 0 PWC.THERM.LEVEL = 0 ∧ (s.homeOf (512 / 512)).isSome ∧ bestOf (s.imagesOf 512) = some ⟨1, 1, word512, some 7⟩ ∧
       bestOf (({ s with deep := solo.deep }).imagesOf 512) = none) ∧
    (let s : State := { solo with pow := { solo.pow with target := 2, entryStep := 3 } }
     s.dstate == .service && s.pow.target == 2 && s.pow.entryStep == 3 &&
       decide (s.pow.stepAt + s.fld 0 PWC.SLEEP.CLEAN_MS * 1000 ≤ s.now)) := by decide

/-- A paired unit of a role with all its twin links up. -/
def twinned (r : TRole) : State :=
  let s := solo.setFs 0 [(TWA.STATUS.ROLE, r.code), (TWA.CTRL.PAIR_EN, 1), (TWA.CTRL.DETECT, 10), (TWA.STATUS.IN_STEP, 1),
    (TWA.CTRL.COMEBACK_EN, 1), (TWA.STATUS.PARTNER_ROLE, TRole.syncing.code)]
  let u := (List.range 8).foldl (fun a t => a.setFs t [(TWL.STATUS.LINK_UP, 1), (TWL.STATUS.SECURED, 1), (TWL.STATUS.PAIRED, 1),
    (BCX.STATUS.TX_SA, 1)]) s
  { u with
    pow := { u.pow with twPref := true }
    boot := { u.boot with handedOver := true }
    twin := { u.twin with
      lost := false, leaseOk := true, silent := false, lastWordAt := 1000, actiLowSince := some 1000, lastGood := some 1000, resync := 1
      announceLeft := 3 } }

/-- The same with pair key and partner lost. -/
def alone (r : TRole) : State :=
  let s := twinned r
  { s with
    twin := { s.twin with lost := true, swap := 0 }
    kse := { s.kse with slots := [(7, { KeySlot.empty with valid := true, gen := 1, halves := 1 })] } }

/-- A region of class 2 over extent 1, with a diverged atomic unit. -/
def diverged : State :=
  let s := twinned .solo
  { s with
    ams := { s.ams with regions := [{ reg0 with cls := 2 }], homes := [(1, ⟨7, 1, false, false, 90000⟩)] }
    twin := { s.twin with diverge := [(1, 8)] } }

set_option maxRecDepth 20000 in
theorem witness_RESYNC_SNAPSHOT :
    diverged.role = .solo ∧ diverged.twin.resync ≠ 0 ∧ diverged.dstate = .service ∧ diverged.divergent 7 = 1 :: [] ∧
    (diverged.probe ((1 * 32 + lowBit (diverged.divWord 1)) * 65536) 65536).pagesReady ((1 * 32 + lowBit (diverged.divWord 1)) * 65536) 65536 := by
  refine ⟨by decide, by decide, by decide, ?_, by decide⟩
  have h : diverged.homeOf 1 = some ⟨7, 1, false, false, 90000⟩ := by decide
  have k : diverged.twin.diverge = [(1, 8)] := rfl
  have c : diverged.classAt 0x200000 = 2 := by decide
  simp [State.divergent, k, h, c]

set_option maxRecDepth 20000 in
theorem witness_RESYNC_COMPLETE :
    (twinned .solo).role == .solo && (twinned .solo).twin.resync != 0 && (twinned .solo).dstate == .service &&
    (twinned .solo).partnerRole == .syncing && (twinned .solo).everyTile (fun t => ((twinned .solo).divergent t).isEmpty &&
      ((twinned .solo).twl t).unacked.isEmpty && ((twinned .solo).twl t).queue.isEmpty && (twinned .solo).linkReady t) := by
  have h : ∀ t, ((twinned .solo).divergent t).isEmpty = true := by
    intro t
    have k : (twinned .solo).twin.diverge = [] := rfl
    simp [State.divergent, k]
  simp only [h]
  decide

set_option maxRecDepth 20000 in
theorem witness_TwinRoleRowsComplete :
    (let s := twinned .active
     (!s.twin.lost && decide (s.twin.lastWordAt + s.detectUs ≤ s.now) && s.everyTile (fun t => (s.twl t).lastHb.all (fun a =>
       decide (a + s.detectUs ≤ s.now))))) ∧
    (let s : State := { twinned .active with twin := { (twinned .active).twin with
       tiles := [{ TwinTile.fresh 0 with lastHb := some 600000000 }] } }
     s.tiles ≠ 0 ∧ ¬(s.twin.lost) ∧ ¬(s.twin.pathTold) ∧ s.twin.lastWordAt + s.detectUs ≤ s.now ∧
       ¬(s.everyTile (fun t => (s.twl t).lastHb.all (fun a => decide (a + s.detectUs ≤ s.now))))) ∧
    (alone .standby).mayTakeOver ∧ ((twinned .solo).twin.announceLeft != 0 && (twinned .solo).serving) ∧
    (let s := twinned .standby
     (s.role == .standby && s.pow.twPref && s.flag 0 TWA.CTRL.COMEBACK_EN && s.maySwap &&
       decide (s.twin.standbySince + s.fld 0 TWA.CTRL.HOLDOFF * 1000000 ≤ s.now))) ∧
    (let s : State := { solo with twin := { solo.twin with swap := 2 } }
     2 ≤ s.twin.swap ∧ s.twin.swapAt + s.detectUs ≤ s.now) ∧
    (!solo.twin.settled && (solo.dstate == .service || solo.dstate == .restricted)) := by decide

set_option maxRecDepth 4000 in
theorem witness_TwinLinkRowsComplete :
    (let s := twinned .active
     ((s.updTwl 7 (fun y => { y with helloTile := if natAt [] 2 1 = 7 then none else some (natAt [] 2 1) })).twinIn 7 0x01 [] helloOk
       (fun f a => if 7 = 0 then a.updTwin (fun x => { x with peer := some (peerOf f.body), left := false }) else a)).flag 7 TWL.STATUS.SECURED) ∧
    (let s := (twinned .none).setF 7 TWL.STATUS.PAIRED 0
     (s.flag 7 TWL.STATUS.LINK_UP && s.flag 7 BCX.STATUS.TX_SA && !s.flag 7 TWL.STATUS.PAIRED && s.inPair)) ∧
    (let s := twinned .active
     s.heartBeats ∧ s.flag 7 TWL.STATUS.LINK_UP ∧ s.flag 7 TWL.STATUS.SECURED) ∧
    (solo.dstate ∉ [DState.off, .aonOnly, .s3] ∧ hbDecode (hbEncode 0) = some 0 ∧ wordCrc 0 = 0 % 256 ∧ solo.wordInOrder 0 ∧
      hbDecode (hbEncode 0).tail = none) ∧
    (({ TwinTile.fresh 7 with booksOff := true } : TwinTile).booksOff ∧ (TwinTile.fresh 7).unacked = []) ∧
    (leased.twin.leaseOk && leased.boot.handedOver && leased.pow.target == 0 &&
      decide (leased.twin.leaseAt + leased.fld 0 TWA.CTRL.LEASE * 50 ≤ leased.now)) ∧ solo.flag 0 TWA.STATUS.ACTI = false ∧
    (let s : State := { solo with twin := { solo.twin with backoffUntil := 5, mismatchSince := some 5 } }
     (s.twin.backoffUntil != 0 && decide (s.twin.backoffUntil ≤ s.now)) ∧ s.twin.mismatchSince = some 5 ∧
       (5 + 100 ≤ s.now && !s.flag 0 TWA.STATUS.IFAULT)) := by decide

set_option maxRecDepth 4000 in
theorem witness_TwinFrameRowsComplete :
    (let s : State := { twinned .active with twin := { (twinned .active).twin with
       tiles := [{ TwinTile.fresh 7 with fetches := [⟨3, 512, 0⟩], unacked := [⟨4, [], 0, 49⟩] }] } }
     (s.twl 7).fetches.find? (fun x => x.id == 3) = some ⟨3, 512, 0⟩ ∧ 0 + 1000 ≤ s.now ∧ (s.twl 7).unacked = ⟨4, [], 0, 49⟩ :: [] ∧
       s.linkReady 7 ∧ 0 + 20 ≤ s.now ∧ 49 * 20 < s.detectUs ∧ s.flag 7 TWL.STATUS.LINK_UP) ∧
    (let s := alone .none
     pointServed s.dstate 1 ∧ s.inPair ∧ ¬(s.heldDown 7 2) ∧ s.role ∉ [TRole.active, .standby] ∧
       (((s.updTwl 7 (fun _ => { TwinTile.fresh 7 with lastHb := (s.twl 7).lastHb, upAt := s.now, heard := false, rxPend := none })).setFs 7
         [(TWL.STATUS.LINK_UP, 1), (TWL.STATUS.SECURED, 0), (TWL.STATUS.PAIRED, 0), (BCX.STATUS.RX_SA, 0)]).slot 7).valid ∧ (s.slot 7).valid ∧
       amapGet 0 s.nv.rxMac 7 ≠ 1 ∧ s.flag 7 TWL.STATUS.LINK_UP ∧ !(s.twl 7).heard ∧ (s.twl 7).upAt + 100000 ≤ s.now ∧
       2 ^ 62 ≤ ((s.updTwl 7 (fun y => { y with txPn := 2 ^ 62 })).twl 7).txPn) ∧
    (let s : State := { alone .none with nv := { solo.nv with rxMac := [(7, 5)], rxKn := [(7, 9)] } }
     s.flag 7 TWL.STATUS.LINK_UP ∧ (s.slot 7).valid ∧ amapGet 0 s.nv.rxMac 7 = 5 ∧ 8 < amapGet 0 s.nv.rxKn 7) := by decide

/-! ### Well-formed commands: one ill-formed term for each check -/

theorem test_wf_units :
    (Instr.tcrit 7).wf = true ∧ (Instr.tcrit 8).wf = false ∧ (Instr.registerWrite 15 11 0x18 0).wf = true ∧
    (Instr.registerWrite 9 11 0x18 0).wf = false ∧ (Instr.railFault 4).wf = false ∧ (Instr.ethLinkUp 0 2 0).wf = false ∧
    (Instr.ethLinkUp 0 0 4).wf = false ∧ (Instr.pfcPause 0 0 8 true).wf = false ∧ (Instr.wayCleanDone 0 16).wf = false ∧
    (Instr.retrainPause 0 3).wf = false ∧ (Instr.eraseFail 0 0 8).wf = false ∧ (Instr.strobeEdge 0 2).wf = false ∧
    (Instr.fifoFull 256).wf = false ∧ (Instr.blockLock 0 5).wf = false ∧ (Instr.laneFailing 0 4 true).wf = false ∧
    (Instr.sessionIdleExpiry 16).wf = false ∧ (Instr.lockoutExpiry 4).wf = false ∧ (Instr.orderRasterLine 256).wf = false := by decide

theorem test_wf_frame :
    ident.wf = true ∧ ({ ident with point := 16 } : Frame).wf = false ∧ ({ ident with opcode := 65536 } : Frame).wf = false ∧
    ({ ident with flags := 256 } : Frame).wf = false ∧ ({ ident with version := 256 } : Frame).wf = false ∧
    ({ ident with tag := 2 ^ 32 } : Frame).wf = false ∧ ({ ident with session := 2 ^ 32 } : Frame).wf = false ∧
    ({ ident with status := 65536 } : Frame).wf = false ∧ ({ ident with ctr := 2 ^ 32 } : Frame).wf = false ∧
    ({ ident with dstate := 256 } : Frame).wf = false ∧ ({ ident with trole := 256 } : Frame).wf = false ∧
    ({ ident with rsv := 2 ^ 208 } : Frame).wf = false := by decide

theorem test_wf_packet :
    (pkt 4).wf = true ∧ ({ pkt 4 with tile := 8 } : Packet).wf = false ∧ ({ pkt 4 with port := 2 } : Packet).wf = false ∧
    ({ pkt 4 with lport := 4 } : Packet).wf = false ∧ ({ pkt 4 with qpn := 2 ^ 24 } : Packet).wf = false ∧
    ({ pkt 4 with opcode := 256 } : Packet).wf = false ∧ ({ pkt 4 with psn := 2 ^ 24 } : Packet).wf = false ∧
    ({ pkt 4 with va := 2 ^ 64 } : Packet).wf = false ∧ ({ pkt 4 with key := 2 ^ 32 } : Packet).wf = false ∧
    ({ pkt 4 with len := 2 ^ 32 } : Packet).wf = false ∧ ({ pkt 4 with swap := 2 ^ 64 } : Packet).wf = false ∧
    ({ pkt 4 with cmp := 2 ^ 64 } : Packet).wf = false ∧ ({ pkt 4 with imm := 2 ^ 32 } : Packet).wf = false := by decide

theorem test_wf_req_and_key :
    req1.wf = true ∧ ({ req1 with tile := 8 } : ConnectReq).wf = false ∧ ({ req1 with port := 2 } : ConnectReq).wf = false ∧
    ({ req1 with lport := 4 } : ConnectReq).wf = false ∧ ({ req1 with rqpn := 2 ^ 24 } : ConnectReq).wf = false ∧
    ({ req1 with psn := 2 ^ 24 } : ConnectReq).wf = false ∧ ({ req1 with gid := 2 ^ 128 } : ConnectReq).wf = false ∧
    ({ req1 with retry := 8 } : ConnectReq).wf = false ∧ ({ req1 with rnrRetry := 8 } : ConnectReq).wf = false ∧
    ({ req1 with ackTimeout := 32 } : ConnectReq).wf = false ∧ oldReq.wf = true ∧ ({ oldReq with op := 256 } : KseReq).wf = false ∧
    ({ oldReq with slot := 256 } : KseReq).wf = false ∧ ({ oldReq with slotGen := 256 } : KseReq).wf = false ∧
    ({ oldReq with flags := 256 } : KseReq).wf = false ∧ ({ oldReq with src := 256 } : KseReq).wf = false ∧
    ({ oldReq with dst := 256 } : KseReq).wf = false ∧ ({ oldReq with dstTile := 256 } : KseReq).wf = false ∧
    ({ oldReq with dstAttr := 256 } : KseReq).wf = false ∧ ({ oldReq with tag := 2 ^ 32 } : KseReq).wf = false := by decide

theorem test_wf_lengths :
    (∀ p : List Byte, 4096 < p.length → ({ ident with payload := p } : Frame).wf = false) ∧
    (∀ p : List Byte, 4096 < p.length → ({ pkt 4 with data := p } : Packet).wf = false) ∧
    (∀ p : List Byte, 32 < p.length → ({ req1 with priv := p } : ConnectReq).wf = false) := by
  refine ⟨?_, ?_, ?_⟩ <;> intro p h <;> simp [Frame.wf, Packet.wf, ConnectReq.wf] <;> intros <;> omega

/-! ### Decoding: the table gives its rows no bits -/

theorem test_decode_none (n w : Nat) : Sys2Proof.decodeTableWord n w = none ∧ State.reset.withFetchWord n w = State.reset := ⟨rfl, rfl⟩

/-! ### The spec's worked examples -/

/-- Chapter 11: entry 4,102 = 0x3005 fires one level above the larger of the two; entry 4,101 = 0x9005 fires nothing. -/
theorem test_nozzle_map :
    mapOut 0x9005 4101 2 (fun _ => 2) = 0 ∧ mapOut 0x3005 4102 2 (fun p => if p = 4101 then 1 else 0) = 2 ∧
    mapOut 0x3005 4102 1 (fun p => if p = 4101 then 1 else 0) = 1 ∧ mapOut 0x3005 4102 2 (fun _ => 0) = 0 := by decide

/-- Chapter 4, the decode example: channel, subchannel, bank group, column, bank, row, rank. -/
theorem test_dram_decode : solo.locate 5 0x2580EB9C40 = (1, ⟨1, 3, 0x22, 3, 0x19009, 0⟩) := by decide

/-- Chapter 3, the set example: three raster lines at a pitch of 64 KiB. -/
theorem test_host_sets :
    setIndex false 32768 3 = 27987 ∧ setIndex false 32768 515 = 9420 ∧ setIndex false 32768 1027 = 23622 := by decide

/-- Chapter 12, the address example. -/
theorem test_register_address : regKey 5 0x0B 0x018 = 0x50B00018 ∧ regKey 15 0x1A 4 = 0xF1A00004 := by decide

/-- Chapter 9: the key of region 0x0123 with generation 3 and TAG 0x5C. -/
theorem test_region_key : ({ reg0 with num := 0x123, gen := 3, tag := 0x5C } : Region).key = 0x035C0123 := by decide

/-- Chapter 15: the block for half 1 of tile 3's XTS data key at epoch 2. -/
theorem test_derive_block : (deriveBlock lblXtsd 2 3 1 true).toNat = leNat ([0x58, 0x54, 0x53, 0x44, 2, 0, 0, 0, 0, 0, 0, 0, 3, 1, 1, 0] : List Byte) := by
  decide

/-- Tile 3 with both ports at 400G and priority 3 lossless, at the defaults of chapter 8. -/
def win : State :=
  solo.setFs 3 [(RMA.WIN.MAX_KB, 1024), (ETH.PFC.LOSSLESS.inst 0, 8), (ETH.PFC.LOSSLESS.inst 1, 8), (ETH.PFC.HEADROOM.inst 0, 48),
    (ETH.PFC.HEADROOM.inst 1, 48), (RMA.BUF_POOL.PULL_KB, 4096)]

/-- Chapter 8: windows with 10, 20, 100 and 3,000 active QPs. -/
theorem test_windows :
    [10, 20, 100, 3000].map (fun n => win.windowOf 3 n / 1024) = [1024, 544, 108, 4] := by decide

/-- Chapter 13: the bank of 22.5 F. -/
theorem test_bank : cMeas 608150 1000 15000 14600 = 2250 := by decide

/-- Chapter 1: from tile 2 to tile 5 the route runs by way of tile 1. -/
theorem test_route : solo.meshRoute 2 5 = [(2, 1), (1, 5)] := by decide

/-- Chapter 11: 8,192 positions at 4 bits per nozzle make a raster line of 4,096 B. -/
theorem test_line : ({ strm.cfg with bpn := 2, pos := 8192 } : StreamCfg).lineBytes = 4096 := by decide

/-- Chapter 17: a matching event is counted in the open record. -/
theorem test_repeat :
    ((recs (some (rec0 15999)) 0).eventArrival 3).recd.openRec = some (rec0 16000) := by decide

/-- Chapter 2: the decode example: extent, page, home. -/
theorem test_extent : 0x01534A6B9C40 / 2 ^ 21 = 0xA9A53 ∧ 0x01534A6B9C40 / 4096 % 512 = 0xB9 ∧
    0x12C07 * 0x200000 + 0x0B9C40 = 0x2580EB9C40 := by decide

/-- Chapter 19: ball CU17 of a BX-8, and the balls of each variant. -/
theorem test_balls : ballRow ['C', 'U'] = some 73 ∧ rowName 73 = ['C', 'U'] ∧ tileOfBall 8 73 17 = some (4, 24, 17) ∧
    [2, 4, 8].map ballTotal = [3025, 5184, 9216] := by decide

/-- Chapter 5: the generator of the code is monic of degree 16 and its lower coefficients are the taps. -/
theorem test_rs_generator : rsGen.take 16 = rsTaps ∧ rsGen.drop 16 = [1] := by decide

end Sys2Proof.Tests
end

/-! SUPPORT. What a command answers, said once for each form of its meaning (the forms of Laws/Units), and then for every row: no form
faults or refuses, and a form that names an absent tile or unit leaves the state as it is (R11). -/

namespace Sys2Proof.Machine

/-- A command on `s` with the outcome `o` answers a next state, and has no effect where the unit it names, present iff `present`, is absent. -/
def AnswersWhere (s : State) (o : Host.Outcome State Fault Refusal) (present : Bool) : Prop :=
  (∃ t, o = .next t) ∧ (present = false → o = .next s)

section
variable {s x : State}

/-- A meaning that names no unit has only to answer. -/
theorem answersWhere_true_next {t : State} : AnswersWhere s (.next t) true := ⟨⟨t, rfl⟩, nofun⟩

theorem answersWhere_ite {c : Prop} [Decidable c] {present : Bool} {a b : Host.Outcome State Fault Refusal} (ha : AnswersWhere s a present)
    (hb : AnswersWhere s b present) : AnswersWhere s (if c then a else b) present := by
  split <;> assumption

theorem onTile_answersWhere {t : Nat} : AnswersWhere s (onTile t s x) (decide (t < s.tiles)) :=
  ⟨⟨_, rfl⟩, fun h => onTile_absent (of_decide_eq_false h)⟩

theorem onUnit_answersWhere {t u n : Nat} : AnswersWhere s (onUnit t u n s x) (decide (t < s.tiles) && decide (u < n)) :=
  ⟨⟨_, rfl⟩, fun h => onUnit_absent (by simpa using h)⟩

theorem onChannel_answersWhere {t c : Nat} : AnswersWhere s (onChannel t c s x) (decide (t < s.tiles) && decide (c < 3)) :=
  onUnit_answersWhere

/-- The form of `onTiles`, written out so that a row's meaning of it is found by first-order matching: a register write to tile field 0xF
goes to every tile and names none that could be absent (R352). -/
theorem broadcast_or_onTile_answersWhere {t : Nat} {y : State} :
    AnswersWhere s (if t = 15 then .next y else onTile t s x) (t == 15 || decide (t < s.tiles)) := by
  by_cases ht : t = 15
  · simpa [ht] using answersWhere_true_next
  · rw [if_neg ht, beq_false_of_ne ht, Bool.false_or]
    exact onTile_answersWhere

theorem onSubmitter_answersWhere {sub : Nat} : AnswersWhere s (onSubmitter sub s x) (decide (sub < 4)) :=
  ⟨⟨_, rfl⟩, fun h => by rw [onSubmitter, if_neg (of_decide_eq_false h)]⟩

theorem onLport_absent {t port lp : Nat} (h : ¬(t < s.tiles ∧ port < 2 ∧ lp < 4)) : onLport t port lp s x = .next s := by
  unfold onLport
  split
  · next ht => rw [if_neg (fun k => h ⟨ht, by simpa using k⟩)]
  · rfl

theorem onLport_answersWhere {t port lp : Nat} :
    AnswersWhere s (onLport t port lp s x) (decide (t < s.tiles) && decide (port < 2) && decide (lp < 4)) :=
  ⟨⟨_, rfl⟩, fun h => onLport_absent (by simpa [and_assoc] using h)⟩

/-- A packet's form is that of its logical port, with the opcode's check inside. -/
theorem onPacket_answersWhere {p : Packet} {own : List Nat} :
    AnswersWhere s (onPacket p own s x) (decide (p.tile < s.tiles) && decide (p.port < 2) && decide (p.lport < 4)) :=
  onLport_answersWhere

/-- The rows of a rail or a power stage, of which the part has `n`. -/
theorem next_ite_answersWhere {u n : Nat} : AnswersWhere s (.next (if n ≤ u then s else x)) (decide (u < n)) :=
  ⟨⟨_, rfl⟩, fun h => by rw [if_pos (Nat.le_of_not_lt (of_decide_eq_false h))]⟩

end

/-- Every row answers a next state, and the row of an absent tile or unit leaves the state as it is: the rows that name a unit by the form
of their meaning, then the rows that name none. -/
theorem exec_answersWhere (i : Instr) (s : State) : AnswersWhere s (exec i s) (unitsPresent s i) := by
  cases i
  case mainsOkLow | huTrip | huEmerg | tripArm | tcrit | freezeNet | freezeTrigger | secondTrigger | drainWindowEnd | dumpComplete | sealVerified |
    selftestSlice | sliceResult | sliceBudgetExpiry | restore | bgRestorePage | helloSend | hello | heartbeatSend | heartbeat | mirror |
    mirrorRetransmit | mirrorAck | credit | creditBooksReset | fetchReq | fetchResp | fetchTimeout | portionRecord | atomicRecord | qpCtxRecord |
    capsuleRecord | completionRecord | startRecord | chainRecord | moveRecord | readyRecord | indexMark | snapshotRecord | stateRecord |
    resyncSnapshot | twinLinkDown | twinLinkUp | pnNear | rxNewKn | macsecVerifyFail | pairKeyTimeout | windowRecompute | bufBooksCheck | tokenGrant |
    firnCapture | programVerified | firnBooksCheck | firnDeepMerge | homeMapApply | cacheLookup | cacheFill | evbWriteback | cacheDrainDone |
    repartitionDone | clean | invalidate | dramRelocate | s2RankReturn | decRead | firstWrite | frameFree | ueRecovery | pageRetire | errorLogPoll |
    decLogClearWrite | decInjArm | deepRead | suspendRead | gcStart | gcStop | tableFlush | dumpArm | previousRelease | indexPulse | fifoBooksCheck |
    lidSend | spareStatusOk | spareTimeout | marginSchedule | nvsKeyWrite | nvsUnlockTimeout | program | erase | blankCheck | marginRead | swap |
    nvsOperationEnd | eventArrival | linkRetired | faultEntry | blockEraseDone | deepRebuildDone =>
    exact onTile_answersWhere
  case ethFrame | pfcPause | pfcWatchdog | wayCleanDone | deepProgramFail | eraseFail | wearStage | strobeEdge | strobeEarly | statusFrame |
    laneFailing | wayPowerUpDone | blockLock =>
    exact onUnit_answersWhere
  case dramRequest | refreshDue | refreshDebtMax | tempPoll | rowIdleClose | panicLong | retrainPause | retrainForced | speedGo | freqChangeDone |
    trnWriteReadCompare | trnReadCompare | trnCaLoopback | trnWlSample | sppr | hppr | scrubRead =>
    exact onChannel_answersWhere
  case ethLinkUp | ethLinkDown | linkDownHoldExpiry | req =>
    exact onLport_answersWhere
  case send | rdmaWrite | rdmaWriteImm | rdmaReadRequest | cmpSwap | fetchAdd | ackReceived | readResponse | cnp =>
    exact onPacket_answersWhere
  case tchEnWrite | tchWaypwrWrite | tchWayclassWrite | registerWrite =>
    exact broadcast_or_onTile_answersWhere
  case kseQueueCheck =>
    exact onSubmitter_answersWhere
  case railFault | phaseFault | phaseShedLoad =>
    exact next_ite_answersWhere
  case setEndpointId | getMctpVersionSupport | getVendorMessageSupport =>
    exact answersWhere_ite answersWhere_true_next answersWhere_true_next
  all_goals exact answersWhere_true_next

/-- Settles O4, by the case of each row: its meaning has one of the forms above. -/
theorem everyCommandAnswers : Obligations.EveryCommandAnswers := exec_answersWhere

end Sys2Proof.Machine

/-! SUPPORT. Payloads of R339: the fields that a payload is built of are the ones it parses to. -/

namespace Sys2Proof.Machine

@[simp] theorem length_leBytes (n v : Nat) : (leBytes n v).length = n := by
  induction n generalizing v with
  | zero => rfl
  | succ n ih => rw [leBytes, List.length_cons, ih]

/-- A number that fits its bytes is the number they spell. -/
theorem leNat_leBytes {n v : Nat} (h : v < 256 ^ n) : leNat (leBytes n v) = v := by
  induction n generalizing v with
  | zero => exact (Nat.lt_one_iff.mp h).symm
  | succ n ih =>
    rw [leBytes, leNat, ih (by rw [pow_succ] at h; omega), BitVec.toNat_ofNat]
    omega

@[simp] theorem leNat_replicate_zero (n : Nat) : leNat (List.replicate n 0) = 0 := by
  induction n with
  | zero => rfl
  | succ n ih => rw [List.replicate_succ, leNat, ih]; rfl

/-- The bytes at the place where a list of them stands. -/
theorem bytesAt_append (pre mid post : List Byte) : bytesAt (pre ++ (mid ++ post)) pre.length mid.length = mid := by
  simp [bytesAt]

theorem le_alignUp (o : Nat) {a : Nat} (h : 0 < a) : o ≤ alignUp o a := by
  have hlt := Nat.lt_div_mul_add (a := o + a - 1) h
  unfold alignUp
  omega

theorem fieldAlign_pos {n : Nat} (h : 0 < n) : 0 < fieldAlign n := by
  unfold fieldAlign
  split <;> omega

/-- Each field has at least one byte and its value fits its bytes. -/
def FieldsFit (fs : List (Nat × Nat)) : Prop := ∀ e ∈ fs, 0 < e.1 ∧ e.2 < 256 ^ e.1

/-- Fields that stand after `pre` parse to their values, whatever follows them. -/
theorem parseFrom_buildFrom {fs : List (Nat × Nat)} (h : FieldsFit fs) (pre post : List Byte) :
    parseFrom (pre ++ (buildFrom pre.length fs ++ post)) pre.length (fs.map Prod.fst) =
      some (fs.map Prod.snd, pre.length + (buildFrom pre.length fs).length) := by
  induction fs generalizing pre with
  | nil => rfl
  | cons e fs ih =>
    obtain ⟨n, v⟩ := e
    obtain ⟨⟨hn, hv⟩, hfs⟩ := List.forall_mem_cons.mp h
    have hp := le_alignUp pre.length (fieldAlign_pos hn)
    rw [buildFrom, List.map_cons, List.map_cons, parseFrom]
    generalize alignUp pre.length (fieldAlign n) = p at hp ⊢
    have hgap : (List.replicate (p - pre.length) (0 : Byte)).length = p - pre.length := List.length_replicate
    generalize hg : List.replicate (p - pre.length) (0 : Byte) = gap at hgap
    have hpl : (pre ++ gap).length = p := by rw [List.length_append]; omega
    have hql : (pre ++ gap ++ leBytes n v).length = p + n := by rw [List.length_append, hpl, length_leBytes]
    have ih' := ih hfs (pre ++ gap ++ leBytes n v)
    have hval : bytesAt (pre ++ gap ++ (leBytes n v ++ (buildFrom (p + n) fs ++ post))) p n = leBytes n v := by
      simpa [hpl] using bytesAt_append (pre ++ gap) (leBytes n v) (buildFrom (p + n) fs ++ post)
    have hzero := bytesAt_append pre gap (leBytes n v ++ (buildFrom (p + n) fs ++ post))
    rw [hql] at ih'
    rw [hgap] at hzero
    simp only [List.append_assoc] at ih' hval hzero ⊢
    rw [ih', hval, hzero, leNat_leBytes hv, ← hg, leNat_replicate_zero, if_neg]
    · simp only [Option.map_some, List.length_append, length_leBytes, List.length_replicate]
      congr 2
      omega
    · simp only [List.length_append, length_leBytes, bne_self_eq_false, Bool.or_false, decide_eq_true_eq, List.length_replicate]
      omega

/-- A payload parses to the fields it is built of (R339). -/
theorem parse339_build339 {fs : List (Nat × Nat)} (h : FieldsFit fs) :
    parse339 (fs.map Prod.fst) (build339 fs) = some (fs.map Prod.snd) := by
  have hparse := parseFrom_buildFrom h [] (List.replicate (alignUp (buildFrom 0 fs).length 8 - (buildFrom 0 fs).length) 0)
  have hle := le_alignUp (buildFrom 0 fs).length (a := 8) (by decide)
  simp only [List.nil_append, List.length_nil, Nat.zero_add] at hparse
  rw [parse339, build339, pad8, hparse]
  simp only [List.length_append, List.length_replicate, List.drop_left, leNat_replicate_zero, beq_self_eq_true, Bool.and_true,
    decide_eq_true_eq]
  exact if_pos (by omega)

/-- The fields that a command reads of a payload are those it is built of. -/
theorem fieldsOf_build339 {fs : List (Nat × Nat)} (h : FieldsFit fs) : fieldsOf (fs.map Prod.fst) (build339 fs) = fs.map Prod.snd := by
  rw [fieldsOf, parse339_build339 h, Option.getD_some]

/-! ### Fields of registers, events with a record -/

theorem fld_lt (s : State) (t : Nat) (f : Fld) : s.fld t f < 2 ^ f.w := Nat.mod_lt _ (Nat.two_pow_pos _)

/-- A field of another register of the same block stands. -/
theorem fld_setF_off (s : State) (t : Nat) (f g : Fld) (v : Nat) (hb : g.blk = f.blk) (ho : g.off ≠ f.off) :
    (s.setF t f v).fld t g = s.fld t g :=
  fld_setF_ne _ _ _ _ _ _ (by unfold regKey; rw [hb]; omega)

/-- A lost record is counted in EVR and changes no register of another block. -/
theorem fld_loseEvent (s : State) (t u : Nat) {g : Fld} (hb : g.blk < 256) (ho : g.off < 2 ^ 20)
    (hg : g.blk ≠ EVR.EVENTS.LOST.blk) : (s.loseEvent t).fld u g = s.fld u g := by
  have hkey : ∀ o, o < 2 ^ 20 → regKey u g.blk g.off ≠ regKey t EVR.EVENTS.LOST.blk o :=
    fun o h k => hg (regKey_inj hb (by decide) ho h k).2.1
  exact (fld_bump_ne _ _ _ EVR.LOST.COUNT _ _ (hkey _ (by decide))).trans
    (fld_ev_ne _ _ _ EVR.EVENTS.LOST _ (hkey _ (by decide)) (hkey _ (by decide)))

/-- A record that enters its queue, or is lost, changes no register of a block other than EVR. -/
theorem fld_enqueueRec (s : State) (t u : Nat) (r : EvRec) {g : Fld} (hb : g.blk < 256) (ho : g.off < 2 ^ 20)
    (hg : g.blk ≠ EVR.EVENTS.LOST.blk) : (s.enqueueRec t r).fld u g = s.fld u g := by
  unfold State.enqueueRec
  split
  · rfl
  · exact fld_loseEvent _ t u hb ho hg

/-- The bit of a recorded event is set. -/
theorem fld_evRec_self (s : State) (t : Nat) {f : Fld} (arg : Nat) (hw : f.w = 1) (hl : f.lo < 32) (hb : f.blk < 256)
    (ho : f.off < 0xffc) (hf : f.blk ≠ EVR.EVENTS.LOST.blk) : (s.evRec t f arg).fld t f = 1 := by
  unfold State.evRec
  rw [fld_enqueueRec _ _ _ _ hb (by omega) hf, fld_ev_self s t f hw hl (by omega)]

/-- A recorded event leaves the registers of its block but EVENTS and the counter. -/
theorem fld_evRec_off (s : State) (t : Nat) {f g : Fld} (arg : Nat) (hb : g.blk = f.blk) (hlt : f.blk < 256) (ho : g.off < 0xffc)
    (hne : g.off ≠ f.off) (hf : f.blk ≠ EVR.EVENTS.LOST.blk) : (s.evRec t f arg).fld t g = s.fld t g := by
  unfold State.evRec
  rw [fld_enqueueRec _ _ _ _ (by omega) (by omega) (by rwa [hb]), fld_ev_ne]
  · unfold regKey; rw [hb]; omega
  · unfold regKey; rw [hb]; omega

/-! ### Writes to the ways of a cache (R77 to R79) -/

/-- What a refused write leaves: memory, caches and every register of the block but EVENTS and its counter. -/
theorem wayRefused_frame (s : State) (t v : Nat) :
    (s.wayRefused t v).mem = s.mem ∧ (s.wayRefused t v).cache = s.cache ∧
      ∀ g : Fld, g.blk = TCH.EVENTS.WAY_REFUSED.blk → g.off < 0xffc → g.off ≠ TCH.EVENTS.WAY_REFUSED.off →
        (s.wayRefused t v).fld t g = s.fld t g := by
  obtain ⟨hmem, -, -, -, -, -, hcache, -⟩ := evRec_sameData s t TCH.EVENTS.WAY_REFUSED v
  exact ⟨hmem, hcache, fun g hb ho hne => fld_evRec_off s t v hb (by decide) ho hne (by decide)⟩

/-- A refused write is noted. -/
theorem fld_wayRefused_bit (s : State) (t v : Nat) : (s.wayRefused t v).fld t TCH.EVENTS.WAY_REFUSED = 1 :=
  fld_evRec_self s t v (by decide) (by decide) (by decide) (by decide) (by decide)

theorem classWrite_refused {s : State} {t v : Nat} (h : s.classOk t v = false) : s.classWrite t v = s.wayRefused t v := by
  rw [State.classWrite, if_neg (by rw [h]; decide)]

theorem pwrWrite_refused {s : State} {t v : Nat} (h : s.pwrOk t v = false) : s.pwrWrite t v = s.wayRefused t v := by
  rw [State.pwrWrite, if_neg (by rw [h]; decide)]

theorem classWrite_taken {s : State} {t v : Nat} (h : s.classOk t v = true) :
    s.classWrite t v = (s.setF t TCH.WAYSTAT.CLEANING (s.classCleaning t v)).setF t TCH.WAYCLASS.STREAM v := if_pos h

theorem pwrWrite_taken {s : State} {t v : Nat} (h : s.pwrOk t v = true) :
    s.pwrWrite t v = (s.setF t TCH.WAYSTAT.CLEANING (s.pwrCleaning t v)).setF t TCH.WAYPWR.ON v := if_pos h

/-- The ways that a write adds to those cleaning are ways of the cache, so the mask fits its field. -/
theorem cleaning_or_poweredOf_lt (s : State) (t m : Nat) : s.fld t TCH.WAYSTAT.CLEANING ||| s.poweredOf t m < 2 ^ 16 :=
  Nat.or_lt_two_pow (fld_lt s t TCH.WAYSTAT.CLEANING) (Nat.lt_of_le_of_lt Nat.and_le_right (fld_lt s t TCH.WAYSTAT.POWERED))

/-- The way fields after a write that is taken: `f` is the register written, `m` the ways that are cleaning then. -/
theorem fld_wayTaken (s : State) (t : Nat) {f : Fld} {m v : Nat} (hb : f.blk = TCH.WAYSTAT.CLEANING.blk)
    (ho : f.off ≠ TCH.WAYSTAT.CLEANING.off) (hw : f.lo + f.w ≤ 32) (hv : v < 2 ^ f.w) (hm : m < 2 ^ 16) :
    ((s.setF t TCH.WAYSTAT.CLEANING m).setF t f v).fld t f = v ∧
      ((s.setF t TCH.WAYSTAT.CLEANING m).setF t f v).fld t TCH.WAYSTAT.POWERED = s.fld t TCH.WAYSTAT.POWERED ∧
      ((s.setF t TCH.WAYSTAT.CLEANING m).setF t f v).fld t TCH.WAYSTAT.CLEANING = m := by
  refine ⟨?_, ?_, ?_⟩
  · rw [fld_setF_self _ _ _ _ hw, Nat.mod_eq_of_lt hv]
  · rw [fld_setF_off _ _ f TCH.WAYSTAT.POWERED _ hb.symm ho.symm,
      fld_setF_other s t TCH.WAYSTAT.CLEANING TCH.WAYSTAT.POWERED m (by decide) rfl rfl (by decide)]
  · rw [fld_setF_off _ _ f TCH.WAYSTAT.CLEANING _ hb.symm ho.symm, fld_setF_self _ _ _ _ (by decide)]
    exact Nat.mod_eq_of_lt hm

/-- A class write that is taken stands, and each class keeps a powered way that is not cleaning. -/
theorem classWrite_keepsBothClasses {s : State} {t v : Nat} (hv : v < 2 ^ 16) (h : s.classOk t v = true) :
    (s.classWrite t v).fld t TCH.WAYCLASS.STREAM = v ∧
      waysKept ((s.classWrite t v).fld t TCH.WAYCLASS.STREAM) ((s.classWrite t v).fld t TCH.WAYSTAT.POWERED)
        ((s.classWrite t v).fld t TCH.WAYSTAT.CLEANING) = true := by
  obtain ⟨hcls, hpow, hclean⟩ := fld_wayTaken s t (f := TCH.WAYCLASS.STREAM) rfl (by decide) (by decide) hv
    (cleaning_or_poweredOf_lt s t (s.fld t TCH.WAYCLASS.STREAM ^^^ v))
  rw [classWrite_taken h, State.classCleaning, hcls, hpow, hclean]
  exact ⟨rfl, h⟩

/-- A power write that is taken stands, and each class keeps a powered way that is not cleaning. -/
theorem pwrWrite_keepsBothClasses {s : State} {t v : Nat} (hv : v < 2 ^ 16) (h : s.pwrOk t v = true) :
    (s.pwrWrite t v).fld t TCH.WAYPWR.ON = v ∧
      waysKept ((s.pwrWrite t v).fld t TCH.WAYCLASS.STREAM) ((s.pwrWrite t v).fld t TCH.WAYSTAT.POWERED)
        ((s.pwrWrite t v).fld t TCH.WAYSTAT.CLEANING) = true := by
  obtain ⟨hon, hpow, hclean⟩ := fld_wayTaken s t (f := TCH.WAYPWR.ON) rfl (by decide) (by decide) hv
    (cleaning_or_poweredOf_lt s t (s.fld t TCH.WAYPWR.ON &&& (v ^^^ 65535)))
  rw [pwrWrite_taken h, State.pwrCleaning, hon, hpow, hclean, fld_setF_off _ t TCH.WAYPWR.ON TCH.WAYCLASS.STREAM _ rfl (by decide),
    fld_setF_off s t TCH.WAYSTAT.CLEANING TCH.WAYCLASS.STREAM _ rfl (by decide)]
  exact ⟨rfl, h⟩

theorem exec_tchWayclassWrite {s : State} {t : Nat} (v : Nat) (h : t < s.tiles) (k : t ≠ 15) :
    exec (.tchWayclassWrite t v) s = .next (s.classWrite t (v % 65536)) :=
  onTiles_present (f := fun u a => a.classWrite u (v % 65536)) h k

theorem exec_tchWaypwrWrite {s : State} {t : Nat} (v : Nat) (h : t < s.tiles) (k : t ≠ 15) :
    exec (.tchWaypwrWrite t v) s = .next (s.pwrWrite t (v % 65536)) :=
  onTiles_present (f := fun u a => a.pwrWrite u (v % 65536)) h k

theorem cacheConfig_classRefused {s : State} {t en na cls pwr : Nat} (h : s.classOk t cls = false) :
    s.cacheConfig t en na cls pwr = none := by
  rw [State.cacheConfig, if_pos (by rw [h]; decide)]

/-- CACHE_CONFIG of one tile whose way classes R78 refuses answers BAD_ARG. -/
theorem cmdCacheConfig_classRefused (c : Caller) {s : State} {tile en na cls pwr : Nat}
    (hfit : FieldsFit [(1, tile), (1, en), (1, na), (2, cls), (2, pwr)]) (ht : tile ≠ 15) (h : s.classOk tile cls = false) :
    (cmdCacheConfig.run c (build339 [(1, tile), (1, en), (1, na), (2, cls), (2, pwr)]) s).status = .badArg := by
  have hfields : fieldsOf cacheCfgSizes (build339 [(1, tile), (1, en), (1, na), (2, cls), (2, pwr)]) = [tile, en, na, cls, pwr] :=
    fieldsOf_build339 hfit
  simp [cmdCacheConfig, actCmd, fieldAt, hfields, State.tilesOf, ht, cacheConfig_classRefused h, CmdOut.done]

/-- Settles O15: a refused write is `wayRefused`, whose frame is everything but its event; one that is taken leaves the masks that the check
was made on. -/
theorem wayWritesKeepBothClasses : Obligations.WayWritesKeepBothClasses := by
  refine ⟨fun tile v s ht hk hr => ?_, fun tile v s ht hk hr => ?_, fun c tile en na cls pwr s _ ht hen hna hcls hpwr hr => ?_,
    fun tile v s ht hk ho => ?_, fun tile v s ht hk ho => ?_⟩
  · obtain ⟨hmem, hcache, hfld⟩ := wayRefused_frame s tile (v % 65536)
    exact ⟨_, (exec_tchWayclassWrite v ht hk).trans (congrArg _ (classWrite_refused hr)), hmem, hcache, hfld _ rfl (by decide) (by decide),
      hfld _ rfl (by decide) (by decide), fld_wayRefused_bit ..⟩
  · obtain ⟨hmem, hcache, hfld⟩ := wayRefused_frame s tile (v % 65536)
    exact ⟨_, (exec_tchWaypwrWrite v ht hk).trans (congrArg _ (pwrWrite_refused hr)), hmem, hcache, hfld _ rfl (by decide) (by decide),
      hfld _ rfl (by decide) (by decide), fld_wayRefused_bit ..⟩
  · have hfit : FieldsFit [(1, tile), (1, en), (1, na), (2, cls), (2, pwr)] := by
      simp only [FieldsFit, List.forall_mem_cons]
      refine ⟨?_, ?_, ?_, ?_, ?_, nofun⟩ <;> omega
    exact cmdCacheConfig_classRefused c hfit (by omega) hr
  · exact ⟨_, exec_tchWayclassWrite v ht hk, classWrite_keepsBothClasses (Nat.mod_lt _ (by decide)) ho⟩
  · exact ⟨_, exec_tchWaypwrWrite v ht hk, pwrWrite_keepsBothClasses (Nat.mod_lt _ (by decide)) ho⟩

end Sys2Proof.Machine

/-! SUPPORT. The address map of the main tier: channels and granules (R88), the decode and the bank-group hash (R89, R90). -/

namespace Sys2Proof.Machine

/-! ### The channel split (R88) -/

/-- The split as R88 writes it, in shifts: the sum of the channel-local address joins bits that do not overlap. -/
theorem channelOf_eq_shift (g a : Nat) :
    channelOf g a = ((a >>> g) % 3, (((a >>> g) / 3) <<< g) ||| (a % 2 ^ g)) := by
  rw [← Nat.shiftLeft_add_eq_or_of_lt (Nat.mod_lt a (Nat.two_pow_pos g)), Nat.shiftLeft_eq, Nat.shiftRight_eq_div_pow]
  rfl

/-- The channel-local address taken apart again at the granule. -/
theorem channelOf_local_parts (g a : Nat) :
    (channelOf g a).2 / 2 ^ g = a / 2 ^ g / 3 ∧ (channelOf g a).2 % 2 ^ g = a % 2 ^ g := by
  have hr : a % 2 ^ g < 2 ^ g := Nat.mod_lt a (Nat.two_pow_pos g)
  refine Nat.div_mod_unique (Nat.two_pow_pos g) |>.mpr ⟨?_, hr⟩
  rw [Nat.add_comm, Nat.mul_comm]
  rfl

/-- The inverse finds the address: the granule's number from its quotient and remainder by 3, the rest of it unchanged. -/
theorem channelBack_channelOf (g a : Nat) : channelBack g (channelOf g a).1 (channelOf g a).2 = a := by
  obtain ⟨hdiv, hmod⟩ := channelOf_local_parts g a
  calc channelBack g (channelOf g a).1 (channelOf g a).2
      = (3 * (a / 2 ^ g / 3) + a / 2 ^ g % 3) * 2 ^ g + a % 2 ^ g := by rw [channelBack, hdiv, hmod]; rfl
    _ = a / 2 ^ g * 2 ^ g + a % 2 ^ g := by rw [Nat.div_add_mod]
    _ = a := Nat.div_add_mod' a (2 ^ g)

theorem locate_channel (s : State) (t a : Nat) : (s.locate t a).1 = (channelOf (s.chGran t) a).1 := rfl

theorem chGran_of_zero {s : State} {t : Nat} (h : s.fld t DMC.AMAP.CH_GRAN = 0) : s.chGran t = 8 := by
  simp [State.chGran, State.flag, h]

theorem chGran_of_one {s : State} {t : Nat} (h : s.fld t DMC.AMAP.CH_GRAN = 1) : s.chGran t = 12 := by
  simp [State.chGran, State.flag, h]

/-- The reset state lists no register, so each reads as its Reset column. -/
theorem word_reset (t blk off : Nat) : State.reset.word t blk off = regResetWord blk off := rfl

theorem fld_reset_chGran (t : Nat) : State.reset.fld t DMC.AMAP.CH_GRAN = 0 := by
  rw [State.fld, word_reset]
  decide

/-- Settles O16: the shift form and the inverse of the split, and the granule by the value of CH_GRAN. -/
theorem channelSplit : Obligations.ChannelSplit := by
  refine ⟨fun s t a g hg => ⟨channelOf_eq_shift g a, ?_⟩, fun s t h => ?_, fun s t h => ?_, fun t => ?_, channelBack_channelOf⟩
  · rw [locate_channel, ← hg, channelOf_eq_shift]
  · rw [chGran_of_zero h]; rfl
  · rw [chGran_of_one h]; rfl
  · rw [chGran_of_zero (fld_reset_chGran t)]; rfl

/-! ### Hard repair (R112) -/

theorem startHppr_refused {s : State} (t c w result : Nat) (h : s.dstate ≠ .selftest) :
    s.startHppr t c w result = s.ev t (Fld.inst DMC.EVENTS.PPR_REFUSED c) := if_pos (bne_iff_ne.mpr h)

/-- Settles O18: outside SELFTEST the meaning of the row is the event alone. -/
theorem hardRepairOnlyInSelftest : Obligations.HardRepairOnlyInSelftest := by
  intro tile ch w result s ht hch hstate
  exact ⟨_, (onChannel_present ht hch).trans (congrArg _ (startHppr_refused tile ch w _ hstate)), ev_sameData ..,
    fld_ev_self s tile _ rfl (show 7 < 32 by decide) (show 0x38 ≠ 0xffc by decide)⟩

/-! ### The decode of a channel-local address (R89, R90) -/

/-- Settles O17, for each of the four orders: dividing off one field after another (`Nat.div_div_eq_div_mul`) is dividing once by the power of two
at which Table 4.3 begins the field (`pow_add`, where the width below it is a variable). -/
theorem bankGroupHash : Obligations.BankGroupHash := by
  intro rowBits rankBits l
  refine ⟨fun row hrow => ⟨?order0, ?order1⟩, fun row hrow => ⟨?order2, ?order3⟩⟩ <;>
    simp [placeOf, hrow, Nat.div_div_eq_div_mul, pow_add]

end Sys2Proof.Machine

/-! SUPPORT. Main-tier integrity: which bytes a freed frame clears (R124, R134), what the lookup of a born bit reads (R122), and what clearing the
error logs leaves (R130). -/

namespace Sys2Proof.Machine

/-! ### A wiped range, by key -/

/-- The key k is that of one of the n bytes from address a of a space. Ranges of whole frames and pages are compared so for any tile and
address, also those beyond their sizes, where `memKey` is not injective. -/
def KeyIn (sp : Space) (t a n k : Nat) : Prop := memKey sp t a ≤ k ∧ k < memKey sp t (a + n)

/-- Inside one space of a tile, a key lies in a range exactly when its address does. -/
theorem keyIn_memKey {sp : Space} {t a n b : Nat} : KeyIn sp t a n (memKey sp t b) ↔ a ≤ b ∧ b < a + n := by
  unfold KeyIn memKey
  omega

theorem byte_wipe_of_keyIn (s : State) {sp sq : Space} {t a n u b : Nat} (h : KeyIn sp t a n (memKey sq u b)) :
    (s.wipe sp t a n).byte sq u b = erasedByte (memKey sq u b) :=
  amapGet_filter_out _ _ _ _ (fun _ => by simp [h.1, h.2])

theorem byte_wipe_of_not_keyIn (s : State) {sp sq : Space} {t a n u b : Nat} (h : ¬KeyIn sp t a n (memKey sq u b)) :
    (s.wipe sp t a n).byte sq u b = s.byte sq u b :=
  amapGet_filter_in _ _ _ _ (fun _ => by simpa [KeyIn, imp_iff_not_or] using h)

/-- A wipe erases bytes and does nothing else to them. -/
theorem byte_wipe_of_erased {s : State} (sp : Space) (t a n : Nat) {sq : Space} {u b : Nat} (h : s.byte sq u b = erasedByte (memKey sq u b)) :
    (s.wipe sp t a n).byte sq u b = erasedByte (memKey sq u b) := by
  by_cases hk : KeyIn sp t a n (memKey sq u b)
  · exact byte_wipe_of_keyIn s hk
  · exact (byte_wipe_of_not_keyIn s hk).trans h

/-- An erased byte of the main tier is zero: the store alone, space 3, erases to ones. -/
theorem erasedByte_main {t a : Nat} (ht : t < 256) (ha : a < 2 ^ 60) : erasedByte (memKey .main t a) = 0 := by
  have hkey : memKey .main t a / 2 ^ 68 ≠ 3 := by
    simp only [memKey, Space.code]
    omega
  exact if_neg hkey

/-! ### The DRAM address that serves a page (R134) -/

/-- A page is served in one piece, wherever it lies. -/
theorem physAt_page (s : State) (t a : Nat) : s.physAt t a = s.physAt t (a / 4096 * 4096) + a % 4096 := by
  have hpage : a / 4096 * 4096 / 4096 = a / 4096 := Nat.mul_div_cancel _ (by decide)
  unfold State.physAt
  rw [hpage]
  split
  · omega
  · exact (Nat.div_add_mod' a 4096).symm

/-- An address is served where it says, unless its page is retired. -/
theorem physAt_self_or_retired (s : State) (t a : Nat) : s.physAt t a = a ∨ ∃ p ∈ s.dec.pages, p.tile = t ∧ p.page = a / 4096 := by
  cases h : s.dec.pages.find? (fun p => p.tile == t && p.page == a / 4096) with
  | none => exact .inl (by rw [State.physAt, h])
  | some p => exact .inr ⟨p, List.mem_of_find?_eq_some h, by simpa using List.find?_some h⟩

/-! ### A frame is freed (R124) -/

/-- The key k is that of a byte which DRAM holds for a page of a tile. -/
abbrev State.KeyOfPage (s : State) (t page k : Nat) : Prop := KeyIn .main t (s.physAt t (page * 4096)) 4096 k

theorem byte_wipePages_of_not_keyOfPage {t : Nat} {sp : Space} {u a : Nat} (ps : List DecPage) (s : State)
    (h : ∀ p ∈ ps, ¬s.KeyOfPage t p.page (memKey sp u a)) : (ps.foldl (fun x p => x.wipePage t p.page) s).byte sp u a = s.byte sp u a := by
  induction ps generalizing s with
  | nil => rfl
  | cons p ps ih =>
    obtain ⟨hp, hps⟩ := List.forall_mem_cons.mp h
    -- a wipe moves no page, so what `h` says of `s` it says of the state after it
    exact (ih (s.wipePage t p.page) hps).trans (byte_wipe_of_not_keyIn s hp)

theorem byte_wipePages_of_erased {t : Nat} {sp : Space} {u a : Nat} (ps : List DecPage) {s : State}
    (h : s.byte sp u a = erasedByte (memKey sp u a)) :
    (ps.foldl (fun x p => x.wipePage t p.page) s).byte sp u a = erasedByte (memKey sp u a) := by
  induction ps generalizing s with
  | nil => exact h
  | cons p ps ih => exact ih (byte_wipe_of_erased _ _ _ _ h)

theorem byte_wipePages_of_keyOfPage {t : Nat} {sp : Space} {u a : Nat} {p : DecPage} (ps : List DecPage) (s : State) (hp : p ∈ ps)
    (h : s.KeyOfPage t p.page (memKey sp u a)) :
    (ps.foldl (fun x p => x.wipePage t p.page) s).byte sp u a = erasedByte (memKey sp u a) := by
  induction ps generalizing s with
  | nil => cases hp
  | cons q ps ih =>
    rcases List.mem_cons.mp hp with rfl | hp
    · exact byte_wipePages_of_erased ps (byte_wipe_of_keyIn s h)
    · exact ih (s.wipePage t q.page) hp h

/-- The retired pages of a frame, as `clearFrame` finds them. -/
def State.retiredOf (s : State) (t frame : Nat) : List DecPage := s.dec.pages.filter (fun p => p.tile == t && p.page / 512 == frame)

theorem mem_retiredOf {s : State} {t frame : Nat} {p : DecPage} :
    p ∈ s.retiredOf t frame ↔ p ∈ s.dec.pages ∧ p.tile = t ∧ p.page / 512 = frame := by
  simp [State.retiredOf]

/-- Of memory, freeing a frame wipes the frame and the spare pages of its retired pages; it moves no page. -/
theorem clearFrame_wipes (s : State) (t frame : Nat) :
    ∃ x : State, x.mem = s.mem ∧ (∀ a, x.physAt t a = s.physAt t a) ∧
      s.clearFrame t frame = (s.retiredOf t frame).foldl (fun y p => y.wipePage t p.page) (x.wipe .main t (frame * 2 ^ 21) (2 ^ 21)) :=
  ⟨s.updDec _, rfl, fun _ => rfl, rfl⟩

theorem byte_clearFrame_of_kept {s : State} {t frame : Nat} {sp : Space} {u a : Nat}
    (hframe : ¬KeyIn .main t (frame * 2 ^ 21) (2 ^ 21) (memKey sp u a))
    (hpages : ∀ p ∈ s.retiredOf t frame, ¬s.KeyOfPage t p.page (memKey sp u a)) :
    (s.clearFrame t frame).byte sp u a = s.byte sp u a := by
  obtain ⟨x, hmem, hphys, hclear⟩ := clearFrame_wipes s t frame
  calc (s.clearFrame t frame).byte sp u a
      = (x.wipe .main t (frame * 2 ^ 21) (2 ^ 21)).byte sp u a := by
        rw [hclear]
        refine byte_wipePages_of_not_keyOfPage _ _ (fun p hp hk => hpages p hp ?_)
        rwa [State.KeyOfPage, ← hphys]
    _ = x.byte sp u a := byte_wipe_of_not_keyIn x hframe
    _ = s.byte sp u a := byte_congr hmem sp u a

/-- Each address of a freed frame is erased where DRAM holds it: in the frame, or in the spare page that serves it. -/
theorem byte_clearFrame_of_frame (s : State) {t frame a : Nat} (ha : a / 2 ^ 21 = frame) :
    (s.clearFrame t frame).byte .main t (s.physAt t a) = erasedByte (memKey .main t (s.physAt t a)) := by
  obtain ⟨x, -, hphys, hclear⟩ := clearFrame_wipes s t frame
  rw [hclear]
  rcases physAt_self_or_retired s t a with hself | ⟨p, hp, htile, hpage⟩
  · have hin : KeyIn .main t (frame * 2 ^ 21) (2 ^ 21) (memKey .main t (s.physAt t a)) := keyIn_memKey.mpr (by omega)
    exact byte_wipePages_of_erased _ (byte_wipe_of_keyIn x hin)
  · refine byte_wipePages_of_keyOfPage _ _ (mem_retiredOf.mpr ⟨hp, htile, by omega⟩) ?_
    show x.KeyOfPage t p.page _
    rw [State.KeyOfPage, hphys, hpage, keyIn_memKey, physAt_page s t a]
    omega

theorem exec_frameFree {s : State} {t frame : Nat} (ht : t < s.tiles) (hres : s.reservedFrames t ≤ frame) (hused : ¬(s.mainUsed t).contains frame)
    (hin : frame < s.mainBytes / 2 ^ 21) : exec (.frameFree t frame) s = .next (s.clearFrame t frame) := by
  have hfree : ¬(frame < s.reservedFrames t || (s.mainUsed t).contains frame || s.mainBytes / 2 ^ 21 ≤ frame) := by
    simpa [hres] using And.intro hused hin
  exact (onTile_present ht).trans (congrArg _ (if_neg hfree))

/-- Settles O20: the row is `clearFrame`, which erases the frame's addresses where DRAM holds them and keeps every key outside the frame and its
spare pages. -/
theorem freedFrameReadsZero : Obligations.FreedFrameReadsZero := by
  intro tile frame s ht htile hres hused hin _
  refine ⟨_, exec_frameFree ht hres hused hin, fun a ha hphys => ?_, fun sp u a hframe hpages => byte_clearFrame_of_kept ?_ ?_⟩
  · rw [byte_clearFrame_of_frame s (by omega), erasedByte_main (by omega) hphys]
  · rwa [KeyIn, ← Nat.add_one_mul]
  · intro p hp
    obtain ⟨hmem, hptile, hpframe⟩ := mem_retiredOf.mp hp
    exact hpages p hmem hptile hpframe

/-! ### The error logs (R130) -/

theorem mem_clearLogs {s : State} {t mask : Nat} {e : DecLog} :
    e ∈ (s.clearLogs t mask).dec.logs ↔ e ∈ s.dec.logs ∧ ¬(e.tile = t ∧ mask.testBit e.ch = true) := by
  simp [State.clearLogs, State.updDec, imp_iff_not_or]

/-- Settles O19: of the state, `clearLogs` replaces the logs alone, by a filter on tile and channel. -/
theorem decLogsCleared : Obligations.DecLogsCleared := by
  intro tile mask s ht
  exact ⟨_, onTile_present ht, State.updDec_regs .., State.updDec_mem .., fun _ => mem_clearLogs⟩

/-! ### A burst asked of the DRAM leaves what DEC holds -/

@[simp] theorem notePanic_dec (s : State) (t c : Nat) : (s.notePanic t c).dec = s.dec := by
  simp [State.notePanic]

@[simp] theorem noteDrain_dec (s : State) (t c sub : Nat) : (s.noteDrain t c sub).dec = s.dec := by
  simp [State.noteDrain]

@[simp] theorem serveBurst_dec (s : State) (t c : Nat) (q : DramReq) : (s.serveBurst t c q).dec = s.dec := by
  simp only [State.serveBurst, notePanic_dec, apply_ite State.dec, State.bump_dec, State.updDmc_dec, ite_self]

@[simp] theorem pushBurst_dec (s : State) (t c : Nat) (q : DramReq) : (s.pushBurst t c q).dec = s.dec := by
  unfold State.pushBurst
  split
  · simp
  · simp only [notePanic_dec, noteDrain_dec, State.updDmc_dec]
    split
    · rw [apply_ite State.dec, serveBurst_dec, ite_self]
    · rfl

@[simp] theorem askDram_dec (s : State) (t a : Nat) (write : Bool) : (s.askDram t a write).dec = s.dec := by
  refine List.foldlRecOn (motive := fun x : State => x.dec = s.dec) _ _ rfl (fun x hx i _ => ?_)
  simpa only [apply_ite State.dec, pushBurst_dec, ite_self] using hx

/-! ### The lookup of a born bit (R122) -/

@[simp] theorem bornLocal_cacheBorn (s : State) (t frame u page : Nat) : (s.cacheBorn t frame).bornLocal u page = s.bornLocal u page := rfl

@[simp] theorem bornLocal_askDram (s : State) (t a : Nat) (write : Bool) (u page : Nat) :
    (s.askDram t a write).bornLocal u page = s.bornLocal u page := by
  rw [State.bornLocal, askDram_dec, State.bornLocal]

/-- Where copy 0 decodes, it is all that a fetch asks for. -/
theorem fetchBorn_copy0 {s : State} {t frame : Nat} (h : ¬s.dec.bornBad.contains (t, frame, 0)) :
    s.fetchBorn t frame = (s.askDram t (s.bornAt t frame 0) false).cacheBorn t frame :=
  if_pos (by simpa using h)

section
variable {s : State} {t page : Nat}

theorem lookBorn_extent_unborn (hres : s.reservedFrames t ≤ page / 512) (hext : ¬s.dec.ext.contains (t, page / 512)) :
    s.lookBorn t page = (false, s) := by
  rw [State.lookBorn, if_neg hres.not_gt, if_pos (by simpa using hext)]

theorem lookBorn_extent_born (hres : s.reservedFrames t ≤ page / 512) (hext : s.dec.ext.contains (t, page / 512)) :
    s.lookBorn t page =
      if s.dec.bornCache.contains (t, page / 512) then (s.bornLocal t page, s)
      else ((s.fetchBorn t (page / 512)).bornLocal t page, s.fetchBorn t (page / 512)) := by
  rw [State.lookBorn, if_neg hres.not_gt, if_neg (by simpa using hext)]
  split <;> rfl

end

/-- With no copy found undecodable, nothing is noted. -/
theorem badCopies_none (s : State) (t frame : Nat) : s.badCopies t frame false false = s := by
  simp [State.badCopies, State.updDec]

/-- A read whose lookup finds the page unborn ends with the lookup. -/
theorem decRead_unborn {s u : State} {t a : Nat} (err : List (Nat × Nat)) (ha : a < s.mainBytes) (h : s.lookBorn t (a / 4096) = (false, u)) :
    s.decRead t a err false false false = u := by
  simp [State.decRead, ha.not_ge, badCopies_none, h]

theorem exec_decRead {s : State} {t : Nat} (a : Nat) (err : List (Nat × Nat)) (bad0 bad1 parity : Bool) (h : t < s.tiles) :
    exec (.decRead t a err bad0 bad1 parity) s = .next (s.decRead t a err bad0 bad1 parity) := onTile_present h

/-- Settles O37, by the three ends of the lookup that find the page unborn: at its extent born bit, in the burst on chip, in the burst fetched. -/
theorem unbornReadsTouchNoDram : Obligations.UnbornReadsTouchNoDram := by
  intro tile addr f err s ht hf hres hin
  have hframe : addr / 4096 / 512 = f := by omega
  have reads : ∀ u, s.lookBorn tile (addr / 4096) = (false, u) → exec (.decRead tile addr err false false false) s = .next u :=
    fun u hu => (exec_decRead _ _ _ _ _ ht).trans (congrArg _ (decRead_unborn err hin hu))
  subst hframe
  refine ⟨fun hext => reads _ (lookBorn_extent_unborn hres hext), fun hext hunborn => ?_⟩
  have hunborn : s.bornLocal tile (addr / 4096) = false := by simpa using hunborn
  have hlook := lookBorn_extent_born hres hext
  refine ⟨fun hcached => reads _ ?cached, fun huncached hcopy => reads _ ?fetched⟩
  case cached => rw [hlook, if_pos hcached, hunborn]
  case fetched => rw [hlook, if_neg huncached, fetchBorn_copy0 hcopy, bornLocal_cacheBorn, bornLocal_askDram, hunborn]

end Sys2Proof.Machine

/-! SUPPORT. Persistence and Freeze: a field set on every tile, the return of MAINS_OK during Freeze (R192), and the configured ceiling of the tiles
(R183, R200). -/

namespace Sys2Proof.Machine

/-! ### Fields apart from a field written, on every tile -/

/-- Where the register of a field lies among the addresses of its tile. -/
def Fld.place (f : Fld) : Nat := (f.blk * 2 ^ 20 + f.off) % 2 ^ 28

/-- A write of `f` on any tile leaves `g` on every tile: another register, or other bits of the same one. -/
abbrev Fld.Apart (f g : Fld) : Prop :=
  f.place ≠ g.place ∨ g.blk = f.blk ∧ g.off = f.off ∧ f.lo + f.w ≤ 32 ∧ (g.lo + g.w ≤ f.lo ∨ f.lo + f.w ≤ g.lo)

theorem regKey_ne_of_place_ne {f g : Fld} (h : f.place ≠ g.place) (t u : Nat) : regKey u g.blk g.off ≠ regKey t f.blk f.off := by
  unfold Fld.place at h
  unfold regKey
  omega

theorem regKey_ne_of_tile_ne {t u : Nat} (h : u ≠ t) (b o : Nat) : regKey u b o ≠ regKey t b o := by
  unfold regKey
  omega

theorem fld_setF_of_tile_ne (s : State) {t u : Nat} (h : u ≠ t) (f : Fld) (v : Nat) : (s.setF t f v).fld u f = s.fld u f :=
  fld_setF_ne _ _ _ _ _ _ (regKey_ne_of_tile_ne h _ _)

theorem fld_setF_of_apart {f g : Fld} (h : f.Apart g) (s : State) (t u v : Nat) : (s.setF t f v).fld u g = s.fld u g := by
  rcases h with hplace | ⟨hb, ho, hw, hbits⟩
  · exact fld_setF_ne _ _ _ _ _ _ (regKey_ne_of_place_ne hplace t u)
  · rcases eq_or_ne u t with rfl | htile
    · exact fld_setF_other _ _ _ _ _ hw hb ho hbits
    · exact fld_setF_ne _ _ _ _ _ _ (by rw [hb, ho]; exact regKey_ne_of_tile_ne htile _ _)

theorem fld_bump_of_apart {f g : Fld} (h : f.Apart g) (s : State) (t u n : Nat) : (s.bump t f n).fld u g = s.fld u g :=
  fld_setF_of_apart h s t u _

theorem fld_ev_of_apart {f g : Fld} (h : f.Apart g) (hcnt : (evtCnt f.blk).Apart g) (s : State) (t u : Nat) :
    (s.ev t f).fld u g = s.fld u g :=
  (fld_bump_of_apart hcnt _ t u 1).trans (fld_setF_of_apart h s t u 1)

/-! ### A step done on every tile -/

/-- What each step of a fold keeps, the fold keeps. -/
theorem foldl_kept {α β : Type} (π : State → β) {f : State → α → State} (h : ∀ a x, π (f a x) = π a) (l : List α) (s : State) :
    π (l.foldl f s) = π s :=
  List.foldlRecOn (motive := fun a => π a = π s) _ _ rfl (fun a ha x _ => (h a x).trans ha)

theorem allTiles_kept {β : Type} (π : State → β) {f : Nat → State → State} (h : ∀ t a, π (f t a) = π a) (s : State) :
    π (s.allTiles f) = π s :=
  foldl_kept π (fun a t => h t a) _ s

/-- A field that each tile's step sets on its own tile, and leaves on the others, reads so on every tile of the package. -/
theorem fld_allTiles {f : Nat → State → State} {g : Fld} {x : Nat} (hself : ∀ t a, (f t a).fld t g = x)
    (hother : ∀ t u a, u ≠ t → (f t a).fld u g = a.fld u g) {s : State} {t : Nat} (ht : t < s.tiles) : (s.allTiles f).fld t g = x := by
  unfold State.allTiles
  generalize s.tiles = n at ht
  induction n with
  | zero => exact absurd ht (Nat.not_lt_zero t)
  | succ n ih =>
    rw [List.range_succ, List.foldl_append, List.foldl_cons, List.foldl_nil]
    rcases eq_or_ne t n with rfl | hne
    · exact hself t _
    · rw [hother n t _ hne, ih (by omega)]

/-! ### The return of MAINS_OK during Freeze (R192) -/

theorem fld_setAll_of_apart {f g : Fld} (h : f.Apart g) (s : State) (u v : Nat) : (s.setAll f v).fld u g = s.fld u g :=
  allTiles_kept (fun a => a.fld u g) (fun t a => fld_setF_of_apart h a t u v) s

theorem fld_setAll_self {s : State} {f : Fld} {t : Nat} (v : Nat) (ht : t < s.tiles) (hw : f.lo + f.w ≤ 32) :
    (s.setAll f v).fld t f = v % 2 ^ f.w :=
  fld_allTiles (fun t a => fld_setF_self a t f v hw) (fun _ _ a hne => fld_setF_of_tile_ne a hne f v) ht

/-- A field set on every tile changes nothing but registers. -/
theorem setAll_kept {β : Type} (π : State → β) (h : ∀ a t b o w, π (a.setWord t b o w) = π a) (s : State) (f : Fld) (v : Nat) :
    π (s.setAll f v) = π s :=
  allTiles_kept π (fun t a => h a t _ _ _) s

/-- Settles O34: the row writes one field of AON on every tile, which neither the device's state nor that of a freeze engine is kept in. -/
theorem freezeOutlastsMainsReturn : Obligations.FreezeOutlastsMainsReturn := by
  intro s hfreeze
  refine ⟨s.mainsUp, rfl, ?state, fun tile => ?frz, ?pow, ?run, ?mem, ?firn, fun tile ht => ?mains⟩
  case state =>
    rw [← hfreeze]
    exact congrArg DState.ofCode (fld_setAll_of_apart (by decide) _ 0 1)
  case frz => exact congrArg FState.ofCode (fld_setAll_of_apart (by decide) _ tile 1)
  case pow => exact congrArg Power.mains (setAll_kept State.pow State.setWord_pow _ _ _)
  case run => exact (setAll_kept State.frzRun State.setWord_frzRun _ _ _).trans (if_pos (beq_iff_eq.mpr hfreeze))
  case mem => exact setAll_kept State.mem State.setWord_mem _ _ _
  case firn => exact setAll_kept State.firn State.setWord_firn _ _ _
  case mains => exact fld_setAll_self 1 ht (by decide)

/-! ### What leaves the configured ceiling (R183)

The recomputation of R185 that ends CEILING_SET may note events, notify, and enter or leave RESTRICTED, which ends the twin role. One lemma for
each operation on that way says that the configured ceilings stand through it. -/

/-- The configured ceiling of each tile, in units of 64 MiB. -/
def State.ceilConfigured (s : State) (u : Nat) : Nat := s.fld u FRN.CEIL.CONFIGURED

theorem fld_congr {a b : State} (h : b.regs = a.regs) (u : Nat) (g : Fld) : b.fld u g = a.fld u g := by
  rw [State.fld, State.word, h, State.fld, State.word]

theorem ceilConfigured_congr {a b : State} (h : b.regs = a.regs) : b.ceilConfigured = a.ceilConfigured := funext fun u => fld_congr h u _

theorem ceilConfigured_setF {f : Fld} (h : f.Apart FRN.CEIL.CONFIGURED) (s : State) (t v : Nat) : (s.setF t f v).ceilConfigured = s.ceilConfigured :=
  funext fun u => fld_setF_of_apart h s t u v

theorem ceilConfigured_bump {f : Fld} (h : f.Apart FRN.CEIL.CONFIGURED) (s : State) (t n : Nat) : (s.bump t f n).ceilConfigured = s.ceilConfigured :=
  ceilConfigured_setF h s t _

theorem ceilConfigured_drop {f : Fld} (h : f.Apart FRN.CEIL.CONFIGURED) (s : State) (t n : Nat) : (s.drop t f n).ceilConfigured = s.ceilConfigured :=
  ceilConfigured_setF h s t _

theorem ceilConfigured_ev {f : Fld} (h : f.Apart FRN.CEIL.CONFIGURED) (hcnt : (evtCnt f.blk).Apart FRN.CEIL.CONFIGURED) (s : State) (t : Nat) :
    (s.ev t f).ceilConfigured = s.ceilConfigured :=
  funext fun u => fld_ev_of_apart h hcnt s t u

/-! Packets, records and notifications. -/

theorem ceilConfigured_updNet (s : State) (f : Net → Net) : (s.updNet f).ceilConfigured = s.ceilConfigured :=
  ceilConfigured_congr (State.updNet_regs s f)

theorem ceilConfigured_xmit (s : State) (t port prio : Nat) (o : Out) : (s.xmit t port prio o).ceilConfigured = s.ceilConfigured := by
  have hframes : (ETH.TX_FRAMES.COUNT.inst port).Apart FRN.CEIL.CONFIGURED := by
    left
    simp only [Fld.place, Fld.inst, ETH.TX_FRAMES.COUNT, FRN.CEIL.CONFIGURED]
    omega
  unfold State.xmit
  split
  · exact ceilConfigured_updNet s _
  · exact (ceilConfigured_congr (State.send_regs _ o)).trans (ceilConfigured_bump hframes s t 1)

theorem ceilConfigured_request (s : State) (n : Nat) (ps : List SentPkt) : (s.request n ps).ceilConfigured = s.ceilConfigured := by
  unfold State.request
  split
  · rfl
  · next q _ => exact (foldl_kept State.ceilConfigured (fun a p => ceilConfigured_xmit a _ _ _ _) ps _).trans (ceilConfigured_updNet s _)

theorem ceilConfigured_sendGo (s : State) (n k : Nat) : (s.sendGo n k).ceilConfigured = s.ceilConfigured := by
  induction k generalizing s with
  | zero => rfl
  | succ k ih =>
    unfold State.sendGo
    split
    · rfl
    · split
      · split
        · exact (ih _).trans ((ceilConfigured_request _ n _).trans (ceilConfigured_updNet s _))
        · rfl
      · rfl

theorem ceilConfigured_pointMsg (s : State) (p : Nat) (bs : List Byte) : (s.pointMsg p bs).ceilConfigured = s.ceilConfigured := by
  unfold State.pointMsg
  split
  · exact ceilConfigured_sendGo _ _ _
  · rfl

theorem ceilConfigured_ntfDrop (s : State) : s.ntfDrop.ceilConfigured = s.ceilConfigured :=
  (ceilConfigured_bump (by decide) _ 0 1).trans (ceilConfigured_ev (by decide) (by decide) s 0)

theorem ceilConfigured_deliver (s : State) (x : Session) (opcode : Nat) (pl : List Byte) :
    (s.deliver x opcode pl).ceilConfigured = s.ceilConfigured := by
  unfold State.deliver
  dsimp only
  split
  · split
    · rfl
    · exact ceilConfigured_ntfDrop _
  · split
    · exact ceilConfigured_pointMsg _ _ _
    · exact ceilConfigured_ntfDrop _

theorem ceilConfigured_notify (s : State) (opcode : Nat) (pl : List Byte) : (s.notify opcode pl).ceilConfigured = s.ceilConfigured := by
  unfold State.notify
  split
  · exact foldl_kept State.ceilConfigured (fun a x => ceilConfigured_deliver a x opcode pl) _ s
  · rfl

theorem ceilConfigured_loseEvent (s : State) (t : Nat) : (s.loseEvent t).ceilConfigured = s.ceilConfigured :=
  (ceilConfigured_bump (by decide) _ t 1).trans (ceilConfigured_ev (by decide) (by decide) _ t)

theorem ceilConfigured_named (s : State) (t src code sev arg : Nat) : (s.named t src code sev arg).ceilConfigured = s.ceilConfigured := by
  unfold State.named State.enqueueRec
  split
  · rfl
  · exact ceilConfigured_loseEvent _ t

/-! Tokens, sessions and the twin role. -/

theorem ceilConfigured_noteUrgent (s : State) (t : Nat) : (s.noteUrgent t).ceilConfigured = s.ceilConfigured := by
  unfold State.noteUrgent
  split
  · split
    · rfl
    · exact ceilConfigured_ev (by decide) (by decide) _ t
  · rfl

theorem ceilConfigured_returnToken (s : State) (t p : Nat) : (s.returnToken t p).ceilConfigured = s.ceilConfigured := by
  unfold State.returnToken
  split
  · rfl
  · exact (ceilConfigured_noteUrgent _ t).trans ((ceilConfigured_bump (by decide) _ t 1).trans (ceilConfigured_drop (by decide) _ t 1))

theorem ceilConfigured_settleTokens (s : State) (t : Nat) (ps : List Nat) : (s.settleTokens t ps).ceilConfigured = s.ceilConfigured := by
  refine foldl_kept State.ceilConfigured (fun a p => ?_) ps s
  dsimp only
  split
  · split
    · exact ceilConfigured_returnToken _ t p
    · rfl
  · rfl

theorem ceilConfigured_with_boot (s : State) (v : Startup) : ({ s with boot := v } : State).ceilConfigured = s.ceilConfigured :=
  ceilConfigured_congr rfl

theorem ceilConfigured_setSlot (s : State) (n : Nat) (k : KeySlot) : (s.setSlot n k).ceilConfigured = s.ceilConfigured := ceilConfigured_congr rfl

theorem ceilConfigured_endSession (s : State) (p : Nat) : (s.endSession p).ceilConfigured = s.ceilConfigured := by
  have hclosed : ∀ (m : Mailboxes) (v n : Nat) (k : KeySlot),
      ((({ s with mb := m } : State).setF 0 MGT.MBOX.SESSION v).setSlot n k).ceilConfigured = s.ceilConfigured := fun m v n k =>
    (ceilConfigured_setSlot _ n k).trans ((ceilConfigured_setF (by decide) _ 0 v).trans (ceilConfigured_congr (State.with_mb_regs s m)))
  unfold State.endSession
  split
  · rfl
  · dsimp only
    split
    · split
      · exact (ceilConfigured_with_boot _ _).trans (hclosed _ _ _ _)
      · exact hclosed _ _ _ _
    · exact hclosed _ _ _ _

theorem ceilConfigured_dropData (s : State) : s.dropData.ceilConfigured = s.ceilConfigured := by
  have hsession : ∀ (a : State) (q : Qp),
      ((a.setF 0 MGT.MBOX.CONNECTED (setBit (a.fld 0 MGT.MBOX.CONNECTED) q.mb false)).endSession q.mb).ceilConfigured = a.ceilConfigured :=
    fun a q => (ceilConfigured_endSession _ q.mb).trans (ceilConfigured_setF (by decide) a 0 _)
  have hcount : ∀ (a : State) (q : Qp), (a.drop (qpTile q.qpn) RMA.QP_COUNT.CONNECTED 1).ceilConfigured = a.ceilConfigured :=
    fun a q => ceilConfigured_drop (by decide) a _ 1
  have htokens : ∀ (a : State) (p : Portion), (a.settleTokens p.tile (pagesOf p.addr p.len)).ceilConfigured = a.ceilConfigured :=
    fun a p => ceilConfigured_settleTokens a p.tile _
  unfold State.dropData
  dsimp only
  rw [ceilConfigured_updNet, foldl_kept State.ceilConfigured htokens, foldl_kept State.ceilConfigured hcount, foldl_kept State.ceilConfigured hsession]

theorem ceilConfigured_driveActo (s : State) (on : Bool) : (s.driveActo on).ceilConfigured = s.ceilConfigured := by
  have hset : (s.setFs 0 [(TWA.STATUS.ACTO, b2n on), (TWA.STATUS.ACTO_PAD, b2n on)]).ceilConfigured = s.ceilConfigured := by
    simp (disch := decide) only [State.setFs, List.foldl_cons, List.foldl_nil, ceilConfigured_setF]
  unfold State.driveActo
  dsimp only
  split
  · exact (ceilConfigured_congr (State.with_twin_regs _ _)).trans hset
  · exact hset

theorem ceilConfigured_depart (s : State) (quiet : Bool) : (s.depart quiet).ceilConfigured = s.ceilConfigured :=
  ceilConfigured_congr (State.with_twin_regs s _)

theorem ceilConfigured_with_twin_nv (s : State) (v : Twin) (w : Nv) : ({ s with twin := v, nv := w } : State).ceilConfigured = s.ceilConfigured :=
  ceilConfigured_congr rfl

theorem ceilConfigured_setRole (s : State) (r : TRole) (why : Nat) : (s.setRole r why).ceilConfigured = s.ceilConfigured := by
  have hstop : (if r == TRole.none || r == TRole.syncing then s.stopSending else s).ceilConfigured = s.ceilConfigured := by
    split <;> rfl
  have hrole : ∀ a b : Nat, (((if r == TRole.none || r == TRole.syncing then s.stopSending else s).setFs 0
      [(TWA.STATUS.ROLE, a), (TWA.STATUS.IN_STEP, b)]).ev 0 TWA.EVENTS.ROLE_CHANGE).ceilConfigured = s.ceilConfigured := by
    simp (disch := decide) only [ceilConfigured_ev, State.setFs, List.foldl_cons, List.foldl_nil, ceilConfigured_setF, hstop, implies_true]
  unfold State.setRole
  dsimp only
  split
  · rfl
  · rw [ceilConfigured_notify, ceilConfigured_named]
    exact (ceilConfigured_with_twin_nv _ _ _).trans (hrole r.code _)

theorem ceilConfigured_leaveTwin (s : State) (quiet : Bool) : (s.leaveTwin quiet).ceilConfigured = s.ceilConfigured :=
  (ceilConfigured_dropData _).trans ((ceilConfigured_setRole _ .none 6).trans
    ((ceilConfigured_depart _ quiet).trans (ceilConfigured_driveActo s false)))

/-! The device's state. -/

theorem ceilConfigured_toState (s : State) (d : DState) : (s.toState d).ceilConfigured = s.ceilConfigured := by
  unfold State.toState
  dsimp only
  split
  · rfl
  · exact (ceilConfigured_notify _ _ _).trans ((ceilConfigured_named _ _ _ _ _ _).trans ((ceilConfigured_ev (by decide) (by decide) _ 0).trans
      (ceilConfigured_setF (by decide) s 0 _)))

theorem ceilConfigured_enterRestricted (s : State) : s.enterRestricted.ceilConfigured = s.ceilConfigured :=
  (ceilConfigured_congr (State.updTwin_regs _ _)).trans <| (ceilConfigured_toState _ .restricted).trans (ceilConfigured_leaveTwin s false)

theorem ceilConfigured_fwCommit (s : State) : s.fwCommit.ceilConfigured = s.ceilConfigured :=
  (ceilConfigured_notify _ _ _).trans ((ceilConfigured_setF (by decide) _ 0 _).trans (ceilConfigured_setF (by decide) _ 0 _))

theorem ceilConfigured_enterService (s : State) : s.enterService.ceilConfigured = s.ceilConfigured := by
  unfold State.enterService
  dsimp only
  split
  · exact (ceilConfigured_fwCommit _).trans (ceilConfigured_toState s .service)
  · exact ceilConfigured_toState s .service

theorem ceilConfigured_raiseActo (s : State) : s.raiseActo.ceilConfigured = s.ceilConfigured := by
  unfold State.raiseActo
  split
  · exact ceilConfigured_driveActo s true
  · rfl

theorem ceilConfigured_setRestricted (s : State) (c : Nat) (b : Bool) : (s.setRestricted c b).ceilConfigured = s.ceilConfigured := by
  have hcause : (s.setCause c b).ceilConfigured = s.ceilConfigured := ceilConfigured_setF (by decide) s 0 _
  unfold State.setRestricted
  dsimp only
  split
  · exact (ceilConfigured_enterRestricted _).trans hcause
  · split
    · exact (ceilConfigured_raiseActo _).trans ((ceilConfigured_enterService _).trans hcause)
    · exact hcause

/-- The recomputation writes the ceilings derived from the energy and in effect, which share the register of the configured one. -/
theorem ceilConfigured_recomputeTile (s : State) (t : Nat) : (s.recomputeTile t).ceilConfigured = s.ceilConfigured := by
  have hset : ∀ a b c, (s.setFs t [(FRZ.TAVAIL.MS, a), (FRN.CEIL.ENERGY, b), (FRN.CEIL.EFFECTIVE, c)]).ceilConfigured = s.ceilConfigured := by
    simp (disch := decide) only [State.setFs, List.foldl_cons, List.foldl_nil, ceilConfigured_setF, implies_true]
  unfold State.recomputeTile
  refine (ceilConfigured_noteUrgent _ t).trans ?_
  split
  · exact (ceilConfigured_ev (by decide) (by decide) _ t).trans (hset _ _ _)
  · exact hset _ _ _

theorem ceilConfigured_recomputeCeiling (s : State) (why : Nat) : (s.recomputeCeiling why).ceilConfigured = s.ceilConfigured := by
  have htiles : (s.allTiles (fun t a => a.recomputeTile t)).ceilConfigured = s.ceilConfigured :=
    allTiles_kept State.ceilConfigured (fun t a => ceilConfigured_recomputeTile a t) s
  unfold State.recomputeCeiling
  refine (ceilConfigured_setRestricted _ 1 _).trans ?_
  split
  · exact htiles
  · exact (ceilConfigured_notify _ _ _).trans ((ceilConfigured_named _ _ _ _ _ _).trans htiles)

/-! ### CEILING_SET -/

/-- Configuring a field writes its register; what it stores is no register. -/
theorem fld_config (s : State) (t u : Nat) (f : Fld) (v : Nat) (g : Fld) : (s.config t f v).fld u g = (s.setF t f v).fld u g :=
  fld_congr (State.setCfg_regs _ _ v) u g

/-- A value configured on every tile reads so on each. -/
theorem fld_configAll {s : State} {f : Fld} {t : Nat} (v : Nat) (ht : t < s.tiles) (hw : f.lo + f.w ≤ 32) :
    (s.configAll f v).fld t f = v % 2 ^ f.w :=
  fld_allTiles (fun t a => (fld_config a t t f v f).trans (fld_setF_self a t f v hw))
    (fun t u a hne => (fld_config a t u f v f).trans (fld_setF_of_tile_ne a hne f v)) ht

theorem fieldsFit_ceiling {m : Nat} (h : m < 2 ^ 32) : FieldsFit [(4, m)] := by
  simpa [FieldsFit] using h

theorem cmdCeilingSet_check (s : State) {m : Nat} (h : m < 2 ^ 32) :
    cmdCeilingSet.check s (build339 [(4, m)]) = true ↔ m ≠ 0 ∧ m % (s.tiles * 64) = 0 ∧ m ≤ s.tiles * 12288 := by
  have hparse : parse339 [4] (build339 [(4, m)]) = some [m] := parse339_build339 (fieldsFit_ceiling h)
  simp [cmdCeilingSet, actCmd, hparse, and_assoc]

/-- CEILING_SET leaves on each tile its share of the ceiling in units, as far as the field holds it. -/
theorem cmdCeilingSet_share (c : Caller) {s : State} {m t : Nat} (hm : m < 2 ^ 32) (ht : t < s.tiles) :
    (cmdCeilingSet.run c (build339 [(4, m)]) s).s.fld t FRN.CEIL.CONFIGURED = m / (s.tiles * 64) % 2 ^ 8 := by
  have hfields : fieldsOf [4] (build339 [(4, m)]) = [m] := fieldsOf_build339 (fieldsFit_ceiling hm)
  calc (cmdCeilingSet.run c (build339 [(4, m)]) s).s.ceilConfigured t
      = (s.configAll FRN.CEIL.CONFIGURED (fieldAt [4] (build339 [(4, m)]) 0 / (s.tiles * 64))).ceilConfigured t :=
        congrFun (ceilConfigured_recomputeCeiling _ 1) t
    _ = m / (s.tiles * 64) % 2 ^ 8 := by
        rw [fieldAt, hfields]
        exact fld_configAll _ ht (by decide)

/-- Settles O36: the payload parses to its one field, and the recomputation that follows leaves the shares configured; a ceiling that was
taken is at most 192 units on each tile, so the field holds it. -/
theorem ceilingSet : Obligations.CeilingSet := by
  refine ⟨fun s m hm => cmdCeilingSet_check s hm, fun s c m tile _ htile hm _ hunit hmax => ?_⟩
  have hshare : m / s.tiles ≤ 12288 := Nat.div_le_of_le_mul hmax
  have hdvd : 64 ∣ m / s.tiles := Nat.dvd_div_of_mul_dvd (Nat.dvd_of_mod_eq_zero hunit)
  rw [cmdCeilingSet_share c hm htile, ← Nat.div_div_eq_div_mul]
  generalize m / s.tiles = share at hshare hdvd ⊢
  omega

end Sys2Proof.Machine

/-! SUPPORT. Host network transport: what waits on a paused priority (R205), the numbers of QPs (R214), the release of a QP (R215). -/

namespace Sys2Proof.Machine

/-! ### Pauses and their watchdog (R205) -/

/-- A record that enters its queue, or is lost, changes no connection and sends nothing. -/
theorem enqueueRec_net_out (s : State) (t : Nat) (r : EvRec) : (s.enqueueRec t r).net = s.net ∧ (s.enqueueRec t r).out = s.out := by
  unfold State.enqueueRec
  split <;> exact ⟨rfl, rfl⟩

theorem evRec_net_out (s : State) (t : Nat) (f : Fld) (arg : Nat) : (s.evRec t f arg).net = s.net ∧ (s.evRec t f arg).out = s.out := by
  obtain ⟨hnet, hout⟩ := enqueueRec_net_out (s.ev t f) t (s.stamp t f.blk f.lo (1 + Config.bitSeverity f.blk f.lo % 5) arg)
  exact ⟨hnet.trans (State.ev_net s t f), hout.trans (State.ev_out s t f)⟩

theorem xmit_paused {s : State} {t port prio : Nat} (o : Out) (h : (s.fld t (ETH.STATUS.TX_PAUSED.inst port)).testBit prio = true) :
    s.xmit t port prio o = s.updNet (fun x => { x with txq := x.txq ++ [(prioKey t port prio, o)] }) := if_pos h

/-- Past its time, the watchdog of a lossless priority that is paused records the event and does nothing else. -/
theorem exec_pfcWatchdog {s : State} {t port prio since : Nat} (ht : t < s.tiles) (hport : port < 2)
    (hpaused : amapFind (prioKey t port (prio % 8)) s.net.pausedAt = some since)
    (hlossless : (s.fld t (ETH.PFC.LOSSLESS.inst port)).testBit (prio % 8) = true)
    (hlate : since + s.fld t (ETH.PFC.WATCHDOG_MS.inst port) * 1000 < s.now) :
    exec (.pfcWatchdog t port prio) s = .next (s.evRec t (ETH.EVENTS.PFC_WATCHDOG.inst port) prio) := by
  refine (onUnit_present ht hport).trans ?_
  simp [hpaused, hlossless, hlate]

/-- The watchdog's event is set, and TX_PAUSED, a register of the same block, stands. -/
theorem fld_evRec_pfcWatchdog (s : State) (t : Nat) {port : Nat} (arg : Nat) (hport : port < 2) :
    (s.evRec t (ETH.EVENTS.PFC_WATCHDOG.inst port) arg).fld t (ETH.EVENTS.PFC_WATCHDOG.inst port) = 1 ∧
      (s.evRec t (ETH.EVENTS.PFC_WATCHDOG.inst port) arg).fld t (ETH.STATUS.TX_PAUSED.inst port) =
        s.fld t (ETH.STATUS.TX_PAUSED.inst port) := by
  have hblk : (ETH.EVENTS.PFC_WATCHDOG.inst port).blk < EVR.EVENTS.LOST.blk := by
    simp only [Fld.inst, ETH.EVENTS.PFC_WATCHDOG, EVR.EVENTS.LOST]
    omega
  have hlt : (ETH.EVENTS.PFC_WATCHDOG.inst port).blk < 256 := hblk.trans (by decide)
  exact ⟨fld_evRec_self s t arg rfl (show 1 < 32 by decide) hlt (show 0x1c < 0xffc by decide) hblk.ne,
    fld_evRec_off s t arg rfl hlt (show 0x4 < 0xffc by decide) (show 0x4 ≠ 0x1c by decide) hblk.ne⟩

/-- Settles O32: `xmit` queues at a paused priority, and the watchdog's only effect is its recorded event, which lies in another register than
TX_PAUSED. -/
theorem pausesAreObeyed : Obligations.PausesAreObeyed := by
  refine ⟨fun tile port prio o s h => xmit_paused o h, fun tile port prio since s ht hport hpaused hlossless hlate => ?_⟩
  obtain ⟨hevent, hstill⟩ := fld_evRec_pfcWatchdog s tile prio hport
  obtain ⟨hnet, hout⟩ := evRec_net_out s tile (ETH.EVENTS.PFC_WATCHDOG.inst port) prio
  obtain ⟨hmem, -⟩ := evRec_sameData s tile (ETH.EVENTS.PFC_WATCHDOG.inst port) prio
  exact ⟨_, exec_pfcWatchdog ht hport hpaused hlossless hlate, hevent, hnet, hout, hstill, hmem⟩

/-! ### The number a REQ is given (R214) -/

theorem le_lowestFree (used : List Nat) (k n : Nat) : n ≤ lowestFree used k n := by
  induction k generalizing n with
  | zero => exact Nat.le_refl n
  | succ k ih =>
    rw [lowestFree]
    split
    · exact (Nat.le_succ n).trans (ih (n + 1))
    · exact Nat.le_refl n

theorem lowestFree_le (used : List Nat) (k n : Nat) : lowestFree used k n ≤ n + k := by
  induction k generalizing n with
  | zero => exact Nat.le_refl n
  | succ k ih =>
    have hnext := ih (n + 1)
    rw [lowestFree]
    split <;> omega

/-- The search ends at a number in use only where every number it tried is in use. -/
theorem range'_subset_of_lowestFree_mem {used : List Nat} {k n : Nat} (h : lowestFree used k n ∈ used) : List.range' n (k + 1) ⊆ used := by
  induction k generalizing n with
  | zero => simpa [lowestFree] using h
  | succ k ih =>
    rw [lowestFree] at h
    split at h
    · next hn => exact List.cons_subset.mpr ⟨by simpa using hn, ih h⟩
    · next hn => exact absurd h (by simpa using hn)

/-- A search at least as long as the list finds a number that is not in it: it tries more numbers than the list has. -/
theorem lowestFree_not_mem {used : List Nat} {k : Nat} (n : Nat) (h : used.length ≤ k) : lowestFree used k n ∉ used := by
  intro hmem
  have hle := (List.subperm_of_subset List.nodup_range' (range'_subset_of_lowestFree_mem hmem)).length_le
  rw [List.length_range'] at hle
  omega

theorem freeQpn_not_mem (s : State) (t port : Nat) : s.freeQpn t port ∉ s.net.qps.map (·.qpn) := lowestFree_not_mem _ (Nat.le_refl _)

/-- The number given is above its port's first by a context index that is at most two more than the QPs there are, and is not 0 or 1. -/
theorem freeQpn_bounds (s : State) (t port : Nat) :
    t * 2 ^ 21 + port * 2 ^ 20 ≤ s.freeQpn t port ∧ s.freeQpn t port ≤ t * 2 ^ 21 + port * 2 ^ 20 + s.net.qps.length + 2 ∧
      2 ≤ s.freeQpn t port := by
  rw [State.freeQpn]
  have hlen : (s.net.qps.map (·.qpn)).length = s.net.qps.length := List.length_map _
  generalize hstart : (if t * 2 ^ 21 + port * 2 ^ 20 = 0 then 2 else t * 2 ^ 21 + port * 2 ^ 20) = start
  have hlow := le_lowestFree (s.net.qps.map (·.qpn)) (s.net.qps.map (·.qpn)).length start
  have hhigh := lowestFree_le (s.net.qps.map (·.qpn)) (s.net.qps.map (·.qpn)).length start
  split at hstart <;> omega

/-- The tile and port of a number are those whose range of 2^20 context indices it lies in. -/
theorem qpTile_qpPort {t port n : Nat} (hport : port < 2) (hlow : t * 2 ^ 21 + port * 2 ^ 20 ≤ n)
    (hhigh : n < t * 2 ^ 21 + port * 2 ^ 20 + 2 ^ 20) : qpTile n = t ∧ qpPort n = port := by
  unfold qpTile qpPort
  omega

/-- A REQ that is good and on the right address is refused with status 3 at a limit. -/
theorem refusal_atLimit {s : State} {r : ConnectReq} (hgood : blockGood r.priv = true) (haddr : (natAt r.priv 3 1 == 0) = r.service)
    (hlimit : s.atLimit r = true) : s.refusal r = 3 := by
  simp [State.refusal, hgood, haddr, hlimit]

theorem atLimit_of_full {s : State} {r : ConnectReq}
    (h : s.fld r.tile RMA.QP_LIMIT.LIMIT ≤ (s.tileQps r.tile).length ∨ 1048576 ≤ s.connected) : s.atLimit r = true := by
  rcases h with htile | hpackage
  · simp [State.atLimit, htile]
  · simp [State.atLimit, hpackage]

/-- Settles O28: the search for the number starts at the port's first and is as long as the list of QPs, so it ends at a free number within the
port's range. -/
theorem qpNumbers : Obligations.QpNumbers := by
  refine ⟨fun s t port hport hroom => ?_, fun r s hgood haddr hfull => refusal_atLimit hgood haddr (atLimit_of_full hfull),
    fun r n spsn now => ⟨rfl, rfl⟩⟩
  obtain ⟨hlow, hhigh, htwo⟩ := freeQpn_bounds s t port
  obtain ⟨htile, hportOf⟩ := qpTile_qpPort hport hlow (by omega)
  exact ⟨htile, hportOf, htwo, freeQpn_not_mem s t port⟩

/-! ### The release of a QP (R215)

A release mirrors the context as FREE, removes it with its work, and takes the mailbox point of a management QP away. Mirroring and ending a
session leave the contexts and what is stored as they are. -/

/-- The contexts of connections, memory, regions with their homes, and persistence. -/
def State.qpsAndStored (s : State) : List Qp × List Host.Cell × Ams × Firn := (s.net.qps, s.mem, s.ams, s.firn)

theorem qpsAndStored_drop (s : State) (t : Nat) (f : Fld) (n : Nat) : (s.drop t f n).qpsAndStored = s.qpsAndStored := rfl

theorem qpsAndStored_twinSend (s : State) (t type flags seq : Nat) (body : List Byte) :
    (s.twinSend t type flags seq body).qpsAndStored = s.qpsAndStored := by
  unfold State.twinSend State.pnSpent
  dsimp only
  split
  · split
    · simp [State.qpsAndStored, State.setFs]
    · rfl
  · simp [State.qpsAndStored]

theorem qpsAndStored_pumpGo (s : State) (t n : Nat) : (s.pumpGo t n).qpsAndStored = s.qpsAndStored := by
  induction n generalizing s with
  | zero => rfl
  | succ n ih =>
    unfold State.pumpGo
    split
    · rfl
    · dsimp only
      split
      · rfl
      · exact (ih _).trans (qpsAndStored_twinSend _ t _ _ _ _)

theorem qpsAndStored_mirrorItem (s : State) (t kind : Nat) (body : List Byte) : (s.mirrorItem t kind body).qpsAndStored = s.qpsAndStored := by
  unfold State.mirrorItem
  split
  · exact qpsAndStored_pumpGo _ t _
  · rfl

theorem qpsAndStored_mirrorQp (s : State) (n : Nat) : (s.mirrorQp n).qpsAndStored = s.qpsAndStored := by
  unfold State.mirrorQp
  split
  · split
    · exact qpsAndStored_mirrorItem s _ _ _
    · rfl
  · rfl

theorem qpsAndStored_endSession (s : State) (p : Nat) : (s.endSession p).qpsAndStored = s.qpsAndStored := by
  unfold State.endSession
  split
  · rfl
  · dsimp only
    split
    · split <;> rfl
    · rfl

theorem qpsAndStored_dropPoint (s : State) (q : Qp) : (s.dropPoint q).qpsAndStored = s.qpsAndStored := by
  unfold State.dropPoint
  split
  · exact qpsAndStored_endSession _ _
  · rfl

/-- A change to the contexts of QP n alone is gone once they are removed. -/
theorem filter_map_ite_qpn {f : Qp → Qp} {n : Nat} (hf : ∀ q, (f q).qpn = q.qpn) (qps : List Qp) :
    (qps.map (fun q => if q.qpn = n then f q else q)).filter (fun q => q.qpn != n) = qps.filter (fun q => q.qpn != n) := by
  induction qps with
  | nil => rfl
  | cons q qps ih => by_cases hq : q.qpn = n <;> simp [hq, hf, ih]

/-- A release removes the QP's contexts and leaves all others; memory, regions and persistence stand. -/
theorem qpsAndStored_qpFree {s : State} {n : Nat} {q : Qp} (h : s.qp n = some q) :
    (s.qpFree n).qpsAndStored = (s.net.qps.filter (fun y => y.qpn != n), s.mem, s.ams, s.firn) := by
  have hmirror := qpsAndStored_mirrorQp (s.updQp n (fun x => { x with st := 0 })) n
  generalize hs1 : (s.updQp n (fun x => { x with st := 0 })).mirrorQp n = s1 at hmirror
  have hfree : (s.qpFree n).qpsAndStored = (s1.net.qps.filter (fun y => y.qpn != n), s1.mem, s1.ams, s1.firn) := by
    rw [State.qpFree, h, hs1]
    dsimp only
    split
    · exact qpsAndStored_dropPoint _ q
    · exact (qpsAndStored_drop ..).trans (qpsAndStored_dropPoint _ q)
  have hqps : s1.net.qps.filter (fun y => y.qpn != n) = s.net.qps.filter (fun y => y.qpn != n) :=
    (congrArg (List.filter _) (congrArg Prod.fst hmirror)).trans
      (filter_map_ite_qpn (f := fun x => { x with st := 0 }) (fun _ => rfl) s.net.qps)
  have hstored : (s1.mem, s1.ams, s1.firn) = (s.mem, s.ams, s.firn) := congrArg Prod.snd hmirror
  exact hfree.trans (congrArg₂ Prod.mk hqps hstored)

theorem qp_removed {s t : State} {n : Nat} (h : t.net.qps = s.net.qps.filter (fun y => y.qpn != n)) : t.qp n = none := by
  simp [State.qp, h]

theorem qp_of_others_kept {s t : State} {n m : Nat} (h : t.net.qps = s.net.qps.filter (fun y => y.qpn != n)) (hm : m ≠ n) :
    t.qp m = s.qp m := by
  rw [State.qp, State.qp, h, List.find?_filter]
  congr 1
  funext q
  by_cases hq : q.qpn = m <;> simp [hq, hm]

theorem exec_connectTimeout {s : State} {n : Nat} {rej : Bool} {q : Qp} (h : s.qp n = some q) (hst : q.st = 1)
    (hdue : rej = true ∨ q.opened + 100000 ≤ s.now) : exec (.connectTimeout n rej) s = .next (s.qpFree n) := by
  show execConnectTimeout n rej s = _
  simp [execConnectTimeout, h, hst, hdue]

/-- Settles O29: the row is the release of the QP, which filters its contexts out and changes nothing that is stored. -/
theorem connectTimeoutFrees : Obligations.ConnectTimeoutFrees := by
  intro qpn rej s q hq hst hdue
  have hfree := qpsAndStored_qpFree hq
  simp only [State.qpsAndStored, Prod.mk.injEq] at hfree
  obtain ⟨hqps, hmem, hams, hfirn⟩ := hfree
  exact ⟨_, exec_connectTimeout hq hst hdue, qp_removed hqps, fun m hm => qp_of_others_kept hqps hm, hmem, hams, hfirn⟩

end Sys2Proof.Machine

/-! SUPPORT. Regions, capsules and ordering: the fields of a region's key and what a passing key check has found (R237, R238), the comparison of
counts (R259), the start of a capsule and its fence (R245, R256). -/

namespace Sys2Proof.Machine

/-! ### Region keys (R237, R238) -/

/-- Table 9.2: the generation, the tag and the region's number are the digits of the key. -/
theorem Region.key_fields {r : Region} (h : r.num < 2 ^ 16) :
    r.key / 2 ^ 24 = r.gen % 256 ∧ r.key / 2 ^ 16 % 256 = r.tag % 256 ∧ r.key % 2 ^ 16 = r.num := by
  unfold Region.key
  refine ⟨?_, ?_, ?_⟩ <;> omega

theorem Region.key_lt {r : Region} (h : r.num < 2 ^ 16) : r.key < 2 ^ 32 := by
  unfold Region.key
  omega

/-- A check passes only for the region that the key's low half names, and only where the whole key is that region's present one. -/
theorem checkKey_ok {s : State} {key a n right : Nat} {r : Region} (h : s.checkKey key a n right = .ok r) :
    s.regionNum (key % 65536) = some r ∧ r.key = key := by
  unfold State.checkKey at h
  split at h
  · cases h
  · next found hfound =>
    split_ifs at h with hfail
    cases h
    simp only [Bool.or_eq_true, bne_iff_ne, not_or, not_not] at hfail
    obtain ⟨hkey, -⟩ := hfail
    exact ⟨hfound, hkey⟩

/-- Settles O30: the fields are the digits of the key, and a check that passes has compared the whole key with the region's. -/
theorem regionKeys : Obligations.RegionKeys := by
  refine ⟨fun r hnum => ?layout, fun s r key a n right hnum hfound _ ⟨x, hok⟩ => ?present⟩
  case layout =>
    simp only [Nat.shiftRight_eq_div_pow]
    exact ⟨Region.key_lt hnum, Region.key_fields hnum⟩
  case present =>
    obtain ⟨hx, hkey⟩ := checkKey_ok hok
    obtain rfl : r = x := Option.some.inj (hfound.symm.trans hx)
    obtain ⟨hgen, htag, -⟩ := Region.key_fields hnum
    exact hkey ▸ ⟨hgen, htag⟩

/-! ### Counts (R259) -/

/-- The distance from v to c is the one d below 2^32 that leads from v to c. -/
theorem countDistance_eq_iff {c v d : Nat} (hc : c < 2 ^ 32) (hd : d < 2 ^ 32) :
    (c + 2 ^ 32 - v % 2 ^ 32) % 2 ^ 32 = d ↔ (v + d) % 2 ^ 32 = c := by
  omega

/-- Settles O31: the distance that `hasReached` bounds is the d of the statement. -/
theorem countHasReached : Obligations.CountHasReached := by
  intro c v hc _
  rw [hasReached, decide_eq_true_iff]
  constructor
  · intro hnear
    exact ⟨_, hnear, (countDistance_eq_iff hc (Nat.mod_lt _ (by decide))).mp rfl⟩
  · rintro ⟨d, hd, hreach⟩
    rwa [(countDistance_eq_iff hc (hd.trans (by decide))).mpr hreach]

/-! ### The start of a capsule and its fence (R245, R256) -/

theorem exec_capsuleStart_some {s : State} {n : Nat} {q : Qp} {c : QCapsule} (h : s.qp n = some q)
    (hc : q.caps.find? (s.mayStart q) = some c) : exec (.capsuleStart n) s = .next (s.startCapsule q c) := by
  show execCapsuleStart n s = _
  simp only [execCapsuleStart, h, hc]

theorem exec_capsuleStart_none {s : State} {n : Nat} {q : Qp} (h : s.qp n = some q) (hc : q.caps.find? (s.mayStart q) = none) :
    exec (.capsuleStart n) s = .next s := by
  show execCapsuleStart n s = _
  simp only [execCapsuleStart, h, hc]

/-- An operation of lower position that has not completed leaves the fence unmet. -/
theorem fenceMet_eq_false {s : State} {q : Qp} {psn : Nat}
    (h : (∃ r ∈ q.reqs, psnBefore r.psn psn ∧ r.kind < 2 ∧ ¬r.reached) ∨ (∃ d ∈ q.caps, psnBefore d.psn psn) ∨
      (∃ e ∈ s.net.execs, e.src.earlier q.qpn psn) ∨ q.cplQ ≠ []) : s.fenceMet q psn = false := by
  rw [Bool.eq_false_iff]
  intro hmet
  simp only [State.fenceMet, Bool.and_eq_true, List.all_eq_true, Bool.not_eq_true', List.any_eq_false, List.isEmpty_iff] at hmet
  obtain ⟨⟨⟨hreqs, hcaps⟩, hexecs⟩, hcpls⟩ := hmet
  obtain ⟨r, hr, hbefore, hkind, hshort⟩ | ⟨d, hd, hbefore⟩ | ⟨e, he, hbefore⟩ | hcpl := h
  · simpa [hbefore, hkind.ne, hshort] using hreqs r hr
  · exact absurd (hcaps d hd) (by simp [hbefore])
  · exact hexecs e he hbefore
  · exact hcpl hcpls

theorem mayStart_of_fenceUnmet {s : State} {q : Qp} {c : QCapsule} (hfence : capFence c.bytes) (hunmet : s.fenceMet q c.psn = false) :
    s.mayStart q c = false := by
  simp [State.mayStart, hfence, hunmet]

/-- Settles O38: the capsule's unmet fence takes it alone out of the search for the capsule to start. -/
theorem fenceHoldsBack : Obligations.FenceHoldsBack := by
  intro n s q c cs hq hcaps hfence hshort
  have hheld : s.mayStart q c = false := mayStart_of_fenceUnmet hfence (fenceMet_eq_false hshort)
  have hsearch : q.caps.find? (s.mayStart q) = cs.find? (s.mayStart q) := by
    rw [hcaps, List.find?_cons_of_neg (by simp [hheld])]
  refine ⟨fun hnone => exec_capsuleStart_none hq ?_, fun d hd => exec_capsuleStart_some hq (hsearch.trans hd)⟩
  rw [hsearch, hnone, List.find?_nil]

end Sys2Proof.Machine

/-! SUPPORT. Twin operation: TW_ACTO falling (R273), the silence after DEPART (R282), and the lease of the twin arbiter running out (R283). -/

namespace Sys2Proof.Machine

/-- TW_ACTO falls by two fields of TWA.STATUS alone: the level driven and the level at the pad. -/
theorem driveActo_false (s : State) : s.driveActo false = (s.setF 0 TWA.STATUS.ACTO 0).setF 0 TWA.STATUS.ACTO_PAD 0 := rfl

theorem fld_driveActo_false (s : State) : (s.driveActo false).fld 0 TWA.STATUS.ACTO = 0 ∧ (s.driveActo false).fld 0 TWA.STATUS.ACTO_PAD = 0 := by
  rw [driveActo_false]
  exact ⟨(fld_setF_of_apart (by decide) _ 0 0 0).trans (fld_setF_self _ _ _ _ (by decide)), fld_setF_self _ _ _ _ (by decide)⟩

/-- A silent unit sends no heartbeat once its DEPART is over. -/
theorem heartBeats_eq_false {s : State} (hsilent : s.twin.silent = true) (hover : s.twin.departUntil ≤ s.now) : s.heartBeats = false := by
  simp [State.heartBeats, hsilent, hover]

/-- Steps 1 to 3 of R283: TW_ACTO low, DEPART with silence after it, the lease not current. -/
def State.lapseLease (s : State) : State := ((s.driveActo false).depart true).updTwin (fun x => { x with leaseOk := false })

theorem exec_leaseExpired {s : State} (hlease : s.twin.leaseOk) (hboot : s.boot.handedOver) (hawake : s.pow.target = 0)
    (hdue : s.twin.leaseAt + s.fld 0 TWA.CTRL.LEASE * 50 ≤ s.now) :
    exec .leaseExpired s = .next (s.lapseLease.ev 0 TWA.EVENTS.LEASE_EXPIRED) :=
  congrArg Host.Outcome.next (if_pos (by simp [hlease, hboot, hawake, hdue]))

theorem fld_lapseLease (s : State) (t : Nat) (g : Fld) : s.lapseLease.fld t g = (s.driveActo false).fld t g :=
  fld_congr ((State.updTwin_regs _ _).trans (State.with_twin_regs _ _)) t g

theorem lapseLease_twin (s : State) :
    s.lapseLease.twin = { s.twin with departUntil := s.now + 200, silent := true, leaseOk := false } := by
  simp only [State.lapseLease, State.updTwin, State.depart, driveActo_false, State.setF_twin, State.setF_now, Bool.or_true]

theorem lapseLease_data (s : State) :
    s.lapseLease.mem = s.mem ∧ s.lapseLease.ams = s.ams ∧ s.lapseLease.net = s.net ∧ s.lapseLease.firn = s.firn := by
  simp [State.lapseLease, State.depart, driveActo_false]

/-- Settles O35: DEPART and the lease are kept beside the registers, so TWA.STATUS reads as the fall of TW_ACTO left it; the event's bit and its
counter are other registers, and data stands in neither. -/
theorem leaseExpires : Obligations.LeaseExpires := by
  intro s hlease hboot hawake hdue
  have htwin := (State.ev_twin s.lapseLease 0 TWA.EVENTS.LEASE_EXPIRED).trans (lapseLease_twin s)
  have hsilent := congrArg Twin.silent htwin
  have hstatus : ∀ g : Fld, TWA.EVENTS.LEASE_EXPIRED.Apart g → (evtCnt TWA.EVENTS.LEASE_EXPIRED.blk).Apart g →
      (s.lapseLease.ev 0 TWA.EVENTS.LEASE_EXPIRED).fld 0 g = (s.driveActo false).fld 0 g :=
    fun g hbit hcnt => (fld_ev_of_apart hbit hcnt _ 0 0).trans (fld_lapseLease s 0 g)
  obtain ⟨hacto, hpad⟩ := fld_driveActo_false s
  obtain ⟨hmem, hams, hnet, hfirn⟩ := lapseLease_data s
  refine ⟨_, exec_leaseExpired hlease hboot hawake hdue, ?acto, ?pad, ?lease, ?depart, hsilent, ?event, ?heartbeats, ?data⟩
  case acto => exact (hstatus _ (by decide) (by decide)).trans hacto
  case pad => exact (hstatus _ (by decide) (by decide)).trans hpad
  case lease => exact congrArg Twin.leaseOk htwin
  case depart => rw [htwin]; exact Nat.lt_add_of_pos_right (by decide)
  case event => exact fld_ev_self _ 0 _ rfl (by decide) (by decide)
  case heartbeats => exact heartBeats_eq_false hsilent (Nat.le_refl _)
  case data => exact ⟨(State.ev_mem ..).trans hmem, (State.ev_ams ..).trans hams, (State.ev_net ..).trans hnet, (State.ev_firn ..).trans hfirn⟩

end Sys2Proof.Machine

/-! SUPPORT. Engine feed: an index edge too close to the last accepted one (R309, R322), and a strobe edge on an input that drives one stream
(R309, R312). -/

namespace Sys2Proof.Machine

/-! ### Index edges (R309) -/

/-- Less than 2 ms after the edge accepted at `a`, another is the event alone. -/
theorem indexPulse_tooClose {s : State} {t a : Nat} (hlast : (s.ftile t).idxAt = some a) (hclose : s.now < a + 2000) :
    s.indexPulse t = s.ev t FED.EVENTS.IDX_FAST :=
  if_pos (by simp [hlast, hclose])

theorem exec_indexPulse {s : State} {t : Nat} (ht : t < s.tiles) : exec (.indexPulse t) s = .next (s.indexPulse t) := onTile_present ht

/-! ### A stream changed, and what leaves every stream -/

/-- A change that keeps the stream's number changes the stream found under that number and no other. -/
theorem fstream_updStream {s : State} {n : Nat} {x : FStream} {f : FStream → FStream} (hnum : ∀ y, (f y).cfg.num = y.cfg.num)
    (hx : s.fstream n = some x) : (s.updStream n f).fstream n = some (f x) := by
  have hsearch : (fun y : FStream => y.cfg.num == n) ∘ (fun y => if y.cfg.num = n then f y else y) = fun y => y.cfg.num == n := by
    funext y
    simp [apply_ite FStream.cfg, apply_ite StreamCfg.num, hnum]
  have hfound := List.find?_some hx
  have hxn : x.cfg.num = n := eq_of_beq hfound
  calc (s.updStream n f).fstream n
      = (s.fstream n).map (fun y => if y.cfg.num = n then f y else y) := List.find?_map.trans (by rw [hsearch]; rfl)
    _ = some (f x) := by rw [hx, Option.map_some, if_pos hxn]

theorem fstream_congr {a b : State} (h : b.feed = a.feed) (n : Nat) : b.fstream n = a.fstream n := by
  rw [State.fstream, h, State.fstream]

theorem updStream_out (s : State) (n : Nat) (f : FStream → FStream) : (s.updStream n f).out = s.out := State.updFeed_out ..

theorem updStream_regs (s : State) (n : Nat) (f : FStream → FStream) : (s.updStream n f).regs = s.regs := State.updFeed_regs ..

/-! ### Strobe edges (R309, R312) -/

/-- The tile counts the edges of a strobe input, beside the streams it drives. -/
def State.countEdge (s : State) (t stb : Nat) : State :=
  s.updFtile t (fun x => if stb = 0 then { x with edges0 := x.edges0 + 1 } else { x with edges1 := x.edges1 + 1 })

theorem fstream_countEdge (s : State) (t stb n : Nat) : (s.countEdge t stb).fstream n = s.fstream n := rfl

theorem countEdge_out (s : State) (t stb : Nat) : (s.countEdge t stb).out = s.out := State.updFeed_out ..

theorem countEdge_regs (s : State) (t stb : Nat) : (s.countEdge t stb).regs = s.regs := State.updFeed_regs ..

/-- An edge on an input that drives one stream reaches that stream, once the tile has counted it. -/
theorem strobe_single {s : State} {t stb n : Nat} (h : s.strobed t stb = [n]) : s.strobe t stb = (s.countEdge t stb).edgeStream n :=
  congrArg (List.foldl State.edgeStream (s.countEdge t stb)) h

theorem exec_strobeEdge {s : State} {t stb n : Nat} (ht : t < s.tiles) (hstb : stb < 2) (h : s.strobed t stb = [n]) :
    exec (.strobeEdge t stb) s = .next ((s.countEdge t stb).edgeStream n) :=
  (onUnit_present ht hstb).trans (congrArg _ (strobe_single h))

section
variable {s : State} {n : Nat} {x : FStream}

theorem edgeStream_notRunning (hx : s.fstream n = some x) (hst : x.st ≠ 4) : s.edgeStream n = s := by
  simp [State.edgeStream, hx, hst]

theorem edgeStream_skipping (hx : s.fstream n = some x) (hst : x.st = 4) (hskip : x.skip ≠ 0) :
    s.edgeStream n = s.updStream n (fun y => { y with skip := y.skip - 1 }) := by
  simp [State.edgeStream, hx, hst, hskip]

/-- What an edge does that comes while the stream's frame is still being sent: the event, its counter, the stream's own count. -/
def State.earlyEdge (s : State) (n : Nat) : State :=
  ((s.updStream n (fun y => { y with early := y.early + 1 })).ev (feedTileOf n) FED.EVENTS.STROBE_EARLY).bump (feedTileOf n)
    FED.STROBE_EARLY.COUNT 1

theorem edgeStream_sending (hx : s.fstream n = some x) (hst : x.st = 4) (hskip : x.skip = 0) (hout : x.out.isSome) :
    s.edgeStream n = s.earlyEdge n := by
  simp [State.edgeStream, State.earlyEdge, hx, hst, hskip, hout]

theorem fstream_earlyEdge (hx : s.fstream n = some x) : (s.earlyEdge n).fstream n = some { x with early := x.early + 1 } :=
  (fstream_congr ((State.bump_feed ..).trans (State.ev_feed ..)) n).trans (fstream_updStream (fun _ => rfl) hx)

theorem earlyEdge_out (s : State) (n : Nat) : (s.earlyEdge n).out = s.out :=
  (State.bump_out ..).trans ((State.ev_out ..).trans (updStream_out ..))

/-- The event's bit and the counter of early edges lie in two registers, neither of them the block's event counter. -/
theorem fld_earlyEdge (s : State) (n : Nat) :
    (s.earlyEdge n).fld (feedTileOf n) FED.EVENTS.STROBE_EARLY = 1 ∧
      (s.earlyEdge n).fld (feedTileOf n) FED.STROBE_EARLY.COUNT =
        min (s.fld (feedTileOf n) FED.STROBE_EARLY.COUNT + 1) (2 ^ FED.STROBE_EARLY.COUNT.w - 1) := by
  constructor
  · exact (fld_bump_of_apart (by decide) ..).trans (fld_ev_self _ _ _ rfl (by decide) (by decide))
  · rw [State.earlyEdge, fld_bump_self _ _ _ _ (by decide), fld_ev_of_apart (by decide) (by decide), fld_congr (updStream_regs ..)]

end

/-- Settles O39: an edge too close is `ev` alone; a strobe edge on the input of one stream is `edgeStream` on it, whose branches are the stream's
states, after a count that lies beside streams, outputs and registers. -/
theorem strobesAndIndexPulses : Obligations.StrobesAndIndexPulses := by
  refine ⟨fun tile a s ht hlast hclose => ?index, fun tile stb n s x ht hstb hone hx => ?strobe⟩
  case index =>
    exact ⟨_, (exec_indexPulse ht).trans (congrArg _ (indexPulse_tooClose hlast hclose)), ev_sameData ..,
      fld_ev_self _ _ _ rfl (by decide) (by decide)⟩
  case strobe =>
    have hx' : (s.countEdge tile stb).fstream n = some x := (fstream_countEdge ..).trans hx
    have hout := countEdge_out s tile stb
    have hregs := countEdge_regs s tile stb
    refine ⟨_, exec_strobeEdge ht hstb hone, fun hst => ?notRunning, fun hst hskip => ?skipping, fun hst hskip hsending => ?sending⟩
    case notRunning =>
      rw [edgeStream_notRunning hx' hst]
      exact ⟨hx', hout, hregs⟩
    case skipping =>
      rw [edgeStream_skipping hx' hst hskip]
      exact ⟨fstream_updStream (fun _ => rfl) hx', (updStream_out ..).trans hout, (updStream_regs ..).trans hregs⟩
    case sending =>
      rw [edgeStream_sending hx' hst hskip hsending, ← fld_congr hregs]
      exact ⟨fstream_earlyEdge hx', (earlyEdge_out ..).trans hout, fld_earlyEdge ..⟩

end Sys2Proof.Machine

/-! SUPPORT. Registers and events (R355): the settings of an event's bit, counted. -/

namespace Sys2Proof.Machine

/-- The event counter of a block is a register apart from those of its other addresses. -/
theorem regKey_evtCnt_ne {blk off : Nat} (t : Nat) (h : off ≠ 0xffc) :
    regKey t (evtCnt blk).blk (evtCnt blk).off ≠ regKey t blk off := by
  simp only [regKey, evtCnt]
  omega

/-- Settles O14: the bit and the counter are read after `ev`; a clear before it writes the bit's register alone, which is not the counter's,
and registers of their sizes have distinct addresses. -/
theorem eventBitsAreCounted : Obligations.EventBitsAreCounted := by
  intro s t f hw hlo hoff hblk
  have hcnt : f.off ≠ 0xffc := hoff.ne
  refine ⟨fld_ev_self s t f hw hlo hcnt, fld_ev_count s t f hcnt, fld_ev_self _ t f hw hlo hcnt, ?counted, fun u blk off hb ho hne => ?others⟩
  case counted => rw [fld_ev_count _ t f hcnt, fld_setF_ne _ _ _ _ _ _ (regKey_evtCnt_ne t hcnt)]
  case others =>
    refine word_ev_ne s t u blk off f (fun h => hne ?_) (fun h => hne ?_)
    · obtain ⟨htile, hblock, hreg⟩ := regKey_inj hb hblk ho (by omega) h
      exact ⟨htile, hblock, .inl hreg⟩
    · obtain ⟨htile, hblock, hreg⟩ := regKey_inj hb hblk ho (by decide) h
      exact ⟨htile, hblock, .inr hreg⟩

end Sys2Proof.Machine

/-! SUPPORT. Management: the MAC of a frame (R346), and how a request is answered (R336): steps 1 to 7, what a refusal notes and
what a response changes. -/

namespace Sys2Proof.Machine

/-! ### Frames and their MAC (R346) -/

/-- Table 12.2: the header up to the MAC. -/
theorem length_headerBytes (f : Frame) : (headerBytes f).length = 0x30 := by
  simp [headerBytes]

/-- The MAC field itself is not under the MAC. -/
theorem frameMac_with_mac (k m : BitVec 128) (f : Frame) : frameMac k { f with mac := m } = frameMac k f := rfl

theorem respFrame_mac (s : State) (f : Frame) (x : Session) (ex : Bool) (st : Status) (pl : List Byte) :
    (respFrame s f (some x) ex st pl).mac = frameMac x.key (respFrame s f (some x) ex st pl) :=
  (frameMac_with_mac _ _ _).symm

theorem ntfFrame_mac (s : State) (x : Session) (op : Nat) (pl : List Byte) : (s.ntfFrame x op pl).mac = frameMac x.key (s.ntfFrame x op pl) :=
  (frameMac_with_mac _ _ _).symm

/-- Step 2 finds no session for a frame that names an open one and carries another MAC than that session's key gives. -/
theorem sessionOf_badMac (c : Cmd) {f : Frame} {s : State} {x : Session} (hsession : f.session ≠ 0)
    (hfind : s.mb.sessions.find? (fun y => y.point == f.point && y.id == f.session) = some x) (hmac : frameMac x.key f ≠ f.mac) :
    sessionOf c f s = none := by
  rw [sessionOf, if_neg hsession, hfind]
  exact if_neg hmac

theorem admission_noSession {c : Cmd} {f : Frame} {s : State} (hheader : headerStatus f = .ok) (hsession : sessionOf c f s = none) :
    c.admission f s = .refuse 2 .deniedRole := by
  simp [Cmd.admission, hheader, hsession]

/-- Settles O13: response and notification carry the MAC computed over themselves, as the MAC field is not among the bytes under it; a wrong MAC
leaves step 2 without a session. -/
theorem framesCarryMac : Obligations.FramesCarryMac :=
  ⟨length_headerBytes, respFrame_mac, fun _ _ _ _ _ => rfl, ntfFrame_mac,
    fun c _ _ _ hheader hsession hfind hmac => admission_noSession hheader (sessionOf_badMac c hsession hfind hmac)⟩

/-! ### How a request is answered (R336) -/

/-- Every row of the mailbox groups hands its request to `mailbox`: the arms of `requestOf` are arms of `exec`, and its last arm answers no
request. -/
theorem exec_request {s : State} {i : Instr} {c : Cmd} {f : Frame} (h : requestOf s i = some (c, f)) : exec i s = .next (mailbox c f s) := by
  unfold requestOf at h
  split at h
  all_goals cases h
  all_goals rfl

theorem takeInput_dstate (s : State) (f : Frame) : (s.takeInput f).dstate = s.dstate := rfl

theorem takeInput_pow (s : State) (f : Frame) : (s.takeInput f).pow = s.pow := rfl

/-- A frame wakes nothing in a device that does not sleep. -/
theorem frameWake_awake {s : State} {p : Nat} (hs1 : s.dstate ≠ .s1) (hs2 : s.dstate ≠ .s2) : s.frameWake p = s :=
  if_neg (by simp [hs1, hs2])

/-- What follows steps 1 to 7: the refusal, the stored response, or step 8. -/
def Cmd.answer (c : Cmd) (f : Frame) (s : State) : Admit → State
  | .refuse n st => s.refuseReq f (s.namedSession f) n st
  | .resend b => s.respond f.point b
  | .go x => c.execute f x s

/-- A request that its point serves, with none before it in wait, is taken from the queue and answered; awake and with no sleep being entered,
nothing else happens. -/
theorem mailbox_awake {c : Cmd} {f0 f : Frame} {s : State} (hf : f = { f0 with opcode := c.opcode }) (hwait : s.pointWaits f.point = false)
    (hserved : pointServed s.dstate f.point) (hs1 : s.dstate ≠ .s1) (hs2 : s.dstate ≠ .s2) (htarget : s.pow.target = 0) :
    mailbox c f0 s = c.answer f (s.takeInput f) (c.admission f (s.takeInput f)) := by
  unfold mailbox
  rw [← hf]
  simp only [hwait, takeInput_dstate, hserved, frameWake_awake (s := s.takeInput f) hs1 hs2, takeInput_pow, htarget, Bool.false_eq_true,
    Bool.not_true, if_true, if_false]
  cases c.admission f (s.takeInput f) <;> rfl

/-- Settles O10: the row is its command's `mailbox`, which answers by the outcome of steps 1 to 7. -/
theorem mailboxRequestsExecute : Obligations.MailboxRequestsExecute := by
  intro i c f0 f s hreq hf hwait hserved hs1 hs2 htarget
  have hexec : exec i s = .next (c.answer f (s.takeInput f) (c.admission f (s.takeInput f))) :=
    (exec_request hreq).trans (congrArg _ (mailbox_awake hf hwait hserved hs1 hs2 htarget))
  exact ⟨fun x hgo => by rw [hexec, hgo, Cmd.answer], fun b hresend => by rw [hexec, hresend, Cmd.answer]⟩

/-! ### What a response and the note of a refusal change (R224, R332, R336, R351) -/

/-- The fields that a refusal's events, its audit record and the record's queue write. -/
def refusalNotes : List Fld :=
  [MGT.EVENTS.MAC_FAIL, MGT.EVENTS.REPLAY, evtCnt MGT.EVENTS.MAC_FAIL.blk, RLE.EVENTS.DENIED, evtCnt RLE.EVENTS.DENIED.blk, RLE.AUDIT.COUNT,
    EVR.EVENTS.LOST, evtCnt EVR.EVENTS.LOST.blk, EVR.LOST.COUNT]

/-- The fields that reporting writes: those notes, and the count of frames that left a port. -/
def ReportField (f : Fld) : Prop := f ∈ refusalNotes ∨ ∃ port, f = ETH.TX_FRAMES.COUNT.inst port

/-- A field that no report writes. -/
def BesideReports (g : Fld) : Prop := ∀ f, ReportField f → f.Apart g

/-- The counts of frames of all ports lie at one offset of their blocks. -/
theorem besideReports_of_place {g : Fld} (hnotes : ∀ f ∈ refusalNotes, f.Apart g) (hplace : g.place % 2 ^ 20 ≠ ETH.TX_FRAMES.COUNT.off) :
    BesideReports g := by
  rintro f (hf | ⟨port, rfl⟩)
  · exact hnotes f hf
  · left
    simp only [Fld.place, Fld.inst, ETH.TX_FRAMES.COUNT] at hplace ⊢
    omega

/-- A report changes no stored data and no mailbox, writes its own fields alone, and puts outputs before the earlier ones. -/
structure ReportsOnly (a b : State) : Prop where
  data : SameData a b
  mb : b.mb = a.mb
  out : a.out <:+ b.out
  fld : ∀ (u : Nat) (g : Fld), BesideReports g → b.fld u g = a.fld u g

theorem ReportsOnly.rfl (s : State) : ReportsOnly s s := ⟨SameData.rfl s, Eq.refl _, List.suffix_rfl, fun _ _ _ => Eq.refl _⟩

theorem ReportsOnly.trans {a b c : State} (h : ReportsOnly a b) (k : ReportsOnly b c) : ReportsOnly a c :=
  ⟨h.data.trans k.data, k.mb.trans h.mb, h.out.trans k.out, fun u g hg => (k.fld u g hg).trans (h.fld u g hg)⟩

/-- A report that is made on a condition. -/
theorem ReportsOnly.ite {a b c : State} {p : Prop} [Decidable p] (h : ReportsOnly a c) (k : ReportsOnly c b) :
    ReportsOnly a (if p then b else c) := by
  split
  · exact h.trans k
  · exact h

theorem bump_reportsOnly {f : Fld} (hf : ReportField f) (s : State) (t n : Nat) : ReportsOnly s (s.bump t f n) :=
  ⟨bump_sameData s t f n, State.bump_mb .., (State.bump_out s t f n) ▸ List.suffix_rfl, fun u _ hg => fld_bump_of_apart (hg f hf) s t u n⟩

theorem ev_reportsOnly {f : Fld} (hf : ReportField f) (hcnt : ReportField (evtCnt f.blk)) (s : State) (t : Nat) : ReportsOnly s (s.ev t f) :=
  ⟨ev_sameData s t f, State.ev_mb s t f, (State.ev_out s t f) ▸ List.suffix_rfl, fun u _ hg => fld_ev_of_apart (hg f hf) (hg _ hcnt) s t u⟩

theorem updNet_reportsOnly (s : State) (f : Net → Net) : ReportsOnly s (s.updNet f) :=
  ⟨updNet_sameData s f, State.updNet_mb s f, (State.updNet_out s f) ▸ List.suffix_rfl, fun u g _ => fld_congr (State.updNet_regs s f) u g⟩

theorem send_reportsOnly (s : State) (o : Out) : ReportsOnly s (s.send o) :=
  ⟨send_sameData s o, State.send_mb s o, List.suffix_cons o s.out, fun u g _ => fld_congr (State.send_regs s o) u g⟩

theorem xmit_reportsOnly (s : State) (t port prio : Nat) (o : Out) : ReportsOnly s (s.xmit t port prio o) := by
  unfold State.xmit
  split
  · exact updNet_reportsOnly s _
  · exact (bump_reportsOnly (.inr ⟨port, rfl⟩) s t 1).trans (send_reportsOnly _ o)

theorem request_reportsOnly (s : State) (n : Nat) (ps : List SentPkt) : ReportsOnly s (s.request n ps) := by
  unfold State.request
  split
  · exact ReportsOnly.rfl s
  · exact List.foldlRecOn (motive := ReportsOnly s) _ _ (updNet_reportsOnly s _) (fun a ha _ _ => ha.trans (xmit_reportsOnly a _ _ _ _))

theorem sendGo_reportsOnly (s : State) (n k : Nat) : ReportsOnly s (s.sendGo n k) := by
  induction k generalizing s with
  | zero => exact ReportsOnly.rfl s
  | succ k ih =>
    unfold State.sendGo
    split
    · exact ReportsOnly.rfl s
    · split
      · split
        · exact ((updNet_reportsOnly s _).trans (request_reportsOnly _ n _)).trans (ih _)
        · exact ReportsOnly.rfl s
      · exact ReportsOnly.rfl s

theorem pointMsg_reportsOnly (s : State) (p : Nat) (bs : List Byte) : ReportsOnly s (s.pointMsg p bs) := by
  unfold State.pointMsg
  split
  · exact (updNet_reportsOnly s _).trans (sendGo_reportsOnly _ _ _)
  · exact ReportsOnly.rfl s

theorem respond_reportsOnly (s : State) (p : Nat) (bytes : List Byte) : ReportsOnly s (s.respond p bytes) := by
  unfold State.respond
  split
  · exact ⟨SameData.rfl s, rfl, List.suffix_cons _ s.out, fun _ _ _ => rfl⟩
  · exact (send_reportsOnly s _).trans (pointMsg_reportsOnly _ p bytes)

/-- A response is among the outputs of its point. -/
theorem mailbox_mem_respond (s : State) (p : Nat) (bytes : List Byte) : Out.mailbox p bytes ∈ (s.respond p bytes).out := by
  unfold State.respond
  split
  · next hp => exact hp ▸ List.mem_cons_self
  · exact (pointMsg_reportsOnly _ p bytes).out.subset List.mem_cons_self

theorem loseEvent_reportsOnly (s : State) (t : Nat) : ReportsOnly s (s.loseEvent t) := by
  have hcount : ReportsOnly s { s with recd := { s.recd with lost := s.recd.lost + 1 } } :=
    ⟨SameData.rfl s, rfl, List.suffix_rfl, fun _ _ _ => rfl⟩
  exact (hcount.trans (ev_reportsOnly (.inl (by decide)) (.inl (by decide)) _ t)).trans (bump_reportsOnly (.inl (by decide)) _ t 1)

theorem enqueueRec_reportsOnly (s : State) (t : Nat) (r : EvRec) : ReportsOnly s (s.enqueueRec t r) := by
  unfold State.enqueueRec
  split
  · exact ⟨SameData.rfl s, rfl, List.suffix_rfl, fun _ _ _ => rfl⟩
  · obtain ⟨hdata, hmb, hout, hfld⟩ :=
      loseEvent_reportsOnly { s with recd := { s.recd with lostTiles := s.recd.lostTiles.erase t ++ [t] } } t
    exact ⟨hdata, hmb, hout, hfld⟩

theorem audit_reportsOnly (s : State) (c : Caller) (opcode : Nat) (pl : List Byte) (denied : Bool) : ReportsOnly s (s.audit c opcode pl denied) :=
  (enqueueRec_reportsOnly s 0 _).trans (bump_reportsOnly (.inl (by decide)) _ 0 1)

/-! ### A request refused at steps 1 to 7 (R336) -/

/-- MGT.LAST_REFUSE written. -/
def State.lastRefuse (s : State) (p n : Nat) (st : Status) : State :=
  s.setFs 0 [(MGT.LAST_REFUSE.STATUS, st.code), (MGT.LAST_REFUSE.POINT, p), (MGT.LAST_REFUSE.STEP, n)]

/-- What a refusal notes before it is answered. -/
def State.noteRefusal (s : State) (f : Frame) (x : Option Session) (n : Nat) (st : Status) : State :=
  let s1 := s.lastRefuse f.point n st
  let s2 := if n = 2 && x.isSome then s1.ev 0 MGT.EVENTS.MAC_FAIL else s1
  let s3 := if n = 3 && st = .deniedRole then s2.ev 0 MGT.EVENTS.REPLAY else s2
  if st = .deniedRole then
    (s3.ev 0 RLE.EVENTS.DENIED).audit ⟨(x.map (·.role)).getD 0, (x.map (·.id)).getD 0, f.point⟩ f.opcode f.payload true
  else s3

theorem refuseReq_eq_respond (s : State) (f : Frame) (x : Option Session) (n : Nat) (st : Status) :
    s.refuseReq f x n st =
      (s.noteRefusal f x n st).respond f.point (frameBytes (respFrame (s.noteRefusal f x n st) f x false st [])) := rfl

theorem lastRefuse_sameData (s : State) (p n : Nat) (st : Status) : SameData s (s.lastRefuse p n st) :=
  ((setF_sameData s 0 _ _).trans (setF_sameData _ 0 _ _)).trans (setF_sameData _ 0 _ _)

theorem fld_lastRefuse_of_apart {g : Fld} (hstatus : MGT.LAST_REFUSE.STATUS.Apart g) (hpoint : MGT.LAST_REFUSE.POINT.Apart g)
    (hstep : MGT.LAST_REFUSE.STEP.Apart g) (s : State) (u p n : Nat) (st : Status) : (s.lastRefuse p n st).fld u g = s.fld u g :=
  (fld_setF_of_apart hstep _ 0 u n).trans ((fld_setF_of_apart hpoint _ 0 u p).trans (fld_setF_of_apart hstatus s 0 u st.code))

theorem status_code_lt (st : Status) : st.code < 2 ^ MGT.LAST_REFUSE.STATUS.w := by
  cases st <;> decide

/-- The three fields of MGT.LAST_REFUSE hold what is written to them. -/
theorem fld_lastRefuse (s : State) {p n : Nat} (st : Status) (hp : p < 2 ^ MGT.LAST_REFUSE.POINT.w) (hn : n < 2 ^ MGT.LAST_REFUSE.STEP.w) :
    (s.lastRefuse p n st).fld 0 MGT.LAST_REFUSE.STATUS = st.code ∧ (s.lastRefuse p n st).fld 0 MGT.LAST_REFUSE.POINT = p ∧
      (s.lastRefuse p n st).fld 0 MGT.LAST_REFUSE.STEP = n := by
  simp only [State.lastRefuse, State.setFs, List.foldl_cons, List.foldl_nil]
  refine ⟨?status, ?point, ?step⟩
  case status =>
    rw [fld_setF_of_apart (by decide), fld_setF_of_apart (by decide), fld_setF_self _ _ _ _ (by decide), Nat.mod_eq_of_lt (status_code_lt st)]
  case point => rw [fld_setF_of_apart (by decide), fld_setF_self _ _ _ _ (by decide), Nat.mod_eq_of_lt hp]
  case step => rw [fld_setF_self _ _ _ _ (by decide), Nat.mod_eq_of_lt hn]

/-- Beside MGT.LAST_REFUSE, a refusal's note is a report. -/
theorem noteRefusal_reportsOnly (s : State) (f : Frame) (x : Option Session) (n : Nat) (st : Status) :
    ReportsOnly (s.lastRefuse f.point n st) (s.noteRefusal f x n st) := by
  have hbits := ((ReportsOnly.rfl (s.lastRefuse f.point n st)).ite (p := n = 2 && x.isSome)
    (ev_reportsOnly (f := MGT.EVENTS.MAC_FAIL) (.inl (by decide)) (.inl (by decide)) _ 0)).ite (p := n = 3 && st = .deniedRole)
    (ev_reportsOnly (f := MGT.EVENTS.REPLAY) (.inl (by decide)) (.inl (by decide)) _ 0)
  exact hbits.ite ((ev_reportsOnly (.inl (by decide)) (.inl (by decide)) _ 0).trans (audit_reportsOnly _ _ _ _ _))

/-- A response shows the device's state and the twin role, and nothing else of the state. -/
theorem respFrame_congr {a b : State} (hstate : b.fld 0 MGT.STATE.DSTATE = a.fld 0 MGT.STATE.DSTATE)
    (hrole : b.fld 0 TWA.STATUS.ROLE = a.fld 0 TWA.STATUS.ROLE) (f : Frame) (x : Option Session) (ex : Bool) (st : Status) (pl : List Byte) :
    respFrame b f x ex st pl = respFrame a f x ex st pl := by
  simp only [respFrame, hstate, hrole]

/-- A field beside MGT.LAST_REFUSE and the reports reads through the note of a refusal. -/
theorem fld_noteRefusal {g : Fld} (hstatus : MGT.LAST_REFUSE.STATUS.Apart g) (hpoint : MGT.LAST_REFUSE.POINT.Apart g)
    (hstep : MGT.LAST_REFUSE.STEP.Apart g) (hg : BesideReports g) (s : State) (u : Nat) (f : Frame) (x : Option Session) (n : Nat) (st : Status) :
    (s.noteRefusal f x n st).fld u g = s.fld u g :=
  ((noteRefusal_reportsOnly s f x n st).fld u g hg).trans (fld_lastRefuse_of_apart hstatus hpoint hstep s u _ n st)

/-- The response to a refusal is the one the state before it would give: the note writes neither the device's state nor the role. -/
theorem respFrame_noteRefusal (s : State) (f : Frame) (x : Option Session) (n : Nat) (st : Status) :
    respFrame (s.noteRefusal f x n st) f x false st [] = respFrame s f x false st [] :=
  respFrame_congr (fld_noteRefusal (by decide) (by decide) (by decide) (besideReports_of_place (by decide) (by decide)) ..)
    (fld_noteRefusal (by decide) (by decide) (by decide) (besideReports_of_place (by decide) (by decide)) ..) ..

/-- A refused request changes no stored data and no mailbox, stands in MGT.LAST_REFUSE, and is answered with EXECUTED clear. -/
theorem refuseReq_spec (s : State) {f : Frame} (x : Option Session) {n : Nat} (st : Status) (hp : f.point < 2 ^ MGT.LAST_REFUSE.POINT.w)
    (hn : n < 2 ^ MGT.LAST_REFUSE.STEP.w) :
    SameData s (s.refuseReq f x n st) ∧ (s.refuseReq f x n st).mb = s.mb ∧
      (s.refuseReq f x n st).fld 0 MGT.LAST_REFUSE.STATUS = st.code ∧ (s.refuseReq f x n st).fld 0 MGT.LAST_REFUSE.POINT = f.point ∧
      (s.refuseReq f x n st).fld 0 MGT.LAST_REFUSE.STEP = n ∧
      Out.mailbox f.point (frameBytes (respFrame s f x false st [])) ∈ (s.refuseReq f x n st).out := by
  obtain ⟨hdata, hmb, -, hfld⟩ : ReportsOnly (s.lastRefuse f.point n st) (s.refuseReq f x n st) :=
    (noteRefusal_reportsOnly s f x n st).trans (respond_reportsOnly _ _ _)
  obtain ⟨hstatus, hpoint, hstep⟩ := fld_lastRefuse s st hp hn
  refine ⟨(lastRefuse_sameData s _ n st).trans hdata, hmb, ?status, ?point, ?step, ?answer⟩
  case status => exact (hfld 0 _ (besideReports_of_place (by decide) (by decide))).trans hstatus
  case point => exact (hfld 0 _ (besideReports_of_place (by decide) (by decide))).trans hpoint
  case step => exact (hfld 0 _ (besideReports_of_place (by decide) (by decide))).trans hstep
  case answer =>
    rw [refuseReq_eq_respond, respFrame_noteRefusal]
    exact mailbox_mem_respond ..

/-- The points that requests reach are the 15 mailboxes. -/
theorem pointServed_lt {d : DState} {p : Nat} (h : pointServed d p) : p < 15 := by
  unfold pointServed at h
  split at h
  iterate 4 · cases h
  iterate 3 · exact (beq_iff_eq.mp h).trans_lt (by decide)
  · exact of_decide_eq_true h

theorem admitOpen_refuse_step {c : Cmd} {f : Frame} {s : State} {n : Nat} {st : Status} (h : c.admitOpen f s = .refuse n st) : n ≤ 7 := by
  unfold Cmd.admitOpen at h
  split_ifs at h <;> cases h <;> decide

theorem admitIn_refuse_step {c : Cmd} {f : Frame} {x : Session} {s : State} {n : Nat} {st : Status} (h : c.admitIn f x s = .refuse n st) :
    n ≤ 7 := by
  unfold Cmd.admitIn at h
  split_ifs at h <;> cases h <;> decide

/-- The checks before step 8 are numbered 1 to 7. -/
theorem admission_refuse_step {c : Cmd} {f : Frame} {s : State} {n : Nat} {st : Status} (h : c.admission f s = .refuse n st) : n ≤ 7 := by
  unfold Cmd.admission at h
  split at h
  · cases h; decide
  · split at h
    · cases h; decide
    · exact admitOpen_refuse_step h
    · exact admitIn_refuse_step h

/-- Settles O11: the row answers `refuseReq` on the state whose queue no longer holds the frame, which stores what `s` stores. -/
theorem refusedRequestsHaveNoEffect : Obligations.RefusedRequestsHaveNoEffect := by
  intro i c f0 f s n st hreq hf hwait hserved hs1 hs2 htarget hrefused
  have hexec : exec i s = .next ((s.takeInput f).refuseReq f ((s.takeInput f).namedSession f) n st) := by
    rw [exec_request hreq, mailbox_awake hf hwait hserved hs1 hs2 htarget, hrefused, Cmd.answer]
  have hpoint : f.point < 2 ^ MGT.LAST_REFUSE.POINT.w := (pointServed_lt hserved).trans (by decide)
  have hstep : n < 2 ^ MGT.LAST_REFUSE.STEP.w := (Nat.lt_succ_of_le (admission_refuse_step hrefused)).trans (by decide)
  obtain ⟨hdata, hmb, hnoted⟩ := refuseReq_spec (s.takeInput f) ((s.takeInput f).namedSession f) st hpoint hstep
  exact ⟨_, hexec, hdata, (congrArg Mailboxes.sessions hmb).trans rfl, hnoted⟩

end Sys2Proof.Machine

/-! SUPPORT. Loss of VAON (R342): what the end of sessions and an operation of the store cut short (R422) leave. -/

namespace Sys2Proof.Machine

/-! ### What outlives the supplies -/

/-- What is nonvolatile beside the bytes of the store: fuses, store records, what Firn has in the deep tier, the deep tier's flash. -/
def State.nonvolatile (s : State) : List Host.Cell × Nv × Firn × DeepSt := (s.otp, s.nv, s.firn, s.deep)

/-- The end of a session changes mailboxes, its register, its key slot and an update that it began. -/
theorem endSession_kept {β : Type} (π : State → β) (hmb : ∀ a m, π { a with mb := m } = π a) (hset : ∀ a t f v, π (a.setF t f v) = π a)
    (hslot : ∀ a n k, π (a.setSlot n k) = π a) (hboot : ∀ a b, π { a with boot := b } = π a) (s : State) (p : Nat) :
    π (s.endSession p) = π s := by
  unfold State.endSession
  split
  · rfl
  · dsimp only
    split
    · split
      · rw [hboot, hslot, hset, hmb]
      · rw [hslot, hset, hmb]
    · rw [hslot, hset, hmb]

theorem endAllSessions_mem (s : State) : s.endAllSessions.mem = s.mem :=
  foldl_kept State.mem (endSession_kept State.mem (fun _ _ => rfl) (fun _ _ _ _ => rfl) (fun _ _ _ => rfl) (fun _ _ => rfl)) _ s

theorem endAllSessions_nvs (s : State) : s.endAllSessions.nvs = s.nvs :=
  foldl_kept State.nvs (endSession_kept State.nvs (fun _ _ => rfl) (fun _ _ _ _ => rfl) (fun _ _ _ => rfl) (fun _ _ => rfl)) _ s

theorem endAllSessions_nonvolatile (s : State) : s.endAllSessions.nonvolatile = s.nonvolatile :=
  foldl_kept State.nonvolatile
    (endSession_kept State.nonvolatile (fun _ _ => rfl) (fun _ _ _ _ => rfl) (fun _ _ _ => rfl) (fun _ _ => rfl)) _ s

/-! ### An operation of the store cut short (R422) -/

theorem array_updArray_self (s : State) (t : Nat) (f : NvsTile → NvsTile) : (s.updArray t f).array t = f (s.array t) :=
  amapGet_set_self ..

theorem array_updArray_ne {t u : Nat} (h : u ≠ t) (s : State) (f : NvsTile → NvsTile) : (s.updArray t f).array u = s.array u :=
  amapGet_set_ne _ _ _ _ h

theorem array_congr {a b : State} (h : b.nvs = a.nvs) (t : Nat) : b.array t = a.array t := by
  rw [State.array, h, State.array]

/-- A PROGRAM in progress is writing the word that holds the byte of key k. -/
def State.Programming (s : State) (k : Nat) : Prop :=
  ∃ u o, (s.array u).busy = some o ∧ o.op = 1 ∧ KeyIn .nvs u (o.addr / 8 * 8) 8 k

/-- A change of an array to idle, on a state whose other arrays are busy as those of `s`. -/
theorem busy_updArray_idle {s a : State} {t u : Nat} {f : NvsTile → NvsTile} (hf : ∀ x, (f x).busy = none)
    (ha : u ≠ t → (a.array u).busy = (s.array u).busy) : ((a.updArray t f).array u).busy = if u = t then none else (s.array u).busy := by
  split
  · next hu => rw [hu, array_updArray_self, hf]
  · next hu => rw [array_updArray_ne hu, ha hu]

/-- An operation cut short leaves its array idle and every other as it was. -/
theorem busy_cutShort (s : State) (t u : Nat) : ((s.cutShort t).array u).busy = if u = t then none else (s.array u).busy := by
  unfold State.cutShort
  split
  · next hnone =>
    split
    · split
      · next hu => rw [hu, hnone]
      · rfl
    · exact busy_updArray_idle (fun _ => rfl) (fun _ => rfl)
  · dsimp only
    split
    · refine busy_updArray_idle (fun _ => rfl) (fun hu => ?_)
      split
      · rfl
      · split
        · rfl
        · rw [array_updArray_ne hu]; rfl
    · split <;> exact busy_updArray_idle (fun _ => rfl) (fun _ => rfl)

theorem byte_cutShort {s : State} {sp : Space} {u a : Nat} (h : ¬s.Programming (memKey sp u a)) (t : Nat) :
    (s.cutShort t).byte sp u a = s.byte sp u a := by
  unfold State.cutShort
  split
  · split <;> rfl
  · next o hbusy =>
    dsimp only
    split
    · next hprogram =>
      split
      · have hop : o.op = 1 := by simp_all
        exact byte_wipe_of_not_keyIn s (fun hk => h ⟨t, o, hbusy, hop, hk⟩)
      · split <;> rfl
    · split <;> rfl

theorem cutShort_nonvolatile (s : State) (t : Nat) : (s.cutShort t).nonvolatile = s.nonvolatile := by
  unfold State.cutShort
  split
  · split <;> rfl
  · dsimp only
    split
    · split
      · rfl
      · split <;> rfl
    · split <;> rfl

theorem programming_of_cutShort {s : State} {t k : Nat} (h : (s.cutShort t).Programming k) : s.Programming k := by
  obtain ⟨u, o, hbusy, hop, hk⟩ := h
  rw [busy_cutShort] at hbusy
  split at hbusy
  · cases hbusy
  · exact ⟨u, o, hbusy, hop, hk⟩

/-- On every tile, what is cut short changes no byte but those of words that a PROGRAM is writing. -/
theorem byte_allTiles_cutShort {s : State} {sp : Space} {u a : Nat} (h : ¬s.Programming (memKey sp u a)) :
    (s.allTiles (fun t x => x.cutShort t)).byte sp u a = s.byte sp u a :=
  (List.foldlRecOn (motive := fun (x : State) => ¬x.Programming (memKey sp u a) ∧ x.byte sp u a = s.byte sp u a) _ _ ⟨h, rfl⟩
    (fun _ ⟨hidle, hbyte⟩ t _ => ⟨fun k => hidle (programming_of_cutShort k), (byte_cutShort hidle t).trans hbyte⟩)).2

/-! ### The state after VAON is lost -/

/-- What `loseVolatile` starts from: every session ended, every operation of the store cut short. -/
def State.stopped (s : State) : State := s.endAllSessions.allTiles (fun t a => a.cutShort t)

theorem stopped_nonvolatile (s : State) : s.stopped.nonvolatile = s.nonvolatile :=
  (allTiles_kept State.nonvolatile (fun t a => cutShort_nonvolatile a t) _).trans (endAllSessions_nonvolatile s)

theorem programming_congr {a b : State} (h : b.nvs = a.nvs) {k : Nat} (hb : b.Programming k) : a.Programming k := by
  obtain ⟨u, o, hbusy, hop, hk⟩ := hb
  exact ⟨u, o, (congrArg NvsTile.busy (array_congr h u)).symm.trans hbusy, hop, hk⟩

theorem byte_stopped {s : State} {sp : Space} {u a : Nat} (h : ¬s.Programming (memKey sp u a)) : s.stopped.byte sp u a = s.byte sp u a :=
  (byte_allTiles_cutShort (fun hp => h (programming_congr (endAllSessions_nvs s) hp))).trans (byte_congr (endAllSessions_mem s) sp u a)

/-- The always-on domain gone after the rails: its registers, the two-wire bus, the hold-up converter and any sleep entry. -/
def State.dark (s : State) : State :=
  { s.loseVolatile with
    regs := [], twb := State.reset.twb, pow := { s.pow with vaon := false, huTload := false, target := 0, entryStep := 0 } }

/-- The device without VAON: OFF, with the partner's level of TW_ACTI (R285). -/
def State.vaonOff (s : State) : State := (s.dark.setF 0 MGT.STATE.DSTATE 0).setF 0 TWA.STATUS.ACTI (s.fld 0 TWA.STATUS.ACTI)

theorem exec_vaonLost {s : State} (h : s.dstate ≠ .off) : exec .vaonLost s = .next s.vaonOff :=
  congrArg Host.Outcome.next (if_neg (by simpa using h))

theorem vaonOff_dstate (s : State) : s.vaonOff.dstate = .off := by
  have hcode : s.vaonOff.fld 0 MGT.STATE.DSTATE = 0 := (fld_setF_of_apart (by decide) _ 0 0 _).trans (fld_setF_self _ 0 _ 0 (by decide))
  rw [State.dstate, hcode, DState.ofCode]

/-- Main and near tier lie below space 2, of which nothing is kept. -/
theorem byte_loseVolatile_below {sp : Space} {t a : Nat} (h : memKey sp t a < 2 * 2 ^ 68) (s : State) :
    s.loseVolatile.byte sp t a = 0 := by
  have hgone : s.loseVolatile.byte sp t a = erasedByte (memKey sp t a) :=
    amapGet_filter_out _ _ _ _ (fun _ => by simp only [decide_eq_false (Nat.not_le.mpr h), Bool.false_and])
  have hspace : memKey sp t a / 2 ^ 68 ≠ 3 := by omega
  exact hgone.trans (if_neg hspace)

/-- The store lies in space 3, which is kept whole. -/
theorem byte_loseVolatile_store {s : State} {t a : Nat} (ht : t < 256) (ha : a < 2 ^ 60) :
    s.loseVolatile.byte .nvs t a = s.stopped.byte .nvs t a := by
  have hkey : 2 * 2 ^ 68 ≤ memKey .nvs t a ∧ memKey .nvs t a < 4 * 2 ^ 68 := by
    simp only [memKey, Space.code]
    omega
  exact amapGet_filter_in _ _ _ _ (fun _ => by simp only [decide_eq_true hkey.1, decide_eq_true hkey.2, Bool.true_or, Bool.and_self])

/-- The supplies take sessions, connections and keys. -/
theorem vaonOff_volatile (s : State) : s.vaonOff.mb.sessions = [] ∧ s.vaonOff.net.qps = [] ∧ s.vaonOff.kse = State.reset.kse := by
  simp only [State.vaonOff, State.setF_mb, State.setF_net, State.setF_kse]
  exact ⟨rfl, rfl, rfl⟩

/-- What is nonvolatile stays as `stopped` left it. -/
theorem vaonOff_nonvolatile (s : State) :
    s.vaonOff.otp = s.stopped.otp ∧ s.vaonOff.nv = s.stopped.nv ∧ s.vaonOff.firn.deep = s.stopped.firn.deep ∧
      s.vaonOff.firn.dumps = s.stopped.firn.dumps ∧ s.vaonOff.deep.flash = s.stopped.deep.flash ∧ s.vaonOff.deep.bad = s.stopped.deep.bad := by
  simp only [State.vaonOff, State.setF_otp, State.setF_nv, State.setF_firn, State.setF_deep]
  exact ⟨rfl, rfl, rfl, rfl, rfl, rfl⟩

theorem vaonOff_mem (s : State) : s.vaonOff.mem = s.loseVolatile.mem := by
  simp only [State.vaonOff, State.setF_mem]
  rfl

/-- Settles O33: sessions, connections and keys in use are those of reset; what is nonvolatile stands through the end of sessions and of the
store's operations; memory keeps the spaces from 2 on, the store among them. -/
theorem powerLossKeepsNonvolatile : Obligations.PowerLossKeepsNonvolatile := by
  intro s hoff
  have hkept := stopped_nonvolatile s
  simp only [State.nonvolatile, Prod.mk.injEq] at hkept
  obtain ⟨hotp, hnv, hfirn, hdeep⟩ := hkept
  obtain ⟨hsessions, hqps, hkse⟩ := vaonOff_volatile s
  have hrest := vaonOff_nonvolatile s
  rw [hotp, hnv, hfirn, hdeep] at hrest
  obtain ⟨hotp, hnv, hpages, hdumps, hflash, hbad⟩ := hrest
  refine ⟨_, exec_vaonLost hoff, vaonOff_dstate s, hsessions, hqps, hkse, hotp, hnv, hpages, hdumps, hflash, hbad,
    fun tile a htile ha => ⟨?main, ?near, fun hidle => ?store⟩⟩
  case main => exact (byte_congr (vaonOff_mem s) ..).trans (byte_loseVolatile_below (by simp only [memKey, Space.code]; omega) s)
  case near => exact (byte_congr (vaonOff_mem s) ..).trans (byte_loseVolatile_below (by simp only [memKey, Space.code]; omega) s)
  case store =>
    rw [byte_congr (vaonOff_mem s), byte_loseVolatile_store htile ha]
    exact byte_stopped (fun ⟨u, o, hbusy, hop, hk⟩ => hidle u o hbusy hop hk)

end Sys2Proof.Machine

/-! SUPPORT. Ciphers and keys: where a request at the engine ends whose slot has moved on to another generation (R399). -/

namespace Sys2Proof.Machine

/-! ### Stale requests (R399) -/

/-- With room in the queue, a well-formed request on a valid slot of another generation ends before the engine runs it: the slot's generation is
the first check that it fails. -/
theorem kseRequest_of_stale {s : State} {sub : Nat} {q : KseReq} (run : State → State) (hroom : s.fld 0 (kseFree sub) ≠ 0)
    (hwell : kseWellFormed q) (hop : q.op ≠ 4) (hvalid : (s.slot q.slot).valid) (hgen : (s.slot q.slot).gen ≠ q.slotGen) :
    s.kseRequest sub q run = s.kseDone sub q .stale 0 0 := by
  have hempty : ¬(q.op != 4 && !(s.slot q.slot).valid) := by simp [hvalid]
  have hstale : q.op != 4 && (s.slot q.slot).gen != q.slotGen := by simp [hop, hgen]
  rw [State.kseRequest, if_neg hroom, if_neg (by simp [hwell]), if_neg hempty, if_pos hstale]

/-- The STALE completion is the event and the answer to the submitter; the generation it names is the one the slot had before it. -/
theorem kseDone_stale (s : State) (sub : Nat) (q : KseReq) :
    s.kseDone sub q .stale 0 0 = (s.ev 0 KSE.EVENTS.STALE).send (.kse sub q.tag KStatus.stale.code
      (if q.flags.testBit 1 then (s.slot (q.dst % 64)).gen else (s.slot q.slot).gen) 0 0) := rfl

/-- ENC, DEC and CTR are requests at the engine, each of its own operation and none of them GENERATE, which names no slot. -/
theorem exec_cipher {sub : Nat} {q : KseReq} {i : Instr} {op : Nat} (s : State) (hsub : sub < 4)
    (hrow : (i, op) ∈ [(Instr.enc sub q, 1), (.dec sub q, 2), (.ctr sub q, 3)]) :
    op ≠ 4 ∧ ∃ run, exec i s = .next (s.kseRequest sub { q with op := op } run) := by
  simp only [List.mem_cons, Prod.mk.injEq, List.not_mem_nil, or_false] at hrow
  obtain ⟨rfl, rfl⟩ | ⟨rfl, rfl⟩ | ⟨rfl, rfl⟩ := hrow <;> exact ⟨by decide, _, onSubmitter_present hsub⟩

/-- Settles O23: whichever of the three the row is, its request ends at the check of the generation with the STALE completion, which changes
the event's registers and the outputs alone. -/
theorem staleKeyRequests : Obligations.StaleKeyRequests := by
  intro sub q s i op hsub hrow hroom hwell hvalid hgen
  obtain ⟨hop, run, hexec⟩ := exec_cipher s hsub hrow
  rw [kseRequest_of_stale run hroom hwell hop hvalid hgen, kseDone_stale] at hexec
  refine ⟨_, hexec, ?data, ?event, ?completion⟩
  case data => exact (ev_sameData ..).trans (send_sameData ..)
  case event => exact (fld_congr (State.send_regs ..) 0 _).trans (fld_ev_self s 0 _ rfl (by decide) (by decide))
  case completion => exact congrArg (List.cons _) (State.ev_out ..)

end Sys2Proof.Machine

/-! SUPPORT. Steps of the block: what every command and the idle microsecond keep, and what reset leaves. -/

namespace Sys2Proof.Machine

/-! ### Steps -/

/-- With no command waiting the block idles for a microsecond. -/
theorem step_of_empty {s : State} (h : s.pending = []) : step s = .next s.tick := by rw [step, h]

/-- With a command at the front of the queue a step runs it on the state with the queue's rest. -/
theorem step_of_cons {s : State} {c : Instr} {rest : List Instr} (h : s.pending = c :: rest) : step s = exec c { s with pending := rest } := by
  rw [step, h]

/-- The idle microsecond keeps what no command changes, counted from the state on the new microsecond. -/
theorem tick_keeps (s : State) : Keeps { s with now := s.now + 1 } s.tick := State.tick_keeps s (Keeps.rfl _)

/-- Whatever a step does beside the queue and the clock, it is kept by `Keeps`: `u` is the state that the step's work starts from. -/
theorem step_keeps {s t : State} (h : step s = .next t) :
    ∃ u : State, u.freeCtr = s.freeCtr ∧ u.mem = s.mem ∧ u.otp = s.otp ∧ Keeps u t := by
  cases hq : s.pending with
  | nil =>
    rw [step_of_empty hq] at h
    obtain rfl := Host.Outcome.next.inj h
    exact ⟨{ s with now := s.now + 1 }, rfl, rfl, rfl, tick_keeps s⟩
  | cons c rest =>
    rw [step_of_cons hq] at h
    exact ⟨{ s with pending := rest }, rfl, rfl, rfl, exec_keeps c _ (Keeps.rfl _) t h⟩

/-- Settles O8: the fuses that a step starts from are those of `s`, and a programmed one is kept. -/
theorem stepKeepsFuses : Obligations.StepKeepsFuses := by
  intro s t copy a h
  obtain ⟨u, -, -, hotp, -, -, -, hfuses⟩ := step_keeps h
  have := hfuses copy a
  rwa [State.otpByte, hotp] at this

/-- Settles O7: the memory and fuses that a step starts from are those of `s`, in canonical form. -/
theorem stepKeepsCanonical : Obligations.StepKeepsCanonical := by
  intro s t hs h
  obtain ⟨u, -, hmem, hotp, -, -, hcanon, -⟩ := step_keeps h
  refine hcanon ?_
  rwa [State.canonical, hmem, hotp]

/-- Settles O9: the counter that a step starts from is that of `s`. -/
theorem freeValuesStayFresh : Obligations.FreeValuesStayFresh := by
  intro s t h
  obtain ⟨u, hctr, -, -, -, hle, -⟩ := step_keeps h
  exact hctr ▸ hle

/-- Settles O2: the step is the idle microsecond, which keeps all but the clock. -/
theorem idleStepPassesTime : Obligations.IdleStepPassesTime := by
  intro s hq
  obtain ⟨⟨hpending, hnow, htiles, hboard⟩, hctr, hcanon, hfuses⟩ := tick_keeps s
  exact ⟨s.tick, step_of_empty hq, hpending.trans hq, hnow, htiles, hboard, hctr, hfuses, hcanon⟩

/-- Settles O3: the command runs on the state with the queue's rest, and no command changes its queue. -/
theorem stepTakesOneCommand : Obligations.StepTakesOneCommand := by
  intro c rest s t hq h
  rw [step_of_cons hq] at h
  exact (exec_keeps c _ (Keeps.rfl _) t h).1

/-- Settles O1: a command stands at the front of the queue. -/
theorem stepTakesFront : Obligations.StepTakesFront := fun _ _ _ => step_of_cons rfl

/-- Settles O5: a register that nothing has written reads its reset word, and reset lists none. -/
theorem resetState : Obligations.ResetState := ⟨rfl, rfl, rfl, rfl, word_reset⟩

/-- Settles O6: no memory is listed; the fuses listed are the identity granule of each copy. -/
theorem resetCanonical : Obligations.ResetCanonical := by
  unfold Obligations.ResetCanonical
  decide

end Sys2Proof.Machine

/-! SUPPORT. The twin signal line: the periods of Table 20.12, the words they spell, and the row that hears one (R282, R499). -/

namespace Sys2Proof.Machine

/-! ### Periods and words -/

/-- A period within the windows of a bit stands for that bit. -/
theorem hbSymbol_of_bit {p : Nat × Nat} {b : Bool} (hp : 900 ≤ p.1 ∧ p.1 ≤ 1100)
    (hb : if b then 650 ≤ p.2 ∧ p.2 ≤ 850 else 150 ≤ p.2 ∧ p.2 ≤ 350) : hbSymbol p = some b.toNat := by
  cases b with
  | false =>
    obtain ⟨hlo, hhi⟩ : 150 ≤ p.2 ∧ p.2 ≤ 350 := hb
    rw [hbSymbol, if_neg (by simp; omega), if_pos (by simp; omega), Bool.toNat_false]
  | true =>
    obtain ⟨hlo, hhi⟩ : 650 ≤ p.2 ∧ p.2 ≤ 850 := hb
    rw [hbSymbol, if_neg (by simp; omega), if_neg (by simp; omega), if_pos (by simp; omega), Bool.toNat_true]

/-- A period within the windows of the start mark stands for it. -/
theorem hbSymbol_of_start {p : Nat × Nat} (hp : 900 ≤ p.1 ∧ p.1 ≤ 1100) (h : 400 ≤ p.2 ∧ p.2 ≤ 600) : hbSymbol p = some 2 := by
  rw [hbSymbol, if_neg (by simp; omega), if_neg (by simp; omega), if_neg (by simp; omega), if_pos (by simp; omega)]

/-- A period outside every window stands for nothing. -/
theorem hbSymbol_of_outside {p : Nat × Nat}
    (h : p.1 < 900 ∨ 1100 < p.1 ∨ p.2 < 150 ∨ (350 < p.2 ∧ p.2 < 400) ∨ (600 < p.2 ∧ p.2 < 650) ∨ 850 < p.2) : hbSymbol p = none := by
  unfold hbSymbol
  split
  · rfl
  · next hlen =>
    simp only [Bool.or_eq_true, decide_eq_true_eq] at hlen
    rw [if_neg (by simp; omega), if_neg (by simp; omega), if_neg (by simp; omega)]

/-- Periods that stand for the low bits of `w`, most significant first, shift those bits into the word read so far. -/
theorem hbBits_of_bits {w : Nat} {l : List (Nat × Nat)} (v : Nat)
    (h : ∀ i p, l[i]? = some p → hbSymbol p = some (w.testBit (l.length - 1 - i)).toNat) :
    hbBits l v = some (v * 2 ^ l.length + w % 2 ^ l.length) := by
  induction l generalizing v with
  | nil => simp [hbBits, Nat.mod_one]
  | cons p l ih =>
    have hhead : hbSymbol p = some (w.testBit l.length).toNat := h 0 p rfl
    have htail := ih (2 * v + (w.testBit l.length).toNat) (fun i q hq => by
      have := h (i + 1) q hq
      rwa [List.length_cons, show l.length + 1 - 1 - (i + 1) = l.length - 1 - i by omega] at this)
    have hbit : (w.testBit l.length).toNat ≠ 2 := by have := Bool.toNat_lt (w.testBit l.length); omega
    simp only [hbBits, hhead, if_neg hbit, htail, List.length_cons, Nat.mod_pow_succ, ← Nat.toNat_testBit]
    congr 1
    ring

/-- A period that stands for nothing spoils the bits. -/
theorem hbBits_of_invalid {p : Nat × Nat} {l : List (Nat × Nat)} (hp : hbSymbol p = none) (hmem : p ∈ l) (v : Nat) : hbBits l v = none := by
  induction l generalizing v with
  | nil => cases hmem
  | cons q l ih =>
    obtain rfl | htail := List.mem_cons.mp hmem
    · rw [hbBits, hp]
    · unfold hbBits
      split
      · split
        · rfl
        · exact ih htail _
      · rfl

/-- The start mark and 32 periods that stand for the bits of `w` decode to `w`. -/
theorem hbDecode_of_bits {w : Nat} {p : Nat × Nat} {l : List (Nat × Nat)} (hw : w < 2 ^ 32) (hp : hbSymbol p = some 2) (hl : l.length = 32)
    (h : ∀ i q, l[i]? = some q → hbSymbol q = some (w.testBit (31 - i)).toNat) : hbDecode (p :: l) = some w := by
  have hbits := hbBits_of_bits (w := w) (l := l) 0 (by rwa [hl])
  rw [hl, Nat.zero_mul, Nat.zero_add, Nat.mod_eq_of_lt hw] at hbits
  rw [hbDecode, if_pos (by simp [hp, hl]), hbits]

/-- A word with a period that stands for nothing is invalid, wherever the period stands in it. -/
theorem hbDecode_of_invalid {p : Nat × Nat} {l : List (Nat × Nat)} (hp : hbSymbol p = none) (hmem : p ∈ l) : hbDecode l = none := by
  cases l with
  | nil => rfl
  | cons q l =>
    rw [hbDecode]
    split
    · next hq =>
      have hstart : hbSymbol q = some 2 := by simp_all
      obtain rfl | htail := List.mem_cons.mp hmem
      · rw [hp] at hstart; cases hstart
      · exact hbBits_of_invalid hp htail 0
    · rfl

/-- What the device drives for a word reads back as the word. -/
theorem hbDecode_hbEncode {w : Nat} (hw : w < 2 ^ 32) : hbDecode (hbEncode w) = some w := by
  refine hbDecode_of_bits hw (hbSymbol_of_start (by decide) (by decide)) (by simp) (fun i q hq => ?_)
  obtain ⟨j, hj, rfl⟩ : ∃ j, (List.range 32)[i]? = some j ∧ (1000, if w.testBit (31 - j) then 750 else 250) = q := by simpa using hq
  obtain ⟨-, rfl⟩ : i < 32 ∧ i = j := by simpa [List.getElem?_eq_some_iff] using hj
  exact hbSymbol_of_bit ⟨by omega, by omega⟩ (by cases w.testBit (31 - i) <;> decide)

/-! ### HEARTBEAT_WORD -/

/-- In a powered state a word is heard, or counted where it is invalid. -/
theorem exec_heartbeatWord {l : List (Nat × Nat)} {pad : Bool} {s : State} (hs : s.dstate ∉ [.off, .aonOnly, .s3]) :
    exec (.heartbeatWord l pad) s =
      .next (match hbDecode l with | some w => s.hearPin w pad | none => s.bump 0 TWA.HB_CRC_ERR.COUNT 1) := by
  have hpowered : ¬(s.dstate == .off || s.dstate == .aonOnly || s.dstate == .s3) := by simpa [and_assoc] using hs
  exact congrArg Host.Outcome.next (if_neg hpowered)

theorem exec_heartbeatWord_invalid {l : List (Nat × Nat)} {pad : Bool} {s : State} (hs : s.dstate ∉ [.off, .aonOnly, .s3])
    (h : hbDecode l = none) : exec (.heartbeatWord l pad) s = .next (s.bump 0 TWA.HB_CRC_ERR.COUNT 1) := by
  rw [exec_heartbeatWord hs, h]

/-- Settles O60: the periods decode to the bits that their windows stand for, what the device drives lies in them, and a period outside
every window makes the word invalid. -/
theorem heartbeatLineDecodes : Obligations.HeartbeatLineDecodes := by
  refine ⟨fun w p0 l hw hl hlen hstart hbits => ?line, fun w hw => hbDecode_hbEncode hw, fun l p pad s hs hmem hout => ?outside⟩
  case line =>
    exact hbDecode_of_bits hw (hbSymbol_of_start (hlen p0 List.mem_cons_self) hstart) hl
      (fun i q hq => hbSymbol_of_bit (hlen q (List.mem_cons_of_mem _ (List.mem_of_getElem? hq))) (hbits i q hq))
  case outside => exact exec_heartbeatWord_invalid hs (hbDecode_of_invalid (hbSymbol_of_outside hout) hmem)

end Sys2Proof.Machine

/-! SUPPORT. The nonvolatile store: the unlock sequence and its failures (R419), PROGRAM (R420). -/

namespace Sys2Proof.Machine

/-! ### Fields and arrays after the shared operations -/

/-- A recorded event leaves every field apart from its bit and its block's counter, but for those of the recorder. -/
theorem fld_evRec_of_apart {f g : Fld} (h : f.Apart g) (hcnt : (evtCnt f.blk).Apart g) (hb : g.blk < 256) (ho : g.off < 2 ^ 20)
    (hg : g.blk ≠ EVR.EVENTS.LOST.blk) (s : State) (t u arg : Nat) : (s.evRec t f arg).fld u g = s.fld u g :=
  (fld_enqueueRec _ t u _ hb ho hg).trans (fld_ev_of_apart h hcnt s t u)

theorem bytes_congr {a b : State} (h : b.mem = a.mem) (sp : Space) (t : Nat) : ∀ x n, b.bytes sp t x n = a.bytes sp t x n
  | _, 0 => rfl
  | x, n + 1 => by rw [State.bytes, byte_congr h, bytes_congr h sp t (x + 1) n, State.bytes]

theorem updArray_mem (s : State) (t : Nat) (f : NvsTile → NvsTile) : (s.updArray t f).mem = s.mem := rfl

theorem fld_updArray (s : State) (t u : Nat) (f : NvsTile → NvsTile) (g : Fld) : (s.updArray t f).fld u g = s.fld u g := rfl

/-! ### The unlock sequence (R419) -/

theorem exec_nvsKeyWrite {s : State} {t : Nat} (master value : Nat) (late : Bool) (ht : t < s.tiles) :
    exec (.nvsKeyWrite t master value late) s = .next (s.nvsKey t master value late) := onTile_present ht

/-- A key written while the array is busy is an event and nothing else. -/
theorem nvsKey_busy {s : State} {t : Nat} (master value : Nat) (late : Bool) (h : s.flag t NVS.CMD.BUSY) :
    s.nvsKey t master value late = s.ev t NVS.EVENTS.KEY_FAIL := if_pos h

/-- After the first key only the right second key, in time and from the same master, does not fail. -/
theorem nvsKey_secondFails {s : State} {t master value : Nat} {late : Bool} (hidle : ¬s.flag t NVS.CMD.BUSY) (hstep : (s.array t).step = 1)
    (h : value ≠ 0x93E8 ∨ late = true ∨ (s.array t).master ≠ master) : s.nvsKey t master value late = s.nvsKeyFail t := by
  rw [State.nvsKey, if_neg hidle, if_neg (by omega)]
  by_cases hmaster : (s.array t).master = master
  · have hkey : ¬(value = 0x93E8 && !late) := by
      obtain hv | hl | hm := h
      · simp [hv]
      · simp [hl]
      · exact absurd hmaster hm
    rw [if_neg (by simp [hmaster]), if_pos hstep, if_neg hkey]
  · rw [if_pos (by simpa using hmaster)]

/-- A failed key locks the array, is noted and changes no memory. -/
theorem nvsKeyFail_spec (s : State) (t : Nat) :
    ((s.nvsKeyFail t).array t).step = 0 ∧ (s.nvsKeyFail t).mem = s.mem ∧ (s.nvsKeyFail t).fld t NVS.STATUS.UNLOCKED = 0 ∧
      (s.nvsKeyFail t).fld t NVS.EVENTS.KEY_FAIL = 1 := by
  refine ⟨?step, ?mem, ?unlocked, ?event⟩
  case step =>
    rw [State.nvsKeyFail, State.nvsLock, array_congr ((State.ev_nvs ..).trans (State.setF_nvs ..)), array_updArray_self]
  case mem => exact (State.ev_mem ..).trans (State.setF_mem ..)
  case unlocked => exact (fld_ev_of_apart (by decide) (by decide) _ t t).trans (fld_setF_self _ t _ 0 (by decide))
  case event => exact fld_ev_self _ t _ rfl (by decide) (by decide)

/-- Settles O22: a key while busy is the event alone; a second key that fails locks the array. -/
theorem storeKeyFailures : Obligations.StoreKeyFailures := by
  refine fun tile master value late s ht => ⟨fun hbusy => ?busy, fun hidle hstep h => ?second⟩
  case busy =>
    exact ⟨_, (exec_nvsKeyWrite master value late ht).trans (congrArg _ (nvsKey_busy master value late hbusy)), State.ev_nvs .., State.ev_mem ..,
      fld_ev_self s tile _ rfl (by decide) (by decide)⟩
  case second =>
    exact ⟨_, (exec_nvsKeyWrite master value late ht).trans (congrArg _ (nvsKey_secondFails hidle hstep h)), nvsKeyFail_spec s tile⟩

/-! ### PROGRAM (R420) -/

/-- The array as an operation finds it: locked again, busy, with the address of its word. -/
def State.nvsBegun (s : State) (t addr : Nat) : State := ((s.nvsLock t).setF t NVS.CMD.BUSY 1).setF t NVS.ADDR.WORD (addr / 8)

/-- An operation on an array that this master unlocked runs, and its result is due. -/
theorem nvsStart_unlocked {s : State} {t master addr : Nat} (op : Nat) (run : State → State × Nat) (hstep : (s.array t).step = 2)
    (hmaster : (s.array t).master = master) (haddr : addr < 0x800000) :
    s.nvsStart t master op addr run = (run (s.nvsBegun t addr)).1.updArray t (fun a =>
      { a with busy := some ⟨op, addr, (run (s.nvsBegun t addr)).2⟩ }) := by
  rw [State.nvsStart, if_neg (by omega), if_neg (by simp [hmaster]), if_neg (by omega)]
  simp only [if_pos haddr, State.nvsBegun]

/-- The state that PROGRAM works on: the operation has begun and the data registers hold the word's data. -/
def State.programBegun (s : State) (t addr data : Nat) : State :=
  ((s.nvsBegun t addr).setF t NVS.DATA_LO.DATA data).setF t NVS.DATA_HI.DATA (data / 2 ^ 32)

theorem exec_program {s : State} {t master addr : Nat} (data pulses : Nat) (ht : t < s.tiles) (hstep : (s.array t).step = 2)
    (hmaster : (s.array t).master = master) (haddr : addr < 0x800000) :
    exec (.program t master addr data pulses) s =
      .next (((s.programBegun t addr data).nvsProgram t addr data pulses).1.updArray t (fun a =>
        { a with busy := some ⟨1, addr, ((s.programBegun t addr data).nvsProgram t addr data pulses).2⟩ })) :=
  (onTile_present ht).trans (congrArg Host.Outcome.next (nvsStart_unlocked 1 _ hstep hmaster haddr))

theorem programBegun_mem (s : State) (t addr data : Nat) : (s.programBegun t addr data).mem = s.mem := by
  simp only [State.programBegun, State.nvsBegun, State.nvsLock, State.setF_mem, updArray_mem]

theorem array_programBegun (s : State) (t addr data : Nat) : (s.programBegun t addr data).array t = { s.array t with step := 0 } := by
  rw [State.programBegun, State.nvsBegun, State.nvsLock, array_congr (by simp only [State.setF_nvs]; rfl), array_updArray_self]

theorem fld_programBegun_busy (s : State) (t addr data : Nat) : (s.programBegun t addr data).fld t NVS.CMD.BUSY = 1 := by
  rw [State.programBegun, State.nvsBegun, fld_setF_of_apart (by decide), fld_setF_of_apart (by decide), fld_setF_of_apart (by decide)]
  exact fld_setF_bit _ t NVS.CMD.BUSY rfl (by decide)

/-- Whether a word is erased lies in memory and in the array's bad words, neither of which the start of an operation touches. -/
theorem wordErased_programBegun (s : State) (t addr data w : Nat) : (s.programBegun t addr data).wordErased t w = s.wordErased t w := by
  simp only [State.wordErased, array_programBegun, bytes_congr (programBegun_mem s t addr data)]

/-- What pulses on word `w` of tile `t`, and the notes of them, leave: the array's BUSY and step, and every byte but those of the word. -/
def ProgramFrame (t w : Nat) (a b : State) : Prop :=
  b.fld t NVS.CMD.BUSY = a.fld t NVS.CMD.BUSY ∧ (b.array t).step = (a.array t).step ∧
    ∀ (sp : Space) (u x : Nat), u < 256 → x < 2 ^ 60 → ¬(sp = .nvs ∧ u = t ∧ w * 8 ≤ x ∧ x < w * 8 + 8) → b.byte sp u x = a.byte sp u x

section
variable {t w : Nat} {a b c : State}

theorem ProgramFrame.trans (h : ProgramFrame t w a b) (k : ProgramFrame t w b c) : ProgramFrame t w a c := by
  obtain ⟨hbusy, hstep, hbyte⟩ := h
  obtain ⟨kbusy, kstep, kbyte⟩ := k
  exact ⟨kbusy.trans hbusy, kstep.trans hstep, fun sp u x hu hx hout => (kbyte sp u x hu hx hout).trans (hbyte sp u x hu hx hout)⟩

/-- What changes no memory leaves every byte. -/
theorem ProgramFrame.of_mem (hbusy : b.fld t NVS.CMD.BUSY = a.fld t NVS.CMD.BUSY) (hstep : (b.array t).step = (a.array t).step)
    (hmem : b.mem = a.mem) : ProgramFrame t w a b :=
  ⟨hbusy, hstep, fun sp u x _ _ _ => byte_congr hmem sp u x⟩

theorem setF_programFrame {f : Fld} (h : f.Apart NVS.CMD.BUSY) (s : State) (v : Nat) : ProgramFrame t w s (s.setF t f v) :=
  .of_mem (fld_setF_of_apart h s t t v) (congrArg NvsTile.step (array_congr (State.setF_nvs ..) t)) (State.setF_mem ..)

theorem bump_programFrame {f : Fld} (h : f.Apart NVS.CMD.BUSY) (s : State) (n : Nat) : ProgramFrame t w s (s.bump t f n) :=
  setF_programFrame h s _

theorem ev_programFrame {f : Fld} (h : f.Apart NVS.CMD.BUSY) (hcnt : (evtCnt f.blk).Apart NVS.CMD.BUSY) (s : State) :
    ProgramFrame t w s (s.ev t f) :=
  (setF_programFrame h s 1).trans (bump_programFrame hcnt _ 1)

end

theorem setBytes_nvs (l : List Byte) : ∀ (s : State) (sp : Space) (t x : Nat), (s.setBytes sp t x l).nvs = s.nvs := by
  induction l with
  | nil => intros; rfl
  | cons b l ih => exact fun s sp t x => (ih _ sp t (x + 1)).trans (State.setByte_nvs ..)

theorem setBytes_regs (l : List Byte) : ∀ (s : State) (sp : Space) (t x : Nat), (s.setBytes sp t x l).regs = s.regs := by
  induction l with
  | nil => intros; rfl
  | cons b l ih => exact fun s sp t x => (ih _ sp t (x + 1)).trans (State.setByte_regs ..)

/-- The pulses that `n` counts have left `v` in the word at `addr`. -/
def State.pulsed (s : State) (t addr v n : Nat) : State :=
  (s.setBytes .nvs t (addr / 8 * 8) (leBytes 8 v)).setF t NVS.STATUS.PULSES n

theorem pulsed_programFrame {t addr : Nat} (s : State) (v n : Nat) (ht : t < 8) (haddr : addr < 0x800000) :
    ProgramFrame t (addr / 8) s (s.pulsed t addr v n) := by
  refine ProgramFrame.trans ⟨fld_congr (setBytes_regs ..) t _, congrArg NvsTile.step (array_congr (setBytes_nvs ..) t), ?bytes⟩
    (setF_programFrame (by decide) _ n)
  intro sp u x hu hx hout
  have hlen : (leBytes 8 v).length = 8 := length_leBytes 8 v
  exact byte_setBytes_ne _ s .nvs sp t _ u x (by omega) hu (by omega) hx (by rwa [hlen])

theorem bytes_pulsed {t addr : Nat} (s : State) (v n : Nat) (ht : t < 8) (haddr : addr < 0x800000) :
    (s.pulsed t addr v n).bytes .nvs t (addr / 8 * 8) 8 = leBytes 8 v := by
  rw [State.pulsed, bytes_congr (State.setF_mem ..)]
  have hlen : (leBytes 8 v).length = 8 := length_leBytes 8 v
  have := bytes_setBytes (leBytes 8 v) s .nvs t (addr / 8 * 8) (by omega) (by omega)
  rwa [hlen] at this

/-- What notes a word that took many pulses: its sector is warned of once. -/
def State.noteWear (s : State) (t addr : Nat) : State :=
  if (s.array t).warned.contains (sectorOf addr) then s.ev t NVS.EVENTS.WEAR_WARN
  else (s.updArray t (fun a => { a with warned := a.warned ++ [sectorOf addr] })).evRec t NVS.EVENTS.WEAR_WARN (sectorOf addr)

theorem noteWear_mem (s : State) (t addr : Nat) : (s.noteWear t addr).mem = s.mem := by
  unfold State.noteWear
  split
  · exact State.ev_mem ..
  · exact (evRec_sameData ..).1

theorem fld_noteWear {g : Fld} (h : NVS.EVENTS.WEAR_WARN.Apart g) (hcnt : (evtCnt NVS.EVENTS.WEAR_WARN.blk).Apart g) (hb : g.blk < 256)
    (ho : g.off < 2 ^ 20) (hg : g.blk ≠ EVR.EVENTS.LOST.blk) (s : State) (t addr : Nat) : (s.noteWear t addr).fld t g = s.fld t g := by
  unfold State.noteWear
  split
  · exact fld_ev_of_apart h hcnt s t t
  · exact fld_evRec_of_apart h hcnt hb ho hg _ t t _

theorem noteWear_programFrame {t w : Nat} (s : State) (addr : Nat) : ProgramFrame t w s (s.noteWear t addr) := by
  refine .of_mem (fld_noteWear (by decide) (by decide) (by decide) (by decide) (by decide) s t addr) ?step (noteWear_mem ..)
  unfold State.noteWear
  split
  · exact congrArg NvsTile.step (array_congr (State.ev_nvs ..) t)
  · obtain ⟨-, -, -, hnvs, -⟩ := evRec_sameData (s.updArray t (fun a => { a with warned := a.warned ++ [sectorOf addr] })) t NVS.EVENTS.WEAR_WARN
      (sectorOf addr)
    rw [array_congr hnvs, array_updArray_self]

section
variable {s : State} {t addr data pulses : Nat}

/-- A word that is not erased gets no pulse. -/
theorem nvsProgram_notErased (h : ¬s.wordErased t (addr / 8)) :
    s.nvsProgram t addr data pulses = ((s.ev t NVS.EVENTS.NOT_ERASED).setF t NVS.STATUS.PULSES 0, 2) := by
  rw [State.nvsProgram, if_pos (by simpa using h)]

/-- All ones need no pulse. -/
theorem nvsProgram_ones (h : s.wordErased t (addr / 8)) (hdata : data % 2 ^ 64 = 2 ^ 64 - 1) :
    s.nvsProgram t addr data pulses = (s.setF t NVS.STATUS.PULSES 0, 1) := by
  rw [State.nvsProgram, if_neg (by simp [h]), if_pos hdata]

/-- A word that verifies within 16 pulses holds the data; many pulses are noted. -/
theorem nvsProgram_verified (h : s.wordErased t (addr / 8)) (hdata : data % 2 ^ 64 ≠ 2 ^ 64 - 1) (hpulses : pulses ≤ 16) :
    s.nvsProgram t addr data pulses =
      (if s.fld t NVS.WEAR_TH.PULSE_WARN < pulses then ((s.bump t NVS.PROGRAMS.COUNT 1).pulsed t addr data pulses).noteWear t addr
       else (s.bump t NVS.PROGRAMS.COUNT 1).pulsed t addr data pulses, 1) := by
  rw [State.nvsProgram, if_neg (by simp [h]), if_neg hdata]
  simp only [if_pos hpulses, State.pulsed, State.noteWear]
  split <;> rfl

/-- After 16 pulses without a verify the contents are free. -/
theorem nvsProgram_failed (h : s.wordErased t (addr / 8)) (hdata : data % 2 ^ 64 ≠ 2 ^ 64 - 1) (hpulses : ¬pulses ≤ 16) :
    s.nvsProgram t addr data pulses =
      (((s.bump t NVS.PROGRAMS.COUNT 1).draw.2.pulsed t addr (s.bump t NVS.PROGRAMS.COUNT 1).draw.1 16).ev t NVS.EVENTS.VERIFY_FAIL, 3) := by
  rw [State.nvsProgram, if_neg (by simp [h]), if_neg hdata]
  simp only [if_neg hpulses, State.pulsed]

/-- Whatever comes of the pulses, they leave the array's lock and every byte but the word's. -/
theorem nvsProgram_programFrame (ht : t < 8) (haddr : addr < 0x800000) :
    ProgramFrame t (addr / 8) s (s.nvsProgram t addr data pulses).1 := by
  by_cases herased : s.wordErased t (addr / 8)
  · have hcount : ProgramFrame t (addr / 8) s (s.bump t NVS.PROGRAMS.COUNT 1) := bump_programFrame (by decide) s 1
    by_cases hdata : data % 2 ^ 64 = 2 ^ 64 - 1
    · rw [nvsProgram_ones herased hdata]
      exact setF_programFrame (by decide) s 0
    · by_cases hpulses : pulses ≤ 16
      · rw [nvsProgram_verified herased hdata hpulses]
        have hword := hcount.trans (pulsed_programFrame _ data pulses ht haddr)
        dsimp only
        split
        · exact hword.trans (noteWear_programFrame _ addr)
        · exact hword
      · rw [nvsProgram_failed herased hdata hpulses]
        have hdraw : ProgramFrame t (addr / 8) (s.bump t NVS.PROGRAMS.COUNT 1) (s.bump t NVS.PROGRAMS.COUNT 1).draw.2 := .of_mem rfl rfl rfl
        exact ((hcount.trans hdraw).trans (pulsed_programFrame _ _ 16 ht haddr)).trans (ev_programFrame (by decide) (by decide) _)
  · rw [nvsProgram_notErased herased]
    exact (ev_programFrame (by decide) (by decide) s).trans (setF_programFrame (by decide) _ 0)

/-- The word and PULSES after a verify. -/
theorem nvsProgram_verified_word (ht : t < 8) (haddr : addr < 0x800000) (h : s.wordErased t (addr / 8)) (hdata : data % 2 ^ 64 ≠ 2 ^ 64 - 1)
    (hpulses : pulses ≤ 16) :
    (s.nvsProgram t addr data pulses).1.bytes .nvs t (addr / 8 * 8) 8 = leBytes 8 data ∧
      (s.nvsProgram t addr data pulses).1.fld t NVS.STATUS.PULSES = pulses ∧ (s.nvsProgram t addr data pulses).2 = 1 := by
  have hbytes := bytes_pulsed (s.bump t NVS.PROGRAMS.COUNT 1) data pulses ht haddr
  have hcount : ((s.bump t NVS.PROGRAMS.COUNT 1).pulsed t addr data pulses).fld t NVS.STATUS.PULSES = pulses :=
    (fld_setF_self _ t _ pulses (by decide)).trans (Nat.mod_eq_of_lt (Nat.lt_of_le_of_lt hpulses (by decide)))
  rw [nvsProgram_verified h hdata hpulses]
  dsimp only
  split
  · exact ⟨(bytes_congr (noteWear_mem ..) ..).trans hbytes,
      (fld_noteWear (by decide) (by decide) (by decide) (by decide) (by decide) ..).trans hcount, rfl⟩
  · exact ⟨hbytes, hcount, rfl⟩

end

/-- Settles O21: the operation works on the array locked and busy (`programBegun`); what comes of it is one of the four ends of the pulses. -/
theorem storeProgram : Obligations.StoreProgram := by
  intro t master addr data pulses s htile ht hstep hmaster haddr
  obtain ⟨hbusy, hlocked, hbytes⟩ :=
    nvsProgram_programFrame (s := s.programBegun t addr data) (data := data) (pulses := pulses) ht haddr
  have hmem := programBegun_mem s t addr data
  have herased := wordErased_programBegun s t addr data (addr / 8)
  refine ⟨_, exec_program data pulses htile hstep hmaster haddr, ?busy, ?locked, fun h => ?notErased, fun h hones => ?ones,
    fun h hdata hpulses => ?verified, fun sp u a hu ha hout => ?frame⟩
  case busy => rw [State.flag, fld_updArray, hbusy, fld_programBegun_busy]; rfl
  case locked => rw [array_updArray_self]; exact hlocked.trans (by rw [array_programBegun])
  case notErased =>
    rw [nvsProgram_notErased (by rwa [herased]), array_updArray_self]
    refine ⟨(updArray_mem ..).trans (((State.setF_mem ..).trans (State.ev_mem ..)).trans hmem), (fld_updArray ..).trans ?_, rfl⟩
    exact (fld_setF_of_apart (by decide) _ t t 0).trans (fld_ev_self _ t _ rfl (by decide) (by decide))
  case ones =>
    rw [nvsProgram_ones (by rwa [herased]) (by rw [hones]; rfl), array_updArray_self]
    exact ⟨(updArray_mem ..).trans ((State.setF_mem ..).trans hmem), rfl⟩
  case verified =>
    obtain ⟨hword, hcount, hok⟩ := nvsProgram_verified_word ht haddr (by rwa [herased])
      (by rw [Nat.mod_eq_of_lt (by omega)]; omega : data % 2 ^ 64 ≠ 2 ^ 64 - 1) hpulses
    rw [array_updArray_self, hok]
    exact ⟨hword, hcount, rfl⟩
  case frame => exact (hbytes sp u a hu ha hout).trans (byte_congr hmem sp u a)

end Sys2Proof.Machine

/-! SUPPORT. The OTP row: what register reads and OTP_READ return of it (R429). -/

namespace Sys2Proof.Machine

/-! ### Register reads of a state with other fuses -/

section
variable (s : State) (otp : List Host.Cell) (t : Nat)

/-- No field that shows other state shows a fuse. -/
theorem view_with_otp (blk : Nat) : ({ s with otp := otp } : State).view t blk = s.view t blk := rfl

theorem readNvsWin_with_otp (off : Nat) : (({ s with otp := otp } : State).readNvsWin t off).1 = (s.readNvsWin t off).1 := by
  have haddr : ({ s with otp := otp } : State).nvsWinAddr t off = s.nvsWinAddr t off := rfl
  have harray : ({ s with otp := otp } : State).array t = s.array t := rfl
  simp only [State.readNvsWin, State.readNvsAt, haddr, harray, bytes_congr (a := s) (b := { s with otp := otp }) rfl]
  split
  · split <;> rfl
  · rfl

theorem sense_with_otp (f : Fld) : ({ s with otp := otp } : State).sense t f = { s.sense t f with otp := otp } := by
  simp only [State.sense, State.draw, State.setF, State.setWord, State.word]

/-- The readings of the analogue monitors take free values and no fuse. -/
theorem senseReg_with_otp (blk off : Nat) : ({ s with otp := otp } : State).senseReg t blk off = { s.senseReg t blk off with otp := otp } := by
  unfold State.senseReg
  generalize sensed.filter (fun f => f.blk == blk && f.off == off) = fs
  induction fs generalizing s with
  | nil => rfl
  | cons f fs ih => rw [List.foldl_cons, List.foldl_cons, sense_with_otp, ih]

end

/-- A byte of the OTP row that holds no seed. -/
def SeedFree (a : Nat) : Prop := a < 4096 ∧ ¬(0x80 ≤ a ∧ a < 0x100)

/-- The fuses of two states are alike but for the seeds. -/
def FusesAlike (s' s : State) : Prop := ∀ copy a : Nat, copy < 2 → SeedFree a → s'.otpByte copy a = s.otpByte copy a

theorem otpBytes_alike {s s' : State} (h : FusesAlike s' s) {copy : Nat} (hc : copy < 2) (n : Nat) {a : Nat}
    (ha : ∀ i < n, SeedFree (a + i)) : s'.otpBytes copy a n = s.otpBytes copy a n := by
  induction n generalizing a with
  | zero => rfl
  | succ n ih =>
    rw [State.otpBytes, State.otpBytes, h copy a hc (ha 0 (Nat.succ_pos n)), ih (fun i hi => ?_)]
    rw [Nat.add_assoc, Nat.add_comm 1 i]
    exact ha (i + 1) (by omega)

theorem readReg_alike {s : State} {otp : List Host.Cell} (h : FusesAlike { s with otp := otp } s) (t blk : Nat) {off : Nat} (hoff : off % 4 = 0) :
    (({ s with otp := otp } : State).readReg t blk off).1 = (s.readReg t blk off).1 := by
  unfold State.readReg
  split
  case isTrue => rfl
  case isFalse =>
    split
    case isTrue => rfl
    case isFalse hserves =>
      split
      case isTrue => exact readNvsWin_with_otp s otp t off
      case isFalse =>
        split
        case isTrue hwin =>
          obtain ⟨⟨rfl, hlo⟩, hhi⟩ : (blk = 0x3b ∧ 0x1000 ≤ off) ∧ off < 0x2000 := by simpa using hwin
          split
          case isTrue => rfl
          case isFalse hseed =>
            have hcopy : t = 0 ∨ t = 1 := by simpa [regServes, or_iff_not_imp_left] using hserves
            simp only [Bool.or_eq_true, decide_eq_true_eq, not_or] at hseed
            exact congrArg leNat (otpBytes_alike h (by omega) 4 (fun i hi => ⟨by omega, by omega⟩))
        case isFalse => simp only [senseReg_with_otp, view_with_otp]; rfl

/-! ### OTP_READ -/

theorem fromCopy_lt (s : State) (g : Nat) : s.fromCopy g < 2 := by
  unfold State.fromCopy
  dsimp only
  generalize (if g < 32 then s.fld 0 OTP.STATUS_LO.FROM_COPY else s.fld 0 OTP.STATUS_HI.FROM_COPY) = w
  split <;> omega

/-- A granule that is not one of the two seeds. -/
theorem granule_alike {s : State} {otp : List Host.Cell} (h : FusesAlike { s with otp := otp } s) {g : Nat} (hg : g < 64) (hseed : g ≠ 2 ∧ g ≠ 3) :
    ({ s with otp := otp } : State).granule g = s.granule g :=
  otpBytes_alike h (fromCopy_lt s g) 64 (fun i hi => ⟨by omega, by omega⟩)

theorem cmdOtpRead_alike {s : State} {otp : List Host.Cell} (h : FusesAlike { s with otp := otp } s) (c : Caller) (pl : List Byte) :
    (cmdOtpRead.run c pl { s with otp := otp }).payload = (cmdOtpRead.run c pl s).payload := by
  have hgranules : ∀ g ∈ [0, 1] ++ (List.range 59).map (· + 4), ({ s with otp := otp } : State).granule g = s.granule g := by
    intro g hg
    obtain rfl | rfl | ⟨k, hk, rfl⟩ : g = 0 ∨ g = 1 ∨ ∃ k < 59, k + 4 = g := by simpa using hg
    · exact granule_alike h (by decide) (by decide)
    · exact granule_alike h (by decide) (by decide)
    · exact granule_alike h (by omega) (by omega)
  have hlock : ({ s with otp := otp } : State).otpBytes 0 0xFF8 8 = s.otpBytes 0 0xFF8 8 :=
    otpBytes_alike h (by decide) 8 (fun i hi => ⟨by omega, by omega⟩)
  show _ ++ _ ++ _ ++ _ = _ ++ _ ++ _ ++ _
  rw [hlock, List.flatMap_congr hgranules]
  rfl

/-- Settles O24: a register read returns fuses only through the window of the OTP row, which reads 0 over the seeds; OTP_READ leaves out their
granules. -/
theorem seedsStayInside : Obligations.SeedsStayInside := by
  intro s s' otp hs' halike
  subst hs'
  have h : FusesAlike { s with otp := otp } s := fun copy a hc ha => halike copy a hc ha.1 ha.2
  exact ⟨fun t blk off hoff => readReg_alike h t blk hoff, cmdOtpRead_alike h⟩

end Sys2Proof.Machine

/-! SUPPORT. The event record: commits into the ring (R441), arrivals (R442, R446), and what a notification changes (R447). -/

namespace Sys2Proof.Machine

/-! ### What a notification changes -/

/-- A field that neither a report nor the drop of a notification writes. -/
def BesideNotices (g : Fld) : Prop := BesideReports g ∧ MGT.EVENTS.NOTIFY_DROP.Apart g ∧ MGT.NOTIFY_DROP.COUNT.Apart g

/-- A notification changes no stored data and writes its own fields alone. -/
structure NotifiesOnly (a b : State) : Prop where
  data : SameData a b
  fld : ∀ (u : Nat) (g : Fld), BesideNotices g → b.fld u g = a.fld u g

theorem NotifiesOnly.rfl (s : State) : NotifiesOnly s s := ⟨SameData.rfl s, fun _ _ _ => Eq.refl _⟩

theorem NotifiesOnly.trans {a b c : State} (h : NotifiesOnly a b) (k : NotifiesOnly b c) : NotifiesOnly a c :=
  ⟨h.data.trans k.data, fun u g hg => (k.fld u g hg).trans (h.fld u g hg)⟩

theorem ReportsOnly.notifiesOnly {a b : State} (h : ReportsOnly a b) : NotifiesOnly a b := ⟨h.data, fun u g hg => h.fld u g hg.1⟩

theorem ntfDrop_notifiesOnly (s : State) : NotifiesOnly s s.ntfDrop := by
  refine ⟨(ev_sameData ..).trans (bump_sameData ..), fun u g hg => ?_⟩
  obtain ⟨hreports, hevent, hcount⟩ := hg
  exact (fld_bump_of_apart hcount _ 0 u 1).trans
    (fld_ev_of_apart hevent (hreports (evtCnt MGT.EVENTS.MAC_FAIL.blk) (.inl (by decide))) s 0 u)

theorem updSession_notifiesOnly (s : State) (p : Nat) (f : Session → Session) : NotifiesOnly s (s.updSession p f) :=
  ⟨SameData.rfl s, fun _ _ _ => rfl⟩

theorem deliver_notifiesOnly (s : State) (x : Session) (opcode : Nat) (pl : List Byte) : NotifiesOnly s (s.deliver x opcode pl) := by
  have hcounted := updSession_notifiesOnly s x.point (fun y => { y with notifyCtr := y.notifyCtr + 1 })
  unfold State.deliver
  dsimp only
  split
  · split
    · exact hcounted.trans ⟨SameData.rfl _, fun _ _ _ => rfl⟩
    · exact hcounted.trans (ntfDrop_notifiesOnly _)
  · split
    · exact (hcounted.trans (send_reportsOnly _ _).notifiesOnly).trans (pointMsg_reportsOnly _ _ _).notifiesOnly
    · exact hcounted.trans (ntfDrop_notifiesOnly _)

theorem notify_notifiesOnly (s : State) (opcode : Nat) (pl : List Byte) : NotifiesOnly s (s.notify opcode pl) := by
  unfold State.notify
  split
  · exact List.foldlRecOn (motive := NotifiesOnly s) _ _ (NotifiesOnly.rfl s) (fun a ha x _ => ha.trans (deliver_notifiesOnly a x opcode pl))
  · exact ⟨SameData.rfl s, fun _ _ _ => rfl⟩

/-! ### Commits (R441) -/

theorem besideNotices_wseq : BesideNotices EVR.WSEQ.SEQ :=
  ⟨besideReports_of_place (by decide) (by decide), by decide, by decide⟩

@[simp] theorem length_toBytes (r : EvRec) (seq : Nat) : (r.toBytes seq).length = 32 := by
  simp only [EvRec.toBytes, List.length_append, length_leBytes]

/-- The ring lies within the store. -/
theorem ringAddr_lt (seq : Nat) : ringAddr seq + 2048 < 2 ^ 60 := by
  unfold ringAddr
  omega

/-- The state whose ring takes the record of `seq`: the sector is erased where the record opens it. -/
def State.ringOpened (s : State) (seq : Nat) : State := if seq % 64 = 0 then s.eraseSectors 0 (ringAddr seq) 2048 else s

theorem byte_eraseSectors_out {s : State} {t a n : Nat} {sp : Space} {u b : Nat} (ht : t < 256) (hu : u < 256) (ha : a + n ≤ 2 ^ 60) (hb : b < 2 ^ 60)
    (hout : ¬(sp = .nvs ∧ u = t ∧ a ≤ b ∧ b < a + n)) : (s.eraseSectors t a n).byte sp u b = s.byte sp u b := by
  have hmem : (s.eraseSectors t a n).mem = (s.wipe .nvs t a n).mem := (updArray_mem ..).trans (State.bump_mem ..)
  exact (byte_congr hmem sp u b).trans (byte_wipe_out s .nvs sp t a n u b ht hu ha hb hout)

theorem byte_ringOpened {s : State} {seq : Nat} {sp : Space} {u b : Nat} (hu : u < 256) (hb : b < 2 ^ 60)
    (hout : ¬(sp = .nvs ∧ u = 0 ∧ ringAddr seq ≤ b ∧ b < ringAddr seq + (if seq % 64 = 0 then 2048 else 32))) :
    (s.ringOpened seq).byte sp u b = s.byte sp u b := by
  unfold State.ringOpened
  split
  · next hopens =>
    rw [if_pos hopens] at hout
    exact byte_eraseSectors_out (by decide) hu (Nat.le_of_lt (ringAddr_lt seq)) hb hout
  · rfl

/-- The record stands in the slot of its SEQ, in memory as in WSEQ; counting and notifying it change neither. -/
theorem program1_spec (s : State) (r : EvRec) {seq : Nat} (hseq : seq = (s.fld 0 EVR.WSEQ.SEQ + 1) % 2 ^ 32) :
    (s.program1 r).mem = ((s.ringOpened seq).setBytes .nvs 0 (ringAddr seq) (r.toBytes seq)).mem ∧ (s.program1 r).fld 0 EVR.WSEQ.SEQ = seq := by
  subst hseq
  generalize hseq : (s.fld 0 EVR.WSEQ.SEQ + 1) % 2 ^ 32 = seq
  have hlt : seq < 2 ^ 32 := hseq ▸ Nat.mod_lt _ (by decide)
  generalize hprog : (s.ringOpened seq).programBytes 0 (ringAddr seq) (r.toBytes seq) = a
  have hmem : a.mem = ((s.ringOpened seq).setBytes .nvs 0 (ringAddr seq) (r.toBytes seq)).mem := hprog ▸ State.bump_mem ..
  have hcounted : ((a.setF 0 EVR.WSEQ.SEQ seq).bump 0 EVR.RECORDS.COUNT 1).mem = a.mem ∧
      ((a.setF 0 EVR.WSEQ.SEQ seq).bump 0 EVR.RECORDS.COUNT 1).fld 0 EVR.WSEQ.SEQ = seq :=
    ⟨(State.bump_mem ..).trans (State.setF_mem ..), (fld_bump_of_apart (by decide) _ 0 0 1).trans
      ((fld_setF_self a 0 _ seq (by decide)).trans (Nat.mod_eq_of_lt hlt))⟩
  have heq : s.program1 r = if ((a.setF 0 EVR.WSEQ.SEQ seq).bump 0 EVR.RECORDS.COUNT 1).notifies r then
      ((a.setF 0 EVR.WSEQ.SEQ seq).bump 0 EVR.RECORDS.COUNT 1).notify 0x07F0 (r.toBytes seq)
      else (a.setF 0 EVR.WSEQ.SEQ seq).bump 0 EVR.RECORDS.COUNT 1 := by
    rw [State.program1, hseq, ← hprog, State.ringOpened]
  rw [heq, ← hmem]
  split
  · have hnotified := notify_notifiesOnly ((a.setF 0 EVR.WSEQ.SEQ seq).bump 0 EVR.RECORDS.COUNT 1) 0x07F0 (r.toBytes seq)
    exact ⟨hnotified.data.1.trans hcounted.1, (hnotified.fld 0 _ besideNotices_wseq).trans hcounted.2⟩
  · exact hcounted

/-- The report of lost records is queued: no byte and no register changes. -/
theorem reportLost_mem_regs (s : State) : s.reportLost.mem = s.mem ∧ s.reportLost.regs = s.regs := by
  have hopen : s.commitOpen.mem = s.mem ∧ s.commitOpen.regs = s.regs := by
    unfold State.commitOpen
    split <;> exact ⟨rfl, rfl⟩
  unfold State.reportLost
  split
  · exact hopen
  · exact ⟨rfl, rfl⟩

theorem exec_recordCommit {s : State} (h : s.ringScanned) : exec .recordCommit s = .next s.commitHead.reportLost :=
  congrArg Host.Outcome.next (if_pos h)

/-- Settles O25: the head of the queue is `program1`, and the report that may follow changes neither memory nor WSEQ. -/
theorem recordCommitted : Obligations.RecordCommitted := by
  intro s r q seq hscanned hqueue hseq
  obtain ⟨hmem, hwseq⟩ := program1_spec { s with recd := { s.recd with queue := q } } r (seq := seq) hseq
  have hhead : s.commitHead = { s with recd := { s.recd with queue := q } }.program1 r := by rw [State.commitHead, hqueue]
  rw [← hhead] at hmem hwseq
  obtain ⟨hmem', hregs⟩ := reportLost_mem_regs s.commitHead
  have hlen := length_toBytes r seq
  have hring := ringAddr_lt seq
  refine ⟨_, exec_recordCommit hscanned, (fld_congr hregs 0 _).trans hwseq, ?slot, fun sp u b hu hb hout => ?frame⟩
  case slot =>
    rw [bytes_congr (hmem'.trans hmem)]
    have hback := bytes_setBytes (r.toBytes seq) (State.ringOpened { s with recd := { s.recd with queue := q } } seq) .nvs 0 (ringAddr seq)
      (by decide) (by omega)
    rwa [hlen] at hback
  case frame =>
    rw [byte_congr (hmem'.trans hmem), byte_setBytes_ne _ _ .nvs sp 0 _ u b (by decide) hu (by omega) hb ?_]
    · exact byte_ringOpened hu hb hout
    · rintro ⟨hsp, hu0, hlo, hhi⟩
      refine hout ⟨hsp, hu0, hlo, ?_⟩
      split <;> omega

end Sys2Proof.Machine

/-! SUPPORT. Arrivals at tile 0 (R442, R446), and transactions at the awake two-wire target (R450 to R454). -/

namespace Sys2Proof.Machine

/-! ### Arrivals -/

theorem exec_eventArrival {s : State} {t : Nat} (ht : t < s.tiles) : exec (.eventArrival t) s = .next (s.eventArrival t) := onTile_present ht

/-- The state that an arrival works on: the record has left its tile's queue. -/
def State.unqueued (s : State) (t : Nat) (e : EvRec) : State := { s with recd := { s.recd with tileQ := s.recd.tileQ.erase (t, e) } }

/-- The first record of the tile's queue arrives. -/
theorem eventArrival_of_find {s : State} {t : Nat} {e : EvRec} (h : s.recd.tileQ.find? (fun x => x.1 == t) = some (t, e)) :
    s.eventArrival t = ((s.unqueued t e).arrive e).reportLost := by
  rw [State.eventArrival, h, State.unqueued]

/-- With nothing lost there is nothing to report. -/
theorem reportLost_of_noneLost {s : State} (h : s.recd.lost = 0) : s.reportLost = s := if_neg (by simp [h])

/-- With tile 0's queue full the report waits. -/
theorem reportLost_of_full {s : State} (h : 4096 ≤ s.recd.queue.length) : s.reportLost = s :=
  if_neg (by simp only [Bool.and_eq_true, decide_eq_true_eq]; omega)

/-- The open record `o` counts one event more. -/
def State.coalesced (s : State) (o : EvRec) : State :=
  { s with recd := { s.recd with openRec := some { o with rep := min 65535 (o.rep + 1) } } }.bump 0 EVR.COALESCED.COUNT 1

theorem coalesced_recd (s : State) (o : EvRec) :
    (s.coalesced o).recd = { s.recd with openRec := some { o with rep := min 65535 (o.rep + 1) } } := State.bump_recd ..

theorem arrive_matching {s : State} {o e : EvRec} (ho : s.recd.openRec = some o) (hm : o.matches e (s.fld 0 EVR.CTRL.WINDOW_MS)) :
    s.arrive e = s.coalesced o := by
  rw [State.arrive, ho]
  exact if_pos hm

theorem arrive_full {s : State} {e : EvRec} (hm : ∀ o, s.recd.openRec = some o → o.matches e (s.fld 0 EVR.CTRL.WINDOW_MS) = false)
    (hfull : 4096 ≤ s.recd.queue.length) : s.arrive e = s.loseEvent 0 := by
  unfold State.arrive
  split
  · next o ho => rw [if_neg (by simp [hm o ho]), if_pos hfull]
  · exact if_pos hfull

theorem loseEvent_recd (s : State) (t : Nat) : (s.loseEvent t).recd = { s.recd with lost := s.recd.lost + 1 } :=
  (State.bump_recd ..).trans (State.ev_recd ..)

theorem fld_loseEvent_lost (s : State) (t : Nat) : (s.loseEvent t).fld t EVR.EVENTS.LOST = 1 :=
  (fld_bump_of_apart (by decide) _ t t 1).trans (fld_ev_self _ t _ rfl (by decide) (by decide))

/-- Settles O26: the arrival counts in the open record, or is lost; no report of lost records follows either. -/
theorem eventsCoalesceOrCount : Obligations.EventsCoalesceOrCount := by
  intro t e s ht hfind hlost
  rw [exec_eventArrival ht, eventArrival_of_find hfind]
  refine ⟨fun o ho hm => ⟨_, rfl, ?_⟩, fun hm hfull => ⟨_, rfl, ?_⟩⟩
  · rw [arrive_matching (s := s.unqueued t e) ho hm, reportLost_of_noneLost (by rw [coalesced_recd]; exact hlost), coalesced_recd]
    exact ⟨rfl, rfl, rfl⟩
  · rw [arrive_full (s := s.unqueued t e) hm hfull, reportLost_of_full (by rw [loseEvent_recd]; exact hfull), loseEvent_recd]
    exact ⟨rfl, rfl, congrArg (· + 1) hlost, fld_loseEvent_lost _ 0⟩

/-! ### The two-wire target (R450 to R454) -/

/-- A transaction that the target answers awake. -/
theorem xfer_answered {s : State} (x : SmbusXfer) (kHz : Nat) (hawake : s.twbAwake) (hack : ¬s.twb.nackUntilBoot) (hheld : s.twb.held = none) :
    s.xfer x kHz = (s.addressedAt kHz).matchWake.awakeXfer x := by
  rw [State.xfer, if_neg (by simp [hawake]), if_neg (by simp [hack, hheld])]

/-- Outside sleep and a sleep entry an address match wakes nothing. -/
theorem matchWake_awake {s : State} (hs1 : s.dstate ≠ .s1) (htarget : s.pow.target = 0) : s.matchWake = s := by
  rw [State.matchWake, if_neg (by simp [hs1]), if_neg (by simp [htarget])]

theorem blockWrite_bad {s : State} {bytes : List Byte} (h : ¬s.blockOk bytes) : s.blockWrite bytes = s.pecFail := if_neg h

theorem pecFail_sameData (s : State) : SameData s s.pecFail := (ev_sameData ..).trans (bump_sameData ..)

/-- Settles O27: the Block Write is `pecFail` on the state that notes the bus class. -/
theorem badBlockWriteDiscarded : Obligations.BadBlockWriteDiscarded := by
  intro bytes kHz s hawake hs1 htarget hack hheld hbad
  have hexec : exec (.blockWrite 0x0f bytes kHz) s = .next (s.addressedAt kHz).pecFail := by
    have hdone : s.xfer (.blockWrite 0x0f bytes) kHz = (s.addressedAt kHz).pecFail := by
      rw [xfer_answered _ kHz hawake hack hheld, matchWake_awake (s := s.addressedAt kHz) hs1 htarget]
      exact blockWrite_bad (s := s.addressedAt kHz) hbad
    exact congrArg Host.Outcome.next hdone
  refine ⟨_, hexec, ?data, ?twb, ?mb, ?event, ?count⟩
  case data => exact pecFail_sameData _
  case twb => exact (State.bump_twb ..).trans (State.ev_twb ..)
  case mb => exact (State.bump_mb ..).trans (State.ev_mb ..)
  case event => exact (fld_bump_of_apart (by decide) _ 0 0 1).trans (fld_ev_self _ 0 _ rfl (by decide) (by decide))
  case count =>
    refine (fld_bump_self _ 0 TWB.PEC_ERR.COUNT 1 (by decide)).trans ?_
    rw [fld_ev_of_apart (by decide) (by decide) (s.addressedAt kHz) 0 0]
    rfl

end Sys2Proof.Machine

/-! SUPPORT. Reading commands: what steps 1 to 8 of R336 change when a command only reads (R335 to R337, R350). -/

namespace Sys2Proof.Machine

/-! ### Readings of the monitors -/

theorem sense_sameData (s : State) (t : Nat) (f : Fld) : SameData s (s.sense t f) :=
  SameData.trans (b := s.draw.2) (SameData.rfl s) (setF_sameData _ t f _)

theorem foldl_sameData {α : Type} {f : State → α → State} (h : ∀ a x, SameData a (f a x)) (l : List α) (s : State) : SameData s (l.foldl f s) :=
  List.foldlRecOn (motive := SameData s) _ _ (SameData.rfl s) (fun a ha x _ => ha.trans (h a x))

theorem allTiles_sameData {f : Nat → State → State} (h : ∀ t a, SameData a (f t a)) (s : State) : SameData s (s.allTiles f) :=
  foldl_sameData (fun a t => h t a) _ s

theorem senseReg_sameData (s : State) (t blk off : Nat) : SameData s (s.senseReg t blk off) :=
  foldl_sameData (fun a f => sense_sameData a t f) _ s

/-! ### Commands that read -/

/-- What a run answers at once, with the stored data as it was. -/
structure ReadsOnly (s : State) (o : CmdOut) : Prop where
  wait : o.wait = none
  after : o.after = id
  data : SameData s o.s

theorem reply_readsOnly {s a : State} (h : SameData s a) (pl : List Byte) : ReadsOnly s (.reply a pl) := ⟨rfl, rfl, h⟩

theorem done_readsOnly (s : State) (st : Status) : ReadsOnly s (.done s st) := ⟨rfl, rfl, SameData.rfl s⟩

/-- A command that is not acting and only reads, whatever its payload. -/
structure Cmd.Reading (c : Cmd) : Prop where
  acting : c.acting = false
  run : ∀ (caller : Caller) (pl : List Byte) (s : State), ReadsOnly s (c.run caller pl s)

theorem reading_of_run {opcode : Nat} {cls : CmdClass} {check : State → List Byte → Bool} {run : Caller → List Byte → State → CmdOut}
    (h : ∀ caller pl s, ReadsOnly s (run caller pl s)) : (readCmd opcode cls check run).Reading := ⟨rfl, h⟩

/-- A command that answers with a payload computed from the state. -/
theorem reading_of_reply {opcode : Nat} {cls : CmdClass} {check : State → List Byte → Bool} {payload : Caller → List Byte → State → List Byte} :
    (readCmd opcode cls check (fun c pl s => .reply s (payload c pl s))).Reading :=
  reading_of_run (fun _ _ s => reply_readsOnly (SameData.rfl s) _)

theorem cmdQpInfo_reading : cmdQpInfo.Reading :=
  reading_of_run (fun _ _ s => by split; exacts [reply_readsOnly (SameData.rfl s) _, done_readsOnly s _])

theorem cmdRegionQuery_reading : cmdRegionQuery.Reading :=
  reading_of_run (fun _ _ s => by split; exacts [reply_readsOnly (SameData.rfl s) _, done_readsOnly s _])

theorem cmdPlanStatus_reading : cmdPlanStatus.Reading :=
  reading_of_run (fun _ _ s => by split; exacts [reply_readsOnly (SameData.rfl s) _, done_readsOnly s _])

/-- FEED_ADMIT_CHECK asks whether the stream would be admitted and admits none. -/
theorem cmdFeedAdmitCheck_reading : cmdFeedAdmitCheck.Reading :=
  reading_of_run (fun _ _ s => by
    split
    · split
      · exact ⟨rfl, rfl, SameData.rfl s⟩
      · exact reply_readsOnly (SameData.rfl s) _
    · exact done_readsOnly s _)

/-- POWER_STATUS reads the analogue monitors first. -/
theorem cmdPowerStatus_reading : cmdPowerStatus.Reading :=
  reading_of_run (fun _ _ s => reply_readsOnly ((allTiles_sameData (fun t a => sense_sameData a t _) s).trans
    (foldl_sameData (fun a _ => sense_sameData a 0 _) _ _)) _)

theorem cmdMonitorRead_reading : cmdMonitorRead.Reading :=
  reading_of_run (fun _ _ s => reply_readsOnly (allTiles_sameData (fun t a => (senseReg_sameData a t _ _).trans (senseReg_sameData _ t _ _)) s) _)

/-! ### Steps 1 to 8 -/

theorem refuseReq_sameData (s : State) (f : Frame) (x : Option Session) (n : Nat) (st : Status) : SameData s (s.refuseReq f x n st) :=
  (lastRefuse_sameData s f.point n st).trans ((noteRefusal_reportsOnly s f x n st).trans (respond_reportsOnly _ _ _)).data

/-- The audit record of an acting command, or of one denied (R351). -/
def State.auditDone (s : State) (acting : Bool) (f : Frame) (x : Option (Nat × Nat)) (role : Nat) (st : Status) : State :=
  if acting || st == .deniedRole then
    (if st == .deniedRole then s.ev 0 RLE.EVENTS.DENIED else s).audit ⟨role, (x.map (·.2)).getD 0, f.point⟩ f.opcode f.payload (st == .deniedRole)
  else s

theorem auditDone_sameData (s : State) (acting : Bool) (f : Frame) (x : Option (Nat × Nat)) (role : Nat) (st : Status) :
    SameData s (s.auditDone acting f x role st) := by
  unfold State.auditDone
  split
  · refine SameData.trans ?_ (audit_reportsOnly _ _ _ _ _).data
    split
    · exact ev_sameData s 0 _
    · exact SameData.rfl s
  · exact SameData.rfl s

/-- The end of a command that is not mirrored: its audit record, the response kept with the session, the response. -/
theorem finishCmd_sameData (s : State) (acting : Bool) (f : Frame) (x : Option (Nat × Nat)) (role : Nat) (st : Status) (pl : List Byte) :
    SameData s (s.finishCmd acting false f x role st pl) := by
  refine (auditDone_sameData s acting f x role st).trans ?_
  unfold State.finishCmd
  simp only [Bool.false_and, Bool.false_eq_true, if_false]
  rw [← State.auditDone]
  refine SameData.trans ?_ (respond_reportsOnly _ _ _).data
  split
  · exact (updSession_notifiesOnly _ _ _).data
  · exact SameData.rfl _

theorem execute_sameData {c : Cmd} (h : c.Reading) (f : Frame) (x : Option Session) (s : State) : SameData s (c.execute f x s) := by
  obtain ⟨hacting, hrun⟩ := h
  obtain ⟨hwait, hafter, hdata⟩ := hrun ⟨(x.map (·.role)).getD 0, (x.map (·.id)).getD 0, f.point⟩ f.payload (s.bump 0 MGT.COMMANDS.COUNT 1)
  have hdone : SameData s _ := (bump_sameData s 0 MGT.COMMANDS.COUNT 1).trans hdata
  unfold Cmd.execute
  simp only [hwait, hafter, hacting, Bool.and_false, Bool.false_and, id_eq]
  exact hdone.trans (finishCmd_sameData _ _ _ _ _ _ _)

theorem answer_sameData {c : Cmd} (h : c.Reading) (f : Frame) (s : State) (a : Admit) : SameData s (c.answer f s a) := by
  cases a with
  | refuse n st => exact refuseReq_sameData s f _ n st
  | resend b => exact (respond_reportsOnly s _ b).data
  | go x => exact execute_sameData h f x s

/-- Outside sleep and a sleep entry the request of a command that reads changes no stored data, whether it waits, is not served, is refused,
resent or executed. -/
theorem mailbox_sameData {c : Cmd} (h : c.Reading) (f : Frame) {s : State} (hs1 : s.dstate ≠ .s1) (hs2 : s.dstate ≠ .s2) (htarget : s.pow.target = 0) :
    SameData s (mailbox c f s) := by
  have htaken : SameData s (s.takeInput { f with opcode := c.opcode }) := SameData.rfl s
  by_cases hwait : s.pointWaits f.point
  · rw [mailbox, if_pos hwait]
    exact SameData.rfl s
  · by_cases hserved : pointServed s.dstate f.point
    · rw [mailbox_awake rfl (by simpa using hwait) hserved hs1 hs2 htarget]
      exact htaken.trans (answer_sameData h _ _ _)
    · rw [mailbox, if_neg hwait, if_pos (by simpa [takeInput_dstate] using hserved)]
      exact htaken

/-- The reading rows of chapters 2 to 18, each with its command (R350). -/
noncomputable def readingRows (f : Frame) : List (Instr × Cmd) :=
  [(.netStatus f, cmdNetStatus), (.qpList f, cmdQpList), (.qpInfo f, cmdQpInfo), (.powerStatus f, cmdPowerStatus), (.twbStatus f, cmdTwbStatus),
   (.regionQuery f, cmdRegionQuery), (.regionList f, cmdRegionList), (.chainStatus f, cmdChainStatus), (.tierQuery f, cmdTierQuery),
   (.homeQuery f, cmdHomeQuery), (.planStatus f, cmdPlanStatus), (.moveStatus f, cmdMoveStatus), (.cacheStatus f, cmdCacheStatus),
   (.dramStatus f, cmdDramStatus), (.decStatus f, cmdDecStatus), (.decLogRead f, cmdDecLogRead), (.deepStatus f, cmdDeepStatus),
   (.persistStatus f, cmdPersistStatus), (.freezeReportRead f, cmdFreezeReportRead), (.twinStatus f, cmdTwinStatus),
   (.feedStatus f, cmdFeedStatus), (.feedAdmitCheck f, cmdFeedAdmitCheck), (.fwStatus f, cmdFwStatus), (.fwManifestRead f, cmdFwManifestRead),
   (.selftestReport f, cmdSelftestReport), (.monitorRead f, cmdMonitorRead), (.nvStatus f, cmdNvStatus), (.otpRead f, cmdOtpRead),
   (.keyStatus f, cmdKeyStatus), (.eventStatus f, cmdEventStatus), (.timeGet f, cmdTimeGet)]

theorem reading_of_mem_readingRows {f : Frame} : ∀ p ∈ readingRows f, p.2.Reading := by
  simp only [readingRows, List.forall_mem_cons]
  and_intros
  · exact (reading_of_reply : cmdNetStatus.Reading)
  · exact (reading_of_reply : cmdQpList.Reading)
  · exact cmdQpInfo_reading
  · exact cmdPowerStatus_reading
  · exact (reading_of_reply : cmdTwbStatus.Reading)
  · exact cmdRegionQuery_reading
  · exact (reading_of_reply : cmdRegionList.Reading)
  · exact (reading_of_reply : cmdChainStatus.Reading)
  · exact (reading_of_reply : cmdTierQuery.Reading)
  · exact (reading_of_reply : cmdHomeQuery.Reading)
  · exact cmdPlanStatus_reading
  · exact (reading_of_reply : cmdMoveStatus.Reading)
  · exact (reading_of_reply : cmdCacheStatus.Reading)
  · exact (reading_of_reply : cmdDramStatus.Reading)
  · exact (reading_of_reply : cmdDecStatus.Reading)
  · exact (reading_of_reply : cmdDecLogRead.Reading)
  · exact (reading_of_reply : cmdDeepStatus.Reading)
  · exact (reading_of_reply : cmdPersistStatus.Reading)
  · exact (reading_of_reply : cmdFreezeReportRead.Reading)
  · exact (reading_of_reply : cmdTwinStatus.Reading)
  · exact (reading_of_reply : cmdFeedStatus.Reading)
  · exact cmdFeedAdmitCheck_reading
  · exact (reading_of_reply : cmdFwStatus.Reading)
  · exact (reading_of_reply : cmdFwManifestRead.Reading)
  · exact (reading_of_reply : cmdSelftestReport.Reading)
  · exact cmdMonitorRead_reading
  · exact (reading_of_reply : cmdNvStatus.Reading)
  · exact (reading_of_reply : cmdOtpRead.Reading)
  · exact (reading_of_reply : cmdKeyStatus.Reading)
  · exact (reading_of_reply : cmdEventStatus.Reading)
  · exact (reading_of_reply : cmdTimeGet.Reading)
  · exact List.forall_mem_nil _

theorem exec_of_mem_readingRows {f : Frame} : ∀ p ∈ readingRows f, ∀ s, exec p.1 s = .next (mailbox p.2 f s) := by
  simp only [readingRows, List.forall_mem_cons, List.not_mem_nil, false_implies, implies_true, and_true]
  and_intros <;> exact fun _ => rfl

/-- Settles O12: the row is its command's `mailbox`, and a command that reads changes no stored data at any of its steps. -/
theorem readingCommandsKeepData : Obligations.ReadingCommandsKeepData := by
  intro i f s t hi hs1 hs2 htarget ht
  obtain ⟨⟨i, c⟩, hrow, rfl⟩ := List.mem_map.mp (show i ∈ (readingRows f).map Prod.fst from hi)
  obtain rfl := Host.Outcome.next.inj ((exec_of_mem_readingRows _ hrow s).symm.trans ht)
  exact mailbox_sameData (reading_of_mem_readingRows _ hrow) f hs1 hs2 htarget

end Sys2Proof.Machine

/-! SUPPORT. Rows that complete: power, Freeze, restore, sleep and start-up (R342 to R392). -/

namespace Sys2Proof.Machine

/-! ### A row whose condition holds -/

theorem next_if_pos {p : Prop} [Decidable p] {x y : State} (h : p) :
    (.next (if p then x else y) : Host.Outcome State Fault Refusal) = .next x := by rw [if_pos h]

theorem next_if_neg {p : Prop} [Decidable p] {x y : State} (h : ¬p) :
    (.next (if p then x else y) : Host.Outcome State Fault Refusal) = .next y := by rw [if_neg h]

theorem onTile_if_pos {t : Nat} {p : Prop} [Decidable p] {s x y : State} (ht : t < s.tiles) (h : p) :
    onTile t s (if p then x else y) = .next x := by rw [onTile_present ht, if_pos h]

theorem onTile_if_neg {t : Nat} {p : Prop} [Decidable p] {s x y : State} (ht : t < s.tiles) (h : ¬p) :
    onTile t s (if p then x else y) = .next y := by rw [onTile_present ht, if_neg h]

/-! ### Power and its pins -/

theorem exec_huEmerg {tile : Nat} {s s1 : State} (ht : tile < s.tiles)
    (h1 : s1 = (s.setF tile AON.STATUS.ABOVE_EMERG 0).ev tile AON.EVENTS.HU_EMERG)
    (hf : s1.frz tile ∈ [.stopping, .draining, .dumping, .sealing]) :
    exec (.huEmerg tile) s = .next ((s1.ev tile FRZ.EVENTS.COLLAPSE).setF tile FRZ.STATUS.STATE FState.collapsed.code) := by
  subst h1
  rw [show exec (.huEmerg tile) s = _ from onTile_present ht]
  simp only [List.mem_cons, List.not_mem_nil, or_false] at hf
  rcases hf with h | h | h | h <;> simp only [h]

theorem exec_tripArm {tile : Nat} {s : State} (ht : tile < s.tiles) (hs : s.dstate ∉ [.off, .aonOnly, .s3]) :
    exec (.tripArm tile) s =
      .next ((s.setFs tile [(AON.STATUS.ARMED, 1), (AON.STATUS.ABOVE_TRIP, 1), (AON.STATUS.ABOVE_EMERG, 1)]).noteUrgent tile) := by
  refine (onTile_present ht).trans (congrArg Host.Outcome.next ?_)
  split
  case h_1 h | h_2 h | h_3 h => simp [h] at hs
  case h_4 => rfl

theorem exec_wakeN (low : Bool) (s : State) :
    exec (.wakeN low) s =
      .next (if low then ({ s with pow := { s.pow with wakeLow := low } }.setF 0 AON.STATUS.WAKE_PIN (b2n low)).wakeUp 3
        else { s with pow := { s.pow with wakeLow := low } }.setF 0 AON.STATUS.WAKE_PIN (b2n low)) := rfl

theorem exec_wake_s1 {s : State} (h : s.dstate = .s1) : exec .wake s = .next (s.wakeUp 1) := by
  rw [show exec .wake s = execWake s from rfl, execWake, h]

theorem exec_wake_s2_s3 {s : State} (h : s.dstate = .s2 ∨ s.dstate = .s3) : exec .wake s = .next (s.wakeUp 3) := by
  rw [show exec .wake s = execWake s from rfl, execWake]
  rcases h with h | h <;> rw [h]

/-- A die below the warning temperature in `service`, no throttle step due (R392). -/
theorem exec_thermalCheck_cool {temps : List Nat} {s s0 : State} {hot : Int}
    (h0 : s0 = s.allTiles (fun t a => a.setF t BST.MON.TEMP (temps.getD t 0))) (hs : s0.dstate = .service) (htarget : s0.pow.target = 0)
    {ts : List Int} (hts : ts = (List.range s0.tiles).map (fun t => signed16 (temps.getD t 0))) (hhot : hot = ts.foldl max (ts.headD 0))
    (hcool : hot < (s0.fld 0 PWC.THERM.WARN : Int) * 10) (hlevel : (s0.throttleNext hot).1 = 0) :
    exec (.thermalCheck temps) s = .next ({ s0 with pow := { s0.pow with coolSince := (s0.throttleNext hot).2 } }.setThrottle 0) := by
  rw [show exec (.thermalCheck temps) s = execThermalCheck temps s from rfl, execThermalCheck, ← h0]
  have hawake : ¬(s0.dstate != .service && s0.dstate != .restricted || s0.pow.target != 0) = true := by simp [hs, htarget]
  simp only [if_neg hawake, ← hts, ← hhot, if_neg (not_le.mpr hcool), hlevel, if_true]

/-- Settles O40, row by row. -/
theorem powerRowsComplete : Obligations.PowerRowsComplete := by
  refine ⟨?vaonApplied, ?vaonLost, fun _ => rfl, fun _ => rfl, fun _ _ ht => onTile_present ht, fun _ _ ht h => onTile_if_pos ht h,
    fun _ _ ht _ h1 h => exec_huEmerg ht h1 h, fun _ _ ht h => exec_tripArm ht h, fun _ _ ht => onTile_present ht, ?freezeNet,
    fun _ _ h => next_if_neg (not_le.mpr h), ?phaseFault, ?phaseShedLoad, fun _ => rfl, fun _ => rfl, fun s => by simpa only [b2n, if_true] using exec_wakeN true s,
    fun s => by simpa only [b2n, Bool.false_eq_true, if_false] using exec_wakeN false s,
    fun _ h => next_if_pos h, fun _ h => exec_wake_s1 h, fun _ h => exec_wake_s2_s3 h, fun _ => rfl,
    fun _ _ _ h0 hs ht _ _ hts hh hc hl => exec_thermalCheck_cool h0 hs ht hts hh hc hl, fun _ h => next_if_pos h⟩
  case vaonApplied =>
    rintro pref adr s hoff _ rfl
    exact next_if_neg (by simp [hoff])
  case vaonLost =>
    intro s hon
    exact next_if_neg (by simpa using hon)
  case freezeNet =>
    intro tile s ht hnet hidle
    exact (onTile_if_pos ht hnet).trans (next_if_pos hidle)
  case phaseFault =>
    rintro stage s hstage _ rfl
    rw [show exec (.phaseFault stage false) s = execPhaseFault stage false s from rfl, execPhaseFault, if_neg (not_le.mpr hstage), Bool.or_false]
    rfl
  case phaseShedLoad =>
    intro stage s hstage hshed
    rw [show exec (.phaseShedLoad stage true) s = execPhaseShedLoad stage true s from rfl, execPhaseShedLoad]
    simp only [if_neg (not_le.mpr hstage), if_true, if_neg hshed]

/-! ### Freeze, restore and sleep -/

theorem exec_freezeTrigger_pins {tile source : Nat} {s : State} (ht : tile < s.tiles) (h : source ∈ [1, 2, 3]) :
    exec (.freezeTrigger tile source) s = .next (s.freezeTrigger tile source) := by
  simp only [List.mem_cons, List.not_mem_nil, or_false] at h
  rcases h with rfl | rfl | rfl <;> exact onTile_present ht

theorem exec_bgRestorePage {tile p : Nat} {s : State} (hard : Bool) (iters retry : Nat) (soft parity : Bool) (ht : tile < s.tiles)
    (hs : s.dstate = .service) (haway : ¬s.pow.ranksAway.contains tile) (hkey : s.flag tile BCX.STATUS.XTS_KEY)
    (hp : s.restoreNext tile = some p) (hlevel : s.fld 0 PWC.THERM.LEVEL = 0) :
    exec (.bgRestorePage tile hard iters retry soft parity) s = .next (match s.homeOf (p / 512), bestOf (s.imagesOf p) with
      | some h, some c => s.restoreImage tile p h c ⟨hard, iters, retry, soft, parity⟩
      | _, _ => (s.lostPage tile p).pageBack tile p) := by
  refine (onTile_if_neg ht (by simpa [hs] using haway)).trans (congrArg Host.Outcome.next ?_)
  rw [if_neg (by simpa using hkey), hp]
  exact if_neg (by simp [hlevel])

/-- Settles O41, row by row. -/
theorem freezeRowsComplete : Obligations.FreezeRowsComplete := by
  refine ⟨fun _ _ _ ht h => exec_freezeTrigger_pins ht h, ?reset, fun _ _ ht => onTile_present ht, fun _ _ ht => onTile_present ht,
    fun _ _ ht h => onTile_if_pos ht h, fun _ => rfl, fun _ _ ht h => onTile_if_pos ht h, fun _ _ ht h => onTile_if_pos ht h,
    fun _ _ ht h => onTile_if_pos ht h, ?railsRemoved, fun _ => rfl, fun _ _ _ ht h => onTile_if_pos ht h, ?linkRetired, ?restore,
    ?bgRestorePage, ?bgRestoreNoImage, fun _ h => next_if_pos h⟩
  case reset =>
    intro tile s ht hs
    exact onTile_if_pos ht (by simp [hs])
  case railsRemoved =>
    rintro s hs hcut _ rfl
    exact next_if_pos (by simpa [hs] using hcut)
  case linkRetired =>
    rintro tile peer s ht hlinks _ rfl hwhole
    exact (onTile_if_neg ht hlinks).trans (next_if_pos (by simpa using hwhole))
  case restore =>
    intro tile lost s ht hs hdone hrebuild hroot hdump
    refine (onTile_if_neg ht (by simp_all)).trans ((next_if_neg (by simp)).trans (next_if_neg (by simp [hdump])))
  case bgRestorePage =>
    intro tile hard iters retry soft parity s ht hs haway hkey p hp hlevel h hhome c hbest
    simp only [exec_bgRestorePage hard iters retry soft parity ht hs haway hkey hp hlevel, hhome, hbest]
  case bgRestoreNoImage =>
    intro tile hard iters retry soft parity s ht hs haway hkey p hp hlevel hbest
    simp only [exec_bgRestorePage hard iters retry soft parity ht hs haway hkey hp hlevel, hbest]
    cases s.homeOf (p / 512) <;> rfl

/-! ### Start-up and self-test -/

/-- Settles O42, row by row. -/
theorem startupRowsComplete : Obligations.StartupRowsComplete := by
  refine ⟨?boot, fun _ _ h => next_if_pos h, fun _ _ _ ht => onTile_present ht, ?sliceResult, ?sliceBudgetExpiry, ?bankMeasureStart,
    fun _ h => next_if_pos h, ?bankMeasureEnd, ?releaseToService, fun _ => rfl⟩
  case boot =>
    intro temps s hs hover hwait
    exact (next_if_neg (by simpa [hs] using hover)).trans (next_if_neg hwait)
  case sliceResult =>
    intro tile slice outcome detail s ht hrun hlate
    exact (onTile_if_neg ht (by simpa using hrun)).trans (next_if_neg hlate)
  case sliceBudgetExpiry =>
    intro tile s ht x hx hlate
    rw [show exec (.sliceBudgetExpiry tile) s = _ from onTile_present ht, hx]
    exact next_if_pos hlate
  case bankMeasureStart =>
    intro hu v1 s hmay hidle hhigh hwait
    refine (next_if_pos (by simp [hmay, hidle, hhigh])).trans ?_
    rw [if_neg hwait]
  case bankMeasureEnd =>
    rintro t s hrun hlow hhigh _ rfl
    exact (next_if_neg (by simpa [Option.isSome_iff_ne_none] using hrun)).trans (next_if_pos (by simp [hlow, hhigh]))
  case releaseToService =>
    rintro s hmay _ rfl
    exact ⟨fun h => (next_if_neg (by simpa using hmay)).trans (next_if_pos h),
      fun h => (next_if_neg (by simpa using hmay)).trans (next_if_neg h)⟩

end Sys2Proof.Machine

/-! SUPPORT. Rows that complete: roles, the twin link and the items of the mirror stream (R265 to R298, R410, R411). -/

namespace Sys2Proof.Machine

/-! ### Pairing, roles and takeover -/

/-- Settles O43, row by row. -/
theorem twinRoleRowsComplete : Obligations.TwinRoleRowsComplete := by
  refine ⟨fun _ h => next_if_pos h, ?pathLost, ?resyncSnapshot, fun _ h => next_if_pos h, fun _ h => next_if_pos h, fun _ h => next_if_pos h,
    fun _ h => next_if_pos h, ?swapTimeout, fun _ h => next_if_pos h⟩
  case pathLost =>
    intro s _ hlost htold hword hlink
    rw [show exec .pathLost s = execPathLost s from rfl, execPathLost]
    simp only [decide_eq_true hword, Bool.eq_false_iff.mpr hlost, Bool.eq_false_iff.mpr htold, Bool.eq_false_iff.mpr hlink]
    exact next_if_pos rfl
  case resyncSnapshot =>
    rintro tile s ht hrole hresync hs e es hdiv _ rfl hready
    refine (onTile_if_neg ht (by simp [hrole, hresync, hs])).trans ?_
    rw [hdiv]
    exact next_if_pos hready
  case swapTimeout =>
    intro s hswap hdue
    exact (next_if_pos hswap).trans (next_if_pos hdue)

/-! ### The twin link, its frames and the arbiter -/

theorem exec_heartbeatWord_valid {l : List (Nat × Nat)} {w : Nat} {pad : Bool} {s : State} (hs : s.dstate ∉ [.off, .aonOnly, .s3])
    (hl : hbDecode l = some w) (hcrc : wordCrc w = w % 256) (horder : s.wordInOrder w) :
    exec (.heartbeatWord l pad) s =
      .next ((((s.setF 0 TWA.STATUS.ACTO_PAD (b2n pad)).updTwin (fun x => { x with lastWordAt := s.now })).checkInterlock w).hearWord 0 w) := by
  rw [exec_heartbeatWord hs, hl]
  exact next_if_neg (by simp [hcrc, horder])

theorem exec_twActiChange (level : Bool) (s : State) :
    exec (.twActiChange level) s =
      .next (let s1 := (s.setF 0 TWA.STATUS.ACTI (b2n level)).updTwin (fun x => { x with
          actiLowSince := if level then none else some (x.actiLowSince.getD s.now) })
        if level then (if s.flag 0 TWA.STATUS.ACTI then s1 else s1.contend) else s1) := rfl

/-- Settles O44, row by row. -/
theorem twinLinkRowsComplete : Obligations.TwinLinkRowsComplete := by
  refine ⟨?helloSend, ?hello, ?hbtxWordSend, ?heartbeatSend, fun _ _ _ _ hs hl hc ho => exec_heartbeatWord_valid hs hl hc ho, ?heartbeatInvalid,
    fun _ _ _ ht => onTile_present ht, ?creditBooksReset, fun _ _ _ ht => onTile_present ht, fun _ => rfl, fun _ h => next_if_pos h,
    ?actiHigh, ?actiLow, fun _ => rfl, fun _ h => next_if_pos h⟩
  case helloSend =>
    intro tile s ht h
    simp only [Bool.and_eq_true] at h
    obtain ⟨⟨⟨hup, hsa⟩, hpaired⟩, -⟩ := h
    exact onTile_if_pos ht (by simp only [hup, hsa, hpaired, Bool.and_self])
  case hello =>
    rintro tile frame s ht _ rfl hup hsecured
    exact onTile_if_pos ht (by simp only [hup, hsecured, Bool.and_self])
  case hbtxWordSend =>
    rintro s hbeats _ rfl
    exact next_if_pos hbeats
  case heartbeatSend =>
    intro tile s ht hbeats hup hsecured
    exact onTile_if_pos ht (by simp only [hbeats, hup, hsecured, Bool.and_self])
  case heartbeatInvalid =>
    intro periods pad s hs hnone
    exact exec_heartbeatWord_invalid hs hnone
  case creditBooksReset =>
    intro tile s ht hoff hacked
    exact onTile_if_pos ht (by simp only [hoff, hacked, List.isEmpty_nil, Bool.and_self])
  case actiHigh =>
    intro s hlow
    simp only [exec_twActiChange, b2n, if_true, hlow, Bool.false_eq_true, if_false]
  case actiLow =>
    intro s
    simp only [exec_twActiChange, b2n, Bool.false_eq_true, if_false]

/-- Settles O45, row by row. -/
theorem twinFrameRowsComplete : Obligations.TwinFrameRowsComplete := by
  refine ⟨?interlockFault, fun _ => rfl, fun _ _ _ ht => onTile_present ht, fun _ _ _ ht => onTile_present ht, ?fetchTimeout,
    ?mirrorRetransmit, fun _ _ _ ht => onTile_present ht, fun _ _ ht h => onTile_if_pos ht h, ?twinLinkUp, ?pnNear, ?replayedKn, ?foreignMac,
    ?replayed, ?icvFail, ?pairKeyTimeout⟩
  case interlockFault =>
    intro s t hsince hdue
    rw [show exec .interlockFault s = execInterlockFault s from rfl, execInterlockFault, hsince]
    exact next_if_pos (by simpa using hdue)
  case fetchTimeout =>
    intro tile id s ht x hx hdue
    rw [show exec (.fetchTimeout tile id) s = _ from onTile_present ht, hx]
    exact next_if_pos hdue
  case mirrorRetransmit =>
    intro tile s ht f fs hunacked hready hdue hsends
    rw [show exec (.mirrorRetransmit tile) s = _ from onTile_present ht, hunacked]
    exact (next_if_neg (by simp [hready, hdue])).trans (next_if_neg (not_le.mpr hsends))
  case twinLinkUp =>
    rintro tile s ht hserved _ hheld hrole _ rfl hkey
    have hkeep : (s.role == .active || s.role == .standby) = false := by simpa using hrole
    refine (onTile_if_neg ht (by simp [hserved, hheld])).trans ?_
    simp only [hkeep, Bool.false_eq_true, if_false]
    exact next_if_neg (by simpa using hkey)
  case pnNear =>
    intro tile s ht hup hpn
    exact onTile_if_pos ht (by simp only [hup, decide_eq_true hpn, Bool.and_self])
  case replayedKn =>
    intro tile mac kn s ht hup hkey hmac hold
    exact (onTile_if_neg ht (by simp [hup, hkey])).trans (next_if_pos (by simp [hmac, hold]))
  case foreignMac =>
    intro tile mac kn s ht hup hkey hmac
    exact (onTile_if_neg ht (by simp [hup, hkey])).trans ((next_if_neg (by simp [hmac])).trans (next_if_neg (by simp [hmac])))
  case replayed =>
    intro tile s ht hup
    exact (onTile_if_neg ht (by simp [hup])).trans (next_if_pos rfl)
  case icvFail =>
    intro tile s ht hup
    exact (onTile_if_neg ht (by simp [hup])).trans (next_if_neg Bool.false_ne_true)
  case pairKeyTimeout =>
    intro tile s ht hdue hpair
    exact (onTile_if_pos ht hdue).trans (next_if_pos hpair)

/-! ### The items of the mirror stream -/

/-- Settles O46: each row hands its item to the stream of its tile. -/
theorem twinItemRowsComplete : Obligations.TwinItemRowsComplete :=
  ⟨fun _ _ _ ht => onTile_present ht, fun _ _ ht => onTile_present ht, fun _ _ ht => onTile_present ht, fun _ _ ht => onTile_present ht,
    fun _ _ ht => onTile_present ht, fun _ _ ht => onTile_present ht, fun _ _ ht => onTile_present ht, fun _ _ ht => onTile_present ht,
    fun _ _ ht => onTile_present ht, fun _ => rfl, fun _ => rfl, fun _ => rfl, fun _ _ ht => onTile_present ht, fun _ _ ht => onTile_present ht,
    fun _ _ ht => onTile_present ht, fun _ => rfl, fun _ => rfl, fun _ _ ht => onTile_present ht⟩

end Sys2Proof.Machine

/-! SUPPORT. Rows that complete: the nonvolatile store, the event record, the key engine, the session timers and the two-wire bus
(R331 to R348, R396 to R405, R415 to R459). -/

namespace Sys2Proof.Machine

/-! ### The nonvolatile store and the event record -/

/-- Settles O47, row by row. -/
theorem storeRowsComplete : Obligations.StoreRowsComplete := by
  refine ⟨fun _ _ _ _ _ _ ht => onTile_present ht, fun _ _ _ _ _ ht h => onTile_if_neg ht h, fun _ _ _ _ ht => onTile_present ht,
    fun _ _ _ _ _ ht => onTile_present ht, fun _ _ _ _ ht h => onTile_if_neg ht h, ?nvsOperationEnd, fun _ _ _ _ _ ht => onTile_present ht,
    fun _ _ ht h => onTile_if_pos ht h, fun _ _ _ ht h => onTile_if_pos ht h, fun _ _ ht => exec_eventArrival ht, ?openWindowEnd,
    fun _ h => exec_recordCommit h⟩
  case nvsOperationEnd =>
    rintro tile s ht o hbusy _ rfl
    rw [show exec (.nvsOperationEnd tile) s = _ from onTile_present ht, hbusy]
    simp only [Bool.and_eq_true, decide_eq_true_eq]
  case openWindowEnd =>
    intro s o ho hdue
    exact next_if_pos (by simp [ho, hdue])

/-! ### The key engine -/

/-- Settles O48, row by row. -/
theorem keyRowsComplete : Obligations.KeyRowsComplete := by
  refine ⟨fun _ _ _ h => onSubmitter_present h, fun _ _ _ h => onSubmitter_present h, fun _ _ _ h => onSubmitter_present h,
    fun _ _ _ h => onSubmitter_present h, fun _ => rfl, fun _ => rfl, ?entropyRestart, ?kseQueueCheck⟩
  case entropyRestart =>
    intro s hdead hok hold
    have hfails : s.kse.fails.any (fun x => decide (s.now < x + 10000)) = false := by simpa using hold
    refine (next_if_neg (by simp [hdead, hok, hfails])).trans (next_if_pos rfl)
  case kseQueueCheck =>
    intro submitter free s hsub hdiffers
    exact (onSubmitter_present hsub).trans (next_if_neg hdiffers)

/-! ### Session timers, MCTP control and the two-wire bus -/

theorem exec_setEndpointId {op eid : Nat} {s : State} (hop : op ≤ 1) (h0 : eid ≠ 0) (h255 : eid ≠ 255) :
    exec (.setEndpointId op eid) s =
      .next ({ s with twb := { s.twb with ctl := s.twb.ctl.tail, eid := eid % 256 } }.send
        (.mctp [0x01#8, 0#8, 0#8, BitVec.ofNat 8 eid, 0#8])) := if_pos (by simp [hop, h0, h255])

theorem exec_transfer {x : SmbusXfer} {s : State} (kHz : Nat) (hawake : s.twbAwake) (hack : ¬s.twb.nackUntilBoot) (hheld : s.twb.held = none) :
    (.next (s.xfer x kHz) : Host.Outcome State Fault Refusal) = .next ((s.addressedAt kHz).matchWake.awakeXfer x) :=
  congrArg Host.Outcome.next (xfer_answered x kHz hawake hack hheld)

/-- In S2, S3 and AON_ONLY a target that neither NACKs nor holds a packet takes the transaction in its sleep logic. -/
theorem exec_addressMatchSleep {x : SmbusXfer} {kHz : Nat} {s : State} (hs : s.dstate ∈ [.s2, .s3, .aonOnly]) (hheld : s.twb.held = none)
    (hack : ¬s.twb.nackUntilBoot) :
    exec (.addressMatchSleep x kHz) s =
      .next (if s.dstate == .s2 then ((((s.addressedAt kHz).sleepXfer x).ev 0 TWB.EVENTS.WAKE_MATCH).wakeUp 2).serveHeld
        else if s.dstate == .s3 then (((s.addressedAt kHz).sleepXfer x).wakeUp 2).ev 0 TWB.EVENTS.WAKE_MATCH
        else (s.addressedAt kHz).sleepXfer x) := by
  simp only [List.mem_cons, List.not_mem_nil, or_false] at hs
  have hasleep : ¬(s.dstate == .s1) = true ∧ ¬(s.dstate != .s2 && s.dstate != .s3 && s.dstate != .aonOnly) = true := by
    rcases hs with h | h | h <;> simp [h]
  exact (next_if_neg hasleep.1).trans ((next_if_neg hasleep.2).trans (next_if_neg (by simp [hheld, hack])))

/-- Settles O49, row by row. -/
theorem busRowsComplete : Obligations.BusRowsComplete := by
  refine ⟨fun _ _ => rfl, ?sessionIdle, ?lockout, fun _ _ _ hop h0 h255 => exec_setEndpointId hop h0 h255, fun _ => rfl, ?mctpVersion,
    fun _ => rfl, ?vendorSupport, ?blockWrite, ?blockWriteOther, ?blockReadEmpty, ?blockRead, fun kHz _ ha hn hh => exec_transfer kHz ha hn hh,
    ?matchS1, ?matchS2, ?matchS3, ?matchAon, fun _ _ h => next_if_pos h, fun _ _ h => next_if_pos h, fun _ _ h => next_if_neg h, ?busError,
    ?sclTimeout, ?recovered, ?stuck⟩
  case mctpVersion =>
    intro s
    rw [show exec (.getMctpVersionSupport 0xff) s = execGetMctpVersionSupport 0xff s from rfl, execGetMctpVersionSupport, if_pos (by decide)]
  case vendorSupport =>
    intro s
    rw [show exec (.getVendorMessageSupport 0) s = execGetVendorMessageSupport 0 s from rfl, execGetVendorMessageSupport, if_pos rfl]
  case sessionIdle =>
    intro point s x hx hidle
    rw [show exec (.sessionIdleExpiry point) s = execSessionIdleExpiry point s from rfl, execSessionIdleExpiry, hx, Option.any_some,
      if_pos (decide_eq_true hidle)]
  case lockout =>
    intro role since s hmem hdue
    exact next_if_pos (List.any_eq_true.mpr ⟨_, hmem, by simp [hdue]⟩)
  case blockWrite =>
    intro bytes kHz s hawake hack hheld
    refine (exec_transfer kHz hawake hack hheld).trans ?_
    rw [State.awakeXfer, if_pos rfl]
  case blockWriteOther =>
    intro cmd bytes kHz s hawake hack hheld hcmd
    exact (exec_transfer kHz hawake hack hheld).trans (next_if_neg hcmd)
  case blockReadEmpty =>
    rintro done kHz s hawake hack hheld _ rfl hempty
    refine (exec_transfer kHz hawake hack hheld).trans ?_
    rw [State.awakeXfer, State.blockRead, hempty]
  case blockRead =>
    rintro kHz s hawake hack hheld _ rfl p q hpkts
    refine ⟨(exec_transfer kHz hawake hack hheld).trans ?_, (exec_transfer kHz hawake hack hheld).trans ?_⟩
    · rw [State.awakeXfer, State.blockRead, hpkts]
      exact next_if_pos rfl
    · rw [State.awakeXfer, State.blockRead, hpkts]
      exact next_if_neg Bool.false_ne_true
  case matchS1 =>
    intro x kHz s hs
    exact next_if_pos (by simp [hs])
  case matchS2 =>
    intro x kHz s hheld hack hs
    rw [exec_addressMatchSleep (by simp [hs]) hheld hack, if_pos (by simp [hs])]
  case matchS3 =>
    intro x kHz s hheld hack hs
    rw [exec_addressMatchSleep (by simp [hs]) hheld hack, if_neg (by simp [hs]), if_pos (by simp [hs])]
  case matchAon =>
    intro x kHz s hheld hack hs
    rw [exec_addressMatchSleep (by simp [hs]) hheld hack, if_neg (by simp [hs]), if_neg (by simp [hs])]
  case busError =>
    intro s hon
    exact next_if_neg (by simpa using hon)
  case sclTimeout =>
    intro s hon
    exact next_if_neg (by simpa using hon)
  case recovered =>
    rintro pulses s hmay hpulses _ rfl
    exact (next_if_neg (by simpa using hmay)).trans (next_if_pos hpulses)
  case stuck =>
    rintro pulses s hmay hpulses _ rfl
    exact (next_if_neg (by simpa using hmay)).trans (next_if_neg (not_le.mpr hpulses))

end Sys2Proof.Machine

/-! SUPPORT. Rows that complete: the DRAM channels, main-tier integrity, the tier cache, the deep tier and Firn (R52, R62 to R180). -/

namespace Sys2Proof.Machine

theorem onChannel_if_pos {t c : Nat} {p : Prop} [Decidable p] {s x y : State} (ht : t < s.tiles) (hc : c < 3) (h : p) :
    onChannel t c s (if p then x else y) = .next x := by rw [onChannel_present ht hc, if_pos h]

theorem onUnit_if_pos {t u n : Nat} {p : Prop} [Decidable p] {s x y : State} (ht : t < s.tiles) (hu : u < n) (h : p) :
    onUnit t u n s (if p then x else y) = .next x := by rw [onUnit_present ht hu, if_pos h]

theorem onUnit_if_neg {t u n : Nat} {p : Prop} [Decidable p] {s x y : State} (ht : t < s.tiles) (hu : u < n) (h : ¬p) :
    onUnit t u n s (if p then x else y) = .next y := by rw [onUnit_present ht hu, if_neg h]

/-! ### The DRAM channels -/

/-- The code of a repair result: 1, 2, 3, the multiple of three read as 3. -/
theorem repairCode (n : Nat) : n % 3 + 3 * b2n (n % 3 == 0) = if n % 3 = 0 then 3 else n % 3 := by
  by_cases h : n % 3 = 0 <;> simp [h, b2n]

theorem repairCode_of_mem {result : Nat} (h : result ∈ [1, 2, 3]) : result % 3 % 3 + 3 * b2n (result % 3 % 3 == 0) = result := by
  rw [repairCode]
  simp only [List.mem_cons, List.not_mem_nil, or_false] at h
  split <;> omega

theorem exec_tempPoll_cool {tile ch : Nat} {temps : List Nat} (mode : Bool) {s : State} (ht : tile < s.tiles) (hc : ch < 3)
    (hcool : temps.foldl max 0 ≤ 85) :
    exec (.tempPoll tile ch temps mode) s =
      .next ((s.updDmc tile ch (fun x => { x with temps := temps })).setFs tile
        [(Fld.inst DMC.REF.TEMP ch, temps.foldl max 0), (Fld.inst DMC.REF.HIGH_TEMP ch, b2n mode)]) := by
  have hnot : decide (85 < temps.foldl max 0) = false := decide_eq_false (not_lt.mpr hcool)
  refine (onChannel_present ht hc).trans (congrArg Host.Outcome.next ?_)
  simp only [hnot, Bool.false_and, Bool.false_or, Bool.false_eq_true, if_false]

/-- Settles O50, row by row. -/
theorem dramRowsComplete : Obligations.DramRowsComplete := by
  refine ⟨fun _ _ _ _ ht hc => onChannel_present ht hc, fun _ _ _ ht hc => onChannel_present ht hc, fun _ _ _ ht hc => onChannel_present ht hc,
    fun _ _ _ ht hc => onChannel_present ht hc, ?dramRequest, fun _ _ _ _ ht hc h => onChannel_if_pos ht hc h, ?refreshDebtMax,
    fun _ _ _ mode _ ht hc h => exec_tempPoll_cool mode ht hc h, ?rowIdleClose, ?panicLong, fun _ _ _ _ _ _ ht hc => onChannel_present ht hc,
    fun _ _ _ _ _ _ ht hc => onChannel_present ht hc, fun _ _ _ _ _ _ ht hc => onChannel_present ht hc,
    fun _ _ _ _ _ _ ht hc => onChannel_present ht hc, ?dramTrain, ?spprStart, ?spprEnd, ?hppr, fun _ _ ht h => onTile_if_pos ht h,
    ?s2RankReturn⟩
  case dramRequest =>
    intro tile ch sub s ht hc q hq
    rw [show exec (.dramRequest tile ch sub) s = _ from onChannel_present ht hc, hq]
  case refreshDebtMax =>
    intro tile ch rank s ht hc h
    exact onChannel_if_pos ht hc (by simpa using h)
  case rowIdleClose =>
    intro tile ch bank s ht hc hpolicy
    rw [show exec (.rowIdleClose tile ch bank) s = _ from onChannel_present ht hc, if_neg (by simp [hpolicy])]
  case panicLong =>
    intro tile ch s ht hc p hp hcounts hlong
    rw [show exec (.panicLong tile ch) s = _ from onChannel_present ht hc, hp]
    exact next_if_pos (by simp [hcounts, hlong])
  case dramTrain =>
    intro found compareBad bad s hs htrained hphase
    exact next_if_pos (by simp [hs, htrained, hphase])
  case spprStart =>
    intro tile ch w result s ht hc hidle hresult
    rw [show exec (.sppr tile ch w (result % 3)) s = _ from onChannel_present ht hc, repairCode_of_mem hresult, hidle]
  case spprEnd =>
    intro tile ch w v at0 result s ht hc hrepair hat hplace hresult
    rw [show exec (.sppr tile ch w (result % 3)) s = _ from onChannel_present ht hc, repairCode_of_mem hresult, hrepair, hat]
    exact next_if_pos hplace
  case hppr =>
    intro tile ch w result s ht hc hresult
    rw [show exec (.hppr tile ch w (result % 3)) s = _ from onChannel_present ht hc, repairCode_of_mem hresult]
  case s2RankReturn =>
    rintro tile compareBad bad s ht hs haway _ rfl
    have hback : (s.dstate == .service && s.pow.ranksAway.contains tile) = true := by simpa [hs] using haway
    exact ⟨fun h => (onTile_if_pos ht hback).trans (next_if_neg (by simp [h])),
      fun h => (onTile_if_pos ht hback).trans (next_if_pos (by simpa using h))⟩

/-! ### Main-tier integrity -/

/-- Settles O51, row by row. -/
theorem decRowsComplete : Obligations.DecRowsComplete := by
  refine ⟨fun _ _ _ _ _ _ _ ht => onTile_present ht, ?firstWrite, fun _ _ _ ht h => onTile_if_pos ht h, ?frameFree, ?pageRetire,
    fun _ _ _ ht h => onTile_if_pos ht h, ?scrubRead, ?errorLogPoll, fun _ _ _ ht => onTile_present ht, fun _ _ _ ht => onTile_present ht⟩
  case firstWrite =>
    intro tile page s ht htest hborn e he x hx
    refine (onTile_if_neg ht htest).trans ((next_if_neg hborn).trans ?_)
    rw [he, Option.bind_some, hx]
  case frameFree =>
    intro tile frame s ht h
    exact onTile_if_neg ht (by simpa using h)
  case pageRetire =>
    intro tile page s ht e he hfreeze
    rw [show exec (.pageRetire tile page) s = _ from onTile_present ht, he]
    exact next_if_neg hfreeze
  case scrubRead =>
    intro tile ch err s ht hc hscrubs l hl
    rw [show exec (.scrubRead tile ch err) s = _ from onChannel_present ht hc, if_neg (by simp [hscrubs]), hl]
  case errorLogPoll =>
    intro tile ppr s ht hs
    simp only [← repairCode]
    exact onTile_if_pos ht hs

/-! ### The tier cache -/

theorem exec_tchEnWrite {s : State} {t : Nat} (en : Bool) (h : t < s.tiles) (k : t ≠ 15) : exec (.tchEnWrite t en) s = .next (s.enWrite t en) :=
  onTiles_present (f := fun u a => a.enWrite u en) h k

/-- Settles O52, row by row. -/
theorem cacheRowsComplete : Obligations.CacheRowsComplete := by
  refine ⟨fun _ _ _ _ _ _ _ ht => onTile_present ht, ?cacheFill, fun _ _ ht => onTile_present ht, fun _ _ ht => onTile_present ht,
    fun _ _ ht => onTile_present ht, fun _ en _ ht h => exec_tchEnWrite en ht h, fun _ _ ht h => onTile_if_pos ht h,
    fun _ value _ ht h => exec_tchWaypwrWrite value ht h, fun _ value _ ht h => exec_tchWayclassWrite value ht h, ?wayCleanDone,
    fun _ _ _ ht hw h => onUnit_if_pos ht hw h, ?repartitionDone⟩
  case cacheFill =>
    intro tile n s ht m hm
    rw [show exec (.cacheFill tile n) s = _ from onTile_present ht, hm]
  case wayCleanDone =>
    rintro tile way s ht hway hcleaning hmiss _ rfl hranges
    have hnomiss : s.cache.missq.any (fun m => m.tile == tile && m.way == some way) = false := by simpa using hmiss
    have hempty : (s.cleanWay tile way).cache.ranges.any (fun r => r.tile == tile && r.way == way) = false := by simpa using hranges
    exact (onUnit_if_neg ht hway (by simp [hcleaning, hnomiss])).trans (next_if_neg (by simp [hempty]))
  case repartitionDone =>
    rintro tile s ht n hn hrepart hdirty _ rfl
    rw [show exec (.repartitionDone tile) s = _ from onTile_present ht, hn]
    exact next_if_neg (by simp [hrepart, hdirty])

/-! ### The deep tier and Firn -/

/-- Settles O53, row by row. -/
theorem deepRowsComplete : Obligations.DeepRowsComplete := by
  refine ⟨?deepRead, ?suspendRead, ?deepProgramFail, ?eraseFail, ?gcStart, fun _ _ ht h => onTile_if_pos ht h, ?blockEraseDone, ?tableFlush,
    ?dumpArm, ?previousRelease, ?wearStage, ?deepFirstFormat, ?deepRebuildDone, ?firnCapture, ?firnDeepMerge,
    fun _ _ _ _ ht h => onTile_if_pos ht h, fun _ _ ht h => onTile_if_neg ht h, ?localImageWrite⟩
  case deepRead =>
    intro tile page hard iters retry soft parity s ht d hd hcaptured hkey step hstep
    rw [show exec (.deepRead tile page hard iters retry soft parity) s = _ from onTile_present ht, hd]
    simp only [hcaptured, hkey, hstep, Option.isSome_none, Option.isSome_some, Bool.not_true, Bool.false_eq_true, if_false, if_true]
  case suspendRead =>
    intro tile page us busy s ht d hd hlun hbusy htwo
    rw [show exec (.suspendRead tile page us busy) s = _ from onTile_present ht, hd]
    exact next_if_pos (by simp [hlun, hbusy, htwo])
  case deepProgramFail =>
    intro tile stripe ch s ht hc hopen hcaps
    exact (onUnit_if_pos ht hc hopen).trans (next_if_neg hcaps)
  case eraseFail =>
    intro tile stripe ch s ht hc herasing hgood
    exact onUnit_if_pos ht hc (by simp [herasing, hgood])
  case gcStart =>
    intro tile s ht hdue hs v hv
    refine (onTile_if_neg ht (by simp [hdue, hs])).trans ?_
    dsimp only
    rw [hv]
  case blockEraseDone =>
    intro tile stripe us s ht x hx hst hrefs hs
    rw [show exec (.blockEraseDone tile stripe us) s = _ from onTile_present ht, hx]
    exact next_if_neg (by simp [hst, hrefs, hs])
  case tableFlush =>
    intro tile s ht hdirty hkey
    exact (onTile_if_neg ht (by simpa using hdirty)).trans ((next_if_neg (by simp [hkey])).trans (next_if_neg Bool.false_ne_true))
  case dumpArm =>
    intro tile s ht hs harea
    rw [show exec (.dumpArm tile) s = _ from onTile_present ht, hs]
    exact next_if_neg (by simp [harea])
  case previousRelease =>
    intro tile s ht a ha hnewer
    rw [show exec (.previousRelease tile) s = _ from onTile_present ht, ha]
    exact next_if_pos hnewer
  case wearStage =>
    intro tile stage stripe ch tprog s ht hc hstage hreached
    refine (onUnit_present ht hc).trans ?_
    rw [if_neg hstage]
    exact next_if_pos hreached
  case deepFirstFormat =>
    intro s hs hroots
    exact (next_if_neg (by simp [hs])).trans (next_if_pos (by simp [hroots]))
  case deepRebuildDone =>
    intro tile s ht hrebuild
    exact onTile_if_neg ht (by simpa using hrebuild)
  case firnCapture =>
    intro tile near s ht u hu hruns
    rw [show exec (.firnCapture tile near) s = _ from onTile_present ht, hu]
    exact next_if_pos hruns
  case firnDeepMerge =>
    rintro tile page s ht hruns ⟨r, hr, rfl, rfl⟩
    have hany : s.firn.ranges.any (fun q => q.tile == r.tile && q.n / 32 == r.n / 32) = true := List.any_eq_true.mpr ⟨r, hr, by simp⟩
    exact onTile_if_pos ht (by simp only [hruns, hany, Bool.and_self])
  case localImageWrite =>
    rintro page s h hhome hcopies htier hruns hdeep _ rfl hreadable hfits bs s1 hread
    rw [show exec (.localImageWrite page) s = execLocalImageWrite page s from rfl, execLocalImageWrite, hhome]
    simp only [hread]
    exact (next_if_neg (by simp [hcopies, htier, hruns])).trans ((next_if_neg (by simp [hdeep])).trans
      (next_if_neg (by simp [hreadable, hfits])))

end Sys2Proof.Machine

/-! SUPPORT. Rows that complete: links, connections, packets and portions (R168 to R231). -/

namespace Sys2Proof.Machine

theorem onLport_if_pos {t port lp : Nat} {p : Prop} [Decidable p] {s x y : State} (ht : t < s.tiles) (hp : port < 2) (hl : lp < 4) (h : p) :
    onLport t port lp s (if p then x else y) = .next x := by rw [onLport_present ht hp hl, if_pos h]

/-- A packet of the row that is no request: the meaning runs and a sleep entry goes on. -/
theorem onPacket_response {p : Packet} {own : List Nat} {s x : State} (ht : p.tile < s.tiles) (hp : p.port < 2) (hl : p.lport < 4)
    (hown : own.contains p.opcode = true) (h : isRequest p = false) : onPacket p own s x = .next x := by
  rw [onPacket_present ht hp hl hown, if_neg (by simp [h])]

theorem onPacket_request {p : Packet} {own : List Nat} {s x : State} (ht : p.tile < s.tiles) (hp : p.port < 2) (hl : p.lport < 4)
    (hown : p.opcode ∈ own) (h : isRequest p = true) : onPacket p own s x = .next x.abortSleep := by
  rw [onPacket_present ht hp hl (by simpa using hown), if_pos h]

/-! ### Links, connections and acknowledgements -/

theorem updNet_congr {s : State} {f g : Net → Net} (h : f s.net = g s.net) : s.updNet f = s.updNet g := by
  simp only [State.updNet, h]

theorem exec_ethFrame_awake {tile port dscp : Nat} {pcp : Option Nat} {i : FrameInfo} {s : State} (ht : tile < s.tiles) (hp : port < 2)
    (hs : s.dstate = .service) : exec (.ethFrame tile port pcp dscp i) s = .next (s.frameIn tile port (s.framePrio tile port pcp dscp) i) := by
  have hawake : ¬(s.dstate == .s1) = true := by simp [hs]
  have hserved : pointServed s.dstate 1 = true := by rw [hs]; rfl
  refine (onUnit_present ht hp).trans ?_
  rw [if_neg hawake]
  exact next_if_pos hserved

theorem exec_pfcPause_first {tile port prio : Nat} {s s1 : State} (ht : tile < s.tiles) (hp : port < 2)
    (hnone : amapFind (prioKey tile port (prio % 8)) s.net.pausedAt = none)
    (h1 : s1 = (s.bump tile (ETH.PFC_RX.COUNT.inst port) 1).setF tile (ETH.STATUS.TX_PAUSED.inst port)
      (setBit (s.fld tile (ETH.STATUS.TX_PAUSED.inst port)) (prio % 8) true)) :
    exec (.pfcPause tile port prio true) s =
      .next (s1.updNet (fun x => { x with pausedAt := amapInsert (prioKey tile port (prio % 8)) s.now x.pausedAt })) := by
  have hnet : s1.net = s.net := by rw [h1, State.setF_net, State.bump_net]
  refine (onUnit_present ht hp).trans (congrArg Host.Outcome.next ?_)
  rw [if_pos rfl, ← h1]
  exact updNet_congr (by simp only [hnet, hnone, Option.isSome_none, Bool.false_eq_true, if_false])

theorem exec_req_awake {r : ConnectReq} {s : State} (ht : r.tile < s.tiles) (hp : r.port < 2) (hl : r.lport < 4) (hs : s.dstate ≠ .s1)
    (hserved : pointServed s.dstate 1) (hserving : r.service → s.serving) : exec (.req r) s = .next (s.answerReq r) := by
  have hawake : ¬(s.dstate == .s1) = true := by simpa using hs
  refine (onLport_present ht hp hl).trans ?_
  rw [if_neg hawake]
  exact (next_if_neg (by simp [hserved])).trans (next_if_neg (by simpa using hserving))

theorem exec_readResponse {p : Packet} {s : State} (ht : p.tile < s.tiles) (hp : p.port < 2) (hl : p.lport < 4)
    (hop : p.opcode ∈ [0x0D, 0x0E, 0x0F, 0x10]) :
    exec (.readResponse p) s = .next (s.response p (fun a q => a.readResponse q p.psn p.data)) := by
  have hresp : isRequest p = false := by
    simp only [List.mem_cons, List.not_mem_nil, or_false] at hop
    rcases hop with h | h | h | h <;> simp [isRequest, h]
  exact onPacket_response ht hp hl (by simpa using hop) hresp

/-- Settles O54, row by row. -/
theorem connectRowsComplete : Obligations.ConnectRowsComplete := by
  refine ⟨?ethLinkUp, fun _ _ _ _ ht hp hl => onLport_present ht hp hl, ?linkDownHold, fun _ _ _ _ _ _ ht hp hs => exec_ethFrame_awake ht hp hs,
    fun _ _ _ _ ht hp hnone _ h1 => exec_pfcPause_first ht hp hnone h1, ?pfcWatchdog,
    fun _ _ ht hp hl hs hserved hserving => exec_req_awake ht hp hl hs hserved hserving, fun _ _ => rfl, ?connectTimeout, fun _ _ => rfl,
    fun _ _ => rfl, ?errHoldExpiry, fun _ _ ht hp hl => onPacket_response ht hp hl rfl rfl,
    fun _ _ ht hp hl hop => exec_readResponse ht hp hl hop, ?ackTimeout, ?rnrTimer, fun _ _ ht hp hl => onPacket_response ht hp hl rfl rfl,
    ?cnpRateRestore⟩
  case ethLinkUp =>
    intro tile port lport s ht hp hl hserved hheld
    exact onLport_if_pos ht hp hl (by rw [hserved]; simpa using hheld)
  case linkDownHold =>
    intro tile port lport s ht hp hl since hsince hlong
    rw [show exec (.linkDownHoldExpiry tile port lport) s = _ from onLport_present ht hp hl, hsince]
    exact next_if_pos hlong
  case pfcWatchdog =>
    intro tile port prio s ht hp since hsince hlong
    obtain ⟨hlossless, hlate⟩ := Bool.and_eq_true_iff.mp hlong
    exact exec_pfcWatchdog ht hp hsince hlossless (of_decide_eq_true hlate)
  case connectTimeout =>
    intro qpn rej s q hq hdue
    simp only [Bool.and_eq_true, Bool.or_eq_true, decide_eq_true_eq] at hdue
    obtain ⟨hst, hlate⟩ := hdue
    exact exec_connectTimeout hq hst hlate
  case errHoldExpiry =>
    intro qpn s q hq a ha hdue
    rw [show exec (.errHoldExpiry qpn) s = execErrHoldExpiry qpn s from rfl, execErrHoldExpiry, hq]
    simp only [ha]
    exact next_if_pos (by simpa using hdue)
  case ackTimeout =>
    intro qpn s q hq hdue
    rw [show exec (.ackTimeout qpn) s = execAckTimeout qpn s from rfl, execAckTimeout, hq]
    exact next_if_pos (by simpa using hdue)
  case rnrTimer =>
    intro qpn s q hq hwait
    rw [show exec (.rnrTimer qpn) s = execRnrTimer qpn s from rfl, execRnrTimer, hq]
    exact next_if_pos (by simpa using hwait)
  case cnpRateRestore =>
    intro qpn s q hq a ha hdue
    rw [show exec (.cnpRateRestore qpn) s = execCnpRateRestore qpn s from rfl, execCnpRateRestore, hq]
    simp only [ha]
    exact next_if_pos hdue

/-! ### Packets, portions and windows -/

theorem isRequest_of_lt {p : Packet} (h : p.opcode < 0x0D) : isRequest p = true := by simp [isRequest, h]

theorem opcode_lt_of_send {p : Packet} (h : p.opcode ∈ [0x00, 0x01, 0x02, 0x04]) : p.opcode < 0x0D := by
  simp only [List.mem_cons, List.not_mem_nil, or_false] at h
  omega

theorem opcode_lt_of_write {p : Packet} (h : p.opcode ∈ [0x06, 0x07, 0x08, 0x0A]) : p.opcode < 0x0D := by
  simp only [List.mem_cons, List.not_mem_nil, or_false] at h
  omega

theorem opcode_lt_of_writeImm {p : Packet} (h : p.opcode ∈ [0x09, 0x0B]) : p.opcode < 0x0D := by
  simp only [List.mem_cons, List.not_mem_nil, or_false] at h
  omega

theorem exec_windowRecompute_due {tile : Nat} {s : State} (ht : tile < s.tiles)
    (hdue : ∀ a, amapFind tile s.net.winAt = some a → a + 100 ≤ s.now) : exec (.windowRecompute tile) s = .next (s.windows tile) := by
  rw [show exec (.windowRecompute tile) s = _ from onTile_present ht]
  cases hlast : amapFind tile s.net.winAt with
  | none => rfl
  | some a => exact next_if_pos (hdue a hlast)

/-- Settles O55, row by row. -/
theorem transportRowsComplete : Obligations.TransportRowsComplete := by
  refine ⟨fun _ _ => rfl, ?send, ?write, ?writeImm, ?read, ?cmpSwap, ?fetchAdd, ?windowRecompute, ?bufBooks, fun _ _ => rfl, ?applyPortion,
    ?admitPortion, ?tokenGrant, ?discardPortion⟩
  case send =>
    intro p s ht hp hl hop
    exact onPacket_request ht hp hl hop (isRequest_of_lt (opcode_lt_of_send hop))
  case write =>
    intro p s ht hp hl hop
    exact onPacket_request ht hp hl hop (isRequest_of_lt (opcode_lt_of_write hop))
  case writeImm =>
    intro p s ht hp hl hop
    exact onPacket_request ht hp hl hop (isRequest_of_lt (opcode_lt_of_writeImm hop))
  case read =>
    intro p near s ht hp hl hop
    exact onPacket_request ht hp hl (by simp [hop]) (isRequest_of_lt (by omega))
  case cmpSwap =>
    intro p s ht hp hl hop
    exact onPacket_request ht hp hl hop (by simp [isRequest, List.mem_singleton.mp hop])
  case fetchAdd =>
    intro p s ht hp hl hop
    exact onPacket_request ht hp hl hop (by simp [isRequest, List.mem_singleton.mp hop])
  case windowRecompute =>
    rintro tile s ht _ rfl _ rfl _ rfl hdue
    exact exec_windowRecompute_due ht hdue
  case bufBooks =>
    intro tile s ht hwrong
    exact onTile_if_neg ht (fun h => hwrong (Bool.and_elim_left h))
  case applyPortion =>
    rintro id s p hp hready _ rfl
    rw [show exec (.applyPortion id) s = execApplyPortion id s from rfl, execApplyPortion, hp]
    have hgo : ¬(!(p.st == .admitted && p.arrived && !s.aheadInUnit p)) = true := by simpa using hready
    exact ⟨fun hpages hhome => (next_if_neg hgo).trans (next_if_pos (by simp [hpages, hhome])),
      fun hnot => (next_if_neg hgo).trans (next_if_neg hnot)⟩
  case admitPortion =>
    intro id s p hp
    rw [show exec (.admitPortion id) s = execAdmitPortion id s from rfl, execAdmitPortion, hp]
  case tokenGrant =>
    intro tile s ht p hp hmay
    rw [show exec (.tokenGrant tile) s = _ from onTile_present ht, hp]
    exact next_if_pos hmay
  case discardPortion =>
    intro id s p hp hst horphan hgone
    rw [show exec (.discardPortion id) s = execDiscardPortion id s from rfl, execDiscardPortion, hp]
    exact next_if_pos (by rw [hst, horphan, hgone]; rfl)

end Sys2Proof.Machine

/-! SUPPORT. Rows that complete: capsules, revocations, orders, moves, the engine feed and register writes (R20 to R53, R242 to R354). -/

namespace Sys2Proof.Machine

/-! ### Capsules and descriptors -/

/-- Settles O56, row by row. -/
theorem capsuleRowsComplete : Obligations.CapsuleRowsComplete := by
  refine ⟨fun _ _ _ hq _ hc => exec_capsuleStart_some hq hc, fun _ _ => rfl, fun _ _ => rfl, ?capsulePull, fun _ _ => rfl, fun _ _ => rfl,
    fun _ _ => rfl, fun _ _ => rfl, fun _ _ => rfl, fun _ _ => rfl, fun _ _ => rfl, ?capsuleComplete⟩
  case capsulePull =>
    intro id s p hp e he hpull
    rw [show exec (.capsulePull id) s = execCapsulePull id s from rfl, execCapsulePull, hp]
    simp only [he]
    exact next_if_pos hpull
  case capsuleComplete =>
    intro i s e he hend r hr
    rw [show exec (.capsuleComplete i) s = execCapsuleComplete i s from rfl, execCapsuleComplete, he]
    simp only [hr]
    exact next_if_pos hend

/-! ### Revocations, orders and moves -/

/-- Settles O57, row by row. -/
theorem moveRowsComplete : Obligations.MoveRowsComplete := by
  refine ⟨?phase1, ?phase2, ?rasterLine, ?chainCount, ?moveRequest, fun _ _ => rfl, ?moveCleaned, fun _ _ _ => rfl, fun _ _ => rfl,
    ?homeMapApply, ?forwardToHome⟩
  case phase1 =>
    intro s v vs hv hend
    rw [show exec .revokePhase1End s = execRevokePhase1End s from rfl, execRevokePhase1End, hv]
    exact next_if_pos (by simpa using hend)
  case phase2 =>
    intro s v vs hv hphase hplacing r hr hdrained
    rw [show exec .revokePhase2End s = execRevokePhase2End s from rfl, execRevokePhase2End, hv]
    simp only [hr]
    exact next_if_pos (by simp [hphase, hplacing, hdrained])
  case rasterLine =>
    intro stream s n hn
    rw [show exec (.orderRasterLine stream) s = execOrderRasterLine stream s from rfl, execOrderRasterLine, hn]
  case chainCount =>
    intro cqn s c hc
    rw [show exec (.orderChainCount cqn) s = execOrderChainCount cqn s from rfl, execOrderChainCount, hc]
  case moveRequest =>
    intro s e q l hissued
    rw [show exec .moveRequest s = execMoveRequest s from rfl, execMoveRequest, hissued]
  case moveCleaned =>
    intro ext s m hm hclean
    rw [show exec (.moveCleaned ext) s = execMoveCleaned ext s from rfl, execMoveCleaned, hm]
    exact next_if_pos hclean
  case homeMapApply =>
    intro tile ext s ht x hx
    rw [show exec (.homeMapApply tile ext) s = _ from onTile_present ht, hx]
  case forwardToHome =>
    intro id s p hp h hhome haway
    rw [show exec (.forwardToHome id) s = execForwardToHome id s from rfl, execForwardToHome, hp]
    simp only [hhome]
    exact next_if_pos haway

/-! ### The engine feed -/

/-- A lane lost while its last good status is fresh, with no spare lane allowed: the failure is told and nothing is switched (R318). -/
theorem exec_laneFailing_lost {tile lane : Nat} {s s1 : State} (ht : tile < s.tiles) (hl : lane < 4)
    (h1 : s1 = s.setF tile FED.LANES.LOCK (setBit (s.fld tile FED.LANES.LOCK) lane false)) (hfresh : s1.now < (s1.ftile tile).okAt lane + 1000)
    (hfails : s1.laneFails tile lane)
    (hspare : ¬((s1.ev tile FED.EVENTS.LANE_FAILING).feedFault (tile * 5 + lane) 1 0).flag tile FED.CTRL.SPARE_EN) :
    exec (.laneFailing tile lane true) s = .next ((s1.ev tile FED.EVENTS.LANE_FAILING).feedFault (tile * 5 + lane) 1 0) := by
  refine (onUnit_present ht hl).trans ?_
  simp only [if_true, ← h1, if_neg (not_le.mpr hfresh)]
  exact (next_if_neg (by simp [hfails])).trans (next_if_neg (by simp [hspare]))

/-- Settles O58, row by row. -/
theorem feedRowsComplete : Obligations.FeedRowsComplete := by
  refine ⟨fun _ _ _ _ h => next_if_neg h, fun _ _ => rfl, ?coverTimeout, fun _ _ _ ht hs => onUnit_present ht hs,
    fun _ _ _ ht hs h => onUnit_if_pos ht hs h, fun _ _ => rfl, fun _ _ ht => exec_indexPulse ht, fun _ _ ht h => onTile_if_pos ht h,
    fun _ _ ht => onTile_present ht, fun _ _ _ _ _ ht hl => onUnit_present ht hl,
    fun _ _ _ ht hl _ h1 hfresh hfails hspare => exec_laneFailing_lost ht hl h1 hfresh hfails hspare, ?spareOk, ?spareTimeout,
    fun _ _ _ ht hl => onUnit_present ht hl⟩
  case coverTimeout =>
    intro stream s x hx hdue
    rw [show exec (.feedCoverTimeout stream) s = execFeedCoverTimeout stream s from rfl, execFeedCoverTimeout, hx]
    exact next_if_pos hdue
  case spareOk =>
    intro tile s ht l hl hup hback hfresh hheard
    rw [show exec (.spareStatusOk tile) s = _ from onTile_present ht]
    simp only [hl]
    exact next_if_neg (by simp [hup, hback, hfresh, Option.isSome_iff_ne_none.mp hheard])
  case spareTimeout =>
    intro tile s ht l hl hup hback hdue
    rw [show exec (.spareTimeout tile) s = _ from onTile_present ht]
    simp only [hl]
    exact (next_if_neg (by simp [hup, hdue])).trans (next_if_neg hback)

/-! ### Register writes -/

theorem exec_registerWrite {tile blk off : Nat} {value : Word} {s : State} (ht : tile < s.tiles) (h15 : tile ≠ 15) :
    exec (.registerWrite tile blk off value) s =
      .next (if blockIds.contains blk then s.writeReg tile blk off (2 ^ 32 - 1) value.toNat else s) :=
  onTiles_present (f := fun t a => if blockIds.contains blk then a.writeReg t blk off (2 ^ 32 - 1) value.toNat else a) ht h15

/-- Settles O59: a write to a block that exists is `writeReg` with every byte enabled. -/
theorem registerWriteCompletes : Obligations.RegisterWriteCompletes := by
  intro tile blk off value s ht h15 hblk
  rw [exec_registerWrite ht h15, if_pos hblk]

end Sys2Proof.Machine
